-- ==== Sys2Proof/Word.lean ====
section
/-!
DEFINITION. The words of the Calong-64 and the plain records its manual lays out: bytes, register words, key blobs,
meter frames, endpoint records, reading records, journal entries. They stand here because commands carry them and
the state holds them. Nothing in this file computes an effect.
-/
namespace Sys2Proof

/-- One byte of a buffer, a frame or host memory. -/
abbrev Byte := BitVec 8
/-- One 32-bit BAR0 register word (R50). -/
abbrev Word := BitVec 32
/-- A sparse table: keys strictly rising, no entry equal to what an unlisted key reads as. -/
abbrev Tab (α : Type) := List (Nat × α)

/-- What a 64-byte wrapped key blob holds: the 56-byte plaintext of R196 and the material it was wrapped under.
RFC 5649 itself is cited, not restated, by the spec; see log entry 3. -/
structure Blob where
  kek       : BitVec 256
  intact    : Bool
  material  : BitVec 256
  handle    : Word
  parent    : Word
  gen       : BitVec 8
  typ       : BitVec 8
  usage     : BitVec 16
  parentGen : BitVec 8
  reserved  : BitVec 88
  deriving DecidableEq, Repr

/-- The protection of a meter frame (R131). -/
inductive Prot where
  | gcm | gmac | mode7 | mode5 | plain
  deriving DecidableEq, Repr

/-- A meter time as the frame carries it, with what R245 converts it by. -/
inductive MTime where
  | dt (t : BitVec 64)
  | withDeviation (localSec : Nat) (deviationMin : Int)
  | withDaylight (localSec : Nat) (dst : Bool)
  | plainLocal (localSec : Nat)
  deriving DecidableEq, Repr

/-- One segment of a multi-frame object (R173): its bytes, whether it ends the object, and the outcome of the
object tag on the first and on the second pipeline (R179). -/
structure ObjSeg where
  bytes  : List Byte
  last   : Bool
  tagOk  : Bool
  tagOk2 : Bool
  deriving DecidableEq, Repr

/-- The AES mode a frame's protection asks for, with its parameters in bytes, the IV's in bits (05 R160). -/
inductive CipherMode where
  | none
  | gcm (ivBits tag : Nat)
  | ccm (nonce tag : Nat)
  | cbc (bytes : Nat)
  | ctr
  | cmac (tag : Nat)
  | other
  deriving DecidableEq, Repr

/-- A meter frame by the fields the manual reads from it. The byte encodings of DLMS/COSEM and M-Bus are the
standards' own (log entry 4). -/
structure Frame where
  raw      : List Byte
  framing  : Nat
  proto    : BitVec 3
  addr     : BitVec 64
  prot     : Prot
  ctLen    : Nat
  aadLen   : Nat
  keyMat   : Option (BitVec 256)
  ic       : Word
  tag4     : Word
  parseOk  : Bool
  param    : CipherMode
  time     : Option MTime
  regs     : List (Nat × BitVec 64)
  volt     : Option Nat
  alarm    : Option Word
  ci       : Nat
  client   : Nat
  response : Bool
  invoke   : Nat
  outState : Option Nat
  limiter  : Option Word
  result   : Nat
  obj      : Option ObjSeg
  imgHeld  : Option (List Nat)
  ackReq   : Bool
  pending  : Bool
  deriving DecidableEq, Repr

/-- What the link layer finds when a channel receives a frame (R312, R318, R341, R347). `slotKind`: 0 none,
1 TC0 slot, 2 access slot, 3 scheduled slot. -/
structure LinkIn where
  crcOk     : Bool
  parityOk  : Bool
  collision : Bool
  gapChars  : Nat
  rssi      : BitVec 8
  slotKind  : Nat
  sfNum     : Nat
  slot      : Nat
  overrun   : Bool
  deriving DecidableEq, Repr

/-- What the buffers of a distribution hold: its target list, and the image as its descriptor's IMG_ADDR gives it
(12 R390). -/
structure DistIn where
  targets : List Word
  image   : List Byte
  deriving DecidableEq, Repr

/-- A channel whose queue may begin a frame, and the level of its pin C as the frame would begin (10 R321). -/
structure ChReady where
  ch   : Nat
  pinC : Bool
  deriving DecidableEq, Repr

/-- One tunnel entry: its 16-byte header and the frame (R124). -/
structure TunnelEntry where
  len     : Nat
  framing : Byte
  flags   : Byte
  rdt     : BitVec 64
  rssi    : Byte
  resv    : Byte
  src     : BitVec 16
  frame   : Frame
  deriving DecidableEq, Repr

/-- The DEMAND area (R258). `resv`: its reserved bits, bits [7:3] of the flag byte first, kept as found (R114). -/
structure Demand where
  maxD         : Word
  maxDt        : BitVec 64
  allocDt      : BitVec 64
  curNum       : Word
  curAcc       : Word
  head         : Nat
  filled       : Nat
  subSat       : Bool
  periodOutage : Bool
  baselineSet  : Bool
  sub          : Tab (BitVec 16)
  resv         : BitVec 53
  deriving DecidableEq, Repr

/-- The PREPAY area (R272); `flags` bits as the table numbers them. -/
structure Prepay where
  credit     : BitVec 64
  emergAvail : Word
  lastTopup  : Word
  residue    : BitVec 16
  lstate     : BitVec 8
  flags      : BitVec 8
  lowThresh  : Word
  stateDt    : BitVec 64
  deriving DecidableEq, Repr

/-- The LATE_ADJ area (R264). -/
structure LateAdj where
  lateE  : BitVec 64
  cnt    : Word
  oldest : Word
  deriving DecidableEq, Repr

/-- The endpoint record (R93, R94). Key places hold a blob or nothing (R576). `hdrRes`: REC_HDR bits [15] and [31:24],
kept as found, as `extra` is (R114). -/
structure EpRec where
  version    : BitVec 8
  state      : BitVec 3
  billing    : Bool
  proto      : BitVec 3
  ownerEpoch : BitVec 8
  meterAddr  : BitVec 64
  attach     : Word
  gridLoc    : Word
  tariffBind : Word
  writeSeq   : Word
  lastMeter  : BitVec 64
  lastRx     : BitVec 64
  rxIc       : Word
  txIcHwm    : Word
  keyCtl     : Word
  validCfg   : Word
  keyCur     : Option Blob
  keyPend    : Option Blob
  energy     : Tab (BitVec 64)
  rate       : Tab (BitVec 64)
  demand     : Demand
  prepay     : Prepay
  late       : LateAdj
  period     : Word
  relay      : Word
  alarms     : Word
  extra      : Word
  hdrRes     : BitVec 9
  deriving DecidableEq, Repr

/-- The 128-byte reading record (R139). -/
structure ReadRec where
  eid       : Word
  verdict   : Nat
  tc        : Nat
  kind      : Nat
  channel   : Byte
  rssi      : Byte
  flags     : Word
  rxIc      : Word
  meterTime : BitVec 64
  rxDt      : BitVec 64
  writeSeq  : Word
  src       : BitVec 16
  tag       : BitVec 16
  delta     : Tab Word
  rate      : Byte
  postFlags : Byte
  period    : Word
  batchId   : BitVec 64
  leaf      : BitVec 16
  detail    : BitVec 128
  sealTag   : BitVec 128
  deriving DecidableEq, Repr

/-- A key directory entry (06, Where blobs live). `st`: 0 EMPTY, 1 CURRENT, 2 REVOKED. -/
structure DirEnt where
  cur     : Option Blob
  pend    : Option Blob
  parent  : Word
  curGen  : BitVec 8
  pendGen : BitVec 8
  st      : Nat
  pinned  : Bool
  deriving DecidableEq, Repr

/-- A utility root entry: its blobs, flags, generation and KCV in the configuration key section, and the key
itself while it is available in the root store (R189, R195, R482, R578). -/
structure RootEnt where
  cur     : Option Blob
  fwd     : Option Blob
  revoked : Bool
  empty   : Bool
  gen     : BitVec 8
  kcv     : Word
  key     : Option (BitVec 256)
  deriving DecidableEq, Repr

/-- One version of a tariff table with its activation time (R246, R249). -/
structure TarVer where
  bytes : List Byte
  act   : BitVec 64
  deriving DecidableEq, Repr

/-- The versions held for one TARIFF_ID (R249). -/
structure TarEnt where
  prev : Option TarVer
  cur  : Option TarVer
  pend : Option TarVer
  deriving DecidableEq, Repr

/-- A calendar as loaded, its open period and last executed close (R243, R251). Empty bytes: not loaded. -/
structure CalEnt where
  bytes     : List Byte
  openPer   : Word
  lastClose : BitVec 64
  everClosed : Bool
  deriving DecidableEq, Repr

/-- One feeder's balance parameters (R293). -/
structure FeederMap where
  en        : Bool
  groupMask : BitVec 4
  persist   : Nat
  rMohm     : Nat
  relPermille : Nat
  fixedW    : Nat
  absMinWh  : Nat
  coverPermille : Nat
  deriving DecidableEq, Repr

/-- A meter link (R353 to R357, R363). `st`: 0 none, 1 scheduled, 2 RESYNC, 3 dropped, 4 LBT supervised.
`syncItc`, `lastHeard`: air time, that is DT less SF_OFFSET, in 2^-24 s; `offT`: what of it the device was unpowered
since the sync instant (R352). -/
structure MLink where
  st        : Nat
  channel   : Nat
  anchorSf  : Nat
  slot      : Nat
  profile   : Nat
  missed    : Nat
  syncItc   : Nat
  lastHeard : Nat
  events    : Nat
  offT      : Nat
  deriving DecidableEq, Repr

/-- What a state entry of the device journal carries (03 Persistence, R95, R107). -/
inductive JEnt where
  | epRec  (eid : Nat) (r : EpRec)
  | dir    (handle : Nat) (d : DirEnt)
  | root   (n : Nat) (r : RootEnt)
  | tariff (id : Nat) (t : TarEnt)
  | cal    (id : Nat) (c : CalEnt)
  | plan   (bytes : List Byte)
  | feeder (n : Nat) (m : FeederMap)
  | link   (eid : Nat) (l : MLink)
  | linkDrop (eid : Nat) (r : EpRec)
  | sealKeys (session sign : Word) (src : BitVec 16)
  | batch  (id prev : BitVec 64)
  | coll   (eid plan : Nat)
  | note   (code arg : Nat)
  | collPlan (plan kind period offset spread : Nat)
  | desc   (uid sq : Nat) (tag : BitVec 16) (seq pwr : Word) (opcode : BitVec 8) (tc : Nat) (eid progress : Word)
    (status : BitVec 8) (jstate : Nat)
  deriving DecidableEq, Repr

/-- A TC0 command as mirrored (R413): its descriptor's ring, tag and opcode, the endpoint, the invocation counter
and the raw descriptor. -/
structure MCmd where
  sq     : Nat
  tag    : BitVec 16
  opcode : BitVec 8
  eid    : Word
  ic     : Word
  raw    : BitVec 512
  deriving DecidableEq, Repr

/-- One entry of OP_HARN_STATUS mode 0 as a STATUS frame carries it (R424). -/
structure HarnEnt where
  flags    : Byte
  server   : Byte
  mirror   : Byte
  lanes    : Byte
  capacity : Word
  active   : Word
  deriving DecidableEq, Repr

/-- A JOIN frame (R409 step 5). -/
structure JoinReq where
  ringId      : BitVec 64
  storedPos   : Option Nat
  posReq      : Option Nat
  dramSize    : Nat
  leadStrap   : Bool
  holdsRecords : Bool
  kcvs        : List (Nat × Word)
  deriving DecidableEq, Repr

/-- What a check of a NOR slot's container answers (R487): the reason, 0 where it passes, the digests of its firmware
and legal-metrology payloads, the record format version and the newest configuration FORMAT of its image. -/
structure SlotIn where
  reason : Nat
  dFw    : BitVec 384
  dLm    : BitVec 384
  recFmt : BitVec 8
  cfgFmt : Nat
  deriving DecidableEq, Repr

/-- What start-up finds outside the device when RESET_n rises (R400, R427, R462, R478, R486, R571): straps, the level
of PFAIL_n, the fitted DRAM in MiB, the battery-backed counter, the two NOR slots, the failing start-up tests (R186) and
noise sources, the NAND dies within R427 with their page size in KiB, pages a block, blocks a die and tPROG_SLC and
tPROG_TLC in 10 µs, and whether the store root is valid. -/
structure BootIn where
  testEn    : Bool
  harnMode  : Nat
  pfailLow  : Bool
  dramMib   : Nat
  vbatLost  : Bool
  bbcSec    : Nat
  bbcFrac   : Nat
  slotA     : SlotIn
  slotB     : SlotIn
  pipeFail  : List Nat
  entA      : Bool
  entB      : Bool
  shaOk     : Bool
  ecdsaOk   : Bool
  dies      : List Nat
  geom      : List Nat
  banksMv   : List Nat
  deriving DecidableEq, Repr

/-- The outcome of the digest and signature checks of a container (R487 reasons 3 to 7), and the payload digests. -/
structure ImgCheck where
  digestsOk : Bool
  vendorKeyOk : Bool
  vendorSigOk : Bool
  ownerOk   : Bool
  lmOk      : Bool
  dFw       : BitVec 384
  dLm       : BitVec 384
  deriving DecidableEq, Repr

/-- What names a function of the lifecycle: a FUNC_ID, or a ring by kind (0 submission, 1 completion, 2 reading)
and number (R41, R43, R52). -/
inductive FuncRef where
  | func (id : Nat)
  | ring (kind n : Nat)
  deriving DecidableEq, Repr

/-- What a metrology second measured (R283, R531): RMS of VIN0 to VIN3 in mV and IIN0 to IIN11 in mA, the energy of
each current input in µJ, Q in mA²·s, the frequency in mHz, and the input that failed a check, if any. -/
structure MetSecond where
  rms   : List Nat
  ener  : List Int
  qsum  : List Nat
  freq  : Nat
  bad   : Option Nat
  deriving DecidableEq, Repr

/-- What a codeword read of the scrub or the error decoder finds (R529): no error, one symbol (its position), two
symbols (with where the codeword lies), three or more; one symbol of an SRAM or of a harness codeword. -/
inductive CwRead where
  | clean
  | one (pos : Nat)
  | sram
  | harness
  | two (loc : Nat) (key : Nat) (addr : BitVec 64)
  | more
  deriving DecidableEq, Repr

end Sys2Proof
end

