-- ==== Sys2Proof/Syntax.lean ====
section
/-!
DEFINITION. The commands of the Calong-64: one constructor per row of spec/opcode_table.json. A row for a host
descriptor names the descriptor in flight it executes (`uid`, the number DESCRIPTOR_FETCH or PUSH_WRITE gave it) and
carries what the device reads from outside for it (a buffer, a blob, the outcome of a cited check). A row for an
event carries what the event brings with it.
-/
namespace Sys2Proof

inductive Instr where
  /-- OP_NOP (R82): Host descriptor that does nothing and completes OK. -/
  | opNop (uid : Nat)
  /-- OP_STATUS (R90): Looks up the journal entry of a ring and TAG and returns JSTATE, status and progress word. -/
  | opStatus (uid : Nat)
  /-- OP_ABORT (R91): Stops a target descriptor at its next step boundary with ABORTED_BY_HOST and reports the outcome. -/
  | opAbort (uid : Nat)
  /-- OP_FUNC_CTRL_ENABLE (R538): Presents an enable request to a function under the lifecycle rules. -/
  | opFuncCtrlEnable (uid : Nat)
  /-- OP_FUNC_CTRL_DISABLE (R538): Presents a disable request to a function, subject to the in-service limits. -/
  | opFuncCtrlDisable (uid : Nat)
  /-- OP_FUNC_CTRL_QUERY (R538): Reports a function's state and pending requests. -/
  | opFuncCtrlQuery (uid : Nat)
  /-- OP_EP_PROVISION (R102): Creates an ACTIVE endpoint record, inserts its index entry and optionally installs a pending key blob. -/
  | opEpProvision (uid : Nat) (blob : Option Blob)
  /-- OP_EP_UPDATE (R103): Applies the masked record fields in one step, including state, billing mode and meter address. -/
  | opEpUpdate (uid : Nat)
  /-- OP_EP_RETIRE (R105): Moves a record to RETIRING, then finally closes, erases keys and frees it. -/
  | opEpRetire (uid : Nat)
  /-- RETIRE_DRAIN_END (R105): When no other descriptor for the EID is in flight and its readings are delivered, the retire continues with its final close, key erase and freeing. -/
  | retireDrainEnd (uid : Nat)
  /-- OP_EP_READ (R106): Writes a one-WRITE_SEQ snapshot of an endpoint record to the host buffer. -/
  | opEpRead (uid : Nat)
  /-- OP_KEY_INSTALL (R211): Installs a key from a blob, the key-load registers, the DRBG or a rehome blob, checking generation and parent. -/
  | opKeyInstall (uid : Nat) (blob : Option Blob)
  /-- OP_KEY_ERASE (R212): Marks key blobs empty, waits for their slots to free and zeroes them. -/
  | opKeyErase (uid : Nat)
  /-- OP_KEY_PIN (R207): Pins an endpoint's or directory key's slots and enters the endpoint in the pinned-state store. -/
  | opKeyPin (uid : Nat)
  /-- OP_KEY_UNPIN (R214): Unpins a key and removes the endpoint from the pinned-state store after write-through. -/
  | opKeyUnpin (uid : Nat)
  /-- OP_KEY_INVALIDATE (R213): Sets REVOKED on a key and moves its and its descendants' slots to RETIRING. -/
  | opKeyInvalidate (uid : Nat)
  /-- OP_BATCH_GET_LOG (R238): Mode 0: writes batch log entries from FROM_LSEQ, waiting up to WAIT_MS for one. -/
  | opBatchGetLog (uid : Nat)
  /-- OP_BATCH_GET_PATH (R239): Mode 1: writes the 12-entry Merkle path of a leaf in a recent batch. -/
  | opBatchGetPath (uid : Nat)
  /-- BATCH_GET_WAIT_EXPIRY (R238): WAIT_MS passes with no new log entry and the waiting batch read completes OK. -/
  | batchGetWaitExpiry (uid : Nat)
  /-- OP_SEAL_KEY_SET (R226): Pins new seal keys, closes the open batch with KEY_CHANGE and switches keys. -/
  | opSealKeySet (uid : Nat)
  /-- OP_TUNNEL_RX (R124): Checks tunnel entry headers and admits the host's tunnelled frames to tunnel ingress in list order. -/
  | opTunnelRx (uid : Nat) (entries : List TunnelEntry)
  /-- OP_QUARANTINE_READ (R141): Copies quarantine ring entries from FROM_QSEQ to the host buffer. -/
  | opQuarantineRead (uid : Nat)
  /-- OP_DISCONNECT (R379): Allocates an IC, records the relay command and sends a disconnect to the meter until link-acknowledged. -/
  | opDisconnect (uid : Nat)
  /-- OP_RECONNECT (R379): Allocates an IC, records the relay command and sends a reconnect to the meter until link-acknowledged. -/
  | opReconnect (uid : Nat)
  /-- OP_LOAD_LIMIT (R379): Sends a DLMS/COSEM limiter SET with LIMIT_W as a relay command. -/
  | opLoadLimit (uid : Nat)
  /-- OP_READ_ON_DEMAND (R385): Opens meter transactions for registers, load profile or an attribute and delivers the responses. -/
  | opReadOnDemand (uid : Nat) (targets : List Word)
  /-- OP_CREDIT_PUSH (R389): Sends a prepayment token to a DLMS/COSEM meter's token gateway. -/
  | opCreditPush (uid : Nat) (token : List Byte)
  /-- OP_TARIFF_PUSH (R392): Builds a passive calendar image from a tariff version and distributes and activates it on the targets. -/
  | opTariffPush (uid : Nat) (targets : List Word)
  /-- OP_DIST_START (R392): Starts a block distribution of an image to a target list with multicast rounds, unicast repair, verify and activate. -/
  | opDistStart (uid : Nat) (buf : DistIn)
  /-- OP_DIST_RESUME (R397): Continues a distribution from the host's progress entries and meter status reports. -/
  | opDistResume (uid : Nat) (buf : DistIn) (held : List (List Nat)) (tstates : List Nat)
  /-- OP_COLLECT_PLAN (R387): Binds targets to a collection plan and sets its period, offset and spread. -/
  | opCollectPlan (uid : Nat) (targets : List Word)
  /-- OP_TARIFF_LOAD (R250): Checks and stores a tariff table as current or pending. -/
  | opTariffLoad (uid : Nat) (table : List Byte)
  /-- OP_CALENDAR_LOAD (R250): Checks and replaces a calendar and its open period. -/
  | opCalendarLoad (uid : Nat) (cal : List Byte)
  /-- OP_LEDGER_ADJUST_TOPUP (R278): Adds credit to a prepaid ledger once per TOPUP_ID and re-evaluates the ledger. -/
  | opLedgerAdjustTopup (uid : Nat)
  /-- OP_LEDGER_ADJUST_DEBIT (R278): Debits a prepaid ledger and re-evaluates it. -/
  | opLedgerAdjustDebit (uid : Nat)
  /-- OP_LEDGER_ADJUST_EMERG_SET (R278): Sets emergency credit and arms or disarms it. -/
  | opLedgerAdjustEmergSet (uid : Nat)
  /-- OP_LEDGER_ADJUST_LOW_SET (R278): Sets the low-credit threshold. -/
  | opLedgerAdjustLowSet (uid : Nat)
  /-- OP_LEDGER_ADJUST_AUTO_RECONNECT (R278): Sets or clears automatic reconnection. -/
  | opLedgerAdjustAutoReconnect (uid : Nat)
  /-- OP_LEDGER_ADJUST_RELEASE (R274): Releases HOST_HELD or UNCONFIRMED and evaluates the ledger afresh. -/
  | opLedgerAdjustRelease (uid : Nat)
  /-- OP_REG_SNAPSHOT (R271): Returns live or stored billing snapshot blocks for one EID or a target list. -/
  | opRegSnapshot (uid : Nat) (targets : List Word)
  /-- OP_CREVASSE_REPORT_BALANCE (R302): Type 0: writes balance records from a BSEQ, waiting up to WAIT_MS. -/
  | opCrevasseReportBalance (uid : Nat)
  /-- OP_CREVASSE_REPORT_INFERENCE (R303): Type 1: writes inference entries in record-index order. -/
  | opCrevasseReportInference (uid : Nat)
  /-- OP_CREVASSE_REPORT_SCORES (R304): Type 2: scores meters on a feeder against the balance residual. -/
  | opCrevasseReportScores (uid : Nat)
  /-- OP_CREVASSE_REPORT_SNAPSHOT (R305): Type 3: writes a snapshot of the last completed metrology second. -/
  | opCrevasseReportSnapshot (uid : Nat)
  /-- CREVASSE_REPORT_WAIT_EXPIRY (R301): WAIT_MS passes with no new balance record and the waiting report completes OK. -/
  | crevasseReportWaitExpiry (uid : Nat)
  /-- OP_FEEDER_MAP (R293): Sets one feeder's balance parameters from the next balance interval. -/
  | opFeederMap (uid : Nat)
  /-- OP_CAL_RESEAL (R290): Verifies a signed reseal block and writes calibration, records the sealed digest, clears the latch and may blow CAL_LOCK. -/
  | opCalReseal (uid : Nat) (block : List Byte) (authOk sigOk : Bool)
  /-- OP_STORE_QUERY (R451): Writes matching interval-store entries to the host buffer in SSN order. -/
  | opStoreQuery (uid : Nat)
  /-- OP_STORE_DISCARD (R449): Marks an SSN or DT range of the interval store discarded. -/
  | opStoreDiscard (uid : Nat)
  /-- OP_STORE_REPLAY (R452): Redelivers stored reading records to a reading ring. -/
  | opStoreReplay (uid : Nat)
  /-- OP_STORE_HEALTH (R453): Writes the 128 B NAND health block. -/
  | opStoreHealth (uid : Nat)
  /-- OP_TIME_MSG (R463): Stamps T2 and evaluates the previous time exchange to set, step, slew or refuse. -/
  | opTimeMsg (uid : Nat)
  /-- OP_TIME_REBASE (R470): Checks an authorized token and shifts DT by a signed amount, recording it in the battery-backed counter. -/
  | opTimeRebase (uid : Nat)
  /-- OP_METER_TIME_SET (R473): Sets the clocks of listed meters, optionally only those whose skew exceeds a threshold. -/
  | opMeterTimeSet (uid : Nat) (targets : List Word)
  /-- OP_HARN_STATUS_RING (R424): Mode 0: writes one status entry per harness position. -/
  | opHarnStatusRing (uid : Nat)
  /-- OP_HARN_STATUS_TAKEN_OVER (R424): Mode 1: writes the entries of commands taken over from a silent chip. -/
  | opHarnStatusTakenOver (uid : Nat)
  /-- OP_HARN_RETURN (R422): Returns a home chip's endpoints from its serving chip after resync. -/
  | opHarnReturn (uid : Nat)
  /-- OP_CH_LOOPBACK (R326): Takes a channel out of service, runs PRBS loopback frames and re-enables it. -/
  | opChLoopback (uid : Nat) (errors : List (Nat × Nat))
  /-- OP_DUTY_TABLE_LOAD (R329): Checks and stores the radio plan of bands, RF plans and profiles. -/
  | opDutyTableLoad (uid : Nat) (plan : List Byte)
  /-- OP_IMG_BLOCK (R489): Writes image sectors to the receiving NOR slot and marks them in the sector map. -/
  | opImgBlock (uid : Nat) (data : List Byte) (mismatch : Option Nat)
  /-- OP_IMG_VERIFY (R490): Checks the received container and writes a staged configuration with forward-wrapped roots. -/
  | opImgVerify (uid : Nat) (chk : ImgCheck)
  /-- OP_IMG_ACTIVATE (R491): Loads the verified image, enters TRIAL and switches the control cores in one pause. -/
  | opImgActivate (uid : Nat) (img : SlotIn)
  /-- OP_IMG_CONFIRM_ACCEPT (R495): ACTION 0: confirms a healthy trial image or configuration. -/
  | opImgConfirmAccept (uid : Nat)
  /-- OP_IMG_CONFIRM_REJECT (R493): ACTION 1: fails the trial and falls back. -/
  | opImgConfirmReject (uid : Nat)
  /-- OP_CONFIG_WRITE (R496): Checks and stages a new configuration copy for the next start. -/
  | opConfigWrite (uid : Nat) (container : List Byte) (chk : ImgCheck)
  /-- OP_KAT (R182): Runs known-answer tests on one AES pipeline, the SHA or ECDSA engine, or the DRBG and noise sources. -/
  | opKat (uid : Nat) (failing : Option Nat)
  /-- OP_LOG_READ_READ (R510): ACTION 0: writes Firn log records from FROM_SEQ up to a fixed snapshot. -/
  | opLogReadRead (uid : Nat)
  /-- OP_LOG_READ_CLEAR (R509): ACTION 1: holds the write queue, zeroes the log and writes a log-cleared record. -/
  | opLogReadClear (uid : Nat) (verifyOk : Bool)
  /-- OP_COUNTER_PRESET_PRESET (R519): Mode 0: presets a run of counters. -/
  | opCounterPresetPreset (uid : Nat)
  /-- OP_COUNTER_PRESET_READ_AND_PRESET (R519): Mode 1: returns each counter's old state and presets it atomically. -/
  | opCounterPresetReadAndPreset (uid : Nat)
  /-- OP_COUNTER_PRESET_READ (R518): Mode 2: returns the states of a run of counters. -/
  | opCounterPresetRead (uid : Nat)
  /-- SQ_TAIL_DOORBELL (R55): Host writes a submission ring tail, which is accepted or refused as a ring error. -/
  | sqTailDoorbell (q off size : Nat) (value : Word)
  /-- CQ_HEAD_DOORBELL (R65): Host releases completion-ring entries by writing a new head. -/
  | cqHeadDoorbell (c off size : Nat) (value : Word)
  /-- RR_GRANT_DOORBELL (R74): Host grants reading-ring credit with a cumulative grant value. -/
  | rrGrantDoorbell (r off size : Nat) (value : Word)
  /-- PUSH_WRITE (R69): A 64 B memory write to a push window page is accepted into the push buffer or dropped. -/
  | pushWrite (page off len : Nat) (raw : BitVec 512)
  /-- RING_ENABLE (R52): A write of EN = 1 to a ring's CFG presents an enable request. -/
  | ringEnable (kind n : Nat) (value : Word)
  /-- RING_DISABLE (R52): A write of EN = 0 to a ring's CFG presents a disable request. -/
  | ringDisable (kind n : Nat) (value : Word)
  /-- DESCRIPTOR_FETCH (R56): The device fetches pending descriptors from a ring, by class, while in-flight places remain. -/
  | descriptorFetch (q : Nat) (raws : List (BitVec 512))
  /-- TC0_ADMISSION (R29): A TC0 item waiting at admission is admitted when an admitted TC0 item completes. -/
  | tc0Admission
  /-- PUSH_ADMISSION (R88): A push leaves the push buffer for admission when an in-flight place frees. -/
  | pushAdmission
  /-- COMPLETION_WRITE (R63): A completion is written to its completion ring once space is free. -/
  | completionWrite (c : Nat)
  /-- COMPLETION_INTERRUPT_TIMER (R78): TIME_US passes after the first unsignalled completion and the ring's vector is signalled. -/
  | completionInterruptTimer (c : Nat)
  /-- IRQ_EN_WRITE (R79): A change of IRQ_EN from 0 to 1 evaluates the interrupt conditions at once. -/
  | irqEnWrite (c : Nat) (value : Word)
  /-- MSIX_VECTOR_UNMASK (R79): Unmasking an MSI-X vector sends a message held as a pending bit. -/
  | msixVectorUnmask (v : Nat)
  /-- READING_DELIVERY (R75): A reading record is written to its reading ring when credit is held. -/
  | readingDelivery (r : Nat)
  /-- FUNCTION_LEVEL_RESET (R49): A PCIe FLR resets the host queue block and BARs, disables rings and requeues undelivered records. -/
  | functionLevelReset
  /-- REGISTER_WRITE (R12): A BAR0 write to a register with no behaviour of its own stores, ignores or clears fields by access code and lock. -/
  | registerWrite (off size : Nat) (value : Word)
  /-- WM_CFG_WRITE (R38): A write to WMn_CFG deasserts the watermark and re-evaluates the pin. -/
  | wmCfgWrite (n : Nat) (value : Word)
  /-- KL_CTRL_CLEAR (R193): Writing CLEAR zeroes the key-load registers. -/
  | klCtrlClear (value : Word)
  /-- PACE_PEAK_CLEAR (R44): Writing PEAK_CLR clears PEAK_ST_PS. -/
  | pacePeakClear (value : Word)
  /-- INFLIGHT_PEAK_CLEAR (R92): Writing PEAK_CLR clears INFLIGHT_PEAK. -/
  | inflightPeakClear (value : Word)
  /-- HOLD_PEAK_CLEAR (R187): Writing PEAK_CLR clears the hold buffer peak. -/
  | holdPeakClear (value : Word)
  /-- CHG_ROLE_WRITE (R323): A write of a channel group's ROLE takes effect only while the group and its channels are OFF. -/
  | chgRoleWrite (g : Nat) (value : Word)
  /-- CNT_LO_READ (R516): A read of a counter's low word returns it and latches the high bits with the counter's tag. -/
  | cntLoRead (k : Nat)
  /-- DT_LO_READ (R476): A read of DT_LO returns DT[31:0] and latches DT[63:32] into DT_HI. -/
  | dtLoRead
  /-- BW_SEL_WRITE (R524): A write of BW_SEL copies the selected port's last completed window. -/
  | bwSelWrite (value : Word)
  /-- BW_WINDOW_MS_WRITE (R523): A write of WINDOW_MS discards windows in progress and starts new ones. -/
  | bwWindowMsWrite (value : Word)
  /-- BW_WINDOW_END (R523): A bandwidth window ends and each port's totals become the last completed window. -/
  | bwWindowEnd
  /-- SAMPLER_ARM (R521): Writing a sampler's EN from 0 to 1 arms it at zero. -/
  | samplerArm (n : Nat) (value : Word)
  /-- RESET_ASSERT (R554): RESET_n goes low: the by-pass closes, pins idle and the key-load registers are zeroed. -/
  | resetAssert (lowNs : Nat)
  /-- RESET_RELEASE (R478): RESET_n rises: straps are sampled and the boot phases run through mount and catch-up. -/
  | resetRelease (inp : BootIn)
  /-- BOOT_READY (R479): READY sets and functions enabled before READY reach ON. -/
  | bootReady
  /-- PFAIL_ASSERT (R445): PFAIL_n goes low: ingest stops, the path drains, boundaries and batch close, and the hold-up flush runs. -/
  | pfailAssert (lowNs : Nat)
  /-- PFAIL_DEASSERT (R559): PFAIL_n returns high; the flush completes and ingest stays stopped until reset. -/
  | pfailDeassert
  /-- BANK_LEVEL_CHANGE (R311): A VDD_CH bank leaves range and its group's channels receive a disable. -/
  | bankLevelChange (g mv heldUs : Nat)
  /-- VBAT_LOW (R462): VBAT falls below 1.80 V while powered and VBAT_LOW sets with a log event. -/
  | vbatLow (mv : Nat)
  /-- PACE_MEASUREMENT (R19): Every 10 µs the pace monitor stores the present stage transit time. -/
  | paceMeasurement (ps : Nat)
  /-- VREQ_ADJUST (R22): Every 100 µs the adaptive supply code is raised, lowered or held. -/
  | vreqAdjust
  /-- FUNCTION_START_COMPLETE (R42): A function's STARTING ends in ON or, on a failed start check, OFF with queued work completed. -/
  | functionStartComplete (f : FuncRef) (checkOk : Bool)
  /-- FUNCTION_STOP_COMPLETE (R41): A function's STOPPING drains and ends in OFF, beginning any pending enable. -/
  | functionStopComplete (f : FuncRef)
  /-- CHANNEL_FRAME_RECEIVE (R318): A channel receives a whole inbound frame into its receive queue or drops it. -/
  | channelFrameReceive (ch : Nat) (f : Frame) (lk : LinkIn)
  /-- INTER_CHARACTER_GAP (R318): A gap between characters exceeding ICG ends and drops the frame. -/
  | interCharacterGap (ch gapChars : Nat)
  /-- MODEM_READY_TIMEOUT (R321): Ready stays inactive for 10 character times and the frame ends with CHANNEL_DOWN. -/
  | modemReadyTimeout (ch : Nat)
  /-- CHANNEL_FRAME_TRANSMIT (R317): A queued downlink frame begins on the pins once its slot, poll or back-off allows. -/
  | channelFrameTransmit (chan : ChReady)
  /-- DUTY_BUCKET_ROLLOVER (R364): Each minute the duty buckets age and frames waiting for budget are tried again. -/
  | dutyBucketRollover
  /-- DUTY_WAIT_TIMEOUT (R366): A frame waiting for budget beyond WAIT_S or TC0_WAIT_S completes DUTY_BUDGET_EXHAUSTED. -/
  | dutyWaitTimeout (ch uid : Nat)
  /-- BEACON_TRANSMIT (R343): A coordinator channel sends its superframe beacon with grants at slot 0. -/
  | beaconTransmit (ch : Nat)
  /-- BEACON_RECEIVE (R348): A member channel receives its coordinator's beacon and becomes SYNCED. -/
  | beaconReceive (ch panId addr sfNum : Nat)
  /-- BEACON_MISSED (R348): A member's beacon window closes without a beacon; MISSED rises and SEARCH or RESYNC may follow. -/
  | beaconMissed (ch : Nat)
  /-- MEMBER_SUPERVISION_TIMEOUT (R348): SUPERVISION_S passes without a beacon and the member enters DROPPED. -/
  | memberSupervisionTimeout (ch : Nat)
  /-- ENHANCED_ACKNOWLEDGEMENT (R344): ACK_TURN after a received frame the coordinator sends its response with time correction, defer or link assignment. -/
  | enhancedAcknowledgement (ch eid : Nat) (lk : LinkIn) (timeCorrUs : Int) (tc0 deferred : Bool)
  /-- LINK_EVENT (R355): At a meter's link event the coordinator opens a widened window on the hop channel. -/
  | linkEvent (eid : Nat)
  /-- LINK_EVENT_MISSED (R356): A link event window closes with no frame; MISSED rises and the link may enter RESYNC. -/
  | linkEventMissed (eid : Nat)
  /-- LINK_DROP (R357): SUPERVISION_S passes with no frame from a meter and its link is dropped. -/
  | linkDrop (eid : Nat)
  /-- LBT_BACKOFF (R360): A back-off wait ends and CCA decides whether to transmit or back off again. -/
  | lbtBackoff (ch : Nat) (idle : Bool)
  /-- ACK_WAIT_EXPIRY (R360): No acknowledgement arrives within ACK_WAIT and a new attempt starts or the frame waits. -/
  | ackWaitExpiry (ch : Nat)
  /-- LINK_ACKNOWLEDGEMENT (R379): A meter link-acknowledges a command frame and its descriptor completes. -/
  | linkAcknowledgement (ch eid : Nat)
  /-- RESPONSE_TIMEOUT (R374): A request unanswered for RESP_TIMEOUT_S closes as unanswered. -/
  | responseTimeout (txn : Nat)
  /-- COMMAND_WAIT_TIMEOUT (R379): A relay command not acknowledged within CMD_WAIT_S is withdrawn with LINK_LOST. -/
  | commandWaitTimeout (uid : Nat)
  /-- COLLECTION_INSTANT (R388): A target's collection instant opens a TC2 transaction of its plan. -/
  | collectionInstant (eid : Nat)
  /-- RELAY_CONFIRMATION_TIMEOUT (R277): RELAY_TIMEOUT_S passes without feedback and a timeout relay record and alarm are issued. -/
  | relayConfirmationTimeout (eid : Nat)
  /-- PARSE_AND_CLASSIFY (R128): The parser begins on a frame, classifies it and resolves its EID and key slots. -/
  | parseAndClassify (tunnel : Bool) (src : Nat)
  /-- KEY_UNWRAP (R202): An unwrap completes and the slot becomes READY or is freed. -/
  | keyUnwrap
  /-- HOLD_RESERVATION (R170): An object request waiting for hold buffer space gets its reservation and is transmitted. -/
  | holdReservation
  /-- DECRYPT_AND_VERIFY (R131): A cipher pipeline item completes, verifying the frame under the current or pending key. -/
  | decryptAndVerify (pipe : Nat) (faultFlag : Bool) (secondOk : Bool)
  /-- VALIDATION (R136): A verified frame is checked by the validation rules and given a verdict. -/
  | validation
  /-- POSTING (R256): An accepted reading posts energy, allocates rate segments, debits the ledger and applies boundaries. -/
  | posting
  /-- STORE_APPEND (R433): An entry leaves the store append queue into the interval store with the next SSN. -/
  | storeAppend
  /-- SEAL (R229): A record reaches the seal stage and gets its leaf and GMAC tag, opening or filling a batch. -/
  | sealLeaf
  /-- BATCH_CLOSE_TIMER (R231): CLOSE_MS after a batch opened it closes with cause TIME. -/
  | batchCloseTimer
  /-- BATCH_SIGN (R235): A closed batch header is signed and entered in the batch log. -/
  | batchSign
  /-- FILTER_ENTRY_EVICTION (R134): A duplicate filter entry is evicted DEDUP_WINDOW_S after it was taken. -/
  | filterEntryEviction
  /-- SLOT_ZEROIZE (R202): A RETIRING kennel slot's reference count reaches 0 and it is zeroed and freed. -/
  | slotZeroize (slot : Nat)
  /-- KEY_SLOT_BUSY_TIMEOUT (R205): A descriptor waiting 1 ms for a kennel slot completes KEY_SLOT_BUSY. -/
  | keySlotBusyTimeout (uid : Nat)
  /-- SHARE_RERANDOMISE (R206): At least every 10 ms READY slots' key shares are re-randomised. -/
  | shareRerandomise
  /-- MASK_SET_REFILL (R156): A pipeline's mask pool gains one set per 32 st and waiting blocks proceed. -/
  | maskSetRefill (pipe : Nat)
  /-- NOISE_SOURCE_FAIL (R163): A noise source fails a health test and is excluded. -/
  | noiseSourceFail (source : Nat)
  /-- NOISE_SOURCE_RETURN (R163): An excluded source passes 4,096 samples and returns. -/
  | noiseSourceReturn (source : Nat)
  /-- DRBG_RESEED (R164): The DRBG reseeds after 2^RESEED_LOG2 requests, or refuses if no source passes. -/
  | drbgReseed
  /-- MASK_EXPANDER_RESEED (R164): A mask expander reseeds from the DRBG after 65,536 mask sets. -/
  | maskExpanderReseed (pipe : Nat)
  /-- INTERVAL_END (R254): A boundary table interval-end entry is processed and advances BILL_POS. -/
  | intervalEnd
  /-- DEMAND_END (R254): A boundary table demand-end entry is processed and advances BILL_POS. -/
  | demandEnd
  /-- TARIFF_SWITCH (R254): A boundary table tariff-switch entry is processed and advances BILL_POS. -/
  | tariffSwitch
  /-- TARIFF_ACTIVATE (R249): A pending tariff version becomes current at its activation time. -/
  | tariffActivate
  /-- PERIOD_CLOSE (R254): A calendar close boundary starts the close sweep and advances the open period. -/
  | periodClose
  /-- FRIENDLY_END (R254): A friendly-window end starts an evaluation sweep over records in FRIENDLY_HOLD. -/
  | friendlyEnd
  /-- CLOSE_SWEEP (R265): The close sweep visits records bound to a calendar and closes their period. -/
  | closeSweep
  /-- FRIENDLY_EVALUATION_SWEEP (R254): The sweep re-evaluates ledgers of records in FRIENDLY_HOLD. -/
  | friendlyEvaluationSweep
  /-- LEAP_CHANGE (R468): DT reaches LEAP_DT and the TAI-UTC offset takes its next value. -/
  | leapChange
  /-- HOLDOVER_ENTRY (R464): No exchange is accepted for HOLDOVER_S and discipline enters HOLDOVER. -/
  | holdoverEntry
  /-- BATTERY_COUNTER_SYNC (R461): At a DT second boundary the battery-backed counter is rewritten when it has drifted. -/
  | batteryCounterSync
  /-- RATE_CORR_SAVE (R462): Hourly the rate correction and integral term are saved to MRAM. -/
  | rateCorrSave
  /-- HEARTBEAT_TRANSMIT (R404): Every 500 ns the harness unit sends heartbeats in both directions. -/
  | heartbeatTransmit
  /-- HEARTBEAT (R407): A received heartbeat refreshes its origin's liveness and is forwarded with HOPS reduced. -/
  | heartbeat (port origin hops epoch : Nat)
  /-- RING_TICK_TRANSMIT (R404): Every 1 ms the lead sends a RING_TICK with its DT. -/
  | ringTickTransmit
  /-- RING_TICK (R471): A member receives a ring tick, disciplines DT to it and follows lead rebases. -/
  | ringTick (leadDt : BitVec 64) (correctionNs hops rebaseCnt : Nat) (shiftNs : Int)
  /-- STATUS_FRAME_TRANSMIT (R404): Every 1 ms a chip sends its STATUS frame to the lead. -/
  | statusFrameTransmit
  /-- STATUS (R424): The lead receives a chip's STATUS frame for harness status reports. -/
  | status (pos : Nat) (ent : HarnEnt)
  /-- LINK_ACK (R405): A LINK_ACK releases acknowledged frames from the replay buffer and opens mirror gates. -/
  | linkAck (port lseq : Nat)
  /-- REPLAY_RESEND (R405): A held ring frame unacknowledged after 1 µs is resent. -/
  | replayResend (port : Nat)
  /-- LANE_FAILURE (R406): A lane fails to train or exceeds the symbol error limit and its port runs on one lane. -/
  | laneFailure (lane : Nat)
  /-- PORT_BROKEN (R408): A broken port makes both neighbouring chips wrap the ring. -/
  | portBroken (port : Nat)
  /-- PORT_RETRAIN (R408): A broken port trains again and the chips unwrap once replay buffers empty. -/
  | portRetrain (port : Nat)
  /-- MIRROR_RAW (R413): The shadow receives and holds a mirrored raw inbound frame. -/
  | mirrorRaw (src id epoch : Nat) (f : Frame)
  /-- MIRROR_STATE (R413): The shadow applies a mirrored state entry to its mirror copy. -/
  | mirrorState (src epoch : Nat) (e : JEnt)
  /-- MIRROR_READING (R413): The shadow holds a mirrored sealed reading and posting entry. -/
  | mirrorReading (src id epoch : Nat) (rd : ReadRec) (post : Option EpRec)
  /-- MIRROR_CMD (R413): The shadow holds a mirrored TC0 command with its IC and frame. -/
  | mirrorCmd (src epoch : Nat) (c : MCmd)
  /-- RELEASE (R413): The shadow drops held mirror items the primary marks delivered, discarded or acknowledged. -/
  | release (src epoch kind id : Nat)
  /-- SYNC_COPY (R415): A received sync copy of a record or held state is applied in WRITE_SEQ order. -/
  | syncCopy (src : Nat) (e : JEnt)
  /-- MIRROR_SYNC_COMPLETE (R415): The mirror copy is complete and the pair's mirroring becomes ON. -/
  | mirrorSyncComplete
  /-- MIRROR_GATE_TIMEOUT (R414): A gate waits 2 µs on a silent shadow; the action proceeds and mirroring goes OFF. -/
  | mirrorGateTimeout
  /-- SILENCE_DECLARED (R417): No heartbeat from a position for 2 µs: it is declared silent and the isolation test, fence or takeover follows. -/
  | silenceDeclared (pos : Nat) (lowReturned : Bool)
  /-- TC0_STAGE_HANG (R417): The hang check finds the TC0 admission stage hung, stops heartbeats and fences the chip. -/
  | tc0StageHang
  /-- JOIN_REQUEST (R409): A sideband low of 10 µs or more from a joining chip is reported to the lead as a join request. -/
  | joinRequest (side lowUs : Nat)
  /-- JOIN (R410): The lead receives a JOIN and assigns a position or refuses. -/
  | join (req : JoinReq)
  /-- JOIN_GRANT (R409): A joining chip receives its position, releases the sidebands and begins serving or waiting. -/
  | joinGrant (pos server : Nat) (served : Bool) (ringId : BitVec 64)
  /-- JOIN_REFUSE (R410): A refused chip closes its by-pass and the ring unwraps. -/
  | joinRefuse (err : Nat)
  /-- HARNESS_LINK_TRAINED (R409): A joining chip's links train after it opens its by-pass and it sends JOIN. -/
  | harnessLinkTrained
  /-- OWNER (R420): A chip receives an OWNER broadcast and updates EP_OWNER and the owner epoch. -/
  | owner (pos server : Nat) (valid : Bool) (epoch : Nat)
  /-- GARBAGE_COLLECTION (R440): A chosen victim block's valid units are copied, committed and the block erased. -/
  | garbageCollection (die : Nat)
  /-- NAND_PROGRAM_FAILURE (R442): A failed program retires the target block and redoes the copy into a fresh block. -/
  | nandProgramFailure (die : Nat)
  /-- NAND_ERASE_FAILURE (R428): A failed erase retires the block; three in a row disable the die. -/
  | nandEraseFailure (die : Nat)
  /-- DIE_TIMEOUT (R428): A die that answers no command for 10 ms is disabled. -/
  | dieTimeout (die : Nat)
  /-- PATROL_READ (R443): The patrol reads the next page and schedules refresh when thresholds are met. -/
  | patrolRead (die corrections : Nat) (eccFail retryOk rebuildOk : Bool)
  /-- JOURNAL_PROGRAM (R107): A journal tail page is programmed in both copies to NAND. -/
  | journalProgram
  /-- CHECKPOINT (R109): Each CKPT_PERIOD_MIN every record and map piece is checkpointed. -/
  | checkpoint
  /-- NAND_TEMPERATURE_READ (R453): Once a minute die temperatures are read and hours accumulated. -/
  | nandTemperatureRead (temps : List Int)
  /-- SCRUB_PASS (R536): The DRAM scrub reads the next codeword of a rank and corrects it. -/
  | scrubPass (rank : Nat) (r : CwRead)
  /-- CONTROL_CORE_RESTART (R40): A core missing its supervisor signal or faulting restarts and its descriptors complete DEVICE_FAULT_PARTIAL. -/
  | controlCoreRestart (core cause : Nat)
  /-- CORE_RESTART_COMPLETE (R40): A restarting core runs again and fetches admin descriptors. -/
  | coreRestartComplete (core : Nat)
  /-- METROLOGY_SECOND (R283): Each DT second the front end forms RMS, energy and Q sums and checks inputs. -/
  | metrologySecond (m : MetSecond)
  /-- SEAL_LOOP_CHECK (R288): Every 1 ms the seal loop is driven and a third mismatch latches an opening. -/
  | sealLoopCheck (matched : Bool)
  /-- SEAL_LOOP_PULSE (R288): Once a second while unpowered the backup domain pulses the loop and latches a failure. -/
  | sealLoopPulse (ok : Bool)
  /-- INFERENCE_INTERVAL_END (R285): An inference interval ends and its mean voltages and currents are kept. -/
  | inferenceIntervalEnd
  /-- INFERENCE_WINDOW_END (R295): A phase or feeder inference window ends and the location may be written. -/
  | inferenceWindowEnd
  /-- BALANCE_EVALUATION (R299): A balance interval is evaluated when complete or after BAL_GRACE and the feeder state moves. -/
  | balanceEvaluation (feeder : Nat)
  /-- LOG_RECORD_WRITE (R506): The next queued Firn log event is written, committed and read back. -/
  | logRecordWrite (readBackOk : Bool)
  /-- FLURRY_TOKEN (R505): Every FLURRY_MS a code's bucket gains a token until full. -/
  | flurryToken (code : Nat)
  /-- TRIAL_WINDOW_EXPIRY (R493): The trial window's operating seconds run out and the device falls back. -/
  | trialWindowExpiry
  /-- BACKGROUND_MIGRATION (R113): A background pass at TC3 migrates the next record still in an older format to the running image's version and lowers MIGRATE_LEFT. -/
  | backgroundMigration
  /-- PCIE_LINK_DOWN (R176): The PCIe link goes down, so no completion is written for a descriptor whose zero writes had not completed, and its BUF_ADDR content becomes undefined. -/
  | pcieLinkDown
  /-- NAND_PAGE_PROGRAMMED (R436): A queued interval-store page finishes programming on its die, freeing its place in queue 0x4F and letting waiting appends proceed. -/
  | nandPageProgrammed (die : Nat)
  /-- BOUNDARY_SCAN_INSTRUCTION (R537): An IEEE 1149.1 or 1149.6 instruction shifted in through the test access port takes effect, EXTEST, INTEST, CLAMP and AC instructions only while RESET_n is low. -/
  | boundaryScanInstruction (instr : Nat)
  deriving DecidableEq, Repr

end Sys2Proof
end

