-- ==== Sys2Proof/Decode.lean ====
section
/-!
DEFINITION. The words of the table. No row of spec/opcode_table.json gives bits: the table's rows are host
descriptors (64 bytes that the model takes as DESCRIPTOR_FETCH's and PUSH_WRITE's operands) and events.
-/
namespace Sys2Proof

/-- The command a word spells by the table's bits: none, since no row gives bits. -/
def decodeTableWord (_nbits _w : Nat) : Option Instr := none

end Sys2Proof
end

