-- ==== Sys2Proof/Config.lean ====
section
/-!
DEFINITION. What the spec leaves free and what it only cites. A constant of this file has no body: nothing can be
proved about the value it gives, so a statement holds whatever the value is. Two kinds stand here.
* FREE VALUES: a result the spec does not state (a random number, an undefined content). Each is applied to the
  counter `State.free`, which the step that takes one advances.
* CITED STANDARDS: AES, GCM, SHA, ECDSA, RFC 5649. The spec says which one is applied to what and does not
  restate it; the function is left uninterpreted and is applied to the inputs the spec names (log entry 3).
Fused identity values (R543, R571) are constants of one part and stand here too.
-/
namespace Sys2Proof

/-- Part serial number, fused at test (R543): distinct per part, never changing. -/
opaque Config.serial : BitVec 64
/-- Fused grade: 0 TH64C-A, 1 TH64C-X (R7, R543). -/
opaque Config.grade : BitVec 1
/-- Whether an owner key hash is fused (R487 reason 6, BOOT_STATUS.OWNER_FUSED). -/
opaque Config.ownerFused : BitVec 1

/-- FREE: a random word of the DRBG: nonces, back-off draws, generated keys (05 R164, 09 R290, 11 R360, 15 R469). -/
opaque Config.drbg : Nat → BitVec 256
/-- FREE: an undefined byte: BUF_ADDR after a PCIe loss (R176), discarded store content (R450). -/
opaque Config.freeByte : Nat → BitVec 8
/-- FREE: an undefined choice between two outcomes (RESET_n pulse of 100 ns to 10 µs, R554). -/
opaque Config.freeBool : Nat → Bool
/-- FREE: an outcome the spec leaves open as a number (three or more symbols in error, R529; bytes moved at the DRAM, R523). -/
opaque Config.freeNat : Nat → Nat

/-- CITED: SHA-256 of a byte string. -/
opaque Config.sha256 : List Byte → BitVec 256
/-- CITED: SHA-384 of a byte string. -/
opaque Config.sha384 : List Byte → BitVec 384
/-- The device unique secret of this part (R190): no path reads it out (R192). -/
opaque Config.deviceSecret : BitVec 256
/-- CITED: AES encryption of one block under a key of 128 bits (false) or 256 bits (true). -/
opaque Config.aes : Bool → BitVec 256 → BitVec 128 → BitVec 128
/-- CITED: the 64 bytes RFC 5649 makes of a 56-byte plaintext under a wrapping key. -/
opaque Config.wrap : BitVec 256 → List Byte → BitVec 512
/-- CITED: AES-GCM tag over bytes under key material and a nonce (07 R229, 15 R469). -/
opaque Config.gcmTag : BitVec 256 → BitVec 96 → List Byte → BitVec 128
/-- CITED: AES-CMAC over bytes under key material. -/
opaque Config.cmac : BitVec 256 → List Byte → BitVec 128
/-- CITED: the integers r and s of an ECDSA signature on the curve of a key type, by a private scalar and the DRBG's nonce,
over a message hash (07 R235; FIPS 186-5). -/
opaque Config.ecdsaSign : BitVec 8 → Nat → Nat → Nat → Nat × Nat
/-- CITED: the downlink frame bytes of DLMS/COSEM or M-Bus that carry a request (12 R371, R377). -/
opaque Config.downFrame : Nat → List Nat → List Byte
/-- CITED: the public point X ‖ Y of a private scalar on P-256 (type 4) or P-384 (type 5) (R199, R210). -/
opaque Config.pubPoint : BitVec 8 → Nat → List Byte
/-- FREE: the slot of the 65,536-entry duplicate filter an EID, generation, counter and tag fall to: the hash is not
stated (04 R134). -/
opaque Config.filterHash : Nat → BitVec 8 → Word → Word → BitVec 16
/-- UNSTATED: the 64 bytes of a posting entry of an EID and WRITE_SEQ (14 R432). -/
opaque Config.postEntry : Nat → Nat → BitVec 512
/-- CITED: the A-XDR image of a passive activity calendar built from a tariff table (12, Distributions). -/
opaque Config.passiveCalendar : List Byte → List Byte
/-- FREE: a field of a ring frame's header that the spec does not state for the frame: 0 CLASS, 1 HOPS, 2 LEN; by TYPE and
content (13 R404, log entry 168). -/
opaque Config.ringField : Nat → Nat → List Nat → Nat
/-- UNSTATED: the depth of the credit queues whose depth no chapter gives: 0x4D and 0x4E (01, Watermarks). -/
opaque Config.queueDepth : Nat → Nat
/-- UNSTATED: the bytes a state entry of a kind takes in the journal tail (R108): the spec gives no size. DEDUCED (log entry 48):
an entry lies in one journal page (R440), so it takes fewer than 65,536 bytes. -/
opaque Config.entryLen : Nat → BitVec 16
/-- That size as a number of bytes. -/
def Config.entryBytes (kind : Nat) : Nat := (Config.entryLen kind).toNat

/-- UNSTATED: the Firn log code of a frame dropped for want of credit (R362) and of a device-originated frame that waits
for duty budget (R366): R504 lists none for either. -/
opaque Config.radioLogCode : Nat → Nat

/-- FREE: the EID of the operation a sample names: the one whose increment reached the threshold or one of the 16 the block
completes next (18 R521; log entry 19). -/
opaque Config.sampleTag : Nat → BitVec 32 → BitVec 32

/-- UNSTATED: what an image makes of a configuration body of an older FORMAT, for the FORMAT it writes (16 R498). -/
opaque Config.migrateBody : Nat → List Byte → List Byte

/-- UNSTATED: rated endurance of a block, from the NAND profile (R453). -/
opaque Config.ratedEndurance : BitVec 32

/-- UNSTATED: the cause byte of Firn log code 0x0601 (R504 lists none): 0 three mismatches, 1 a failed pulse, 2 the
backup domain lost power, 3 D_lm changed. -/
opaque Config.loopCause : Nat → Nat

end Sys2Proof
end

