-- ==== Sys2Proof/Machine/State.lean ====
section
/-!
DEFINITION. The state of the Calong-64 as plain data: every register, queue, table, counter, mode and pin the spec
gives it, the host memory the device writes, what it has put on its pins, and the queue of commands that wait.
`State.reset` is the machine while RESET_n is low, before any start.
-/
namespace Sys2Proof.Machine
open Sys2Proof

/-- Why a step stops without a next state. -/
inductive Fault where
  /-- Raised by RESET_RELEASE with TEST_EN strapped high: no rule of the manual then holds (R571), so it gives the
  event no effect. Safe: a run stops where the manual says nothing. -/
  | factoryTest
  deriving DecidableEq, Repr

/-- Why a command has no meaning in the model. -/
inductive Refusal where
  /-- Raised by Dispatch for a command whose meaning is not written yet. Safe: nothing is claimed of it. -/
  | notModelled (mnemonic : String)
  deriving DecidableEq, Repr

/-- What the device has put on its pins or answered to a read: an MSI-X message, a memory write over PCIe (address,
length, and whether its Relaxed Ordering attribute is set, 02 R48), a frame on a channel, a beacon, a
transceiver's channel set, a ring frame on a harness port, a read's data. -/
inductive WireEv where
  | write (addr len : Nat) (relaxed : Bool)
  | msix (v : Nat)
  | frame (ch : Nat) (bytes : List Byte)
  | spi (group ch len : Nat)
  | beacon (ch : Nat) (words : List Nat)
  | tune (ch cmd idx : Nat)
  | ring (port kind : Nat) (args : List Nat)
  | ringHead (port : Nat) (bytes : List Byte)
  | read (w : Word)
  deriving DecidableEq, Repr

/-! ## Function lifecycle (01 R41, R42) -/

/-- The four states of a function, in the encoding of FUNC_STATE (R44). -/
inductive FnSt where
  | off | starting | on | stopping
  deriving DecidableEq, Repr

/-- A function or a ring under R41 and R42. `queued`: work addressed to it while STARTING, oldest first. -/
structure Fn where
  st      : FnSt
  enPend  : Bool
  disPend : Bool
  queued  : List Nat
  deriving DecidableEq, Repr

/-- A function that is OFF with nothing pending. -/
def Fn.idle : Fn := ⟨.off, false, false, []⟩

/-! ## Global control (01 R44) -/

/-- Pace monitor, supply request, watermark states and control cores. `below`: the TCXO stamp since which every
measurement has stood below 95 % of the target, none while the newest does not (R22). `cores`: 0 running, 1 paused,
2 restarting, 3 halted. `arb`: grants a class has had in the present round of an arbiter, by 4 × arbiter + class
(R26). -/
structure Glob where
  stPs    : BitVec 16
  valid   : Bool
  peak    : BitVec 16
  code    : BitVec 8
  below   : Option Nat
  wm      : List Bool
  cores   : List Nat
  arb     : Tab Nat
  deriving DecidableEq, Repr

/-- The board's pins: RESET_n and PFAIL_n, the instruction of the test access port, and whether the MRAM and the
straps say the part is one of a harness. -/
structure Pins where
  resetLow : Bool
  pfailLow : Bool
  tap      : Nat
  harnMode : Nat
  deriving DecidableEq, Repr

/-! ## Host rings (02) -/

/-- What a descriptor of several rows is doing (R83). `list`: targets not yet answered (index × 2^32 + EID), how many are
done and not done. `drain`: its outcome is settled and its reading records are on their way (R86). -/
inductive Stage where
  | none
  | wait (since a b : Nat)
  | list (todo : List Nat) (done notDone : Nat)
  | relay (ic : Word) (since : Nat) (sent : Bool) (kind : Nat)
  | drain (status step : Nat) (res : BitVec 128)
  deriving DecidableEq, Repr

/-- A descriptor fetched or pushed whose completion is not yet written or discarded (R88). `admWait`: waits at TC0
admission (R29). `inPush`: in the push buffer (R72). `ended`: its completion is formed and waits to be written.
`discard`: a Function Level Reset has dropped its completion in advance (R49). `adm`: the TCXO stamp of its admission. -/
structure Flight where
  uid     : Nat
  sq      : Nat
  cq      : Nat
  idx     : Option Nat
  raw     : BitVec 512
  seq     : Word
  admWait : Bool
  inPush  : Bool
  started : Bool
  ended   : Bool
  discard : Bool
  step    : Nat
  units   : Nat
  stage   : Stage
  adm     : Nat
  deriving DecidableEq, Repr

/-- A completion formed and not yet written (R63). `after`: a descriptor whose completion must be written first
(R86). `tc0`: an alarm's unsolicited completion, whose writing frees the frame's TC0 place (R29). -/
structure Cpl where
  uid      : Nat
  unsol    : Bool
  sq       : Nat
  tag      : BitVec 16
  status   : BitVec 8
  progress : Word
  dt       : BitVec 64
  result   : BitVec 128
  irqNow   : Bool
  headIdx  : Option Nat
  after    : Option Nat
  tc0      : Bool
  deriving DecidableEq, Repr

/-- A submission ring (02 R53 to R58). `db`: the last doorbell; `done`: TAGs of it whose completion has been written, by which
OP_ABORT tells a target already completed from one not found (R91). -/
structure Sq where
  fn    : Fn
  error : Bool
  head  : Nat
  tail  : Nat
  seq   : Word
  db    : Word
  done  : List (BitVec 16)
  deriving DecidableEq, Repr

/-- `phaseInv`: PHASE written is 0 (R62). `unsig`: completions since the last message; `timer`: the TCXO stamp of the
first completion not yet signalled (R78). -/
structure Cq where
  fn       : Fn
  error    : Bool
  head     : Nat
  tail     : Nat
  phaseInv : Bool
  unsig    : Nat
  timer    : Option Nat
  db       : Word
  waiting  : List Cpl
  deriving DecidableEq, Repr

/-- A sealed reading record on its way to a reading ring, with the group and class its route is chosen by (R77).
`tc0`: it still holds a TC0 place (R29); `uid`: the descriptor that caused it (R86);
`ring`: the ring a replay names (14 R452). -/
structure Deliv where
  id    : Nat
  tc0   : Bool
  rd    : ReadRec
  group : Nat
  cls   : Nat
  uid   : Option Nat
  ring  : Option Nat
  deriving DecidableEq, Repr

/-- `uncov`: records written and not yet covered by a tail write-back (R49); `unsig`: records since the last message
(R79). -/
structure Rr where
  fn       : Fn
  error    : Bool
  grantErr : Bool
  w        : Word
  g        : Word
  unsig    : Nat
  db       : Word
  uncov    : List Deliv
  deriving DecidableEq, Repr

/-- An OP_STATUS journal entry (R89, R90). `jstate` as R90 numbers it. -/
structure JrnlEnt where
  uid      : Nat
  sq       : Nat
  tag      : BitVec 16
  seq      : Word
  pwr      : Word
  opcode   : BitVec 8
  progress : Word
  status   : BitVec 8
  jstate   : Nat
  deriving DecidableEq, Repr

/-- An item waiting at TC0 admission (R29): a descriptor, or the frame at the head of an ingress queue. -/
inductive AdmItem where
  | desc (uid : Nat)
  | frame (tunnel : Bool) (src : Nat)
  deriving DecidableEq, Repr

/-- What the PCI configuration space holds that software or the link may change (02 R47, R48; layout and reset values
PRESUMED, log entry 145): the Command register, the Device Control register (bit 4 Enable Relaxed Ordering, [7:5] Max
Payload Size, [14:12] Max Read Request Size), the power state (0 D0, 3 D3hot), the ASPM control field, the AER
uncorrectable and correctable status registers, and the message address and data of each MSI-X table entry. -/
structure PcieSt where
  command : BitVec 16
  devCtl  : BitVec 16
  pmState : BitVec 2
  aspm    : BitVec 2
  uncErr  : Word
  corErr  : Word
  msixTab : Tab (BitVec 96)
  deriving DecidableEq, Repr

/-- Configuration space after a reset or a Function Level Reset: Relaxed Ordering enabled, 128 B payload, 512 B read
requests, D0, ASPM disabled, no error logged. -/
def PcieSt.reset : PcieSt := ⟨0, 0x2810, 0, 0, 0, 0, []⟩

/-- The host interface. `uidNext` and `delivNext` number descriptors and records for the model. `posted`: writes to
host memory that wait for the link to come up again (R86). -/
structure HostSt where
  sq        : Tab Sq
  cq        : Tab Cq
  rr        : Tab Rr
  flights   : List Flight
  pushBuf   : List Nat
  admQ      : List AdmItem
  jrnl      : List JrnlEnt
  deliv     : List Deliv
  peak      : Nat
  dbDrop    : BitVec 16
  pushDrop  : BitVec 16
  pushOvf   : BitVec 16
  unsolCnt  : Nat
  msixMask  : Tab Bool
  msixPend  : Tab Bool
  uidNext   : Nat
  delivNext : Nat
  lastRead  : Word
  linkDown  : Bool
  posted    : List (Nat × List Byte × Bool)
  dbT2      : Tab (BitVec 64)
  t2s       : Tab (BitVec 64)
  pcie      : PcieSt
  deriving DecidableEq, Repr

def Sq.idle : Sq := ⟨Fn.idle, false, 0, 0, 0, 0, []⟩
def Cq.idle : Cq := ⟨Fn.idle, false, 0, 0, false, 0, none, 0, []⟩
def Rr.idle : Rr := ⟨Fn.idle, false, false, 0, 0, 0, 0, []⟩

/-! ## Firn log (17) -/

/-- An admitted event (R505). -/
structure LogEv where
  code  : BitVec 16
  sev   : Nat
  data  : BitVec 96
  opSec : Word
  pwr   : Word
  deriving DecidableEq, Repr

/-- A committed record (R503). -/
structure LogRec where
  seq   : Word
  ev    : LogEv
  supp  : Nat
  sat   : Bool
  resv  : Bool
  deriving DecidableEq, Repr

/-- A code's token bucket: `taken` tokens are out, of a depth `burst` at a period `ms`; `supp` events suppressed since
the last record of the code; its timer ran from `since`, when it started or last gave a token (R505, R513). -/
structure Bucket where
  taken : Nat
  burst : Nat
  ms    : Nat
  supp  : Nat
  since : Nat
  deriving DecidableEq, Repr

structure LogSt where
  recs       : List LogRec
  reserve    : List LogRec
  next       : Word
  queue      : List LogEv
  full       : Bool
  mediaFault : Bool
  held       : Bool
  dropped    : Word
  suppressed : Word
  buckets    : Tab Bucket
  deriving DecidableEq, Repr

def Bucket.full : Bucket := ⟨0, 8, 1000, 0, 0⟩

/-! ## Counters (18) -/

/-- One sampler (R521, R522); INDEX, VECTOR, EN and the written THRESH stand in the register bank. -/
structure Smp where
  since   : Nat
  thresh  : Word
  pending : Bool
  overrun : Bool
  ovfCnt  : BitVec 16
  tag     : Word
  val     : Word
  deriving DecidableEq, Repr

/-- One port's bandwidth meter (R523). -/
structure BwPort where
  rx     : BitVec 64
  tx     : BitVec 64
  lastRx : BitVec 64
  lastTx : BitVec 64
  seq    : BitVec 16
  done   : Bool
  deriving DecidableEq, Repr

structure BwCopy where
  rx    : BitVec 64
  tx    : BitVec 64
  seq   : BitVec 16
  valid : Bool
  deriving DecidableEq, Repr

/-- Counters are 56 bits: VALUE [47:0] and WRAP [55:48] (R515). -/
structure CntSt where
  val    : Tab (BitVec 56)
  latch  : BitVec 31
  ltag   : Nat
  smp    : Tab Smp
  bw     : Tab BwPort
  copy   : BwCopy
  bwStart : Nat
  deriving DecidableEq, Repr

def Smp.idle : Smp := ⟨0, 0x10000, false, false, 0, 0, 0⟩
def BwPort.idle : BwPort := ⟨0, 0, 0, 0, 0, false⟩

/-! ## Faults and scrub (19) -/

/-- One rank's scrub (R536): weak position, passes, corrections per symbol position in the pass, and codewords read in it. -/
structure Rank where
  weak     : BitVec 8
  passes   : BitVec 8
  perPos   : Tab Nat
  words    : Nat
  deriving DecidableEq, Repr

structure FltSt where
  ueSeen   : Bool
  dramWeak : Bool
  src      : BitVec 3
  ueCnt    : BitVec 16
  ueAddr   : BitVec 64
  ranks    : List Rank
  deriving DecidableEq, Repr

def Rank.idle : Rank := ⟨0xFF, 0, [], 0⟩
/-! ## Endpoint records and the device journal (03) -/

/-- An entry of the journal tail or of its NAND copy (R107): its journal sequence, the WRITE_SEQ it produced where it
carries a record, and what it carries. -/
structure JTail where
  jseq : Nat
  wseq : Word
  ent  : JEnt
  deriving DecidableEq, Repr

/-- A pinned endpoint's live fields (04 R123). -/
structure PinEnt where
  on     : Bool
  rxIc   : Word
  txIc   : Word
  relay  : Word
  alarms : Word
  addr   : BitVec 64
  proto  : BitVec 3
  deriving DecidableEq, Repr

/-- Records by EID, own and mirrored by home position; `jwait`: state entries formed for which the journal tail has no
room yet (R108); `retire`: steps of OP_EP_RETIRE done for an EID (R105);
`ckptAct`: true only inside a checkpoint pass, which is one step; `ckptAt`: when the newest pass began (R109); `ckpt`,
`ckptEnts`: newest checkpointed copies of the records
and of the other state; `jnand`: entries programmed and not reclaimed (R110). -/
structure RecSt where
  tab      : Tab EpRec
  pins     : Tab PinEnt
  retire   : Tab Nat
  dramMib  : Nat
  owner    : List (Nat × Bool)
  epoch    : BitVec 8
  fmt      : BitVec 8
  migrate  : Bool
  jtail    : List JTail
  jwait    : List JTail
  jseq     : Nat
  durable  : Word
  ckptCnt  : BitVec 16
  ckptAct  : Bool
  ckptAt   : Nat
  ckpt     : Tab EpRec
  ckptEnts : List JEnt
  jnand    : List JTail
  deriving DecidableEq, Repr

def Demand.zero : Demand := ⟨0, 0, 0, 0, 0, 0, 0, false, false, false, [], 0⟩
def Prepay.zero : Prepay := ⟨0, 0, 0, 0, 0, 0, 0, 0⟩
def LateAdj.zero : LateAdj := ⟨0, 0, 0⟩

/-- A FREE record: zeros (R106). -/
def EpRec.free : EpRec :=
  { version := 0, state := 0, billing := false, proto := 0, ownerEpoch := 0, meterAddr := 0, attach := 0,
    gridLoc := 0, tariffBind := 0, writeSeq := 0, lastMeter := 0, lastRx := 0, rxIc := 0, txIcHwm := 0, keyCtl := 0,
    validCfg := 0, keyCur := none, keyPend := none, energy := [], rate := [], demand := Demand.zero,
    prepay := Prepay.zero, late := LateAdj.zero, period := 0, relay := 0, alarms := 0, extra := 0,
    hdrRes := 0 }

def PinEnt.none : PinEnt := ⟨false, 0, 0, 0, 0, 0, 0⟩

/-! ## Update and configuration (16) -/

/-- A configuration copy in MRAM (R482): whether MAGIC and CRC hold, its header, key section and body. -/
structure CfgCopy where
  ok     : Bool
  seq    : Word
  format : BitVec 8
  roots  : Tab RootEnt
  body   : List Byte
  deriving DecidableEq, Repr

/-- What ran or was joined when the health reference was recorded (R494). -/
structure Health where
  pipes : List Bool
  store : Bool
  join  : Bool
  time  : Bool
  deriving DecidableEq, Repr

/-- `state`: 0 IDLE, 1 RECEIVING, 2 STAGING, 3 VERIFIED, 4 CFG_STAGED, 5 TRIAL (R481). `norA`, `norB`: the bytes of
the NOR slots. `trialWin`: the window of the trial in progress (R502). `cfgFmt`: newest FORMAT the
running image reads; `old`: the image a failed trial returns to (R493). `restarted`: a control core has restarted since
the last start (R494). -/
structure UpdSt where
  state     : Nat
  runSlot   : Bool
  trialSlot : Bool
  boots     : Nat
  trialStart : Nat
  confSeq   : Word
  stagedSeq : Word
  rejectSeq : Word
  kindCfg   : Bool
  trialWin  : Nat
  health    : Health
  copyA     : CfgCopy
  copyB     : CfgCopy
  selected  : Bool
  norA      : Tab Byte
  norB      : Tab Byte
  sectors   : Tab Bool
  fellBack  : Bool
  recovery  : Bool
  restartDue : Bool
  restarted : Bool
  fwVersion : Word
  fwSecVer  : Word
  floor     : Word
  secVerMin : Word
  cfgFmt    : Nat
  old       : SlotIn
  deriving DecidableEq, Repr

def SlotIn.none : SlotIn := ⟨1, 0, 0, 0, 0⟩

/-- Nothing fitted, nothing passed: what stands here before the first start. -/
def BootIn.none : BootIn :=
  { testEn := false, harnMode := 0, pfailLow := false, dramMib := 0, vbatLost := true, bbcSec := 0, bbcFrac := 0,
    slotA := SlotIn.none, slotB := SlotIn.none, pipeFail := [], entA := false, entB := false, shaOk := false,
    ecdsaOk := false, dies := [], geom := [], banksMv := [] }

/-- Start-up state and measurements (R478, R191). `opFrac`: TCXO cycles into the operating second;
`inp`: what the last start found. -/
structure BootSt where
  phase     : Nat
  ready     : Bool
  slot      : Bool
  lastFail  : BitVec 8
  pwrCycles : Nat
  opSec     : Nat
  opFrac    : Nat
  m         : BitVec 384
  dFw       : BitVec 384
  dLm       : BitVec 384
  dCfg      : BitVec 384
  inp       : BootIn
  deriving DecidableEq, Repr

def CfgCopy.empty : CfgCopy := ⟨false, 0, 0, [], []⟩

/-! ## Device time (15) -/

/-- A time message as handled: its SEQ and the three instants known of it (R463); `spoiled`: DT changed by more than rate
correction since (R465). -/
structure TMsg where
  seq : Word
  t1  : BitVec 64
  t2  : BitVec 64
  t3  : BitVec 64
  spoiled : Bool
  deriving DecidableEq, Repr

/-- DT with its 32 further fraction bits (R460); `rem`: what is left of the last increment's division, kept so that no
rounding is invented. `lastAcc`: T2 of the previous accepted exchange, none after a reset, step, set or rebase
(R465); `accAt`: the TCXO stamp of the last acceptance (R464). `bbcAcc`: what of the next crystal tick has
passed, in 1/38,400,000 (log entry 30). -/
structure TimeSt where
  dt        : BitVec 96
  rem       : Nat
  rate      : Int
  f         : Int
  savedRate : Int
  savedF    : Int
  bbcSec    : BitVec 40
  bbcFrac   : BitVec 15
  bbcAcc    : Nat
  rebaseCnt : BitVec 8
  dtValid   : Bool
  vbatLost  : Bool
  vbatLow   : Bool
  refused   : Bool
  utcSet    : Bool
  leapPend  : Bool
  refuseCnt : BitVec 16
  dtHi      : Word
  offset    : Int
  unc       : Nat
  utcCur    : BitVec 16
  utcNext   : BitVec 16
  leapDt    : BitVec 64
  nonce     : Word
  lastMsg   : Option TMsg
  lastAcc   : Option (BitVec 64)
  accAt     : Nat
  stepUsed  : Bool
  holdover  : Bool
  ringSrc   : Bool
  pendReb   : Option (Int × BitVec 8)
  deriving DecidableEq, Repr
/-! ## Reading path (04) -/

/-- A frame on the reading path. `ch`: channel, or 16 × group for a tunnelled frame; `flags`: validation flags so far
(R136); `uid`, `tag`, `what`: of the descriptor and request that transaction is for; `txn`: the meter transaction it answers; `gen`: the generation it verified under; `tc0`: it holds a TC0 place
(R29); `alarm`: it is classified TC0 as an alarm (R128); `missed`: kennel lookups still waiting for an unwrap; `tried`: pipelines that flagged a fault on it (R178);
`refs`: kennel slots it holds a reference on (R203). -/
structure RpItem where
  id     : Nat
  f      : Frame
  ch     : Nat
  tunnel : Bool
  rxDt   : BitVec 64
  rssi   : Byte
  src    : BitVec 16
  cls    : Nat
  tc0    : Bool
  eid    : Option Nat
  flags  : Word
  txn    : Option Nat
  gen    : BitVec 8
  verdict : Nat
  qseq   : Word
  tried  : Nat
  refs   : List Nat
  uid    : Option Nat
  tag    : BitVec 16
  what   : Nat
  alarm  : Bool
  pipe   : Option Nat
  deriving DecidableEq, Repr

/-- An entry of the duplicate filter (R134); `taken`: the TCXO stamp it was taken at. -/
structure DupEnt where
  eid  : Nat
  gen  : BitVec 8
  ctr  : Word
  tag4 : Word
  taken : Nat
  deriving DecidableEq, Repr

/-- An entry of the quarantine ring (R141). -/
structure QEnt where
  qseq    : Word
  eid     : Word
  flags   : Word
  channel : Byte
  framing : Nat
  bytes   : List Byte
  deriving DecidableEq, Repr

/-- `tunnel`: tunnel ingress queues of groups 0 to 3 (0x40 to 0x43); `parsed`: parser output (0x44); `cipherQ`: general
cipher input (0x46); `tc0Q`: the class-0 pipeline's input; `validQ`: 0x48; `postQ`: 0x49; `bp`: channels in
back-pressure (R147); `quarMib`: the size in force since the last start (R152); `ics`: counters the replay check has taken
for frames whose records are still to be written back (R133). -/
structure RpSt where
  tunnel    : List (List RpItem)
  parsed    : List RpItem
  cipherQ   : List RpItem
  tc0Q      : List RpItem
  validQ    : List RpItem
  postQ     : List RpItem
  filter    : List DupEnt
  quar      : List QEnt
  qNext     : Word
  quarMib   : Nat
  wrapped   : Bool
  bp        : Tab Bool
  tc0Frames : Nat
  idNext    : Nat
  stopped   : Bool
  ics       : Tab (Option Word)
  deriving DecidableEq, Repr
/-! ## Cipher and hash engines (05) -/

/-- A multi-frame object with a hold buffer reservation (R170 to R175). `units`: its reservation, 0 while it waits;
`held`: verified bytes not yet written; `total`: verified bytes so far; `released`: bytes written early to BUF_ADDR;
`early`, `limit`: the release mode and hold limit in force when its request went out (R172). -/
structure Obj where
  uid      : Nat
  txn      : Nat
  units    : Nat
  early    : Bool
  limit    : Nat
  held     : List Byte
  total    : Nat
  released : Nat
  deriving DecidableEq, Repr

/-- Three Boolean shares; the value they stand for is their exclusive-or (R161). -/
structure Shares (w : Nat) where
  a : BitVec w
  b : BitVec w
  c : BitVec w
  deriving DecidableEq, Repr

def Shares.val {w : Nat} (x : Shares w) : BitVec w := x.a ^^^ x.b ^^^ x.c
def Shares.zero {w : Nat} : Shares w := ⟨0, 0, 0⟩

/-- The registers of an AES pipeline: the key of its newest item and that item's intermediate state, in shares (R161). -/
structure PipeReg where
  key   : Shares 256
  inter : Shares 128
  deriving DecidableEq, Repr

def PipeReg.zero : PipeReg := ⟨.zero, .zero⟩

/-- `fault`: the W1C bits [10:0] of CE_FAULT; `pools`: mask sets left of pipelines 0 to 4; `sets`: mask sets an expander
made since its reseed (R164); `reqs`: DRBG requests since the reseed; `pipes`: each pipeline's registers (R161); `stage`:
the pipelines whose stages hold a fault flag that no item has carried out yet (R177); `objWait`: requests waiting for a
reservation, oldest first. -/
structure CeSt where
  fault    : Word
  faultCnt : BitVec 16
  entA     : Bool
  entB     : Bool
  drbgOk   : Bool
  exhausted : Bool
  shaOn    : Bool
  ecdsaOn  : Bool
  reqs     : Nat
  pools    : List Nat
  sets     : List Nat
  pipes    : Tab PipeReg
  stage    : Tab Bool
  objs     : List Obj
  objWait  : List Nat
  holdPeak : Nat
  deriving DecidableEq, Repr
/-! ## Keys (06) -/

/-- A kennel slot (R202). `st`: 0 FREE, 1 LOADING, 2 READY, 3 RETIRING, 4 ZEROIZING. `sh`: its key in three shares (R206).
`shadow`: pinned for the west neighbour (R208). `lru`: stamp of its last use. -/
structure Slot where
  st     : Nat
  handle : Nat
  gen    : BitVec 8
  parent : Nat
  sh     : Shares 256
  typ    : BitVec 8
  usage  : BitVec 16
  refs   : Nat
  pin    : Bool
  shadow : Bool
  lru    : Nat
  deriving DecidableEq, Repr

/-- A lookup in queue 0x45 (R204): the reading-path item that waits, and the key it needs. -/
structure Miss where
  item   : Nat
  handle : Nat
  gen    : BitVec 8
  tc0    : Bool
  deriving DecidableEq, Repr

/-- Root store, key directory, kennel, key-load registers (R189 to R209). `srCur`, `srFwd`: the sealing roots. -/
structure KeySt where
  roots   : Tab RootEnt
  dir     : Tab DirEnt
  slots   : Tab Slot
  missQ   : List Miss
  klData  : List Word
  srValid : Bool
  fwdValid : Bool
  rootLost : Bool
  srCur   : BitVec 256
  srFwd   : BitVec 256
  useNext : Nat
  seqs    : Tab Word
  deriving DecidableEq, Repr

def Slot.free : Slot := ⟨0, 0, 0, 0, .zero, 0, 0, 0, false, false, 0⟩
/-- The key a slot's shares stand for. -/
def Slot.key (x : Slot) : BitVec 256 := x.sh.val
def DirEnt.empty : DirEnt := ⟨none, none, 0, 0, 0, 0, false⟩
def RootEnt.none : RootEnt := ⟨.none, .none, false, true, 0, 0, .none⟩

/-! ## Seals (07) -/

/-- An open or closed batch (R230, R231, R234). `leaves`: the leaf hash of each record; `recs`: the records' delivery
numbers not yet covered by a tail write-back (R237). `opened`: the TCXO stamp of its opening. -/
structure Batch where
  bid     : BitVec 64
  prev    : BitVec 64
  session : Nat
  sGen    : BitVec 8
  sign    : Nat
  gGen    : BitVec 8
  dtOpen  : BitVec 64
  dtClose : BitVec 64
  cause   : Nat
  rebuilt : Bool
  gaps    : Bool
  closeMs : Nat
  opened  : Nat
  leaves  : List (BitVec 256)
  recs    : List Nat
  deriving DecidableEq, Repr

/-- A signed batch in the batch log (R237). -/
structure LogBatch where
  lseq  : Word
  hdr   : List Byte
  sig   : List Byte
  bid   : BitVec 64
  recs  : List Nat
  deriving DecidableEq, Repr

/-- A formed reading record waiting at the seal stage, with where its reading ring route comes from; `rid`: the
number its store entry goes by, 0 without one. -/
structure SealItem where
  rd    : ReadRec
  group : Nat
  cls   : Nat
  tc0   : Bool
  rid   : Nat
  uid   : Option Nat
  deriving DecidableEq, Repr

/-- `session`, `sign`: handles in use (0: none set). `ctrNext`, `ctrLimit`: the batch counter and the end of the block
reserved in MRAM (R230). `recent`: the newest 32 closed batches (R239).
`missed`: a key in use has been found missing and recorded (R228). `owed`: headers a start found unsigned, to be signed
before a batch opens (R240). -/
structure SealSt where
  set      : Bool
  session  : Nat
  sign     : Nat
  src      : BitVec 16
  ctrNext  : Nat
  ctrLimit : Nat
  prev     : BitVec 64
  batch    : Option Batch
  queue    : List SealItem
  signQ    : List Batch
  recent   : List Batch
  lseq     : Word
  log      : List LogBatch
  missed   : Bool
  owed     : Nat
  deriving DecidableEq, Repr
/-! ## Billing (08) -/

/-- A close sweep or a friendly evaluation sweep (R254, R265): the calendar, the tariff of a friendly sweep, the
boundary, the period it closes, and the record index it has reached. -/
structure Sweep where
  friendly : Bool
  cal      : Nat
  tariff   : Nat
  atSec    : Nat
  period   : Word
  pos      : Nat
  deriving DecidableEq, Repr

/-- `pos`: BILL_POS; `posStep`: the step of R255 processed at that
instant;
`outages`: the 16 newest outage windows, newest first (R270); `outStart`: DT at PFAIL_n of the checkpoint (R268);
`warned`: tariffs (by ID) and calendars (256 + ID) whose absence has been logged since the start (R252). -/
structure BillSt where
  tariffs  : Tab TarEnt
  cals     : Tab CalEnt
  pos      : BitVec 64
  posStep  : Nat
  posValid : Bool
  catchup  : Bool
  sweeps   : List Sweep
  outages  : List (BitVec 64 × BitVec 64)
  outStart : Option (BitVec 64)
  warned   : Tab Bool
  deriving DecidableEq, Repr

def TarEnt.empty : TarEnt := ⟨none, none, none⟩
def CalEnt.empty : CalEnt := ⟨[], 0, 0, false⟩
/-! ## Meter channels (10) and their downlink frames (12) -/

/-- A downlink frame waiting in a transmit queue or on the pins (R317, R373). `what`: 0 disconnect, 1 reconnect,
2 load limit, 3 get-request, 4 profile or attribute get-request, 5 token action, 6 clock set, 7 block, 8 image
control, 9 poll, 10 control_state get-request. `uid`: the descriptor; `txn`: the transaction; `admitted`: the TCXO stamp
of its admission; `sent`: transmissions so far; `since`: the stamp of the last; `retry`: it may go out again; `backoffs`: CCA failures of the attempt;
`tries`: attempts since the meter's
last contact (R360); `dutyWait`: since when it waits for budget (R366). -/
structure TxF where
  id       : Nat
  uid      : Option Nat
  txn      : Option Nat
  eid      : Nat
  tc       : Nat
  ic       : Word
  what     : Nat
  arg      : Nat
  bytes    : List Byte
  admitted : Nat
  sent     : Nat
  since    : Nat
  retry    : Bool
  backoffs : Nat
  tries    : Nat
  dutyWait : Option Nat
  enc      : Bool
  queued   : Bool
  deriving DecidableEq, Repr

/-- A frame in a receive queue (R315). -/
structure RxF where
  id   : Nat
  f    : Frame
  lk   : LinkIn
  rxDt : BitVec 64
  tc0  : Bool
  deriving DecidableEq, Repr

/-- One channel. `reserved`: receive-queue units reserved for answers (R316); `loop`: OP_CH_LOOPBACK runs, step 3 of it
(R326); `busy`: the TCXO stamp until which a frame is on the pins; `lastRx`: the
reading-path number of the newest frame received, and `ackDue` whether its link acknowledgement waits (13 R413), with
its class-0 rule. -/
structure Chan where
  cfgErr    : Bool
  bankFault : Bool
  heBlock   : Bool
  loop      : Bool
  reserved  : Nat
  rx        : List RxF
  tx        : List TxF
  busy      : Nat
  lastRx    : Nat
  ackDue    : Option Bool
  deriving DecidableEq, Repr

/-- `banks`: LEVEL of VDD_CH0 to 3: 0 absent, 1 1.8 V, 2 3.3 V, 3 out of range (R311); `draws` by island: the random
values its back-off generator gave since it was seeded (11 R360). -/
structure ChSt where
  tab    : Tab Chan
  banks  : List Nat
  frNext : Nat
  draws  : List Nat
  deriving DecidableEq, Repr

def Chan.idle : Chan := ⟨false, false, false, false, 0, [], [], 0, 0, none⟩
/-! ## Radio medium access (11) -/

/-- Airtime of one channel in one band: the minute of the newest bucket and 61 one-minute buckets, newest first
(R364). -/
structure Duty where
  minute  : Nat
  buckets : List Nat
  deriving DecidableEq, Repr

/-- A slotted channel's synchronisation (R348): `sync` as SYNC_STATE numbers it, missed beacons, the superframe number
of the last beacon, the TCXO stamp of the last beacon or of the enable, and the channel index last set (R337). -/
structure MacCh where
  sync   : Nat
  missed : Nat
  sfNum  : Nat
  since  : Nat
  tuned  : Option Nat
  deriving DecidableEq, Repr

/-- `plan`: the radio plan's bytes, none before the first load; `links` by EID; `duty` by 16 × channel + band; `grants`
by channel: the devices whose last frame set the frame-pending bit (R343). -/
structure AirSt where
  plan     : List Byte
  sfOffset : BitVec 64
  links    : Tab MLink
  mac      : Tab MacCh
  duty     : Tab Duty
  grants   : Tab (List Nat)
  deriving DecidableEq, Repr

def MLink.none : MLink := ⟨0, 0, 0, 0, 0, 0, 0, 0, 0, 0⟩
def MacCh.idle : MacCh := ⟨0, 0, 0, 0, .none⟩
def Duty.zero : Duty := ⟨0, []⟩
/-! ## The command path (12) -/

/-- An open meter transaction (R371 to R374). `invoke`: invoke-id or access number; `obj`: its answer is an object;
`since`: TCXO stamp of its last transmission, none before the first; `coll`: the collection plan plus 1 it belongs to;
`waiting`: it waits for a place in the table or among its endpoint's eight, and its frame with it; `idx`: the
target's place in its descriptor's list. -/
structure Txn where
  id     : Nat
  eid    : Nat
  invoke : Nat
  cls    : Nat
  what   : Nat
  uid    : Option Nat
  tag    : BitVec 16
  obj    : Bool
  since  : Option Nat
  coll   : Nat
  waiting : Bool
  idx    : Nat
  respS  : Nat
  waitS  : Nat
  deriving DecidableEq, Repr

/-- A relay command awaiting feedback (R276, R380): its confirmation timer runs from `since` for `secs`; `arg`: the
LIMIT_W commanded. -/
structure RelayT where
  since : Nat
  secs  : Nat
  ic    : Word
  cls   : Nat
  uid   : Option Nat
  tag   : BitVec 16
  arg   : Nat
  deriving DecidableEq, Repr

/-- A collection plan (R387). -/
structure Plan where
  kind   : Nat
  period : Nat
  offset : Nat
  spread : Nat
  deriving DecidableEq, Repr

/-- A target of a distribution: TSTATE, REASON, and the blocks its meter last reported (R391). -/
structure DTgt where
  eid    : Word
  tstate : Nat
  reason : Nat
  held   : List Nat
  deriving DecidableEq, Repr

/-- A running distribution (R392). `step`, `round`, `cur`: where it stands; `ident`: the image identifier (R390); the
block contents are read from IMG_ADDR as they are sent. -/
structure Dist where
  uid     : Nat
  distId  : Nat
  tariff  : Bool
  step    : Nat
  round   : Nat
  cur     : Nat
  nBlocks : Nat
  ident   : List Byte
  tgts    : List DTgt
  deriving DecidableEq, Repr

/-- `binds`: plan plus 1 of a target; `relays`: one timer an endpoint; `relayDue`: ledger commands and control_state
requests are queued at once and leave no waiting place here. -/
structure CmdSt where
  txns    : List Txn
  txnNext : Nat
  relays  : Tab RelayT
  plans   : Tab Plan
  binds   : Tab Nat
  dists   : List Dist
  deriving DecidableEq, Repr

def RelayT.none : RelayT := ⟨0, 0, 0, 0, .none, 0, 0⟩
def Plan.none : Plan := ⟨0, 0, 0, 0⟩
/-! ## Harness (13) -/

/-- A gated action waiting for the LINK_ACK of its mirror frame (R413), on a port: 0 the link acknowledgement of a received frame
(its reading-path number), 1 a reading's delivery (its delivery number), 2 a TC0 command's pin transfer (its
descriptor), 4 that of a relay command the ledger issues (its endpoint and counter). -/
structure MGate where
  port : Nat
  lseq : Nat
  kind : Nat
  id   : Nat
  deriving DecidableEq, Repr

/-- A ring frame held in a replay buffer (R405). -/
structure RFrame where
  lseq : Nat
  kind : Nat
  args : List Nat
  deriving DecidableEq, Repr

/-- One port: the next LSEQ sent, the next expected, and the replay buffer (R405); whether it trained, and broke
(R408). -/
structure HPort where
  tx      : Nat
  rx      : Nat
  replay  : List RFrame
  trained : Bool
  broken  : Bool
  deriving DecidableEq, Repr

/-- The last STATUS frame of a position and the TCXO stamp it came at (R424). -/
structure HStat where
  ent : HarnEnt
  at_ : Nat
  deriving DecidableEq, Repr

/-- A command taken over from a silent chip (R424 mode 1); `uid`: the number its frame goes by here; `status`: its outcome
once reached; `since`: when it entered this chip's command path. -/
structure TkoEnt where
  home     : Nat
  sq       : Nat
  tag      : BitVec 16
  opcode   : BitVec 8
  tc       : Nat
  status   : Option (BitVec 8)
  eid      : Word
  ic       : Word
  progress : Word
  dt       : BitVec 64
  epoch    : BitVec 8
  uid      : Nat
  since    : Nat
  deriving DecidableEq, Repr

/-- `pos`: this chip's position; `caps`: record capacities the other home chips reported at their join (R18); `outState`:
0 OFF, 1 SYNCING, 2 ON, with its reason (R416). `phase`: 0 none, 1 sidebands held low, 2 by-pass open and links
training, 3 JOIN sent, 4 joined, 5 refused (R409). `nvPos`: RING_ID and position in MRAM; `joinedM`, `silentM`: masks by
position; `beats`: the TCXO stamp of each position's last heartbeat; `tickAt`: of the last RING_TICK; `reqs`: sides a
join request was seen on (lead: not yet granted); `peers`: JOIN frames of the positions granted. Held for the west
neighbour (R413): `inState`, `inPos`, raw frames, readings, commands, records and other state. `served`: the position
taken over; `tkoCnt`, `tko`: takeovers and their commands; `syncLeft`: records still to send; `shadow`: the
position mirrored to. -/
structure HarnSt where
  pos      : Nat
  joined   : Bool
  fenced   : Bool
  caps     : Tab Nat
  ports    : Tab HPort
  gates    : List MGate
  outState : Nat
  outReason : Nat
  phase    : Nat
  joinErr  : Nat
  ringId   : BitVec 64
  nvPos    : Option (BitVec 64 × Nat)
  joinedM  : Nat
  silentM  : Nat
  beats    : Tab Nat
  tickAt   : Nat
  leadReb  : Option (BitVec 8)
  ofsNs    : Int
  wrapped  : Bool
  acting   : Bool
  beatsOff : Bool
  reqs     : List Nat
  peers    : List (Nat × JoinReq)
  stat     : List (Nat × HStat)
  inState  : Nat
  inPos    : Nat
  holdRaw  : List (Nat × Frame)
  holdRd   : List (Nat × ReadRec × Option EpRec)
  holdCmd  : List MCmd
  mRecs    : Tab EpRec
  mEnts    : List JEnt
  served   : Option Nat
  tkoCnt   : Nat
  tko      : List TkoEnt
  syncLeft : Nat
  syncPos  : Nat
  shadow   : Option Nat
  deriving DecidableEq, Repr

def HPort.idle : HPort := ⟨0, 0, [], false, false⟩
/-! ## The interval store and NAND (14) -/

/-- A store entry (R432): `ssn` as the header does not hold it. A reading's `rid` is the number its sealed record is
filled in by, `rd` that record, and `post` what its posting entry restores, with
the WRITE_SEQ `pw` (03 R110). -/
structure SEnt where
  ssn   : Nat
  typ   : Nat
  quar  : Bool
  eid   : Word
  dt    : BitVec 64
  rid   : Nat
  post  : Option EpRec
  pw    : Word
  rd    : Option ReadRec
  body  : List Byte
  deriving DecidableEq, Repr

/-- A map unit (R437): its logical number, entries, physical place and flags. `par`: a stripe's parity unit, which holds no
entries (R430); `left`: its pages still to program; `src`: in its metadata, the physical unit (die, place) it was copied
from (R439). -/
structure SUnit where
  num    : Nat
  ents   : List SEnt
  die    : Nat
  place  : Nat
  disc   : Bool
  unread : Bool
  par    : Bool
  left   : Nat
  src    : Option (Nat × Nat)
  deriving DecidableEq, Repr

/-- One die (R427, R428, R453): found and supported, failed, erase failures in a row, erase counts of its blocks, reads
of its blocks since their erase, retired blocks, the next free unit place, blocks due for refresh, the
patrol's page (R443). -/
structure Die where
  found   : Bool
  failed  : Bool
  eraseRow : Nat
  erases  : Tab Nat
  reads   : Tab Nat
  retired : List Nat
  next    : Nat
  refresh : List Nat
  ppos    : Nat
  deriving DecidableEq, Repr

/-- A collection that has begun (R440): the victim block, and whether its GC_COMMIT has been programmed. -/
structure GcRun where
  die       : Nat
  block     : Nat
  committed : Bool
  deriving DecidableEq, Repr

/-- `copies`: units a collection has written and no map entry names yet (R439); `gc`: the collection they belong to.
`open_`: entries of the open unit; `queue`: store append queue 0x4A; its units still programming are in queue 0x4F;
`disc`: discarded ranges (by DT, from, to, STORE_HEAD then); `geom`: page KiB, pages of a block, blocks of a die, tPROG_SLC and
tPROG_TLC in 10 µs; `patrol`: pages read in the pass; `hist`: the corrected-bit histogram; `hours`: minutes at die
temperature (R453). -/
structure StoreSt where
  rootOk   : Bool
  fmtGood  : Nat
  mountFail : Bool
  wrapped  : Bool
  parity   : Bool
  next     : Nat
  oldest   : Nat
  units    : List SUnit
  copies   : List SUnit
  gc       : Option GcRun
  open_    : List SEnt
  unitNext : Nat
  queue    : List SEnt
  disc     : List (Bool × Nat × Nat × Nat)
  dies     : Tab Die
  geom     : List Nat
  holdEst  : Nat
  lastFlush : Nat
  marker   : Bool
  patrol   : Nat
  passes   : Nat
  retired  : Nat
  progFail : Nat
  eraseFail : Nat
  retryOk  : Nat
  rebuilt  : Nat
  unreadCnt : Nat
  hist     : List Nat
  hotMax   : Option Int
  hours    : List Nat
  deriving DecidableEq, Repr

def Die.none : Die := ⟨false, false, 0, [], [], [], 0, [], 0⟩
/-! ## Check metering and Crevasse (09) -/

/-- A calibration copy in MRAM: whether its CRC holds, its sequence number and block (R286, R287). -/
structure CalCopy where
  ok    : Bool
  seq   : Word
  bytes : List Byte
  deriving DecidableEq, Repr

/-- The means of one inference interval (R285): three voltages in mV, twelve currents in mA. -/
structure Mean where
  k     : Nat
  volts : List Nat
  amps  : List Nat
  noRef : Bool
  deriving DecidableEq, Repr

/-- What the accumulators read as a balance interval began: mWh and mA²·s of the twelve current inputs. -/
structure Snap where
  k   : Nat
  mwh : List Int
  q   : List Nat
  deriving DecidableEq, Repr

/-- A balance record (R302); `start` in DT seconds. -/
structure BalRec where
  bseq     : Word
  feeder   : Nat
  st       : Nat
  flags    : Nat
  start    : Nat
  eIn      : Int
  eMet     : Int
  lTech    : Nat
  late     : Int
  d        : Int
  dPm      : Int
  cover    : Nat
  mapped   : Nat
  complete : Nat
  run      : Nat
  deriving DecidableEq, Repr

/-- One feeder: its parameters with the balance interval each applies from, newest first; STATE, RUN and the count of
scored intervals without EXCEEDS (R300); the next interval to evaluate; mWh carried and late Wh (R298, R299). -/
structure Fdr where
  maps  : List (Nat × FeederMap)
  st    : Nat
  run   : Nat
  clear : Nat
  neg   : Bool
  next  : Nat
  carry : Int
  late  : Int
  deriving DecidableEq, Repr

/-- An inference result (R303); `n` is 0xFFFF for INSUFFICIENT. -/
structure InfEnt where
  feeder   : Nat
  phase    : Nat
  applied  : Bool
  hostSet  : Bool
  disagree : Bool
  unsealed : Bool
  conf     : Nat
  n        : Nat
  pb       : Int
  ps       : Int
  fb       : Int
  fs       : Int
  deriving DecidableEq, Repr

/-- What the analysis holds of a meter: voltages by inference interval, one more than the mV; whether it waits for the
next window; the phase inferred in the last window; the result; the span its energy is apportioned over, and the Wh by
balance interval (R295, R298). -/
structure MInf where
  volts : Tab Nat
  hold  : Bool
  phase : Nat
  res   : Option InfEnt
  begun : Bool
  first : Nat
  pos   : Nat
  share : Tab Int
  deriving DecidableEq, Repr

/-- `calLock`: the CAL_LOCK fuse; `latched`: a loop opening; `mis`: mismatches in a row; `loopSince`: TCXO stamp since
which the loop reads continuous; `latchDue`: causes latched while unpowered and not yet logged; `sealedDig`,
`resealSeq`: in MRAM. `secStart`, `last`: the last completed second; `energy`, `q`: the accumulators, µJ and mA²·s.
`ivK`, `ivCnt`, `ivRms`: the inference interval in progress, its seconds and sums; `balK`: the balance interval in
progress. `inf`, `bal`, `cal`: the settings in force since the start (R307). `winK`: first interval of the inference
window, 0 before the first. -/
structure MetSt where
  calA      : CalCopy
  calB      : CalCopy
  calLock   : Bool
  latched   : Bool
  mis       : Nat
  loopSince : Option Nat
  latchDue  : List Nat
  sealedDig : BitVec 384
  resealSeq : Word
  nonce     : Word
  secStart  : Nat
  last      : MetSecond
  energy    : List (BitVec 64)
  q         : List (BitVec 64)
  ivK       : Nat
  ivCnt     : Nat
  ivRms     : List Nat
  balK      : Nat
  means     : List Mean
  snaps     : List Snap
  inf       : Nat
  bal       : Nat
  cal       : Nat
  winK      : Nat
  feeders   : Tab Fdr
  nextBseq  : Word
  recs      : List BalRec
  meters    : Tab MInf
  deriving DecidableEq, Repr

def CalCopy.empty : CalCopy := ⟨false, 0, []⟩
def Fdr.idle : Fdr := ⟨[], 3, 0, 0, false, 0, 0, 0⟩
def MInf.none : MInf := ⟨[], false, 0, .none, false, 0, 0, []⟩
/-! ## The whole machine -/

/-- `hostMem`: host memory as the device has written it (an unlisted address reads 0, log entry 6). `wire`: outputs,
newest first. `tcxo`: TCXO cycles since RESET_n rose. `free`: the model's counter of free values taken. `pending`: the
commands that wait, first in, first out. -/
structure State where
  regs    : Tab Word
  glob    : Glob
  pins    : Pins
  funcs   : Tab Fn
  host    : HostSt
  log     : LogSt
  cnt     : CntSt
  flt     : FltSt
  recs    : RecSt
  upd     : UpdSt
  boot    : BootSt
  time    : TimeSt
  harn    : HarnSt
  rp      : RpSt
  keys    : KeySt
  sealU   : SealSt
  ce      : CeSt
  bill    : BillSt
  chan    : ChSt
  cmd     : CmdSt
  air     : AirSt
  store   : StoreSt
  met     : MetSt
  hostMem : Tab Byte
  wire    : List WireEv
  tcxo    : Nat
  free    : Nat
  pending : List Instr
  deriving DecidableEq, Repr

/-- The machine right after reset, RESET_n still low: every register at the value the spec states (R544); what the
spec keeps in MRAM, in the NOR slots or in fuses at the values log entry 5 names. -/
def State.reset : State :=
  { regs := []
    glob := ⟨0, false, 0, 0x7D, none, [false, false, false, false], [2, 2, 2, 2], []⟩
    pins := ⟨true, false, 0, 0⟩
    funcs := []
    host := { sq := [], cq := [], rr := [], flights := [], pushBuf := [], admQ := [], jrnl := [], deliv := [],
              peak := 0, dbDrop := 0, pushDrop := 0, pushOvf := 0, unsolCnt := 0, msixMask := [], msixPend := [],
              uidNext := 1, delivNext := 1, lastRead := 0, linkDown := false, posted := [],
              dbT2 := [], t2s := [], pcie := PcieSt.reset }
    log := { recs := [], reserve := [], next := 0, queue := [], full := false, mediaFault := false, held := false,
             dropped := 0, suppressed := 0, buckets := [] }
    cnt := { val := [], latch := 0, ltag := 512, smp := [], bw := [], copy := ⟨0, 0, 0, false⟩, bwStart := 0 }
    flt := ⟨false, false, 0, 0, 0, [Rank.idle, Rank.idle]⟩
    recs := { tab := [], pins := [], retire := [], dramMib := 0,
              owner := [(0, true), (0, false), (0, false), (0, false), (0, false), (0, false), (0, false), (0, false)],
              epoch := 0, fmt := 2, migrate := false, jtail := [], jwait := [], jseq := 0, durable := 0, ckptCnt := 0,
              ckptAct := false, ckptAt := 0, ckpt := [], ckptEnts := [], jnand := [] }
    upd := { state := 0, runSlot := false, trialSlot := false, boots := 0, trialStart := 0, confSeq := 0,
             stagedSeq := 0, rejectSeq := 0, kindCfg := false, trialWin := 10, health := ⟨[], false, false, false⟩,
             copyA := CfgCopy.empty, copyB := CfgCopy.empty, selected := false, norA := [], norB := [],
             sectors := [], fellBack := false, recovery := false, restartDue := false, restarted := false,
             fwVersion := 0, fwSecVer := 0, floor := 0, secVerMin := 0, cfgFmt := 1,
             old := SlotIn.none }
    boot := { phase := 1, ready := false, slot := false, lastFail := 0, pwrCycles := 0, opSec := 0, opFrac := 0,
              m := 0, dFw := 0, dLm := 0, dCfg := 0, inp := BootIn.none }
    time := { dt := 0, rem := 0, rate := 0, f := 0, savedRate := 0, savedF := 0, bbcSec := 0, bbcFrac := 0, bbcAcc := 0,
              rebaseCnt := 0, dtValid := false, vbatLost := false, vbatLow := false, refused := false,
              utcSet := false, leapPend := false, refuseCnt := 0, dtHi := 0, offset := 0, unc := 0, utcCur := 0,
              utcNext := 0, leapDt := 0, nonce := 0, lastMsg := none, lastAcc := none, accAt := 0,
              stepUsed := false, holdover := false, ringSrc := false, pendReb := none }
    harn := { pos := 0, joined := false, fenced := false, caps := [], ports := [], gates := [], outState := 0,
              outReason := 2, phase := 0, joinErr := 0, ringId := 0, nvPos := none, joinedM := 0, silentM := 0,
              beats := [], tickAt := 0, leadReb := none, ofsNs := 0, wrapped := false, acting := false,
              beatsOff := false, reqs := [], peers := [], stat := [], inState := 0, inPos := 0, holdRaw := [],
              holdRd := [], holdCmd := [], mRecs := [], mEnts := [], served := none, tkoCnt := 0, tko := [],
              syncLeft := 0, syncPos := 0, shadow := none }
    rp := { tunnel := [[], [], [], []], parsed := [], cipherQ := [], tc0Q := [], validQ := [], postQ := [],
            filter := [], quar := [], qNext := 0, quarMib := 32, wrapped := false, bp := [], tc0Frames := 0,
            idNext := 1, stopped := false, ics := [] }
    keys := { roots := [], dir := [], slots := [], missQ := [], klData := [0, 0, 0, 0, 0, 0, 0, 0], srValid := false,
              fwdValid := false, rootLost := false, srCur := 0, srFwd := 0, useNext := 0, seqs := [] }
    sealU := { set := false, session := 0, sign := 0, src := 0, ctrNext := 0, ctrLimit := 0, prev := 0, batch := none,
               queue := [], signQ := [], recent := [], lseq := 0, log := [], missed := false, owed := 0 }
    ce := { fault := 0, faultCnt := 0, entA := false, entB := false, drbgOk := false, exhausted := false, shaOn := false,
            ecdsaOn := false, reqs := 0, pools := [64, 64, 64, 64, 512], sets := [0, 0, 0, 0, 0, 0],
            pipes := [], stage := [],
            objs := [], objWait := [], holdPeak := 0 }
    bill := { tariffs := [], cals := [], pos := 0, posStep := 0, posValid := false, catchup := false, sweeps := [], outages := [],
              outStart := none, warned := [] }
    chan := { tab := [], banks := [0, 0, 0, 0], frNext := 1, draws := [0, 0, 0, 0] }
    cmd := { txns := [], txnNext := 1, relays := [], plans := [], binds := [], dists := [] }
    air := { plan := [], sfOffset := 0, links := [], mac := [], duty := [], grants := [] }
    store := { rootOk := false, fmtGood := 0, mountFail := false, wrapped := false, parity := false, next := 0, oldest := 0,
               units := [], copies := [], gc := none, open_ := [], unitNext := 0, queue := [], disc := [], dies := [],
               geom := [0, 0, 0, 0, 0], holdEst := 0, lastFlush := 0, marker := false, patrol := 0, passes := 0,
               retired := 0, progFail := 0, eraseFail := 0, retryOk := 0, rebuilt := 0, unreadCnt := 0,
               hist := [0, 0, 0, 0, 0, 0, 0, 0], hotMax := none, hours := [0, 0, 0, 0, 0] }
    met := { calA := CalCopy.empty, calB := CalCopy.empty, calLock := false, latched := false, mis := 0,
             loopSince := none, latchDue := [], sealedDig := 0, resealSeq := 0, nonce := 0, secStart := 0,
             last := ⟨[], [], [], 0, none⟩, energy := List.replicate 12 0, q := List.replicate 12 0, ivK := 0,
             ivCnt := 0, ivRms := [], balK := 0, means := [], snaps := [], inf := 2, bal := 2, cal := 0, winK := 0,
             feeders := [], nextBseq := 0, recs := [], meters := [] }
    hostMem := []
    wire := []
    tcxo := 0
    free := 0
    pending := [] }

end Sys2Proof.Machine
end

