-- ==== Sys2Proof/Machine/Ops.lean ====
section
/-!
DEFINITION. Shared operations: sparse tables in canonical form, bit fields, host memory, the register bank, event
counters and their samplers, MSI-X messages and the Firn log. Every block's meanings are written over these.
-/
namespace Sys2Proof.Machine
open Sys2Proof

/-! ## Sparse tables -/

/-- The value a table holds at a key; `d` where it lists none. -/
def tget {α : Type} (d : α) : Tab α → Nat → α
  | [], _ => d
  | (k, x) :: t, i => if i = k then x else tget d t i

/-- Insert a pair before the first greater key. -/
def tins {α : Type} : Tab α → Nat → α → Tab α
  | [], i, v => [(i, v)]
  | (k, x) :: t, i, v => if i < k then (i, v) :: (k, x) :: t else (k, x) :: tins t i v

/-- Set the value at a key, keeping keys rising and listing no default. -/
def tset {α : Type} [DecidableEq α] (d : α) (t : Tab α) (i : Nat) (v : α) : Tab α :=
  let t' := t.filter fun p => p.1 != i
  if v = d then t' else tins t' i v

/-- Keys above `lo` and rising, no default listed. -/
def twfFrom {α : Type} [DecidableEq α] (d : α) (lo : Option Nat) : Tab α → Bool
  | [] => true
  | (k, x) :: t => (match lo with | none => true | some l => decide (l < k)) && decide (x ≠ d) && twfFrom d (some k) t

/-- The canonical form of a table. -/
def twf {α : Type} [DecidableEq α] (d : α) (t : Tab α) : Bool := twfFrom d none t

/-- Change the value at a key by a function. -/
def tmod {α : Type} [DecidableEq α] (d : α) (t : Tab α) (i : Nat) (f : α → α) : Tab α := tset d t i (f (tget d t i))

/-- Replace the element at an index of a list; out of range changes nothing. -/
def lset {α : Type} : List α → Nat → α → List α
  | [], _, _ => []
  | _ :: t, 0, v => v :: t
  | x :: t, n + 1, v => x :: lset t n v

/-- Element at an index, `d` outside. -/
def lget {α : Type} (d : α) : List α → Nat → α
  | [], _ => d
  | x :: _, 0 => x
  | _ :: t, n + 1 => lget d t n

/-! ## Bits and bytes -/

/-- Bits [lo+len-1:lo] of a word as a number. -/
def fld (w : Word) (lo len : Nat) : Nat := (w.toNat / 2 ^ lo) % 2 ^ len

/-- A word with bits [lo+len-1:lo] replaced. -/
def setFld (w : Word) (lo len v : Nat) : Word :=
  BitVec.ofNat 32 (w.toNat - fld w lo len * 2 ^ lo + (v % 2 ^ len) * 2 ^ lo)

/-- One bit of a word. -/
def wbit (w : Word) (i : Nat) : Bool := fld w i 1 == 1

/-- The bit a Bool is. -/
def b2n (b : Bool) : Nat := if b then 1 else 0

/-- `n` bytes of a number, least significant first (R9). -/
def leBytes : Nat → Nat → List Byte
  | 0, _ => []
  | n + 1, v => BitVec.ofNat 8 (v % 256) :: leBytes n (v / 256)

/-- The number little-endian bytes spell (R9). -/
def leNat : List Byte → Nat
  | [] => 0
  | b :: t => b.toNat + 256 * leNat t

/-- Saturating increment of a counter register of `n` bits. -/
def satInc {n : Nat} (c : BitVec n) : BitVec n := if c.toNat + 1 < 2 ^ n then c + 1 else c

/-! ## Keys and digests the spec builds from its cited functions (06 R190, R191, R196 to R199)

A byte string stands in a word with its byte 0 lowest. -/

/-- `n` bytes of a number, most significant first. -/
def beBytes (n v : Nat) : List Byte := (leBytes n v).reverse

/-- SP 800-108 in counter mode under AES-256-CMAC: an 8-bit counter in front, the label, a zero byte, the context, and
the length in 32 bits (log entry 152). The first `bits` / 8 bytes of the blocks in their order. -/
def kdf (key : BitVec 256) (label ctx : List Byte) (bits : Nat) : List Byte :=
  (((List.range ((bits + 127) / 128)).map fun i =>
    leBytes 16 (Config.cmac key (leBytes 1 (i + 1) ++ label ++ [0] ++ ctx ++ beBytes 4 bits)).toNat).flatten).take (bits / 8)

/-- The ASCII bytes of "CALONG ". -/
def labelHead : List Byte := [0x43, 0x41, 0x4C, 0x4F, 0x4E, 0x47, 0x20]

/-- The measurement M (R191). -/
def measure (dFw dLm dCfg : BitVec 384) : BitVec 384 :=
  Config.sha384 (leBytes 48 dFw.toNat ++ leBytes 48 dLm.toNat ++ leBytes 48 dCfg.toNat)

/-- The sealing root of a measurement, label "CALONG SEAL" (R190). -/
def sealRoot (m : BitVec 384) : BitVec 256 :=
  BitVec.ofNat 256 (leNat (kdf Config.deviceSecret (labelHead ++ [0x53, 0x45, 0x41, 0x4C]) (leBytes 48 m.toNat) 256))

/-- Order of the group of P-256 (type 4) or P-384 (type 5), of the cited standard. -/
def curveOrder (typ : BitVec 8) : Nat :=
  if typ.toNat = 4 then 0xFFFFFFFF00000000FFFFFFFFFFFFFFFFBCE6FAADA7179E84F3B9CAC2FC632551
  else 0xFFFFFFFFFFFFFFFFFFFFFFFFFFFFFFFFFFFFFFFFFFFFFFFFC7634D81F4372DDF581A0DB248B0A77AECEC196ACCC52973

/-- The private scalar of a seed, label "CALONG ECDSA", the handle as context, 64 bits more than the curve's, reduced as
FIPS 186-5 reduces extra random bits (R197; log entry 152). -/
def privScalar (typ : BitVec 8) (seed : BitVec 256) (handle : Word) : Nat :=
  leNat (kdf seed (labelHead ++ [0x45, 0x43, 0x44, 0x53, 0x41]) (leBytes 4 handle.toNat)
    (if typ.toNat = 4 then 320 else 448)).reverse % (curveOrder typ - 1) + 1

/-- A key check value (R199): of AES types the start of the encryption of a zero block, for a pair under its encryption
key; of a signing key the start of SHA-256 over its uncompressed public point. -/
def keyKcv (typ : BitVec 8) (material : BitVec 256) (handle : Word) : Word :=
  if typ = 4 ∨ typ = 5 then (Config.sha256 (4 :: Config.pubPoint typ (privScalar typ material handle))).setWidth 32
  else if typ = 2 then (Config.aes true material 0).setWidth 32
  else (Config.aes false (material &&& BitVec.ofNat 256 (2 ^ 128 - 1)) 0).setWidth 32

/-- The 56 plaintext bytes of a blob (R196). -/
def blobPlain (b : Blob) : List Byte :=
  leBytes 32 b.material.toNat ++ leBytes 4 b.handle.toNat ++ leBytes 4 b.parent.toNat ++ leBytes 1 b.gen.toNat ++
  leBytes 1 b.typ.toNat ++ leBytes 2 b.usage.toNat ++ leBytes 1 b.parentGen.toNat ++ leBytes 11 b.reserved.toNat

/-- The 64 bytes of a wrapped blob. -/
def blobBytes (b : Blob) : List Byte := leBytes 64 (Config.wrap b.kek (blobPlain b)).toNat

/-! ## Host memory (02 R86) -/

def memByte (m : Tab Byte) (a : Nat) : Byte := tget 0 m a

/-- Write bytes from an address upward. -/
def memWrite (m : Tab Byte) (a : Nat) : List Byte → Tab Byte
  | [] => m
  | b :: t => memWrite (tset 0 m a b) (a + 1) t

/-- Bytes read from an address upward. -/
def memRead (m : Tab Byte) (a : Nat) : Nat → List Byte
  | 0 => []
  | n + 1 => memByte m a :: memRead m (a + 1) n

/-! ## The register bank (02 R50, 20 R544)

A register that software writes and reads back stands in one sparse bank, as the exclusive-or with its reset word, so
that the reset state lists nothing. -/

/-- Access of a writable field (R12). `rw` of a lock bit is `lockBit` (R13). -/
inductive Acc where
  | rw | rwl | lockBit | enBit
  deriving DecidableEq, Repr

/-- What "not OFF" means for a register's fields (R53, R322, R323, R370). -/
inductive Gate where
  | none | sq | cq | rr | ch | role
  deriving DecidableEq, Repr

/-- A writable field: its bits, access, reset value, and the range a write must lie in. -/
structure Fld where
  lo  : Nat
  len : Nat
  acc : Acc
  rst : Nat
  min : Nat
  max : Nat

/-- A register or a run of registers: base offset, stride, count, where its lock bit stands, its gate, its fields
from the lowest up. -/
structure RegRow where
  base   : Nat
  stride : Nat
  count  : Nat
  lockAt : Nat × Nat
  gate   : Gate
  flds   : List Fld

/-- A field without a range of its own. -/
def rw (lo len rst : Nat) : Fld := ⟨lo, len, .rw, rst, 0, 2 ^ len⟩
def rwr (lo len rst min max : Nat) : Fld := ⟨lo, len, .rw, rst, min, max⟩
def rl (lo len rst min max : Nat) : Fld := ⟨lo, len, .rwl, rst, min, max⟩
def lk (lo : Nat) : Fld := ⟨lo, 1, .lockBit, 0, 0, 1⟩
def en (lo : Nat) : Fld := ⟨lo, 1, .enBit, 0, 0, 1⟩

/-- Identity and global control block (R44, R151, R187, R225, R241). -/
def regsGlobal : List RegRow :=
  [ ⟨0x08, 0, 1, (0x08, 0), .none, [lk 0]⟩,
    ⟨0x18, 0, 1, (0, 32), .none, [rw 0 1 0, rw 8 8 0x7D, rw 16 16 0x3E8]⟩,
    ⟨0x20, 4, 4, (0, 32), .none, [rw 0 8 0, rw 8 6 0, rw 16 6 0, rw 30 1 0, rw 31 1 0]⟩,
    ⟨0x40, 0, 1, (0x08, 0), .none, [rl 0 8 8 1 255, rl 8 8 4 1 255, rl 16 8 1 1 255]⟩,
    ⟨0x44, 0, 1, (0x08, 0), .none, [rl 0 1 1 0 1]⟩,
    ⟨0x50, 0, 1, (0, 32), .none, [rw 0 16 0]⟩,
    ⟨0x200, 0, 1, (0x200, 31), .none, [rl 0 1 1 0 1, rl 1 1 1 0 1, rl 8 8 0x0A 1 255, rl 16 8 0x20 8 255, lk 31]⟩,
    ⟨0x204, 0, 1, (0, 32), .none, [rwr 0 6 0x30 1 63, rw 8 6 0x10]⟩,
    ⟨0x240, 8, 16, (0, 32), .none, [rw 0 16 0, rwr 16 7 0x50 1 100]⟩,
    ⟨0x244, 8, 16, (0, 32), .none, [rw 0 8 0x3C, rw 8 8 0x0F, rw 16 8 0x19, rw 24 8 0x07]⟩,
    ⟨0x300, 0, 1, (0x300, 31), .none, [rl 0 1 0 0 1, rl 8 7 0x10 1 64, rl 16 5 0x10 10 20, lk 31]⟩,
    ⟨0x400, 0, 1, (0x400, 31), .none, [rl 0 1 1 0 1, lk 31]⟩,
    ⟨0x500, 0, 1, (0x500, 31), .none, [rl 0 8 0xFA 10 250, lk 31]⟩ ]

/-- Billing, command path, samplers and bandwidth (R281, R398, R525). -/
def regsBilling : List RegRow :=
  [ ⟨0x600, 0, 1, (0x600, 31), .none, [rl 0 12 0x078 10 4095, lk 31]⟩,
    ⟨0x624, 0, 1, (0, 32), .none, [rw 0 6 0]⟩,
    ⟨0x700, 0, 1, (0x700, 31), .none, [rl 0 12 0x3C 1 4095, rl 12 12 0x1E 1 4095, rl 24 6 0x20 1 63, lk 31]⟩,
    ⟨0x708, 0, 1, (0, 32), .none, [rw 0 32 1]⟩,
    ⟨0x70C, 0, 1, (0, 32), .none, [rw 0 32 0xF00]⟩,
    ⟨0x800, 0x20, 8, (0, 32), .none, [rw 0 9 0, rw 16 7 0, rw 31 1 0]⟩,
    ⟨0x804, 0x20, 8, (0, 32), .none, [rwr 0 32 0x10000 1 0xFFFFFFFF]⟩,
    ⟨0x900, 0, 1, (0, 32), .none, [rwr 0 14 0x3E8 1 10000]⟩,
    ⟨0x904, 0, 1, (0, 32), .none, [rw 0 7 0]⟩ ]

/-- Host queue set-up (R92); fields other than EN are gated while the ring is not OFF (R53). -/
def regsHost : List RegRow :=
  [ ⟨0x1000, 0, 1, (0, 32), .none, [rw 0 7 0, rw 7 1 0, rw 8 7 0]⟩,
    ⟨0x1040, 4, 16, (0, 32), .none, [rw 0 6 0, rw 31 1 0]⟩,
    ⟨0x1400, 0x20, 64, (0, 32), .sq, [rw 12 20 0]⟩,
    ⟨0x1404, 0x20, 64, (0, 32), .sq, [rw 0 32 0]⟩,
    ⟨0x1408, 0x20, 64, (0, 32), .sq, [rw 2 30 0]⟩,
    ⟨0x140C, 0x20, 64, (0, 32), .sq, [rw 0 32 0]⟩,
    ⟨0x1410, 0x20, 64, (0, 32), .sq, [rw 0 5 4, rw 8 6 0, rw 16 2 0, en 31]⟩,
    ⟨0x1C00, 0x20, 64, (0, 32), .cq, [rw 12 20 0]⟩,
    ⟨0x1C04, 0x20, 64, (0, 32), .cq, [rw 0 32 0]⟩,
    ⟨0x1C08, 0x20, 64, (0, 32), .cq, [rw 0 5 4, rw 8 7 0, en 31]⟩,
    ⟨0x1C0C, 0x20, 64, (0, 32), .none, [rw 0 8 1, rw 8 10 0, rw 31 1 0]⟩,
    ⟨0x2400, 0x20, 16, (0, 32), .rr, [rw 12 20 0]⟩,
    ⟨0x2404, 0x20, 16, (0, 32), .rr, [rw 0 32 0]⟩,
    ⟨0x2408, 0x20, 16, (0, 32), .rr, [rw 2 30 0]⟩,
    ⟨0x240C, 0x20, 16, (0, 32), .rr, [rw 0 32 0]⟩,
    ⟨0x2410, 0x20, 16, (0, 32), .rr, [rw 0 5 4, rw 8 7 0, rw 16 8 0x10, en 31]⟩,
    ⟨0x2600, 4, 16, (0, 32), .none, [rw 0 4 0, rw 31 1 0]⟩ ]

/-- Time, channels and radio access (R476, R327, R369). -/
def regsChannel : List RegRow :=
  [ ⟨0x5000, 0, 1, (0x5000, 31), .none, [rl 0 10 0x1F4 1 1000, rl 16 8 0x40 8 255, lk 31]⟩,
    ⟨0x5004, 0, 1, (0x5000, 31), .none, [rl 0 16 0x1F4 10 65535, rl 16 16 0xE10 60 65535]⟩,
    ⟨0x6000, 0x10, 64, (0, 32), .ch, [rw 0 3 0, rw 3 2 0, rw 5 1 0, rw 6 1 0, rw 7 1 0, rw 8 1 0, rwr 16 12 0x100 16 2048]⟩,
    ⟨0x6004, 0x10, 64, (0, 32), .ch, [rwr 0 22 0x1A0AB 1111 3413334, rwr 22 2 0 0 2, rw 24 1 0, rw 25 2 1, rw 27 2 1, rw 29 3 3]⟩,
    ⟨0x6008, 0x10, 64, (0, 32), .ch, [rw 0 2 1, rw 2 2 0, rw 4 1 0, rw 8 8 0, rw 16 8 0]⟩,
    ⟨0x6400, 4, 4, (0, 32), .role, [rw 0 1 0]⟩,
    ⟨0x6800, 0x10, 64, (0, 32), .ch, [rw 0 4 0, rw 4 3 0, rw 8 6 0, rw 16 16 0xFFFE]⟩,
    ⟨0x6804, 0x10, 64, (0, 32), .ch, [rw 0 4 3, rwr 4 4 5 0 8, rw 8 3 4, rwr 12 3 3 1 7, rwr 16 8 0x10 1 255, rwr 24 8 0x0A 1 255]⟩,
    ⟨0x6808, 0x10, 64, (0, 32), .ch, [rw 0 8 0, rw 8 8 0, rwr 16 8 0x0A 1 255]⟩,
    ⟨0x6C04, 0, 1, (0x6C04, 31), .none, [rl 0 12 0x12C 1 4095, rl 16 8 0x1E 1 255, lk 31]⟩,
    ⟨0x6C08, 0, 1, (0, 32), .none, [rw 0 6 0, rw 8 4 0]⟩,
    ⟨0x6C14, 0, 1, (0, 32), .none, [rw 0 22 0]⟩ ]

/-- Harness, journal, NAND, metrology, event recorder, update and scrub (R425, R118, R458, R306, R512, R501, R541). -/
def regsBoard : List RegRow :=
  [ ⟨0x8000, 0, 1, (0x8000, 31), .none, [rl 0 1 1 0 1, rl 1 3 0 0 7, rl 4 1 0 0 1, rl 8 6 0x20 1 63, lk 31]⟩,
    ⟨0x8020, 0, 1, (0, 32), .none, [rw 0 2 0, rw 3 1 0, rw 4 2 0, rw 7 1 0, rw 8 2 0, rw 11 1 0, rw 12 2 0, rw 15 1 0]⟩,
    ⟨0x9120, 0, 1, (0x9120, 31), .none, [rl 0 4 4 1 8, rl 8 8 0x1E 5 255, lk 31]⟩,
    ⟨0xA000, 0, 1, (0xA000, 31), .none, [rl 0 1 0 0 1, rl 8 7 0x0A 2 50, rl 16 8 7 1 90, rl 24 1 1 0 1, lk 31]⟩,
    ⟨0xA004, 0, 1, (0xA000, 31), .none, [rl 0 7 0x3C 8 95, rl 8 16 0x64 1 65535]⟩,
    ⟨0xB000, 0, 1, (0xB000, 31), .none, [rl 0 1 0 0 1, rl 1 3 2 0 4, rl 4 3 2 0 4, rl 8 8 0x18 1 144, rl 16 6 0 0 63, lk 31]⟩,
    ⟨0xB018, 0, 1, (0xB000, 31), .none, [rl 0 16 0x6666 1 0x7FFF, rl 16 16 0x0CCD 0 65535]⟩,
    ⟨0xB01C, 0, 1, (0xB000, 31), .none, [rl 0 16 0x4000 1 0x7FFF, rl 16 16 0x0CCD 0 65535]⟩,
    ⟨0xB020, 0, 1, (0xB000, 31), .none, [rl 0 16 0x2A0 96 4032, rl 16 16 0x60 16 65535]⟩,
    ⟨0xC000, 0, 1, (0xC000, 31), .none, [rl 0 8 8 1 255, rl 8 16 0x3E8 1 65535, rl 24 1 1 0 1, lk 31]⟩,
    ⟨0xE000, 0, 1, (0xE000, 31), .none, [rl 0 8 0x0A 1 255, lk 31]⟩,
    ⟨0xF010, 0, 1, (0xF010, 31), .none, [rl 0 8 0x18 1 168, lk 31]⟩ ]

def regTable : List RegRow := regsGlobal ++ regsBilling ++ regsHost ++ regsChannel ++ regsBoard

/-- Whether an offset belongs to a row. -/
def RegRow.has (r : RegRow) (off : Nat) : Bool :=
  if r.stride = 0 then off == r.base
  else decide (r.base ≤ off) && decide ((off - r.base) / r.stride < r.count) && (off - r.base) % r.stride == 0

/-- The row of an offset. -/
def regRow (off : Nat) : Option RegRow := regTable.find? (·.has off)

/-- The index of an offset within its row. -/
def RegRow.idx (r : RegRow) (off : Nat) : Nat := if r.stride = 0 then 0 else (off - r.base) / r.stride

/-- The reset word of a row (R544). -/
def RegRow.reset (r : RegRow) : Word := r.flds.foldl (fun w f => setFld w f.lo f.len f.rst) 0

def resetWord (off : Nat) : Word :=
  match regRow off with
  | some r => r.reset
  | none => 0

/-- The word a writable register holds. -/
def regGet (s : State) (off : Nat) : Word := tget 0 s.regs off ^^^ resetWord off

/-- Store a word in the bank. -/
def regPut (s : State) (off : Nat) (w : Word) : State := { s with regs := tset 0 s.regs off (w ^^^ resetWord off) }

/-- A field of a writable register. -/
def regFld (s : State) (off lo len : Nat) : Nat := fld (regGet s off) lo len

/-! ## Arbiters (01 R26)

TC0 goes first; among TC1 to TC3 each class has its weight's number of grants in a round, and a round ends once no class
with waiting work has a grant left. DESIGN CHOICE (log entry 146): within a round the lower class goes first where the
row does not itself name what it takes. -/

/-- A class's weight in TC_ARB_CFG. -/
def arbWeight (s : State) (c : Nat) : Nat := max 1 (regFld s 0x40 (8 * (c - 1)) 8)

/-- Whether a class has a grant left in an arbiter's present round. -/
def arbLeft (s : State) (a c : Nat) : Bool := decide (tget 0 s.glob.arb (4 * a + c) < arbWeight s c)

/-- Whether an arbiter grants a class while the classes `w` have waiting work. -/
def arbGrants (s : State) (a c : Nat) (w : List Nat) : Bool :=
  c == 0 || (!w.contains 0 && (arbLeft s a c || !(w.any fun d => arbLeft s a d)))

/-- The class an arbiter grants among those with waiting work. -/
def arbPick (s : State) (a : Nat) (w : List Nat) : Nat := ((List.range 4).find? fun c => w.contains c && arbGrants s a c w).getD 0

/-- The oldest entry of the class an arbiter grants, of those waiting. -/
def arbFront {α : Type} (s : State) (a : Nat) (cls : α → Nat) (l : List α) : Option α :=
  l.find? fun x => cls x == arbPick s a (l.map cls)

/-- Entries that no earlier one of the same endpoint stands before: items of one endpoint keep their order. -/
def eidHeads {α : Type} (eid : α → Option Nat) : List (Option Nat) → List α → List α
  | _, [] => []
  | seen, x :: t =>
    if (eid x).isSome && seen.contains (eid x) then eidHeads eid seen t else x :: eidHeads eid (eid x :: seen) t

/-- A grant taken: it counts in its round, and begins a new one where the class had none left. -/
def arbTake (s : State) (a c : Nat) : State :=
  if c = 0 then s
  else
    let t := if arbLeft s a c then s.glob.arb else s.glob.arb.filter fun p => p.1 / 4 != a
    { s with glob := { s.glob with arb := tset 0 t (4 * a + c) (tget 0 t (4 * a + c) + 1) } }

/-! ## Functions -/

def fnGet (s : State) (id : Nat) : Fn := tget Fn.idle s.funcs id
def fnPut (s : State) (id : Nat) (f : Fn) : State := { s with funcs := tset Fn.idle s.funcs id f }
def fnOn (s : State) (id : Nat) : Bool := (fnGet s id).st == .on
def sqGet (s : State) (q : Nat) : Sq := tget Sq.idle s.host.sq q
def sqPut (s : State) (q : Nat) (x : Sq) : State := { s with host := { s.host with sq := tset Sq.idle s.host.sq q x } }
def cqGet (s : State) (c : Nat) : Cq := tget Cq.idle s.host.cq c
def cqPut (s : State) (c : Nat) (x : Cq) : State := { s with host := { s.host with cq := tset Cq.idle s.host.cq c x } }
def rrGet (s : State) (r : Nat) : Rr := tget Rr.idle s.host.rr r
def rrPut (s : State) (r : Nat) (x : Rr) : State := { s with host := { s.host with rr := tset Rr.idle s.host.rr r x } }

/-- DT [63:0] (R460). -/
def dtOf (s : State) : BitVec 64 := BitVec.ofNat 64 (s.time.dt.toNat / 2 ^ 32)

/-- A fresh free value's number; the counter advances (the model's own field). -/
def takeFree (s : State) : Nat × State := (s.free, { s with free := s.free + 1 })

/-- Whether `ms` milliseconds of the TCXO have passed since a stamp (38,400 cycles each). -/
def msPassed (s : State) (stamp ms : Nat) : Bool := decide (stamp + ms * 38400 ≤ s.tcxo)

/-! ## Bandwidth meters (18 R523) -/

def bwGet (s : State) (p : Nat) : BwPort := tget BwPort.idle s.cnt.bw p
def bwPut (s : State) (p : Nat) (x : BwPort) : State := { s with cnt := { s.cnt with bw := tset BwPort.idle s.cnt.bw p x } }
def bwRx (s : State) (p n : Nat) : State := bwPut s p { bwGet s p with rx := (bwGet s p).rx + BitVec.ofNat 64 n }
def bwTx (s : State) (p n : Nat) : State := bwPut s p { bwGet s p with tx := (bwGet s p).tx + BitVec.ofNat 64 n }

/-! ## Counters, samplers and MSI-X messages (18 R514, R521, R522; 02 R79) -/

/-- Reserved counter indices never count (R514). -/
def cntReserved (i : Nat) : Bool :=
  decide (199 ≤ i ∧ i ≤ 207) || decide (219 ≤ i ∧ i ≤ 223) || decide (244 ≤ i ∧ i ≤ 255) ||
  decide (273 ≤ i ∧ i ≤ 287) || decide (300 ≤ i ∧ i ≤ 319) || decide (332 ≤ i ∧ i ≤ 351) ||
  decide (363 ≤ i ∧ i ≤ 383) || decide (394 ≤ i ∧ i ≤ 415) || decide (427 ≤ i)

def cntGet (s : State) (i : Nat) : BitVec 56 := tget 0 s.cnt.val i
def cntPut (s : State) (i : Nat) (v : BitVec 56) : State := { s with cnt := { s.cnt with val := tset 0 s.cnt.val i v } }
def smpGet (s : State) (n : Nat) : Smp := tget Smp.idle s.cnt.smp n
def smpPut (s : State) (n : Nat) (x : Smp) : State := { s with cnt := { s.cnt with smp := tset Smp.idle s.cnt.smp n x } }

/-- Sampler n sees `k` increments of counter i by an operation on `eid`; answers whether it signals (R521, R522). -/
def smpSee (s : State) (n i k : Nat) (eid : Word) : State × Bool :=
  let cfg := regGet s (0x800 + 0x20 * n)
  let x := smpGet s n
  if wbit cfg 31 && fld cfg 0 9 == i && !cntReserved i then
    if x.since + k < x.thresh.toNat then (smpPut s n { x with since := x.since + k }, false)
    else
      let t := regGet s (0x804 + 0x20 * n)
      if x.pending then
        (smpPut s n { x with since := 0, thresh := t, overrun := true, ovfCnt := satInc x.ovfCnt }, false)
      else
        (smpPut s n { x with since := 0, thresh := t, pending := true, tag := Config.sampleTag (cntGet s i).toNat eid,
                             val := BitVec.ofNat 32 (cntGet s i).toNat }, true)
  else (s, false)

/-- Add `k` to a counter and show the increment to the samplers from `n` down; the vectors they signal (R515). -/
def smpAll (i k : Nat) (eid : Word) : Nat → State × List Nat → State × List Nat
  | 0, p => p
  | n + 1, (s, vs) =>
    match smpSee s n i k eid with
    | (s', true) => smpAll i k eid n (s', fld (regGet s (0x800 + 0x20 * n)) 16 7 :: vs)
    | (s', false) => smpAll i k eid n (s', vs)

def cntRaw (s : State) (i k : Nat) (eid : Word) : State × List Nat :=
  if cntReserved i then (s, [])
  else smpAll i k eid 8 (cntPut s i (cntGet s i + BitVec.ofNat 56 k), [])

/-- Send a message on each vector, or hold it as a pending bit while the vector is masked (R79). A message counts in
counter 297, which may itself make a sampler signal; `fuel` bounds the chain by the eight samplers. -/
def msixAll : Nat → List Nat → State → State
  | 0, _, s => s
  | _ + 1, [], s => s
  | fuel + 1, v :: vs, s =>
    if tget true s.host.msixMask v then
      msixAll fuel vs { s with host := { s.host with msixPend := tset false s.host.msixPend v true } }
    else
      let (s', more) := cntRaw (bwTx { s with wire := .msix v :: s.wire } 66 4) 297 1 0xFFFFFFFF
      msixAll fuel (vs ++ more) s'

/-- Signal one MSI-X vector. -/
def msix (s : State) (v : Nat) : State := msixAll 18 [v] s

/-- Add `k` to counter `i` for an operation on `eid`. -/
def cntAdd (s : State) (i k : Nat) (eid : Word) : State :=
  let (s', vs) := cntRaw s i k eid
  msixAll 18 vs s'

/-- Add 1 to counter `i` for an operation that has no EID. -/
def cnt (s : State) (i : Nat) : State := cntAdd s i 1 0xFFFFFFFF

/-! ## Host memory writes -/

/-- The device writes bytes to host memory through the PCIe port (R523), with the Relaxed Ordering attribute given.
While the link is down the write waits, so that no later write overtakes it (02 R86; log entry 144). -/
def hostPost (s : State) (relaxed : Bool) (a : Nat) (bs : List Byte) : State :=
  if s.host.linkDown then { s with host := { s.host with posted := s.host.posted ++ [(a, bs, relaxed)] } }
  else bwTx { s with hostMem := memWrite s.hostMem a bs, wire := .write a bs.length relaxed :: s.wire } 66 bs.length

/-- A write that never sets Relaxed Ordering: a completion entry, a head or tail write-back, a result bitmap, a scrub
(02 R48). -/
def hostWriteMem (s : State) (a : Nat) (bs : List Byte) : State := hostPost s false a bs

/-- Enable Relaxed Ordering in the Device Control register. -/
def relaxedOn (s : State) : Bool := s.host.pcie.devCtl.getLsbD 4

/-- A write of reading records or of result data to BUF_ADDR: Relaxed Ordering while it is enabled (02 R48). -/
def hostWriteData (s : State) (a : Nat) (bs : List Byte) : State := hostPost s (relaxedOn s) a bs

/-- The link is up: the writes that waited for it are written, in their order. -/
def linkUp (s : State) : State :=
  let l := s.host.posted
  { s with
    host := { s.host with linkDown := false, posted := [] }
    hostMem := l.foldl (fun m p => memWrite m p.1 p.2.1) s.hostMem
    cnt := { s.cnt with bw := if l.isEmpty then s.cnt.bw else (bwTx s 66 (l.map fun p => p.2.1.length).sum).cnt.bw }
    wire := (l.map fun p => WireEv.write p.1 p.2.1.length p.2.2).reverse ++ s.wire }

/-! ## The Firn log (17 R504 to R506) -/

/-- Severity of an event code (R504). -/
def logSev (code : Nat) : Nat :=
  if code == 0x0001 || code == 0x0102 then 0
  else if code == 0x0101 || code == 0x0902 then 1
  else if code == 0x0103 || code == 0x0104 || code == 0x0302 || code == 0x0303 || code == 0x0401 || code == 0x0A01 then 3
  else if code == 0x0002 || code == 0x0601 then 4
  else 2

def bucketGet (s : State) (code : Nat) : Bucket := tget Bucket.full s.log.buckets code
def bucketPut (s : State) (code : Nat) (b : Bucket) : State :=
  { s with log := { s.log with buckets := tset Bucket.full s.log.buckets code b } }

/-- Whether an event of the code finds a token (R505). -/
def tokenLeft (b : Bucket) : Bool := b.taken == 0 || decide (b.taken < b.burst)

/-- An event that finds no token, or no place in the write queue, is suppressed (R505, R506). -/
def logSuppress (s : State) (code : Nat) : State :=
  let b := bucketGet s code
  let s := bucketPut s code { b with supp := b.supp + 1 }
  cnt { s with log := { s.log with suppressed := satInc s.log.suppressed } } 426

/-- Pass an event through its code's bucket into the write queue (R505, R506). -/
def logEvent (code : Nat) (data : Nat) (s : State) : State :=
  let b := bucketGet s code
  if !tokenLeft b then logSuppress s code
  else if s.log.queue.length ≥ 64 then logSuppress s code
  else
    let ev : LogEv := { code := BitVec.ofNat 16 code, sev := logSev code, data := BitVec.ofNat 96 data,
                        opSec := BitVec.ofNat 32 s.boot.opSec, pwr := BitVec.ofNat 32 s.boot.pwrCycles }
    let s := bucketPut s code { b with taken := b.taken + 1, burst := regFld s 0xC000 0 8, ms := regFld s 0xC000 8 16,
                                       since := if b.taken = 0 then s.tcxo else b.since }
    { s with log := { s.log with queue := s.log.queue ++ [ev] } }

/-- Firn log code 0x0101: an ignored register write (R572): offset, written word, cause. -/
def logIgnored (off : Nat) (w : Word) (cause : Nat) (s : State) : State :=
  logEvent 0x0101 (off + w.toNat * 2 ^ 32 + cause * 2 ^ 64) s

/-! ## Register writes (00 R10 to R13, R572) -/

/-- Whether a register's fields are held because its function is not OFF (R53, R322, R323, R370). -/
def gateHeld (s : State) (g : Gate) (i : Nat) : Bool :=
  match g with
  | .none => false
  | .sq => (sqGet s i).fn.st != .off
  | .cq => (cqGet s i).fn.st != .off
  | .rr => (rrGet s i).fn.st != .off
  | .ch => (fnGet s (0x100 + i)).st != .off
  | .role => (fnGet s (0x200 + i)).st != .off ||
      (List.range 16).any fun k => (fnGet s (0x100 + 16 * i + k)).st != .off

/-- Ranges that bind a field to a lower field of the word the same write leaves (R152, R307, R370). -/
def crossBad (base lo v : Nat) (acc : Word) : Bool :=
  if base == 0x204 && lo == 8 then decide (v ≥ fld acc 0 6)
  else if base == 0xB000 && lo == 4 then decide (v < fld acc 1 3)
  else if base == 0x6804 && lo == 4 then decide (v < fld acc 0 4)
  else if base == 0xB020 && lo == 16 then decide (v > fld acc 0 16)
  else false

/-- Why a field ignores the value written to it, if it does: 0 locked, 1 out of range, 2 not OFF (R572). DESIGN CHOICE
(log entry 143): R572 gives no order of the causes where a field ignores a value for two of them; a lock counts before
the range, and the range before a function that is not OFF. -/
def fldIgnores (locked held : Bool) (base : Nat) (f : Fld) (old v : Nat) (acc : Word) : Option Nat :=
  match f.acc with
  | .lockBit => if old = 1 ∧ v = 0 then some 0 else none
  | .enBit => none
  | .rwl => if locked then some 0 else if v < f.min ∨ f.max < v ∨ crossBad base f.lo v acc then some 1 else none
  | .rw => if v < f.min ∨ f.max < v ∨ crossBad base f.lo v acc then some 1 else if held then some 2 else none

/-- Apply a written word field by field, from the lowest: the word left, and the cause of the lowest ignored field
whose value differed (R572). -/
def writeFlds (locked held : Bool) (base : Nat) (new : Word) : List Fld → Word × Option Nat → Word × Option Nat
  | [], p => p
  | f :: fs, (acc, cause) =>
    let old := fld acc f.lo f.len
    let v := fld new f.lo f.len
    match fldIgnores locked held base f old v acc with
    | some c => writeFlds locked held base new fs (acc, if cause.isNone && v != old then some c else cause)
    | none => writeFlds locked held base new fs (setFld acc f.lo f.len v, cause)

/-- Store a write to a register of the bank, and record what it ignored. -/
def regWrite (s : State) (off : Nat) (w : Word) : State :=
  match regRow off with
  | none => s
  | some r =>
    let locked := wbit (regGet s r.lockAt.1) r.lockAt.2
    let held := gateHeld s r.gate (r.idx off)
    match writeFlds locked held r.base w r.flds (regGet s off, none) with
    | (word, none) => regPut s off word
    | (word, some c) => logIgnored off w c (regPut s off word)

end Sys2Proof.Machine
end

