-- ==== Sys2Proof/Machine/Operands.lean ====
section
/-!
DEFINITION. The operands of host descriptors (02, Descriptor and completion formats): the fields every descriptor has,
the opcode table (R82) with what each opcode uses, the reserved bits of each (R11), and the fields of an EID and of a
key handle.
-/
namespace Sys2Proof.Machine
open Sys2Proof

/-- `n` bytes of a descriptor from byte `lo`, as a number (R9). -/
def dByte (raw : BitVec 512) (lo n : Nat) : Nat := (raw.toNat / 2 ^ (8 * lo)) % 2 ^ (8 * n)

def dOpcode (raw : BitVec 512) : Nat := dByte raw 0 1
def dTc (raw : BitVec 512) : Nat := dByte raw 1 1 % 4
def dFence (raw : BitVec 512) : Bool := dByte raw 1 1 / 4 % 2 == 1
def dIrqNow (raw : BitVec 512) : Bool := dByte raw 1 1 / 8 % 2 == 1
def dTag (raw : BitVec 512) : BitVec 16 := BitVec.ofNat 16 (dByte raw 2 2)
def dEid (raw : BitVec 512) : Nat := dByte raw 4 4
def dBufAddr (raw : BitVec 512) : Nat := dByte raw 8 8
def dBufLen (raw : BitVec 512) : Nat := dByte raw 16 4
def dAux (raw : BitVec 512) : Nat := dByte raw 20 4
def dBitmap (raw : BitVec 512) : Nat := dByte raw 56 8

/-- What an opcode does with the EID field (R82). -/
inductive EidUse where
  | no | eid | eidOrNo | list | eidOrList
  deriving DecidableEq, Repr

/-- What an opcode does with BUF_ADDR and BUF_LEN: nothing; may; needs at least so many bytes. -/
inductive BufUse where
  | no | may | need (min : Nat)
  deriving DecidableEq, Repr

/-- One row of the opcode table (R82): classes allowed, the control core that runs it (R581; none: hardware), its use
of the EID, of the buffer, of AUX bits, of parameter bits (low bit and length in bits of the descriptor), and whether
it is journaled. -/
structure OpInfo where
  tcLo  : Nat
  tcHi  : Nat
  core  : Option Nat
  eid   : EidUse
  jrnl  : Bool
  buf   : BufUse
  aux   : Nat
  parms : List (Nat × Nat)

/-- Bytes lo..hi as descriptor bits. -/
def bs (lo hi : Nat) : Nat × Nat := (8 * lo, 8 * (hi + 1 - lo))

/-- Key opcodes: HANDLE, and for an install SOURCE to USAGE, for an erase WHICH (06). -/
def keyParms (op : Nat) : List (Nat × Nat) :=
  if op == 0x20 then [bs 24 30, (8 * 31, 1), bs 32 41]
  else if op == 0x21 then [bs 24 27, bs 42 42]
  else [bs 24 27]

/-- The layout OP_EP_PROVISION and OP_EP_UPDATE share (R93, R577). -/
def provParms : List (Nat × Nat) :=
  [bs 24 31, (8 * 32, 6), bs 33 33, (8 * 36, 5), bs 37 37, bs 40 42, (8 * 44, 6), bs 45 45,
   (8 * 48, 4)]

/-- R82 for opcodes 0x01 to 0x31. -/
def opInfoLow (op : Nat) : Option OpInfo :=
  match op with
  | 0x01 => some ⟨0, 3, none, .no, false, .no, 0, []⟩
  | 0x02 => some ⟨1, 3, none, .no, false, .no, 0, [bs 24 31]⟩
  | 0x03 => some ⟨0, 3, none, .no, false, .no, 0, [bs 24 27]⟩
  | 0x04 => some ⟨1, 3, some 0, .no, true, .no, 0, [bs 24 26]⟩
  | 0x10 => some ⟨1, 3, some 0, .eid, true, .may, 0xFFFFFFFF, provParms⟩
  | 0x11 => some ⟨1, 3, some 0, .eid, true, .no, 0x7F, (provParms ++ [(8 * 49, 3)])⟩
  | 0x12 => some ⟨1, 3, some 0, .eid, true, .no, 0, []⟩
  | 0x13 => some ⟨1, 3, none, .eid, false, .need 512, 0, []⟩
  | 0x20 => some ⟨1, 3, none, .eidOrNo, true, .may, 0, keyParms 0x20⟩
  | 0x21 => some ⟨1, 3, none, .eidOrNo, true, .no, 0, keyParms 0x21⟩
  | 0x22 => some ⟨1, 3, none, .eidOrNo, true, .no, 0, keyParms 0x22⟩
  | 0x23 => some ⟨1, 3, none, .eidOrNo, true, .no, 0, keyParms 0x23⟩
  | 0x24 => some ⟨1, 3, none, .eidOrNo, true, .no, 0, keyParms 0x24⟩
  | 0x28 => some ⟨1, 3, none, .no, false, .need 1, 0, [bs 24 24, bs 28 33, bs 36 45]⟩
  | 0x29 => some ⟨1, 3, none, .no, true, .no, 0, [bs 24 33]⟩
  | 0x30 => some ⟨0, 3, none, .no, false, .need 1, 0x7, [bs 24 27]⟩
  | 0x31 => some ⟨1, 3, none, .no, false, .need 1, 0, [bs 24 31]⟩
  | _ => none

/-- R82 for opcodes 0x40 to 0x5A. -/
def opInfoMid (op : Nat) : Option OpInfo :=
  match op with
  | 0x40 => some ⟨0, 0, none, .eid, true, .no, 0, []⟩
  | 0x41 => some ⟨0, 0, none, .eid, true, .no, 0, []⟩
  | 0x42 => some ⟨0, 0, none, .eid, true, .no, 0, [bs 24 27]⟩
  | 0x43 => some ⟨1, 1, some 1, .eidOrList, true, .need 1, 0, [bs 24 33, bs 36 51, bs 56 63]⟩
  | 0x44 => some ⟨1, 1, some 1, .eid, true, .need 1, 0, [bs 24 27]⟩
  | 0x45 => some ⟨3, 3, some 1, .list, true, .need 4, 0xF, [bs 24 24, bs 38 63]⟩
  | 0x46 => some ⟨3, 3, some 1, .list, true, .need 4, 0xF, [bs 24 63]⟩
  | 0x47 => some ⟨3, 3, some 1, .list, true, .need 4, 0xF, [bs 24 63]⟩
  | 0x48 => some ⟨2, 2, some 1, .list, true, .need 4, 0, [bs 24 25, bs 28 39, bs 56 63]⟩
  | 0x50 => some ⟨1, 3, some 3, .no, true, .need 1, 0, [bs 24 25, bs 32 39]⟩
  | 0x51 => some ⟨1, 3, some 3, .no, true, .need 1, 0, [bs 24 24]⟩
  | 0x52 => some ⟨1, 1, some 0, .eid, true, .no, 0, [bs 24 24, bs 28 39]⟩
  | 0x53 => some ⟨1, 3, none, .eidOrList, false, .need 1, 0, [bs 24 24, bs 28 43, bs 56 63]⟩
  | 0x58 => some ⟨1, 3, some 0, .no, false, .need 1, 0, [bs 24 25, bs 28 35]⟩
  | 0x59 => some ⟨1, 3, some 0, .no, true, .no, 0, [bs 24 24, (8 * 25, 2), (8 * 26, 4), bs 27 41]⟩
  | 0x5A => some ⟨1, 1, some 0, .no, true, .need 1, 0, []⟩
  | _ => none

/-- R82 for opcodes 0x60 to 0x92. -/
def opInfoHigh (op : Nat) : Option OpInfo :=
  match op with
  | 0x60 => some ⟨3, 3, none, .no, false, .need 1, 0, [bs 24 25, bs 28 51]⟩
  | 0x61 => some ⟨3, 3, none, .no, true, .no, 0, [bs 24 24, bs 32 47]⟩
  | 0x62 => some ⟨3, 3, none, .no, true, .no, 0, [bs 24 26, bs 28 51]⟩
  | 0x63 => some ⟨1, 3, none, .no, false, .need 128, 0, []⟩
  | 0x68 => some ⟨1, 1, some 3, .no, false, .no, 0, [bs 24 47, (8 * 48, 2), bs 50 53, bs 56 63]⟩
  | 0x69 => some ⟨1, 1, some 3, .no, true, .no, 0, [bs 24 55]⟩
  | 0x6A => some ⟨2, 2, some 1, .list, true, .need 4, 0, [bs 24 24, bs 28 31, bs 56 63]⟩
  | 0x70 => some ⟨1, 3, none, .no, false, .need 32, 0, [bs 24 24]⟩
  | 0x71 => some ⟨1, 1, some 0, .no, true, .no, 0, []⟩
  | 0x78 => some ⟨1, 3, some 2, .no, true, .no, 0, [bs 24 29]⟩
  | 0x79 => some ⟨1, 3, some 2, .no, true, .need 5312, 0, []⟩
  | 0x80 => some ⟨3, 3, some 0, .no, true, .need 1, 1, [bs 24 27]⟩
  | 0x81 => some ⟨1, 3, some 0, .no, true, .no, 0, []⟩
  | 0x82 => some ⟨1, 1, some 0, .no, true, .no, 0, []⟩
  | 0x83 => some ⟨1, 1, some 0, .no, true, .no, 0, [bs 24 24]⟩
  | 0x84 => some ⟨1, 1, some 0, .no, true, .need 1, 0, [bs 24 27]⟩
  | 0x90 => some ⟨1, 3, some 0, .no, true, .no, 0, [bs 24 24]⟩
  | 0x91 => some ⟨1, 3, none, .no, false, .may, 0, [bs 24 24, bs 28 31]⟩
  | 0x92 => some ⟨1, 3, none, .no, false, .may, 0, [bs 24 24, bs 26 29, bs 32 38]⟩
  | _ => none

/-- The opcode table (R82); none: UNKNOWN_OPCODE. -/
def opInfo (op : Nat) : Option OpInfo :=
  if op < 0x40 then opInfoLow op else if op < 0x60 then opInfoMid op else opInfoHigh op

/-- Whether a descriptor bit is defined for an opcode (R11). -/
def bitUsed (o : OpInfo) (i : Nat) : Bool :=
  if i < 12 then true
  else if i < 16 then false
  else if i < 32 then true
  else if i < 64 then o.eid != .no && o.eid != .list
  else if i < 160 then o.buf != .no
  else if i < 192 then o.aux / 2 ^ (i - 160) % 2 == 1
  else o.parms.any fun p => decide (p.1 ≤ i ∧ i < p.1 + p.2)

/-- The mask of the defined bits of one byte. -/
def byteUsed (o : OpInfo) (b : Nat) : Nat :=
  (List.range 8).foldl (fun m k => if bitUsed o (8 * b + k) then m + 2 ^ k else m) 0

/-- The lowest descriptor byte, from `b` on for `n` bytes, that holds a non-zero reserved bit (R81). -/
def reservedAt (o : OpInfo) (raw : BitVec 512) : Nat → Nat → Option Nat
  | _, 0 => none
  | b, n + 1 =>
    let v := dByte raw b 1
    if v &&& byteUsed o b = v then reservedAt o raw (b + 1) n else some b

/-- Whether an opcode runs on a control core (R82, R581). -/
def opCore (op : Nat) : Option Nat := (opInfo op).bind (·.core)

/-! ## EID fields (00 R17, R18) -/

/-- Home position of an EID. -/
def eidHome (eid : Nat) : Nat := eid / 2 ^ 29 % 8
/-- Record index of an EID. -/
def eidIndex (eid : Nat) : Nat := eid % 2 ^ 22
/-- Bits [28:22], which are zero in a valid EID. -/
def eidMid (eid : Nat) : Nat := eid / 2 ^ 22 % 128

/-! ## Key handles (06 R189) -/

/-- Level of a key handle: bits [31:28]. -/
def hLevel (h : Nat) : Nat := h / 2 ^ 28 % 16

end Sys2Proof.Machine
end

