-- ==== Sys2Proof/Machine/Flow.lean ====
section
/-!
DEFINITION. The life of a descriptor: records and ownership as a descriptor meets them, completions and their journal,
the descriptor check, TC0 admission, and what every opcode's meaning starts with (its descriptor in flight, started).
-/
namespace Sys2Proof.Machine
open Sys2Proof

/-! ## Records and ownership (03) -/

def recGet (s : State) (eid : Nat) : EpRec := tget EpRec.free s.recs.tab eid

/-- Record capacity of fitted DRAM (R98, R99). -/
def capOfMib (mib : Nat) : Nat :=
  if mib < 2048 then 0 else if mib < 4096 then 1048576 else if mib < 8192 then 2097152 else 4194304

/-- EP_CAPACITY (R98). -/
def epCapacity (s : State) : Nat := capOfMib s.recs.dramMib

/-- The position that serves a home position, if any (EP_OWNER, R115). -/
def serverOf (s : State) (p : Nat) : Option Nat :=
  match lget (0, false) s.recs.owner p with
  | (v, true) => some v
  | (_, false) => none

/-- Whether this chip serves a home position: a member serves none before it has joined (13 R411), a fenced chip none. -/
def serves (s : State) (p : Nat) : Bool :=
  !s.harn.fenced && (s.harn.joined || (s.pins.harnMode != 1 && s.pins.harnMode != 2)) && serverOf s p == some s.harn.pos

/-- Record capacity by which an EID of a served home position is judged (R18). -/
def capFor (s : State) (p : Nat) : Nat := if p = s.harn.pos then epCapacity s else tget 0 s.harn.caps p

/-- Why an EID is refused (R18). -/
inductive EidBad where
  | invalid
  | notOwner (server : Nat)
  deriving DecidableEq, Repr

/-- The three tests of R18, in order; none: the EID is served and in range. -/
def eidTest (s : State) (eid : Nat) : Option EidBad :=
  if eidMid eid ≠ 0 then some .invalid
  else if !serves s (eidHome eid) then
    some (.notOwner (if serverOf s (eidHome eid) == some s.harn.pos then 0xFF
                     else (serverOf s (eidHome eid)).getD 0xFF))
  else if eidIndex eid ≥ capFor s (eidHome eid) then some .invalid
  else none

/-! ## Status codes (R83) and reasons (R81) -/

def stOk : Nat := 0x00
def stPartial : Nat := 0x01
def stAborted : Nat := 0x02
def stFault : Nat := 0x03
def stBad : Nat := 0x08
def stNotOwner : Nat := 0x09
def stMoved : Nat := 0x0A
def stAuthFail : Nat := 0x10
def stReplay : Nat := 0x11
def stRevoked : Nat := 0x12
def stNotVerified : Nat := 0x13
def stSlotBusy : Nat := 0x14
def stReject : Nat := 0x20
def stQuarantined : Nat := 0x21
def stPeriodClosed : Nat := 0x22
def stDuty : Nat := 0x30
def stLinkLost : Nat := 0x31
def stNoSync : Nat := 0x32
def stChDown : Nat := 0x33
def stStopping : Nat := 0x40
def stOff : Nat := 0x41
def stStepRefused : Nat := 0x50
def stNoStore : Nat := 0x51
def stDiscarded : Nat := 0x52
def stImgInvalid : Nat := 0x60
def stUpdState : Nat := 0x61
def stCfgStale : Nat := 0x62

def rsReserved : Nat := 1
def rsUnknown : Nat := 2
def rsDupTag : Nat := 3
def rsClass : Nat := 4
def rsEid : Nat := 5
def rsBuffer : Nat := 6
def rsPush : Nat := 7
def rsPushFull : Nat := 8
def rsParam : Nat := 9

/-- RESULT of a BAD_DESCRIPTOR completion: reason in byte 16, offset in byte 17, `extra` in bytes 20 to 23 (R81). -/
def badResult (reason off extra : Nat) : BitVec 128 := BitVec.ofNat 128 (reason + 256 * off + 2 ^ 32 * extra)

/-- RESULT laid out from its words of bytes 16-19, 20-23, 24-27 and 28-31. -/
def result4 (a b c d : Nat) : BitVec 128 :=
  BitVec.ofNat 128 (a % 2 ^ 32 + 2 ^ 32 * (b % 2 ^ 32) + 2 ^ 64 * (c % 2 ^ 32) + 2 ^ 96 * (d % 2 ^ 32))

/-- The progress word: STEP in [31:24], UNITS in [23:0]. -/
def progWord (step units : Nat) : Word := BitVec.ofNat 32 (step % 256 * 2 ^ 24 + units % 2 ^ 24)

/-! ## Descriptors in flight (R88) -/

def flightOf (s : State) (uid : Nat) : Option Flight := s.host.flights.find? (·.uid == uid)

/-- Replace a descriptor in flight. -/
def flightPut (s : State) (f : Flight) : State :=
  { s with host := { s.host with flights := s.host.flights.map fun g => if g.uid = f.uid then f else g } }

/-- Drop a descriptor: its completion is written or discarded. -/
def flightDrop (s : State) (uid : Nat) : State :=
  { s with host := { s.host with flights := s.host.flights.filter fun g => g.uid != uid } }

/-- Descriptors that hold one of the 1,024 places (R88). -/
def inflightCount (s : State) : Nat := (s.host.flights.filter fun f => !f.inPush).length

/-- Places held by descriptors that are not TC0. -/
def inflightOther (s : State) : Nat := (s.host.flights.filter fun f => !f.inPush && dTc f.raw != 0).length

/-- INFLIGHT: places held of both kinds (R88). A push that found the push buffer full holds none of either (log entry 148). -/
def inflight (s : State) : Nat := inflightCount s + s.host.pushBuf.length

/-- Keep INFLIGHT_PEAK at the largest INFLIGHT (R92). -/
def notePeak (s : State) : State :=
  if s.host.peak < inflight s then { s with host := { s.host with peak := inflight s } } else s

/-! ## Ring frames (13 R405) -/

def portGet (s : State) (p : Nat) : HPort := tget HPort.idle s.harn.ports p
def portPut (s : State) (p : Nat) (x : HPort) : State :=
  { s with harn := { s.harn with ports := tset HPort.idle s.harn.ports p x } }

/-- The port a frame for a port leaves by: the other one while the ring is wrapped around that port (R408). -/
def outPort (s : State) (p : Nat) : Nat := if (portGet s p).broken then 1 - p else p

/-- DEST of a ring frame: mirror frames go to the shadow, STATUS to the lead or the chip that acts for it, the rest to every
chip (R404, R412, R413). -/
def ringDest (s : State) (kind : Nat) : Nat :=
  if 0x10 ≤ kind ∧ kind ≤ 0x15 then s.harn.shadow.getD 0xFF
  else if kind = 0x22 then ((List.range 8).find? fun p => s.harn.joinedM / 2 ^ p % 2 == 1).getD 0
  else 0xFF

/-- The 16-byte header of a ring frame (R404). A HEARTBEAT's origin and hops are its content; where the spec states no
CLASS, HOPS or LEN for a frame, they are free values. -/
def ringHeader (s : State) (kind lseq : Nat) (args : List Nat) : List Byte :=
  let src := if kind = 1 then lget s.harn.pos args 0 else s.harn.pos
  let hops := if kind = 1 then lget 7 args 1 else Config.ringField 1 kind args
  let len := if kind = 0x10 then lget 0 args 1 else if kind = 0x12 then 192 else Config.ringField 2 kind args
  leBytes 1 (ringDest s kind) ++ leBytes 1 src ++ leBytes 1 kind ++ leBytes 1 (Config.ringField 0 kind args % 4 + 4 * (hops % 8)) ++
  leBytes 4 lseq ++ leBytes 2 len ++ leBytes 1 s.recs.epoch.toNat ++ leBytes 5 0

/-- Send a ring frame on a port, behind its header: it takes the next LSEQ and stays in the replay buffer until its LINK_ACK
(R405). -/
def ringSend (s : State) (port kind : Nat) (args : List Nat) : State :=
  let p := outPort s port
  let x := portGet s p
  let w := [WireEv.ring p kind args, .ringHead p (ringHeader s kind x.tx args)]
  let s := portPut s p { x with tx := x.tx + 1, replay := x.replay ++ [⟨x.tx, kind, args⟩] }
  cnt { s with wire := w ++ s.wire } (384 + p)

/-- Whether live items are mirrored to the shadow: while ON and alongside SYNCING (R413, R415). -/
def mirrorLive (s : State) : Bool := s.harn.outState == 1 || s.harn.outState == 2

/-- Send a mirror frame east to the shadow (R413). -/
def mirrorSend (s : State) (kind : Nat) (args : List Nat) : State :=
  if mirrorLive s then cnt (ringSend s 0 kind args) 390 else s

/-- Send a mirror frame whose action waits for its LINK_ACK (R413). Gates apply only while mirroring is ON. -/
def mirrorGated (s : State) (kind : Nat) (args : List Nat) (gate id : Nat) : State :=
  if s.harn.outState == 2 then
    let p := outPort s 0
    let l := (portGet s p).tx
    let s := cnt (ringSend s 0 kind args) 390
    { s with harn := { s.harn with gates := s.harn.gates ++ [⟨p, l, gate, id⟩] } }
  else mirrorSend s kind args

/-- Whether a gated action still waits. -/
def gateShut (s : State) (kind id : Nat) : Bool := s.harn.gates.any fun g => g.kind == kind && g.id == id

/-! ## The journal tail (03 R107, R108) -/

/-- The interval store is ON (function 0x0A00). -/
def storeOn (s : State) : Bool := fnOn s 0x0A00

def entKind (e : JEnt) : Nat :=
  match e with
  | .epRec _ _ => 0 | .dir _ _ => 1 | .root _ _ => 2 | .tariff _ _ => 3 | .cal _ _ => 4 | .plan _ => 5
  | .feeder _ _ => 6 | .link _ _ => 7 | .linkDrop _ _ => 7 | .sealKeys _ _ _ => 8 | .batch _ _ => 9 | .coll _ _ => 10 | .note _ _ => 11
  | .desc _ _ _ _ _ _ _ _ _ _ _ => 12 | .collPlan _ _ _ _ _ => 10

/-- JRNL_STATUS.TAIL_BYTES. -/
def tailBytes (s : State) : Nat := (s.recs.jtail.map fun e => Config.entryBytes (entKind e.ent)).sum

/-- R108: whether an entry of a kind leaves the tail within its cap, with `spare` bytes beside it. Without a store the
journal is held in DRAM only (R111) and nothing is programmed, so the cap on unprogrammed bytes is not applied (log
entry 12). -/
def tailHolds (s : State) (spare kind : Nat) : Bool :=
  !storeOn s || decide (tailBytes s + Config.entryBytes kind + spare ≤ regFld s 0x9120 0 4 * 1048576)
def tailFits (s : State) (kind : Nat) : Bool := tailHolds s 0 kind
def tailRoom (s : State) (e : JEnt) : Bool := s.recs.jwait.isEmpty && tailFits s (entKind e)

/-- Whether a row that acts for a class may begin where it may change state: no entry waits, and the tail takes a record
entry; 64 × 64 B of the tail are TC0's alone (01 R28, R34). DESIGN CHOICE (log entry 12): asked of every such row
alike, before it begins. -/
def tailOpenTc (s : State) (tc : Nat) : Bool := s.recs.jwait.isEmpty && tailHolds s (if tc = 0 then 0 else 4096) 0
def tailOpen (s : State) : Bool := tailOpenTc s 1

/-- A state entry joins the tail; one the tail has no room for waits, and every later one behind it (R108). -/
def tailAdd (s : State) (w : Word) (e : JEnt) : State :=
  let t : JTail := ⟨s.recs.jseq, w, e⟩
  let fits := tailRoom s e
  { s with recs := { s.recs with jtail := if fits then s.recs.jtail ++ [t] else s.recs.jtail
                                 jwait := if fits then s.recs.jwait else s.recs.jwait ++ [t]
                                 jseq := s.recs.jseq + 1 } }

/-- Entries that waited join the tail, oldest first, as far as it has room. -/
def tailRefill : List JTail → State → State
  | [], s => { s with recs := { s.recs with jwait := [] } }
  | e :: t, s =>
    if tailFits s (entKind e.ent) then tailRefill t { s with recs := { s.recs with jtail := s.recs.jtail ++ [e] } }
    else { s with recs := { s.recs with jwait := e :: t } }

/-! ## The OP_STATUS journal (R89) -/

/-- A descriptor's journal entry as the device journal holds it, with the class and the EID of the descriptor. -/
def jrnlJEnt (s : State) (e : JrnlEnt) : JEnt :=
  let raw := match flightOf s e.uid with | some f => f.raw | none => 0
  .desc e.uid e.sq e.tag e.seq e.pwr e.opcode (dTc raw) (BitVec.ofNat 32 (dEid raw)) e.progress e.status e.jstate

/-- A change of a descriptor's journal entry goes to the journal tail, and to the shadow (03 R107, 13 R413, R421). -/
def jrnlMirror (s : State) (uid : Nat) : State :=
  match s.host.jrnl.find? fun e => e.uid == uid with
  | none => s
  | some e =>
    let s := mirrorSend s 0x11 [12, uid]
    cnt (tailAdd s 0 (jrnlJEnt s e)) 361

/-- Write the entry of a descriptor at fetch, or of a push at its acceptance; the newest 65,536 are kept. -/
def jrnlOpen (s : State) (f : Flight) : State :=
  let e : JrnlEnt := { uid := f.uid, sq := f.sq, tag := dTag f.raw, seq := f.seq,
                       pwr := BitVec.ofNat 32 s.boot.pwrCycles, opcode := BitVec.ofNat 8 (dOpcode f.raw),
                       progress := 0, status := 0, jstate := 1 }
  jrnlMirror { s with host := { s.host with jrnl := (e :: s.host.jrnl).take 65536 } } f.uid

/-- Change the entry of a descriptor. -/
def jrnlMod (s : State) (uid : Nat) (g : JrnlEnt → JrnlEnt) : State :=
  jrnlMirror { s with host := { s.host with jrnl := s.host.jrnl.map fun e => if e.uid = uid then g e else e } } uid

/-- A step boundary: the progress word is journaled (R89). -/
def setProgress (s : State) (f : Flight) (step units : Nat) : State :=
  jrnlMod (flightPut s { f with step := step, units := units }) f.uid
    fun e => { e with progress := progWord step units }

/-! ## Completions (R57, R62, R63, R83) -/

/-- Entries of a completion ring (R62). -/
def cqSize (s : State) (c : Nat) : Nat := 2 ^ regFld s (0x1C08 + 0x20 * c) 0 5

/-- Entries written and not released by a head doorbell. -/
def cqUsed (s : State) (c : Nat) : Nat := ((cqGet s c).tail + cqSize s c - (cqGet s c).head) % cqSize s c

/-- Form the completion of a descriptor: journal its last boundary, and queue the completion on its ring, or close the
entry and drop the descriptor where a Function Level Reset has discarded the completion (R49). The entry of a completion
that is to be written closes as it is written: until then the descriptor is in flight (R63, R89). -/
def completeAfter (s : State) (f : Flight) (status step units : Nat) (res : BitVec 128) (after : Option Nat) : State :=
  let s := jrnlMod s f.uid fun e =>
    if f.discard then { e with progress := progWord step units, status := BitVec.ofNat 8 status, jstate := 3 }
    else { e with progress := progWord step units }
  if f.discard then flightDrop s f.uid
  else
    let c : Cpl := { uid := f.uid, unsol := false, sq := f.sq, tag := dTag f.raw, status := BitVec.ofNat 8 status,
                     progress := progWord step units, dt := dtOf s, result := res, irqNow := dIrqNow f.raw,
                     headIdx := f.idx, after := after, tc0 := false }
    let q := cqGet s f.cq
    let s := if q.waiting.length + cqUsed s f.cq + 1 < cqSize s f.cq then s else cnt s 299
    let q := cqGet s f.cq
    flightPut (cqPut s f.cq { q with waiting := q.waiting ++ [c] })
      { f with started := true, ended := true, step := step, units := units, stage := .none }

def complete (s : State) (f : Flight) (status step units : Nat) (res : BitVec 128) : State :=
  completeAfter s f status step units res none

/-- OK after `step` steps. -/
def completeOk (s : State) (f : Flight) (step : Nat) (res : BitVec 128) : State := complete s f stOk step 0 res

/-- Rejected: no step happened and PROGRESS is 0 (R83). -/
def reject (s : State) (f : Flight) (status : Nat) (res : BitVec 128) : State := complete s f status 0 0 res

/-- BAD_DESCRIPTOR with a reason and an offset (R81). -/
def bad (s : State) (f : Flight) (reason off : Nat) : State := reject s f stBad (badResult reason off 0)

/-- PARAMETER_RANGE at an offset. -/
def badParam (s : State) (f : Flight) (off : Nat) : State := bad s f rsParam off

/-- BUFFER_INVALID at an offset. -/
def badBuf (s : State) (f : Flight) (off : Nat) : State := bad s f rsBuffer off

/-- An unsolicited completion, or the event counted while none can be posted (R67). -/
def unsolicitedTc (s : State) (kind eid ring wr spec : Nat) (tc0 : Bool) : State :=
  let g := regGet s 0x1000
  let c := fld g 0 7
  if wbit g 7 && (cqGet s c).fn.st == .on then
    let e : Cpl := { uid := 0, unsol := true, sq := 127, tag := 0xFFFF, status := 0, progress := 0, dt := dtOf s,
                     result := result4 eid (kind + 2 ^ 16 * ring) wr spec, irqNow := false, headIdx := none,
                     after := none, tc0 := tc0 }
    cqPut s c { cqGet s c with waiting := (cqGet s c).waiting ++ [e] }
  else { s with host := { s.host with unsolCnt := s.host.unsolCnt + 1 } }

/-- An unsolicited completion that no TC0 frame waits for. -/
def unsolicited (s : State) (kind eid ring wr spec : Nat) : State := unsolicitedTc s kind eid ring wr spec false

/-- Whether an unsolicited completion can be posted (R67). -/
def unsolOpen (s : State) : Bool := wbit (regGet s 0x1000) 7 && (cqGet s (fld (regGet s 0x1000) 0 7)).fn.st == .on

/-- Signal HQ_GLOBAL.ERR_VECTOR (R79). -/
def errVector (s : State) : State := msix s (regFld s 0x1000 8 7)

/-- A ring error (R574): log, unsolicited completion of KIND 0x20, error vector. The caller sets the ring's bit. -/
def ringError (s : State) (kind n : Nat) (refused : Word) : State :=
  let s := logEvent 0x0201 (kind + 256 * n + 2 ^ 32 * refused.toNat) s
  errVector (unsolicited s 0x20 0 0xFFFF 0xFFFFFFFF (kind * 2 ^ 30 + n))

/-! ## The descriptor check (R11, R18, R81, R96) -/

/-- What a descriptor check finds. -/
inductive Chk where
  | ok
  | bad (reason off : Nat)
  | status (st : Nat) (res : BitVec 128)
  deriving DecidableEq, Repr

/-- Key opcodes run on SUSPENDED records, and so do update, retire and TC0 (R96). -/
def suspendedRuns (op tc : Nat) : Bool := tc == 0 || op == 0x11 || op == 0x12 || (0x20 ≤ op && op ≤ 0x24)

/-- R96: may a descriptor naming a record in this state run. -/
def stateRuns (st op tc : Nat) : Bool :=
  op == 0x13 || (st == 0 && op == 0x10) || st == 1 || (st == 2 && (op == 0x10 || suspendedRuns op tc)) ||
  (st == 3 && op == 0x12)

/-- Whether a descriptor names one endpoint by its EID field (R82; a key opcode by HANDLE 0, a read or a snapshot of
one EID by BITMAP_ADDR 0). -/
def namesEid (o : OpInfo) (raw : BitVec 512) : Bool :=
  match o.eid with
  | .no => false
  | .list => false
  | .eid => true
  | .eidOrNo => dByte raw 24 4 == 0
  | .eidOrList => dBitmap raw == 0

/-- The buffer test of R81: alignment, the pair, the limit, the opcode's minimum; the offset of the first bad byte. -/
def bufTest (o : OpInfo) (raw : BitVec 512) : Option Nat :=
  match o.buf with
  | .no => none
  | .may => if dBufAddr raw % 8 ≠ 0 then some 8
            else if dBufLen raw > 0x1000000 then some 16
            else if dBufAddr raw = 0 ∧ dBufLen raw ≠ 0 then some 16
            else if dBufAddr raw ≠ 0 ∧ dBufLen raw = 0 then some 16 else none
  | .need m => if dBufAddr raw % 8 ≠ 0 then some 8
            else if dBufAddr raw = 0 then some 8
            else if dBufLen raw > 0x1000000 ∨ dBufLen raw < m then some 16
            else if o.eid = .list ∧ dBufLen raw % 4 ≠ 0 then some 16 else none

/-- The EID tests of R18 and R115. -/
def eidChk (s : State) (o : OpInfo) (raw : BitVec 512) : Chk :=
  if namesEid o raw then
    match eidTest s (dEid raw) with
    | some .invalid => .bad rsEid 4
    | some (.notOwner p) => .status stNotOwner (BitVec.ofNat 128 p)
    | none => .ok
  else if eidMid (dEid raw) ≠ 0 then .bad rsEid 4
  else .ok

/-- The opcodes the ROM loader executes in recovery (R480). -/
def recoveryRuns (op : Nat) : Bool := op == 0x01 || op == 0x02 || op == 0x80 || op == 0x81 || op == 0x82

/-- Whether a descriptor in flight has taken effect, or begun to: its row has run and waits for nothing to begin. A retire
takes effect at its step 2, and waits at step 3 for those behind it (03 R105). -/
def acted (f : Flight) : Bool :=
  f.ended || (f.started && (match f.stage with | .wait _ _ _ => dOpcode f.raw == 0x12 | _ => true))

/-- Whether two descriptors name one endpoint and are of one class. -/
def sameTarget (f g : Flight) : Bool :=
  (match opInfo (dOpcode f.raw), opInfo (dOpcode g.raw) with
   | some o, some p => namesEid o f.raw && namesEid p g.raw
   | _, _ => false) && dEid f.raw == dEid g.raw && dTc f.raw == dTc g.raw

/-- Whether an earlier admitted descriptor of the same class to the same EID has still to take effect (R61). The order
is asked of descriptors that name their EID; a list's targets are known to its row alone (log entry 149). -/
def mustFollow (s : State) (f : Flight) : Bool :=
  s.host.flights.any fun g => !g.admWait && !g.inPush && !acted g && sameTarget f g &&
    (decide (g.adm < f.adm) || (g.adm == f.adm && decide (g.uid < f.uid)))

/-- Whether the state of its endpoint's record lets a descriptor run (R96). -/
def stateOpen (s : State) (f : Flight) : Bool :=
  match opInfo (dOpcode f.raw) with
  | some o => !namesEid o f.raw || stateRuns (recGet s (dEid f.raw)).state.toNat (dOpcode f.raw) (dTc f.raw)
  | none => true

/-- The whole check of a fetched or pushed descriptor; the order among reasons is the model's (log entry 8). The record's
state is judged here unless an earlier descriptor to the EID may yet change it; then as the descriptor starts. -/
def descCheck (s : State) (f : Flight) (cls : Nat) (dup : Bool) (pushed : Bool) : Chk :=
  let raw := f.raw
  if pushed && !(dOpcode raw == 0x40 || dOpcode raw == 0x41 || dOpcode raw == 0x42) then .bad rsPush 0
  else if pushed && (dTc raw != 0 || dFence raw) then .bad rsPush 1
  else match opInfo (dOpcode raw) with
  | none => .bad rsUnknown 0
  | some o =>
    match reservedAt o raw 0 64 with
    | some b => .bad rsReserved b
    | none =>
      if dTc raw ≠ cls ∨ dTc raw < o.tcLo ∨ o.tcHi < dTc raw then .bad rsClass 1
      else if dup then .bad rsDupTag 2
      else if s.upd.recovery && !recoveryRuns (dOpcode raw) then .status stOff 0
      else match bufTest o raw with
      | some b => .bad rsBuffer b
      | none =>
        match eidChk s o raw with
        | .ok => if stateOpen s f || mustFollow s f then .ok else .bad rsParam 4
        | c => c

/-- Another descriptor of the ring in flight with the same TAG (R60). -/
def dupTag (s : State) (f : Flight) : Bool :=
  s.host.flights.any fun g => decide (g.uid < f.uid) && g.sq == f.sq && dTag g.raw == dTag f.raw

/-- Whether OP_STATUS keeps an entry for an opcode (R82). -/
def journaled (op : Nat) : Bool := match opInfo op with | some o => o.jrnl | none => false

def klZero (s : State) : State := { s with keys := { s.keys with klData := [0, 0, 0, 0, 0, 0, 0, 0] } }

/-- The key-load registers are zeroed where the install of a loaded key fails, at whatever step (06 R193). -/
def klFail (s : State) (f : Flight) : State :=
  if dOpcode f.raw = 0x20 ∧ dByte f.raw 28 1 = 1 then klZero s else s

/-- Check an admitted descriptor, and complete it where it fails. DESIGN CHOICE (log entry 150): a push is of class 0
whatever the CLASS of its bound ring. -/
def checkAdmitted (s : State) (f : Flight) (pushed dup : Bool) : State :=
  let f := { f with adm := s.tcxo }
  let s := cnt (flightPut s f) (289 + dTc f.raw)
  match descCheck s f (if pushed then 0 else regFld s (0x1410 + 0x20 * f.sq) 16 2) dup pushed with
  | .ok => s
  | .bad r o => bad (klFail s f) f r o
  | .status st res => reject (klFail s f) f st res

/-! ## TC0 admission (R29) -/

/-- TC0 descriptors that hold a place. -/
def tc0Desc (s : State) : Nat :=
  (s.host.flights.filter fun f => dTc f.raw == 0 && !f.admWait && !f.inPush).length

/-! ## Cores (R39, R58) -/

def coreState (s : State) (k : Nat) : Nat := lget 3 s.glob.cores k

/-- CORES_PAUSED: any control core paused or restarting. -/
def coresPaused (s : State) : Bool := s.glob.cores.any fun c => c == 1 || c == 2

/-- The control core that executes an opcode runs; hardware always does. In recovery the ROM loader executes. -/
def coreRuns (s : State) (op : Nat) : Bool :=
  match opCore op with
  | none => true
  | some k => s.upd.recovery || coreState s k == 0

/-- A FENCE descriptor starts only after every descriptor fetched before it from its ring has had its completion
written (R59). -/
def fenceOpen (s : State) (f : Flight) : Bool :=
  !dFence f.raw || !(s.host.flights.any fun g => g.sq == f.sq && g.idx.isSome && g.uid < f.uid)

/-- The descriptor in flight a row executes: present, admitted, not ended, of this opcode, its core running, its FENCE
open, no earlier one to its endpoint left to act before it, the journal tail open to it where it is marked Journal Y.
None: the row has no effect (log entry 9). -/
def runnable (s : State) (uid op : Nat) : Option Flight :=
  match flightOf s uid with
  | none => none
  | some f =>
    if !f.admWait && !f.inPush && !f.ended && dOpcode f.raw == op && coreRuns s op && fenceOpen s f &&
      (f.started || !mustFollow s f) && (!journaled op || tailOpenTc s (dTc f.raw))
    then some { f with started := true } else none

/-- Whether a descriptor that has not started may not: its record's state no longer lets it run (R96). -/
def stateShut (s : State) (uid : Nat) : Bool :=
  match flightOf s uid with
  | some f => !f.started && !stateOpen s f
  | none => false

/-- Run a meaning on the descriptor a row names; nothing otherwise. -/
def withDesc (s : State) (uid op : Nat) (g : Flight → State) : State :=
  match runnable s uid op with
  | some f => if stateShut s uid then bad (klFail s f) f rsParam 4 else g f
  | none => s

/-- As `withDesc`, for a row that is one value of a selecting parameter byte; an unlisted value is run by whichever
row gets it, and refused there. -/
def withSub (s : State) (uid op byte sub : Nat) (listed : List Nat) (g : Flight → State) : State :=
  withDesc s uid op fun f =>
    let v := dByte f.raw byte 1
    if v = sub ∨ v ∉ listed then g f else s

/-- The lowest non-zero byte among `n` bytes from `lo`. -/
def spanSet (raw : BitVec 512) (lo : Nat) : Nat → Option Nat
  | 0 => none
  | n + 1 => if dByte raw lo 1 = 0 then spanSet raw (lo + 1) n else some lo

/-- Fields the mode of an opcode leaves unused are reserved (R11, log entry 14): refuse the first one set, or go on. -/
def ifUnused (s : State) (f : Flight) (spans : List (Nat × Nat)) (k : State) : State :=
  match spans.findSome? fun p => spanSet f.raw p.1 p.2 with
  | some o => bad s f rsReserved o
  | none => k

/-- Result data written to BUF_ADDR (R86). -/
def writeBuf (s : State) (f : Flight) (bytes : List Byte) : State :=
  hostWriteData s (dBufAddr f.raw) bytes

/-- Set the bit of target `i` in the result bitmap (R85): the device only ever sets bits. -/
def setBitmap (s : State) (f : Flight) (i : Nat) : State :=
  let a := dBitmap f.raw + i / 8
  hostWriteMem s a [memByte s.hostMem a ||| BitVec.ofNat 8 (2 ^ (i % 8))]

/-- The first target a list refuses whole (R80). -/
def listBad (s : State) : List Word → Nat → Option Nat
  | [], _ => none
  | e :: t, i =>
    if eidTest s e.toNat = some .invalid then some i else listBad s t (i + 1)

/-! ## Work addressed to a function -/

/-- Work that runs on while its function stops: it was queued while STARTING, or it has begun (R41). -/
def workKept (g : Fn) (f : Flight) : Bool := g.queued.contains f.uid || (match f.stage with | .wait _ _ 1 => true | _ => false)

/-- Work addressed to a function (R41): refused while OFF or STOPPING, queued while STARTING, run while ON. -/
def fnWork (s : State) (id : Nat) (f : Flight) (off : Nat) (run : State) : State :=
  let g := fnGet s id
  match g.st with
  | .on => run
  | .off => reject s f off 0
  | .stopping => if workKept g f then run else reject s f (if off = stOff then stStopping else off) 0
  | .starting => if g.queued.contains f.uid then s else fnPut s id { g with queued := g.queued ++ [f.uid] }

/-- Run a store descriptor by the state of the store (14 R575). -/
def storeRun (s : State) (f : Flight) (run : State) : State := fnWork s 0x0A00 f stNoStore run

end Sys2Proof.Machine
end

