-- ==== Sys2Proof/Machine/Rings.lean ====
section
/-!
DEFINITION. Host rings (02): enabling and stopping, doorbells, the push window, descriptor fetch, admission, completion
writes and their interrupts, Function Level Reset, and the descriptors that need no other block.
-/
namespace Sys2Proof.Machine
open Sys2Proof

/-! ## Ring lifecycle (01 R41 to R43, 02 R52 to R54, R66) -/

def sqCfg (q : Nat) : Nat := 0x1410 + 0x20 * q
def cqCfg (c : Nat) : Nat := 0x1C08 + 0x20 * c
def rrCfg (r : Nat) : Nat := 0x2410 + 0x20 * r
def sqCqId (s : State) (q : Nat) : Nat := regFld s (sqCfg q) 8 6
def sqSize (s : State) (q : Nat) : Nat := 2 ^ regFld s (sqCfg q) 0 5
def rrSize (s : State) (r : Nat) : Nat := 2 ^ regFld s (rrCfg r) 0 5

/-- LOG2_SIZE within 4 to 16. -/
def sizeOk (n : Nat) : Bool := 4 ≤ n && n ≤ 16

/-- A submission ring enters STARTING: counts reset and it is checked (R53, R54). -/
def sqStart (s : State) (q : Nat) : State :=
  let c := (cqGet s (sqCqId s q)).fn.st
  let x := sqGet s q
  let x := { x with head := 0, tail := 0, seq := 0 }
  if sizeOk (regFld s (sqCfg q) 0 5) && (c == .on || c == .starting) then
    sqPut s q { x with fn := ⟨.starting, false, false, []⟩ }
  else ringError (sqPut s q { x with fn := Fn.idle, error := true }) 0 q 0

/-- A completion ring enters STARTING. -/
def cqStart (s : State) (c : Nat) : State :=
  let x := cqGet s c
  let x := { x with head := 0, tail := 0, phaseInv := false, unsig := 0, timer := none }
  if sizeOk (regFld s (cqCfg c) 0 5) then cqPut s c { x with fn := ⟨.starting, false, false, []⟩ }
  else ringError (cqPut s c { x with fn := Fn.idle, error := true }) 1 c 0

/-- A reading ring enters STARTING. DESIGN CHOICE (log entry 151): the grant count is one of the counts that reset to 0. -/
def rrStart (s : State) (r : Nat) : State :=
  let x := rrGet s r
  let x := { x with w := 0, g := 0, unsig := 0, uncov := [] }
  if sizeOk (regFld s (rrCfg r) 0 5) then rrPut s r { x with fn := ⟨.starting, false, false, []⟩ }
  else ringError (rrPut s r { x with fn := Fn.idle, error := true }) 2 r 0

def ringStart (s : State) (kind n : Nat) : State :=
  match kind with
  | 0 => sqStart s n
  | 1 => cqStart s n
  | _ => rrStart s n

def ringFn (s : State) (kind n : Nat) : Fn :=
  match kind with
  | 0 => (sqGet s n).fn
  | 1 => (cqGet s n).fn
  | _ => (rrGet s n).fn

def ringFnPut (s : State) (kind n : Nat) (f : Fn) : State :=
  match kind with
  | 0 => sqPut s n { sqGet s n with fn := f }
  | 1 => cqPut s n { cqGet s n with fn := f }
  | _ => rrPut s n { rrGet s n with fn := f }

/-- An enable request to a ring (R41, R52). -/
def ringEnable (s : State) (kind n : Nat) : State :=
  let f := ringFn s kind n
  match f.st with
  | .off => ringStart s kind n
  | .starting => ringFnPut s kind n { f with disPend := false }
  | .on => s
  | .stopping => ringFnPut s kind n { f with enPend := true }

/-- A disable request to a ring (R41, R52). -/
def ringDisable (s : State) (kind n : Nat) : State :=
  let f := ringFn s kind n
  match f.st with
  | .off => s
  | .starting => ringFnPut s kind n { f with disPend := true }
  | .on => ringFnPut s kind n { f with st := .stopping }
  | .stopping => ringFnPut s kind n { f with enPend := false }

/-- What ON means for a function with a pending disable: the stop begins at once (R41). -/
def reachOn (f : Fn) : Fn := if f.disPend then ⟨.stopping, false, false, []⟩ else ⟨.on, false, false, []⟩

/-- A submission ring's STARTING ends (R54): ON, or OFF with ERROR where its completion ring has returned to OFF; while that
ring is STARTING it waits. A completion ring that has begun to stop has reached ON, and stays until this ring is OFF
(R66). -/
def sqArrive (s : State) (q : Nat) : State :=
  let x := sqGet s q
  if x.fn.st != .starting then s
  else match (cqGet s (sqCqId s q)).fn.st with
    | .starting => s
    | .off => ringError (sqPut s q { x with fn := Fn.idle, error := true }) 0 q 0
    | _ => sqPut s q { x with fn := reachOn x.fn, error := false }

/-- Every submission ring waiting for completion ring `c` follows it (R54). -/
def sqFollow (s : State) (c : Nat) : Nat → State
  | 0 => s
  | n + 1 =>
    let s := sqFollow s c n
    if sqCqId s n = c then sqArrive s n else s

/-- A ring's STARTING ends, after READY (R54, R479). -/
def ringArrive (s : State) (kind n : Nat) : State :=
  if !(s.boot.ready || s.upd.recovery) || (ringFn s kind n).st != .starting then s
  else match kind with
    | 0 => sqArrive s n
    | 1 =>
      let x := cqGet s n
      sqFollow (cqPut s n { x with fn := reachOn x.fn, error := false }) n 64
    | _ =>
      let x := rrGet s n
      rrPut s n { x with fn := reachOn x.fn, error := false, grantErr := false }

/-- Whether a STOPPING ring's last item is done (R52, R66). -/
def ringDrained (s : State) (kind n : Nat) : Bool :=
  match kind with
  | 0 => !(s.host.flights.any fun f => f.sq == n && !f.discard)
  | 1 => (cqGet s n).waiting.isEmpty &&
         (List.range 64).all fun q => sqCqId s q != n || (sqGet s q).fn.st == .off
  | _ => (rrGet s n).uncov.isEmpty

/-- STOPPING ends in OFF; a held enable begins, with code 0x0102 (R43). -/
def ringStopped (s : State) (kind n : Nat) : State :=
  let f := ringFn s kind n
  if f.st != .stopping || !ringDrained s kind n then s
  else if f.enPend then
    ringStart (logEvent 0x0102 (0xFFFF + 2 ^ 16 * kind + 2 ^ 24 * n) (ringFnPut s kind n Fn.idle)) kind n
  else ringFnPut s kind n Fn.idle

/-! ## Doorbells (02 R51, R55, R65, R74) -/

/-- A write to a doorbell page that is no aligned 4-byte write at offset 0 is dropped and counted (R51, R79). -/
def dbDropped (s : State) : State :=
  errVector (cnt { s with host := { s.host with dbDrop := satInc s.host.dbDrop } } 296)

/-- Core 3's stamp of a ring's doorbell, for the time message it may bring (15 R463); none while the core does not run. -/
def doorbellStamp (s : State) (q : Nat) : State :=
  { s with host := { s.host with dbT2 := tset 0 s.host.dbT2 q (if coreState s 3 = 0 then dtOf s else 0) } }

/-- Submission tail doorbell (R55). -/
def sqTail (s : State) (q : Nat) (v : Word) : State :=
  let x := sqGet s q
  if v.toNat < sqSize s q then doorbellStamp (sqPut s q { x with tail := v.toNat, db := v }) q
  else ringError (sqPut s q { x with error := true }) 0 q v

/-- Completion head doorbell (R65): accepted only between the old head and the tail. -/
def cqHead (s : State) (c : Nat) (v : Word) : State :=
  let x := cqGet s c
  let n := cqSize s c
  if v.toNat < n ∧ (v.toNat + n - x.head) % n ≤ (x.tail + n - x.head) % n then
    cqPut s c { x with head := v.toNat, db := v }
  else ringError (cqPut s c { x with error := true }) 1 c v

/-- Credits of a reading ring: G − W modulo 2^32. -/
def credits (x : Rr) : Nat := (x.g - x.w).toNat

/-! ## Interrupts (02 R78, R79) -/

/-- Signal a completion ring's vector; the counts start again. -/
def cqSignal (s : State) (c : Nat) : State :=
  msix (cqPut s c { cqGet s c with unsig := 0, timer := none }) (regFld s (cqCfg c) 8 7)

/-- Whether TIME_US has passed since the first completion not yet signalled; 0 disables the timer (R78). -/
def cqTimeUp (s : State) (c : Nat) : Bool :=
  let us := regFld s (0x1C0C + 0x20 * c) 8 10
  match (cqGet s c).timer with
  | some t => us != 0 && decide (t * 10 + us * 384 ≤ s.tcxo * 10)
  | none => false

/-- COUNT of a completion ring; 0 acts as 1 (R78). -/
def cqCount (s : State) (c : Nat) : Nat := max 1 (regFld s (0x1C0C + 0x20 * c) 0 8)

def cqIrqEn (s : State) (c : Nat) : Bool := wbit (regGet s (0x1C0C + 0x20 * c)) 31

/-- A completion has been written: count it, start the timer, signal where R78 says. -/
def cqNote (s : State) (c : Nat) (irqNow : Bool) : State :=
  let x := cqGet s c
  let s := cqPut s c { x with unsig := x.unsig + 1, timer := some (x.timer.getD s.tcxo) }
  if cqIrqEn s c && (irqNow || decide (cqCount s c ≤ x.unsig + 1)) then cqSignal s c else s

/-- The conditions of R78 evaluated at once, as IRQ_EN rises (R79). -/
def cqEval (s : State) (c : Nat) : State :=
  if decide (cqCount s c ≤ (cqGet s c).unsig) || cqTimeUp s c then cqSignal s c else s

/-! ## Completion writes (02 R57, R62, R63, R86) -/

/-- The 32 bytes of a completion entry with its phase. -/
def cplBytes (c : Cpl) (phase : Bool) : List Byte :=
  leBytes 2 c.tag.toNat ++ leBytes 1 c.status.toNat ++ leBytes 1 (b2n phase + 2 * c.sq) ++
  leBytes 4 c.progress.toNat ++ leBytes 8 c.dt.toNat ++ leBytes 16 c.result.toNat

/-- Write a ring's head to its write-back location: [15:0], the rest zero (R57). -/
def headWriteBack (s : State) (q : Nat) : State :=
  hostWriteMem s ((regGet s (0x1408 + 0x20 * q)).toNat + 2 ^ 32 * (regGet s (0x140C + 0x20 * q)).toNat)
    (leBytes 4 ((sqGet s q).head % 65536))

/-- Whether the completion at the front of a ring can be written: not while a state entry waits to become durable (03 R107,
R108), nor before a completion it has to follow (R86). -/
def cplReady (s : State) (c : Nat) (e : Cpl) : Bool :=
  let st := (cqGet s c).fn.st
  (st == .on || st == .stopping) && decide (cqUsed s c + 1 < cqSize s c) && !s.host.linkDown &&
  (e.unsol || s.recs.jwait.isEmpty) && (match e.after with | none => true | some u => (flightOf s u).isNone)

/-- Put a completion entry in its ring and advance the tail, inverting the phase at the wrap (R62). -/
def cplPut (s : State) (c : Nat) (e : Cpl) (rest : List Cpl) : State :=
  let base := (regGet s (0x1C00 + 0x20 * c)).toNat + 2 ^ 32 * (regGet s (0x1C04 + 0x20 * c)).toNat
  let x := cqGet s c
  let t := (x.tail + 1) % cqSize s c
  let s' := hostWriteMem s (base + 32 * x.tail) (cplBytes e (!x.phaseInv))
  cqPut s' c { cqGet s' c with tail := t, phaseInv := if t = 0 then !x.phaseInv else x.phaseInv, waiting := rest }

/-- A ring's TAG whose completion has been written (R91). -/
def tagDone (s : State) (e : Cpl) : State :=
  let x := sqGet s e.sq
  sqPut s e.sq { x with done := e.tag :: x.done.filter fun t => t != e.tag }

/-- A completion written closes its descriptor's journal entry (R63, R89). -/
def jrnlClose (s : State) (e : Cpl) : State :=
  jrnlMod s e.uid fun j => { j with progress := e.progress, status := e.status, jstate := 2 }

/-- Write the next completion of a ring: head write-back first, then the entry, then the message (R57, R62, R86). -/
def completionWrite (s : State) (c : Nat) : State :=
  match (cqGet s c).waiting with
  | [] => s
  | e :: rest =>
    if !cplReady s c e then s
    else
      let s := match e.headIdx with | some _ => headWriteBack s e.sq | none => s
      let s := cplPut s c e rest
      let s := if e.unsol then s else tagDone (flightDrop (jrnlClose s e) e.uid) e
      let s := if e.tc0 then { s with rp := { s.rp with tc0Frames := s.rp.tc0Frames - 1 } } else s
      cqNote (cnt s 293) c e.irqNow

/-! ## Fetch and admission (02 R56 to R60, R88; 01 R29) -/

/-- TC0 items admitted and not completed, in both directions (R29). -/
def tc0Used (s : State) : Nat := tc0Desc s + s.rp.tc0Frames

/-- Whether one more descriptor of a class finds an in-flight place; 64 of the 1,024 are TC0's alone (R88, R28). -/
def placeFree (s : State) (tc : Nat) : Bool :=
  decide (inflightCount s < 1024) && (tc == 0 || decide (inflightOther s < 960))

/-- The class of a submission ring, by which the fetch arbiter chooses (R56). -/
def sqClass (s : State) (q : Nat) : Nat := regFld s (sqCfg q) 16 2

/-- Fetch stops behind a FENCE descriptor that has not started (R59). -/
def fenceStopped (s : State) (q : Nat) : Bool :=
  s.host.flights.any fun f => f.sq == q && f.idx.isSome && dFence f.raw && !f.started && !f.ended && !f.discard

/-- Whether a ring has descriptors pending that the device may fetch. -/
def fetchOpen (s : State) (q : Nat) : Bool :=
  (sqGet s q).fn.st == .on && (sqGet s q).head != (sqGet s q).tail && !fenceStopped s q && placeFree s (sqClass s q)

/-- The classes of the rings that may be fetched. -/
def fetchWaiting (s : State) : List Nat := ((List.range 64).filter (fetchOpen s)).map (sqClass s)

/-- Whether the fetch arbiter, arbiter 0, chooses a ring by its class (R26, R56). While a core is paused the rings of TC1 to
TC3 may stand at a descriptor it would execute (R58), so no share is kept among those classes (log entry 146). -/
def fetchGrant (s : State) (q : Nat) : Bool :=
  if coresPaused s then sqClass s q == 0 || !(fetchWaiting s).contains 0
  else arbGrants s 0 (sqClass s q) (fetchWaiting s)

/-- One fetched descriptor: SEQ, an in-flight place, its journal entry, TC0 admission, and its check once admitted. -/
def fetchOne (s : State) (q : Nat) (raw : BitVec 512) : State :=
  let x := sqGet s q
  let uid := s.host.uidNext
  let wait := dTc raw == 0 && (decide (64 ≤ tc0Used s) || !s.host.admQ.isEmpty)
  let f : Flight := { uid := uid, sq := q, cq := sqCqId s q, idx := some x.head, raw := raw, seq := x.seq,
                      admWait := wait, inPush := false, started := false, ended := false, discard := false,
                      step := 0, units := 0, stage := .none, adm := 0 }
  let s := sqPut s q { x with head := (x.head + 1) % sqSize s q, seq := x.seq + 1 }
  let s := { s with host := { s.host with uidNext := uid + 1, flights := s.host.flights ++ [f],
                                          admQ := if wait then s.host.admQ ++ [.desc uid] else s.host.admQ } }
  let s := if dOpcode raw = 0x68 then
      { s with host := { s.host with t2s := tset 0 s.host.t2s uid (tget 0 s.host.dbT2 q) } } else s
  let s := bwRx (cnt (notePeak s) 288) 66 64
  let s := if journaled (dOpcode raw) then jrnlOpen s f else s
  if wait then cnt s 298 else checkAdmitted s f false (dupTag s f)

/-- Fetch consecutive descriptors while the ring has them, places remain, and neither R58 nor R59 stops it. -/
def fetchMany (s : State) (q : Nat) : List (BitVec 512) → State
  | [] => s
  | raw :: t =>
    if (sqGet s q).head = (sqGet s q).tail then s
    else if !placeFree s (dTc raw) || fenceStopped s q then s
    else if coresPaused s && (opCore (dOpcode raw)).isSome then s
    else if journaled (dOpcode raw) && !tailOpenTc s (dTc raw) then s
    else fetchMany (fetchOne s q raw) q t

/-- One read request of the ring the arbiter grants: up to 8 descriptors; the head is written when the tail is reached
(R56, R57). A descriptor marked Journal Y waits for room in the journal tail (03 R108). -/
def descriptorFetch (s : State) (q : Nat) (raws : List (BitVec 512)) : State :=
  if (sqGet s q).fn.st != .on || s.host.linkDown || !fetchGrant s q then s
  else
    let s' := fetchMany (if fetchOpen s q && !coresPaused s then arbTake s 0 (sqClass s q) else s) q (raws.take 8)
    if (sqGet s' q).head = (sqGet s' q).tail && (sqGet s q).head != (sqGet s' q).head then headWriteBack s' q else s'

/-- Admit a waiting TC0 descriptor and check it (R29). -/
def admitDesc (s : State) (uid : Nat) : State :=
  match flightOf s uid with
  | none => s
  | some f =>
    let f := { f with admWait := false }
    checkAdmitted (flightPut s f) f false (dupTag s f)

/-- Whether the journal entry a push is to have can be written, or is there. -/
def jrnlReady (s : State) (f : Flight) : Bool :=
  !journaled (dOpcode f.raw) || (s.host.jrnl.any fun e => e.uid == f.uid) || tailOpenTc s 0

/-- Write a push's journal entry, unless it has one or has no room yet in the journal tail (R89; 03 R108). -/
def jrnlEnsure (s : State) (f : Flight) : State :=
  if !journaled (dOpcode f.raw) || (s.host.jrnl.any fun e => e.uid == f.uid) || !tailOpenTc s 0 then s else jrnlOpen s f

/-- A pushed descriptor is taken into the push buffer, or completes PUSH_FULL (R70, R72). DESIGN CHOICE (log entry 148):
PUSH_FULL has no offending field, and names byte 0. -/
def pushTake (s : State) (q : Nat) (raw : BitVec 512) : State :=
  let x := sqGet s q
  let uid := s.host.uidNext
  let room := decide (s.host.pushBuf.length < 64)
  let f : Flight := { uid := uid, sq := q, cq := sqCqId s q, idx := none, raw := raw, seq := x.seq, admWait := false,
                      inPush := true, started := false, ended := false, discard := false, step := 0, units := 0,
                      stage := .none, adm := 0 }
  let s := sqPut s q { x with seq := x.seq + 1 }
  let s := { s with host := { s.host with uidNext := uid + 1, flights := s.host.flights ++ [f],
                                          pushBuf := if room then s.host.pushBuf ++ [uid] else s.host.pushBuf } }
  let s := cnt (notePeak s) 294
  let s := jrnlEnsure s f
  if room then s
  else bad (cnt { s with host := { s.host with pushOvf := satInc s.host.pushOvf } } 295) f rsPushFull 0

/-- A BAR4 write (R69). -/
def pushWrite (s : State) (page off len : Nat) (raw : BitVec 512) : State :=
  let m := regGet s (0x1040 + 4 * page)
  let q := fld m 0 6
  let s := bwRx s 66 len
  if page < 16 && len == 64 && off % 64 == 0 && off < 4096 && wbit m 31 && (sqGet s q).fn.st == .on then pushTake s q raw
  else
    errVector (unsolicited { s with host := { s.host with pushDrop := satInc s.host.pushDrop } } 0x21 0 0xFFFF
      0xFFFFFFFF 0)

/-- The oldest push leaves the push buffer once a place among the 1,024 and a TC0 place are free (R72, R88), and its
journal entry is written. -/
def pushAdmission (s : State) : State :=
  match s.host.pushBuf with
  | [] => s
  | uid :: rest =>
    if decide (64 ≤ tc0Used s) || !s.host.admQ.isEmpty || !placeFree s 0 then s
    else match flightOf s uid with
      | none => { s with host := { s.host with pushBuf := rest } }
      | some f =>
        if !jrnlReady s f then s
        else
          let f := { f with inPush := false }
          let s := flightPut { s with host := { s.host with pushBuf := rest } } f
          checkAdmitted (jrnlEnsure s f) f true (dupTag s f)

/-! ## Function Level Reset (02 R49) -/

/-- Whether a register lies in the host queue set-up block. -/
def inHostBlock (off : Nat) : Bool := 0x1000 ≤ off && off < 0x4000

/-- The completions of descriptors that wait on their rings. -/
def waitingCpls (s : State) : List Cpl := (s.host.cq.map fun p => p.2.waiting.filter fun c => !c.unsol).flatten

/-- Journal entries whose completion was formed and not written close with it, and read JSTATE 3 (R49, R90). -/
def discardJrnl (s : State) : State :=
  (waitingCpls s).foldl (fun s c =>
    jrnlMod s c.uid fun e => { e with progress := c.progress, status := c.status, jstate := 3 }) s

/-- TC0 places of the alarm completions a Function Level Reset discards (01 R29). -/
def tc0Cpls (s : State) : Nat := ((s.host.cq.map fun p => p.2.waiting.filter (·.tc0)).flatten).length

/-- Records written to reading rings and not covered by a tail write-back, ring by ring (R49). -/
def uncovered (s : State) : List Deliv := (s.host.rr.map fun p => p.2.uncov).flatten

/-- FUNCTION_LEVEL_RESET. INFLIGHT counts the descriptors that run on, and DESIGN CHOICE (log entry 40) the peak starts
again there. -/
def functionLevelReset (s : State) : State :=
  let s := discardJrnl s
  let back := uncovered s
  { s with
    regs := s.regs.filter fun p => !inHostBlock p.1
    host := { s.host with
      sq := [], cq := [], rr := [], msixMask := [], msixPend := [], dbDrop := 0, pushDrop := 0, pushOvf := 0,
      deliv := back ++ s.host.deliv,
      flights := (s.host.flights.filter fun f => !f.ended).map fun f => { f with discard := true },
      peak := (s.host.flights.filter fun f => !f.ended && !f.inPush).length + s.host.pushBuf.length
      pcie := PcieSt.reset }
    rp := { s.rp with tc0Frames := s.rp.tc0Frames - tc0Cpls s } }

end Sys2Proof.Machine
end

