-- ==== Sys2Proof/Machine/Recs.lean ====
section
/-!
DEFINITION. Changing a record: WRITE_SEQ, the state entry in the journal tail, its mirror copy to the shadow, the
pinned-state store (03 R95, R107, R108; 04 R123; 13 R405, R413).
-/
namespace Sys2Proof.Machine
open Sys2Proof

/-! ## State entries (R107) -/

/-- An entry about an endpoint of another home position: a taken-over endpoint is not mirrored on (13 R419). -/
def entForeign (s : State) (e : JEnt) : Bool :=
  match e with
  | .epRec eid _ => eidHome eid != s.harn.pos
  | .link eid _ => eidHome eid != s.harn.pos
  | .linkDrop eid _ => eidHome eid != s.harn.pos
  | _ => false

/-- Append a state entry to the journal tail and mirror it before it is applied (R107, R413). -/
def appendState (s : State) (w : Word) (e : JEnt) : State :=
  let s := if entForeign s e then s else mirrorSend s 0x11 [entKind e, w.toNat]
  cnt (tailAdd s w e) 361

/-! ## Records -/

def recPut (s : State) (eid : Nat) (r : EpRec) : State :=
  { s with recs := { s.recs with tab := tset EpRec.free s.recs.tab eid r } }

/-- What every change stamps: WRITE_SEQ rises by one, the owner epoch, and the image's format version unless the
record's is higher (R95, R113, R114, R116). -/
def stamped (s : State) (r : EpRec) : EpRec :=
  { r with writeSeq := r.writeSeq + 1, ownerEpoch := s.recs.epoch,
           version := if r.version.toNat < s.recs.fmt.toNat then s.recs.fmt else r.version }

/-- A change of a record by a state entry: appended, mirrored, applied in one step. -/
def recChange (s : State) (eid : Nat) (r : EpRec) : State :=
  let r' := stamped s r
  recPut (appendState s r'.writeSeq (.epRec eid r')) eid r'

/-- A change of a record by a posting: its entry goes with the reading to the interval store, not to the tail. -/
def recPost (s : State) (eid : Nat) (r : EpRec) : State := recPut s eid (stamped s r)

def pinGet (s : State) (eid : Nat) : PinEnt := tget PinEnt.none s.recs.pins eid
def pinPut (s : State) (eid : Nat) (p : PinEnt) : State :=
  { s with recs := { s.recs with pins := tset PinEnt.none s.recs.pins eid p } }

/-- The record as a reader sees it: a pinned endpoint's four fields come from the pinned-state store (R106, R123). -/
def recView (s : State) (eid : Nat) : EpRec :=
  let r := recGet s eid
  let p := pinGet s eid
  if p.on then { r with rxIc := p.rxIc, txIcHwm := p.txIc, relay := p.relay, alarms := p.alarms } else r

/-- An endpoint's entry in the pinned-state store: its address index entry and its four fields (R123). -/
def pinOf (r : EpRec) : PinEnt := ⟨true, r.rxIc, r.txIcHwm, r.relay, r.alarms, r.meterAddr, r.proto⟩

/-- Keep the pinned-state store at a record's values, where the endpoint is pinned. -/
def pinSync (s : State) (eid : Nat) (r : EpRec) : State :=
  if (pinGet s eid).on then pinPut s eid (pinOf r) else s

/-- The EID bound to a meter address, if any: the address index (R101). -/
def addrLookup (s : State) (addr : BitVec 64) (proto : BitVec 3) : Option Nat :=
  (s.recs.tab.find? fun p => p.2.meterAddr == addr && p.2.proto == proto && (p.2.state == 1 || p.2.state == 2) &&
    serves s (eidHome p.1)).map (·.1)

/-- The EID the parse stage resolves: a pinned endpoint's from the pinned-state store, others' from the address index
(R120, R123). -/
def addrResolve (s : State) (addr : BitVec 64) (proto : BitVec 3) : Option Nat :=
  match s.recs.pins.find? fun p => p.2.on && p.2.addr == addr && p.2.proto == proto &&
      ((recGet s p.1).state == 1 || (recGet s p.1).state == 2) && serves s (eidHome p.1) with
  | some p => some p.1
  | none => addrLookup s addr proto

/-- EP_ACTIVE_CNT: records ACTIVE or SUSPENDED. -/
def activeCount (s : State) : Nat :=
  (s.recs.tab.filter fun p => p.2.state == 1 || p.2.state == 2).length

/-- Bytes of an endpoint record's DEMAND area (08 R258). -/
def demandBytes (d : Demand) : List Byte :=
  leBytes 4 d.maxD.toNat ++ leBytes 8 d.maxDt.toNat ++ leBytes 8 d.allocDt.toNat ++ leBytes 4 d.curNum.toNat ++
  leBytes 4 d.curAcc.toNat ++ leBytes 1 (d.head + 16 * d.filled) ++
  leBytes 1 (b2n d.subSat + 2 * b2n d.periodOutage + 4 * b2n d.baselineSet + 8 * (d.resv.toNat % 32)) ++
  leBytes 2 (d.resv.toNat / 32) ++ ((List.range 14).map fun i => leBytes 2 (tget 0 d.sub i).toNat).flatten ++
  leBytes 4 (d.resv.toNat / 2 ^ 21)

/-- Bytes of the PREPAY area (08 R272). -/
def prepayBytes (p : Prepay) : List Byte :=
  leBytes 8 p.credit.toNat ++ leBytes 4 p.emergAvail.toNat ++ leBytes 4 p.lastTopup.toNat ++
  leBytes 2 p.residue.toNat ++ leBytes 1 p.lstate.toNat ++ leBytes 1 p.flags.toNat ++ leBytes 4 p.lowThresh.toNat ++
  leBytes 8 p.stateDt.toNat

/-- The 64 bytes a key place holds: a wrapped blob or zeros (R576). -/
def blobPlace (b : Option Blob) : List Byte :=
  match b with
  | some b => blobBytes b
  | none => leBytes 64 0

/-- The 512 bytes of a record (R93, R94); a FREE record reads as zeros (R106). -/
def recBytes (eid : Nat) (r : EpRec) : List Byte :=
  if r.state = 0 then leBytes 512 0
  else
    leBytes 4 (r.version.toNat + r.state.toNat * 256 + b2n r.billing * 2048 + r.proto.toNat * 4096 +
      r.hdrRes.toNat % 2 * 2 ^ 15 + r.ownerEpoch.toNat * 65536 + r.hdrRes.toNat / 2 * 2 ^ 24) ++
    leBytes 4 eid ++ leBytes 8 r.meterAddr.toNat ++ leBytes 4 r.attach.toNat ++ leBytes 4 r.gridLoc.toNat ++
    leBytes 4 r.tariffBind.toNat ++ leBytes 4 r.writeSeq.toNat ++ leBytes 8 r.lastMeter.toNat ++
    leBytes 8 r.lastRx.toNat ++ leBytes 4 r.rxIc.toNat ++ leBytes 4 r.txIcHwm.toNat ++ leBytes 4 r.keyCtl.toNat ++
    leBytes 4 r.validCfg.toNat ++ blobPlace r.keyCur ++ blobPlace r.keyPend ++
    ((List.range 8).map fun i => leBytes 8 (tget 0 r.energy i).toNat).flatten ++
    ((List.range 16).map fun i => leBytes 8 (tget 0 r.rate i).toNat).flatten ++
    demandBytes r.demand ++ prepayBytes r.prepay ++ leBytes 8 r.late.lateE.toNat ++ leBytes 4 r.late.cnt.toNat ++
    leBytes 4 r.late.oldest.toNat ++ leBytes 4 r.period.toNat ++ leBytes 4 r.relay.toNat ++
    leBytes 4 r.alarms.toNat ++ leBytes 4 r.extra.toNat

/-- OP_EP_READ (R106): one snapshot of the record to BUF_ADDR. -/
def epRead (s : State) (uid : Nat) : State :=
  withDesc s uid 0x13 fun f =>
    let eid := dEid f.raw
    let r := recView s eid
    completeOk (writeBuf s f (recBytes eid r)) f 0 (result4 r.writeSeq.toNat r.state.toNat 0 0)

end Sys2Proof.Machine
end

