-- ==== Sys2Proof/Machine/Counters.lean ====
section
/-!
DEFINITION. The Firn log's writer, reader and clear (17), and the counters' reads, presets, sampling and bandwidth
windows (18).
-/
namespace Sys2Proof.Machine
open Sys2Proof

/-! ## Firn log records (R503, R506 to R508, R511) -/

/-- Bytes 0 to 27 of a record. -/
def logBytes28 (r : LogRec) : List Byte :=
  leBytes 4 r.seq.toNat ++ leBytes 2 r.ev.code.toNat ++ leBytes 1 (r.ev.sev + 8 * b2n r.sat + 16 * b2n r.resv) ++
  leBytes 1 (min r.supp 255) ++ leBytes 4 r.ev.opSec.toNat ++ leBytes 4 r.ev.pwr.toNat ++ leBytes 12 r.ev.data.toNat

/-- `n` bits of a CRC-32C, least significant first; its polynomial and form are those the name stands for (log entry 131). -/
def crcBits : Nat → BitVec 32 → BitVec 32
  | 0, c => c
  | n + 1, c => crcBits n (if c.getLsbD 0 then (c >>> 1) ^^^ 0x82F63B78 else c >>> 1)

/-- CRC-32C of a byte string. -/
def crc32c (l : List Byte) : BitVec 32 := ~~~ (l.foldl (fun c b => crcBits 8 (c ^^^ b.setWidth 32)) 0xFFFFFFFF)

/-- The 32 bytes of a committed record. -/
def logBytes (r : LogRec) : List Byte := logBytes28 r ++ leBytes 4 (crc32c (logBytes28 r)).toNat

/-- The record an event becomes, with the code's suppressed count, which then is 0 (R505). -/
def logForm (s : State) (ev : LogEv) (resv : Bool) : LogRec :=
  let n := (bucketGet s ev.code.toNat).supp
  { seq := s.log.next, ev := ev, supp := min n 255, sat := decide (255 < n), resv := resv }

/-- Commit a record to the main log (R506, R508). -/
def logCommit (s : State) (ev : LogEv) : State :=
  let r := logForm s ev false
  let s := bucketPut s ev.code.toNat { bucketGet s ev.code.toNat with supp := 0 }
  cnt { s with log := { s.log with recs := s.log.recs ++ [r], next := s.log.next + 1,
                                   full := decide (16384 ≤ s.log.recs.length + 1) } } 425

/-- Commit a record to the reserve area, or count it as dropped (R511). -/
def logReserve (s : State) (ev : LogEv) : State :=
  if s.log.reserve.length < 16 then
    let r := logForm s ev true
    let s := bucketPut s ev.code.toNat { bucketGet s ev.code.toNat with supp := 0 }
    cnt { s with log := { s.log with reserve := s.log.reserve ++ [r], next := s.log.next + 1 } } 425
  else { s with log := { s.log with dropped := satInc s.log.dropped } }

/-- An event formed inside the log itself, outside the limiter. -/
def logOwn (s : State) (code data : Nat) : LogEv :=
  { code := BitVec.ofNat 16 code, sev := logSev code, data := BitVec.ofNat 96 data,
    opSec := BitVec.ofNat 32 s.boot.opSec, pwr := BitVec.ofNat 32 s.boot.pwrCycles }

/-- A read-back mismatch: the slot holds no readable record, code 0x0002 goes to the reserve area (R511). -/
def logMediaFault (s : State) : State :=
  let slot := s.log.recs.length - 1
  let s := { s with log := { s.log with recs := s.log.recs.dropLast, mediaFault := true } }
  logReserve s (logOwn s 0x0002 (slot * 2 ^ 32))

/-- LOG_RECORD_WRITE: the event at the head of the write queue (R506, R508, R511). -/
def logRecordWrite (s : State) (readBackOk : Bool) : State :=
  if s.log.held then s
  else match s.log.queue with
  | [] => s
  | ev :: rest =>
    let s := { s with log := { s.log with queue := rest } }
    if s.log.mediaFault then logReserve s ev
    else if s.log.full then { s with log := { s.log with dropped := satInc s.log.dropped } }
    else if readBackOk then logCommit s ev
    else logMediaFault (logCommit s ev)

/-- FLURRY_TOKEN: a code's timer, which runs while its bucket is below full, has reached FLURRY_MS and adds a token
(R505). -/
def flurryToken (s : State) (code : Nat) : State :=
  let b := bucketGet s code
  if b.taken = 0 || !msPassed s b.since b.ms then s
  else bucketPut s code { b with taken := b.taken - 1, since := b.since + b.ms * 38400 }

/-! ## OP_LOG_READ (R509, R510) -/

/-- Records of both areas in SEQ order from a SEQ on: SEQs rise through the main log and go on in the reserve. -/
def logFrom (s : State) (from_ : Nat) : List LogRec :=
  (s.log.recs ++ s.log.reserve).filter fun r => decide (from_ ≤ r.seq.toNat)

/-- ACTION 0: as many records as BUF_LEN holds, up to SNAP_SEQ (R510). -/
def logReadRead (s : State) (uid : Nat) : State :=
  withSub s uid 0x91 24 0 [0, 1] fun f =>
    if dByte f.raw 24 1 ≠ 0 then badParam s f 24
    else if dBufLen f.raw < 32 then badBuf s f 16
    else
      let from_ := dByte f.raw 28 4
      let snap := (s.log.next - 1).toNat
      let out := (logFrom s from_).take (dBufLen f.raw / 32)
      let next := match out.getLast? with | some r => r.seq.toNat + 1 | none => from_
      let oldest := match s.log.recs ++ s.log.reserve with | r :: _ => decide (from_ < r.seq.toNat) | [] => false
      let flags := b2n oldest + 2 * b2n s.log.full + 4 * b2n s.log.mediaFault + 8 * b2n (out.any (·.resv))
      let res := result4 out.length next snap flags
      let s := writeBuf s f (out.map logBytes).flatten
      complete s f (if s.log.mediaFault then stFault else stOk) 0 out.length res

/-- The log as a clear leaves it: code 0x0001 first, the queue released (R509, R511). -/
def logCleared (s : State) (through : Word) (verifyOk : Bool) : State :=
  let ev := logOwn s 0x0001 (through.toNat + 2 ^ 32 * s.log.dropped.toNat)
  let was := s.log.mediaFault
  let s := { s with log := { s.log with recs := [], reserve := [], next := through + 1, full := false, dropped := 0,
                                        held := false, mediaFault := !verifyOk } }
  if verifyOk then logCommit s ev
  else
    let s := logReserve s ev
    if was then s else logReserve s (logOwn s 0x0002 0)

/-- ACTION 1: checks, the hold of the write queue, the wait for earlier reads, the clear (R509). -/
def logReadClear (s : State) (uid : Nat) (verifyOk : Bool) : State :=
  withSub s uid 0x91 24 1 [0, 1] fun f =>
    let through := BitVec.ofNat 32 (dByte f.raw 28 4)
    let checked := f.stage != .none
    if dByte f.raw 24 1 ≠ 1 then badParam s f 24
    else ifUnused s f [(8, 12)] <|
    if !checked && !wbit (regGet s 0xC000) 24 then badParam s f 24
    else if !checked && through + 1 != s.log.next then badParam s f 28
    else if s.host.flights.any fun g => dOpcode g.raw == 0x91 && decide (g.uid < uid) && !g.ended then
      flightPut { s with log := { s.log with held := true } } { f with stage := .wait s.tcxo 0 0 }
    else
      let s := logCleared s through verifyOk
      complete s f (if s.log.mediaFault then stFault else stOk) 0 0 0

/-! ## Counters (R515, R516, R518, R519) -/

/-- CNT_LO_READ: bits [31:0] read, bits [62:32] latched with the counter's tag (R516). -/
def cntLoRead (s : State) (i : Nat) : State :=
  let v := (cntGet s i).toNat
  bwTx { s with cnt := { s.cnt with latch := BitVec.ofNat 31 (v / 2 ^ 32), ltag := i },
                host := { s.host with lastRead := BitVec.ofNat 32 v },
                wire := .read (BitVec.ofNat 32 v) :: s.wire } 66 4

/-- CNTi_HI as it reads: the latch with LATCHED, or 0 (R516). -/
def cntHi (s : State) (i : Nat) : Word :=
  if s.cnt.ltag = i then BitVec.ofNat 32 (s.cnt.latch.toNat + 2 ^ 31) else 0

/-- A preset re-arms at zero every sampler that watches the counter (R521). -/
def smpRearm (s : State) (i : Nat) : State :=
  (List.range 8).foldl (fun s n =>
    let cfg := regGet s (0x800 + 0x20 * n)
    if wbit cfg 31 && fld cfg 0 9 == i then
      smpPut s n { smpGet s n with since := 0, thresh := regGet s (0x804 + 0x20 * n) }
    else s) s

/-- A preset of one counter; reserved indices are never preset (R518). -/
def cntPreset (s : State) (i : Nat) (v : BitVec 56) : State :=
  if cntReserved i then s else smpRearm (cntPut s i v) i

/-- The states of a run of counters, 8 bytes each. -/
def cntRun (s : State) (first n : Nat) : List Byte :=
  ((List.range n).map fun k => leBytes 8 (cntGet s (first + k)).toNat).flatten

def cntPresetRun (s : State) (first n : Nat) (v : BitVec 56) : State :=
  (List.range n).foldl (fun s k => cntPreset s (first + k) v) s

/-- The checks of OP_COUNTER_PRESET in byte order (R518). -/
def cntPresetBad (raw : BitVec 512) : Option (Nat × Nat) :=
  let mode := dByte raw 24 1
  let first := dByte raw 26 2
  let count := dByte raw 28 2
  if mode > 2 then some (rsParam, 24)
  else if first > 511 then some (rsParam, 26)
  else if count = 0 ∨ count > 512 ∨ first + count > 512 then some (rsParam, 28)
  else if mode = 2 ∧ dByte raw 32 7 ≠ 0 then some (rsReserved, (spanSet raw 32 7).getD 32)
  else if mode = 0 ∧ (dBufAddr raw ≠ 0 ∨ dBufLen raw ≠ 0) then some (rsReserved, (spanSet raw 8 12).getD 8)
  else if mode ≠ 0 ∧ dBufAddr raw = 0 then some (rsBuffer, 8)
  else if mode ≠ 0 ∧ dBufLen raw < 8 * count then some (rsBuffer, 16)
  else none

/-- One mode of OP_COUNTER_PRESET: states read before they are preset (R519). -/
def counterPreset (s : State) (uid mode : Nat) : State :=
  withSub s uid 0x92 24 mode [0, 1, 2] fun f =>
    match cntPresetBad f.raw with
    | some (r, o) => bad s f r o
    | none =>
      let first := dByte f.raw 26 2
      let n := dByte f.raw 28 2
      let bytes := cntRun s first n
      let s := if mode = 2 then s else cntPresetRun s first n (BitVec.ofNat 56 (dByte f.raw 32 7))
      let s := if mode = 0 then s else writeBuf s f bytes
      complete s f stOk 0 n (result4 n 0 0 0)

/-! ## Bandwidth (R523, R524) -/

def bwAll (s : State) (g : BwPort → BwPort) : State :=
  (List.range 69).foldl (fun s p => bwPut s p (g (bwGet s p))) s

/-- What the DRAM port (67) moved in a window: free, since no rule says what a row reads and writes there (log entry 41). -/
def bwDram (n : Nat) (x : BwPort) : BwPort :=
  { x with lastRx := BitVec.ofNat 64 (Config.freeNat (2 * n)), lastTx := BitVec.ofNat 64 (Config.freeNat (2 * n + 1)) }

/-- BW_WINDOW_END: the totals become the last completed window. -/
def bwWindowEnd (s : State) : State :=
  if msPassed s s.cnt.bwStart (regFld s 0x900 0 14) then
    let s := bwAll s fun x => { x with lastRx := x.rx, lastTx := x.tx, rx := 0, tx := 0, seq := x.seq + 1, done := true }
    let (n, s) := takeFree s
    let s := bwPut s 67 (bwDram n (bwGet s 67))
    { s with cnt := { s.cnt with bwStart := s.tcxo } }
  else s

/-- A write of BW_SEL copies the selected port's last completed window (R524). -/
def bwSel (s : State) (v : Word) : State :=
  let s := regWrite s 0x904 v
  let p := regFld s 0x904 0 7
  let x := bwGet s p
  { s with cnt := { s.cnt with copy := if p > 68 then ⟨0, 0, 0, false⟩ else ⟨x.lastRx, x.lastTx, x.seq, x.done⟩ } }

/-- A write of WINDOW_MS discards every window in progress and starts new ones; a refused value does not (R523,
R526). -/
def bwWindowMs (s : State) (v : Word) : State :=
  let ms := fld v 0 14
  let s := regWrite s 0x900 v
  if 1 ≤ ms ∧ ms ≤ 10000 then
    let s := bwAll s fun x => { x with rx := 0, tx := 0 }
    { s with cnt := { s.cnt with bwStart := s.tcxo } }
  else s

/-- A write of SMPn_CFG: EN from 0 to 1 arms the sampler at zero (R521). -/
def samplerCfg (s : State) (n : Nat) (v : Word) : State :=
  let was := wbit (regGet s (0x800 + 0x20 * n)) 31
  let s := regWrite s (0x800 + 0x20 * n) v
  if !was && wbit v 31 then smpPut s n { smpGet s n with since := 0, thresh := regGet s (0x804 + 0x20 * n) } else s

end Sys2Proof.Machine
end

