-- ==== Sys2Proof/Machine/Pipes.lean ====
section
/-!
DEFINITION. The AES pipelines as all work uses them (05): shares, randomness, which pipeline takes what, mask sets, and
faults flagged in a pipeline.
-/
namespace Sys2Proof.Machine
open Sys2Proof

/-! ## Shares (R161, R162, 06 R206) -/

/-- Shares of a value under two random words. -/
def shareOut {w : Nat} (v r q : BitVec w) : Shares w := ⟨v ^^^ r ^^^ q, r, q⟩

/-- Shares re-randomised with the free values `n` and `n + 1`; the value they share is the same. -/
def shareAgain (n : Nat) (x : Shares 256) : Shares 256 :=
  ⟨x.a ^^^ Config.drbg n ^^^ Config.drbg (n + 1), x.b ^^^ Config.drbg n, x.c ^^^ Config.drbg (n + 1)⟩

/-- The three shares of an intermediate state: the spec states no value (log entry 153). -/
def interShares (n : Nat) : Shares 128 :=
  ⟨(Config.drbg n).setWidth 128, (Config.drbg n >>> 128).setWidth 128, (Config.drbg (n + 1)).setWidth 128⟩

/-- An item starts on a pipeline: the key comes in three shares and is re-randomised (R162). -/
def pipeLoad (s : State) (p : Nat) (k : Shares 256) : State :=
  { s with
    free := s.free + 4
    ce := { s.ce with pipes := tset PipeReg.zero s.ce.pipes p ⟨shareAgain s.free k, interShares (s.free + 2)⟩ } }

/-! ## Noise sources and the DRBG (R163 to R165) -/

def ceFault (s : State) (bit : Nat) : State := { s with ce := { s.ce with fault := s.ce.fault ||| BitVec.ofNat 32 (2 ^ bit) } }

/-- Generate requests between two reseeds. -/
def drbgLimit (s : State) : Nat := 2 ^ regFld s 0x300 16 5

/-- With the requests of a reseed interval made and no source passing, the DRBG refuses (R165). -/
def drbgJudge (s : State) : State :=
  if drbgLimit s ≤ s.ce.reqs ∧ !(s.ce.entA || s.ce.entB) then { s with ce := { s.ce with exhausted := true, drbgOk := false } } else s

/-- Whether the DRBG serves a generate request; what asks for one waits meanwhile. -/
def drbgOpen (s : State) : Bool := !s.ce.exhausted && decide (s.ce.reqs < drbgLimit s)

/-- One generate request of the DRBG (R164, R165). -/
def drbgUse (s : State) : State := drbgJudge (cnt { s with ce := { s.ce with reqs := s.ce.reqs + 1 } } 272)

/-! ## Assignment (R153, R154, R180, R181) -/

def pipeOn (s : State) (p : Nat) : Bool := fnOn s (0x0300 + p)

/-- Whether every pipeline but one is ON (01 R535). -/
def othersOn (s : State) (t : Nat) : Bool := (List.range 6).all fun p => p == t || pipeOn s p

/-- The highest-numbered general pipeline that is ON. -/
def highestOn (s : State) : Option Nat := [3, 2, 1, 0].find? (pipeOn s)

/-- The pipeline serving as class-0 lane, while there is one (R33, R180). -/
def tc0Lane (s : State) : Option Nat :=
  if !wbit (regGet s 0x44) 0 then none else if pipeOn s 4 then some 4 else highestOn s

/-- General pipelines in service. -/
def generalPipes (s : State) : List Nat :=
  (List.range 5).filter fun p => pipeOn s p && tc0Lane s != some p && (p != 4 || !wbit (regGet s 0x44) 0)

/-- The pipeline that unwraps and wraps (R181). -/
def unwrapPipe (s : State) : Option Nat :=
  if pipeOn s 5 then some 5
  else if pipeOn s 3 && tc0Lane s != some 3 then some 3
  else if pipeOn s 2 then some 2 else none

def pool (s : State) (p : Nat) : Nat := lget 0 s.ce.pools p

/-- Of a list of pipelines, the one with the most mask sets, the lowest-numbered among equals (R154). -/
def fullest (s : State) : List Nat → Option Nat
  | [] => none
  | p :: t =>
    match fullest s t with
    | none => some p
    | some q => if pool s p ≥ pool s q then some p else some q

/-- The pipeline an item of a class goes to. -/
def classPipe (s : State) (cls : Nat) : Option Nat :=
  if cls = 0 ∧ (tc0Lane s).isSome then tc0Lane s else fullest s (generalPipes s)

/-! ## Mask sets (R156, R164) -/

def poolDepth (p : Nat) : Nat := if p < 4 then 64 else if p = 4 then 512 else 0

def setPool (s : State) (p n : Nat) : State := { s with ce := { s.ce with pools := lset s.ce.pools p n } }
def setSets (s : State) (p n : Nat) : State := { s with ce := { s.ce with sets := lset s.ce.sets p n } }

/-- An expander makes `n` sets as an item streams, reseeded on the way where its 65,536th falls among them. None: it waits
for the DRBG (R164, R165). -/
def maskDraw (s : State) (p n : Nat) : Option State :=
  let made := lget 0 s.ce.sets p + n
  if made ≤ 65536 then some (setSets s p made)
  else if drbgOpen s then some (setSets (drbgUse s) p (made - 65536)) else none

/-- Whether a pipeline's pool lets an item begin and stream (R156). -/
def poolReady (s : State) (p b : Nat) : Bool := decide (min b (poolDepth p) ≤ pool s p)

/-- An item's blocks pass a pipeline, one mask set each: those of the pool, and those its expander makes meanwhile. None:
a block waits in its stage for a set. -/
def blocksPass (s : State) (p b : Nat) : Option State :=
  if !poolReady s p b then none
  else (maskDraw s p (b - pool s p)).map fun s => cntAdd (setPool s p (pool s p - b)) (256 + p) b 0xFFFFFFFF

/-- MASK_SET_REFILL: one set per 32 st, while the expander's seed lasts (R156, R164). -/
def maskRefill (s : State) (p : Nat) : State :=
  if poolDepth p ≤ pool s p ∨ 65536 ≤ lget 0 s.ce.sets p then s
  else setSets (setPool s p (pool s p + 1)) p (lget 0 s.ce.sets p + 1)

/-- MASK_EXPANDER_RESEED: after 65,536 sets, from the DRBG (R164). -/
def maskReseed (s : State) (p : Nat) : State :=
  if lget 0 s.ce.sets p < 65536 ∨ !drbgOpen s then s else setSets (drbgUse s) p 0

/-! ## A fault flagged in a pipeline (R177, R178) -/

/-- Start a disable of a function by a fault: it reads STOPPING until it has drained. -/
def faultDisable (s : State) (id : Nat) : State :=
  let f := fnGet s id
  let s := if f.st == .on then fnPut s id { f with st := .stopping } else s
  logEvent 0x0103 id s

/-- PIPE_FAULT, the retry count, the disable. -/
def pipeFault (s : State) (p : Nat) : State :=
  let s := ceFault s p
  let s := cnt { s with ce := { s.ce with faultCnt := satInc s.ce.faultCnt } } 268
  faultDisable s (0x0300 + p)

/-- Whether a pipeline's stages hold a fault flag. -/
def stageFlag (s : State) (p : Nat) : Bool := tget false s.ce.stage p
def stageSet (s : State) (p : Nat) (v : Bool) : State := { s with ce := { s.ce with stage := tset false s.ce.stage p v } }

/-- An item of `b` blocks under a key runs from its start to its end on the pipeline `pick` names, and again on another
where it was flagged; the pipeline it ended on. None: it waits, for a pipeline or for mask sets. -/
def pipeRun (pick : State → Option Nat) (k : Shares 256) (b : Nat) : Nat → State → State × Option Nat
  | 0, s => (s, none)
  | n + 1, s =>
    match pick s with
    | none => (s, none)
    | some p =>
      match blocksPass s p b with
      | none => (cntAdd s (262 + p) b 0xFFFFFFFF, none)
      | some s' =>
        let s' := pipeLoad s' p k
        if stageFlag s' p then pipeRun pick k b n (pipeFault (stageSet s' p false) p) else (s', some p)

/-- A seal or the protection of a downlink frame: a general pipeline, or the class-0 lane for TC0 commands (R153). -/
def cipherRun (s : State) (cls : Nat) (k : Shares 256) (b : Nat) : State × Option Nat :=
  pipeRun (fun s => classPipe s cls) k b 6 s

/-- One unwrap or wrap: 42 dependent AES-256 operations (R159, R181). -/
def wrapRun (s : State) (kek : BitVec 256) : State × Option Nat :=
  pipeRun unwrapPipe (shareOut kek (Config.drbg s.free) (Config.drbg (s.free + 1))) 42 3 { s with free := s.free + 2 }

def blocks16 (n : Nat) : Nat := (n + 15) / 16

end Sys2Proof.Machine
end

