-- ==== Sys2Proof/Machine/Keys.lean ====
section
/-!
DEFINITION. Keys (06): handles, the root store and the configuration key section's copies of it, the key directory,
wrapped blobs, the kennel, and the five key opcodes.
-/
namespace Sys2Proof.Machine
open Sys2Proof

/-! ## Handles (R189) -/

/-- What a key opcode names. -/
inductive KTgt where
  | ep (eid : Nat)
  | dir (h : Nat)
  | root (n : Nat)
  | badHandle
  | badEid
  deriving DecidableEq, Repr

/-- Index bits of a handle. -/
def hIndex (h : Nat) : Nat := h % 2 ^ 28

/-- A handle of the directory: a domain, a head-end session or a signing key. -/
def hIsDir (h : Nat) : Bool :=
  (hLevel h == 3 && decide (hIndex h < 4096)) ||
  (hLevel h == 4 && ((hIndex h / 2 ^ 26 == 1 && decide (hIndex h % 2 ^ 26 < 256)) ||
                     (hIndex h / 2 ^ 26 == 2 && decide (hIndex h % 2 ^ 26 < 16))))

def hIsSession (h : Nat) : Bool := hLevel h == 4 && hIndex h / 2 ^ 26 == 1
def hIsSign (h : Nat) : Bool := hLevel h == 4 && hIndex h / 2 ^ 26 == 2
def hIsRoot (h : Nat) : Bool := hLevel h == 2 && decide (hIndex h < 16)

/-- The handle of an endpoint's key (R189). -/
def epHandle (eid : Nat) : Nat := 0x40000000 + eidHome eid * 2 ^ 23 + eidIndex eid

/-- What a key opcode's HANDLE and EID name; an endpoint key is named by its EID alone. -/
def keyTgt (raw : BitVec 512) : KTgt :=
  let h := dByte raw 24 4
  if h = 0 then .ep (dEid raw)
  else if hIsRoot h then (if dEid raw = 0 then .root (hIndex h) else .badEid)
  else if hIsDir h then (if dEid raw = 0 then .dir h else .badEid)
  else .badHandle

/-- The lowest non-zero byte of a descriptor field. -/
def firstSet (raw : BitVec 512) (lo : Nat) : Nat → Nat
  | 0 => lo
  | n + 1 => if dByte raw lo 1 = 0 then firstSet raw (lo + 1) n else lo

/-! ## Root store and configuration key section (R193, R195, R485) -/

def rootGet (s : State) (n : Nat) : RootEnt := tget RootEnt.none s.keys.roots n

/-- ROOT_LOST: a root entry that is neither available nor EMPTY. -/
def rootsLost (t : Tab RootEnt) : Bool := t.any fun p => !p.2.empty && p.2.key.isNone

/-- The selected configuration copy (R482). -/
def cfgSelected (s : State) : CfgCopy := if s.upd.selected then s.upd.copyB else s.upd.copyA

/-- A change of the key section writes a new copy into the slot that does not hold the selected copy; it becomes the
selected copy (R485). -/
def cfgKeySection (s : State) (roots : Tab RootEnt) : State :=
  let c := { cfgSelected s with ok := true, seq := (cfgSelected s).seq + 1,
                                roots := roots.map fun p => (p.1, { p.2 with key := none }) }
  if s.upd.selected then { s with upd := { s.upd with copyA := c, selected := false } }
  else { s with upd := { s.upd with copyB := c, selected := true } }

/-- Store a root entry: root store and key section. -/
def rootPut (s : State) (n : Nat) (r : RootEnt) : State :=
  let roots := tset RootEnt.none s.keys.roots n r
  cfgKeySection { s with keys := { s.keys with roots := roots, rootLost := rootsLost roots } } roots

/-- Root changes run in IDLE and RECEIVING only (R485, R488). -/
def rootChangeOpen (s : State) : Bool := s.upd.state == 0 || s.upd.state == 1

/-- UPDATE_STATE_ERROR with STATE in byte 16. -/
def updStateError (s : State) (f : Flight) : State := reject s f stUpdState (BitVec.ofNat 128 s.upd.state)

/-! ## Blobs (R196 to R199) -/

/-- The types a place takes and the usage bits it needs (R198). -/
def placeNeeds (h : Nat) : List Nat × Nat :=
  if hLevel h = 2 ∨ hLevel h = 3 then ([2], 4)
  else if hIsSession h then ([1, 2], 8)
  else if hIsSign h then ([4, 5], 16)
  else ([1, 2, 3], 3)

/-- The first failing check of R198, counting from 1; none: the blob is accepted. -/
def blobCheck (b : Option Blob) (kek : BitVec 256) (h parent : Nat) (gen parentGen : BitVec 8) : Option Nat :=
  match b with
  | none => some 1
  | some b =>
    let need := placeNeeds h
    if !b.intact || b.kek != kek then some 1
    else if b.handle.toNat ≠ h ∨ b.parent.toNat ≠ parent ∨ b.gen ≠ gen then some 2
    else if b.parentGen ≠ parentGen then some 3
    else if b.typ.toNat ∉ need.1 then some 4
    else if b.usage.toNat &&& need.2 ≠ need.2 then some 5
    else if b.reserved ≠ 0 ∨ b.usage.toNat ≥ 64 then some 6
    else none

def blobKcv (b : Blob) : Word := keyKcv b.typ b.material b.handle

/-- A blob unusable under R198: the Firn log event. -/
def logBlob (s : State) (h chk : Nat) : State := logEvent 0x0302 (h + 2 ^ 32 * chk) s

/-! ## Directory and wrapping keys -/

def dirGet (s : State) (h : Nat) : DirEnt := tget DirEnt.empty s.keys.dir h
def dirPut (s : State) (h : Nat) (d : DirEnt) : State :=
  { s with keys := { s.keys with dir := tset DirEnt.empty s.keys.dir h d } }

/-- A key as a wrapping parent, or why it is none. -/
inductive PKey where
  | ok (key : BitVec 256) (gen : BitVec 8)
  | revoked
  | empty
  deriving DecidableEq, Repr

def rootUse (s : State) (n : Nat) : PKey :=
  let r := rootGet s n
  if r.empty then .empty
  else if r.revoked then .revoked
  else match r.key with | some k => .ok k r.gen | none => .revoked

/-- A change of a key named by a handle takes the handle's next WRITE_SEQ and is appended and mirrored under it (R215). -/
def keyAppend (s : State) (h : Nat) (e : JEnt) : State :=
  let w := tget 0 s.keys.seqs h + 1
  appendState { s with keys := { s.keys with seqs := tset 0 s.keys.seqs h w } } w e

/-- Store a directory entry: its state entry, then the directory. -/
def dirStore (s : State) (h : Nat) (d : DirEnt) : State := dirPut (keyAppend s h (.dir h d)) h d

/-- Store a root entry: its state entry, then the root store and the key section. -/
def rootStore (s : State) (n : Nat) (r : RootEnt) : State := rootPut (keyAppend s (0x20000000 + n) (.root n r)) n r

/-- A directory key, judged with its utility root; one whose blob is unusable under R198 serves nothing (R211, R219). -/
def entUse (s : State) (h : Nat) (d : DirEnt) : PKey :=
  if d.st = 0 then .empty
  else if d.st = 2 then .revoked
  else match rootUse s (hIndex d.parent.toNat), d.cur with
    | .ok kek pg, some b => if blobCheck (some b) kek h d.parent.toNat d.curGen pg = none then .ok b.material d.curGen else .revoked
    | _, _ => .revoked
def dirUse (s : State) (h : Nat) : PKey := entUse s h (dirGet s h)

/-- The parent a key named by an opcode hangs under, from the PARENT field; a wrong level counts as EMPTY (R211). -/
def parentUse (s : State) (t : KTgt) (p : Nat) : PKey :=
  match t with
  | .ep _ => if hLevel p = 3 ∧ hIndex p < 4096 then dirUse s p else .empty
  | _ => if hIsRoot p then rootUse s (hIndex p) else .empty

/-- Endpoint records that name a domain key and hold a blob, or directory entries that name a root (06, Where blobs
live): CHILD_COUNT. -/
def childCount (s : State) (h : Nat) : Nat :=
  if hLevel h = 2 then (s.keys.dir.filter fun p => p.2.st != 0 && p.2.parent.toNat == h).length
  else if hLevel h = 3 then
    (s.recs.tab.filter fun p => fld p.2.keyCtl 16 12 == hIndex h && (p.2.keyCur.isSome || p.2.keyPend.isSome)).length
  else 0

/-! ## The kennel (R202 to R208) -/

def slotGet (s : State) (i : Nat) : Slot := tget Slot.free s.keys.slots i
def slotPut (s : State) (i : Nat) (x : Slot) : State :=
  { s with keys := { s.keys with slots := tset Slot.free s.keys.slots i x } }

/-- The first key a rising table does not list, from `i` on. -/
def firstGap {α : Type} : Tab α → Nat → Nat
  | [], i => i
  | (k, _) :: t, i => if k = i then firstGap t (i + 1) else i

/-- A slot that serves a handle and generation in a state. -/
def slotFind (s : State) (h : Nat) (gen : BitVec 8) (st : Nat) : Option Nat :=
  (s.keys.slots.find? fun p => p.2.st == st && p.2.handle == h && p.2.gen == gen).map (·.1)

def evictable (x : Slot) : Bool := x.st == 2 && !x.pin && !x.shadow && x.refs == 0

/-- The least recently used evictable slot (R204). -/
def victim (t : Tab Slot) : Option Nat :=
  (t.foldl (fun (best : Option (Nat × Nat)) p =>
    if evictable p.2 then
      match best with
      | none => some (p.1, p.2.lru)
      | some (_, l) => if p.2.lru < l then some (p.1, p.2.lru) else best
    else best) none).map (·.1)

/-- A slot to load a key into: a FREE one, or the victim zeroed at once (R202, R204). -/
def slotAlloc (s : State) : Option (Nat × State) :=
  let i := firstGap s.keys.slots 0
  if i < 8192 then some (i, s)
  else (victim s.keys.slots).map fun v => (v, slotPut s v Slot.free)

/-- Own and shadow pinned slots (R207). -/
def pinnedCount (s : State) : Nat := (s.keys.slots.filter fun p => p.2.pin || p.2.shadow).length

/-- Slots pinned of this chip's own keys: what its shadow pins for it while mirroring is on (R208). -/
def ownPins (s : State) : Nat := (s.keys.slots.filter fun p => p.2.pin).length

/-- Whether `new` more pins take the chip over 2,048, or its shadow while mirroring is on (R207). The shadow's own count
comes by no frame: a free value each time it is asked (log entry 162). -/
def pinsExceed (s : State) (new : Nat) : Bool × State :=
  if pinnedCount s + new > 2048 then (true, s)
  else if s.harn.outState = 2 then
    let (n, s) := takeFree s
    (decide (Config.freeNat n + ownPins s + new > 2048), s)
  else (false, s)

def useStamp (s : State) : State := { s with keys := { s.keys with useNext := s.keys.useNext + 1 } }

/-- A READY slot holding a key, in fresh shares. -/
def slotLoad (s : State) (i h : Nat) (b : Blob) (pin shadow : Bool) : State :=
  let s := cnt s 238
  let n := s.free
  useStamp (slotPut { s with free := n + 2 } i
    { st := 2, handle := h, gen := b.gen, parent := b.parent.toNat,
      sh := shareOut b.material (Config.drbg n) (Config.drbg (n + 1)),
      typ := b.typ, usage := b.usage, refs := 0, pin := pin, shadow := shadow, lru := s.keys.useNext })

/-- A slot's key handed to a pipeline for one item: its shares are re-randomised (R162, R206). The reference taken at the
lookup is back once the item has completed, within the same step (R203). -/
def slotHand (s : State) (i : Nat) : State × Shares 256 :=
  let x := slotGet s i
  let k := shareAgain s.free x.sh
  (useStamp (slotPut { s with free := s.free + 2 } i { x with sh := k, lru := s.keys.useNext }), k)

/-- Change every listed slot. -/
def slotMap (s : State) (g : Slot → Slot) : State :=
  { s with keys := { s.keys with slots := s.keys.slots.map fun p => (p.1, g p.2) } }

/-- A slot that leaves service: RETIRING while work holds references on it, else ZEROIZING (R202). -/
def retiredSlot (x : Slot) : Slot := { x with st := if x.refs = 0 then 4 else 3, pin := false, shadow := false }

/-- Slots that leave service: READY or LOADING ones a test picks, their pins cleared (R220). -/
def slotRetire (s : State) (g : Slot → Bool) : State :=
  slotMap s fun x => if (x.st == 2 || x.st == 1) && g x then retiredSlot x else x

def retireCount (s : State) (g : Slot → Bool) : Nat :=
  (s.keys.slots.filter fun p => (p.2.st == 2 || p.2.st == 1) && g p.2).length

/-- Whether any slot still holds a handle (of a generation, where one is given). -/
def slotHolds (s : State) (h : Nat) (gens : List (BitVec 8)) : Bool :=
  s.keys.slots.any fun p => p.2.handle == h && p.2.st != 0 && gens.contains p.2.gen

/-- Whether a slot holds the key of a handle or a descendant of it (R213). -/
def slotUnder (s : State) (h : Nat) (x : Slot) : Bool :=
  x.handle == h || x.parent == h || (dirGet s x.parent).parent.toNat == h && (dirGet s x.parent).st != 0

/-- A key the kennel holds is used, and pinned where it is to be. -/
def slotTouch (s : State) (i : Nat) (pin : Bool) : State :=
  useStamp (slotPut s i { slotGet s i with lru := s.keys.useNext, pin := (slotGet s i).pin || pin })

/-- Load a blob under its parent's key: one unwrap, the checks of R198, a slot. An unusable blob is logged and loads
nothing. None: no pipeline that unwraps, or no slot. -/
def blobLoad (s : State) (h : Nat) (b : Blob) (kek : BitVec 256) (gen pg : BitVec 8) (pin : Bool) : Option State :=
  match wrapRun s kek with
  | (s, some _) =>
    match blobCheck (some b) kek h b.parent.toNat gen pg with
    | some c => some (logBlob s h c)
    | none => (slotAlloc s).map fun p => slotLoad p.2 p.1 h b pin false
  | (_, none) => none

/-- Have a directory key in the kennel: hit, or an unwrap and a slot; a REVOKED or EMPTY one loads nothing. None: it waits
(R205). -/
def ensureDir (s : State) (h : Nat) (pin : Bool) : Option State :=
  let d := dirGet s h
  if d.st ≠ 1 then some s
  else match slotFind s h d.curGen 2, d.cur, rootUse s (hIndex d.parent.toNat) with
  | some i, _, _ => some (slotTouch s i pin)
  | none, some b, .ok kek pg => blobLoad s h b kek d.curGen pg pin
  | none, _, _ => some s

/-- Have an endpoint key in the kennel, its domain key first. -/
def ensureEp (s : State) (eid : Nat) (b : Option Blob) (pin : Bool) : Option State :=
  match b with
  | none => some s
  | some b =>
    let h := epHandle eid
    match slotFind s h b.gen 2 with
    | some i => some (slotTouch s i pin)
    | none =>
      match ensureDir s b.parent.toNat false, dirUse s b.parent.toNat with
      | some s, .ok kek pg => blobLoad s h b kek b.gen pg pin
      | some s, _ => some s
      | none, _ => none

/-! ## KEY_CTL (R200) -/

def kcCur (r : EpRec) : BitVec 8 := BitVec.ofNat 8 (fld r.keyCtl 0 8)
def kcPend (r : EpRec) : BitVec 8 := BitVec.ofNat 8 (fld r.keyCtl 8 8)
def kcDomain (r : EpRec) : Nat := fld r.keyCtl 16 12
def kcCurValid (r : EpRec) : Bool := wbit r.keyCtl 28
def kcPendValid (r : EpRec) : Bool := wbit r.keyCtl 29
def kcRevoked (r : EpRec) : Bool := wbit r.keyCtl 30
def kcSet (r : EpRec) (lo len v : Nat) : EpRec := { r with keyCtl := setFld r.keyCtl lo len v }

/-- The GEN a pending blob must carry (R216). -/
def nextGen (r : EpRec) : BitVec 8 :=
  if kcPendValid r && decide ((kcCur r).toNat < (kcPend r).toNat) then kcPend r + 1 else kcCur r + 1

/-- Promotion of the pending key (R132, R576): KEY_PEND moves to KEY_CUR; PEND_GEN keeps its value. -/
def promoted (r : EpRec) : EpRec :=
  let r := { r with keyCur := r.keyPend, keyPend := none }
  kcSet (kcSet (kcSet r 0 8 (kcPend r).toNat) 28 1 1) 29 1 0

/-- The slots of an endpoint's key at one generation retire. -/
def retireEp (s : State) (eid : Nat) (gen : BitVec 8) : State :=
  slotRetire s fun x => x.handle == epHandle eid && x.gen == gen

/-! ## Outbound keys (R219) -/

inductive OutKey where
  | ok (b : Blob)
  | status (st : Nat)
  deriving DecidableEq, Repr

/-- A blob of an endpoint as an outbound key: none in its place, or one unusable under R198, serves nothing. -/
def outBlob (eid : Nat) (b : Option Blob) (kek : BitVec 256) (parent : Nat) (gen pg : BitVec 8) : OutKey :=
  match b with
  | none => .status stNotVerified
  | some b => if blobCheck (some b) kek (epHandle eid) parent gen pg = none then .ok b else .status stRevoked

/-- The key an outbound frame for an endpoint is protected under. -/
def outKey (s : State) (eid : Nat) (tc0 : Bool) : OutKey :=
  let r := recGet s eid
  let dom := 0x30000000 + kcDomain r
  if kcRevoked r then .status stRevoked
  else if kcCurValid r || kcPendValid r then
    match dirUse s dom with
    | .ok kek pg =>
      if kcCurValid r then outBlob eid r.keyCur kek dom (kcCur r) pg
      else if tc0 then .status stNotVerified
      else outBlob eid r.keyPend kek dom (kcPend r) pg
    | _ => .status stRevoked
  else .status stNotVerified

/-! ## The key-load registers (R193, R194) -/

/-- The 32 key bytes, byte 4i + j in bits [8j+7:8j] of KL_DATAi; byte 0 is the first byte AES takes and stands
lowest. -/
def klMaterial (s : State) : BitVec 256 :=
  BitVec.ofNat 256 (s.keys.klData.foldr (fun w n => w.toNat + 2 ^ 32 * n) 0)

/-! ## OP_KEY_INSTALL (R210, R211, R216 to R218) -/

def kiSource (raw : BitVec 512) : Nat := dByte raw 28 1
def kiGen (raw : BitVec 512) : BitVec 8 := BitVec.ofNat 8 (dByte raw 29 1)
def kiType (raw : BitVec 512) : Nat := dByte raw 30 1
def kiKcvPresent (raw : BitVec 512) : Bool := dByte raw 31 1 % 2 == 1
def kiParent (raw : BitVec 512) : Nat := dByte raw 32 4
def kiKcv (raw : BitVec 512) : Word := BitVec.ofNat 32 (dByte raw 36 4)
def kiUsage (raw : BitVec 512) : Nat := dByte raw 40 2

/-- The handle a key opcode's target has. -/
def tgtHandle (t : KTgt) : Nat :=
  match t with
  | .ep e => epHandle e
  | .dir h => h
  | .root n => 0x20000000 + n
  | _ => 0

/-- Whether a SOURCE suits the place (R210). -/
def sourceSuits (src : Nat) (t : KTgt) : Bool :=
  match src, t with
  | 0, .ep _ => true
  | 0, .dir _ => true
  | 1, .root _ => true
  | 2, .dir h => hIsSession h || hIsSign h
  | 3, .ep _ => true
  | _, _ => false

/-- The first field that disagrees with SOURCE, with its reason (R11, R210). -/
def installBad (s : State) (raw : BitVec 512) (t : KTgt) : Option (Nat × Nat) :=
  let src := kiSource raw
  let usesBlob := src == 0 || src == 3
  if !sourceSuits src t then some (rsParam, 28)
  else if usesBlob && kiType raw != 0 then some (rsReserved, 30)
  else if usesBlob && kiUsage raw != 0 then some (rsReserved, firstSet raw 40 2)
  else if !usesBlob && kiGen raw != 0 then some (rsReserved, 29)
  else if !kiKcvPresent raw && kiKcv raw != 0 then some (rsReserved, firstSet raw 36 4)
  else if src == 1 && dBufAddr raw != 0 then some (rsParam, 8)
  else if src == 1 && dBufLen raw != 0 then some (rsParam, 16)
  else if src != 1 && dBufAddr raw == 0 then some (rsParam, 8)
  else if usesBlob && dBufLen raw != 64 then some (rsParam, 16)
  else if src == 1 && !wbit (regGet s 0x400) 0 then some (rsParam, 28)
  else if !usesBlob && !((placeNeeds (tgtHandle t)).1.contains (kiType raw)) then some (rsParam, 30)
  else if src == 2 && dBufLen raw != (if kiType raw == 5 then 96 else 64) then some (rsParam, 16)
  else if src == 1 && kiParent raw != 0 then some (rsParam, 32)
  else if !usesBlob && (kiUsage raw &&& (placeNeeds (tgtHandle t)).2 != (placeNeeds (tgtHandle t)).2 ||
                        decide (kiUsage raw ≥ 64)) then some (rsParam, 40)
  else none

/-- Complete an install that failed: KL_DATA is zeroed where SOURCE is 1 (R193). -/
def installFail (s : State) (f : Flight) (st : Nat) (res : BitVec 128) : State := reject (klFail s f) f st res

def installOk (s : State) (f : Flight) (kcv : Word) : State := completeOk s f 4 (result4 kcv.toNat 0 0 0)

/-- A descriptor that needs a slot, or a pipeline that unwraps, waits for it (R205). -/
def slotWait (s : State) (f : Flight) : State :=
  match f.stage with
  | .wait _ _ _ => s
  | _ => flightPut s { f with stage := .wait s.tcxo 0 0 }

/-- Source 1: a utility root from the key-load registers (R193, R217, R578). -/
def installRoot (s : State) (f : Flight) (n : Nat) : State :=
  let r := rootGet s n
  let mat := klMaterial s
  let kcv := keyKcv 2 mat (BitVec.ofNat 32 (0x20000000 + n))
  let fresh := r.empty
  let ok := if fresh then !kiKcvPresent f.raw || kcv == kiKcv f.raw
            else kcv == r.kcv || childCount s (0x20000000 + n) == 0
  if !rootChangeOpen s then updStateError (klZero s) f
  else if r.revoked then installFail s f stRevoked 0
  else if !ok then installFail s f stNotVerified 0
  else match wrapRun s s.keys.srCur with
  | (_, none) => slotWait s f
  | (s, some _) =>
    let gen : BitVec 8 := if fresh then 1 else if kcv == r.kcv then r.gen else r.gen + 1
    let b : Blob := { kek := s.keys.srCur, intact := true, material := mat, handle := BitVec.ofNat 32 (0x20000000 + n),
                      parent := 0x10000000, gen := gen, typ := 2, usage := BitVec.ofNat 16 (kiUsage f.raw),
                      parentGen := 0, reserved := 0 }
    let e : RootEnt := { r with cur := some b, revoked := false, empty := false, gen := gen, kcv := kcv, key := some mat }
    installOk (rootStore (klZero s) n e) f kcv

/-- Store a directory key that passed its checks (steps 3 and 4). -/
def installDirKey (s : State) (f : Flight) (h : Nat) (b : Blob) : State :=
  let d := dirGet s h
  let e : DirEnt := { d with cur := some b, pend := none, parent := b.parent, curGen := b.gen, st := 1 }
  let s := slotRetire (dirStore s h e) fun x => x.handle == h
  let s := if d.pinned then (ensureDir s h true).getD s else s
  installOk s f (blobKcv b)

/-- Whether a new directory key is verified (R217): a session or signing key by EXPECT_KCV, which must be present, a
generated one too; a domain key by EXPECT_KCV, by the current key's KCV or by having no children. -/
def dirVerified (s : State) (raw : BitVec 512) (h : Nat) (b : Blob) : Bool :=
  let d := dirGet s h
  let kcvOk := blobKcv b == kiKcv raw
  if hLevel h = 3 then
    if d.st = 0 then !kiKcvPresent raw || kcvOk
    else (match d.cur with | some c => blobKcv b == blobKcv c | none => false) || childCount s h == 0
  else kiKcvPresent raw && kcvOk

/-- The blob of a key generated at a directory handle from the DRBG value `n` (R210, R211). -/
def genBlob (s : State) (raw : BitVec 512) (h n : Nat) (kek : BitVec 256) (pg : BitVec 8) : Blob :=
  let mat := Config.drbg n
  { kek := kek, intact := true,
    material := if kiType raw = 1 then mat &&& BitVec.ofNat 256 (2 ^ 128 - 1) else mat,
    handle := BitVec.ofNat 32 h, parent := BitVec.ofNat 32 (kiParent raw), gen := (dirGet s h).curGen + 1,
    typ := BitVec.ofNat 8 (kiType raw), usage := BitVec.ofNat 16 (kiUsage raw), parentGen := pg, reserved := 0 }

/-- Sources 0 and 2 at a directory handle. -/
def installDir (s : State) (f : Flight) (h : Nat) (blob : Option Blob) : State :=
  let d := dirGet s h
  if d.st = 2 then installFail s f stRevoked 0
  else match parentUse s (.dir h) (kiParent f.raw) with
  | .empty => badParam s f 32
  | .revoked => installFail s f stRevoked 0
  | .ok kek pg =>
    if kiSource f.raw = 2 then
      match wrapRun s kek with
      | (_, none) => slotWait s f
      | (s', some _) =>
      if !drbgOpen s then slotWait s f
      else
      let (n, s) := takeFree (drbgUse s')
      let b := genBlob s f.raw h n kek pg
      if !dirVerified s f.raw h b then installFail s f stNotVerified 0
      else
        let out := if hIsSign h then Config.pubPoint b.typ (privScalar b.typ b.material b.handle) else blobBytes b
        installDirKey (writeBuf s f out) f h b
    else match wrapRun s kek with
    | (_, none) => slotWait s f
    | (s, some _) =>
      match blobCheck blob kek h (kiParent f.raw) (kiGen f.raw) pg, blob with
      | some c, _ => reject (logBlob s h c) f stBad (badResult rsParam 8 c)
      | none, some b =>
        if dirVerified s f.raw h b then installDirKey s f h b else installFail s f stNotVerified 0
      | none, none => s

/-- Source 0 at an endpoint: a new pending key, promoted at once where a KCV verifies it. -/
def installEp (s : State) (f : Flight) (eid : Nat) (blob : Option Blob) (kek : BitVec 256) (pg : BitVec 8) : State :=
  let r := recGet s eid
  match wrapRun s kek with
  | (_, none) => slotWait s f
  | (s, some _) =>
  match blobCheck blob kek (epHandle eid) (kiParent f.raw) (kiGen f.raw) pg, blob with
  | some c, _ => reject (logBlob s (epHandle eid) c) f stBad (badResult rsParam 8 c)
  | none, none => s
  | none, some b =>
    if kiKcvPresent f.raw && blobKcv b != kiKcv f.raw then installFail s f stNotVerified 0
    else
    let old := if kcPendValid r then retireEp s eid (kcPend r) else s
    match if (pinGet s eid).on then ensureEp old eid (some b) true else ensureDir old (kiParent f.raw) false with
    | none => slotWait s f
    | some s =>
      let r' := kcSet (kcSet (kcSet { r with keyPend := some b } 8 8 (kiGen f.raw).toNat) 16 12 (hIndex (kiParent f.raw)))
                  29 1 1
      let r' := if kiKcvPresent f.raw then promoted r' else r'
      let s := recChange s eid r'
      let s := if kiKcvPresent f.raw then retireEp s eid (kcCur r) else s
      installOk s f (blobKcv b)

/-- Source 3: the current key under another domain (R218). A slot that work refers to is not rewritten: it retires and
the key is loaded again (R203; log entry 155). -/
def installRehome (s : State) (f : Flight) (eid : Nat) (blob : Option Blob) (kek : BitVec 256) (pg : BitVec 8) : State :=
  let r := recGet s eid
  match wrapRun s kek with
  | (_, none) => slotWait s f
  | (s, some _) =>
  match blob, r.keyCur with
  | some b, some c =>
    if !b.intact || b.kek != kek then installFail (logBlob s (epHandle eid) 1) f stNotVerified 0
    else if b.gen != kcCur r || b.material != c.material || !kcCurValid r then installFail s f stNotVerified 0
    else match blobCheck blob kek (epHandle eid) (kiParent f.raw) (kiGen f.raw) pg with
    | some k => reject (logBlob s (epHandle eid) k) f stBad (badResult rsParam 8 k)
    | none =>
      let r' := kcSet (kcSet { r with keyCur := some b, keyPend := none } 16 12 (hIndex (kiParent f.raw))) 29 1 0
      let s := recChange s eid r'
      let s := if kcPendValid r then retireEp s eid (kcPend r) else s
      let s := slotMap s fun x =>
        if x.handle == epHandle eid && x.gen == b.gen && x.st == 2 then
          (if x.refs = 0 then { x with parent := kiParent f.raw } else retiredSlot x)
        else x
      let s := if (pinGet s eid).on then (ensureEp s eid (some b) true).getD s else s
      installOk s f (blobKcv b)
  | _, _ => installFail s f stNotVerified 0

/-- Whether the pin of a pinned endpoint's new pending key, in the place of the one it replaces, exceeds a limit (R208). -/
def installPins (s : State) (f : Flight) (eid : Nat) (r : EpRec) : Bool × State :=
  if (pinGet s eid).on && kiSource f.raw == 0 then
    pinsExceed s (1 - (if kcPendValid r then (slotFind s (epHandle eid) (kcPend r) 2).toList.length else 0))
  else (false, s)

/-- Step 1 at an endpoint, then the source's own steps. -/
def installAtEp (s : State) (f : Flight) (eid : Nat) (blob : Option Blob) : State :=
  let r := recGet s eid
  let holds := r.keyCur.isSome || r.keyPend.isSome
  if kcRevoked r then installFail s f stRevoked 0
  else if kiSource f.raw = 0 ∧ kiGen f.raw ≠ nextGen r then badParam s f 29
  else if kiSource f.raw = 0 ∧ kiGen f.raw = kcCur r then badParam s f 29
  else if kiSource f.raw = 0 ∧ holds ∧ kiParent f.raw ≠ 0x30000000 + kcDomain r then badParam s f 32
  else match installPins s f eid r with
  | (true, s) => reject s f stSlotBusy 0
  | (false, s) =>
  match parentUse s (.ep eid) (kiParent f.raw) with
  | .empty => badParam s f 32
  | .revoked => installFail s f stRevoked 0
  | .ok kek pg => if kiSource f.raw = 0 then installEp s f eid blob kek pg else installRehome s f eid blob kek pg

/-- Whether an earlier admitted key opcode that names the same endpoint or handle has still to end (R215). -/
def keyBehind (s : State) (f : Flight) : Bool :=
  s.host.flights.any fun g => decide (0x20 ≤ dOpcode g.raw ∧ dOpcode g.raw ≤ 0x24) && !g.ended && !g.admWait && !g.inPush &&
    keyTgt g.raw == keyTgt f.raw && (decide (g.adm < f.adm) || (g.adm == f.adm && decide (g.uid < f.uid)))

/-- Run a key opcode on what it names, in its turn; a bad handle or a stray EID completes. -/
def withKey (s : State) (uid op : Nat) (g : Flight → KTgt → State) : State :=
  withDesc s uid op fun f =>
    match keyTgt f.raw with
    | .badHandle => badParam (klFail s f) f 24
    | .badEid => bad (klFail s f) f rsReserved (firstSet f.raw 4 4)
    | t => if keyBehind s f then s else g f t

/-- OP_KEY_INSTALL. -/
def keyInstall (s : State) (uid : Nat) (blob : Option Blob) : State :=
  withKey s uid 0x20 fun f t =>
    match installBad s f.raw t with
    | some (r, o) => bad (klFail s f) f r o
    | none =>
      match t with
      | .ep e => installAtEp s f e blob
      | .dir h => installDir s f h blob
      | .root n => installRoot s f n
      | _ => s

/-! ## OP_KEY_ERASE (R212) -/

/-- The generations an erase of an endpoint key marks empty: WHICH 0 pending, 1 current, 2 both. -/
def eraseGens (r : EpRec) (which : Nat) : List (BitVec 8) :=
  (if which ≠ 1 ∧ r.keyPend.isSome then [kcPend r] else []) ++ (if which ≠ 0 ∧ r.keyCur.isSome then [kcCur r] else [])

/-- A record with an erase's generations marked empty; REVOKED stays until step 4. -/
def eraseMark (r : EpRec) (which : Nat) : EpRec :=
  let r := if which ≠ 1 then kcSet r 29 1 0 else r
  if which ≠ 0 then kcSet r 28 1 0 else r

/-- Step 4 at a record: the blob bytes zeroed, REVOKED cleared. -/
def eraseDone (r : EpRec) (which : Nat) : EpRec :=
  kcSet { r with keyPend := if which ≠ 1 then none else r.keyPend, keyCur := if which ≠ 0 then none else r.keyCur } 30 1 0

/-- Step 4, and the completion. -/
def eraseFinish (s : State) (f : Flight) : State :=
  match keyTgt f.raw with
  | .ep eid => completeOk (recPut s eid (eraseDone (recGet s eid) (dByte f.raw 42 1))) f 4 0
  | .dir h => completeOk (dirPut s h DirEnt.empty) f 4 0
  | _ => completeOk s f 4 0

/-- Step 3: complete once no slot holds an erased generation, otherwise wait. -/
def eraseWait (s : State) (f : Flight) : State :=
  let held := match keyTgt f.raw with
    | .ep eid => slotHolds s (epHandle eid) (eraseGens (recGet s eid) (dByte f.raw 42 1))
    | .dir h => s.keys.slots.any fun p => p.2.handle == h
    | _ => false
  if held then setProgress s { f with stage := .wait s.tcxo 1 0 } 2 0 else eraseFinish s f

/-- The state entry of step 2 carries the record as step 4 leaves it, so that a replay completes step 4 (R221); the live
record's blobs are only marked empty. -/
def eraseEp (s : State) (f : Flight) (eid : Nat) : State :=
  let which := dByte f.raw 42 1
  let r := recGet s eid
  if which > 2 then badParam s f 42
  else
    let r' := stamped s (eraseMark r which)
    let s := recPut (appendState s r'.writeSeq (.epRec eid (eraseDone r' which))) eid r'
    let s := slotRetire s fun x => x.handle == epHandle eid && (eraseGens r which).contains x.gen
    eraseWait s f

def eraseDir (s : State) (f : Flight) (h : Nat) : State :=
  let d := dirGet s h
  if dByte f.raw 42 1 ≠ 0 then bad s f rsReserved 42
  else if d.st = 0 then completeOk s f 4 0
  else if d.st ≠ 2 ∧ childCount s h > 0 then badParam s f 24
  else
    let e := { d with st := 0 }
    eraseWait (slotRetire (dirStore s h e) fun x => x.handle == h) f

def eraseRoot (s : State) (f : Flight) (n : Nat) : State :=
  let r := rootGet s n
  if dByte f.raw 42 1 ≠ 0 then bad s f rsReserved 42
  else if r.empty then completeOk s f 4 0
  else if !r.revoked && decide (childCount s (0x20000000 + n) > 0) then badParam s f 24
  else if !rootChangeOpen s then updStateError s f
  else completeOk (rootStore s n RootEnt.none) f 4 0

/-- OP_KEY_ERASE. -/
def keyErase (s : State) (uid : Nat) : State :=
  withKey s uid 0x21 fun f t =>
    match f.stage, t with
    | .wait _ _ _, _ => eraseWait s f
    | _, .ep e => eraseEp s f e
    | _, .dir h => eraseDir s f h
    | _, .root n => eraseRoot s f n
    | _, _ => s

/-- Erases that wait in step 3 and now can complete. -/
def eraseResume (s : State) : State :=
  (s.host.flights.filter fun f => dOpcode f.raw == 0x21 && !f.ended && f.stage != .none).foldl eraseWait s

/-! ## Pinning (R207, R208, R214, R580) -/

/-- The blobs of an endpoint that a pin covers: current and pending, where valid. -/
def pinBlobs (r : EpRec) : List Blob :=
  (if kcCurValid r then r.keyCur.toList else []) ++ (if kcPendValid r then r.keyPend.toList else [])

/-- Pinned slots of a handle. -/
def pinsOf (s : State) (h : Nat) : Nat := (s.keys.slots.filter fun p => p.2.handle == h && p.2.pin).length

/-- Load and pin a list of an endpoint's blobs. -/
def pinEpAll (s : State) (eid : Nat) : List Blob → Option State
  | [] => some s
  | b :: t => match ensureEp s eid (some b) true with | some s => pinEpAll s eid t | none => none

def pinEp (s : State) (f : Flight) (eid : Nat) : State :=
  let r := recGet s eid
  let bl := pinBlobs r
  let new := bl.length - pinsOf s (epHandle eid)
  if kcRevoked r then reject s f stRevoked 0
  else if !bl.isEmpty && (match dirUse s (0x30000000 + kcDomain r) with | .ok _ _ => false | _ => true) then
    reject s f stRevoked 0
  else match pinsExceed s new with
  | (true, s) => reject s f stSlotBusy 0
  | (false, s) =>
  match pinEpAll s eid bl with
  | none => slotWait s f
  | some s =>
    let v := recView s eid
    let s := appendState s (r.writeSeq + 1) (.note 1 (epHandle eid))
    let s := recPut s eid (stamped s v)
    let s := pinPut s eid (pinOf v)
    completeOk s f 3 (result4 (pinsOf s (epHandle eid)) 0 0 0)

def pinDir (s : State) (f : Flight) (h : Nat) : State :=
  match dirUse s h with
  | .empty => badParam s f 24
  | .revoked => reject s f stRevoked 0
  | .ok _ _ =>
    let d := dirGet s h
    match pinsExceed s (b2n !d.pinned) with
    | (true, s) => reject s f stSlotBusy 0
    | (false, s) =>
    match ensureDir s h true with
    | none => slotWait s f
    | some s => completeOk (dirStore s h { d with pinned := true }) f 3 (result4 (pinsOf s h) 0 0 0)

/-- OP_KEY_PIN. -/
def keyPin (s : State) (uid : Nat) : State :=
  withKey s uid 0x22 fun f t =>
    match t with
    | .ep e => pinEp s f e
    | .dir h => pinDir s f h
    | .root n => if (rootGet s n).empty then badParam s f 24 else completeOk s f 3 0
    | _ => s

/-- The pins of a handle cleared: its slots stay READY. -/
def slotUnpin (s : State) (h : Nat) : State :=
  slotMap s fun x => if x.handle == h then { x with pin := false } else x

/-- OP_KEY_UNPIN: the pinned-state store's fields are written through to the record (R123, R214). -/
def keyUnpin (s : State) (uid : Nat) : State :=
  withKey s uid 0x23 fun f t =>
    match t with
    | .ep e =>
      if (pinGet s e).on then
        let n := pinsOf s (epHandle e)
        let s := recChange s e (recView s e)
        let s := pinPut (appendState s 0 (.note 2 (epHandle e))) e PinEnt.none
        completeOk (slotUnpin s (epHandle e)) f 3 (result4 n 0 0 0)
      else completeOk s f 3 0
    | .dir h =>
      let d := dirGet s h
      if d.pinned then
        completeOk (slotUnpin (dirStore s h { d with pinned := false }) h) f 3 (result4 (pinsOf s h) 0 0 0)
      else completeOk s f 3 0
    | _ => completeOk s f 3 0

/-! ## OP_KEY_INVALIDATE (R213) -/

/-- Move slots to RETIRING and complete with their number. -/
def invalidateSlots (s : State) (f : Flight) (g : Slot → Bool) : State :=
  completeOk (slotRetire s g) f 3 (result4 (retireCount s g) 0 0 0)

def keyInvalidate (s : State) (uid : Nat) : State :=
  withKey s uid 0x24 fun f t =>
    match t with
    | .ep e => invalidateSlots (recChange s e (kcSet (recGet s e) 30 1 1)) f (slotUnder s (epHandle e))
    | .dir h =>
      let d := dirGet s h
      if d.st = 0 then badParam s f 24
      else
        invalidateSlots (dirStore s h { d with st := 2 }) f (slotUnder s h)
    | .root n =>
      let r := rootGet s n
      if r.empty then badParam s f 24
      else if !rootChangeOpen s then updStateError s f
      else
        invalidateSlots (rootStore s n { r with revoked := true }) f (slotUnder s (0x20000000 + n))
    | _ => s

/-! ## Events of the kennel -/

/-- SLOT_ZEROIZE (R202): the shares of a ZEROIZING slot are overwritten and it is FREE; erases waiting for it go on (R212). -/
def slotZeroize (s : State) (i : Nat) : State :=
  let x := slotGet s i
  if x.st = 4 then eraseResume (slotPut s i Slot.free) else s

/-- Opcodes that may wait for a slot. -/
def slotOps : List Nat := [0x10, 0x20, 0x21, 0x22, 0x23, 0x24, 0x29, 0x40, 0x41, 0x42, 0x43, 0x44]

/-- KEY_SLOT_BUSY_TIMEOUT (R205): a descriptor has waited 1 ms for a slot. -/
def keySlotBusyTimeout (s : State) (uid : Nat) : State :=
  match flightOf s uid with
  | some f =>
    match f.stage with
    | .wait since 0 0 =>
      if msPassed s since 1 && !f.ended && slotOps.contains (dOpcode f.raw) && (slotAlloc s).isNone then
        installFail s f stSlotBusy 0
      else s
    | _ => s
  | none => s

/-- SHARE_RERANDOMISE (R206): the shares of every READY slot are re-randomised; the key they share is the same. -/
def shareRerandomise (s : State) : State :=
  let g : Nat × Slot → Nat × Slot := fun p => (p.1, if p.2.st == 2 then { p.2 with sh := shareAgain (s.free + 2 * p.1) p.2.sh } else p.2)
  { s with free := s.free + 16384, keys := { s.keys with slots := s.keys.slots.map g } }

/-- A place in queue 0x45; the lookup allocates a slot, LOADING, where none is loading its key and one is to be had
(R202, R204). -/
def missTake (s : State) (m : Miss) : State :=
  let s := { s with keys := { s.keys with missQ := s.keys.missQ ++ [m] } }
  match slotFind s m.handle m.gen 1, slotAlloc s with
  | none, some (i, s) => slotPut s i { Slot.free with st := 1, handle := m.handle, gen := m.gen }
  | _, _ => s

/-- A lookup by a reading-path item (R203, R204): a reference on a READY slot, or a place in queue 0x45. -/
def kennelLookup (s : State) (item h : Nat) (gen : BitVec 8) (tc0 : Bool) : State × Option Nat :=
  match slotFind s h gen 2 with
  | some i =>
    let s := cnt s 236
    let x := slotGet s i
    (useStamp (slotPut s i { x with refs := x.refs + 1, lru := s.keys.useNext }), some i)
  | none => (missTake (cnt s 237) ⟨item, h, gen, tc0⟩, none)

/-- An item gives back its reference; with the last one a RETIRING slot goes to ZEROIZING (R202). -/
def slotRelease (s : State) (i : Nat) : State :=
  let x := slotGet s i
  slotPut s i (if x.st = 3 ∧ x.refs ≤ 1 then { x with st := 4, refs := 0 } else { x with refs := x.refs - 1 })

end Sys2Proof.Machine
end

