-- ==== Sys2Proof/Machine/Seal.lean ====
section
/-!
DEFINITION. Sealed readings (07): the reading record's bytes, the leaf and its tag, batches, the Merkle tree, the
signature, the batch log, OP_SEAL_KEY_SET and OP_BATCH_GET.
-/
namespace Sys2Proof.Machine
open Sys2Proof

/-! ## The reading record (04 R139) -/

/-- Record bytes 0 to 111. -/
def recordHead (r : ReadRec) : List Byte :=
  leBytes 4 r.eid.toNat ++ leBytes 1 (r.verdict + 4 * r.tc + 16 * r.kind) ++ leBytes 1 1 ++ [r.channel, r.rssi] ++
  leBytes 4 r.flags.toNat ++ leBytes 4 r.rxIc.toNat ++ leBytes 8 r.meterTime.toNat ++ leBytes 8 r.rxDt.toNat ++
  leBytes 4 r.writeSeq.toNat ++ leBytes 2 r.src.toNat ++ leBytes 2 r.tag.toNat ++
  ((List.range 8).map fun i => leBytes 4 (tget 0 r.delta i).toNat).flatten ++ [r.rate, r.postFlags] ++ leBytes 2 0 ++
  leBytes 4 r.period.toNat ++ leBytes 8 r.batchId.toNat ++ leBytes 2 r.leaf.toNat ++ leBytes 6 0 ++
  leBytes 16 r.detail.toNat

/-- The 128 bytes of a record. -/
def recordBytes (r : ReadRec) : List Byte := recordHead r ++ leBytes 16 r.sealTag.toNat

/-! ## Keys in use (R226, R228) -/

/-- The session key and signing key in use, with their generations and the signing key's type, while both serve; once one
has been found missing, none until an OP_SEAL_KEY_SET completes (R228). -/
def sealKeys (s : State) : Option (BitVec 256 × BitVec 8 × BitVec 256 × BitVec 8 × BitVec 8) :=
  if !s.sealU.set || s.sealU.missed then none
  else
    match dirUse s s.sealU.session, dirUse s s.sealU.sign, (dirGet s s.sealU.sign).cur with
    | .ok k g, .ok k' g', some b => some (k, g, k', g', b.typ)
    | _, _, _ => none

/-- SEAL_STATUS.KEY_MISSING. -/
def keyMissing (s : State) : Bool := (sealKeys s).isNone

/-- A seal key found missing is recorded, once (R228): the handle is the one that serves nothing, or 0. -/
def sealWatch (s : State) : State :=
  if !keyMissing s || s.sealU.missed then s
  else
    let h := match dirUse s s.sealU.session with | .ok _ _ => s.sealU.sign | _ => s.sealU.session
    logEvent 0x0303 (if s.sealU.set then h else 0) { s with sealU := { s.sealU with missed := true } }

/-! ## Batches (R230 to R234) -/

/-- BATCH_ID: SEAL_SRC and the batch counter (R230). -/
def batchId (src : BitVec 16) (ctr : Nat) : BitVec 64 := BitVec.ofNat 64 (src.toNat * 2 ^ 48 + ctr % 2 ^ 48)

/-- Close the open batch with a cause: it queues for signing and joins the newest 32 (R231, R236, R239). -/
def batchClose (s : State) (cause : Nat) : State :=
  match s.sealU.batch with
  | none => s
  | some b =>
    let b := { b with dtClose := dtOf s, cause := cause }
    cnt { s with sealU := { s.sealU with batch := none, signQ := s.sealU.signQ ++ [b],
                                         recent := (b :: s.sealU.recent).take 32 } } (321 + cause)

/-- Open a batch at its first leaf with a counter value never used before; opening is a state entry (R230, R240). -/
def batchOpen (s : State) (sGen gGen : BitVec 8) : State :=
  let u := s.sealU
  let u := if u.ctrNext < u.ctrLimit then u else { u with ctrLimit := u.ctrNext + 4096 }
  let bid := batchId u.src u.ctrNext
  let b : Batch := { bid := bid, prev := u.prev, session := u.session, sGen := sGen, sign := u.sign, gGen := gGen,
                     dtOpen := dtOf s, dtClose := 0, cause := 0, rebuilt := false, gaps := false,
                     closeMs := regFld s 0x500 0 8, opened := s.tcxo, leaves := [], recs := [] }
  appendState { s with sealU := { u with ctrNext := u.ctrNext + 1, prev := bid, batch := some b } } 0 (.batch bid b.prev)

/-- Whether the open batch's window has ended (R231). -/
def batchDue (s : State) (b : Batch) : Bool := msPassed s b.opened b.closeMs

/-- Leave no batch open that the next leaf may not join: its window has ended, or the session key's generation, of which
the header has one place, has changed. -/
def batchSettle (s : State) (sGen : BitVec 8) : State :=
  match s.sealU.batch with
  | none => s
  | some b => if batchDue s b then batchClose s 1 else if b.sGen ≠ sGen then batchClose s 2 else s

/-- A record's leaf: BATCH_ID, LEAF and SEAL_TAG (R229, R233). -/
def sealRecord (key : BitVec 256) (b : Batch) (r : ReadRec) : ReadRec :=
  let r := { r with batchId := b.bid, leaf := BitVec.ofNat 16 b.leaves.length }
  let iv := BitVec.ofNat 96 (b.bid.toNat + 2 ^ 64 * b.leaves.length)
  { r with sealTag := Config.gcmTag key iv (recordHead r) }

def leafHash (r : ReadRec) : BitVec 256 := Config.sha256 (0 :: recordBytes r)

/-- Put a sealed record into the reading delivery queue, mirrored before it is delivered (R413, R76). -/
def deliver (s : State) (r : ReadRec) (group cls : Nat) (tc0 : Bool) (uid : Option Nat) :
    State :=
  let id := s.host.delivNext
  let s := mirrorGated s 0x12 [id, r.eid.toNat] 1 id
  { s with host := { s.host with deliv := s.host.deliv ++ [⟨id, tc0, r, group, cls, uid, none⟩], delivNext := id + 1 } }

/-- Bytes of a posting entry: 64 of no stated layout (14 R432). -/
def postBytes (eid writeSeq : Nat) : List Byte := leBytes 64 (Config.postEntry eid writeSeq).toNat

/-- The body of a reading's store entry. -/
def readingBody (r : ReadRec) : List Byte := recordBytes r ++ postBytes r.eid.toNat r.writeSeq.toNat

/-- Fill a sealed record into its store entry, wherever that has got to (14 R432). -/
def storeSealed (s : State) (rid : Nat) (r : ReadRec) : State :=
  let g := fun (e : SEnt) => if e.rid = rid then { e with rd := some r, body := readingBody r } else e
  let h := fun (u : SUnit) => { u with ents := u.ents.map g }
  if rid = 0 then s
  else { s with store := { s.store with queue := s.store.queue.map g, open_ := s.store.open_.map g, units := s.store.units.map h } }

/-- Give the record at the head of the seal stage its leaf in the open batch. -/
def leafTake (s : State) (key : BitVec 256) (it : SealItem) (rest : List SealItem) (b : Batch) : State :=
  let r := sealRecord key b it.rd
  let b := { b with leaves := b.leaves ++ [leafHash r], recs := b.recs ++ [s.host.delivNext] }
  let s := { s with sealU := { s.sealU with batch := some b, queue := rest } }
  let s := deliver (storeSealed (cntAdd s 320 1 r.eid) it.rid r) r it.group it.cls it.tc0 it.uid
  if b.leaves.length ≥ 4096 then batchClose s 0 else s

/-- Places of the delivery queue 0x4C a record of a class may take: 16,384, of which 64 are TC0's alone (01 R28; 02 R76). -/
def delivDepth (cls : Nat) : Nat := if cls = 0 then 16384 else 16320

/-- Records may wait: the seal stage holds them while the signing queue or the delivery queue is full (R236, R76). -/
def sealHeld (s : State) (cls : Nat) : Bool :=
  decide (256 ≤ s.sealU.signQ.length) || decide (delivDepth cls ≤ s.host.deliv.length)

/-- Whether a record of a class may be passed to the seal stage: the delivery queue will have a place for it behind the
records already at the stage (01 R34; 02 R76). -/
def delivRoom (s : State) (cls : Nat) : Bool :=
  decide (s.host.deliv.length + s.sealU.queue.length < delivDepth cls)

/-- Whether a batch may be opened for a record: the tail takes its entry, the signing queue and the delivery queue have
room, and every header a start found unsigned has been signed (R236, R240). -/
def batchMayOpen (s : State) (cls : Nat) : Bool := tailOpenTc s cls && !sealHeld s cls && s.sealU.owed == 0

/-- SEAL: one record at the seal stage, in the order they reached it (R228 to R231). Its GMAC's eight blocks pass a general
pipeline, the record of a TC0 alarm too (05 R153; 04 Throughput: 128 B of sealing). -/
def sealStep (s : State) : State :=
  match s.sealU.queue with
  | [] => sealWatch s
  | it :: rest =>
    match sealKeys s with
    | none => sealWatch s
    | some (_, sGen, _, gGen, _) =>
      if sealHeld s it.cls then s
      else
        let s := batchSettle s sGen
        let s := if s.sealU.batch.isNone && batchMayOpen s it.cls then batchOpen s sGen gGen else s
        match s.sealU.batch, slotFind s s.sealU.session sGen 2 with
        | some b, some i =>
          match (slotHand s i).2, cipherRun (slotHand s i).1 1 (slotHand s i).2 8 with
          | k, (s, some _) => leafTake s k.val it rest b
          | _, (s, none) => s
        | some _, none => (ensureDir s s.sealU.session true).getD s
        | none, _ => s

/-- BATCH_CLOSE_TIMER: the open batch's window has ended (R231). -/
def batchCloseTimer (s : State) : State :=
  match s.sealU.batch with
  | some b => if batchDue s b then batchClose s 1 else s
  | none => s

/-! ## The Merkle tree (R233) -/

def bytes32 (h : BitVec 256) : List Byte := leBytes 32 h.toNat
def nodeHash (l r : BitVec 256) : BitVec 256 := Config.sha256 (1 :: (bytes32 l ++ bytes32 r))

/-- Z[j]: the hash of a padding-only subtree of height j. -/
def padHash : Nat → BitVec 256
  | 0 => 0
  | j + 1 => nodeHash (padHash j) (padHash j)

/-- The next level of a tree, padded on the right. -/
def levelUp (z : BitVec 256) : List (BitVec 256) → List (BitVec 256)
  | [] => []
  | [a] => [nodeHash a z]
  | a :: b :: t => nodeHash a b :: levelUp z t

/-- The nodes at height j. -/
def level (l : List (BitVec 256)) : Nat → List (BitVec 256)
  | 0 => l
  | j + 1 => levelUp (padHash j) (level l j)

def merkleRoot (l : List (BitVec 256)) : BitVec 256 := lget (padHash 12) (level l 12) 0

/-- Path entry j of a leaf: the sibling's hash at height j. -/
def pathEntry (l : List (BitVec 256)) (leaf j : Nat) : BitVec 256 :=
  let k := leaf / 2 ^ j
  lget (padHash j) (level l j) (if k % 2 = 0 then k + 1 else k - 1)

/-! ## Header, signature and batch log (R234 to R237) -/

/-- ASCII "CLGBATCH". -/
def batchMagic : List Byte := [0x43, 0x4C, 0x47, 0x42, 0x41, 0x54, 0x43, 0x48]

/-- The 96-byte header. -/
def batchHeader (s : State) (b : Batch) (curve : Nat) : List Byte :=
  batchMagic ++ leBytes 1 1 ++ leBytes 1 curve ++ leBytes 2 b.leaves.length ++ leBytes 8 b.bid.toNat ++
  leBytes 8 b.prev.toNat ++ leBytes 4 b.session ++ leBytes 1 b.sGen.toNat ++ leBytes 1 b.gGen.toNat ++
  leBytes 1 b.cause ++ leBytes 1 (s.harn.pos + 8 * b2n b.rebuilt + 16 * b2n b.gaps) ++ leBytes 4 b.sign ++
  leBytes 8 b.dtOpen.toNat ++ leBytes 8 b.dtClose.toNat ++ leBytes 8 0 ++ bytes32 (merkleRoot b.leaves)

/-- r ‖ s, each big-endian in the curve's byte length: 64 bytes for P-256, 96 for P-384, the rest of the 96 zero (R235). -/
def sigBytes (curve : Nat) (sig : Nat × Nat) : List Byte :=
  if curve = 1 then beBytes 32 sig.1 ++ beBytes 32 sig.2 ++ leBytes 32 0 else beBytes 48 sig.1 ++ beBytes 48 sig.2

/-- The message hash of a header: SHA-256 for P-256 (type 4), SHA-384 for P-384 (R235). -/
def sigHash (typ : BitVec 8) (hdr : List Byte) : Nat :=
  if typ = 4 then (Config.sha256 hdr).toNat else (Config.sha384 hdr).toNat

/-- The 256-byte batch log entry. -/
def logBatchBytes (e : LogBatch) : List Byte :=
  leBytes 4 e.lseq.toNat ++ leBytes 4 0 ++ e.hdr ++ e.sig ++ leBytes 56 0

/-- Whether the store append queue 0x4A has a place, of those that are not TC0's alone, for what the device itself adds;
without one it holds its entry (01 R28, R34). -/
def storeRoom (s : State) : Bool := decide (s.store.queue.length < 8128)

/-- Put an entry into the store append queue 0x4A, while the store takes entries (14 R433, R456). -/
def storeQueue (s : State) (e : SEnt) : State :=
  if (fnGet s 0x0A00).st == .on || (fnGet s 0x0A00).st == .starting then
    { s with store := { s.store with queue := s.store.queue ++ [e] } }
  else s

/-- Nonce and blinding value of a signature, one generate request each (05 R164, R168); none: signing waits. -/
def signDraw (s : State) : Option State :=
  if !drbgOpen s then none
  else if !drbgOpen (drbgUse s) then none else some (drbgUse (drbgUse s))

/-- BATCH_SIGN: the oldest closed batch is signed and entered in the batch log (R235, R237). The private key is taken from
a kennel slot (05 R168); SIGN_GEN names the generation that signs (R234). -/
def batchSign (s : State) : State :=
  match s.sealU.signQ with
  | [] => s
  | b :: rest =>
    match dirUse s b.sign, (dirGet s b.sign).cur with
    | .ok _ g, some kb =>
      match slotFind s b.sign g 2, (if storeRoom s then signDraw s else none) with
      | none, _ => (ensureDir s b.sign true).getD s
      | _, none => s
      | some i, some s =>
        let curve := if kb.typ.toNat = 4 then 1 else 2
        let (s, k) := slotHand s i
        let (n, s) := takeFree s
        let hdr := batchHeader s { b with gGen := g } curve
        let key := privScalar kb.typ k.val (BitVec.ofNat 32 b.sign)
        let e : LogBatch := { lseq := s.sealU.lseq, hdr := hdr, sig := sigBytes curve (Config.ecdsaSign kb.typ key n (sigHash kb.typ hdr)),
                              bid := b.bid, recs := b.recs }
        let log := s.sealU.log ++ [e]
        let s := cnt { s with sealU := { s.sealU with signQ := rest, owed := s.sealU.owed - 1, lseq := s.sealU.lseq + 1,
                                                      log := log.drop (log.length - 65536) } } 270
        storeQueue s { ssn := 0, typ := 3, quar := false, eid := 0xFFFFFFFF, dt := b.dtClose, rid := 0, post := none, pw := 0, rd := none,
                       body := logBatchBytes e }
    | _, _ => s

/-- Records covered by a tail write-back no longer hold their batches back (R237). -/
def batchCover (s : State) (ids : List Nat) : State :=
  let g := fun (l : List Nat) => l.filter fun i => !ids.contains i
  { s with sealU := { s.sealU with
      batch := s.sealU.batch.map fun b => { b with recs := g b.recs }
      signQ := s.sealU.signQ.map fun b => { b with recs := g b.recs }
      log := s.sealU.log.map fun e => { e with recs := g e.recs } } }

/-! ## OP_SEAL_KEY_SET (R226) -/

/-- One of the two keys: the status it is refused with. -/
def sealKeyBad (s : State) (h : Nat) : Option Nat :=
  match dirUse s h with
  | .empty => some stNotVerified
  | .revoked => some stRevoked
  | .ok _ _ => none

/-- A CURRENT key that fails the type and usage pairing of R198 at its place. -/
def sealKeyWrong (s : State) (h : Nat) : Bool :=
  match (dirGet s h).cur with
  | some b => (dirGet s h).st == 1 &&
      !((placeNeeds h).1.contains b.typ.toNat && b.usage.toNat &&& (placeNeeds h).2 == (placeNeeds h).2)
  | none => false

/-- Pin a seal key; its pin is an ordinary pin. -/
def sealPin (s : State) (h : Nat) : Option State :=
  (ensureDir s h true).map fun s => dirPut s h { dirGet s h with pinned := true }

/-- Release the pin of a key no longer in use. -/
def sealUnpin (s : State) (h session sign : Nat) : State :=
  if h = 0 ∨ h = session ∨ h = sign then s
  else slotUnpin (dirPut s h { dirGet s h with pinned := false }) h

/-- New pins an OP_SEAL_KEY_SET needs. -/
def sealNewPins (s : State) (h : Nat) : Nat := if (dirGet s h).pinned then 0 else 1

def sealKeySet (s : State) (uid : Nat) : State :=
  withDesc s uid 0x29 fun f =>
    let se := dByte f.raw 24 4
    let si := dByte f.raw 28 4
    if !(hIsDir se && hIsSession se) || sealKeyWrong s se then badParam s f 24
    else if !(hIsDir si && hIsSign si) || sealKeyWrong s si then badParam s f 28
    else match sealKeyBad s se, sealKeyBad s si with
    | some st, _ => reject s f st 0
    | none, some st => reject s f st 0
    | none, none =>
      match pinsExceed s (sealNewPins s se + sealNewPins s si) with
      | (true, s) => reject s f stSlotBusy 0
      | (false, s) =>
      match (sealPin s se).bind fun s => sealPin s si with
      | none => slotWait s f
      | some s' =>
        let s' := appendState s' 0 (.sealKeys (BitVec.ofNat 32 se) (BitVec.ofNat 32 si) (BitVec.ofNat 16 (dByte f.raw 32 2)))
        let s' := batchClose s' 2
        let s' := sealUnpin (sealUnpin s' s.sealU.session se si) s.sealU.sign se si
        completeOk { s' with sealU := { s'.sealU with set := true, session := se, sign := si, missed := false,
                                                      src := BitVec.ofNat 16 (dByte f.raw 32 2) } } f 4 0

/-! ## OP_BATCH_GET (R238, R239) -/

/-- Entries visible from a LSEQ on: an entry shows once every record of its batch is covered. -/
def logVisible (s : State) : List LogBatch := s.sealU.log.takeWhile fun e => e.recs.isEmpty

/-- The oldest LSEQ held. -/
def logOldest (s : State) : Word := match s.sealU.log with | e :: _ => e.lseq | [] => s.sealU.lseq

/-- Whether a mode 0 read asks for entries no longer held. -/
def batchOlder (s : State) (raw : BitVec 512) : Bool := decide (dByte raw 28 4 < (logOldest s).toNat)

/-- The entries a mode 0 read answers: visible, from FROM_LSEQ on, as many as the buffer holds. -/
def batchOut (s : State) (raw : BitVec 512) : List LogBatch :=
  ((logVisible s).filter fun e => decide (dByte raw 28 4 ≤ e.lseq.toNat)).take (dBufLen raw / 256)

/-- The LSEQ to ask for next. -/
def batchNext (s : State) (raw : BitVec 512) : Nat :=
  match (batchOut s raw).getLast? with
  | some e => e.lseq.toNat + 1
  | none => max (dByte raw 28 4) (if batchOlder s raw then (logOldest s).toNat else 0)

/-- Complete a mode 0 read with what is visible. -/
def batchGetDone (s : State) (f : Flight) : State :=
  let out := batchOut s f.raw
  let res := result4 out.length (batchNext s f.raw) (logOldest s).toNat (b2n (batchOlder s f.raw))
  completeOk (writeBuf s f (out.map logBatchBytes).flatten) f 0 res

/-- Mode 0: entries, or a wait of up to WAIT_MS for one. -/
def batchGetLog (s : State) (uid : Nat) : State :=
  withSub s uid 0x28 24 0 [0, 1] fun f =>
    if dByte f.raw 24 1 ≠ 0 then badParam s f 24
    else ifUnused s f [(36, 10)] <|
      let wait := dByte f.raw 32 2
      let any := (logVisible s).any fun e => decide (dByte f.raw 28 4 ≤ e.lseq.toNat)
      if wait > 10000 then badParam s f 32
      else if any || wait == 0 then batchGetDone s f
      else match f.stage with
        | .wait _ _ _ => s
        | _ => flightPut s { f with stage := .wait s.tcxo wait 0 }

/-- BATCH_GET_WAIT_EXPIRY: WAIT_MS has passed. -/
def batchGetWaitExpiry (s : State) (uid : Nat) : State :=
  withDesc s uid 0x28 fun f =>
    match f.stage with
    | .wait since ms _ => if msPassed s since ms then batchGetDone s f else s
    | _ => s

/-- Mode 1: the 12 path entries of a leaf of one of the newest 32 batches. -/
def batchGetPath (s : State) (uid : Nat) : State :=
  withSub s uid 0x28 24 1 [0, 1] fun f =>
    if dByte f.raw 24 1 ≠ 1 then badParam s f 24
    else ifUnused s f [(28, 6)] <|
      if dBufLen f.raw < 384 then badBuf s f 16
      else
        let leaf := dByte f.raw 44 2
        match s.sealU.recent.find? fun b => b.bid.toNat == dByte f.raw 36 8 with
        | none => completeOk s f 0 1
        | some b =>
          if b.leaves.length ≤ leaf then completeOk s f 0 2
          else completeOk (writeBuf s f ((List.range 12).map fun j => bytes32 (pathEntry b.leaves leaf j)).flatten) f 0 0

end Sys2Proof.Machine
end

