-- ==== Sys2Proof/Machine/Delivery.lean ====
section
/-!
DEFINITION. Reading rings: grants, delivery, tail write-backs (02 R74 to R79), and the descriptors every block's work is
seen through: OP_NOP, OP_STATUS.
-/
namespace Sys2Proof.Machine
open Sys2Proof

/-- The reading ring of a record: the one a replay names, else its READ_ROUTE entry, or ring 0 (R77; 14 R452). -/
def routeOf (s : State) (d : Deliv) : Nat :=
  let w := regGet s (0x2600 + 4 * (4 * d.group + d.cls))
  match d.ring with
  | some r => r
  | none => if wbit w 31 then fld w 0 4 else 0

/-- Whether a record for a ring waits in the delivery queue. -/
def rrWaiting (s : State) (r : Nat) : Bool := s.host.deliv.any fun d => routeOf s d == r

/-- The oldest record of a class that waits for a ring. -/
def rrFront (s : State) (r c : Nat) : Option Deliv := s.host.deliv.find? fun d => routeOf s d == r && d.cls == c

/-- The record of a class that can be written to a ring at present: the ring ON with a credit, the link up, the record
past its mirror gate (13 R413), and no state entry waiting to become durable (03 R108). -/
def rrReady (s : State) (r c : Nat) : Option Deliv :=
  if (rrGet s r).fn.st != .on || (rrGet s r).g == (rrGet s r).w || s.host.linkDown || !s.recs.jwait.isEmpty then none
  else (rrFront s r c).filter fun d => !gateShut s 1 d.id

/-- Classes of the records that can be written at present, to any reading ring. -/
def delivWaiting (s : State) : List Nat :=
  (List.range 4).filter fun c => (List.range 16).any fun r => (rrReady s r c).isSome

/-- The record a row writes to a ring: of the class the delivery arbiter, arbiter 6, grants (01 R26). -/
def rrNext (s : State) (r : Nat) : Option Deliv :=
  (List.range 4).findSome? fun c => if arbGrants s 6 c (delivWaiting s) then rrReady s r c else none

/-- Whether a further record can be written to a ring at present, as far as its own records and credit go (R75). -/
def rrMore (s : State) (r : Nat) : Bool := (List.range 4).any fun c => (rrReady s r c).isSome

/-- Write the tail write-back of a ring: the records written are covered, and the vector is signalled where R79 says. -/
def tailWriteBack (s : State) (r : Nat) (last : Bool) : State :=
  let x := rrGet s r
  if x.uncov.isEmpty then s
  else
    let a := (regGet s (0x2408 + 0x20 * r)).toNat + 2 ^ 32 * (regGet s (0x240C + 0x20 * r)).toNat
    let s := hostWriteMem s a (leBytes 4 x.w.toNat)
    let s := batchCover (rrPut s r { rrGet s r with uncov := [] }) (x.uncov.map (·.id))
    if last || decide (regFld s (rrCfg r) 16 8 ≤ x.unsig) then
      msix (rrPut s r { rrGet s r with unsig := 0 }) (regFld s (rrCfg r) 8 7)
    else s

/-- Write the tail write-backs of the rings that have records to cover and can take no further one at present: none
waits, credit lacks, or the ring no longer runs (R52, R75). -/
def tailSweep (s : State) : State :=
  (List.range 16).foldl (fun s r => if s.host.linkDown || rrMore s r then s else tailWriteBack s r true) s

/-- Write one record to its ring. -/
def recordWrite (s : State) (r : Nat) (d : Deliv) : State :=
  let x := rrGet s r
  let base := (regGet s (0x2400 + 0x20 * r)).toNat + 2 ^ 32 * (regGet s (0x2404 + 0x20 * r)).toNat
  let s := hostWriteData s (base + 128 * (x.w.toNat % rrSize s r)) (recordBytes d.rd)
  let s := rrPut s r { rrGet s r with w := x.w + 1, unsig := x.unsig + 1, uncov := x.uncov ++ [{ d with tc0 := false }] }
  let s := { s with host := { s.host with deliv := s.host.deliv.filter fun e => e.id != d.id },
                    rp := { s.rp with tc0Frames := s.rp.tc0Frames - b2n d.tc0 } }
  mirrorSend (cntAdd s 242 1 d.rd.eid) 0x14 [0, d.id]

/-- Whether a reading record a descriptor caused is still on its way to its ring's tail write-back (R86). -/
def recordsOut (s : State) (uid : Nat) : Bool :=
  ((s.rp.parsed ++ s.rp.cipherQ ++ s.rp.tc0Q ++ s.rp.validQ ++ s.rp.postQ).any fun i => i.uid == some uid) ||
  (s.sealU.queue.any fun i => i.uid == some uid) || (s.host.deliv.any fun d => d.uid == some uid) ||
  (s.host.rr.any fun p => p.2.uncov.any fun d => d.uid == some uid)

/-- Complete every descriptor whose outcome is settled and whose records have all reached the host (R86). -/
def drainCheck (s : State) : State :=
  s.host.flights.foldl (fun s f =>
    match f.stage with
    | .drain st step res =>
      if f.ended || recordsOut s f.uid then s else complete s f st step (if st = stAborted then f.units else 0) res
    | _ => s) s

/-- Settle a descriptor: it completes once the records it caused are covered. -/
def settle (s : State) (f : Flight) (status step : Nat) (res : BitVec 128) : State :=
  drainCheck (flightPut s { f with stage := .drain status step res, started := true })

/-- READING_DELIVERY: the next record of a ring, and its tail write-back where R75 asks for one. -/
def readingDelivery (s : State) (r : Nat) : State :=
  match rrNext s r with
  | none => s
  | some d =>
    let s := recordWrite (arbTake s 6 d.cls) r d
    let last := !rrMore s r
    if last || decide (16 ≤ (rrGet s r).uncov.length) then drainCheck (tailWriteBack s r last) else s

/-- A change that may leave a ring's written records without a further one to wait for: a disable, a new route, a record
gone (R52, R75). -/
def delivChanged (s : State) : State := drainCheck (tailSweep s)

/-- Grant doorbell (R74). -/
def rrGrant (s : State) (r : Nat) (v : Word) : State :=
  let x := rrGet s r
  let n := rrSize s r
  if (v - x.g).toNat ≤ n ∧ (v - x.w).toNat ≤ n then rrPut s r { x with g := v, db := v }
  else ringError (rrPut s r { x with grantErr := true }) 2 r v

/-- A write to a grant doorbell page (R51, R74). -/
def rrGrantDoorbell (s : State) (r off size : Nat) (v : Word) : State :=
  let s := bwRx s 66 size
  if off = 0 ∧ size = 4 then rrGrant s r v else dbDropped s

def sqTailDoorbell (s : State) (q off size : Nat) (v : Word) : State :=
  let s := bwRx s 66 size
  if off = 0 ∧ size = 4 then sqTail s q v else dbDropped s

def cqHeadDoorbell (s : State) (c off size : Nat) (v : Word) : State :=
  let s := bwRx s 66 size
  if off = 0 ∧ size = 4 then cqHead s c v else dbDropped s

/-- COMPLETION_INTERRUPT_TIMER (R78). -/
def completionTimer (s : State) (c : Nat) : State :=
  if cqTimeUp s c && cqIrqEn s c then cqSignal s c else s

/-- MSIX_VECTOR_UNMASK: a message held as a pending bit is sent (R79). -/
def vectorUnmask (s : State) (v : Nat) : State :=
  let held := tget false s.host.msixPend v
  let s := { s with host := { s.host with msixMask := tset true s.host.msixMask v false,
                                          msixPend := tset false s.host.msixPend v false } }
  if held then msix s v else s

/-- OP_NOP (R82). -/
def opNop (s : State) (uid : Nat) : State := withDesc s uid 0x01 fun f => completeOk s f 0 0

/-- The newest journal entry of a ring and TAG, of a SEQ where one is given (R90). -/
def jrnlFind (s : State) (sq : Nat) (tag : Nat) (seq : Nat) : Option JrnlEnt :=
  s.host.jrnl.find? fun e => e.sq == sq && e.tag.toNat == tag && (seq == 0xFFFFFFFF || e.seq.toNat == seq)

/-- OP_STATUS (R90). -/
def opStatus (s : State) (uid : Nat) : State :=
  withDesc s uid 0x02 fun f =>
    match jrnlFind s (dByte f.raw 24 2) (dByte f.raw 26 2) (dByte f.raw 28 4) with
    | none => completeOk s f 0 0
    | some e =>
      completeOk s f 0 (result4 (e.jstate + 256 * e.status.toNat + 65536 * e.opcode.toNat) e.progress.toNat e.seq.toNat
        e.pwr.toNat)

end Sys2Proof.Machine
end

