-- ==== Sys2Proof/Machine/Calendar.lean ====
section
/-!
DEFINITION. Calendars and tariff tables (08): dates, local standard and civil time, daylight rules, close instants, the
rate in force, and the checks a table or a calendar must pass.
-/
namespace Sys2Proof.Machine
open Sys2Proof

/-! ## Bytes of a table -/

def tb (t : List Byte) (i : Nat) : Nat := (lget 0 t i).toNat
def tb2 (t : List Byte) (i : Nat) : Nat := tb t i + 256 * tb t (i + 1)
def tb4 (t : List Byte) (i : Nat) : Nat := tb2 t i + 65536 * tb2 t (i + 2)
/-- A signed 16-bit field. -/
def tbS (t : List Byte) (i : Nat) : Int := if tb2 t i < 32768 then (tb2 t i : Int) else (tb2 t i : Int) - 65536

/-! ## Dates: days since 2000-01-01, a Saturday -/

/-- Year, month and day of a day number. -/
def civil (days : Nat) : Nat × Nat × Nat :=
  let z := days + 146037
  let era := z / 146097
  let doe := z % 146097
  let yoe := (doe - doe / 1460 + doe / 36524 - doe / 146096) / 365
  let doy := doe - (365 * yoe + yoe / 4 - yoe / 100)
  let mp := (5 * doy + 2) / 153
  let m := if mp < 10 then mp + 3 else mp - 9
  (yoe + era * 400 + 1600 + (if m ≤ 2 then 1 else 0), m, doy - (153 * mp + 2) / 5 + 1)

/-- Day number of a date. -/
def dayNumber (y m d : Nat) : Nat :=
  let y' := (if m ≤ 2 then y - 1 else y) - 1600
  let yoe := y' % 400
  let doy := (153 * (if m > 2 then m - 3 else m + 9) + 2) / 5 + d - 1
  y' / 400 * 146097 + yoe * 365 + yoe / 4 - yoe / 100 + doy - 146037

/-- Weekday of a day number: 1 Monday to 7 Sunday. -/
def weekday (days : Nat) : Nat := (days + 5) % 7 + 1

def leapYear (y : Nat) : Bool := (y % 4 == 0 && y % 100 != 0) || y % 400 == 0

/-- Days of a month; 29 for a February of no given year. -/
def monthDays (y : Option Nat) (m : Nat) : Nat :=
  if m = 2 then (match y with | some y => if leapYear y then 29 else 28 | none => 29)
  else if m = 4 ∨ m = 6 ∨ m = 9 ∨ m = 11 then 30 else 31

/-- Day number of the nth weekday of a month, 5 the last (R243). -/
def nthWeekday (y m week wday : Nat) : Nat :=
  let first := dayNumber y m 1
  let d := (wday + 7 - weekday first) % 7
  if week ≤ 4 then first + d + 7 * (week - 1)
  else
    let k := (monthDays (some y) m - 1 - d) / 7
    first + d + 7 * k

/-! ## Local time (R244, R245) -/

/-- The TAI−UTC offset in force at a DT second (15 R468). -/
def taiUtc (s : State) (sec : Nat) : Int :=
  if s.time.leapPend && decide (s.time.leapDt.toNat / 2 ^ 24 ≤ sec) then s.time.utcNext.toInt else s.time.utcCur.toInt

/-- Local standard seconds of a DT second. -/
def stdOf (s : State) (cal : List Byte) (sec : Nat) : Nat := ((sec : Int) - taiUtc s sec + tbS cal 2 * 60).toNat

/-- Whether daylight time is in force at a local standard second (R244). -/
def dstAt (cal : List Byte) (std : Nat) : Bool :=
  let off := tb cal 4
  if off = 0 then false
  else
    let y := (civil (std / 86400)).1
    let a := nthWeekday y (tb cal 5) (tb cal 6) (tb cal 7) * 86400 + tb2 cal 8 * 60
    let b := nthWeekday y (tb cal 10) (tb cal 11) (tb cal 12) * 86400 + tb2 cal 14 * 60 - off * 60
    if a ≤ b then decide (a ≤ std ∧ std < b) else decide (a ≤ std ∨ std < b)

/-- Local civil seconds of local standard seconds. -/
def civilOfStd (cal : List Byte) (std : Nat) : Nat := if dstAt cal std then std + tb cal 4 * 60 else std

/-- Local civil seconds of a DT second. -/
def civilOf (s : State) (cal : List Byte) (sec : Nat) : Nat := civilOfStd cal (stdOf s cal sec)

/-- DT second of local standard seconds. -/
def secOfStd (s : State) (cal : List Byte) (std : Nat) : Nat :=
  let u : Int := (std : Int) - tbS cal 2 * 60
  let sec := (u + s.time.utcCur.toInt).toNat
  (u + taiUtc s sec).toNat

/-- Local standard seconds of local civil seconds: a time that falls twice is its first occurrence, a skipped one is
standard time (R245 rules 3 and 4). -/
def stdOfCivil (cal : List Byte) (c : Nat) : Nat := if dstAt cal (c - tb cal 4 * 60) then c - tb cal 4 * 60 else c

/-- DT second of local civil seconds. -/
def secOfCivil (s : State) (cal : List Byte) (c : Nat) : Nat := secOfStd s cal (stdOfCivil cal c)

/-- DT of a meter time (R245); DLMS/COSEM deviations are UTC less local time, in minutes. -/
def meterDt (s : State) (cal : List Byte) (t : MTime) : BitVec 64 :=
  match t with
  | .dt t => t
  | .withDeviation l d =>
    let u : Int := (l : Int) + d * 60
    let sec := (u + s.time.utcCur.toInt).toNat
    BitVec.ofNat 64 ((u + taiUtc s sec).toNat * 2 ^ 24)
  | .withDaylight l dst => BitVec.ofNat 64 (secOfStd s cal (if dst then l - tb cal 4 * 60 else l) * 2 ^ 24)
  | .plainLocal l => BitVec.ofNat 64 (secOfCivil s cal l * 2 ^ 24)

/-! ## Closes (R243, R260) -/

/-- The close instant of a month, for monthly closes. -/
def monthClose (s : State) (cal : List Byte) (y m : Nat) : Nat :=
  secOfCivil s cal (dayNumber y m (tb cal 17) * 86400 + tb2 cal 18 * 60)

def nextMonth (p : Nat × Nat) : Nat × Nat := if p.2 = 12 then (p.1 + 1, 1) else (p.1, p.2 + 1)
def prevMonth (p : Nat × Nat) : Nat × Nat := if p.2 = 1 then (p.1 - 1, 12) else (p.1, p.2 - 1)

/-- Month of a DT second by local civil time. -/
def monthOf (s : State) (cal : List Byte) (sec : Nat) : Nat × Nat :=
  let c := civil (civilOf s cal sec / 86400)
  (c.1, c.2.1)

/-- The first close after a DT second. -/
def nextClose (s : State) (cal : List Byte) (sec : Nat) : Option Nat :=
  match tb cal 16 with
  | 1 =>
    let m := monthOf s cal sec
    let a := monthClose s cal m.1 m.2
    if sec < a then some a
    else
      let m := nextMonth m
      some (monthClose s cal m.1 m.2)
  | 2 => ((List.range (tb cal 21)).map fun i => secOfCivil s cal (tb4 cal (32 + 4 * i) * 60)).find? fun t => decide (sec < t)
  | _ => none

/-- The last close before a DT second. -/
def prevClose (s : State) (cal : List Byte) (sec : Nat) : Option Nat :=
  match tb cal 16 with
  | 1 =>
    let m := monthOf s cal sec
    let a := monthClose s cal m.1 m.2
    if a < sec then some a
    else
      let m := prevMonth m
      some (monthClose s cal m.1 m.2)
  | 2 => ((List.range (tb cal 21)).reverse.map fun i => secOfCivil s cal (tb4 cal (32 + 4 * i) * 60)).find?
           fun t => decide (t < sec)
  | _ => none

/-- The `k`-th close after a second, counting from 0. -/
def closeAfter (s : State) (cal : List Byte) (sec : Nat) : Nat → Option Nat
  | 0 => nextClose s cal sec
  | k + 1 => (closeAfter s cal sec k).bind fun t => nextClose s cal t

/-- The `k`-th close back from a second that is itself a close. -/
def closeBack (s : State) (cal : List Byte) (sec : Nat) : Nat → Option Nat
  | 0 => some sec
  | k + 1 => (closeBack s cal sec k).bind fun t => prevClose s cal t

def calGet (s : State) (id : Nat) : CalEnt := tget CalEnt.empty s.bill.cals id
def tarGet (s : State) (id : Nat) : TarEnt := tget TarEnt.empty s.bill.tariffs id
def calLoaded (s : State) (id : Nat) : Bool := !(calGet s id).bytes.isEmpty

/-- B(p): the instant period p of a calendar ends, where the calendar has one. -/
def boundary (s : State) (c : CalEnt) (p : Nat) : Option Nat :=
  let last := c.lastClose.toNat / 2 ^ 24
  let o := c.openPer.toNat
  if o ≤ p then closeAfter s c.bytes last (p - o)
  else if c.everClosed then closeBack s c.bytes last (o - 1 - p) else none

/-- The start of period p: B(p − 1), or 0 for a period with no known start. -/
def periodStart (s : State) (c : CalEnt) (p : Nat) : Nat := if p = 0 then 0 else (boundary s c (p - 1)).getD 0

/-! ## Rates (R247) -/

/-- The special day of a date with a YEAR byte. -/
def specialDay (t : List Byte) (m d year : Nat) : Option Nat :=
  ((List.range (tb t 5)).find? fun i =>
    let a := 880 + 4 * i
    tb t a == m && tb t (a + 1) == d && tb t (a + 2) == year).map fun i => tb t (880 + 4 * i + 3)

/-- The season in force on a date: the last that starts on or before it, else the last of the table. -/
def seasonOf (t : List Byte) (m d : Nat) : Nat :=
  let n := tb t 2
  (((List.range n).reverse).find? fun i =>
    let a := 16 + 4 * i
    decide (tb t a < m) || (tb t a == m && decide (tb t (a + 1) ≤ d))).getD (n - 1)

/-- The day profile of a day number. -/
def dayProfile (t : List Byte) (days : Nat) : Nat :=
  let c := civil days
  match specialDay t c.2.1 c.2.2 (c.1 - 2000) with
  | some p => if c.1 = 2000 then (specialDay t c.2.1 c.2.2 0).getD p else p
  | none =>
    match specialDay t c.2.1 c.2.2 0 with
    | some p => p
    | none => tb t (48 + 8 * tb t (16 + 4 * seasonOf t c.2.1 c.2.2 + 2) + (weekday days - 1))

/-- VALID entries of a day profile: minute, rate, FRIENDLY. -/
def switches (t : List Byte) (day : Nat) : List (Nat × Nat × Bool) :=
  ((List.range 12).filter fun i => tb t (112 + 48 * day + 4 * i + 3) % 2 == 1).map fun i =>
    let a := 112 + 48 * day + 4 * i
    (tb2 t a, tb t (a + 2), tb t (a + 3) / 2 % 2 == 1)

/-- Rate and FRIENDLY in force at a local civil second. -/
def rateAt (t : List Byte) (c : Nat) : Nat × Bool :=
  let sw := switches t (dayProfile t (c / 86400))
  match sw.reverse.find? fun e => decide (e.1 ≤ c % 86400 / 60) with
  | some e => e.2
  | none => (0, false)

/-- The switch instants of a civil day, in DT seconds. -/
def daySwitches (s : State) (t cal : List Byte) (days : Nat) : List Nat :=
  (switches t (dayProfile t days)).map fun e => secOfCivil s cal (days * 86400 + e.1 * 60)

/-- The version a span of meter time at a DT second uses (R249). -/
def versionAt (e : TarEnt) (sec : Nat) : Option (List Byte) :=
  match e.cur with
  | none => none
  | some v => if v.act.toNat / 2 ^ 24 ≤ sec then some v.bytes
              else (match e.prev with | some p => some p.bytes | none => some v.bytes)

/-- Sub-interval length in seconds; 0 without demand. -/
def subLen (t : List Byte) : Nat := if tb t 8 % 4 = 0 then 0 else tb t 9 * 60 / max 1 (tb t 10)

/-! ## What a table must be (R248) -/

/-- The first failing test of a list. -/
def firstBad (l : List (Nat × Bool)) : Option Nat := (l.find? fun p => !p.2).map (·.1)

/-- Bytes from `a` that must be zero. -/
def zeroFrom (t : List Byte) (a n : Nat) : List (Nat × Bool) := (List.range n).map fun i => (a + i, tb t (a + i) == 0)

def dateOk (m d : Nat) (y : Option Nat) : Bool :=
  decide (1 ≤ m ∧ m ≤ 12) && decide (1 ≤ d ∧ d ≤ monthDays y m)

/-- Seasons: valid, with distinct ascending dates; unused ones zero. -/
def seasonChecks (t : List Byte) : List (Nat × Bool) :=
  ((List.range 8).map fun i =>
    let a := 16 + 4 * i
    if i < tb t 2 then
      [(a, decide (1 ≤ tb t a ∧ tb t a ≤ 12) && (i == 0 || decide (tb t (a - 4) ≤ tb t a))),
       (a + 1, dateOk (tb t a) (tb t (a + 1)) none &&
          (i == 0 || decide (tb t (a - 4) * 32 + tb t (a - 3) < tb t a * 32 + tb t (a + 1)))),
       (a + 2, decide (tb t (a + 2) < tb t 3)), (a + 3, tb t (a + 3) == 0)]
    else zeroFrom t a 4).flatten

def weekChecks (t : List Byte) : List (Nat × Bool) :=
  ((List.range 8).map fun i =>
    let a := 48 + 8 * i
    if i < tb t 3 then ((List.range 7).map fun k => (a + k, decide (tb t (a + k) < tb t 4))) ++ zeroFrom t (a + 7) 1
    else zeroFrom t a 8).flatten

/-- One switch entry: VALID ones first, ascending, the first at minute 0; of the others, RATE and the reserved flags (log
entry 165). -/
def switchChecks (t : List Byte) (a i : Nat) : List (Nat × Bool) :=
  let valid := tb t (a + 3) % 2 == 1
  let prev := i == 0 || tb t (a - 1) % 2 == 1
  if valid then
    [(a, if i = 0 then tb2 t a == 0 else decide (tb2 t a ≤ 1439 ∧ tb2 t (a - 4) < tb2 t a)),
     (a + 2, decide (tb t (a + 2) < tb t 6)), (a + 3, prev && decide (tb t (a + 3) < 4))]
  else [(a + 2, decide (tb t (a + 2) < tb t 6)), (a + 3, i != 0 && decide (tb t (a + 3) < 4))]

def dayChecks (t : List Byte) : List (Nat × Bool) :=
  ((List.range 16).map fun d =>
    let a := 112 + 48 * d
    if d < tb t 4 then ((List.range 12).map fun i => switchChecks t (a + 4 * i) i).flatten else zeroFrom t a 48).flatten

def specialChecks (t : List Byte) : List (Nat × Bool) :=
  ((List.range 16).map fun i =>
    let a := 880 + 4 * i
    if i < tb t 5 then
      [(a, decide (1 ≤ tb t a ∧ tb t a ≤ 12)),
       (a + 1, dateOk (tb t a) (tb t (a + 1)) (if tb t (a + 2) = 0 then none else some (2000 + tb t (a + 2))) &&
          (List.range i).all fun k => tb t (880 + 4 * k) != tb t a || tb t (881 + 4 * k) != tb t (a + 1) ||
                                      tb t (882 + 4 * k) != tb t (a + 2)),
       (a + 3, decide (tb t (a + 3) < tb t 4))]
    else zeroFrom t a 4).flatten

/-- The demand rule's fields. -/
def demandChecks (t : List Byte) : List (Nat × Bool) :=
  let mode := tb t 8 % 4
  let len := tb t 9
  let lenOk := [5, 10, 15, 30, 60].contains len
  [(8, decide (mode ≤ 2) && decide (tb t 8 / 4 ≤ 2)), (9, if mode = 0 then len == 0 else lenOk),
   (10, if mode = 0 then tb t 10 == 0 else if mode = 1 then tb t 10 == 1
        else decide (2 ≤ tb t 10 ∧ tb t 10 ≤ 15) && len % tb t 10 == 0),
   (11, tb t 11 == 0), (12, mode != 0 || tb2 t 12 == 0), (14, tb t 14 == 0), (15, tb t 15 == 0)]

/-- R248: the byte offset of the first failing field, in byte order. -/
def tariffBad (t : List Byte) : Option Nat :=
  if t.length ≠ 1024 then some 0
  else firstBad ([(0, tb t 0 == 1), (2, decide (1 ≤ tb t 2 ∧ tb t 2 ≤ 8)), (3, decide (1 ≤ tb t 3 ∧ tb t 3 ≤ 8)),
    (4, decide (1 ≤ tb t 4 ∧ tb t 4 ≤ 16)), (5, decide (tb t 5 ≤ 16)), (6, decide (1 ≤ tb t 6 ∧ tb t 6 ≤ 16)),
    (7, decide (tb t 7 ≤ 7))] ++ demandChecks t ++ seasonChecks t ++ weekChecks t ++ dayChecks t ++ specialChecks t ++
    zeroFrom t 1008 16)

/-- R579: the byte offset of the first failing field of a calendar, in byte order. -/
def calendarBad (c : List Byte) : Option Nat :=
  let dst := tb c 4 != 0
  let kind := tb c 16
  let rule := fun (a : Nat) (lo hi : Nat) => (a, if dst then decide (lo ≤ tb c a ∧ tb c a ≤ hi) else tb c a == 0)
  if c.length ≠ 64 then some 0
  else firstBad ([(0, tb c 0 == 1), (1, decide (tb c 1 ≤ 63)), (2, decide (-720 ≤ tbS c 2 ∧ tbS c 2 ≤ 840)),
    (4, decide (tb c 4 ≤ 120)), rule 5 1 12, rule 6 1 5, rule 7 1 7,
    (8, if dst then decide (tb2 c 8 ≤ 1439) else tb2 c 8 == 0), rule 10 1 12, rule 11 1 5, rule 12 1 7,
    (13, tb c 13 == 0), (14, if dst then decide (tb2 c 14 ≤ 1439) else tb2 c 14 == 0), (16, decide (kind ≤ 2)),
    (17, if kind = 1 then decide (1 ≤ tb c 17 ∧ tb c 17 ≤ 28) else tb c 17 == 0),
    (18, if kind = 1 then decide (tb2 c 18 ≤ 1439) else tb2 c 18 == 0), (20, kind != 0 || tb c 20 == 0),
    (21, if kind = 2 then decide (1 ≤ tb c 21 ∧ tb c 21 ≤ 8) else tb c 21 == 0), (22, tb c 22 == 0), (23, tb c 23 == 0)] ++
    zeroFrom c 28 4 ++
    (List.range 8).map fun i => (32 + 4 * i,
      if kind = 2 ∧ i < tb c 21 then i == 0 || decide (tb4 c (28 + 4 * i) < tb4 c (32 + 4 * i)) else tb4 c (32 + 4 * i) == 0))

end Sys2Proof.Machine
end

