-- ==== Sys2Proof/Machine/Chan.lean ====
section
/-!
DEFINITION. Channels as every block uses them (10, 11): queues and units, the radio plan's fields, airtime and duty
budgets, links, and how a channel or a record loses its waiting frames.
-/
namespace Sys2Proof.Machine
open Sys2Proof

/-! ## Channels -/

def chGet (s : State) (n : Nat) : Chan := tget Chan.idle s.chan.tab n
def chPut (s : State) (n : Nat) (c : Chan) : State :=
  { s with chan := { s.chan with tab := tset Chan.idle s.chan.tab n c } }
def chFn (s : State) (n : Nat) : Fn := fnGet s (0x100 + n)
def chOn (s : State) (n : Nat) : Bool := (chFn s n).st == .on
def chAttach (s : State) (n : Nat) : Nat := regFld s (0x6000 + 0x10 * n) 0 3
def chAccess (s : State) (n : Nat) : Nat := regFld s (0x6000 + 0x10 * n) 3 2
def chCoord (s : State) (n : Nat) : Bool := wbit (regGet s (0x6000 + 0x10 * n)) 5
def chMaxFrame (s : State) (n : Nat) : Nat := regFld s (0x6000 + 0x10 * n) 16 12
def chRadio (s : State) (n : Nat) : Bool := chAttach s n == 1
def groupHead (s : State) (g : Nat) : Bool := regFld s (0x6400 + 4 * g) 0 1 == 1

/-- The channel and link profile of a record (R93). -/
def epChan (r : EpRec) : Nat := fld r.attach 0 6
def epProfile (r : EpRec) : Nat := fld r.attach 8 8

/-- The channel that carries an endpoint's frames here: its own, or for a taken-over endpoint that of HARN_TKO_MAP;
64, a place that no channel has, while the map does not enable the group (13 R421). -/
def chanOf (s : State) (eid : Nat) : Nat :=
  let c := epChan (tget EpRec.free s.recs.tab eid)
  if eidHome eid = s.harn.pos then c
  else
    let g := c / 16
    if wbit (regGet s 0x8020) (4 * g + 3) then 16 * regFld s 0x8020 (4 * g) 2 + c % 16 else 64

/-- Nothing is transmitted: ingest has stopped (14 R445), or the chip has fenced itself (13 R417). -/
def txStop (s : State) : Bool := s.rp.stopped || s.harn.fenced

/-- Units of 64 bytes. -/
def units (n : Nat) : Nat := (n + 63) / 64

/-- Back-pressure entry and exit levels of a receive queue of 256 units (04 R147). -/
def bpNext (s : State) (old : Bool) (used : Nat) : Bool :=
  if regFld s 0x204 0 6 * 4 ≤ used then true else if used ≤ regFld s 0x204 8 6 * 4 then false else old

def rxUnits (c : Chan) : Nat := (c.rx.map fun x => units x.f.raw.length).sum
def rxTc0Units (c : Chan) : Nat := ((c.rx.filter (·.tc0)).map fun x => units x.f.raw.length).sum
def rxOtherUnits (c : Chan) : Nat := rxUnits c - rxTc0Units c

/-- Evaluate a channel's back-pressure after its receive queue changed (04 R147). -/
def bpUpdate (s : State) (ch : Nat) : State :=
  { s with rp := { s.rp with bp := tset false s.rp.bp ch (bpNext s (tget false s.rp.bp ch) (rxUnits (chGet s ch))) } }

/-- A channel in back-pressure: of its own queue, or because reading delivery has no place left for what is not TC0 (04 R147, 02 R76). -/
def chBp (s : State) (ch : Nat) : Bool := tget false s.rp.bp ch || decide (16320 ≤ s.host.deliv.length)

/-- A meter with a scheduled link, or one in RESYNC: its frames wait for its next event or contact (11 R358). -/
def awaitsContact (s : State) (eid : Nat) : Bool :=
  (tget MLink.none s.air.links eid).st == 1 || (tget MLink.none s.air.links eid).st == 2

def txUnits (l : List TxF) : Nat := ((l.filter (·.queued)).map fun f => units f.bytes.length).sum

/-- Frames of the downlink command queue that are TC0, or are not, take credits of the channel's transmit queue in order,
as far as they go: 128 units of 64 B, 64 of them TC0's alone (R317, 01 R34). `all` and `other` are the units in use. -/
def txCredit (tc0 : Bool) : List TxF → Nat → Nat → List TxF
  | [], _, _ => []
  | f :: t, all, other =>
    let u := units f.bytes.length
    if f.queued || (f.tc == 0) != tc0 then f :: txCredit tc0 t all other
    else if all + u ≤ 128 ∧ (tc0 ∨ other + u ≤ 64) then
      { f with queued := true } :: txCredit tc0 t (all + u) (if tc0 then other else other + u)
    else f :: t

/-- Every frame that finds room enters the transmit queue, TC0 first. -/
def txAdmit (l : List TxF) : List TxF :=
  let l := txCredit true l (txUnits l) 0
  txCredit false l (txUnits l) (txUnits (l.filter (·.tc != 0)))

/-- Queue a downlink frame on a channel; it gets the next frame number (R373). -/
def txQueue (s : State) (ch : Nat) (f : TxF) : State :=
  let c := chGet s ch
  let f := { f with id := s.chan.frNext, admitted := s.tcxo, retry := !awaitsContact s f.eid }
  chPut { s with chan := { s.chan with frNext := s.chan.frNext + 1 } } ch { c with tx := txAdmit (c.tx ++ [f]) }

/-- Replace or drop frames of a transmit queue. -/
def txMap (s : State) (ch : Nat) (g : TxF → Option TxF) : State :=
  chPut s ch { chGet s ch with tx := txAdmit ((chGet s ch).tx.filterMap g) }

/-- Drop every frame of a test from every channel. -/
def txDropAll (s : State) (g : TxF → Bool) : State :=
  { s with chan := { s.chan with tab := s.chan.tab.map fun p =>
      (p.1, { p.2 with tx := txAdmit (p.2.tx.filter fun f => !g f) }) } }

/-! ## The radio plan (11 R330 to R334) -/

def plan (s : State) : List Byte := s.air.plan
def planLoaded (s : State) : Bool := !s.air.plan.isEmpty
def bandAt (i : Nat) : Nat := 64 + 16 * i
def rfAt (i : Nat) : Nat := 320 + 16 * i
def sfAt (i : Nat) : Nat := 448 + 48 * i
def lpAt (i : Nat) : Nat := 1216 + 16 * i
/-- A 64-bit field of the plan. -/
def tb8 (t : List Byte) (i : Nat) : Nat := tb4 t i + 2 ^ 32 * tb4 t (i + 4)

/-- Superframe profile of a slotted channel. -/
def chProfile (s : State) (n : Nat) : Nat := regFld s (0x6800 + 0x10 * n) 0 4
/-- RF plan of a radio channel: its profile's, or its own on an LBT channel. -/
def chRf (s : State) (n : Nat) : Nat :=
  if chAccess s n = 1 then tb (plan s) (sfAt (chProfile s n) + 25) else regFld s (0x6800 + 0x10 * n) 4 3

/-- Set bits of a 64-bit map, ascending. -/
def mapBits (m : Nat) : List Nat := (List.range 64).filter fun i => m / 2 ^ i % 2 == 1

/-- The hop channel of a counter, seed, increment and map (R339). -/
def hop (e seed inc map : Nat) : Nat :=
  let u := (seed + e * inc) % 64
  let l := mapBits map
  if map / 2 ^ u % 2 = 1 then u else lget 0 l (u % max 1 l.length)

/-- The band of a channel index of an RF plan (R331). -/
def bandOf (t : List Byte) (rf idx : Nat) : Option Nat :=
  let f := tb4 t (rfAt rf) * 1000 + idx * tb4 t (rfAt rf + 4)
  (List.range (tb t 1)).find? fun b =>
    decide (tb4 t (bandAt b) * 1000 ≤ f) && decide (f < tb4 t (bandAt b + 4) * 1000)

/-- Predicted airtime of a PSDU in ms (R338). -/
def airtime (t : List Byte) (rf len : Nat) : Nat :=
  let rate := tb4 t (rfAt rf + 12)
  ((tb t (rfAt rf + 9) + len) * 8000 + rate - 1) / max 1 rate

/-! ## Duty budgets (R364 to R367) -/

def dutyGet (s : State) (ch band : Nat) : Duty := tget Duty.zero s.air.duty (16 * ch + band)

/-- DT minutes. -/
def minuteOf (s : State) : Nat := (dtOf s).toNat / 2 ^ 24 / 60

/-- An account aged to a minute: 61 buckets, those further back dropped. A minute before the newest bucket leaves the
account as it stands. -/
def dutyAge (d : Duty) (minute : Nat) : Duty :=
  let k := minute - d.minute
  if k = 0 then d else { minute := minute, buckets := (List.replicate (min k 61) 0 ++ d.buckets).take 61 }

/-- An account as it stands now; while DT is not valid no bucket is cleared (R367). -/
def dutyNow (s : State) (d : Duty) : Duty := if s.time.dtValid then dutyAge d (minuteOf s) else d

/-- U of an account (R364). -/
def dutyUsed (s : State) (ch band : Nat) : Nat := (dutyNow s (dutyGet s ch band)).buckets.sum

/-- Hourly budget of a band in ms (R331). -/
def dutyBudget (s : State) (band : Nat) : Nat := tb2 (plan s) (bandAt band + 8) * 3600

/-- Admit a transmission of `d` ms: TC0 frames and beacons to the whole budget, others to the budget less the class-0
reserve, distribution blocks to their share of it (R365, R394). None: not admitted. -/
def dutyAdmit (s : State) (ch band d : Nat) (tc0 dist : Bool) : Option State :=
  let u := dutyUsed s ch band
  let b := dutyBudget s band
  let res := tb4 (plan s) (bandAt band + 12)
  let lim := if tc0 then b else if dist then (b - res) * regFld s 0x700 24 6 / 64 else b - res
  if u + d ≤ lim then
    let a := dutyNow s (dutyGet s ch band)
    let bk := match a.buckets with | [] => [d] | x :: t => (x + d) :: t
    some { s with air := { s.air with duty := tset Duty.zero s.air.duty (16 * ch + band)
                                                ⟨a.minute, bk⟩ } }
  else none

/-! ## Links (R353 to R359) -/

def linkGet (s : State) (eid : Nat) : MLink := tget MLink.none s.air.links eid
def linkPut (s : State) (eid : Nat) (l : MLink) : State :=
  { s with air := { s.air with links := tset MLink.none s.air.links eid l } }

/-- Release a record's link: a state entry (R359). -/
def linkRelease (s : State) (eid : Nat) : State :=
  if (linkGet s eid).st = 0 then s
  else linkPut (appendState s 0 (.link eid MLink.none)) eid MLink.none

/-- Live links of a channel. -/
def linksOn (s : State) (ch : Nat) : Nat :=
  (s.air.links.filter fun p => p.2.channel == ch && (p.2.st == 1 || p.2.st == 2 || p.2.st == 4)).length

def macGet (s : State) (ch : Nat) : MacCh := tget MacCh.idle s.air.mac ch
def macPut (s : State) (ch : Nat) (m : MacCh) : State :=
  { s with air := { s.air with mac := tset MacCh.idle s.air.mac ch m } }

end Sys2Proof.Machine
end

