-- ==== Sys2Proof/Machine/Command.lean ====
section
/-!
DEFINITION. The command path's shared parts (12): invocation counters, the meter transaction table, downlink frames on
their way to a channel, and the reading records the device forms itself.
-/
namespace Sys2Proof.Machine
open Sys2Proof

/-! ## Device-formed reading records (04 R139) -/

/-- A record's reading ring route: the group of its channel (02 R77). -/
def epGroup (r : EpRec) : Nat := epChan r / 16

/-- A reading record the device forms itself, with METER_TIME the present DT (log entry 21). It posts nothing: WRITE_SEQ,
DELTA and PERIOD are 0 (04 R139). -/
def ownRecord (s : State) (eid kind tc : Nat) : ReadRec :=
  let r := recGet s eid
  { eid := BitVec.ofNat 32 eid, verdict := 0, tc := tc, kind := kind, channel := BitVec.ofNat 8 (epChan r), rssi := 0x80,
    flags := 0, rxIc := 0, meterTime := dtOf s, rxDt := dtOf s, writeSeq := 0, src := 0, tag := 0, delta := [],
    rate := 0xFF, postFlags := 0, period := 0, batchId := 0, leaf := 0, detail := 0, sealTag := 0 }

/-- Pass a formed record to the seal stage (R140). -/
def recordOut (s : State) (rd : ReadRec) (group cls : Nat) (tc0 : Bool) (rid : Nat)
    (uid : Option Nat) : State :=
  { s with sealU := { s.sealU with queue := s.sealU.queue ++ [⟨rd, group, cls, tc0, rid, uid⟩] } }

/-- Put a formed reading into the store append queue (14 R432, R433); its number. `post`: what its posting entry
restores, and the WRITE_SEQ that entry carries. -/
def storeReading (s : State) (rd : ReadRec) (quar : Bool) (post : Option EpRec) (pw : Word) : Nat × State :=
  let rid := s.rp.idNext
  (rid, storeQueue { s with rp := { s.rp with idNext := rid + 1 } }
    { ssn := 0, typ := 1, quar := quar, eid := rd.eid, dt := rd.meterTime, rid := rid, post := post, pw := pw, rd := some rd,
      body := readingBody rd })

/-! ## Invocation counters (R375, R377) -/

def icExhausted (r : EpRec) : Bool := r.txIcHwm == 0xFFFFFFFF

/-- ALARMS bit 3, IC_EXHAUSTED, set once. -/
def setAlarm (s : State) (eid bit : Nat) : State :=
  let r := recView s eid
  if wbit r.alarms bit then s
  else
    let r := { r with alarms := r.alarms ||| BitVec.ofNat 32 (2 ^ bit) }
    recChange (pinSync s eid r) eid r

/-- A record change made by the command path: appended, mirrored, and copied to the pinned-state store. -/
def cmdChange (s : State) (eid : Nat) (r : EpRec) : State := recChange (pinSync s eid r) eid r

/-- Take the next invocation counter of an endpoint in a state entry of its own (R375). -/
def icTake (s : State) (eid : Nat) : Word × State :=
  let r := recView s eid
  let ic := r.txIcHwm + 1
  (ic, cmdChange s eid { r with txIcHwm := ic })

/-! ## What a request asks of a meter (R378, R381, R384, R388 to R390, 15 R473)

Service, logical name, attribute or method, value. Services as the model numbers them: 0 get-request, 1 SET, 2 ACTION,
3 SND_UD, 4 REQ_UD2; how a service is put into octets is its standard's. -/

def leNats (n v : Nat) : List Nat := (leBytes n v).map (·.toNat)
def isDlms (r : EpRec) : Bool := r.proto == 0

/-- A relay command (R378): disconnect control's method, or the limiter's attribute; one M-Bus data record. -/
def relayApp (r : EpRec) (what arg : Nat) : List Nat :=
  if !isDlms r then [3, 0x01, 0xFD, 0x1A, what]
  else if what = 2 then [1, 0, 0, 17, 0, 0, 255, 4] ++ leNats 4 arg
  else [2, 0, 0, 96, 3, 10, 255, what + 1]

/-- The get-request for control_state after a relay command (R381). -/
def controlApp : List Nat := [0, 0, 0, 96, 3, 10, 255, 3]

/-- The registers of REG_MASK, or REQ_UD2 (R384). -/
def regsApp (r : EpRec) : List Nat := if isDlms r then [0, fld r.tariffBind 16 8] else [4]

/-- A load profile by range: zero selects 1.0.99.1.0.255 (R384). -/
def profileApp (obis : List Nat) (fromDt toDt : Nat) : List Nat :=
  0 :: ((if obis.all (· == 0) then [1, 0, 99, 1, 0, 255] else obis) ++ leNats 8 fromDt ++ leNats 8 toDt)

/-- The request of OP_READ_ON_DEMAND for one object (R384). -/
def objectApp (raw : BitVec 512) : List Nat :=
  let obis := leNats 6 (dByte raw 28 6)
  if dByte raw 24 1 = 1 then profileApp obis (dByte raw 36 8) (dByte raw 44 8)
  else 0 :: (obis ++ leNats 2 (dByte raw 26 2) ++ [dByte raw 25 1])

/-- The token gateway's method 1, with the token as an octet string (R389). -/
def tokenApp (token : List Byte) : List Nat := [2, 0, 0, 19, 40, 0, 255, 1, token.length] ++ token.map (·.toNat)

/-- The clock, in the record's local civil time with its deviation (15 R473). -/
def clockApp (s : State) (eid : Nat) (dt : Nat) : List Nat :=
  let r := recGet s eid
  let c := (calGet s (fld r.tariffBind 8 8)).bytes
  let sec := dt / 2 ^ 24
  if isDlms r then [1, 0, 0, 1, 0, 0, 255, 2] ++ leNats 8 (civilOf s c sec) ++ [tb2 c 2, b2n (dstAt c (stdOf s c sec))]
  else [3, 0x06, 0x6D] ++ leNats 8 (civilOf s c sec)

/-! ## Meter transactions (R371 to R374) -/

def txnOpen (s : State) : Nat := (s.cmd.txns.filter fun t => !t.waiting).length
def txnOf (s : State) (id : Nat) : Option Txn := s.cmd.txns.find? fun t => t.id == id
def txnsSet (s : State) (l : List Txn) : State := { s with cmd := { s.cmd with txns := l } }
def txnMod (s : State) (id : Nat) (g : Txn → Txn) : State :=
  txnsSet s (s.cmd.txns.map fun t => if t.id = id then g t else t)

/-- The lowest invoke-id, 0 to 15, no open transaction of the EID holds. -/
def freeInvoke (s : State) (eid : Nat) : Nat :=
  ((List.range 16).find? fun i => !s.cmd.txns.any fun t => t.eid == eid && !t.waiting && t.invoke == i).getD 0

/-- Whether one more transaction of an EID and class may open: 8 an EID, 65,536 in all, 64 of them TC0's alone. -/
def txnRoom (s : State) (eid cls : Nat) : Bool :=
  decide ((s.cmd.txns.filter fun t => t.eid == eid && !t.waiting).length < 8) &&
  decide (txnOpen s < if cls = 0 then 65536 else 65472)

/-- Open a transaction, or enter it as waiting (R371, R372); M-Bus transactions are known by access number. Its time limits
are those in force now (R399). -/
def txnNew (s : State) (eid cls what : Nat) (uid : Option Nat) (tag : BitVec 16) (obj : Bool) (coll : Nat) (ic : Word) :
    Nat × State :=
  let id := s.cmd.txnNext
  let room := txnRoom s eid cls
  let inv := if (recGet s eid).proto = 0 then freeInvoke s eid else ic.toNat % 256
  let t : Txn := { id := id, eid := eid, invoke := inv, cls := cls, what := what, uid := uid, tag := tag, obj := obj,
                   since := none, coll := coll, waiting := !room, idx := 0, respS := regFld s 0x700 12 12,
                   waitS := regFld s 0x700 0 12 }
  (id, { s with cmd := { s.cmd with txns := s.cmd.txns ++ [t], txnNext := id + 1 } })

/-- The oldest waiting transaction that finds room opens (R371, R372). -/
def txnPromote (s : State) : State :=
  match s.cmd.txns.find? fun t => t.waiting && txnRoom s t.eid t.cls with
  | some t => txnMod s t.id fun t =>
      { t with waiting := false, invoke := if (recGet s t.eid).proto = 0 then freeInvoke s t.eid else t.invoke }
  | none => s

/-- Close a transaction: its entry and its queued frame go, and a waiting one may open. -/
def txnClose (s : State) (id : Nat) : State :=
  txnPromote (txDropAll (txnsSet s (s.cmd.txns.filter fun t => t.id != id)) fun f => f.txn == some id)

/-- Every waiting transaction that finds room opens, the oldest first. -/
def txnPromoteAll (s : State) : State := s.cmd.txns.foldl (fun s _ => txnPromote s) s

/-- Close every transaction of a descriptor; waiting ones may open. -/
def txnCloseUid (s : State) (uid : Nat) : State :=
  txnPromoteAll (txDropAll (txnsSet s (s.cmd.txns.filter fun t => t.uid != some uid)) fun f => f.uid == some uid)

/-- Whether a transaction, if a frame has one, is open. -/
def txnReady (s : State) (id : Option Nat) : Bool :=
  match id with
  | none => true
  | some i => match txnOf s i with | some t => !t.waiting | none => true

/-- A command taken over from a silent chip reaches its outcome here (13 R421, R424). -/
def tkoSettle (s : State) (uid : Option Nat) (st step : Nat) : State :=
  let g : TkoEnt → TkoEnt := fun e =>
    if some e.uid = uid ∧ e.status = none then
      { e with status := some (BitVec.ofNat 8 st), progress := progWord step 0, dt := dtOf s }
    else e
  { s with harn := { s.harn with tko := s.harn.tko.map g } }

/-! ## Queueing a downlink frame (R373) -/

/-- A kennel lookup by outbound work: a hit, or a miss and a load (06 R203, R204). None: it waits for a slot or a pipeline. -/
def outLookup (s : State) (eid : Nat) (b : Blob) : Option State :=
  let hit := (slotFind s (epHandle eid) b.gen 2).isSome
  ensureEp (cnt s (if hit then 236 else 237)) eid (some b) false

/-- Protect a frame: its key from the kennel, its blocks through a pipeline (05 R153). Where either is lacking the frame
waits unprotected, and is not sent. -/
def frameSeal (s : State) (f : TxF) : State × TxF :=
  match outKey s f.eid (f.tc == 0) with
  | .status _ => (s, f)
  | .ok b =>
    match outLookup s f.eid b with
    | none => (s, f)
    | some s =>
      match slotFind s (epHandle f.eid) b.gen 2 with
      | none => (s, f)
      | some i =>
        match cipherRun (slotHand s i).1 f.tc (slotHand s i).2 (blocks16 f.bytes.length) with
        | (s, p) => (s, { f with enc := p.isSome })

/-- Whether the key of an outbound descriptor's frame is in the kennel, loaded where it was not. None: the descriptor waits
(06 R205). -/
def outSlot (s : State) (eid : Nat) (tc0 : Bool) : Option State :=
  match outKey s eid tc0 with
  | .ok b => ensureEp s eid (some b) false
  | .status _ => some s

/-- Whether a descriptor has not begun, or waits for a slot. -/
def unbegun : Stage → Bool
  | .none => true
  | .wait _ 0 0 => true
  | _ => false

/-- A frame of the command path for an endpoint, protected and queued to the channel its ATTACH names. `app`: what it asks
of the meter. -/
def sendFrame (s : State) (eid tc what arg : Nat) (app : List Nat) (ic : Word) (uid txn : Option Nat) : State :=
  let f : TxF := { id := 0, uid := uid, txn := txn, eid := eid, tc := tc, ic := ic, what := what, arg := arg,
                   bytes := Config.downFrame what (eid :: ic.toNat :: app), admitted := 0, sent := 0, since := 0, retry := false,
                   backoffs := 0, tries := 0, dutyWait := none, enc := false, queued := false }
  let (s, f) := frameSeal s f
  txQueue s (chanOf s eid) f

/-- Whether a channel can take a frame of the command path; otherwise CHANNEL_DOWN (10 R324). -/
def chUp (s : State) (eid : Nat) : Bool := chOn s (chanOf s eid)

/-- Whether frames of a class find no synchronisation on a slotted member channel and none is waited for (11 R348,
R350): RESYNC or DROPPED, and no TC0 frame by listen-before-talk. -/
def chUnsynced (s : State) (ch tc : Nat) : Bool :=
  (macGet s ch).sync ≥ 5 && !(tc == 0 && tb (plan s) (sfAt (chProfile s ch) + 30) % 2 == 1)

/-- Why a frame of a class for an endpoint cannot go to its channel: the status (10 R325, 11 R348). -/
def chRefuse (s : State) (eid tc : Nat) : Option Nat :=
  if chanOf s eid = 64 then none
  else if !chUp s eid then some stChDown
  else if chUnsynced s (chanOf s eid) tc then some stNoSync else none

/-- The completion count a record of a group and class will be written at on its reading ring (02 R67): what the ring
has written, and what waits for it. -/
def routeGC (s : State) (group cls : Nat) : Nat :=
  let w := regGet s (0x2600 + 4 * (4 * group + cls))
  if wbit w 31 then fld w 0 4 else 0

def willWrite (s : State) (group cls : Nat) : Nat :=
  let r := routeGC s group cls
  (rrGet s r).w.toNat + (s.host.deliv.filter fun d => routeOf s d == r).length +
    (s.sealU.queue.filter fun d => routeGC s d.group d.cls == r).length

/-- A request with a counter of its own: counter, transaction, frame. The caller has tested the key. -/
def sendRequest (s : State) (eid cls what arg : Nat) (app : List Nat) (uid : Option Nat) (tag : BitVec 16) (obj : Bool) (coll : Nat) :
    Nat × State :=
  let (ic, s) := icTake s eid
  let (id, s) := txnNew s eid cls what uid tag obj coll ic
  (id, sendFrame s eid cls what arg app ic uid (some id))

/-- Why an outbound descriptor of an endpoint completes with no step done (R219, R377). -/
def outRefuse (s : State) (eid : Nat) (tc0 : Bool) : Option Nat :=
  match outKey s eid tc0 with
  | .status st => some st
  | .ok _ => if icExhausted (recView s eid) then some stRevoked else none

/-- Refuse an outbound descriptor; a spent counter space sets ALARMS bit 3 (R377). -/
def outReject (s : State) (f : Flight) (eid st : Nat) : State :=
  reject (if icExhausted (recView s eid) then setAlarm s eid 3 else s) f st 0

/-- Complete LINK_LOST with byte 20. -/
def linkLost (s : State) (f : Flight) (step b20 : Nat) : State := complete s f stLinkLost step 0 (result4 0 b20 0 0)

end Sys2Proof.Machine
end

