-- ==== Sys2Proof/Machine/Ledger.lean ====
section
/-!
DEFINITION. Prepayment and relays (08 R272 to R280, 12 R378 to R381): the ledger and its moves, relay commands of the
host and of the ledger, feedback and its timer, OP_LEDGER_ADJUST.
-/
namespace Sys2Proof.Machine
open Sys2Proof

/-! ## The ledger (R272 to R274) -/

def pFlag (p : Prepay) (i : Nat) : Bool := p.flags.toNat / 2 ^ i % 2 == 1
def pSet (p : Prepay) (i : Nat) (b : Bool) : Prepay :=
  { p with flags := BitVec.ofNat 8 (p.flags.toNat - b2n (pFlag p i) * 2 ^ i + b2n b * 2 ^ i) }

/-- The floor of R273. -/
def ledgerFloor (p : Prepay) : Int := if pFlag p 1 then -(p.emergAvail.toNat : Int) else 0
def exhausted (p : Prepay) : Bool := decide (p.credit.toInt ≤ ledgerFloor p)

/-- LOW_CREDIT follows CREDIT and LOW_THRESH. -/
def ledgerLow (p : Prepay) : Prepay := pSet p 4 (decide (p.credit.toInt ≤ (p.lowThresh.toNat : Int)))

/-- Enter a ledger state; RECONNECT_DUE is left behind with DISCONNECTED (log entry 22). -/
def ledgerEnter (p : Prepay) (st : Nat) (dt : BitVec 64) : Prepay :=
  pSet { p with lstate := BitVec.ofNat 8 st, stateDt := dt } 5 false

/-- The state a ledger with credit stands in: EMERGENCY while EMERG_ACTIVE, else CREDIT. -/
def creditState (p : Prepay) : Nat := if pFlag p 1 then 1 else 0

/-- The move of an exhausted ledger: a friendly hold, or a disconnect (R274). -/
def ledgerOut (p : Prepay) (friendly : Bool) (dt : BitVec 64) : Prepay × Option Nat :=
  if friendly then (ledgerEnter p 2 dt, none) else (ledgerEnter p 3 dt, some 2)

/-- One move of the table of R274 that needs no feedback; the relay command it issues as COMMANDED. -/
def ledgerMove (p : Prepay) (friendly : Bool) (dt : BitVec 64) : Option (Prepay × Option Nat) :=
  match p.lstate.toNat with
  | 0 =>
    if p.credit.toInt ≤ 0 ∧ pFlag p 0 = true ∧ p.emergAvail ≠ 0 then some (ledgerEnter (pSet p 1 true) 1 dt, none)
    else if exhausted p then some (ledgerOut p friendly dt) else none
  | 1 =>
    if 0 < p.credit.toInt then some (ledgerEnter (pSet (pSet p 0 false) 1 false) 0 dt, none)
    else if exhausted p then some (ledgerOut p friendly dt) else none
  | 2 =>
    if !exhausted p then some (ledgerEnter p (creditState p) dt, none)
    else if friendly then none else some (ledgerEnter p 3 dt, some 2)
  | 4 =>
    if exhausted p then none
    else if pFlag p 2 then some (ledgerEnter p 5 dt, some 1)
    else if pFlag p 5 then none else some (pSet p 5 true, none)
  | _ => none

/-- Moves until none is left or a command is issued. -/
def ledgerMoves (friendly : Bool) (dt : BitVec 64) : Nat → Prepay → Prepay × Option Nat
  | 0, p => (p, none)
  | n + 1, p =>
    match ledgerMove p friendly dt with
    | none => (p, none)
    | some (p', some c) => (p', some c)
    | some (p', none) => ledgerMoves friendly dt n p'

/-- The evaluation of R274: none while EVAL_HOLD. -/
def ledgerEval (p : Prepay) (friendly : Bool) (dt : BitVec 64) : Prepay × Option Nat :=
  let p := ledgerLow p
  if pFlag p 3 then (p, none) else ledgerMoves friendly dt 8 p

/-- Tariff and calendar of a record. -/
def epTariff (r : EpRec) : Nat := fld r.tariffBind 0 8
def epCal (r : EpRec) : Nat := fld r.tariffBind 8 8
def epMask (r : EpRec) : Nat := fld r.tariffBind 16 8

/-- Whether the present device time is in a friendly window of a record's tariff and calendar (R273). -/
def friendlyNow (s : State) (r : EpRec) : Bool :=
  let sec := (dtOf s).toNat / 2 ^ 24
  let c := (calGet s (epCal r)).bytes
  match versionAt (tarGet s (epTariff r)) sec with
  | some t => !c.isEmpty && (rateAt t (civilOf s c sec)).2
  | none => false

/-- Debit a segment (R273); records in postpay accrue none. -/
def ledgerDebit (r : EpRec) (e price : Nat) : EpRec :=
  if r.billing then
    let a := e * price + r.prepay.residue.toNat
    { r with prepay := { r.prepay with credit := r.prepay.credit - BitVec.ofNat 64 (a / 1000),
                                       residue := BitVec.ofNat 16 (a % 1000) } }
  else r

/-! ## The RELAY word (R275) -/

def relayCmd (w : Word) : Nat := fld w 0 2
def relayConf (w : Word) : Nat := fld w 2 2
def relayPend (w : Word) : Bool := wbit w 4

/-- RELAY as a command leaves it. -/
def relayCommanded (w : Word) (cmd cause : Nat) (ic : Word) : Word :=
  setFld (setFld (setFld (setFld w 0 2 cmd) 4 1 1) 6 2 cause) 16 16 (ic.toNat % 65536)

def relayPut (s : State) (eid : Nat) (t : RelayT) : State :=
  { s with cmd := { s.cmd with relays := tset RelayT.none s.cmd.relays eid t } }

/-- The frame kind of COMMANDED: 0 disconnect, 1 reconnect, 2 load limit. -/
def relayWhat (cmd : Nat) : Nat := if cmd = 2 then 0 else if cmd = 1 then 1 else 2

/-- The relay command frame of a counter already taken: transaction and frame, the frame gated by its mirror (13 R413,
04 TC0). -/
def relayFrame (s : State) (eid what arg : Nat) (ic : Word) (uid : Option Nat) (tag : BitVec 16) : State :=
  let (id, s) := txnNew s eid 0 what uid tag false 0 ic
  sendFrame s eid 0 what arg (relayApp (recGet s eid) what arg) ic uid (some id)

/-- The number the gate of a relay command without a descriptor goes by. -/
def ownGate (eid : Nat) (ic : Word) : Nat := eid * 2 ^ 32 + ic.toNat

/-- A ledger move: the record with its new PREPAY in one state entry, and the relay command it issues (R274, R280). A
command whose key or counter is missing sends no frame; its timer runs all the same (log entry 23). -/
def ledgerApply (s : State) (eid : Nat) (r : EpRec) (cmd : Option Nat) : State :=
  match cmd with
  | none => if r = recView s eid then s else cmdChange s eid r
  | some c =>
    let ok := (outRefuse s eid true).isNone
    let ic := r.txIcHwm + 1
    let spent := icExhausted r
    let r := if ok then { r with txIcHwm := ic, relay := relayCommanded r.relay c 1 ic }
             else { r with relay := relayCommanded r.relay c 1 r.txIcHwm }
    let s := cnt (cmdChange s eid r) (if c = 2 then 329 else 330)
    let s := relayPut s eid ⟨s.tcxo, regFld s 0x600 0 12, if ok then ic else 0, 0, none, 0, 0⟩
    if ok then relayFrame (mirrorGated s 0x13 [eid, ic.toNat] 4 (ownGate eid ic)) eid (relayWhat c) 0 ic none 0
    else if spent then setAlarm s eid 3 else s

/-- Evaluate a record's ledger and apply what moves (R274). -/
def ledgerRun (s : State) (eid : Nat) : State :=
  let r := recView s eid
  if r.billing then
    let (p, c) := ledgerEval r.prepay (friendlyNow s r) (dtOf s)
    ledgerApply s eid { r with prepay := p } c
  else s

/-! ## Feedback (R276, R277, 12 R381) -/

/-- The ledger's move at feedback; `rep` none: timeout. -/
def ledgerFeedback (p : Prepay) (cmd : Nat) (rep : Option Nat) (dt : BitVec 64) : Prepay :=
  if pFlag p 3 then p
  else match p.lstate.toNat with
    | 3 => if rep = some 2 then ledgerEnter p 4 dt else ledgerEnter p 6 dt
    | 5 => if rep = some 1 then ledgerEnter p (creditState p) dt else ledgerEnter p 6 dt
    | 6 => if rep = some cmd then (if cmd = 2 then ledgerEnter p 4 dt else ledgerEnter p (creditState p) dt) else p
    | _ => p

/-- OUTCOME of R277; none: a report that answers no command and repeats CONFIRMED (log entry 24). -/
def relayOutcome (w : Word) (rep : Option Nat) : Option Nat :=
  match rep with
  | none => some 2
  | some r =>
    if relayPend w then some (if r = relayCmd w then 0 else 1)
    else if r = relayCmd w then some 4
    else if r = relayConf w then none else some 3

/-- RELAY as feedback leaves it. -/
def relaySettled (w : Word) (rep : Option Nat) (out : Nat) : Word :=
  let w := match rep with | some r => setFld w 2 2 r | none => w
  setFld (setFld w 4 1 0) 5 1 (b2n (out == 1 || out == 2 || out == 3))

/-- DETAIL of a KIND 4 record. -/
def relayDetail (r : EpRec) (rep : Option Nat) (out : Nat) (ic : Word) : BitVec 128 :=
  BitVec.ofNat 128 (relayCmd r.relay + 2 ^ 8 * rep.getD 0xFF + 2 ^ 16 * (if r.billing then r.prepay.lstate.toNat else 0xFF) +
    2 ^ 24 * out + 2 ^ 32 * ic.toNat + 2 ^ 64 * (if r.billing then r.prepay.credit.toNat else 0))

/-- Act on feedback or on a timeout: the record, its KIND 4 reading, the alarm, the evaluation (R277, R274). -/
def relayFeedback (s : State) (eid : Nat) (rep : Option Nat) : State :=
  let r := recView s eid
  match relayOutcome r.relay rep with
  | none => s
  | some out =>
    let t := tget RelayT.none s.cmd.relays eid
    let ic := if relayPend r.relay then t.ic else 0
    let cls := if relayPend r.relay then t.cls else 0
    let bad := out == 1 || out == 2 || out == 3
    let p := if r.billing && (relayPend r.relay || r.prepay.lstate == 6) then ledgerFeedback r.prepay (relayCmd r.relay) rep (dtOf s) else r.prepay
    let r := { r with prepay := p, relay := relaySettled r.relay rep out,
                      alarms := if bad then r.alarms ||| 2 else r.alarms }
    let s := relayPut (cmdChange s eid r) eid RelayT.none
    let s := if bad then unsolicited (cnt s 331) 4 eid (routeGC s (epGroup r) cls) (willWrite s (epGroup r) cls)
                (out + 2 ^ 8 * relayCmd r.relay + 2 ^ 16 * rep.getD 0xFF +
                  2 ^ 24 * (if r.billing then p.lstate.toNat else 0xFF)) else s
    let rd := { ownRecord s eid 4 cls with detail := relayDetail r rep out ic }
    let (rid, s) := storeReading s rd false none 0
    ledgerRun (recordOut s rd (epGroup r) cls false rid none) eid

/-- RELAY_CONFIRMATION_TIMEOUT (R277): the timer has run and the command still awaits feedback. -/
def relayTimeout (s : State) (eid : Nat) : State :=
  let t := tget RelayT.none s.cmd.relays eid
  if t ≠ RelayT.none ∧ relayPend (recView s eid).relay = true ∧ msPassed s t.since (1000 * t.secs) = true then
    relayFeedback s eid none
  else s

/-! ## Relay commands of the host (12 R378, R379) -/

/-- The ledger's move at a host relay command (R274). -/
def ledgerHost (r : EpRec) (reconnect : Bool) (dt : BitVec 64) : Prepay :=
  let p := r.prepay
  if !r.billing || pFlag p 3 then p
  else if p.lstate = 4 ∧ reconnect = true ∧ exhausted p = false then ledgerEnter p 5 dt
  else ledgerEnter p 7 dt

/-- Steps 1 to 3 of a relay command (R379); step 4 ends at the link acknowledgement. -/
def relayRow (s : State) (f : Flight) (cmd arg : Nat) : State :=
  let eid := dEid f.raw
  let r := recView s eid
  match unbegun f.stage, outRefuse s eid true, outSlot s eid true with
  | true, some st, _ => outReject s f eid st
  | true, none, none => slotWait s f
  | true, none, some s =>
    let ic := r.txIcHwm + 1
    let r := { r with txIcHwm := ic, relay := relayCommanded r.relay cmd 0 ic, prepay := ledgerHost r (dOpcode f.raw == 0x41) (dtOf s) }
    let s := cmdChange s eid r
    let s := relayPut s eid ⟨f.adm, regFld s 0x600 0 12, ic, 0, some f.uid, dTag f.raw, arg⟩
    let s := mirrorGated s 0x13 [f.uid, eid, ic.toNat] 2 f.uid
    match chRefuse s eid 0 with
    | some st => complete s f st 3 0 0
    | none =>
      let s := relayFrame s eid (dOpcode f.raw - 0x40) arg ic (some f.uid) (dTag f.raw)
      setProgress s { f with stage := .relay ic f.adm false cmd } 3 0
  | false, _, _ => s

def opDisconnect (s : State) (uid : Nat) : State := withDesc s uid 0x40 fun f => relayRow s f 2 0
def opReconnect (s : State) (uid : Nat) : State := withDesc s uid 0x41 fun f => relayRow s f 1 0

/-- OP_LOAD_LIMIT: DLMS/COSEM only (R378); a LIMIT_W of 0 removes the limit, so COMMANDED is connected (log entry 25). -/
def opLoadLimit (s : State) (uid : Nat) : State :=
  withDesc s uid 0x42 fun f =>
    let w := dByte f.raw 24 4
    if (recGet s (dEid f.raw)).proto ≠ 0 then badParam s f 0
    else relayRow s f (if w = 0 then 1 else 3) (if w = 0 then 0xFFFFFFFF else w)

/-! ## OP_LEDGER_ADJUST (R278) -/

def laAmount (raw : BitVec 512) : Int := (BitVec.ofNat 64 (dByte raw 32 8)).toInt

/-- AMOUNT's range for an action. -/
def laRange (act : Nat) (a : Int) : Bool :=
  match act with
  | 0 => decide (0 < a)
  | 1 => decide (0 < a)
  | 2 => decide (0 ≤ a) && decide (a < 2 ^ 32)
  | 3 => decide (0 ≤ a) && decide (a < 2 ^ 32)
  | 4 => a == 0 || a == 1
  | _ => true

/-- PREPAY as an action leaves it, EVAL_HOLD cleared. -/
def laApply (r : EpRec) (act : Nat) (a : Int) (topup : Word) (dt : BitVec 64) : Prepay :=
  let p := r.prepay
  let p := match act with
    | 0 => { p with credit := p.credit + BitVec.ofInt 64 a, lastTopup := topup }
    | 1 => { p with credit := p.credit - BitVec.ofInt 64 a }
    | 2 => pSet { p with emergAvail := BitVec.ofInt 32 a } 0 (decide (0 < a))
    | 3 => { p with lowThresh := BitVec.ofInt 32 a }
    | 4 => pSet p 2 (a == 1)
    | _ => if p.lstate = 6 ∨ p.lstate = 7 then
             ledgerEnter p (if relayConf r.relay = 2 then 4 else creditState p) dt
           else p
  pSet p 3 false

def laResult (s : State) (eid : Nat) (same : Nat) : BitVec 128 :=
  let p := (recGet s eid).prepay
  result4 (same + 256 * p.lstate.toNat) (p.credit.toNat % 2 ^ 32) (p.credit.toNat / 2 ^ 32) 0

/-- Bytes an action leaves unused. -/
def laUnused (act : Nat) : List (Nat × Nat) :=
  if act = 0 then [] else if act = 5 then [(28, 4), (32, 8)] else [(28, 4)]

/-- One action of OP_LEDGER_ADJUST. -/
def ledgerAdjust (s : State) (uid act : Nat) : State :=
  withSub s uid 0x52 24 act [0, 1, 2, 3, 4, 5] fun f =>
    let eid := dEid f.raw
    let r := recView s eid
    let a := laAmount f.raw
    let topup := BitVec.ofNat 32 (dByte f.raw 28 4)
    if dByte f.raw 24 1 ≠ act then badParam s f 24
    else ifUnused s f (laUnused act) <|
      if !r.billing then badParam s f 4
      else if !laRange act a then badParam s f 32
      else if act = 0 ∧ topup = r.prepay.lastTopup then completeOk s f 1 (laResult s eid 1)
      else
        let p := laApply r act a topup (dtOf s)
        let (p, c) := ledgerEval p (friendlyNow s r) (dtOf s)
        let r := { r with prepay := p }
        let s := if c.isNone then cmdChange s eid r else ledgerApply s eid r c
        completeOk s f 3 (laResult s eid 0)

end Sys2Proof.Machine
end

