-- ==== Sys2Proof/Machine/Billing.lean ====
section
/-!
DEFINITION. The posting engine's arithmetic (08 R252 to R266, R270): period closes and their snapshot blocks, demand,
allocation over a span cut at its boundaries, late energy, the debit of each segment.
-/
namespace Sys2Proof.Machine
open Sys2Proof

/-! ## Snapshot blocks and closes (R260 to R263) -/

/-- SNAP_FLAGS. -/
def snapFlags (r : EpRec) (final live noTar : Bool) : Nat :=
  b2n r.demand.periodOutage + 2 * b2n r.demand.subSat + 4 * b2n (r.late.cnt != 0) + 8 * b2n final + 16 * b2n live +
    32 * b2n noTar

/-- RATE_COUNT of the version in force at a second; 0 without a tariff. -/
def rateCount (s : State) (r : EpRec) (sec : Nat) : Nat :=
  match versionAt (tarGet s (epTariff r)) sec with
  | some t => tb t 6
  | none => 0

/-- Whether a record's tariff and calendar are both loaded (R252). -/
def bound (s : State) (r : EpRec) : Bool := (tarGet s (epTariff r)).cur.isSome && calLoaded s (epCal r)

/-- The 256-byte snapshot block (R262). `cause`: 0 calendar, 1 final, 255 live. -/
def snapBlock (s : State) (eid : Nat) (r : EpRec) (cause : Nat) (dtEnd : BitVec 64) (rates : Nat) : List Byte :=
  leBytes 4 eid ++ leBytes 4 r.period.toNat ++ leBytes 8 dtEnd.toNat ++ leBytes 8 (dtOf s).toNat ++ leBytes 1 cause ++
  leBytes 1 (epTariff r) ++ leBytes 1 (epCal r) ++ leBytes 1 rates ++ leBytes 4 r.writeSeq.toNat ++
  ((List.range 8).map fun i => leBytes 8 (tget 0 r.energy i).toNat).flatten ++
  ((List.range 16).map fun i => leBytes 8 (tget 0 r.rate i).toNat).flatten ++ leBytes 4 r.demand.maxD.toNat ++
  leBytes 8 r.demand.maxDt.toNat ++ leBytes 8 r.late.lateE.toNat ++ leBytes 4 r.late.cnt.toNat ++
  leBytes 4 r.late.oldest.toNat ++ leBytes 4 (snapFlags r (cause == 1) (cause == 255) (!bound s r))

/-- A record as a close leaves it (R261 steps 3 and 4). -/
def closedRec (r : EpRec) (final : Bool) : EpRec :=
  { r with rate := [], late := LateAdj.zero,
           demand := { r.demand with maxD := 0, maxDt := 0, periodOutage := false },
           period := if final then r.period else r.period + 1 }

/-- Close a record's period at an instant: block, store entry, KIND 3 reading, one WRITE_SEQ (R261, R263). -/
def closePeriod (s : State) (eid : Nat) (r : EpRec) (final : Bool) (sec : Nat) : State × EpRec :=
  let dtEnd := if final then dtOf s else BitVec.ofNat 64 (sec * 2 ^ 24)
  let r := stamped s r
  let blk := snapBlock s eid r (b2n final) dtEnd (rateCount s r (if final then sec else sec - 1))
  let s := storeQueue s { ssn := 0, typ := 2, quar := false, eid := BitVec.ofNat 32 eid, dt := dtEnd, rid := 0,
                          post := none, pw := 0, rd := none, body := blk }
  let rd := { ownRecord s eid 3 3 with
    meterTime := dtEnd, writeSeq := r.writeSeq, period := r.period, detail := (Config.sha256 blk).setWidth 128 }
  let s := cnt (recordOut s rd (epGroup r) 3 false 0 none) 327
  let r' := closedRec r final
  (recPut (appendState s r'.writeSeq (.epRec eid r')) eid r', r')

/-! ## Demand (R258, R259) -/

/-- SUB_UNIT in Wh. -/
def subUnit (t : List Byte) : Nat :=
  let c := tb t 8 / 4 % 4
  if c = 0 then 1 else if c = 1 then 10 else 100

/-- consider(D) of R259. -/
def consider (d : Demand) (w : Nat) (endSec : Nat) : Demand × Bool :=
  if d.maxD.toNat < w then ({ d with maxD := BitVec.ofNat 32 w, maxDt := BitVec.ofNat 64 (endSec * 2 ^ 24) }, true)
  else (d, false)

/-- The newest `n` entries of the ring, added up. -/
def subSum (d : Demand) (n : Nat) : Nat :=
  ((List.range n).map fun i => (tget 0 d.sub ((d.head + 13 - i) % 14)).toNat).sum

/-- Demand at the close of a sub-interval of `e` Wh; none: not evaluated. With it the ring as sliding demand leaves
it. -/
def subDemand (t : List Byte) (d : Demand) : Option Nat × Demand :=
  let l := tb t 9 * 60
  let e := d.curAcc.toNat
  if tb t 8 % 4 = 1 then (some (e * 3600 / max 1 l), d)
  else
    let u := e / subUnit t
    let sat := decide (65535 < u)
    let u := min u 65535
    let n := tb t 10 - 1
    let w := if n ≤ d.filled then some ((u + subSum d n) * subUnit t * 3600 / max 1 l) else none
    (w, { d with sub := tset 0 d.sub d.head (BitVec.ofNat 16 u), head := (d.head + 1) % 14,
                 filled := min (d.filled + 1) 14, subSat := d.subSat || sat })

/-- Close the sub-interval that ends at an instant: evaluate demand unless the record has closed the period it lies in
(R259); whether the maximum moved. -/
def subClose (s : State) (r : EpRec) (t : List Byte) (sec num : Nat) : EpRec × Bool :=
  let cal := calGet s (epCal r)
  let start := sec - subLen t
  let rate := (rateAt ((versionAt (tarGet s (epTariff r)) start).getD t) (civilOf s cal.bytes start)).1
  let (w, d) := subDemand t r.demand
  let open_ := decide (periodStart s cal r.period.toNat ≤ start)
  let (d, hit) := match w with
    | some w => if open_ && tb2 t 12 / 2 ^ rate % 2 == 1 then consider d w sec else (d, false)
    | none => (d, false)
  ({ r with demand := { d with curAcc := 0, curNum := BitVec.ofNat 32 num } }, hit)

/-! ## Applying the boundaries of an instant (R255) -/

/-- What a posting has gathered: the state, the record, POST_FLAGS bits 0 to 2, and whether a segment went to
LATE_ADJ. -/
structure Post where
  s    : State
  r    : EpRec
  dem  : Bool
  late : Bool
  out  : Bool

/-- Close every period that ends at or before an instant, each in turn (R260). -/
def closeDue (eid sec : Nat) : Nat → State × EpRec → State × EpRec
  | 0, p => p
  | n + 1, (s, r) =>
    match boundary s (calGet s (epCal r)) r.period.toNat with
    | some b => if b ≤ sec then closeDue eid sec n (closePeriod s eid r false b) else (s, r)
    | none => (s, r)

/-- The boundaries of an instant on one record: sub-interval and demand, period, then the tariff's renumbering of the
open sub-interval where the version in force changes its length (R255, R256). -/
def applyAt (eid sec : Nat) (p : Post) : Post :=
  let e := tarGet p.s (epTariff p.r)
  let cal := (calGet p.s (epCal p.r)).bytes
  match versionAt e (sec - 1), versionAt e sec with
  | some t, some t' =>
    let l := subLen t
    let std := stdOf p.s cal sec
    let (r, hit) := if l ≠ 0 ∧ std % l = 0 ∧ p.r.demand.curNum.toNat < std / l then subClose p.s p.r t sec (std / l)
                    else (p.r, false)
    let (s, r) := closeDue eid sec 64 (p.s, r)
    let r := if subLen t' ≠ l ∧ subLen t' ≠ 0 then
               { r with demand := { r.demand with curNum := BitVec.ofNat 32 (std / subLen t') } } else r
    { p with s := s, r := r, dem := p.dem || hit }
  | _, _ => p

/-! ## Cutting a span (R256) -/

/-- Insert into an ascending list without repeats. -/
def insertAsc (x : Nat) : List Nat → List Nat
  | [] => [x]
  | y :: t => if x < y then x :: y :: t else if x = y then y :: t else y :: insertAsc x t

/-- Demand sub-interval ends from an instant on, below another. -/
def subEnds (s : State) (e : TarEnt) (cal : List Byte) (hi : Nat) : Nat → Nat → List Nat
  | 0, _ => []
  | n + 1, t =>
    match versionAt e t with
    | none => []
    | some v =>
      let l := subLen v
      if l = 0 then []
      else
        let t := t + (l - stdOf s cal t % l)
        if t < hi then t :: subEnds s e cal hi n t else []

/-- Closes after an instant, below another. -/
def closesUp (s : State) (cal : List Byte) (hi : Nat) : Nat → Nat → List Nat
  | 0, _ => []
  | n + 1, t =>
    match nextClose s cal t with
    | some b => if b < hi then b :: closesUp s cal hi n b else []
    | none => []

/-- Closes back from an instant, above another. -/
def closesDown (s : State) (cal : List Byte) (lo : Nat) : Nat → Nat → List Nat
  | 0, _ => []
  | n + 1, t =>
    match prevClose s cal t with
    | some b => if lo < b then b :: closesDown s cal lo n b else []
    | none => []

/-- Close boundaries strictly between two instants: executed ones back from the last, and those after it. -/
def closesIn (s : State) (c : CalEnt) (lo hi : Nat) : List Nat :=
  let last := c.lastClose.toNat / 2 ^ 24
  let back := if c.everClosed then last :: closesDown s c.bytes lo (last - lo) last else []
  (back ++ closesUp s c.bytes hi (hi - last) last).filter fun t => decide (lo < t ∧ t < hi)

/-- Day-profile switches and version activations strictly between two instants. -/
def switchesIn (s : State) (e : TarEnt) (cal : List Byte) (lo hi : Nat) : List Nat :=
  let vers := (e.prev.toList ++ e.cur.toList)
  let d0 := civilOf s cal lo / 86400 - 1
  let d1 := civilOf s cal hi / 86400 + 1
  let sw := (vers.map fun v => ((List.range (d1 + 1 - d0)).map fun k =>
    (daySwitches s v.bytes cal (d0 + k)).filter fun t => versionAt e t == some v.bytes).flatten).flatten
  (sw ++ vers.map fun (v : TarVer) => v.act.toNat / 2 ^ 24).filter fun t => decide (lo < t ∧ t < hi)

/-- Every cut of a span, ascending. -/
def spanCuts (s : State) (r : EpRec) (lo hi : Nat) : List Nat :=
  let e := tarGet s (epTariff r)
  let c := calGet s (epCal r)
  (switchesIn s e c.bytes lo hi ++ subEnds s e c.bytes hi (hi - lo) lo ++ closesIn s c lo hi).foldl
    (fun l x => insertAsc x l) []

/-- Segments between successive points. -/
def segments : List Nat → List (Nat × Nat)
  | a :: b :: t => (a, b) :: segments (b :: t)
  | _ => []

/-- How many segments take a Wh of the remainder before segment `i`: a larger remainder, or an equal one that stands
later. -/
def beforeInRank (rems : List Nat) (i : Nat) : Nat :=
  ((List.range rems.length).filter fun j =>
    decide (lget 0 rems i < lget 0 rems j) || (lget 0 rems i == lget 0 rems j && decide (i < j))).length

/-- The Wh of each segment: by length, the rest to the largest remainders, ties to the later (R256). -/
def shares (de : Nat) (segs : List (Nat × Nat)) (l : Nat) : List Nat :=
  let base := segs.map fun g => de * (g.2 - g.1) / l
  let rems := segs.map fun g => de * (g.2 - g.1) % l
  let left := de - base.sum
  (List.range segs.length).map fun i => lget 0 base i + b2n (decide (beforeInRank rems i < left))

/-! ## Posting a segment -/

/-- The period that holds an instant, at or below `p`. -/
def periodAt (s : State) (c : CalEnt) (sec : Nat) : Nat → Nat
  | 0 => 0
  | p + 1 => match boundary s c p with
    | some b => if b ≤ sec then p + 1 else periodAt s c sec p
    | none => p + 1

/-- Whether a span overlaps one of the outage windows (R270). -/
def inOutage (s : State) (lo hi : Nat) : Bool :=
  s.bill.outages.any fun w => decide (lo * 2 ^ 24 < w.2.toNat) && decide (w.1.toNat < max hi (lo + 1) * 2 ^ 24)

/-- Energy that falls in a closed period (R264). -/
def lateAdd (p : Post) (period e : Nat) : EpRec :=
  let l := p.r.late
  { p.r with late := { lateE := l.lateE + BitVec.ofNat 64 e, cnt := if p.late then l.cnt else l.cnt + 1,
                       oldest := if l.cnt = 0 ∧ !p.late then BitVec.ofNat 32 period
                                 else if period < l.oldest.toNat then BitVec.ofNat 32 period else l.oldest } }

/-- Post one segment of `e` Wh: RATE or LATE_ADJ, CUR_ACC, the debit, the outage marks (R256, R264, R270, R273). -/
def postSeg (lo hi e : Nat) (p : Post) : Post :=
  let c := calGet p.s (epCal p.r)
  match versionAt (tarGet p.s (epTariff p.r)) lo with
  | none => p
  | some t =>
    let rate := (rateAt t (civilOf p.s c.bytes lo)).1
    let late := decide (lo < periodStart p.s c p.r.period.toNat)
    let r := if late then lateAdd p (periodAt p.s c lo p.r.period.toNat) e
             else { p.r with rate := tset 0 p.r.rate rate (tget 0 p.r.rate rate + BitVec.ofNat 64 e) }
    let r := { r with demand := { r.demand with curAcc := r.demand.curAcc + BitVec.ofNat 32 e } }
    let r := ledgerDebit r e (tb4 t (944 + 4 * rate))
    let out := inOutage p.s lo hi
    let r := if out then { r with demand := { r.demand with periodOutage := true } } else r
    { p with s := if late then cnt p.s 328 else p.s, r := r, late := p.late || late, out := p.out || out }

/-- Every segment in time order, the boundaries at its start first. -/
def postSegs (eid : Nat) : List ((Nat × Nat) × Nat) → Post → Post
  | [], p => p
  | ((lo, hi), e) :: t, p => postSegs eid t (postSeg lo hi e (applyAt eid lo p))

/-- Allocate an increase of RATE_REG up to a meter time (R256); the rate of the last segment. -/
def allocate (eid : Nat) (mt : BitVec 64) (de : Nat) (p : Post) : Post × Nat :=
  let t0 := p.r.demand.allocDt.toNat / 2 ^ 24
  let t1 := mt.toNat / 2 ^ 24
  let e := tarGet p.s (epTariff p.r)
  let cal := (calGet p.s (epCal p.r)).bytes
  let rate := fun sec => match versionAt e sec with | some t => (rateAt t (civilOf p.s cal sec)).1 | none => 0xFF
  let done := fun (p : Post) => { p with r := { p.r with demand := { p.r.demand with allocDt := mt } } }
  if t1 ≤ t0 then (done (postSeg t1 t1 de p), rate t1)
  else
    let segs := segments (t0 :: spanCuts p.s p.r t0 t1 ++ [t1])
    let p := postSegs eid (segs.zip (shares de segs (t1 - t0))) p
    (done (applyAt eid t1 p), rate ((segs.getLast?.map (·.1)).getD t0))

/-! ## Posting a reading (R252, R256) -/

/-- One Firn log event for each tariff or calendar not loaded, once a start (R252). -/
def warnMissing (s : State) (key kind id : Nat) (have_ : Bool) : State :=
  if have_ || tget false s.bill.warned key then s
  else logEvent 0x0402 (kind + 256 * id) { s with bill := { s.bill with warned := tset false s.bill.warned key true } }

/-- A delta as the reading record holds it, saturated (R136 bit 19). -/
def delta32 (d : Int) : Word :=
  if d < -(2 ^ 31) then 0x80000000 else if 2 ^ 31 ≤ d then 0x7FFFFFFF else BitVec.ofInt 32 d

/-- Carried registers under REG_MASK. -/
def carried (r : EpRec) (regs : List (Nat × BitVec 64)) : List (Nat × BitVec 64) :=
  regs.filter fun p => decide (p.1 < 8) && epMask r / 2 ^ p.1 % 2 == 1

/-- The deltas of a reading. -/
def deltas (r : EpRec) (regs : List (Nat × BitVec 64)) : Tab Word :=
  regs.foldl (fun t p => tset 0 t p.1 (delta32 ((p.2.toNat : Int) - (tget 0 r.energy p.1).toNat))) []

/-- What a posting answers: the state, the WRITE_SEQ it produced, and the reading record's fields of it. -/
structure Posted where
  s     : State
  w     : Word
  delta : Tab Word
  rate  : Nat
  flags : Nat
  out   : Bool

/-- The first reading that carries RATE_REG: the baseline (R256). -/
def baseline (s : State) (r : EpRec) (mt : BitVec 64) (t : List Byte) : EpRec :=
  let l := subLen t
  let n := if l = 0 then 0 else stdOf s (calGet s (epCal r)).bytes (mt.toNat / 2 ^ 24) / l
  { r with demand := { r.demand with allocDt := mt, baselineSet := true, curAcc := 0, curNum := BitVec.ofNat 32 n } }

/-- Post the registers of a reading to a record (R256); `g` is what else the frame changes on the record. -/
def postReading (s : State) (eid : Nat) (mt : BitVec 64) (regs : List (Nat × BitVec 64)) (g : EpRec → EpRec) : Posted :=
  let r := g (recView s eid)
  let regs := carried r regs
  let dl := deltas r regs
  let r' := { r with energy := regs.foldl (fun t p => tset 0 t p.1 p.2) r.energy }
  let s := warnMissing s (epTariff r) 0 (epTariff r) (tarGet s (epTariff r)).cur.isSome
  let s := warnMissing s (256 + epCal r) 1 (epCal r) (calLoaded s (epCal r))
  let finish := fun (s : State) (r : EpRec) => ledgerRun (recPost (pinSync s eid r) eid r) eid
  let wOf := fun (r : EpRec) => r.writeSeq + 1
  match if bound s r then versionAt (tarGet s (epTariff r)) (mt.toNat / 2 ^ 24) else none with
  | none => { s := finish s r', w := wOf r', delta := dl, rate := 0xFF, flags := 0, out := false }
  | some t =>
    match regs.find? fun p => p.1 == tb t 7 with
    | none => { s := finish s r', w := wOf r', delta := dl, rate := 0xFF, flags := 0, out := false }
    | some c =>
      if !r.demand.baselineSet then
        { s := finish s (baseline s r' mt t), w := wOf r', delta := [], rate := 0xFF, flags := 0, out := false }
      else
        let de := c.2.toNat - (tget 0 r.energy c.1).toNat
        let (p, rate) := allocate eid mt de { s := s, r := r', dem := false, late := false, out := false }
        { s := finish p.s p.r, w := wOf p.r, delta := dl, rate := rate,
          flags := b2n p.dem + 2 * b2n p.late + 4 * b2n p.out, out := p.out }

end Sys2Proof.Machine
end

