-- ==== Sys2Proof/Machine/BillRows.lean ====
section
/-!
DEFINITION. The boundary table and its entries, sweeps (08 R254, R255, R265, R267 to R269), and the billing descriptors
but the ledger's: OP_TARIFF_LOAD, OP_CALENDAR_LOAD, OP_REG_SNAPSHOT. With them what every list of targets does (02 R80,
R84, R85).
-/
namespace Sys2Proof.Machine
open Sys2Proof

/-! ## Target lists (R80, R84, R85) -/

/-- The targets of a list. -/
def listOf (f : Flight) (targets : List Word) : List Nat := (targets.take (dBufLen f.raw / 4)).map (·.toNat)

/-- Refuse a list whole, or go on (R80); the list stands at BUF_ADDR, offset 8 (log entry 26). -/
def listGuard (s : State) (f : Flight) (l : List Nat) (k : State) : State :=
  match listBad s (l.map (BitVec.ofNat 32)) 0 with
  | some i => reject s f stBad (badResult rsEid 8 i)
  | none => k

/-- Whether a listed target may run an opcode: served here, and its record's state allows it (R96, R115). -/
def targetOk (s : State) (eid op tc : Nat) : Bool :=
  (eidTest s eid).isNone && stateRuns (recGet s eid).state.toNat op tc

/-- Do a step for every target in order, setting the bits of those done; how many were. -/
def listGo (f : Flight) (go : State → Nat → Nat → Option State) : List Nat → Nat → State × Nat → State × Nat
  | [], _, p => p
  | e :: t, i, (s, n) =>
    match go s i e with
    | some s => listGo f go t (i + 1) (setBitmap s f i, n + 1)
    | none => listGo f go t (i + 1) (s, n)

/-- Complete a list: OK when every target is done, else PARTIAL. -/
def listDone (s : State) (f : Flight) (steps done total : Nat) : State :=
  complete s f (if done = total then stOk else stPartial) steps 0 (result4 done (total - done) 0 0)

/-! ## The boundary table (R254, R255): a view of tariffs, calendars, records and BILL_POS -/

def nowSec (s : State) : Nat := (dtOf s).toNat / 2 ^ 24
def posSec (s : State) : Nat := s.bill.pos.toNat / 2 ^ 24

/-- Tariff and calendar pairs in use by ACTIVE records of a test. -/
def pairsOf (s : State) (g : EpRec → Bool) : List (Nat × Nat) :=
  s.recs.tab.foldl (fun l p =>
    let k := (epTariff p.2, epCal p.2)
    if p.2.state == 1 && g p.2 && bound s p.2 && !l.contains k then k :: l else l) []

def minOpt : List Nat → Option Nat
  | [] => none
  | a :: t => match minOpt t with | some b => some (min a b) | none => some a

/-- The next sub-interval end of a pair after an instant. -/
def nextSub (s : State) (k : Nat × Nat) (t : Nat) : Option Nat :=
  match versionAt (tarGet s k.1) t with
  | none => none
  | some v =>
    let l := subLen v
    if l = 0 then none else some (t + (l - stdOf s (calGet s k.2).bytes t % l))

/-- Switch instants of a pair in the days about an instant, after it; with `ends` those only that end a friendly
window. -/
def nextSwitch (s : State) (k : Nat × Nat) (ends : Bool) (t : Nat) : Option Nat :=
  let cal := (calGet s k.2).bytes
  match versionAt (tarGet s k.1) t with
  | none => none
  | some v =>
    let d := civilOf s cal t / 86400
    let all := (List.range (if ends then 9 else 4)).flatMap fun i => daySwitches s v cal (d - 1 + i)
    minOpt (all.filter fun x => decide (t < x) &&
      (!ends || ((rateAt v (civilOf s cal (x - 1))).2 && !(rateAt v (civilOf s cal x)).2)))

/-- The search start for entries of a step: instants after BILL_POS, or at it where the step is still to come. -/
def afterPos (s : State) (step : Nat) : Nat := if s.bill.posStep < step then posSec s - 1 else posSec s

/-- A calendar's next close boundary and the time of its entry; never one at or before the last close (R267). -/
def closeEntry (s : State) (c : CalEnt) : Option (Nat × Nat) :=
  if c.bytes.isEmpty then none
  else (nextClose s c.bytes (c.lastClose.toNat / 2 ^ 24)).map fun b => (b, b + tb c.bytes 20 * 60)

/-- The entry times of a kind, next ones: 1 interval end, 2 demand end, 3 period close, 4 tariff activation, 5 tariff
switch, 6 friendly end. -/
def entryTimes (s : State) (step : Nat) : List Nat :=
  match step with
  | 1 => (pairsOf s fun _ => true).filterMap fun k => nextSub s k (afterPos s 1)
  | 2 => (pairsOf s fun _ => true).filterMap fun k => nextSub s k (afterPos s 2)
  | 3 => s.bill.cals.filterMap fun p => (closeEntry s p.2).map (·.2)
  | 4 => s.bill.tariffs.filterMap fun p => p.2.pend.map fun v => v.act.toNat / 2 ^ 24
  | 5 => (pairsOf s fun _ => true).filterMap fun k => nextSwitch s k false (afterPos s 5)
  | _ => (pairsOf s fun r => r.billing).filterMap fun k => nextSwitch s k true (afterPos s 6)

/-- The next entry of a kind. -/
def nextEntry (s : State) (step : Nat) : Option Nat := minOpt (entryTimes s step)

/-- Whether the earliest due entry of the table, in the order of R255, is of a kind, and when. Nothing runs while
BILL_POS is not valid (R269). -/
def dueEntry (s : State) (step : Nat) : Option Nat :=
  if !s.bill.posValid then none
  else match nextEntry s step with
    | none => none
    | some t =>
      if nowSec s < t then none
      else if (List.range 7).any fun k => k != 0 && k != step && (match nextEntry s k with
          | some u => decide (u < t) || (u == t && decide (k < step))
          | none => false) then none
      else some t

/-- Advance BILL_POS to an entry; it never moves back. -/
def posAdvance (s : State) (t step : Nat) : State :=
  let s := cnt s 326
  if t < posSec s ∨ (t = posSec s ∧ step ≤ s.bill.posStep) then s
  else { s with bill := { s.bill with pos := BitVec.ofNat 64 (t * 2 ^ 24), posStep := step } }

/-- INTERVAL_END, DEMAND_END and TARIFF_SWITCH only advance BILL_POS (R254). -/
def boundaryPass (s : State) (step : Nat) : State :=
  match dueEntry s step with
  | some t => posAdvance s t step
  | none => s

/-- A pending version becomes current (R249). -/
def activated (e : TarEnt) : TarEnt := match e.pend with | some v => { prev := e.cur, cur := some v, pend := none } | none => e

/-- TARIFF_ACTIVATE: every version due at the entry's instant; each a state entry. -/
def tariffActivate (s : State) : State :=
  match dueEntry s 4 with
  | none => s
  | some t =>
    s.bill.tariffs.foldl (fun s p =>
      match p.2.pend with
      | some v =>
        if v.act.toNat / 2 ^ 24 = t then
          let s := appendState s 0 (.tariff p.1 (activated p.2))
          { s with bill := { s.bill with tariffs := tset TarEnt.empty s.bill.tariffs p.1 (activated p.2) } }
        else s
      | none => s) (posAdvance s t 4)

/-- A calendar executes a close: open period and last close advance, the sweep starts (R254, R265). -/
def closeExecute (s : State) (id : Nat) (c : CalEnt) (b : Nat) : State :=
  let c' := { c with openPer := c.openPer + 1, lastClose := BitVec.ofNat 64 (b * 2 ^ 24), everClosed := true }
  let s := appendState s 0 (.cal id c')
  { s with bill := { s.bill with cals := tset CalEnt.empty s.bill.cals id c',
                                 sweeps := s.bill.sweeps ++ [⟨false, id, 0, b, c.openPer, 0⟩] } }

/-- PERIOD_CLOSE: every calendar whose entry stands at the instant. -/
def periodClose (s : State) : State :=
  match dueEntry s 3 with
  | none => s
  | some t =>
    s.bill.cals.foldl (fun s p =>
      match closeEntry s p.2 with
      | some (b, u) => if u = t then closeExecute s p.1 p.2 b else s
      | none => s) (posAdvance s t 3)

/-- FRIENDLY_END: an evaluation sweep over each pair whose window ends at the instant. -/
def friendlyEnd (s : State) : State :=
  match dueEntry s 6 with
  | none => s
  | some t =>
    let ks := (pairsOf s fun r => r.billing).filter fun k => nextSwitch s k true (afterPos s 6) == some t
    let s := posAdvance s t 6
    { s with bill := { s.bill with sweeps := s.bill.sweeps ++ ks.map fun k => ⟨true, k.2, k.1, t, 0, 0⟩ } }

/-! ## Sweeps (R254, R265) -/

/-- Whether a sweep visits a record: one in service, or one that retires and has not had its final close (R260, R265). -/
def sweepHits (s : State) (w : Sweep) (eid : Nat) (r : EpRec) : Bool :=
  (r.state == 1 || r.state == 2 || (r.state == 3 && decide (tget 0 s.recs.retire eid < 4))) && epCal r == w.cal &&
  (!w.friendly || (epTariff r == w.tariff && r.billing && r.prepay.lstate == 2))

/-- The next record of a sweep, in record order. -/
def sweepNext (s : State) (w : Sweep) : Option (Nat × EpRec) :=
  s.recs.tab.find? fun p => decide (w.pos ≤ p.1) && sweepHits s w p.1 p.2

/-- Keep a sweep at a place, or drop it. -/
def sweepSet (s : State) (w : Sweep) (w' : Option Sweep) : State :=
  { s with bill := { s.bill with sweeps := s.bill.sweeps.filterMap fun x => if x = w then w' else some x } }

/-- One visit of the first sweep of a kind; a sweep with no record left ends. -/
def sweepStep (s : State) (friendly : Bool) (g : State → Nat → EpRec → Sweep → State) : State :=
  match s.bill.sweeps.find? fun w => w.friendly == friendly with
  | none => s
  | some w =>
    match sweepNext s w with
    | none => sweepSet s w none
    | some (eid, r) => g (sweepSet s w (some { w with pos := eid + 1 })) eid r w

/-- CLOSE_SWEEP: the next record bound to the calendar closes every period up to the boundary (R260, R265). -/
def closeSweep (s : State) : State :=
  sweepStep s false fun s eid r w => (closeDue eid w.atSec 64 (s, r)).1

/-- FRIENDLY_EVALUATION_SWEEP: the next record in FRIENDLY_HOLD evaluates its ledger. -/
def friendlySweep (s : State) : State := sweepStep s true fun s eid _ _ => ledgerRun s eid

/-! ## Catch-up (R267, R269): every entry due, in the order of R255 -/

/-- Run the earliest due entry, of whatever kind. -/
def boundaryOne (s : State) : Option State :=
  if (dueEntry s 1).isSome then some (boundaryPass s 1)
  else if (dueEntry s 2).isSome then some (boundaryPass s 2)
  else if (dueEntry s 3).isSome then some (periodClose s)
  else if (dueEntry s 4).isSome then some (tariffActivate s)
  else if (dueEntry s 5).isSome then some (boundaryPass s 5)
  else if (dueEntry s 6).isSome then some (friendlyEnd s)
  else none

/-- Entries due, one after another. -/
def boundaryMany : Nat → State → State
  | 0, s => s
  | n + 1, s => match boundaryOne s with | some s' => boundaryMany n s' | none => s

/-- How many entries can be due: at most one of each kind a second. -/
def boundaryFuel (s : State) : Nat := 6 * (nowSec s + 1 - posSec s) + s.bill.cals.length * (nowSec s + 1)

/-- Process every entry whose DT lies at or before the present one (R268, R269); BILL_POS ends at DT. -/
def boundaryCatchUp (s : State) : State :=
  let s := boundaryMany (boundaryFuel s) s
  if s.bill.posValid ∧ s.bill.pos.toNat ≤ (dtOf s).toNat then { s with bill := { s.bill with pos := dtOf s, posStep := 9 } } else s

/-! ## OP_TARIFF_LOAD and OP_CALENDAR_LOAD (R250, R251) -/

/-- A table refused at a byte of its own. -/
def tableBad (s : State) (f : Flight) (at_ : Nat) : State := reject s f stBad (badResult rsParam 8 at_)

def tariffPut (s : State) (id : Nat) (e : TarEnt) : State :=
  let s := appendState s 0 (.tariff id e)
  { s with bill := { s.bill with tariffs := tset TarEnt.empty s.bill.tariffs id e } }

def tariffLoad (s : State) (uid : Nat) (table : List Byte) : State :=
  withDesc s uid 0x50 fun f =>
    let id := dByte f.raw 24 1
    let mode := dByte f.raw 25 1
    let act := dByte f.raw 32 8
    if 1 < mode then badParam s f 25
    else ifUnused s f (if mode = 0 then [(32, 8)] else []) <|
      if dBufLen f.raw ≠ 1024 then badBuf s f 16
      else if id ≠ tb table 1 then badParam s f 24
      else match tariffBad table with
      | some o => tableBad s f o
      | none =>
        if mode = 1 ∧ act ≤ (dtOf s).toNat then badParam s f 32
        else
          let e := tarGet s id
          let now := dtOf s
          let e' := if mode = 0 then { e with prev := e.cur, cur := some ⟨table, now⟩ }
                    else { e with pend := some ⟨table, BitVec.ofNat 64 act⟩ }
          let at_ := if mode = 0 then now.toNat else act
          completeOk (tariffPut s id e') f 3 (result4 (at_ % 2 ^ 32) (at_ / 2 ^ 32) 0 0)

def calendarLoad (s : State) (uid : Nat) (cal : List Byte) : State :=
  withDesc s uid 0x51 fun f =>
    let id := dByte f.raw 24 1
    if dBufLen f.raw ≠ 64 then badBuf s f 16
    else if id ≠ tb cal 1 then badParam s f 24
    else match calendarBad cal with
    | some o => tableBad s f o
    | none =>
      let c := calGet s id
      let open_ := BitVec.ofNat 32 (tb4 cal 24)
      if calLoaded s id && decide (open_.toNat < c.openPer.toNat) then reject s f stPeriodClosed 0
      else if calLoaded s id && decide (c.openPer.toNat < open_.toNat) then tableBad s f 24
      else
        let c' := if calLoaded s id then { c with bytes := cal }
                  else { bytes := cal, openPer := open_, lastClose := dtOf s, everClosed := false }
        let s := appendState s 0 (.cal id c')
        completeOk { s with bill := { s.bill with cals := tset CalEnt.empty s.bill.cals id c' } } f 3 0

/-! ## OP_REG_SNAPSHOT (R271) -/

/-- Whether a store entry lies before STORE_OLDEST or in a discarded range (14 R434, R449). -/
def entHidden (s : State) (e : SEnt) : Bool :=
  decide (e.ssn < s.store.oldest) || s.store.disc.any fun d => decide (e.ssn < d.2.2.2) &&
    (if d.1 then decide (d.2.1 ≤ e.dt.toNat ∧ e.dt.toNat < d.2.2.1) else decide (d.2.1 ≤ e.ssn ∧ e.ssn < d.2.2.1))

/-- Readable entries of the interval store in SSN order. -/
def storeEnts (s : State) : List SEnt :=
  (((s.store.units.filter fun u => !u.disc && !u.unread).map (·.ents)).flatten ++ s.store.open_).filter
    fun e => !entHidden s e

/-- The stored block of a record: of a period, or its newest. -/
def storedBlock (s : State) (eid : Nat) (period : Option Nat) : Option (List Byte) :=
  ((storeEnts s).reverse.find? fun e => e.typ == 2 && e.eid.toNat == eid &&
    (match period with | some p => tb4 e.body 4 == p | none => true)).map (·.body)

/-- The live block of a record, after the closes due on it (R260, R271). -/
def liveBlock (s : State) (eid : Nat) : State × List Byte :=
  let r := recView s eid
  let c := calGet s (epCal r)
  let (s, r) := if c.everClosed && decide (r.period.toNat < c.openPer.toNat) then
                  closeDue eid (c.lastClose.toNat / 2 ^ 24) 64 (s, r) else (s, r)
  (s, snapBlock s eid r 255 0 (rateCount s r (nowSec s)))

/-- The block a mode returns for a record, with the state its closes leave. -/
def snapOf (s : State) (eid mode period : Nat) : State × Option (List Byte) :=
  if mode = 0 then let (s, b) := liveBlock s eid; (s, some b)
  else (s, storedBlock s eid (if mode = 1 then none else some period))

/-- One target of a snapshot list: its block, or a zeroed one. -/
def snapTarget (f : Flight) (s : State) (i eid : Nat) : Option State :=
  let at_ := dByte f.raw 32 8 + 256 * i
  if !targetOk s eid 0x53 (dTc f.raw) then none
  else match snapOf s eid (dByte f.raw 24 1) (dByte f.raw 28 4) with
  | (s, some b) => some (hostWriteMem s at_ b)
  | (_, none) => none

/-- Targets whose block is not found leave zeroed blocks. -/
def snapZero (f : Flight) (s : State) : Nat → State
  | 0 => s
  | n + 1 => hostWriteMem (snapZero f s n) (dByte f.raw 32 8 + 256 * n) (leBytes 256 0)

/-- Modes 1 and 2 read stored blocks and act by the state of the store (R271, 14 R575). -/
def snapRun (s : State) (f : Flight) (run : State) : State := if dByte f.raw 24 1 = 0 then run else storeRun s f run

/-- A snapshot of a target list, one block a target. -/
def snapList (s : State) (f : Flight) (targets : List Word) : State :=
  let l := listOf f targets
  if dByte f.raw 32 8 % 8 ≠ 0 ∨ dByte f.raw 32 8 = 0 then badBuf s f 32
  else if dByte f.raw 40 4 < 256 * l.length then badBuf s f 40
  else snapRun s f <| listGuard s f l <|
    let (s, n) := listGo f (snapTarget f) l 0 (snapZero f s l.length, 0)
    listDone s f 0 n l.length

def regSnapshot (s : State) (uid : Nat) (targets : List Word) : State :=
  withDesc s uid 0x53 fun f =>
    let mode := dByte f.raw 24 1
    let list := dBitmap f.raw != 0
    if 2 < mode then badParam s f 24
    else ifUnused s f ((if mode = 2 then [] else [(28, 4)]) ++ (if list then [] else [(32, 8), (40, 4)])) <|
      if list then snapList s f targets
      else if dBufLen f.raw < 256 then badBuf s f 16
      else snapRun s f <| match snapOf s (dEid f.raw) mode (dByte f.raw 28 4) with
      | (s, some b) => completeOk (writeBuf s f b) f 0 0
      | (s, none) => completeOk s f 0 1

end Sys2Proof.Machine
end

