-- ==== Sys2Proof/Machine/Downlink.lean ====
section
/-!
DEFINITION. The command path's descriptors (12 R384 to R397, 15 R473): on-demand reads and their objects, collection
plans, credit pushes, meter clocks, distributions; how a transaction is answered, times out, or is link-acknowledged.
-/
namespace Sys2Proof.Machine
open Sys2Proof

/-! ## Targets in hand -/

/-- A target in a descriptor's hands: its place in the list and its EID. -/
def tgtKey (i eid : Nat) : Nat := i * 2 ^ 32 + eid
def tgtIdx (k : Nat) : Nat := k / 2 ^ 32
def tgtEid (k : Nat) : Nat := k % 2 ^ 32

/-- Targets with their places. -/
def withIdx (l : List Nat) : List Nat := (List.range l.length).map fun i => tgtKey i (lget 0 l i)

/-- A target of a list is settled: its bit is set where it is done, and with the last one the descriptor's outcome is
known (R84). -/
def targetSettle (s : State) (uid idx : Nat) (ok : Bool) (steps : Nat) : State :=
  match flightOf s uid with
  | none => s
  | some f =>
    match f.stage with
    | .list todo dn nd =>
      if !todo.any fun k => tgtIdx k == idx then s
      else
        let todo := todo.filter fun k => tgtIdx k != idx
        let dn := dn + b2n ok
        let nd := nd + b2n (!ok)
        let s := if ok then setBitmap s f idx else s
        let f := { f with stage := .list todo dn nd, units := dn + nd }
        let s := setProgress s f f.step (dn + nd)
        if todo.isEmpty then settle s f (if nd = 0 then stOk else stPartial) steps (result4 dn nd 0 0) else s
    | _ => s

/-! ## Objects and the hold buffer (05 R169 to R175) -/

/-- Whether an OP_KAT runs: CE_STATUS.KAT_ACTIVE. -/
def katActive (s : State) : Bool :=
  s.host.flights.any fun f => dOpcode f.raw == 0x90 && !f.ended && f.stage != .none

def holdLimit (s : State) : Nat := regFld s 0x300 8 7 * 1024
def earlyMode (s : State) : Bool := wbit (regGet s 0x300) 0
def holdUsed (s : State) : Nat := (s.ce.objs.map (·.units)).sum

/-- Units an object of a buffer reserves (R170). -/
def objUnits (s : State) (bufLen : Nat) : Nat := units (if earlyMode s then min bufLen (holdLimit s) else bufLen)

def objsSet (s : State) (l : List Obj) : State := { s with ce := { s.ce with objs := l } }
def objOf (s : State) (uid : Nat) : Option Obj := s.ce.objs.find? fun o => o.uid == uid
def objMod (s : State) (uid : Nat) (g : Obj → Obj) : State := objsSet s (s.ce.objs.map fun o => if o.uid = uid then g o else o)

/-- Free an object's reservation. -/
def objDrop (s : State) (uid : Nat) : State :=
  { s with ce := { s.ce with objs := s.ce.objs.filter fun o => o.uid != uid, objWait := s.ce.objWait.filter fun u => u != uid } }

/-- Zero every byte released early and free the reservation (R175). -/
def objScrub (s : State) (f : Flight) : State :=
  match objOf s f.uid with
  | none => s
  | some o =>
    let s := if o.released = 0 then s else cnt (hostWriteMem s (dBufAddr f.raw) (leBytes o.released 0)) 241
    objDrop s f.uid

/-- The buffer of an object whose released bytes were not zeroed in time holds an undefined content there (R176). -/
def objLost (s : State) (o : Obj) : State :=
  match flightOf s o.uid with
  | none => s
  | some f =>
    let (n, s) := takeFree s
    let bytes := (List.range o.released).map fun i => Config.freeByte (n * 16777216 + i)
    { s with hostMem := memWrite s.hostMem (dBufAddr f.raw) bytes }

/-- Take a verified segment into its object (R171, R173, R174). -/
def objTake (s : State) (f : Flight) (o : Obj) (bytes : List Byte) : State :=
  let room := dBufLen f.raw - (o.released + o.held.length)
  let seg := bytes.take room
  let total := o.total + bytes.length
  if o.early && decide (o.limit < total) then
    let out := o.held ++ seg
    let s := hostWriteData s (dBufAddr f.raw + o.released) out
    objMod (cnt s 240) f.uid fun o => { o with held := [], total := total, released := o.released + out.length }
  else objMod s f.uid fun o => { o with held := o.held ++ seg, total := total }

/-- Reserve hold space for an object, or wait for it in admission order (R170). -/
def objReserve (s : State) (uid bufLen : Nat) : State × Bool :=
  let u := objUnits s bufLen
  let fits := s.ce.objWait.isEmpty && decide (holdUsed s + u ≤ 3072)
  let o : Obj := { uid := uid, txn := 0, units := if fits then u else 0, early := earlyMode s, limit := holdLimit s,
                   held := [], total := 0, released := 0 }
  let ce := { s.ce with objs := s.ce.objs ++ [o], objWait := if fits then s.ce.objWait else s.ce.objWait ++ [uid],
                        holdPeak := max s.ce.holdPeak (holdUsed s + o.units) }
  ({ s with ce := ce }, fits)

/-! ## OP_READ_ON_DEMAND (12 R384 to R386) -/

/-- Send an object's request; its release mode is the one in force as it goes out (R172). -/
def objRequest (s : State) (f : Flight) : State :=
  let (id, s) := sendRequest s (dEid f.raw) 1 4 (dByte f.raw 24 1) (objectApp f.raw) (some f.uid) (dTag f.raw) true 0
  let s := objMod s f.uid fun o => { o with txn := id, early := earlyMode s, limit := holdLimit s }
  setProgress s { f with stage := .wait s.tcxo 0 1 } 2 0

/-- HOLD_RESERVATION: the oldest waiting request gets its reservation once it fits, and is sent (R170). The mode and limit
are those of its transmission: a BUF_LEN they no longer allow ends it (R172). -/
def holdReservation (s : State) : State :=
  match s.ce.objWait with
  | [] => s
  | uid :: rest =>
    match flightOf s uid with
    | none => { s with ce := { s.ce with objWait := rest } }
    | some f =>
      let u := objUnits s (dBufLen f.raw)
      if !earlyMode s && decide (holdLimit s < dBufLen f.raw) then badParam (objDrop s uid) f 16
      else if 3072 < holdUsed s + u then s
      else
        let s := objMod { s with ce := { s.ce with objWait := rest } } uid fun o => { o with units := u }
        let s := { s with ce := { s.ce with holdPeak := max s.ce.holdPeak (holdUsed s) } }
        objRequest s f

/-- The one record of a read that names an EID: why it cannot be asked, with the steps done. -/
def askRefuse (s : State) (eid tc : Nat) : Option (Nat × Nat) :=
  match outRefuse s eid (tc == 0) with
  | some st => some (st, 0)
  | none => (chRefuse s eid tc).map fun st => (st, 2)

/-- Ask one target of a list; refused ones count as not done. -/
def askTarget (s : State) (f : Flight) (cls what arg steps k : Nat) : State :=
  let eid := tgtEid k
  if !targetOk s eid (dOpcode f.raw) (dTc f.raw) || (askRefuse s eid cls).isSome then targetSettle s f.uid (tgtIdx k) false steps
  else
    let (id, s) := sendRequest s eid cls what arg (regsApp (recGet s eid)) (some f.uid) (dTag f.raw) false 0
    txnMod s id fun t => { t with idx := tgtIdx k }

/-- Ask every target of a list. -/
def askList (s : State) (f : Flight) (l : List Nat) (cls what arg step steps : Nat) : State :=
  let f := { f with stage := .list (withIdx l) 0 0 }
  let s := setProgress s f step 0
  if l.isEmpty then settle s f stOk steps (result4 0 0 0 0)
  else (withIdx l).foldl (fun s k => askTarget s f cls what arg steps k) s

/-- Bytes a REQ_KIND leaves unused. -/
def readUnused (kind : Nat) (list : Bool) : List (Nat × Nat) :=
  (if kind = 0 then [(25, 9), (36, 16)] else if kind = 1 then [(25, 3)] else [(36, 16)]) ++ (if list then [] else [(56, 8)])

/-- The checks of OP_READ_ON_DEMAND in its own fields (R384, R172). -/
def readBad (s : State) (raw : BitVec 512) : Option Nat :=
  let kind := dByte raw 24 1
  let list := dBitmap raw != 0
  if 2 < kind then some 24
  else if kind ≠ 0 ∧ (list = true ∨ (recGet s (dEid raw)).proto ≠ 0) then some 24
  else if kind = 1 ∧ dByte raw 44 8 ≤ dByte raw 36 8 then some 44
  else if kind ≠ 0 ∧ earlyMode s = false ∧ holdLimit s < dBufLen raw then some 16
  else none

/-- A single EID's registers, or its object. -/
def readSingle (s : State) (f : Flight) : State :=
  let eid := dEid f.raw
  match askRefuse s eid 1, outSlot s eid false with
  | some (st, step), _ => if step = 0 then outReject s f eid st else complete s f st step 0 0
  | none, none => slotWait s f
  | none, some s =>
    if dByte f.raw 24 1 = 0 then
      let (_, s) := sendRequest s eid 1 3 0 (regsApp (recGet s eid)) (some f.uid) (dTag f.raw) false 0
      setProgress s { f with stage := .wait s.tcxo 0 1 } 2 0
    else
      let (s, now) := objReserve s f.uid (dBufLen f.raw)
      if now then objRequest s f else flightPut s { f with stage := .wait s.tcxo 1 0 }

def readOnDemand (s : State) (uid : Nat) (targets : List Word) : State :=
  withDesc s uid 0x43 fun f =>
    match unbegun f.stage with
    | true =>
      let list := dBitmap f.raw != 0
      match readBad s f.raw with
      | some o => badParam s f o
      | none =>
        ifUnused s f (readUnused (dByte f.raw 24 1) list) <|
          if list then
            let l := listOf f targets
            listGuard s f l (askList s f l 1 3 0 2 5)
          else readSingle s f
    | false => s

/-- What a response to a request makes of its descriptor's status (R83). -/
def respStatus (flags : Word) (verdict : Nat) : Nat :=
  if wbit flags 4 then stReplay else if verdict = 3 then stReject else if verdict = 2 then stQuarantined else stOk

/-- A response to a read. One without a segment ends an object too: what was released of it is zeroed, its reservation
freed (05 R170, R175). -/
def readAnswered (s : State) (f : Flight) (t : Txn) (flags : Word) (verdict : Nat) : State :=
  let st := respStatus flags verdict
  match f.stage with
  | .list _ _ _ => targetSettle s f.uid t.idx (st == stOk) 5
  | _ => settle (objScrub s f) f st (if st = stOk then 5 else 3) 0

/-- The object's tag has passed: what is held is written, and the descriptor completes (R173, R386). -/
def objPass (s : State) (f : Flight) (o : Obj) : State :=
  let s := hostWriteData s (dBufAddr f.raw + o.released) o.held
  settle (objDrop s f.uid) f stOk 5 (result4 (256 * b2n (decide (dBufLen f.raw < o.total))) o.total 0 0)

/-- The object's tag has failed on two pipelines (R144, R179). -/
def objFail (s : State) (f : Flight) : State := settle (objScrub s f) f stAuthFail 3 0

/-! ## OP_COLLECT_PLAN (R387, R388) -/

def planGet (s : State) (n : Nat) : Plan := tget Plan.none s.cmd.plans n
def bindGet (s : State) (eid : Nat) : Nat := tget 0 s.cmd.binds eid
def bindSet (s : State) (eid v : Nat) : State := { s with cmd := { s.cmd with binds := tset 0 s.cmd.binds eid v } }

/-- Bind one target, as a state entry; an unserved one is not done. -/
def planTarget (plan : Nat) (unbind : Bool) (s : State) (_ eid : Nat) : Option State :=
  if !targetOk s eid 0x48 2 then none
  else
    let v := if unbind then 0 else plan + 1
    some (bindSet (appendState s 0 (.coll eid v)) eid v)

def collectPlan (s : State) (uid : Nat) (targets : List Word) : State :=
  withDesc s uid 0x48 fun f =>
    let id := dByte f.raw 24 1
    let kind := dByte f.raw 25 1
    let per := dByte f.raw 28 4
    let off := dByte f.raw 32 4
    let spread := dByte f.raw 36 4
    if 63 < id then badParam s f 24
    else if 1 < kind then badParam s f 25
    else if per ≠ 0 ∧ (per < 300 ∨ 86400 < per) then badParam s f 28
    else if per ≠ 0 ∧ per ≤ off then badParam s f 32
    else if per < spread ∧ per ≠ 0 then badParam s f 36
    else ifUnused s f (if per = 0 then [(32, 4), (36, 4)] else []) <|
      let l := listOf f targets
      listGuard s f l <|
        let s := if per = 0 then s
                 else
                   let s := appendState s 0 (.collPlan id kind per off spread)
                   { s with cmd := { s.cmd with plans := tset Plan.none s.cmd.plans id ⟨kind, per, off, spread⟩ } }
        let (s, n) := listGo f (planTarget id (per == 0)) l 0 (s, 0)
        listDone s f 3 n l.length

/-- Whether a DT second is a target's collection instant (R388). -/
def collDue (p : Plan) (eid sec : Nat) : Bool :=
  let delay := (eid * 0x9E3779B1) % 2 ^ 32 % (p.spread + 1)
  p.period != 0 && decide (p.offset + delay ≤ sec) && (sec - p.offset - delay) % p.period == 0

/-- COLLECTION_INSTANT: a TC2 transaction of the target's plan; one still open closes unanswered and this instant is
skipped (R388). -/
def collectionInstant (s : State) (eid : Nat) : State :=
  let b := bindGet s eid
  if coreState s 1 ≠ 0 ∨ b = 0 ∨ !collDue (planGet s (b - 1)) eid (nowSec s) then s
  else match s.cmd.txns.find? fun t => t.eid == eid && t.coll == b with
  | some t => txnClose s t.id
  | none =>
    if !targetOk s eid 0x48 2 || (outRefuse s eid false).isSome || !chUp s eid then s
    else
      let p := planGet s (b - 1)
      let app := if p.kind = 0 then regsApp (recGet s eid)
                 else profileApp [] ((dtOf s).toNat - p.period * 2 ^ 24) (dtOf s).toNat
      (sendRequest s eid 2 (if p.kind = 0 then 3 else 4) 0 app none 0 false b).2

/-! ## OP_CREDIT_PUSH (R389) -/

/-- A token as a frame carries it: its length and its octets. -/
def tokenArg (raw : BitVec 512) (token : List Byte) : Nat := dBufLen raw + 128 * leNat (token.take (dBufLen raw))

def creditPush (s : State) (uid : Nat) (token : List Byte) : State :=
  withDesc s uid 0x44 fun f =>
    let eid := dEid f.raw
    match unbegun f.stage with
    | true =>
      if (recGet s eid).proto ≠ 0 then badParam s f 4
      else if 64 < dBufLen f.raw then badBuf s f 16
      else match outRefuse s eid false, outSlot s eid false with
      | some st, _ => outReject s f eid st
      | none, none => slotWait s f
      | none, some s =>
        match chRefuse s eid 1 with
        | some st => complete (icTake s eid).2 f st 3 0 0
        | none =>
          let (_, s) := sendRequest s eid 1 5 (tokenArg f.raw token) (tokenApp (token.take (dBufLen f.raw))) (some uid) (dTag f.raw) false 0
          setProgress s { f with stage := .relay (recView s eid).txIcHwm f.adm false 5 } 3 0
    | false => s

/-- The authenticated action-response of a credit push. -/
def creditAnswered (s : State) (f : Flight) (fr : Frame) : State :=
  settle s f stOk 4 (result4 fr.result (dByte f.raw 24 4) 0 0)

/-! ## OP_METER_TIME_SET (15 R473) -/

/-- Skew of a record in ms, unsigned. -/
def skewMs (r : EpRec) : Nat := ((r.lastMeter.toNat : Int) - r.lastRx.toNat).natAbs * 1000 / 2 ^ 24

/-- One target: done without traffic below the threshold, else its clock frame is queued. A clock frame takes its counter
as its transmission begins (R474). -/
def clockTarget (s : State) (f : Flight) (k : Nat) : State :=
  let eid := tgtEid k
  if !targetOk s eid 0x6A 2 then targetSettle s f.uid (tgtIdx k) false 3
  else if dByte f.raw 24 1 = 1 ∧ skewMs (recGet s eid) ≤ dByte f.raw 28 4 then targetSettle s f.uid (tgtIdx k) true 3
  else if (askRefuse s eid 2).isSome then targetSettle s f.uid (tgtIdx k) false 3
  else
    let (id, s) := txnNew s eid 2 6 (some f.uid) (dTag f.raw) false 0 0
    let s := txnMod s id fun t => { t with idx := tgtIdx k }
    sendFrame s eid 2 6 0 (clockApp s eid (dtOf s).toNat) 0 (some f.uid) (some id)

/-- Discipline's function 0x0B00 answers under R41: OFF, or STARTING while ACQUIRE. -/
def meterTimeSet (s : State) (uid : Nat) (targets : List Word) : State :=
  withDesc s uid 0x6A fun f =>
    match f.stage with
    | .none =>
      let mode := dByte f.raw 24 1
      if 1 < mode then badParam s f 24
      else ifUnused s f (if mode = 0 then [(28, 4)] else []) <|
        let st := (fnGet s 0x0B00).st
        if st == .off then reject s f stOff 0
        else if st == .stopping then reject s f stStopping 0
        else if st == .starting then s
        else
          let l := listOf f targets
          listGuard s f l <|
            let f := { f with stage := .list (withIdx l) 0 0 }
            let s := setProgress s f 1 0
            if l.isEmpty then settle s f stOk 3 (result4 0 0 0 0)
            else (withIdx l).foldl (fun s k => clockTarget s f k) s
    | _ => s

/-! ## Distributions (12 R390 to R397) -/

def distOf (s : State) (uid : Nat) : Option Dist := s.cmd.dists.find? fun d => d.uid == uid
def distPut (s : State) (d : Dist) : State :=
  { s with cmd := { s.cmd with dists := s.cmd.dists.map fun e => if e.uid = d.uid then d else e } }
def distDrop (s : State) (uid : Nat) : State :=
  { s with cmd := { s.cmd with dists := s.cmd.dists.filter fun e => e.uid != uid } }
def tgtAt (d : Dist) (i : Nat) : DTgt := lget ⟨0, 6, 0, []⟩ d.tgts i

/-- Bytes of a block bitmap. -/
def blockMap (held : List Nat) (n : Nat) : List Byte :=
  (List.range n).map fun i => BitVec.ofNat 8 (((List.range 8).filter fun k => held.contains (8 * i + k)).map (2 ^ ·)).sum

/-- Write a target's progress entry (R391). -/
def progWrite (s : State) (raw : BitVec 512) (d : Dist) (i : Nat) : State :=
  let t := tgtAt d i
  let n := (d.nBlocks + 63) / 64 * 8
  hostWriteMem s (dByte raw 40 8 + i * (8 + n))
    (leBytes 4 t.held.length ++ leBytes 1 t.tstate ++ leBytes 1 t.reason ++ leBytes 2 0 ++ blockMap t.held n)

/-- Whether a target is done (R392). -/
def tgtDone (raw : BitVec 512) (t : DTgt) : Bool := t.tstate == 5 || (t.tstate == 4 && dByte raw 48 8 == 0)

/-- Change a target and write its entry; its result bit sets as it is done (R85, R392). -/
def distTgt (s : State) (f : Flight) (d : Dist) (i : Nat) (g : DTgt → DTgt) : State × Dist :=
  let d' := { d with tgts := lset d.tgts i (g (tgtAt d i)) }
  if d' = d then (s, d)
  else
    let s := progWrite (distPut s d') f.raw d' i
    (if tgtDone f.raw (tgtAt d' i) && !tgtDone f.raw (tgtAt d i) then setBitmap s f i else s, d')

def distFail (s : State) (f : Flight) (d : Dist) (i reason : Nat) : State × Dist :=
  distTgt s f d i fun t => { t with tstate := 6, reason := reason }

/-- Why a target fails before any traffic (R395). -/
def tgtRefuse (s : State) (d : Dist) (eid : Nat) : Option Nat :=
  if !serves s (eidHome eid) then some stNotOwner
  else if !targetOk s eid 0x46 3 then some stBad
  else if (recGet s eid).proto ≠ 0 then some 0xE0
  else if s.cmd.dists.any fun e => e.uid != d.uid && e.tgts.any fun t => t.eid.toNat == eid && t.tstate != 6 then some 0xE1
  else none

/-- BLOCK_SIZE, image length and blocks of the two kinds. -/
def distSize (raw : BitVec 512) (tariff : Bool) : Nat := if tariff then 128 else dByte raw 36 2
def distBlocks (s : State) (raw : BitVec 512) (tariff : Bool) : Nat :=
  let len := if tariff then
      (match versionAt (tarGet s (dByte raw 24 1)) (dByte raw 48 8 / 2 ^ 24) with
       | some t => (Config.passiveCalendar t).length
       | none => 0)
    else dByte raw 32 4
  (len + distSize raw tariff - 1) / max 1 (distSize raw tariff)

/-- Step 1's checks of the parameters (R390). -/
def distBad (s : State) (raw : BitVec 512) (tariff : Bool) : Option (Nat × Nat) :=
  if dByte raw 20 1 = 0 then some (rsParam, 20)
  else if tariff then
    if (tarGet s (dByte raw 24 1)).cur.isNone then some (rsParam, 24)
    else if dByte raw 40 8 % 8 ≠ 0 ∨ dByte raw 40 8 = 0 then some (rsBuffer, 40)
    else if dByte raw 48 8 = 0 then some (rsParam, 48)
    else if (versionAt (tarGet s (dByte raw 24 1)) (dByte raw 48 8 / 2 ^ 24)).isNone then some (rsParam, 24) else none
  else if dByte raw 24 8 % 8 ≠ 0 ∨ dByte raw 24 8 = 0 then some (rsBuffer, 24)
  else if dByte raw 32 4 = 0 ∨ 0x1000000 < dByte raw 32 4 then some (rsParam, 32)
  else if dByte raw 36 2 < 64 ∨ 1024 < dByte raw 36 2 ∨ dByte raw 36 2 % 16 ≠ 0 then some (rsParam, 36)
  else if 65536 < distBlocks s raw false then some (rsParam, 36)
  else if dByte raw 40 8 % 8 ≠ 0 ∨ dByte raw 40 8 = 0 then some (rsBuffer, 40) else none

/-- The image identifier: "CLG", DIST_ID, the first 8 bytes of SHA-256 over the image (R390). -/
def imgIdent (distId : Nat) (image : List Byte) : List Byte :=
  [0x43, 0x4C, 0x47] ++ leBytes 2 distId ++ ((leBytes 32 (Config.sha256 image).toNat).reverse).take 8

/-- Start a distribution: the image hashed; its targets, from zero or from their progress entries; refused ones fail (R392
step 1). -/
def distStart (s : State) (f : Flight) (tariff : Bool) (l : List Nat) (tgts : List DTgt) (image : List Byte) : State :=
  let d : Dist := { uid := f.uid, distId := dByte f.raw 38 2, tariff := tariff, step := 2, round := 0, cur := 0,
                    nBlocks := distBlocks s f.raw tariff, ident := imgIdent (dByte f.raw 38 2) image, tgts := tgts }
  let s := { s with cmd := { s.cmd with dists := s.cmd.dists ++ [d] } }
  let s := setProgress s { f with stage := .wait s.tcxo 0 2 } 1 0
  let p := (List.range l.length).foldl (fun (p : State × Dist) i =>
    let t := tgtAt p.2 i
    if tgtDone f.raw t then (setBitmap (progWrite p.1 f.raw p.2 i) f i, p.2)
    else match tgtRefuse p.1 p.2 t.eid.toNat with
      | some r => distFail p.1 f p.2 i r
      | none => (progWrite p.1 f.raw p.2 i, p.2)) (s, d)
  p.1

/-- Finish a distribution under R84; the bits of the targets done are set. -/
def distFinish (s : State) (f : Flight) (d : Dist) : State :=
  let n := (d.tgts.filter (tgtDone f.raw)).length
  listDone (distDrop s f.uid) f 6 n d.tgts.length

/-- One block of the image. -/
def distBlock (raw : BitVec 512) (tariff : Bool) (image : List Byte) (b : Nat) : List Byte :=
  (image.drop (b * distSize raw tariff)).take (distSize raw tariff)

/-- What a request on image transfer 0.0.44.0.0.255 carries: the identifier; a block with its number; the image's and the
block's size at the initiate; the time of activation, for a tariff push in the target's local civil time. -/
def imgApp (s : State) (f : Flight) (d : Dist) (eid what arg : Nat) (image : List Byte) : List Nat :=
  [2, 0, 0, 44, 0, 0, 255, what, if what = 8 then arg else 0] ++ d.ident.map (·.toNat) ++
  if what = 7 then leNats 4 arg ++ (distBlock f.raw d.tariff image arg).map (·.toNat)
  else if arg = 0 then leNats 4 image.length ++ leNats 2 (distSize f.raw d.tariff)
  else if arg = 3 then leNats 8 (dByte f.raw 48 8)
  else if arg = 4 then leNats 8 (civilOf s (calGet s (epCal (recGet s eid))).bytes (dByte f.raw 48 8 / 2 ^ 24))
  else []

/-- Send an image-transfer request to a target: 0 initiate, 1 status, 2 verify, 3 activate, 4 activation time; a target
that cannot be asked fails with the status. -/
def imgAsk (s : State) (f : Flight) (d : Dist) (image : List Byte) (i what arg : Nat) : State :=
  let eid := (tgtAt d i).eid.toNat
  if !serves s (eidHome eid) then (distFail s f d i stMoved).1
  else match askRefuse s eid 3 with
  | some (st, _) => (distFail s f d i st).1
  | none =>
    let (id, s) := sendRequest s eid 3 what arg (imgApp s f d eid what arg image) (some f.uid) (dTag f.raw) false 0
    txnMod s id fun t => { t with idx := i * 8 + (if what = 8 then arg else 7) }

/-- Channels that hold targets still lacking a block. -/
def lacking (s : State) (d : Dist) (b : Nat) : List Nat :=
  (d.tgts.filter fun t => (t.tstate == 1 || t.tstate == 2) && !t.held.contains b).foldl
    (fun l t => insertAsc (chanOf s t.eid.toNat) l) []

/-- A multicast block frame: the identifier, the block number and BLOCK_SIZE bytes of image, a PSDU of BLOCK_SIZE + 28
bytes (R393). -/
def castBytes (f : Flight) (d : Dist) (image : List Byte) (b : Nat) : List Byte :=
  let n := distSize f.raw d.tariff
  let fr := Config.downFrame 7 (0xFFFFFFFF :: d.ident.map (·.toNat) ++ leNats 4 b ++ (distBlock f.raw d.tariff image b).map (·.toNat))
  (fr ++ List.replicate (n + 28) 0).take (n + 28)

/-- Multicast one block on each channel that lacks it: under no endpoint's key (R392 step 3, R393). -/
def blockCast (s : State) (f : Flight) (d : Dist) (image : List Byte) (b : Nat) : State :=
  (lacking s d b).foldl (fun s ch =>
    txQueue s ch { id := 0, uid := some f.uid, txn := none, eid := 0xFFFFFFFF, tc := 3, ic := 0, what := 7, arg := b,
                   bytes := castBytes f d image b, admitted := 0, sent := 0,
                   since := 0, retry := false, backoffs := 0, tries := 0, dutyWait := none, enc := true, queued := false }) s

/-- Whether work of a distribution is outstanding. -/
def distBusy (s : State) (uid : Nat) : Bool :=
  (s.cmd.txns.any fun t => t.uid == some uid) || (s.chan.tab.any fun p => p.2.tx.any fun f => f.uid == some uid)

/-- The next target at or after a place, of a test. -/
def nextTgt (d : Dist) (i : Nat) (g : DTgt → Bool) : Option Nat :=
  (List.range d.tgts.length).find? fun j => decide (i ≤ j) && g (tgtAt d j)

/-- Go to a step, from its first unit. -/
def distStep (s : State) (f : Flight) (d : Dist) (step round : Nat) : State :=
  setProgress (distPut s { d with step := step, round := round, cur := 0 }) f (step - 1) 0

/-- A pass over targets of a test with one request each; at its end, the next step. -/
def distPass (s : State) (f : Flight) (d : Dist) (g : DTgt → Bool) (ask : State → Dist → Nat → State)
    (next : State → Dist → State) : State :=
  match nextTgt d d.cur g with
  | some i =>
    let d := { d with cur := i + 1 }
    setProgress (ask (distPut s d) d i) f (d.step - 1) (i + 1)
  | none => if distBusy s f.uid then s else next s d

/-- Blocks a target lacks. -/
def missing (d : Dist) (t : DTgt) : List Nat := (List.range d.nBlocks).filter fun b => !t.held.contains b

def receiving (t : DTgt) : Bool := t.tstate == 1 || t.tstate == 2

/-- Step 3: blocks of a round, then a status query to each receiving target (R392). -/
def distRound (s : State) (f : Flight) (d : Dist) (image : List Byte) : State :=
  if d.tgts.all fun t => !receiving t then distStep s f d 4 0
  else if d.cur < d.nBlocks then
    let d' := { d with cur := d.cur + 1 }
    setProgress (blockCast (distPut s d') f d' image d.cur) f 2 (d.cur + 1)
  else if distBusy s f.uid then s
  else match nextTgt d (d.cur - d.nBlocks) receiving with
    | some i =>
      let d' := { d with cur := d.nBlocks + i + 1 }
      imgAsk (distPut s d') f d' image i 8 1
    | none => if d.round + 1 < dByte f.raw 20 1 % 16 then distStep s f d 3 (d.round + 1) else distStep s f d 4 0

/-- Step 4: a target's missing blocks under its key, then its status. -/
def distRepair (s : State) (f : Flight) (d : Dist) (image : List Byte) : State :=
  distPass s f d receiving (fun s d i =>
    imgAsk ((missing d (tgtAt d i)).foldl (fun s b => imgAsk s f d image i 7 b) s) f d image i 8 1) fun s d => distStep s f d 5 0

/-- The next unit of a distribution. -/
def distNext (s : State) (f : Flight) (d : Dist) (image : List Byte) : State :=
  match d.step with
  | 2 => distPass s f d (fun t => decide (t.tstate < 3)) (fun s d i => imgAsk s f d image i 8 0) fun s d => distStep s f d 3 0
  | 3 => distRound s f d image
  | 4 => distRepair s f d image
  | 5 => distPass s f d (fun t => t.tstate == 3) (fun s d i => imgAsk s f d image i 8 2) fun s d => distStep s f d 6 0
  | _ =>
    if dByte f.raw 48 8 = 0 then distFinish s f d
    else if !d.tariff && decide ((dtOf s).toNat < dByte f.raw 48 8) then s
    else distPass s f d (fun t => t.tstate == 4) (fun s d i => imgAsk s f d image i 8 (if d.tariff then 4 else 3)) fun s d => distFinish s f d

/-- Whether a distribution admitted before this one has yet to start (R396). -/
def distBehind (s : State) (f : Flight) : Bool :=
  s.host.flights.any fun g => decide (g.uid < f.uid) && !g.ended && !g.admWait && !g.inPush && (distOf s g.uid).isNone &&
    unbegun g.stage && (dOpcode g.raw == 0x45 || dOpcode g.raw == 0x46 || dOpcode g.raw == 0x47)

/-- One execution of a distribution's row: its start, or its next unit. At most 16 run; the rest wait in admission order
(R396). `image`: the object; `tstates`: bytes 4 and 5 of each progress entry, TSTATE and REASON (R391). -/
def distRow (s : State) (uid op : Nat) (targets : List Word) (held : List (List Nat)) (tstates : List Nat) (image : List Byte) : State :=
  withDesc s uid op fun f =>
    let tariff := op == 0x45
    let image := if tariff then
        ((versionAt (tarGet s (dByte f.raw 24 1)) (dByte f.raw 48 8 / 2 ^ 24)).map Config.passiveCalendar).getD []
      else image.take (dByte f.raw 32 4)
    match distOf s uid with
    | some d => distNext s f d image
    | none =>
      ifUnused s f (if tariff then [(25, 7), (32, 6)] else []) <|
        match distBad s f.raw tariff with
        | some (r, o) => bad s f r o
        | none =>
          let l := listOf f targets
          listGuard s f l <|
            if 16 ≤ s.cmd.dists.length || distBehind s f then s
            else distStart s f tariff l ((List.range l.length).map fun i =>
              { eid := BitVec.ofNat 32 (lget 0 l i), tstate := lget 0 tstates i % 256, reason := lget 0 tstates i / 256 % 256,
                held := lget [] held i }) image

/-- A meter's answer to an image-transfer request (R391, R392). -/
def distAnswered (s : State) (f : Flight) (t : Txn) (fr : Frame) (ok : Bool) : State :=
  match distOf s f.uid with
  | none => s
  | some d =>
    let i := t.idx / 8
    let g := tgtAt d i
    if g.tstate = 6 then s
    else if !ok then (distFail s f d i stReject).1
    else match t.idx % 8 with
      | 0 =>
        if fr.result ≠ 0 then (distFail s f d i 0xE2).1
        else
          let (s, d) := distTgt s f d i fun t => { t with tstate := 1 }
          imgAsk s f d [] i 8 1
      | 1 =>
        match fr.imgHeld with
        | none => s
        | some h =>
          let h := h.filter fun b => decide (b < d.nBlocks)
          let st := if h.length = d.nBlocks then 3 else if h.length < g.held.length ∨ h.isEmpty then 1 else 2
          (distTgt s f d i fun t => { t with held := h, tstate := max st (if t.tstate = 4 then 4 else 0) }).1
      | 2 => if fr.result = 0 then (distTgt s f d i fun t => { t with tstate := 4 }).1 else (distFail s f d i 0xE3).1
      | 3 => if fr.result = 0 then (distTgt s f d i fun t => { t with tstate := 5 }).1 else (distFail s f d i 0xE4).1
      | 4 => if fr.result = 0 then (distTgt s f d i fun t => { t with tstate := 5 }).1 else (distFail s f d i 0xE4).1
      | _ => s

/-! ## Answers (R373, R374) -/

/-- A response that matches an open transaction and authenticates: the transaction closes, its descriptor goes on. A command
frame is answered by its link acknowledgement alone (R373). -/
def txnAnswered (s : State) (t : Txn) (fr : Frame) (flags : Word) (verdict : Nat) : State :=
  if t.what ≤ 2 then s
  else
  let s := txnClose s t.id
  match t.uid.bind (flightOf s) with
  | none => s
  | some f =>
    let ok := respStatus flags verdict == stOk
    match t.what with
    | 3 => readAnswered s f t flags verdict
    | 4 => readAnswered s f t flags verdict
    | 5 => if ok then creditAnswered s f fr else settle s f (respStatus flags verdict) 3 0
    | 6 => targetSettle s f.uid t.idx ok 3
    | 7 => distAnswered s f t fr ok
    | 8 => distAnswered s f t fr ok
    | _ => s

/-- A request that goes unanswered, with the status its descriptor gets. A read whose frame was never sent has done two
steps, one that was sent three (R83, R385). -/
def txnLost (s : State) (t : Txn) (st b20 : Nat) : State :=
  let s := txnClose s t.id
  match t.uid.bind (flightOf s) with
  | none => tkoSettle s t.uid st 3
  | some f =>
    if f.ended then s
    else match t.what with
    | 7 => match distOf s f.uid with | some d => (distFail s f d (t.idx / 8) st).1 | none => s
    | 8 => match distOf s f.uid with | some d => (distFail s f d (t.idx / 8) st).1 | none => s
    | 6 => targetSettle s f.uid t.idx false 3
    | 10 => s
    | _ =>
      match f.stage with
      | .list _ _ _ => targetSettle s f.uid t.idx false 5
      | _ => complete (objScrub s f) f st (if (t.what = 3 ∨ t.what = 4) ∧ t.since.isNone then 2 else 3) 0 (if st = stLinkLost then result4 0 b20 0 0 else 0)

/-- RESPONSE_TIMEOUT (R374): a request unanswered for RESP_TIMEOUT_S of its last transmission. -/
def responseTimeout (s : State) (id : Nat) : State :=
  match txnOf s id with
  | none => s
  | some t =>
    match t.since with
    | none => s
    | some at_ => if t.what < 3 ∨ !msPassed s at_ (1000 * t.respS) then s else txnLost s t stLinkLost 1

/-- Whether a frame of a descriptor is on the pins now (log entry 27). -/
def onPins (s : State) (uid : Nat) : Bool :=
  s.chan.tab.any fun p => decide (s.tcxo < p.2.busy) && p.2.tx.any fun f => f.uid == some uid && f.sent != 0 && !f.retry

/-- CMD_WAIT_S of a command: the one in force as its transaction opened (R399). -/
def cmdWaitOf (s : State) (uid : Nat) : Nat :=
  match s.cmd.txns.find? fun t => t.uid == some uid with
  | some t => t.waitS
  | none => regFld s 0x700 0 12

/-- Whether a frame of a descriptor has yet to be link-acknowledged. -/
def unacked (s : State) (uid : Nat) : Bool := s.chan.tab.any fun p => p.2.tx.any fun f => f.uid == some uid

/-- COMMAND_WAIT_TIMEOUT (R379): a command not acknowledged within CMD_WAIT_S of its admission is withdrawn. -/
def commandWaitTimeout (s : State) (uid : Nat) : State :=
  match flightOf s uid with
  | none =>
    if (s.harn.tko.any fun e => e.uid == uid && e.status.isNone && msPassed s e.since (1000 * cmdWaitOf s uid)) &&
        !onPins s uid then tkoSettle (txnCloseUid s uid) (some uid) stLinkLost 3
    else s
  | some f =>
    match f.stage with
    | .relay _ since _ _ =>
      if f.ended || !msPassed s since (1000 * cmdWaitOf s uid) || onPins s uid || !unacked s uid then s
      else linkLost (txnCloseUid s uid) f 3 1
    | _ => s

/-- LINK_ACKNOWLEDGEMENT (R373, R379): the oldest sent command frame of a meter on a channel is acknowledged. -/
def linkAcked (s : State) (ch eid : Nat) : State :=
  match (chGet s ch).tx.find? fun f => f.eid == eid && f.sent != 0 with
  | none => s
  | some x =>
    let s := txMap s ch fun f => if f.id = x.id then none else some f
    if x.what ≤ 2 then
      let s := match x.txn with | some id => txnClose s id | none => s
      let tag := match x.uid.bind (flightOf s) with | some f => dTag f.raw | none => 0
      let s := match x.uid.bind (flightOf s) with
        | some f => if f.ended then s else
            mirrorSend (completeOk s f 4 (result4 x.ic.toNat 0 0 0)) 0x14 [2, f.uid]
        | none => if x.uid.isNone then mirrorSend s 0x14 [3, eid, x.ic.toNat] else tkoSettle s x.uid stOk 4
      if (recGet s eid).proto = 0 && (outRefuse s eid (x.tc == 0)).isNone then
        (sendRequest s eid x.tc 10 0 controlApp none tag false 0).2
      else s
    else if x.what = 6 then
      match x.txn.bind (txnOf s), x.uid with
      | some t, some uid => targetSettle (txnClose s t.id) uid t.idx true 3
      | _, _ => s
    else s

end Sys2Proof.Machine
end

