-- ==== Sys2Proof/Machine/Cipher.lean ====
section
/-!
DEFINITION. The cipher engine's own events (05): noise sources, the DRBG's reseed, known-answer tests.
-/
namespace Sys2Proof.Machine
open Sys2Proof

/-! ## Noise sources and the DRBG (R163 to R165) -/

def noiseFail (s : State) (src : Nat) : State :=
  if 1 < src then s
  else
    let s := if src = 0 then { s with ce := { s.ce with entA := false } } else { s with ce := { s.ce with entB := false } }
    logEvent 0x0301 src (drbgJudge (ceFault s (6 + src)))

def noiseReturn (s : State) (src : Nat) : State :=
  if 1 < src || (if src = 0 then s.ce.entA else s.ce.entB) then s
  else
    let s := if src = 0 then { s with ce := { s.ce with entA := true } } else { s with ce := { s.ce with entB := true } }
    logEvent 0x0301 (src + 256) s

/-- DRBG_RESEED: after 2^RESEED_LOG2 requests; without a passing source the DRBG refuses until one returns. -/
def drbgReseed (s : State) : State :=
  if drbgOpen s then s
  else if s.ce.entA || s.ce.entB then { s with ce := { s.ce with reqs := 0, exhausted := false, drbgOk := true } }
  else { s with ce := { s.ce with exhausted := true, drbgOk := false } }

end Sys2Proof.Machine
end

