-- ==== Sys2Proof/Machine/ReadPath.lean ====
section
/-!
DEFINITION. The reading path (04): tunnel ingress, parse and classify, kennel lookups and unwraps, decrypt and verify,
replay, validation, posting and record formation, the quarantine ring.
-/
namespace Sys2Proof.Machine
open Sys2Proof

def rpSet (s : State) (g : RpSt → RpSt) : State := { s with rp := g s.rp }

/-- Depth 512 or so with a TC0 reserve of 64 (01 R28). -/
def qRoom (n depth : Nat) (tc0 : Bool) : Bool := decide (n < if tc0 then depth else depth - 64)

/-! ## Tunnel ingress (R124 to R127) -/

def entrySpan (e : TunnelEntry) : Nat := 16 + (e.len + 7) / 8 * 8

/-- Whether a header's fields lie in range. -/
def entryOk (e : TunnelEntry) : Bool :=
  decide (1 ≤ e.len ∧ e.len ≤ 2048) && decide (e.framing.toNat < 4) && decide (e.flags.toNat < 4) && e.resv == 0

/-- The first failing entry, or the count where only totals disagree (R124). -/
def tunnelBad (raw : BitVec 512) (l : List TunnelEntry) : Option Nat :=
  let n := dByte raw 24 4
  match (List.range l.length).find? fun i => match l.drop i with | e :: _ => !entryOk e | [] => false with
  | some i => some i
  | none => if l.length ≠ n ∨ (l.map entrySpan).sum ≠ dBufLen raw then some n else none

/-- Rows 2 and 3 of R128: a frame of the wireless M-Bus alarm protocol, or to the alarm client of the meter's link
profile. -/
def alarmProto (s : State) (f : Frame) (eid : Option Nat) : Bool :=
  (f.proto != 0 && (f.framing == 1 || f.framing == 2) && (f.ci == 0x74 || f.ci == 0x75)) ||
  (match eid with
   | some e => f.proto == 0 && f.framing == 0 && planLoaded s &&
               tb (plan s) (lpAt (epProfile (recGet s e)) + 5) != 0 &&
               f.client == tb (plan s) (lpAt (epProfile (recGet s e)) + 5)
   | none => false)

/-- An alarm: rows 2 and 3, or a frame of a TC0 slot that answers nothing (R128, R139). -/
def alarmHead (s : State) (f : Frame) (slotKind : Nat) (eid : Option Nat) : Bool :=
  (slotKind == 1 && !f.response) || alarmProto s f eid

/-- The open transaction a response matches: address and DLMS invoke-id, or access number. -/
def txnMatch (s : State) (f : Frame) (eid : Option Nat) : Option Txn :=
  match eid with
  | none => none
  | some e => if !f.response then none else s.cmd.txns.find? fun t => t.eid == e && !t.waiting &&
      t.invoke == (if f.proto = 0 then f.invoke else f.ic.toNat % 256)

/-- The class of the first row of R128 that matches. -/
def rowCls (s : State) (f : Frame) (slotKind : Nat) (eid : Option Nat) : Nat :=
  if slotKind == 1 || alarmProto s f eid then 0 else match txnMatch s f eid with | some t => t.cls | none => 2

/-- A TC0 frame of more than 128 bytes of ciphertext (R129). -/
def oversize (s : State) (f : Frame) (slotKind : Nat) (eid : Option Nat) : Bool :=
  rowCls s f slotKind eid == 0 && decide (128 < f.ctLen)

/-- The class the parser gives a frame (R128, R129). -/
def frameCls (s : State) (f : Frame) (slotKind : Nat) : Nat :=
  let eid := addrResolve s f.addr f.proto
  if oversize s f slotKind eid then 1 else rowCls s f slotKind eid

def tunnelUnits (l : List RpItem) : Nat := (l.map fun i => units i.f.raw.length).sum

/-- An item as it enters a queue, before it is parsed. -/
def newItem (id : Nat) (f : Frame) (ch : Nat) (tunnel : Bool) (rxDt : BitVec 64) (rssi : Byte) (src : BitVec 16)
    (remote : Bool) : RpItem :=
  { id := id, f := f, ch := ch, tunnel := tunnel, rxDt := rxDt, rssi := rssi, src := src, cls := 2, tc0 := false,
    eid := none, flags := if remote then 0x100000 else 0, txn := none, gen := 0, verdict := 0, qseq := 0, tried := 0,
    refs := [], uid := none, tag := 0, what := 0, alarm := false, pipe := none }

/-- Admit tunnelled frames in order while their queue has room and their group is not in back-pressure, which TC0 frames
pass (R76, R148); how many were (R126). -/
def tunnelAdmit (g uid : Nat) : List TunnelEntry → State → Nat → State × Nat
  | [], s, n => (s, n)
  | e :: t, s, n =>
    let q := lget [] s.rp.tunnel g
    let it := newItem s.rp.idNext e.frame (16 * g) true (if e.flags.toNat % 2 = 1 then e.rdt else dtOf s)
      (if e.flags.toNat / 2 % 2 = 1 then e.rssi else 0x80) e.src (e.flags.toNat % 2 == 1)
    let tc0 := frameCls s e.frame 0 == 0
    let lim := if tc0 then 1024 else 960
    if lim < tunnelUnits q + units e.len || (!tc0 && decide (16320 ≤ s.host.deliv.length)) then (s, n)
    else
      let s := mirrorGated s 0x10 [it.id, e.len] 3 uid
      let s := rpSet (cnt s 235) fun r => { r with tunnel := lset r.tunnel g (q ++ [it]), idNext := r.idNext + 1 }
      tunnelAdmit g uid t s (n + 1)

/-- OP_TUNNEL_RX: the check of every header, then admission in list order, resumed while credit is withheld. -/
def tunnelRx (s : State) (uid : Nat) (entries : List TunnelEntry) : State :=
  withDesc s uid 0x30 fun f =>
    let g := dAux f.raw % 4
    let re := dAux f.raw / 4 % 2 == 1
    let n := dByte f.raw 24 4
    if n = 0 ∨ 4096 < n then badParam s f 24
    else match tunnelBad f.raw entries with
    | some i => reject s f stBad (badResult rsParam 24 i)
    | none =>
      if !re && !groupHead s g then badParam s f 20
      else
        let st := (fnGet s (0x0200 + g)).st
        if f.stage = .none ∧ st = .off then reject s f stOff 0
        else if f.stage = .none ∧ st = .stopping then reject s f stStopping 0
        else if f.stage = .none ∧ st = .starting then s
        else if s.rp.stopped then s
        else
          let s := bwRx s 66 (dBufLen f.raw)
          let (s, k) := tunnelAdmit g uid (entries.drop f.units) s f.units
          if k = n ∧ gateShut s 3 uid = false then completeOk s f 2 (result4 n 0 0 0)
          else setProgress s { f with stage := .wait s.tcxo 0 0 } 1 k

/-! ## Kennel lookups (06 R203, R204) -/

/-- Generations of an endpoint's usable keys, the current one first (R132, 06 R219). -/
def usableGens (s : State) (r : EpRec) : List (BitVec 8) :=
  if kcRevoked r then []
  else match dirUse s (0x30000000 + kcDomain r) with
    | .ok _ _ => (if kcCurValid r && r.keyCur.isSome then [kcCur r] else []) ++
                 (if kcPendValid r && r.keyPend.isSome then [kcPend r] else [])
    | _ => []

/-- Look every key of an item up: references taken at once on hits, lookups queued on misses. -/
def itemLookup (s : State) (it : RpItem) (h : Nat) : List (BitVec 8) → State × RpItem
  | [] => (s, it)
  | g :: t =>
    match kennelLookup s it.id h g it.tc0 with
    | (s, some i) => itemLookup s { it with refs := it.refs ++ [i] } h t
    | (s, none) => itemLookup s it h t

/-- Give back every reference of an item (R203). -/
def itemRelease (s : State) (it : RpItem) : State := it.refs.foldl slotRelease s

def setFlag (w : Word) (i : Nat) : Word := w ||| BitVec.ofNat 32 (2 ^ i)

/-- Whether the key in a slot is usable for a frame: security mode 7 needs USAGE bit 5 (06 R198). -/
def keyServes (s : State) (f : Frame) (i : Nat) : Bool := f.prot != .mode7 || (slotGet s i).usage.toNat / 32 % 2 == 1

/-- An item without the keys that are not usable for it; their references go back. -/
def itemUsable (s : State) (it : RpItem) : State × RpItem :=
  ((it.refs.filter fun i => !keyServes s it.f i).foldl slotRelease s, { it with refs := it.refs.filter (keyServes s it.f) })

/-! ## The replay check (R133, R134) -/

/-- The counter a frame leaves in RX_IC. -/
def frameIc (f : Frame) : Word := if f.proto = 0 then f.ic else BitVec.ofNat 32 (f.ic.toNat % 256)

/-- RX_IC as the replay check reads it: the pinned-state store's, that of the endpoint's newest frame still on the path, or
the record's. -/
def seenIc (s : State) (eid : Nat) : Word :=
  if (pinGet s eid).on then (pinGet s eid).rxIc else (tget none s.rp.ics eid).getD (recGet s eid).rxIc

/-- The replay check of R133: whether the counter passes. -/
def replayPasses (ic validCfg : Word) (f : Frame) : Bool :=
  if f.proto = 0 then decide (ic.toNat < f.ic.toNat)
  else
    let w := fld validCfg 8 8
    let d := (f.ic.toNat % 256 + 256 - ic.toNat % 256) % 256
    decide (1 ≤ d ∧ d ≤ if w = 0 then 128 else w)

/-- Whether a frame carries a counter: every M-Bus frame, and protected DLMS frames. -/
def hasCounter (f : Frame) : Bool := f.proto != 0 || f.prot != .plain

/-- RX_IC takes a counter: at once in the pinned-state store; in the record as the item's change is written back, in one
step with WRITE_SEQ and OWNER_EPOCH (R95, R116). -/
def rxSet (s : State) (eid : Nat) (f : Frame) : State :=
  if (pinGet s eid).on then pinPut s eid { pinGet s eid with rxIc := frameIc f }
  else rpSet s fun r => { r with ics := tset none r.ics eid (some (frameIc f)) }

/-- The place of the duplicate filter an entry falls to. -/
def dupPlace (e : DupEnt) : BitVec 16 := Config.filterHash e.eid e.gen e.ctr e.tag4

/-- Take a duplicate-filter entry: of 65,536 places a newer entry replaces the older one it collides with. While DEDUP_EN
is 0 the filter is skipped (R134). -/
def dupTake (s : State) (it : RpItem) (eid : Nat) : State :=
  let e : DupEnt := { eid := eid, gen := it.gen, ctr := it.f.ic, tag4 := it.f.tag4, taken := s.tcxo }
  if wbit (regGet s 0x200) 1 then rpSet s fun r => { r with filter := e :: r.filter.filter fun x => dupPlace x != dupPlace e } else s

def dupHit (s : State) (it : RpItem) (eid : Nat) : Bool :=
  wbit (regGet s 0x200) 1 && s.rp.filter.any fun x => x.eid == eid && x.gen == it.gen && x.ctr == it.f.ic && x.tag4 == it.f.tag4

/-- A frame that ends without a record: its place and its mirror copy are released. -/
def itemDiscard (s : State) (it : RpItem) : State :=
  let s := if it.tc0 then rpSet s fun r => { r with tc0Frames := r.tc0Frames - 1 } else s
  drainCheck (mirrorSend s 0x14 [1, it.id])

/-- The replay stage: on to validation, or discarded as a copy. `promoted`: the frame has just promoted its key. DEDUCED
(log entry 160): a frame whose counter is not authenticated, flagged NO_KEY, AUTH_FAIL or PARSE_ERR, skips the check. -/
def replayStage (s : State) (it : RpItem) (promoted : Bool) : State :=
  let on := fun (s : State) (it : RpItem) => rpSet s fun r => { r with validQ := r.validQ ++ [it] }
  match it.eid with
  | none => on s it
  | some e =>
    if !hasCounter it.f || wbit it.flags 1 || wbit it.flags 2 || wbit it.flags 3 then on s it
    else if promoted || replayPasses (seenIc s e) (recGet s e).validCfg it.f then on (dupTake (rxSet s e it.f) it e) it
    else if dupHit s it e then itemDiscard (cnt s 233) it
    else on s { it with flags := setFlag it.flags 4 }

/-- An item leaves the parser: with keys to the cipher, without to the replay check. DEDUCED (log entry 159): NO_KEY is a
protected frame's flag: one without protection needs no key. -/
def itemForward (s : State) (it : RpItem) : State :=
  let (s, it) := itemUsable s it
  if it.refs.isEmpty then
    let fl := if it.eid.isSome && !wbit it.flags 3 && it.f.prot != .plain then setFlag it.flags 1 else it.flags
    replayStage s { it with flags := fl } false
  else if it.cls = 0 ∧ (tc0Lane s).isSome then rpSet s fun r => { r with tc0Q := r.tc0Q ++ [it] }
  else rpSet s fun r => { r with cipherQ := r.cipherQ ++ [it] }

/-- Whether an item may leave the parser's queue: no lookup of it waits, and room beyond it. -/
def itemFree (s : State) (it : RpItem) : Bool :=
  !(s.keys.missQ.any fun m => m.item == it.id) &&
  (if (it.refs.filter (keyServes s it.f)).isEmpty then qRoom s.rp.validQ.length 512 it.tc0
   else qRoom s.rp.cipherQ.length 1024 it.tc0)

/-- Pass on every item that may go, in order; an item behind one of its own EID stays behind it. -/
def forwardAll : List RpItem → List (Option Nat) → State → State
  | [], _, s => s
  | it :: t, held, s =>
    if itemFree s it && !(it.eid.isSome && held.contains it.eid) then
      forwardAll t held (itemForward (rpSet s fun r => { r with parsed := r.parsed.filter fun x => x.id != it.id }) it)
    else forwardAll t (it.eid :: held) s

def rpForward (s : State) : State := forwardAll s.rp.parsed [] s

/-! ## Parse and classify (R128 to R130) -/

/-- Whether the parameters a frame's protection asks for are among those the pipelines run (05 R160). -/
def paramOk (f : Frame) : Bool :=
  match f.param with
  | .none => true
  | .gcm iv tag => iv == 96 && (tag == 12 || tag == 16) && decide (f.aadLen ≤ 2048)
  | .ccm nonce tag => decide (7 ≤ nonce ∧ nonce ≤ 13 ∧ 4 ≤ tag ∧ tag ≤ 16) && tag % 2 == 0
  | .cbc n => n % 16 == 0
  | .ctr => true
  | .cmac tag => decide (4 ≤ tag ∧ tag ≤ 16)
  | .other => false

/-- Where a frame arrived, other than its record's channel or group (R136 bit 23). -/
def elsewhere (s : State) (eid : Nat) (it : RpItem) : Bool :=
  let c := chanOf s eid
  if it.tunnel then c != 64 && it.ch / 16 != c / 16 else it.ch != c

/-- Classify and resolve an item at the parse stage. DESIGN CHOICE (log entry 157): a response that matches no open
transaction is flagged LATE_RESPONSE whatever the reason: a transaction that is gone tells nothing of why. -/
def classify (s : State) (it : RpItem) (slotKind : Nat) : RpItem :=
  let f := it.f
  let eid := addrResolve s f.addr f.proto
  let alarm := alarmHead s f slotKind eid
  let t := if alarm then none else txnMatch s f eid
  let big := oversize s f slotKind eid
  let cls := frameCls s f slotKind
  let fl := it.flags
  let fl := if eid.isNone then setFlag fl 0 else fl
  let fl := if !f.parseOk || !paramOk f then setFlag fl 3 else fl
  let fl := if f.prot = .plain then setFlag fl 5 else fl
  let fl := if f.prot = .mode5 then setFlag fl 6 else fl
  let fl := match eid with
    | some e => let r := recGet s e
                let fl := if r.state = 2 then setFlag fl 15 else fl
                if elsewhere s e it then setFlag fl 23 else fl
    | none => fl
  let fl := if f.response && t.isNone && !alarm then setFlag fl 16 else fl
  let fl := if big then setFlag fl 17 else fl
  { it with eid := eid, cls := cls, alarm := alarm, flags := fl, txn := t.map (·.id), uid := t.bind (·.uid),
            tag := match t with | some t => t.tag | none => 0, what := match t with | some t => t.what | none => 0 }

/-- Whether the parse stage has room for an item of a class: a place at its output, and two for its lookups (06 R204). -/
def parseRoom (s : State) (tc0 : Bool) : Bool :=
  qRoom s.rp.parsed.length 512 tc0 && qRoom (s.keys.missQ.length + 1) 512 tc0

/-- Take a classified item into the parser's output and look its keys up. -/
def parseTake (s : State) (it : RpItem) : State :=
  let s := cnt (cnt s 224) (225 + it.cls)
  let s := if it.tc0 then rpSet s fun r => { r with tc0Frames := r.tc0Frames + 1 } else s
  let gens := match it.eid with
    | some e => if wbit it.flags 3 || it.f.prot == .plain then [] else usableGens s (recGet s e)
    | none => []
  let (s, it) := itemLookup s it (epHandle (it.eid.getD 0)) gens
  rpForward (rpSet s fun r => { r with parsed := r.parsed ++ [it] })

/-- The frame at the head of an ingress queue, its slot kind, and the state without it. -/
def ingressHead (s : State) (tunnel : Bool) (src : Nat) : Option (RpItem × Nat × State) :=
  if tunnel then
    match lget [] s.rp.tunnel src with
    | [] => none
    | it :: t => some (it, 0, rpSet s fun r => { r with tunnel := lset r.tunnel src t })
  else
    match (chGet s src).rx with
    | [] => none
    | x :: t =>
      some (newItem x.id x.f src false x.rxDt x.lk.rssi 0 false, x.lk.slotKind, bpUpdate (chPut s src { chGet s src with rx := t }) src)

/-- Classes of the frames that stand at the heads of the ingress queues and find room at the parse stage. -/
def parseWaiting (s : State) : List Nat :=
  (((List.range 4).map fun g => (true, g)) ++ (s.chan.tab.map fun p => (false, p.1))).filterMap fun q =>
    match ingressHead s q.1 q.2 with
    | some (it, slot, _) =>
      let c := frameCls s it.f slot
      if parseRoom s (c == 0) && !s.host.admQ.contains (.frame q.1 q.2) then some c else none
    | none => none

/-- Parse the head of an ingress queue, as the parser's arbiter grants its class (01 R26); `place`: it holds, or is given,
a TC0 place. -/
def parseHead (s : State) (tunnel : Bool) (src : Nat) (place : Bool) : State :=
  match ingressHead s tunnel src with
  | none => s
  | some (it, slot, s') =>
    let it := classify s it slot
    let tc0 := it.cls == 0
    let s' := arbTake s' 1 it.cls
    if !parseRoom s tc0 || !(place || arbGrants s 1 it.cls (parseWaiting s)) then s
    else if tc0 && !place && (decide (64 ≤ tc0Used s) || !s.host.admQ.isEmpty) then
      if s.host.admQ.contains (.frame tunnel src) then s
      else cnt { s with host := { s.host with admQ := s.host.admQ ++ [.frame tunnel src] } } 298
    else if s.host.admQ.contains (.frame tunnel src) && !place then s
    else parseTake s' { it with tc0 := tc0 }

def parseAndClassify (s : State) (tunnel : Bool) (src : Nat) : State := parseHead s tunnel src false

/-- TC0_ADMISSION: the longest-waiting TC0 item gets a place that has freed (R29). -/
def tc0Admission (s : State) : State :=
  match s.host.admQ with
  | [] => s
  | a :: rest =>
    if 64 ≤ tc0Used s then s
    else
      let s' := { s with host := { s.host with admQ := rest } }
      match a with
      | .desc uid => admitDesc s' uid
      | .frame tunnel src => if parseRoom s true then parseHead s' tunnel src true else s

/-! ## KEY_UNWRAP (06 R202 to R205) -/

/-- The class of a queued lookup: its item's. -/
def missCls (s : State) (m : Miss) : Nat :=
  if m.tc0 then 0 else match s.rp.parsed.find? fun it => it.id == m.item with | some it => it.cls | none => 2

/-- The lookup to serve: the oldest of the class the arbiter of queue 0x45 grants (01 R26). -/
def missFront (s : State) : Option Miss := arbFront s 7 (missCls s) s.keys.missQ

/-- The endpoint whose key a handle names. -/
def handleEid (s : State) (h : Nat) : Option Nat := (s.recs.tab.find? fun p => epHandle p.1 == h).map (·.1)

/-- The blob of a queued lookup: none where its key has been erased or revoked meanwhile (06 R213, R220). -/
def missBlob (s : State) (m : Miss) : Option Blob :=
  (s.recs.tab.find? fun p => epHandle p.1 == m.handle && (p.2.state == 1 || p.2.state == 2)).bind fun p =>
    if kcRevoked p.2 then none
    else if kcCurValid p.2 && kcCur p.2 == m.gen then p.2.keyCur else if kcPendValid p.2 && kcPend p.2 == m.gen then p.2.keyPend else none

/-- Drop every lookup of a handle and generation; a slot LOADING for it is FREE again (06 R202). -/
def missDrop (s : State) (m : Miss) : State :=
  let s := { s with keys := { s.keys with missQ := s.keys.missQ.filter fun x => !(x.handle == m.handle && x.gen == m.gen) } }
  match slotFind s m.handle m.gen 1 with
  | some i => slotPut s i Slot.free
  | none => s

/-- Every item waiting for a key takes its reference on the loaded slot. -/
def missServe (s : State) (m : Miss) (i : Nat) : State :=
  let ids := (s.keys.missQ.filter fun x => x.handle == m.handle && x.gen == m.gen).map (·.item)
  let n := (s.rp.parsed.filter fun it => ids.contains it.id).length
  let s := slotPut s i { slotGet s i with refs := (slotGet s i).refs + n }
  missDrop (rpSet s fun r => { r with parsed := r.parsed.map fun it => if ids.contains it.id then { it with refs := it.refs ++ [i] } else it }) m

/-- The slot of a lookup: the one LOADING for it, else one that has become free (06 R202, R205). -/
def missSlot (s : State) (m : Miss) : Option (Nat × State) :=
  match slotFind s m.handle m.gen 1 with
  | some i => some (i, s)
  | none => slotAlloc s

/-- The lookup's key unwrapped under its parent's: READY and handed to every item that waits for it; a blob that fails R198
frees its slot. -/
def missLoad (s : State) (m : Miss) (b : Blob) (kek : BitVec 256) (pg : BitVec 8) : State :=
  match missSlot s m with
  | none => s
  | some (i, s) =>
    match wrapRun s kek with
    | (s, none) => s
    | (s, some _) =>
      match blobCheck (some b) kek m.handle b.parent.toNat m.gen pg with
      | some c => rpForward (missDrop (logBlob s m.handle c) m)
      | none =>
        let pin := match handleEid s m.handle with | some e => (pinGet s e).on | none => false
        rpForward (missServe (slotLoad s i m.handle b pin false) m i)

/-- One unwrap: the parent first where it is absent, then the key (R122, 06 R202). -/
def keyUnwrap (s : State) : State :=
  match missFront s with
  | none => s
  | some m =>
    let s := arbTake s 7 (missCls s m)
    match slotFind s m.handle m.gen 2, missBlob s m with
    | some i, _ => rpForward (missServe s m i)
    | none, none => rpForward (missDrop s m)
    | none, some b =>
      match dirUse s b.parent.toNat with
      | .ok kek pg =>
        if (slotFind s b.parent.toNat (dirGet s b.parent.toNat).curGen 2).isNone then (ensureDir s b.parent.toNat false).getD s
        else missLoad s m b kek pg
      | _ => rpForward (missDrop s m)

/-! ## Decrypt and verify (R131, R132) and the replay check (R133, R134) -/

/-- The slots of an item in the order its keys are tried: the current generation, then the pending one. -/
def keyOrder (s : State) (it : RpItem) : List Nat :=
  match it.eid with
  | none => it.refs
  | some e =>
    let c := kcCur (recGet s e)
    (it.refs.filter fun i => (slotGet s i).gen == c) ++ it.refs.filter fun i => (slotGet s i).gen != c

/-- The key a frame verifies under (R131); mode 7 needs a key that may derive (06 R198). -/
def verifyKey (s : State) (it : RpItem) : Option Nat :=
  (keyOrder s it).find? fun i =>
    it.f.keyMat == some (slotGet s i).key && keyServes s it.f i

/-- Promotion of the pending key by the first frame that verifies under it (R132, 06 R217). -/
def itemPromote (s : State) (eid : Nat) : State :=
  let r := recView s eid
  let s := cmdChange s eid (promoted r)
  retireEp s eid (kcCur r)

/-- A verified item, under the slot it verified with. -/
def itemVerified (s : State) (it : RpItem) (slot : Nat) : State :=
  let g := (slotGet s slot).gen
  let s := itemRelease s it
  let it := { it with gen := g, refs := [] }
  match it.eid with
  | none => replayStage s it false
  | some e =>
    let r := recGet s e
    if kcPendValid r && kcPend r == g && (!kcCurValid r || kcCur r != g) then
      replayStage (itemPromote s e) { it with flags := setFlag it.flags 18 } true
    else replayStage s it false

/-- Pipelines an item has not been flagged on (05 R178). -/
def untried (it : RpItem) (l : List Nat) : List Nat := l.filter fun p => it.tried / 2 ^ p % 2 == 0

/-- Whether an item stands in a pipeline, waiting there for mask sets. -/
def inPipe (s : State) (it : RpItem) : Bool := match it.pipe with | some p => pipeOn s p && !untried it [p] == [] | none => false

/-- The general pipeline an item goes to: the one an item of its EID is in, else the one with the most mask sets (05 R154). -/
def generalPipe (s : State) (it : RpItem) : Option Nat :=
  match s.rp.cipherQ.find? fun x => x.id != it.id && x.eid == it.eid && x.eid.isSome && inPipe s x with
  | some x => x.pipe
  | none => fullest s (untried it (generalPipes s))

/-- The pipeline an item goes to: a TC0 item's is the class-0 lane while there is one (05 R153, R180). -/
def itemPipe (s : State) (it : RpItem) : Option Nat :=
  match tc0Lane s with
  | some l => if it.cls = 0 then (untried it [l]).head? else generalPipe s it
  | none => generalPipe s it

/-- The item a pipeline works on: the one that waits in it, else of the items that stand before a pipeline the one the
arbiter grants, the class-0 lane's apart (01 R26). -/
def cipherFront (s : State) (p : Nat) : Option RpItem :=
  let all := s.rp.tc0Q ++ s.rp.cipherQ
  match all.find? fun i => inPipe s i && i.pipe == some p with
  | some i => some i
  | none =>
    let lane := fun (i : RpItem) => i.cls == 0 && (tc0Lane s).isSome
    if tc0Lane s = some p then all.find? fun i => lane i && !inPipe s i
    else arbFront s 2 (·.cls) ((eidHeads (·.eid) [] (all.filter fun i => !lane i)).filter fun i => !inPipe s i)

/-- Change an item in the cipher's queues. -/
def cipherMod (s : State) (id : Nat) (g : RpItem → Option RpItem) : State :=
  let h := fun (l : List RpItem) => l.filterMap fun x => if x.id = id then g x else some x
  rpSet s fun r => { r with cipherQ := h r.cipherQ, tc0Q := h r.tc0Q }

/-- Blocks of an item: its ciphertext's under each key tried, and two of a key derivation of security mode 7 (log entry
153). -/
def itemBlocks (it : RpItem) : Nat :=
  (blocks16 it.f.ctLen + if it.f.prot = .mode7 then 2 else 0) * max 1 it.refs.length

/-- The hold buffer at its fullest: a single frame's units stand from the start of its decryption to its end, within the
step (R142; 05 R169). -/
def holdNote (s : State) (it : RpItem) : State :=
  { s with ce := { s.ce with holdPeak := max s.ce.holdPeak (holdUsed s + units it.f.ctLen) } }

/-- The pipeline of the second tag check: a different one of those in service (05 R179). -/
def secondPipe (s : State) (p : Nat) : Option Nat := fullest s ((generalPipes s).filter fun q => q != p)

/-- A failing tag checked again on a different pipeline: AUTH_FAIL only where both fail; else the passing result stands and
the first pipeline is disabled. None: the item waits for such a pipeline (05 R179). -/
def secondCheck (s : State) (it : RpItem) (p : Nat) (ok : Bool) : Option State :=
  match secondPipe s p with
  | none => none
  | some q =>
    (blocksPass s q (itemBlocks it)).map fun s =>
      let s := cnt s 239
      match ok, keyOrder s it with
      | true, i :: _ => itemVerified (pipeFault (ceFault s 8) p) it i
      | _, _ => replayStage (itemRelease s it) { it with flags := setFlag it.flags 2, refs := [] } false

/-- An item's pass through a pipeline, its output taken: verified, or checked a second time. -/
def cipherPass (s : State) (it : RpItem) (p : Nat) (secondOk : Bool) : Option State :=
  let s := cipherMod (holdNote s it) it.id fun _ => none
  let it := { it with pipe := some p }
  match verifyKey s it with
  | some i => some (rpForward (itemVerified s it i))
  | none => (secondCheck s it p secondOk).map rpForward

/-- The keys of an item handed to a pipeline, one after the other. -/
def keysHand (s : State) (p : Nat) (l : List Nat) : State := l.foldl (fun s i => pipeLoad (slotHand s i).1 p (slotHand s i).2) s

/-- DECRYPT_AND_VERIFY (R131, R132; 05 R154, R177 to R179): the item of a pipeline completes, or waits in it. -/
def decryptVerify (s : State) (p : Nat) (fault secondOk : Bool) : State :=
  match cipherFront s p with
  | none => s
  | some it =>
    let b := itemBlocks it
    if (!inPipe s it && itemPipe s it != some p) || !qRoom s.rp.validQ.length 512 it.tc0 then s
    else
      let s := if inPipe s it then s else arbTake s 2 it.cls
      let waits := fun (s : State) => cipherMod s it.id fun x => some { x with pipe := some p }
      match blocksPass s p b with
      | none => waits (cntAdd s (262 + p) b 0xFFFFFFFF)
      | some s' =>
        let s' := keysHand s' p (keyOrder s' it)
        if fault || stageFlag s' p then
          pipeFault (cipherMod (stageSet s' p false) it.id fun x => some { x with tried := x.tried ||| 2 ^ p, pipe := none }) p
        else (cipherPass s' it p secondOk).getD (waits s)

/-- FILTER_ENTRY_EVICTION (R134): entries DEDUP_WINDOW_S old. -/
def filterEvict (s : State) : State :=
  rpSet s fun r => { r with filter := r.filter.filter fun e => !msPassed s e.taken (1000 * regFld s 0x200 8 8) }

/-! ## Validation (R135 to R138) -/

def profA (s : State) (r : EpRec) : Word := regGet s (0x240 + 8 * fld r.validCfg 0 4)
def profB (s : State) (r : EpRec) : Word := regGet s (0x244 + 8 * fld r.validCfg 0 4)

/-- Meter time as DT; a frame without one takes its receive DT (R135). -/
def itemTime (s : State) (r : EpRec) (it : RpItem) : BitVec 64 :=
  match it.f.time with
  | some t => meterDt s (calGet s (epCal r)).bytes t
  | none => it.rxDt

/-- Increase of registers 0 and 1 together. -/
def energyRise (r : EpRec) (regs : List (Nat × BitVec 64)) : Int :=
  (regs.map fun p => if p.1 < 2 then (p.2.toNat : Int) - (tget 0 r.energy p.1).toNat else 0).sum

/-- Whether a meter time falls in a period the record has closed. -/
def inClosed (s : State) (r : EpRec) (mt : BitVec 64) : Bool :=
  decide (mt.toNat / 2 ^ 24 < periodStart s (calGet s (epCal r)) r.period.toNat)

/-- A content duplicate (R137). -/
def contentDup (s : State) (r : EpRec) (it : RpItem) : Bool :=
  it.f.time.isSome && itemTime s r it == r.lastMeter &&
    (carried r it.f.regs).all fun p => p.2 == tget 0 r.energy p.1

/-- The flags that need plaintext, bits 7 to 14, 19 and 22 of R136. DEDUCED (log entry 158): the time rules, which do not
apply to a frame without meter time, are TIME_BACK, CLOCK_SKEW, TIME_FUTURE, GAP, LATE_PERIOD and BACKFILL; the register
and rate rules take its receive DT. -/
def plainFlags (s : State) (r : EpRec) (it : RpItem) : List (Nat × Bool) :=
  let mt := itemTime s r it
  let hasT := it.f.time.isSome
  let regs := carried r it.f.regs
  let dtS : Int := ((mt.toNat : Int) - r.lastMeter.toNat) / 2 ^ 24
  let back := hasT && decide (mt.toNat < r.lastMeter.toNat) && fld (profB s r) 24 8 != 0 &&
    decide (r.lastMeter.toNat ≤ mt.toNat + fld (profB s r) 24 8 * 86400 * 2 ^ 24) &&
    regs.all fun p => decide (p.2.toNat ≤ (tget 0 r.energy p.1).toNat)
  let skew := fld (profB s r) 0 8
  let maxP := fld (profA s r) 0 16
  let rise := energyRise r regs
  [(7, hasT && decide (mt.toNat ≤ r.lastMeter.toNat) && !back && !contentDup s r it),
   (8, hasT && skew != 0 && decide (skew * 2 ^ 24 < ((mt.toNat : Int) - it.rxDt.toNat).natAbs)),
   (9, hasT && decide (it.rxDt.toNat + fld (profB s r) 8 8 * 60 * 2 ^ 24 < mt.toNat)),
   (10, decide (r.lastMeter.toNat < mt.toNat) && regs.any fun p => decide (p.2.toNat < (tget 0 r.energy p.1).toNat)),
   (11, maxP != 0 && decide (1 ≤ dtS) && decide ((maxP : Int) * fld (profA s r) 16 7 * dtS < rise * 3600)),
   (12, maxP != 0 && decide (1 ≤ dtS) && decide ((maxP : Int) * dtS < rise * 36)),
   (13, hasT && fld (profB s r) 16 8 != 0 && decide ((fld (profB s r) 16 8 * 3600 : Int) < dtS)),
   (14, hasT && inClosed s r mt),
   (19, r.demand.baselineSet && regs.any fun p =>
      let d : Int := (p.2.toNat : Int) - (tget 0 r.energy p.1).toNat
      decide (d < -(2 ^ 31)) || decide (2 ^ 31 ≤ d)),
   (22, back)]

/-- The verdict a flag imposes (R136): 0 none, 1 ACCEPT_FLAGGED, 2 QUARANTINE, 3 REJECT. -/
def flagVerdict (cfg : Word) (i : Nat) : Nat :=
  match i with
  | 0 => 2 | 1 => 2 | 2 => 3 | 3 => 3 | 4 => 3
  | 5 => if wbit cfg 4 then 1 else 3
  | 6 => if wbit cfg 5 then 0 else 1
  | 7 => 2 | 8 => 1 | 9 => 2 | 10 => 2 | 11 => 1 | 12 => 2 | 13 => 1 | 14 => 1 | 15 => 2 | 16 => 1 | 17 => 1
  | 19 => 1 | 22 => 1
  | _ => 0

/-- The most severe verdict of the flags set. -/
def verdictOf (cfg flags : Word) : Nat :=
  (List.range 24).foldl (fun v i => if wbit flags i then max v (flagVerdict cfg i) else v) 0

/-- Flags set before validation. A frame flagged UNKNOWN_ADDR or NO_KEY skips the rules that need a record (R137): UNAUTH and
WEAK_AUTH read VALID_CFG, SUSPENDED the state, CHANNEL_MISMATCH the ATTACH. -/
def earlyFlags (fl : Word) : Word := if wbit fl 0 || wbit fl 1 then fl &&& 0xFF7F7F9F else fl

/-- An item with every flag and its verdict. -/
def judged (s : State) (it : RpItem) : RpItem :=
  match it.eid with
  | none => { it with flags := earlyFlags it.flags, verdict := verdictOf 0 (earlyFlags it.flags) }
  | some e =>
    let r := recView s e
    let fl := if wbit it.flags 2 || wbit it.flags 3 || wbit it.flags 1 then earlyFlags it.flags
              else (plainFlags s r it).foldl (fun w p => if p.2 then setFlag w p.1 else w) it.flags
    { it with flags := fl, verdict := verdictOf r.validCfg fl }

/-- Whether an item has passed the replay check with a counter. -/
def icMoved (it : RpItem) : Bool :=
  hasCounter it.f && !(wbit it.flags 1 || wbit it.flags 2 || wbit it.flags 3 || wbit it.flags 4)

/-- The record with the counter an item has taken; that of a pinned endpoint stands in the store already. -/
def withIc (s : State) (it : RpItem) (e : Nat) (r : EpRec) : EpRec :=
  if icMoved it && !(pinGet s e).on then { r with rxIc := frameIc it.f } else r

/-- The item's counter is written back: the replay check reads the record again, unless a later frame has moved it on. -/
def icWritten (s : State) (it : RpItem) (e : Nat) : State :=
  if icMoved it && tget none s.rp.ics e == some (frameIc it.f) then rpSet s fun r => { r with ics := tset none r.ics e none } else s

/-- RX_IC moved, and no posting counts it: the record changes once (R95). The entry goes with the reading where the
reading is stored, else to the journal tail (03 Persistence). -/
def itemTouched (s : State) (it : RpItem) (stored : Bool) (g : EpRec → EpRec) : State :=
  match it.eid with
  | none => s
  | some e =>
    let r := recView s e
    let r' := g (withIc s it e r)
    if icMoved it || r' ≠ r then
      icWritten ((if stored && it.verdict != 3 then recPost else recChange) (pinSync s e r') e r') it e
    else s

/-- LAST_METER_TIME and LAST_RX_DT at an accepted frame; a BACKFILL frame leaves them. -/
def lastSeen (s : State) (it : RpItem) (r : EpRec) : EpRec :=
  if it.verdict ≤ 1 ∧ wbit it.flags 22 = false then { r with lastMeter := itemTime s r it, lastRx := it.rxDt } else r

/-- The output state a frame reports (12 R381); limiter equal to the commanded value is load-limited. -/
def reported (s : State) (eid : Nat) (f : Frame) : Option Nat :=
  match f.outState with
  | some 0 => some 2
  | some 1 =>
    let t := tget RelayT.none s.cmd.relays eid
    (match f.limiter with
     | some w => if relayCmd (recView s eid).relay = 3 ∧ w.toNat = t.arg then some 3 else some 1
     | none => some 1)
  | some 2 => if f.proto = 0 then some 2 else none
  | _ => none

/-- ALARM_TYPE (12 R382). -/
def alarmType (s : State) (w : Word) : Nat :=
  if w &&& regGet s 0x708 ≠ 0 then 1 else if w &&& regGet s 0x70C ≠ 0 then 2 else 3

/-- KIND of an item's reading record (R139): an alarm, the answer to a descriptor's request or to a relay command (12 R381),
else a meter reading. -/
def itemKind (it : RpItem) : Nat :=
  if it.alarm then 1 else if it.txn.isSome && (it.uid.isSome || it.what == 10 || decide (it.what ≤ 2)) then 2 else 0

/-- Group of an item's route. -/
def itemGroup (it : RpItem) : Nat := it.ch / 16

/-- CHANNEL byte of the reading record. -/
def chanByte (it : RpItem) : Byte := BitVec.ofNat 8 (it.ch + 64 * b2n it.tunnel)

/-- DETAIL by KIND and verdict (R139, 12 R383). -/
def itemDetail (s : State) (it : RpItem) : BitVec 128 :=
  let tail := if 2 ≤ it.verdict then it.f.addr.toNat + 2 ^ 64 * it.f.proto.toNat + 2 ^ 96 * it.qseq.toNat else 0
  if it.alarm then
    let w := it.f.alarm.getD 0
    BitVec.ofNat 128 (alarmType s w + 256 * b2n (it.f.proto != 0) + 2 ^ 32 * w.toNat + tail / 2 ^ 64 * 2 ^ 64)
  else BitVec.ofNat 128 tail

/-- The reading record of an item, with what its posting gave. DESIGN CHOICE (log entry 161): METER_TIME of a frame whose
meter time was not read, flagged UNKNOWN_ADDR, NO_KEY, AUTH_FAIL or PARSE_ERR, is its receive DT. -/
def itemRecord (s : State) (it : RpItem) (p : Option Posted) : ReadRec :=
  let eid := it.eid.getD 0xFFFFFFFF
  let r := recView s eid
  { eid := BitVec.ofNat 32 eid, verdict := it.verdict, tc := it.cls, kind := itemKind it, channel := chanByte it,
    rssi := it.rssi, flags := it.flags, rxIc := if !hasCounter it.f then 0 else if it.f.proto = 0 then it.f.ic else it.f.ic &&& 0xFF,
    meterTime := if it.eid.isSome && !wbit it.flags 1 && !wbit it.flags 2 && !wbit it.flags 3 then itemTime s r it else it.rxDt,
    rxDt := it.rxDt, writeSeq := if p.isSome then r.writeSeq else 0, src := it.src, tag := if itemKind it = 2 then it.tag else 0,
    delta := match p with | some p => p.delta | none => [], rate := BitVec.ofNat 8 (match p with | some p => p.rate | none => 0xFF),
    postFlags := BitVec.ofNat 8 (match p with | some p => p.flags | none => 0),
    period := if p.isSome then r.period else 0, batchId := 0, leaf := 0, detail := itemDetail s it, sealTag := 0 }

/-! ## The quarantine ring (R138, R141) -/

/-- Bytes of an entry: header and frame padded to 8. -/
def quarBytes (q : QEnt) : List Byte :=
  leBytes 4 q.qseq.toNat ++ leBytes 4 q.eid.toNat ++ leBytes 4 q.flags.toNat ++ leBytes 2 q.bytes.length ++ [q.channel] ++
  leBytes 1 q.framing ++ q.bytes ++ leBytes ((8 - q.bytes.length % 8) % 8) 0

def quarSize (l : List QEnt) : Nat := (l.map fun q => 16 + (q.bytes.length + 7) / 8 * 8).sum

/-- Drop oldest entries until a ring fits its size. -/
def quarTrim (cap : Nat) : List QEnt → List QEnt
  | [] => []
  | q :: t => if cap < quarSize (q :: t) then quarTrim cap t else q :: t

/-- Put an item's raw frame into the ring; the item learns its QSEQ. -/
def quarPut (s : State) (it : RpItem) : State × RpItem :=
  let q : QEnt := { qseq := s.rp.qNext, eid := BitVec.ofNat 32 (it.eid.getD 0xFFFFFFFF), flags := it.flags,
                    channel := chanByte it, framing := it.f.framing, bytes := it.f.raw }
  let all := s.rp.quar ++ [q]
  let kept := quarTrim (s.rp.quarMib * 1048576) all
  (cnt (rpSet s fun r => { r with quar := kept, qNext := r.qNext + 1, wrapped := r.wrapped || decide (kept.length < all.length) }) 243,
   { it with qseq := q.qseq })

/-- The oldest QSEQ held. -/
def quarOldest (s : State) : Word := match s.rp.quar with | q :: _ => q.qseq | [] => s.rp.qNext

/-- Whole entries that fit a buffer, up to a count. -/
def quarFit : List QEnt → Nat → Nat → List QEnt
  | [], _, _ => []
  | _, 0, _ => []
  | q :: t, n + 1, room =>
    let z := (quarBytes q).length
    if room < z then [] else q :: quarFit t n (room - z)

/-- OP_QUARANTINE_READ (R141). -/
def quarantineRead (s : State) (uid : Nat) : State :=
  withDesc s uid 0x31 fun f =>
    let from_ := dByte f.raw 24 4
    let old := decide (from_ < (quarOldest s).toNat)
    let start := if old then (quarOldest s).toNat else from_
    let out := quarFit (s.rp.quar.filter fun q => decide (start ≤ q.qseq.toNat)) (dByte f.raw 28 4) (dBufLen f.raw)
    let next := match out.getLast? with | some q => q.qseq.toNat + 1 | none => start
    completeOk (writeBuf s f (out.map quarBytes).flatten) f 0 (result4 out.length next (quarOldest s).toNat (b2n old))

/-! ## The end of an item: validation, posting, record formation -/

/-- Form an item's record and pass it to the seal stage, or end it without one (R138). -/
def itemForm (s : State) (it : RpItem) (p : Option Posted) (tc0 : Bool) : State :=
  let (s, it) := if 2 ≤ it.verdict then quarPut s it else (s, it)
  let rd := itemRecord s it p
  let (rid, s) := if it.verdict ≤ 2 then storeReading s rd (it.verdict == 2) (it.eid.map (recGet s))
                    (match p with | some p => p.w | none => rd.writeSeq)
                  else (0, s)
  if it.verdict = 3 ∧ wbit (regGet s 0x200) 0 = false then itemDiscard s { it with tc0 := tc0 }
  else drainCheck (recordOut s rd (itemGroup it) it.cls tc0 rid it.uid)

/-- A TC0 alarm after validation: journal append and mirror, completion, then its record (R122, 12 R382). -/
def alarmPath (s : State) (it : RpItem) : State :=
  let s := itemTouched s it true (lastSeen s it)
  let w := it.f.alarm.getD 0
  let s := if it.verdict ≤ 1 then appendState s 0 (.note 3 w.toNat) else s
  let posted := it.verdict ≤ 1 && unsolOpen s
  let g := itemGroup it
  let s := if it.verdict ≤ 1 then
      unsolicitedTc s (alarmType s w) (it.eid.getD 0) (routeGC s g it.cls) (willWrite s g it.cls) w.toNat (it.tc0 && posted)
    else s
  itemForm s it none (it.tc0 && !posted)

/-- A reading posts where its verdict lets it, else only its counter and times are written; then its record forms. An
oversize alarm has its completion too (R138; 08 R256; 12 R382). -/
def itemPost (s : State) (it : RpItem) : State :=
  match it.eid with
  | none => itemForm s it none it.tc0
  | some e =>
    let (s, it, p) :=
      if it.verdict ≤ 1 ∧ wbit it.flags 22 = false then
        let p := postReading s e (itemTime s (recView s e) it) it.f.regs fun r => lastSeen s it (withIc s it e r)
        (icWritten p.s it e, if p.out then { it with flags := setFlag it.flags 21 } else it, some p)
      else (itemTouched s it true (lastSeen s it), it, none)
    let s := if it.alarm && decide (it.verdict ≤ 1) then
        unsolicited s (alarmType s (it.f.alarm.getD 0)) e (routeGC s (itemGroup it) it.cls)
          (willWrite s (itemGroup it) it.cls) (it.f.alarm.getD 0).toNat
      else s
    itemForm s it p it.tc0

/-- Segment frames of an object: taken, and the object settled with its last. Until then nothing of it but the frames'
counters reaches the record; once its tag has verified, it posts (R138, R143; 05 R173, R179). -/
def objFrame (s : State) (it : RpItem) (t : Txn) (f : Flight) (o : Obj) (g : ObjSeg) : State :=
  let s := objTake s f o g.bytes
  if !g.last then itemDiscard (itemTouched s it false id) it
  else
    let s := txnClose s t.id
    let s := if g.tagOk then s else cnt s 239
    let s := if g.tagOk2 && !g.tagOk then pipeFault (ceFault s 8) (it.pipe.getD 0) else s
    match objOf s f.uid with
    | none => itemDiscard (itemTouched s it false id) it
    | some o =>
      if g.tagOk || g.tagOk2 then objPass (itemPost s it) f o
      else
        let it := { it with verdict := 3, flags := setFlag it.flags 2 }
        objFail (itemForm (itemTouched s it false id) it none it.tc0) f

/-- What an authenticated frame tells beside its registers: relay feedback, and the answer to a request. Whether the item
ends here (12 R373, R381). -/
def itemTells (s : State) (it : RpItem) : State × Bool :=
  match it.eid with
  | none => (s, false)
  | some e =>
    let plain := !(wbit it.flags 1 || wbit it.flags 2 || wbit it.flags 3 || wbit it.flags 4)
    if !plain || it.verdict = 3 then
      match it.txn.bind (txnOf s) with
      | some t => if wbit it.flags 4 then (txnAnswered s t it.f it.flags it.verdict, false) else (s, false)
      | none => (s, false)
    else
      let rep := reported s e it.f
      let s := match rep with | some r => relayFeedback s e (some r) | none => s
      match it.txn.bind (txnOf s) with
      | some t => (txnAnswered s t it.f it.flags it.verdict, rep.isSome && t.what == 10)
      | none => (s, false)

/-- Whether an item waits at VALIDATION: its rules read the record as the endpoint's frame before it leaves it (R135), so it
waits while an item of its EID stands in the posting queue. A TC0 alarm posts no registers and does not wait. -/
def validWaits (s : State) (it : RpItem) : Bool :=
  it.eid.isSome && !(it.alarm && it.cls == 0) && s.rp.postQ.any fun x => x.eid == it.eid

/-- The item VALIDATION takes: of those that do not wait, one that stands before no other of its EID, of the class the
arbiter of queue 0x48 grants (01 R26). -/
def validFront (s : State) : Option RpItem :=
  arbFront s 3 (·.cls) (eidHeads (·.eid) [] (s.rp.validQ.filter fun i => !validWaits s i))

/-- Whether the store append queue and the seal stage take the reading of an item: the posting engine waits while the seal
stage holds records (07 R228, R236), while the delivery queue or the store append queue has no place for it (01 R34). -/
def postRoom (s : State) (it : RpItem) : Bool :=
  qRoom s.store.queue.length 8192 (it.cls == 0) && delivRoom s it.cls &&
    !((sealHeld s it.cls || keyMissing s) && !s.sealU.queue.isEmpty)

/-- Whether VALIDATION may pass an item on: a place at the posting input, or all that its end needs where it does not
go there. -/
def validRoom (s : State) (it : RpItem) : Bool :=
  if it.f.obj.isSome || (it.alarm && it.cls == 0) then postRoom s it else qRoom s.rp.postQ.length 1024 it.tc0

/-- VALIDATION (R135 to R138). A frame flagged REPLAY is rejected as one, a content duplicate too (R134). -/
def validationRow (s : State) : State :=
  match validFront s with
  | none => s
  | some it =>
    if !validRoom s it then s
    else
      let s := rpSet (arbTake s 3 it.cls) fun r => { r with validQ := r.validQ.filter fun x => x.id != it.id }
      let dup := match it.eid with
        | some e => contentDup s (recView s e) it &&
            !(wbit it.flags 1 || wbit it.flags 2 || wbit it.flags 3 || wbit it.flags 4)
        | none => false
      if dup then itemDiscard (itemTouched (cnt s 234) it false id) it
      else
        let it := judged s it
        let s := cnt s (229 + it.verdict)
        match it.txn.bind (txnOf s), it.f.obj, it.uid.bind (flightOf s) with
        | some t, some g, some f =>
          match objOf s f.uid with
          | some o => if t.obj && it.verdict != 3 then objFrame s it t f o g else itemForm (itemTouched s it true id) it none it.tc0
          | none => itemForm (itemTouched s it true id) it none it.tc0
        | _, _, _ =>
          if it.alarm && it.cls == 0 then alarmPath s it
          else
            let s := rpSet s fun r => { r with postQ := r.postQ ++ [it] }
            match itemTells s it with
            | (s, true) => itemDiscard (itemTouched (rpSet s fun r => { r with postQ := r.postQ.filter fun x => x.id != it.id }) it false (lastSeen s it)) it
            | (s, false) => drainCheck s

/-- The item POSTING takes, as the arbiter of queue 0x49 grants (01 R26). -/
def postFront (s : State) : Option RpItem := arbFront s 4 (·.cls) (eidHeads (·.eid) [] s.rp.postQ)

/-- POSTING (R138, 08 R256). -/
def postingRow (s : State) : State :=
  match postFront s with
  | none => s
  | some it =>
    if !postRoom s it then s
    else itemPost (rpSet (arbTake s 4 it.cls) fun r => { r with postQ := r.postQ.filter fun x => x.id != it.id }) it

end Sys2Proof.Machine
end

