-- ==== Sys2Proof/Machine/Life.lean ====
section
/-!
DEFINITION. The lifecycle every function shares (01 R41 to R43): enable and disable requests, the limits of a withdrawal
(19 R535), and how frames still waiting in a channel's transmit queue end (10 R324).
-/
namespace Sys2Proof.Machine
open Sys2Proof

/-- A listed kind and instance (01, Function lifecycle). -/
def funcKnown (id : Nat) : Bool :=
  let k := id / 256
  let n := id % 256
  (k == 1 && n < 64) || (k == 2 && n < 4) || (k == 3 && n < 6) || (k == 4 && n < 2) || (k == 5 && n < 4) ||
  (k == 6 && n == 0) || (k == 7 && n == 0) || (k == 8 && n < 32) || (k == 9 && n < 2) || (k == 0xA && n == 0) ||
  (k == 0xB && n == 0)

/-- A part that is one of a harness: HARN_MODE 01 or 10 (13 R400). -/
def inHarness (s : State) : Bool := s.pins.harnMode == 1 || s.pins.harnMode == 2

/-- Functions of a harness stay OFF on a standalone part (R538). -/
def harnessOnly (id : Nat) : Bool := id / 256 == 4 || id / 256 == 5

def dieOn (s : State) (n : Nat) : Bool := fnOn s (0x0800 + n)

/-- Dies ON (14 R428). -/
def diesOn (s : State) : List Nat := (List.range 32).filter (dieOn s)

/-- Whether a function's leaving ON breaks a limit of R535. -/
def limitBroken (s : State) (id : Nat) : Bool :=
  let n := id % 256
  match id / 256 with
  | 3 => !othersOn s n
  | 4 => !fnOn s (0x0400 + (1 - n))
  | 5 => !fnOn s (0x0500 + (if n % 2 = 0 then n + 1 else n - 1))
  | 8 => let l := (diesOn s).filter (· != n)
         !(l.any fun a => l.any fun b => a % 4 != b % 4)
  | _ => false

/-- Frames of a channel that satisfy a test leave its transmit queue; the descriptors they are for end so. -/
def framesFail (s : State) (ch st b20 : Nat) (p : TxF → Bool) : State :=
  ((chGet s ch).tx.filter p).foldl (fun s f =>
    let s := txMap s ch fun g => if g.id = f.id then none else some g
    match f.txn.bind (txnOf s) with
    | some t => txnLost s t st b20
    | none => s) s

/-- The newest transmission of a channel: the frame that is on the pins while the channel is busy. -/
def newestSent (s : State) (ch : Nat) : Nat :=
  (((chGet s ch).tx.filter fun f => f.sent != 0).foldl (fun (a : Nat × Nat) f => if a.1 ≤ f.since then (f.since, f.id) else a) (0, 0)).2

/-- What a stop does at once: a channel's waiting descriptors complete CHANNEL_DOWN (10 R324). -/
def stopBegins (s : State) (id : Nat) : State :=
  if id / 256 = 1 then
    let ch := id % 256
    let keep := if s.tcxo < (chGet s ch).busy then newestSent s ch else 0
    framesFail s ch stChDown 0 fun f => f.id != keep
  else s

/-- The start check of a channel, in the order of R322 and R335: 0 passes, 1 HE_BLOCK, 2 BANK_FAULT, 3 CFG_ERR. -/
def chStartBad (s : State) (ch : Nat) : Nat :=
  let bank := lget 0 s.chan.banks (ch / 16)
  let att := chAttach s ch
  let acc := chAccess s ch
  let radio := chRadio s ch
  let frame := 16 ≤ chMaxFrame s ch && chMaxFrame s ch ≤ 2048
  let fifo := regFld s (0x6008 + 0x10 * ch) 8 8 != regFld s (0x6008 + 0x10 * ch) 16 8
  let rf := regFld s (0x6800 + 0x10 * ch) 4 3
  let planOk := planLoaded s &&
    (if acc == 1 then decide (chProfile s ch < tb (plan s) 3)
     else decide (rf < tb (plan s) 2) && decide (regFld s (0x6800 + 0x10 * ch) 8 6 < tb (plan s) (rfAt rf + 8)))
  if groupHead s (ch / 16) then 1
  else if bank ≠ 1 ∧ bank ≠ 2 then 2
  else if decide (4 < att) || !frame || (if radio then !(acc == 1 || acc == 2) || !fifo || !planOk else acc != 0) then 3
  else 0

/-- The three bits of CHn_STATUS as a start check leaves them: a failure sets its own, a successful enable clears all. -/
def chBits (s : State) (ch bad : Nat) : State :=
  let c := chGet s ch
  chPut s ch { c with heBlock := bad == 1 || (bad != 0 && c.heBlock), bankFault := bad == 2 || (bad != 0 && c.bankFault),
                      cfgErr := bad == 3 || (bad != 0 && c.cfgErr) }

/-- A function enters STARTING; a channel is checked then, and a failing one is OFF again (R42, R322). -/
def fnBegin (s : State) (id : Nat) : State :=
  if id / 256 = 1 then
    let bad := chStartBad s (id % 256)
    fnPut (chBits s (id % 256) bad) id (if bad = 0 then ⟨.starting, false, false, []⟩ else Fn.idle)
  else fnPut s id { fnGet s id with st := .starting, enPend := false }

/-- An enable request (R41, R42) and its status. -/
def fnEnable (s : State) (id : Nat) : State × Nat :=
  let f := fnGet s id
  if harnessOnly id && !inHarness s then (s, stOff)
  else if id / 256 = 1 ∧ (chGet s (id % 256)).loop then (fnPut s id { f with enPend := true, disPend := false }, stOk)
  else match f.st with
    | .off => (fnBegin s id, stOk)
    | .starting => (fnPut s id { f with disPend := false }, stOk)
    | .on => (s, stOk)
    | .stopping => (fnPut s id { f with enPend := true }, stStopping)

/-- A disable request (R41, R42); every one completes OK. -/
def fnDisable (s : State) (id : Nat) : State :=
  let f := fnGet s id
  if id / 256 = 1 ∧ (chGet s (id % 256)).loop then fnPut s id { f with enPend := false, disPend := true }
  else match f.st with
    | .off => s
    | .starting => fnPut s id { f with disPend := true }
    | .on => stopBegins (fnPut s id { f with st := .stopping }) id
    | .stopping => fnPut s id { f with enPend := false }

/-- STARTING ends in ON, or straight in STOPPING where a disable is held; what was queued runs all the same (R41). -/
def fnArrive (s : State) (id : Nat) : State :=
  let f := fnGet s id
  if f.disPend then stopBegins (fnPut s id ⟨.stopping, false, false, f.queued⟩) id else fnPut s id ⟨.on, false, false, []⟩

/-- STARTING ends in OFF: queued work completes with a status, a pending disable is cleared (R42, R575). -/
def fnStartFails (s : State) (id off : Nat) : State :=
  (fnGet s id).queued.foldl (fun s uid =>
    match flightOf s uid with
    | some f => if f.ended then s else reject s f off 0
    | none => s) (fnPut s id Fn.idle)

/-- STOPPING ends in OFF; a held enable begins, with code 0x0102 (R43). -/
def fnOff (s : State) (id : Nat) : State :=
  if (fnGet s id).enPend then fnBegin (logEvent 0x0102 id (fnPut s id Fn.idle)) id
  else fnPut s id Fn.idle

end Sys2Proof.Machine
end

