-- ==== Sys2Proof/Machine/Radio.lean ====
section
/-!
DEFINITION. Radio medium access (11): air time and superframes, hop channels, window widening, airtime admission, links
and their assignment, beacons, synchronisation of a member channel, listen-before-talk, the radio plan.
-/
namespace Sys2Proof.Machine
open Sys2Proof

/-! ## Air time, slots and channels (R337 to R341, R354) -/

/-- DT less SF_OFFSET: on-air time, which no step of DT moves (R340). -/
def airNow (s : State) : Nat := (dtOf s - s.air.sfOffset).toNat
def airUs (s : State) : Nat := airNow s * 1000000 / 2 ^ 24

def slotUs (s : State) (ch : Nat) : Nat := tb4 (plan s) (sfAt (chProfile s ch))
def txOffUs (s : State) (ch : Nat) : Nat := tb4 (plan s) (sfAt (chProfile s ch) + 4)
def tc0Mask (s : State) (ch : Nat) : Nat := tb8 (plan s) (sfAt (chProfile s ch) + 8)
def accMask (s : State) (ch : Nat) : Nat := tb8 (plan s) (sfAt (chProfile s ch) + 16)
def bcnCh (s : State) (ch : Nat) : Nat := tb (plan s) (sfAt (chProfile s ch) + 24)
def superS (s : State) (ch : Nat) : Nat := tb2 (plan s) (sfAt (chProfile s ch) + 28)
def lbtTc0 (s : State) (ch : Nat) : Bool := tb (plan s) (sfAt (chProfile s ch) + 30) % 2 == 1
def shortAddr (s : State) (ch : Nat) : Nat := regFld s (0x6800 + 0x10 * ch) 16 16

def slottedCoord (s : State) (ch : Nat) : Bool := chRadio s ch && chAccess s ch == 1 && chCoord s ch
def slottedMember (s : State) (ch : Nat) : Bool := chRadio s ch && chAccess s ch == 1 && !chCoord s ch
def lbtChan (s : State) (ch : Nat) : Bool := chRadio s ch && chAccess s ch == 2

/-- Superframe and slot now: a coordinator's by SF_OFFSET, a member's from its last beacon (R340, R348). -/
def slotCount (s : State) (ch : Nat) : Nat :=
  let u := max 1 (slotUs s ch)
  if chCoord s ch then airUs s / u
  else (macGet s ch).sfNum * 64 + (s.tcxo - (macGet s ch).since) * 10 / 384 / u
def sfNow (s : State) (ch : Nat) : Nat := slotCount s ch / 64
def slotNow (s : State) (ch : Nat) : Nat := slotCount s ch % 64

/-- Scheduled slots of a superframe (R341). -/
def scheduledSlots (s : State) (ch : Nat) : List Nat :=
  (List.range 64).filter fun i => i != 0 && tc0Mask s ch / 2 ^ i % 2 == 0 && accMask s ch / 2 ^ i % 2 == 0

def lpInterval (s : State) (p : Nat) : Nat := max 1 (tb2 (plan s) (lpAt p))
def lpSuper (s : State) (p : Nat) : Nat := tb2 (plan s) (lpAt p + 2)
def lpDrift (s : State) (p : Nat) : Nat := tb (plan s) (lpAt p + 4)
def lpLinked (s : State) (p : Nat) : Bool := tb (plan s) (lpAt p + 6) % 2 == 1
def lpKnown (s : State) (p : Nat) : Bool := planLoaded s && decide (p < tb2 (plan s) 4)

/-- Whether a link's event falls in superframe `k` (R354). -/
def eventIn (s : State) (l : MLink) (k : Nat) : Bool :=
  decide (l.anchorSf ≤ k) && (k - l.anchorSf) % lpInterval s l.profile == 0

/-- The event counter of superframe `k` (R354). -/
def eventCtr (s : State) (l : MLink) (k : Nat) : Nat := (k - l.anchorSf) / lpInterval s l.profile % 65536

/-- The hop channel of a link event (R339). -/
def eventCh (s : State) (eid : Nat) (l : MLink) (k : Nat) : Nat :=
  hop (eventCtr s l k) (eidIndex eid % 64) (tb (plan s) (lpAt l.profile + 7)) (tb8 (plan s) (lpAt l.profile + 8))

/-- The channel index a transmission of a channel to a meter uses now (R339, R350). -/
def txIndex (s : State) (ch eid : Nat) : Nat :=
  let l := linkGet s eid
  let at_ := sfAt (chProfile s ch)
  if chAccess s ch != 1 then regFld s (0x6800 + 0x10 * ch) 8 6
  else if !chCoord s ch && (macGet s ch).sync != 3 then bcnCh s ch
  else if l.st == 1 && l.channel == ch && eventIn s l (sfNow s ch) && l.slot == slotNow s ch then eventCh s eid l (sfNow s ch)
  else hop (slotCount s ch % 65536) (tb (plan s) (at_ + 40)) (tb (plan s) (at_ + 31)) (tb8 (plan s) (at_ + 32))

/-- Set the transceiver's channel index where it differs from the last one set (R337). -/
def tuneTo (s : State) (ch idx : Nat) : State :=
  if (macGet s ch).tuned = some idx then s
  else
    let s := macPut s ch { macGet s ch with tuned := some idx }
    { s with wire := .tune ch (regFld s (0x6808 + 0x10 * ch) 0 8) idx :: s.wire }

/-- Admit a radio transmission of `len` bytes on an index to its band (R331, R365). -/
def radioAdmit (s : State) (ch idx len : Nat) (tc0 dist : Bool) : Option State :=
  match bandOf (plan s) (chRf s ch) idx with
  | none => none
  | some b => dutyAdmit s ch b (airtime (plan s) (chRf s ch) len) tc0 dist

/-- Bursts of at most 64 B that move `n` bytes over a group's SPI bus, the last one first (10 R309). -/
def spiBursts (n : Nat) : List Nat := ((List.range ((n + 63) / 64)).map fun i => min 64 (n - 64 * i)).reverse

/-- A transfer between an island and a radio channel's transceiver over the group's bus. -/
def spiMove (s : State) (ch n : Nat) : State := { s with wire := ((spiBursts n).map fun b => .spi (ch / 16) ch b) ++ s.wire }

/-- Put bytes on a radio channel's pins. -/
def radioSend (s : State) (ch idx : Nat) (bytes : List Byte) : State :=
  let s := spiMove (tuneTo s ch idx) ch bytes.length
  let s := chPut s ch { chGet s ch with busy := s.tcxo + airtime (plan s) (chRf s ch) bytes.length * 38400 }
  cnt (bwTx { s with wire := .frame ch bytes :: s.wire } ch bytes.length) (64 + ch)

/-! ## Widening (R352) -/

/-- D_local while powered: TCXO_PPM and the rate correction in ppm, rounded up. -/
def dLocal (s : State) : Nat := tb (plan s) 6 + (s.time.rate.natAbs + 999) / 1000
def dOff (s : State) : Nat := max (tb (plan s) 6) (tb (plan s) 7)

/-- W in µs × 2^24, for a span `t` of which `off` was unpowered (2^-24 s) and a partner's drift in ppm. -/
def widening (s : State) (t off drift : Nat) : Nat :=
  (t - off) * (drift + dLocal s) + min off t * (drift + dOff s) + 16 * 2 ^ 24

def pastHalfSlot (s : State) (ch t off drift : Nat) : Bool := decide (slotUs s ch * 2 ^ 24 < 2 * widening s t off drift)

/-- Air time of a link's event in superframe `k`, in 2^-24 s. -/
def eventAir (s : State) (l : MLink) (k : Nat) : Nat :=
  ((k * 64 + l.slot) * slotUs s l.channel + txOffUs s l.channel) * 2 ^ 24 / 1000000

/-- Whether the window of the event in superframe `k` would be too wide (R356). -/
def tooWide (s : State) (l : MLink) (k : Nat) : Bool :=
  pastHalfSlot s l.channel (eventAir s l k - l.syncItc) l.offT (lpDrift s l.profile)

/-! ## Meter links (R353 to R359, R363) -/

def slotTaken (s : State) (ch phase slot : Nat) : Bool :=
  s.air.links.any fun p => p.2.st == 1 && p.2.channel == ch && p.2.slot == slot &&
    p.2.anchorSf % lpInterval s p.2.profile == phase

/-- The earliest anchor from superframe `sf` on, among one interval's phases, that leaves a scheduled slot free, and the
lowest such slot (R353). -/
def linkPlace (s : State) (ch intv sf : Nat) : Option (Nat × Nat) :=
  (List.range intv).findSome? fun i =>
    ((scheduledSlots s ch).find? fun sl => !slotTaken s ch ((sf + i) % intv) sl).map fun sl => (sf + i, sl)

/-- Assign a link: one state entry before the response that carries it. Answers the state and whether it did (R353). -/
def linkAssign (s : State) (ch eid : Nat) : State × Bool :=
  let r := recGet s eid
  let p := epProfile r
  if coreState s 2 ≠ 0 || !(r.state == 1 || r.state == 2) || !lpKnown s p || !lpLinked s p || (linkGet s eid).st == 1 then (s, false)
  else match if linksOn s ch < 65535 then linkPlace s ch (lpInterval s p) (sfNow s ch + 2) else none with
    | none => (cnt s 213, false)
    | some (a, sl) =>
      let l : MLink := { st := 1, channel := ch, anchorSf := a, slot := sl, profile := p, missed := 0, syncItc := airNow s,
                         lastHeard := airNow s, events := 0, offT := 0 }
      (cnt (linkPut (appendState s 0 (.link eid l)) eid l) 214, true)

/-- A frame from a meter reached its channel, at a link event where `event` says so: supervision restarts, MISSED clears
at an event, an LBT link counts the frame, the meter's downlink frames may go again over the air (R355, R357, R358, R363). -/
def meterHeard (s : State) (ch eid : Nat) (event : Bool) : State :=
  let l := linkGet s eid
  let p := epProfile (recGet s eid)
  let s :=
    if lbtChan s ch && lpKnown s p then
      linkPut s eid { l with st := 4, channel := ch, profile := p, lastHeard := airNow s, events := (l.events + 1) % 65536,
                             missed := 0, offT := 0 }
    else if l.st = 1 ∨ l.st = 2 then
      linkPut s eid { l with lastHeard := airNow s, missed := if event && l.st == 1 && l.channel == ch then 0 else l.missed }
    else s
  txMap s ch fun f => some (if f.eid = eid && chRadio s ch then { f with retry := true, tries := 0 } else f)

/-- LINK_EVENT: the window opens on the event's hop channel, unless it would be too wide (R355, R356). -/
def linkEvent (s : State) (eid : Nat) : State :=
  let l := linkGet s eid
  let k := sfNow s l.channel
  if l.st ≠ 1 ∨ !chOn s l.channel ∨ !slottedCoord s l.channel ∨ !eventIn s l k then s
  else if tooWide s l k then linkPut s eid { l with st := 2 }
  else tuneTo s l.channel (eventCh s eid l k)

/-- LINK_EVENT_MISSED: MISSED rises, and the link enters RESYNC where the next window would be too wide (R356). -/
def linkEventMissed (s : State) (eid : Nat) : State :=
  let l := linkGet s eid
  if l.st ≠ 1 ∨ !chOn s l.channel then s
  else
    let l := { l with missed := l.missed + 1 }
    linkPut s eid (if tooWide s l (sfNow s l.channel + lpInterval s l.profile) then { l with st := 2 } else l)

/-- LINK_DROP: one state entry frees the slot and sets ALARMS bit 2; every descriptor waiting to reach the meter
completes LINK_LOST (R357). -/
def linkDrop (s : State) (eid : Nat) : State :=
  let l := linkGet s eid
  if !(l.st == 1 || l.st == 2 || l.st == 4) ∨ airNow s < l.lastHeard + lpSuper s l.profile * 2 ^ 24 then s
  else
    let v := recView s eid
    let r := stamped s { v with alarms := v.alarms ||| 4 }
    let s := recPut (appendState (pinSync s eid r) r.writeSeq (.linkDrop eid r)) eid r
    let s := cnt (linkPut s eid { MLink.none with st := 3, channel := l.channel, profile := l.profile }) 215
    framesFail s l.channel stLinkLost 0 fun f => f.eid == eid

/-! ## The coordinator's superframe (R342 to R346) -/

/-- Units a grant or a poll reserves (10 R316). -/
def reserveUnits (s : State) (ch : Nat) : Nat := units (chMaxFrame s ch)

/-- Slots of this superframe that hold a link event. -/
def eventSlots (s : State) (ch k : Nat) : List Nat :=
  (s.air.links.filter fun p => p.2.st == 1 && p.2.channel == ch && eventIn s p.2 k).map (·.2.slot)

/-- Reserve credit slot by slot in ascending order: what is reserved, the slots reserved for devices granted, the slots
deferred. -/
def slotPlan (need room : Nat) (bp : Bool) (events : List Nat) : List Nat → List Nat → Nat × List (Nat × Nat) × List Nat →
    Nat × List (Nat × Nat) × List Nat
  | [], _, p => p
  | sl :: t, devs, (used, grants, deferred) =>
    let fits := decide (used + need ≤ room)
    if events.contains sl then
      if fits then slotPlan need room bp events t devs (used + need, grants, deferred)
      else slotPlan need room bp events t devs (used, grants, deferred ++ [sl])
    else match devs with
      | d :: ds =>
        if fits && !bp then slotPlan need room bp events t ds (used + need, grants ++ [(sl, d)], deferred)
        else slotPlan need room bp events t devs (used, grants, if fits then deferred else deferred ++ [sl])
      | [] => slotPlan need room bp events t [] (used, grants, if fits then deferred else deferred ++ [sl])

def maskOf (l : List Nat) : Nat := (l.map fun i => 2 ^ i).sum

/-- BEACON_TRANSMIT: reservations of the last superframe have run out, this one's are made; a beacon that its band does
not admit is skipped (R343, R346, R365). -/
def beaconTransmit (s : State) (ch : Nat) : State :=
  if !chOn s ch || !slottedCoord s ch || txStop s then s
  else
    let k := sfNow s ch
    let bp := chBp s ch
    let (used, grants, deferred) := slotPlan (reserveUnits s ch) (192 - rxOtherUnits (chGet s ch)) bp (eventSlots s ch k)
      (scheduledSlots s ch) (if coreState s 2 = 0 then tget [] s.air.grants ch else []) (0, [], [])
    let s := chPut s ch { chGet s ch with reserved := used }
    match radioAdmit s ch (bcnCh s ch) (53 + 3 * grants.length) true false with
    | none => cnt s 209
    | some s =>
      let s := tuneTo s ch (bcnCh s ch)
      let words := [tb2 (plan s) (sfAt (chProfile s ch) + 42), shortAddr s ch, k, slotUs s ch, tc0Mask s ch, accMask s ch,
        if bp then maskOf deferred else 0, b2n bp, grants.length] ++ (grants.map fun g => [g.1, g.2]).flatten
      cnt { s with wire := .beacon ch words :: s.wire } 208

/-- Whether a coordinator in back-pressure defers a frame of a scheduled slot (R346). -/
def slotDeferred (s : State) (ch : Nat) : Bool :=
  chBp s ch && decide (192 < rxOtherUnits (chGet s ch) + (chGet s ch).reserved + reserveUnits s ch) &&
  (chGet s ch).reserved == 0

/-- Whether a response is to carry an assignment: a frame in an access or TC0 slot from a meter with LINKED = 1 and no live
link (R353). -/
def assignDue (s : State) (eid : Nat) (lk : LinkIn) : Bool :=
  (lk.slotKind == 1 || lk.slotKind == 2) && (linkGet s eid).st != 1 && lpKnown s (epProfile (recGet s eid)) &&
  lpLinked s (epProfile (recGet s eid))

/-- The vendor-specific payload IE of a response: the vendor identifier, RESP_FLAGS, TIME_CORR and, with ASSIGN,
LINK_ASSIGN (R344). No rule says when RELEASE is 1: a free value. -/
def respIe (s : State) (eid : Nat) (deferred pend assign release : Bool) (corr : Int) : List Nat :=
  let l := linkGet s eid
  let at_ := lpAt l.profile
  [0x1E, 0x4D, 0x00, b2n deferred + 2 * b2n pend + 4 * b2n assign + 8 * b2n release] ++ leNats 2 (corr % 65536).toNat ++
  if assign then
    leNats 4 l.anchorSf ++ [l.slot] ++ leNats 2 (lpInterval s l.profile) ++ [eidIndex eid % 64, tb (plan s) (at_ + 7)] ++
    leNats 8 (tb8 (plan s) (at_ + 8)) ++ [0, 0, 0]
  else []

/-- TIME_CORR (R344). -/
def timeCorr (lk : LinkIn) (us : Int) : Int := if lk.slotKind = 3 then max (-32767) (min 32767 us) else 0

/-- ENHANCED_ACKNOWLEDGEMENT: the response to the newest frame of a channel, which asked for one, once its mirror gate is
open; it is a sync of the link, carries an assignment where one is due, and lets the meter's waiting frame follow (R344,
R345, R353). An assignment is a state entry before the response: without room for it the response waits. -/
def enhancedAck (s : State) (ch eid : Nat) (lk : LinkIn) (timeCorrUs : Int) (tc0 deferred : Bool) : State :=
  if !chOn s ch || !slottedCoord s ch || txStop s || gateShut s 0 (chGet s ch).lastRx ||
     (assignDue s eid lk && !tailOpen s) then s
  else
    let pend := (chGet s ch).tx.any fun f => f.eid == eid
    let idx := (macGet s ch).tuned.getD (txIndex s ch eid)
    let (n, s') := takeFree s
    let (s', assign) := if assignDue s eid lk then linkAssign s' ch eid else (s', false)
    let bytes := Config.downFrame 21 (ch :: eid :: respIe s' eid deferred pend assign (Config.freeBool n) (timeCorr lk timeCorrUs))
    match radioAdmit s' ch idx bytes.length tc0 false with
    | none => s
    | some s =>
      let l := linkGet s eid
      let s := if lk.slotKind = 3 ∧ l.st = 1 then linkPut s eid { l with missed := 0, syncItc := airNow s, offT := 0 } else s
      let s := if deferred then cnt s 217 else s
      let s := txMap s ch fun f => some (if f.eid = eid then { f with retry := true } else f)
      radioSend s ch idx bytes

/-! ## The member's synchronisation (R348 to R351) -/

/-- What RESYNC and DROPPED do to waiting frames: NO_SYNC, but for TC0 frames sent by listen-before-talk (R348, R350). -/
def noSync (s : State) (ch : Nat) : State := framesFail s ch stNoSync 0 fun f => !(f.tc == 0 && lbtTc0 s ch)

def macState (s : State) (ch st : Nat) : State := macPut s ch { macGet s ch with sync := st }

/-- Code 0x0501: a channel and its new state (R351). -/
def macLog (s : State) (ch st : Nat) : State := logEvent 0x0501 (ch + 256 * st) s

def beaconReceive (s : State) (ch panId addr sfNum : Nat) : State :=
  let at_ := sfAt (chProfile s ch)
  if !chOn s ch || !slottedMember s ch || panId != tb2 (plan s) (at_ + 42) || addr != tb2 (plan s) (at_ + 44) then s
  else macPut s ch { macGet s ch with sync := 3, missed := 0, sfNum := sfNum, since := s.tcxo }

/-- DT units of a span of TCXO cycles. -/
def spanOf (cycles : Nat) : Nat := cycles * 2 ^ 24 / 38400000

/-- BEACON_MISSED: the third in a row enters SEARCH; there the next window too wide enters RESYNC (R348, log entry 28). -/
def beaconMissed (s : State) (ch : Nat) : State :=
  let m := macGet s ch
  if !chOn s ch || !slottedMember s ch || !(m.sync == 3 || m.sync == 4) then s
  else
    let s := cnt (macPut s ch { m with missed := min 3 (m.missed + 1) }) 210
    let t := spanOf (s.tcxo - m.since) + 64 * slotUs s ch * 2 ^ 24 / 1000000
    let s := if m.sync = 3 ∧ 3 ≤ m.missed + 1 then cnt (macLog (macState s ch 4) ch 4) 211 else s
    if (macGet s ch).sync = 4 ∧ pastHalfSlot s ch t 0 (tb (plan s) (sfAt (chProfile s ch) + 27)) then noSync (macState s ch 5) ch
    else s

def memberTimeout (s : State) (ch : Nat) : State :=
  let m := macGet s ch
  if !chOn s ch || !slottedMember s ch || m.sync < 2 || m.sync == 6 || !msPassed s m.since (1000 * superS s ch) then s
  else noSync (macLog (macState s ch 6) ch 6) ch

/-! ## The radio plan: OP_DUTY_TABLE_LOAD (R329 to R336) -/

/-- Fields of the header, bands and RF plans: offset and whether the value fails. -/
def planHead (t : List Byte) : List (Nat × Bool) :=
  [(0, tb t 0 != 1), (1, tb t 1 < 1 || 16 < tb t 1), (2, tb t 2 < 1 || 8 < tb t 2), (3, decide (16 < tb t 3)),
   (4, decide (256 < tb2 t 4)), (6, tb t 6 < 1 || 50 < tb t 6), (7, tb t 7 < 1)] ++
  (List.range 56).map fun i => (8 + i, tb t (8 + i) != 0)

/-- The bytes of an entry beyond its table's count are zero. -/
def zeroBytes (t : List Byte) (at_ n : Nat) : List (Nat × Bool) := (List.range n).map fun i => (at_ + i, tb t (at_ + i) != 0)

def bandOverlap (t : List Byte) (a b : Nat) : Bool :=
  decide (tb4 t (bandAt a) < tb4 t (bandAt b + 4)) && decide (tb4 t (bandAt b) < tb4 t (bandAt a + 4))

def planBand (t : List Byte) (i : Nat) : List (Nat × Bool) :=
  let a := bandAt i
  if tb t 1 ≤ i then zeroBytes t a 16
  else [(a, (List.range i).any fun j => bandOverlap t j i), (a + 4, decide (tb4 t (a + 4) ≤ tb4 t a)),
        (a + 8, decide (1000 < tb2 t (a + 8))), (a + 10, tb2 t (a + 10) != 0),
        (a + 12, decide (tb2 t (a + 8) * 3600 < tb4 t (a + 12)))]

def planRf (t : List Byte) (i : Nat) : List (Nat × Bool) :=
  let a := rfAt i
  if tb t 2 ≤ i then zeroBytes t a 16
  else [(a + 4, tb4 t (a + 4) < 1000 || 2000000 < tb4 t (a + 4)), (a + 8, tb t (a + 8) < 1 || 64 < tb t (a + 8)),
        (a + 9, decide (64 < tb t (a + 9))), (a + 10, tb2 t (a + 10) != 0),
        (a + 12, tb4 t (a + 12) < 1200 || 1000000 < tb4 t (a + 12))]

/-- A channel map of an RF plan: not zero, within N_CH, every channel in a band. -/
def mapBad (t : List Byte) (rf m : Nat) : Bool :=
  m == 0 || (mapBits m).any fun i => decide (tb t (rfAt rf + 8) ≤ i) || (bandOf t rf i).isNone

def planSf (t : List Byte) (i : Nat) : List (Nat × Bool) :=
  let a := sfAt i
  if tb t 3 ≤ i then zeroBytes t a 48
  else
    let rf := tb t (a + 25)
    [(a, tb4 t a < 10000 || 250000 < tb4 t a), (a + 4, tb4 t (a + 4) < 1000 || tb4 t a ≤ tb4 t (a + 4)),
     (a + 8, tb t (a + 8) % 2 == 1), (a + 16, tb t (a + 16) % 2 == 1 || tb8 t (a + 8) &&& tb8 t (a + 16) != 0),
     (a + 24, tb t (rfAt rf + 8) ≤ tb t (a + 24) || (bandOf t rf (tb t (a + 24))).isNone), (a + 25, decide (tb t 2 ≤ rf)),
     (a + 26, tb t (a + 26) < 2 || 50 < tb t (a + 26)), (a + 27, tb t (a + 27) < 1), (a + 28, decide (tb2 t (a + 28) < 60)),
     (a + 30, decide (1 < tb t (a + 30))), (a + 31, tb t (a + 31) % 2 == 0 || 63 < tb t (a + 31)),
     (a + 32, mapBad t rf (tb8 t (a + 32))), (a + 40, decide (63 < tb t (a + 40))), (a + 41, tb t (a + 41) != 0),
     (a + 46, tb2 t (a + 46) != 0)]

/-- A link profile's map is checked against every RF plan in use by a superframe profile: it must suit one of them
(log entry 29). -/
def planLp (t : List Byte) (i : Nat) : List (Nat × Bool) :=
  let a := lpAt i
  if tb2 t 4 ≤ i then zeroBytes t a 16
  else [(a, tb2 t a < 1 || 4096 < tb2 t a), (a + 2, decide (tb2 t (a + 2) < 60)), (a + 4, tb t (a + 4) < 1),
        (a + 6, decide (1 < tb t (a + 6))), (a + 7, tb t (a + 7) % 2 == 0 || 63 < tb t (a + 7)),
        (a + 8, (List.range (tb t 2)).all fun rf => mapBad t rf (tb8 t (a + 8)))]

/-- The index of the first differing byte of two ranges. -/
def diffAt (t u : List Byte) (at_ n : Nat) : List (Nat × Bool) :=
  (List.range n).map fun i => (at_ + i, tb t (at_ + i) != tb u (at_ + i))

def lbtUses (s : State) : List Nat := (List.range 64).filter fun c => lbtChan s c && (chFn s c).st != .off
def sfUses (s : State) : List Nat :=
  ((List.range 64).filter fun c => chRadio s c && chAccess s c == 1 && (chFn s c).st != .off).map (chProfile s)

/-- What a new plan must keep (R336). -/
def planKeeps (s : State) (t : List Byte) : List (Nat × Bool) :=
  let u := plan s
  if u.isEmpty then []
  else
    ((lbtUses s).map fun c => diffAt t u (rfAt (regFld s (0x6800 + 0x10 * c) 4 3)) 16).flatten ++
    ((sfUses s).map fun p => diffAt t u (rfAt (tb u (sfAt p + 25))) 16 ++ diffAt t u (sfAt p) 48).flatten ++
    ((s.air.links.filter fun p => p.2.st == 1 || p.2.st == 2 || p.2.st == 4).map fun p =>
      diffAt t u (lpAt p.2.profile) 2 ++ diffAt t u (lpAt p.2.profile + 6) 10).flatten

/-- Channels named by LBT channels, in whatever state, that lie in no band (R329). -/
def planLbt (s : State) (t : List Byte) : List (Nat × Bool) :=
  ((List.range 64).filter (lbtChan s)).map fun c =>
    let rf := regFld s (0x6800 + 0x10 * c) 4 3
    (rfAt rf, (bandOf t rf (regFld s (0x6800 + 0x10 * c) 8 6)).isNone)

def planChecks (s : State) (t : List Byte) : List (Nat × Bool) :=
  planHead t ++ ((List.range 16).map (planBand t)).flatten ++ ((List.range 8).map (planRf t)).flatten ++
  ((List.range 16).map (planSf t)).flatten ++ ((List.range 256).map (planLp t)).flatten ++ planLbt s t ++ planKeeps s t

/-- The offset of the first failing field of a plan. -/
def planBad (s : State) (t : List Byte) : Option Nat :=
  (planChecks s t).foldl (fun a p => if p.2 then (match a with | none => some p.1 | some o => some (min o p.1)) else a) none

def dutyTableLoad (s : State) (uid : Nat) (t : List Byte) : State :=
  withDesc s uid 0x79 fun f =>
    if dBufLen f.raw ≠ 5312 then badBuf s f 16
    else match planBad s t with
    | some o => reject s f stBad (badResult rsParam 8 o)
    | none =>
      let s := bwRx s 66 5312
      if !tailRoom s (.plan t) then s
      else
        let s := appendState s 0 (.plan t)
        completeOk { s with air := { s.air with plan := t } } f 3 0

end Sys2Proof.Machine
end

