-- ==== Sys2Proof/Machine/ChanOps.lean ====
section
/-!
DEFINITION. Frames on the channels (10, 11): reception and its drops, transmission, character gaps, a modem that is not
ready, back-off and acknowledgement waits, duty waits, the channel loopback test, a bank that leaves its range.
-/
namespace Sys2Proof.Machine
open Sys2Proof

/-! ## Reception (10 R315 to R318, 04 R147 to R149, 11 R346, R361, R362) -/

def rxDrop (s : State) (ch cause : Nat) : State := cnt (cnt s (128 + ch)) (192 + cause)

/-- Why the island drops a frame (R318). -/
def rxFault (s : State) (ch : Nat) (f : Frame) (lk : LinkIn) : Option Nat :=
  let icg := regFld s (0x6004 + 0x10 * ch) 29 3
  if !lk.crcOk then some 0
  else if chMaxFrame s ch < f.raw.length then some 1
  else if !chRadio s ch && !lk.parityOk then some 2
  else if chAttach s ch == 3 && lk.collision then some 3
  else if !chRadio s ch && icg != 0 && icg < lk.gapChars then some 4
  else none

/-- Whether back-pressure discards a frame outside the TC0 reserve: it was never acknowledged (R148, R149, R346). A frame
that requests no acknowledgement is taken on an LBT channel all the same (R362). -/
def bpDiscards (s : State) (ch : Nat) (f : Frame) (lk : LinkIn) : Bool :=
  chBp s ch && (
    if lbtChan s ch then f.ackReq
    else if slottedMember s ch then true
    else if slottedCoord s ch then lk.slotKind == 2 || (lk.slotKind == 3 && slotDeferred s ch)
    else false)

/-- Units reserved for answers that a frame takes up (R316). -/
def ownReserve (s : State) (ch : Nat) (f : Frame) (lk : LinkIn) : Nat :=
  if lk.slotKind = 3 ∨ (!chRadio s ch ∧ f.response) then min (chGet s ch).reserved (reserveUnits s ch) else 0

/-- Whether a frame finds room: TC0 in all of the queue, others beside the TC0 reserve and what is reserved for others. -/
def rxRoom (s : State) (ch u own : Nat) (tc0 : Bool) : Bool :=
  let c := chGet s ch
  if tc0 then decide (rxUnits c + u ≤ 256) else decide (rxOtherUnits c + (c.reserved - own) + u ≤ 192)

/-- The link acknowledgement an LBT channel or a member sends (R361), under its band's budget. -/
def ackSend (s : State) (ch : Nat) (tc0 : Bool) : State :=
  let s := chPut s ch { chGet s ch with ackDue := none }
  let bytes := Config.downFrame 20 [ch]
  let idx := (macGet s ch).tuned.getD (txIndex s ch 0xFFFFFFFF)
  if txStop s then s
  else match radioAdmit s ch idx bytes.length tc0 false with
  | some s => radioSend s ch idx bytes
  | none => s

/-- The acknowledgement due for a channel's newest frame goes out once its mirror gate is open (13 R413). -/
def ackRelease (s : State) (ch : Nat) : State :=
  match (chGet s ch).ackDue with
  | some tc0 => if gateShut s 0 (chGet s ch).lastRx then s else ackSend s ch tc0
  | none => s

/-- A frame enters the receive queue; a radio's is read over the group's bus: command, length byte, frame (R318). -/
def rxTake (s : State) (ch : Nat) (f : Frame) (lk : LinkIn) (own : Nat) (tc0 : Bool) : State :=
  let id := s.rp.idNext
  let c := chGet s ch
  let ack := (lbtChan s ch || slottedMember s ch) && f.ackReq
  let s := if chRadio s ch then spiMove s ch (2 + f.raw.length) else s
  let s := chPut (rpSet s fun r => { r with idNext := id + 1 }) ch
    { c with rx := c.rx ++ [⟨id, f, lk, dtOf s, tc0⟩], reserved := c.reserved - own, lastRx := id,
             ackDue := if ack then some tc0 else c.ackDue }
  let s := mirrorGated (bpUpdate (cnt (bwRx s ch f.raw.length) ch) ch) 0x10 [id, f.raw.length] 0 id
  ackRelease s ch

/-- Devices whose last frame set the frame-pending bit (11 R343), by their short address. -/
def grantNote (s : State) (ch : Nat) (f : Frame) : State :=
  let a := f.addr.toNat % 65536
  let l := (tget [] s.air.grants ch).filter (· != a)
  { s with air := { s.air with grants := tset [] s.air.grants ch (if f.pending then l ++ [a] else l) } }

/-- CHANNEL_FRAME_RECEIVE. On RS-485 nothing is received while DE is high (R319); a coordinator reads no frame that starts
outside its windows, and one past its slot's end counts a SLOT_OVERRUN (11 R347). -/
def frameReceive (s : State) (ch : Nat) (f : Frame) (lk : LinkIn) : State :=
  let st := (chFn s ch).st
  if !(st == .on || st == .stopping) || groupHead s (ch / 16) || s.rp.stopped ||
     (chAttach s ch == 2 && decide (s.tcxo < (chGet s ch).busy)) || (slottedCoord s ch && lk.slotKind == 0) then s
  else
    let s := if lk.overrun && chRadio s ch && chAccess s ch == 1 then cnt s 212 else s
    match rxFault s ch f lk with
    | some c => rxDrop s ch c
    | none =>
      let eid := addrResolve s f.addr f.proto
      let tc0 := frameCls s f lk.slotKind == 0
      let s := match eid with | some e => meterHeard s ch e (lk.slotKind == 3) | none => s
      let s := if slottedCoord s ch then grantNote s ch f else s
      let own := ownReserve s ch f lk
      if !tc0 && bpDiscards s ch f lk then cnt (cnt s (128 + ch)) 198
      else if rxRoom s ch (units f.raw.length) own tc0 then rxTake s ch f lk own tc0
      else logEvent (Config.radioLogCode 0) ch (rxDrop s ch 5)

/-- INTER_CHARACTER_GAP: the frame being received ends and is dropped (R318). -/
def characterGap (s : State) (ch gapChars : Nat) : State :=
  let icg := regFld s (0x6004 + 0x10 * ch) 29 3
  if !((chFn s ch).st == .on || (chFn s ch).st == .stopping) || chRadio s ch || chAttach s ch < 2 || icg == 0 || gapChars ≤ icg
  then s else rxDrop s ch 4

/-! ## Transmission (10 R316, R317, R319; 11 R341, R348, R350, R358, R360, R365) -/

/-- TCXO cycles a wired frame takes: start, data, parity and stop bits, and DE's lead and lag on RS-485 (R319). -/
def wiredTime (s : State) (ch len : Nat) : Nat :=
  let u := regGet s (0x6004 + 0x10 * ch)
  let bits := len * (10 + (if fld u 22 2 = 0 then 0 else 1) + fld u 24 1) + (if chAttach s ch = 2 then fld u 25 2 + fld u 27 2 else 0)
  (bits * fld u 0 22 * 3 + 79) / 80

/-- Whether an earlier frame of the same class for the same endpoint has yet to begin (02 R61). -/
def txBehind (s : State) (ch : Nat) (f : TxF) : Bool :=
  (chGet s ch).tx.any fun g => decide (g.id < f.id) && g.eid == f.eid && g.tc == f.tc && g.sent == 0

/-- Whether a frame may begin now on its channel. -/
def txMay (s : State) (ch : Nat) (f : TxF) : Bool :=
  f.queued && !txBehind s ch f && txnReady s f.txn && !(f.what == 6 && icExhausted (recView s f.eid)) &&
  !(f.tc == 0 && (match f.uid with | some u => gateShut s 2 u | none => gateShut s 4 (ownGate f.eid f.ic))) &&
  (if chRadio s ch then
     f.retry && (!slottedMember s ch || (macGet s ch).sync == 3 || ((macGet s ch).sync ≥ 4 && f.tc == 0 && lbtTc0 s ch))
   else
     (f.tc == 0 || !chBp s ch) &&
     (!(f.txn.isSome && 3 ≤ f.what && f.what != 6) ||
        decide (rxOtherUnits (chGet s ch) + (chGet s ch).reserved + reserveUnits s ch ≤ 192)) &&
     (f.retry || f.what ≤ 2 || f.what == 6))

/-- Frames in the order they are tried: new ones before repeats, TC0 before the rest (R317). -/
def txOrder (l : List TxF) : List TxF :=
  (l.filter fun f => f.retry && f.tc == 0) ++ (l.filter fun f => f.retry && f.tc != 0) ++
  (l.filter fun f => !f.retry && f.tc == 0) ++ (l.filter fun f => !f.retry && f.tc != 0)

/-- TCXO cycles a frame lasts on its channel: d of R338, or the wired frame's time. -/
def txLasts (s : State) (ch len : Nat) : Nat :=
  if chRadio s ch then airtime (plan s) (chRf s ch) len * 38400 else wiredTime s ch len

/-- What goes on the pins: a clock-set frame takes a new counter for each attempt, the first among them, and the time at
which it will end; an M-Bus answer goes by that counter (15 R474); a frame not yet protected is protected now. -/
def txFresh (s : State) (ch : Nat) (f : TxF) : State × TxF :=
  if f.what = 6 then
    let (ic, s) := icTake s f.eid
    let inv : Txn → Txn := fun t => { t with invoke := ic.toNat % 256 }
    let s := match f.txn with
      | some id => if (recGet s f.eid).proto = 0 then s else txnMod s id inv
      | none => s
    let at_ := (dtOf s).toNat + txLasts s ch f.bytes.length * 2 ^ 24 / 38400000
    frameSeal s { f with ic := ic, bytes := Config.downFrame 6 (f.eid :: ic.toNat :: clockApp s f.eid at_), enc := false }
  else if f.enc then (s, f) else frameSeal s f

/-- A frame has begun on the pins: its marks, its transaction's and its descriptor's, a read's step 3 among them
(12 R385, 02 R89); a multicast leaves the queue. -/
def txBegun (s : State) (ch : Nat) (f : TxF) : State :=
  let g : TxF := { f with sent := f.sent + 1, since := s.tcxo, retry := false, backoffs := 0, dutyWait := none }
  let s := txMap s ch fun x => if x.id = f.id then (if f.eid = 0xFFFFFFFF then none else some g) else some x
  let s := match f.txn with | some id => txnMod s id fun t => { t with since := some s.tcxo } | none => s
  match f.uid.bind (flightOf s) with
  | some d => (match d.stage with
               | .relay ic since _ kind => flightPut s { d with stage := .relay ic since true kind }
               | .wait _ _ 1 => if dOpcode d.raw = 0x43 ∧ d.step = 2 then setProgress s d 3 0 else s
               | _ => s)
  | none => s

def wiredSend (s : State) (ch : Nat) (f : TxF) : State :=
  let c := chGet s ch
  let ask := f.txn.isSome && 3 ≤ f.what && f.what != 6
  let s := chPut s ch { c with busy := s.tcxo + wiredTime s ch f.bytes.length,
                               reserved := if ask then c.reserved + reserveUnits s ch else c.reserved }
  cnt (bwTx { s with wire := .frame ch f.bytes :: s.wire } ch f.bytes.length) (64 + ch)

/-- Hold a frame for duty budget (R366). -/
def txHold (s : State) (ch : Nat) (f : TxF) : State :=
  if f.dutyWait.isSome then s
  else cnt (txMap s ch fun x => some (if x.id = f.id then { x with dutyWait := some s.tcxo } else x)) 218

/-- Send the first frame that its band admits; those not admitted wait, and delay none behind them (R366). One that finds
no slot or no pipeline for its protection waits unprotected (05 R153). -/
def txTry (ch : Nat) : List TxF → State → State
  | [], s => s
  | f :: t, s =>
    let (s', f') := txFresh s ch f
    if !f'.enc then txTry ch t s
    else if chRadio s ch then
      let idx := txIndex s' ch f.eid
      match radioAdmit s' ch idx f'.bytes.length (f.tc == 0) (f.what == 7 && f.eid == 0xFFFFFFFF) with
      | some s'' => txBegun (radioSend s'' ch idx f'.bytes) ch f'
      | none => txTry ch t (txHold s ch f)
    else txBegun (wiredSend s' ch f') ch f'

/-- Whether a TC0 frame of another radio channel of the group waits for the group's bus, which serves it before any other
transfer (R309). -/
def spiWaits (s : State) (ch : Nat) : Bool :=
  chRadio s ch && (List.range 16).any fun k =>
    let c := 16 * (ch / 16) + k
    c != ch && chRadio s c && chOn s c && decide ((chGet s c).busy ≤ s.tcxo) &&
      (chGet s c).tx.any fun f => f.tc == 0 && f.sent == 0 && f.dutyWait.isNone && txMay s c f

/-- Pin C keeps a wired channel from starting: collision detect active on M-Bus, Ready inactive at a modem (R320, R321).
C_POL says which level is active. -/
def pinCHolds (s : State) (ch : Nat) (pinC : Bool) : Bool :=
  let active := pinC != wbit (regGet s (0x6000 + 0x10 * ch)) 8
  (chAttach s ch == 3 && active) || (chAttach s ch == 4 && !active)

/-- CHANNEL_FRAME_TRANSMIT; `pinC`: the level of the channel's pin C. -/
def frameTransmit (s : State) (ch : Nat) (pinC : Bool) : State :=
  if !chOn s ch || txStop s || s.tcxo < (chGet s ch).busy || pinCHolds s ch pinC then s
  else txTry ch ((txOrder (chGet s ch).tx).filter fun f => txMay s ch f && (f.tc == 0 || !spiWaits s ch)) s

/-- MODEM_READY_TIMEOUT: the frame on the pins ends with CHANNEL_DOWN for its descriptor (R321). -/
def modemTimeout (s : State) (ch : Nat) : State :=
  if chAttach s ch != 4 || (chFn s ch).st == .off || (chGet s ch).busy ≤ s.tcxo then s
  else
    let n := newestSent s ch
    let s := framesFail s ch stChDown 0 fun f => f.id == n
    logEvent 0x0501 ch (chPut s ch { chGet s ch with busy := s.tcxo })

/-! ## Listen before talk (11 R360) -/

/-- One random value of an island's generator, which the DRBG reseeds after every 65,536 (R360). -/
def lbtDraw (s : State) (g : Nat) : State :=
  let n := lget 0 s.chan.draws g + 1
  let put : State → Nat → State := fun s n => { s with chan := { s.chan with draws := lset s.chan.draws g n } }
  if n < 65536 then put s n else put (drbgUse s) 0

/-- Attempts a frame has at one contact: MAX_RETRIES; on an LBT channel the response window of a wireless M-Bus meter
gives one (R361, log entry 166). -/
def triesOf (s : State) (ch : Nat) (f : TxF) : Nat :=
  if lbtChan s ch && (recGet s f.eid).proto == 1 then 1 else regFld s (0x6804 + 0x10 * ch) 12 3

/-- LBT_BACKOFF: the wait that ends had its length drawn; CCA idle sends; busy backs off again, until the attempt has
failed. The island waits for a draw that needs a reseed the DRBG refuses (05 R165). -/
def lbtBackoff (s : State) (ch : Nat) (idle : Bool) : State :=
  let m := regGet s (0x6804 + 0x10 * ch)
  if !chOn s ch || !chRadio s ch || (lget 0 s.chan.draws (ch / 16) + 1 == 65536 && !drbgOpen s) then s
  else
  let s := lbtDraw s (ch / 16)
  if idle then frameTransmit s ch false
  else match (txOrder (chGet s ch).tx).find? (txMay s ch) with
  | none => s
  | some f =>
    if f.backoffs < fld m 8 3 then
      txMap s ch fun x => some (if x.id = f.id then { x with backoffs := x.backoffs + 1 } else x)
    else
      cnt (txMap s ch fun x => some (if x.id = f.id then
        { x with backoffs := 0, tries := x.tries + 1, retry := decide (x.tries + 1 < triesOf s ch f) } else x)) 216

/-- ACK_WAIT_EXPIRY: a new attempt, up to MAX_RETRIES; then the frame waits for the meter's next contact. -/
def ackWaitExpiry (s : State) (ch : Nat) : State :=
  if !chOn s ch || !chRadio s ch then s
  else match (chGet s ch).tx.find? fun f => f.sent != 0 && !f.retry && f.tries < triesOf s ch f &&
      decide (f.since + regFld s (0x6808 + 0x10 * ch) 16 8 * 3840 ≤ s.tcxo) with
  | none => s
  | some f => txMap s ch fun x => some (if x.id = f.id then
      { x with tries := x.tries + 1, retry := decide (x.tries + 1 < triesOf s ch f) } else x)

/-! ## Duty waits (11 R364, R366, R367) -/

/-- DUTY_BUCKET_ROLLOVER: accounts age to the present minute; a waiting frame the device originated is logged. While DT is
not valid no bucket is cleared (R367). -/
def dutyRollover (s : State) : State :=
  if !s.time.dtValid then s
  else
    let s := { s with air := { s.air with duty := s.air.duty.map fun p => (p.1, dutyAge p.2 (minuteOf s)) } }
    (List.range 64).foldl (fun s ch =>
      ((chGet s ch).tx.filter fun f => f.dutyWait.isSome && f.uid.isNone).foldl
        (fun s f => logEvent (Config.radioLogCode 1) (ch + 2 ^ 32 * f.eid) s) s) s

/-- DUTY_WAIT_TIMEOUT: beyond WAIT_S, or TC0_WAIT_S, the descriptor completes DUTY_BUDGET_EXHAUSTED. A distribution's frames
have no limit (12 R394). -/
def dutyWaitTimeout (s : State) (ch uid : Nat) : State :=
  match (chGet s ch).tx.find? fun f => f.uid == some uid && f.dutyWait.isSome && !(f.what == 7 || f.what == 8) with
  | none => s
  | some f =>
    let lim := if f.tc = 0 then regFld s 0x6C04 16 8 else regFld s 0x6C04 0 12
    if !msPassed s (f.dutyWait.getD 0) (1000 * lim) then s
    else framesFail s ch stDuty 0 fun x => x.id == f.id

/-! ## OP_CH_LOOPBACK (10 R326) -/

def loopBad (s : State) (raw : BitVec 512) : Option Nat :=
  let ch := dByte raw 24 1
  let mode := dByte raw 25 1
  if 63 < ch then some 24
  else if 2 < mode ∨ (mode ≠ 0 ∧ groupHead s (ch / 16)) ∨ (mode = 2 ∧ chAttach s ch ≠ 2) then some 25
  else if dByte raw 26 2 < 1 ∨ 1024 < dByte raw 26 2 then some 26
  else if dByte raw 28 2 < 16 ∨ chMaxFrame s ch < dByte raw 28 2 then some 28
  else none

/-- One execution of the row: the disable; then, once the channel is OFF, the frames; then the result. -/
def chLoopback (s : State) (uid : Nat) (errors : List (Nat × Nat)) : State :=
  withDesc s uid 0x78 fun f =>
    match loopBad s f.raw with
    | some o => badParam s f o
    | none =>
      let ch := dByte f.raw 24 1
      let n := dByte f.raw 26 2
      let id := 0x0100 + ch
      match f.stage with
      | .wait _ on phase =>
        if phase = 0 then
          if (fnGet s id).st != .off then s
          else
            let s := chPut s ch { chGet s ch with loop := true }
            setProgress s { f with stage := .wait s.tcxo on 1 } 2 n
        else
          let bad := errors.filter fun e => decide (e.1 < n) && e.2 != 0
          let first := (bad.map (·.1)).foldl min 0xFFFFFFFF
          let s := chPut s ch { chGet s ch with loop := false }
          let held := fnGet s id
          let s := fnPut s id { held with enPend := false, disPend := false }
          let s := if held.disPend then s
                   else if held.enPend then (fnEnable (logEvent 0x0102 id s) id).1
                   else if on == 1 && bad.isEmpty then (fnEnable s id).1 else s
          completeOk s f 4 (result4 (b2n !bad.isEmpty) n ((bad.map (·.2)).sum) first)
      | _ =>
        let on := b2n (chOn s ch)
        setProgress (fnDisable s id) { f with stage := .wait s.tcxo on 0 } 1 0

/-! ## Banks (10 R311, 21 R552) -/

/-- LEVEL of a bank voltage (R552). -/
def bankLevel (mv : Nat) : Nat :=
  if mv < 500 then 0 else if 1710 ≤ mv ∧ mv ≤ 1890 then 1 else if 2970 ≤ mv ∧ mv ≤ 3630 then 2 else 3

/-- A channel of a bank out of range: a disable, and BANK_FAULT (R311). -/
def bankDown (s : State) (ch : Nat) : State :=
  if (chFn s ch).st = .off then s
  else
    let s := fnDisable s (0x0100 + ch)
    chPut s ch { chGet s ch with bankFault := true }

/-- BANK_LEVEL_CHANGE: a level held for 50 µs; leaving 1.8 V or 3.3 V is the departure from range. -/
def bankChange (s : State) (g mv heldUs : Nat) : State :=
  let old := lget 0 s.chan.banks g
  let new := bankLevel mv
  if 4 ≤ g ∨ heldUs < 50 ∨ old = new then s
  else
    let s := { s with chan := { s.chan with banks := lset s.chan.banks g new } }
    if old = 1 ∨ old = 2 then
      logEvent 0x0501 (g + 256 * new) ((List.range 16).foldl (fun s k => bankDown s (16 * g + k)) s)
    else s

end Sys2Proof.Machine
end

