-- ==== Sys2Proof/Machine/Time.lean ====
section
/-!
DEFINITION. Device time (15): the TCXO count, the battery-backed counter, jumps of DT, exchanges with the time master and
the ring, the TAI-UTC offset, authorized rebases.
-/
namespace Sys2Proof.Machine
open Sys2Proof

def timeSet (s : State) (g : TimeSt → TimeSt) : State := { s with time := g s.time }

/-! ## Counting (R460, R461) -/

/-- One cycle's increment over its denominator, with what the last division left. -/
def dtNum (t : TimeSt) : Nat := (2 ^ 56 * (1000000000 + t.rate)).toNat + t.rem
def dtDen : Nat := 38400000 * 1000000000

/-- One TCXO cycle of the count (R460). -/
def dtTick (t : TimeSt) : TimeSt :=
  { t with dt := t.dt + BitVec.ofNat 96 (dtNum t / dtDen), rem := dtNum t % dtDen }

/-- One TCXO cycle of the battery-backed counter, its crystal at the nominal ratio (log entry 30). -/
def bbcTick (t : TimeSt) : TimeSt :=
  if t.bbcAcc + 32768 < 38400000 then { t with bbcAcc := t.bbcAcc + 32768 }
  else if t.bbcFrac.toNat + 1 < 32768 then { t with bbcAcc := t.bbcAcc + 32768 - 38400000, bbcFrac := t.bbcFrac + 1 }
  else { t with bbcAcc := t.bbcAcc + 32768 - 38400000, bbcFrac := 0, bbcSec := t.bbcSec + 1 }

/-- One TCXO cycle of operating time: a second of OP_SECONDS takes 38,400,000 (17 R503). -/
def opTick (b : BootSt) : BootSt :=
  if b.opFrac + 1 < 38400000 then { b with opFrac := b.opFrac + 1 } else { b with opFrac := 0, opSec := b.opSec + 1 }

/-- What a step on an empty queue does: one TCXO cycle passes (log entry 1). While RESET_n is low only the backup domain
runs. -/
def idleTick (s : State) : State :=
  if s.pins.resetLow then timeSet s bbcTick
  else { s with tcxo := s.tcxo + 1, boot := opTick s.boot, time := bbcTick (dtTick s.time) }

/-! ## Jumps (R461, R467) -/

/-- DT written into the battery-backed counter. -/
def bbcWrite (t : TimeSt) : TimeSt :=
  { t with bbcSec := BitVec.ofNat 40 (t.dt.toNat / 2 ^ 56), bbcFrac := BitVec.ofNat 15 (t.dt.toNat / 2 ^ 41), bbcAcc := 0 }

/-- A number as `n` bits, two's complement. -/
def signedBits (n : Nat) (i : Int) : Nat := (i % (2 ^ n : Nat)).toNat

/-- Saturate to 32 signed bits. -/
def sat32 (i : Int) : Int := max (-2147483648) (min 2147483647 i)

/-- Move DT by a signed amount in 2^-56 s: the open batch closes first, SF_OFFSET moves along, the counter is written,
the boundary table starts from the new DT, and code 0x0902 is recorded (R232, R340, R461, R467). -/
def dtJump (s : State) (delta : Int) : State :=
  let s := batchClose s 1
  let old := dtOf s
  let s := timeSet s fun t => bbcWrite { t with dt := BitVec.ofNat 96 ((t.dt.toNat : Int) + delta).toNat, lastAcc := none }
  let s := { s with air := { s.air with sfOffset := s.air.sfOffset + (dtOf s - old) } }
  let s := if (dtOf s).toNat < s.bill.pos.toNat then { s with bill := { s.bill with pos := dtOf s, posStep := 9 } } else s
  logEvent 0x0902 (old.toNat + 2 ^ 64 * signedBits 32 (Int.tdiv (delta * 1000) (2 ^ 56 : Nat))) s

/-- Billing starts once DT is valid: catch-up from BILL_POS, and the outage window of the last power cut (08 R269). -/
def billStart (s : State) : State :=
  let pos := if s.bill.pos = 0 then dtOf s else s.bill.pos
  let s := boundaryCatchUp { s with bill := { s.bill with pos := pos, posValid := true } }
  match s.bill.outStart with
  | some a => { s with bill := { s.bill with outages := ((a, dtOf s) :: s.bill.outages).take 16, outStart := none } }
  | none => s

/-! ## Discipline (R463 to R466) -/

/-- A member of a harness that does not act as lead (R471, R472). -/
def timeMember (s : State) : Bool := s.pins.harnMode == 1 && !s.harn.acting

def timeOnState (s : State) : FnSt := (fnGet s 0x0B00).st

def clampPpb (i : Int) : Int := max (-200000) (min 200000 i)

/-- The slew of R465: the integral term and the rate correction from θ in ns. -/
def slewRates (f tNs tcS dS : Int) : Int × Int :=
  let err := Int.tdiv tNs tcS
  let f := if err.natAbs ≤ 200000 then clampPpb (f - Int.tdiv (err * min (max dS 1) tcS) (16 * tcS)) else f
  (f, clampPpb (f - err))

/-- An accepted exchange: its uncertainty, the holdover timer, and TRACKING from ACQUIRE. -/
def timeAccepted (s : State) (unc : Nat) : State :=
  let s := cnt (timeSet s fun t => { t with unc := min unc 0xFFFFFFFF, accAt := s.tcxo, holdover := false }) 421
  if timeOnState s = .starting then fnArrive s 0x0B00 else s

/-- A set or a step: DT jumps, F stays, RATE_CORR takes F. -/
def timeJump (s : State) (delta : Int) : State := timeSet (dtJump s delta) fun t => { t with rate := t.f }

def timeSlew (s : State) (tNs : Int) (t2 : BitVec 64) : State :=
  let tc := regFld s 0x5000 16 8
  let dS : Int := match s.time.lastAcc with
    | none => tc
    | some a => ((t2.toNat : Int) - a.toNat) / (2 ^ 24 : Nat)
  let (f, r) := slewRates s.time.f tNs tc dS
  timeSet s fun t => { t with f := f, rate := r, lastAcc := some t2 }

def timeRefuse (s : State) (tNs : Int) : State :=
  let s := cnt (timeSet s fun t => { t with refused := true, refuseCnt := satInc t.refuseCnt }) 422
  logEvent 0x0901 (signedBits 64 tNs) s

/-- Act on an evaluated θ in ns, with the jump in 2^-56 s that removes it (R464). Answers OUTCOME: 1 stepped or set,
2 slewed, 4 refused. -/
def timeApply (s : State) (tNs delta : Int) (unc : Nat) (t2 : BitVec 64) : State × Nat :=
  let s := timeSet s fun t => { t with offset := tNs }
  let thr := regFld s 0x5000 0 10 * 1000000
  let acq := timeOnState s == .starting
  if acq && !s.time.dtValid then
    let s := timeSet (timeJump s delta) fun t => { t with dtValid := true }
    (billStart (timeAccepted s unc), 1)
  else if acq && !s.time.stepUsed && decide (0 < delta) then
    (timeAccepted (timeSet (timeJump s delta) fun t => { t with stepUsed := true }) unc, 1)
  else if tNs.natAbs ≤ thr then (timeAccepted (timeSlew s tNs t2) unc, 2)
  else (timeRefuse s tNs, 4)

/-! ## OP_TIME_MSG (R463, R468) -/

/-- UTC_VALID replaces the offset at once; LEAP_VALID records one pending change (R468). -/
def timeUtc (s : State) (raw : BitVec 512) : State :=
  let fl := dByte raw 48 1
  let v := BitVec.ofNat 16 (dByte raw 50 2)
  let s := if fl % 2 = 1 then
      let changed := !s.time.utcSet || s.time.utcCur != v
      let s := timeSet s fun t => { t with utcCur := v, utcSet := true }
      if changed then logEvent 0x0903 (1 + 2 ^ 16 * v.toNat) s else s
    else s
  if fl / 2 % 2 = 1 then
    timeSet s fun t => { t with utcNext := BitVec.ofNat 16 (dByte raw 52 2), leapDt := BitVec.ofNat 64 (dByte raw 56 8), leapPend := true }
  else s

/-- Evaluate the previous exchange: OUTCOME and θ in µs. -/
def timeEval (s : State) (m : TMsg) (t4 unc : Nat) : State × Nat × Int :=
  let half : Int := ((m.t2.toNat : Int) - m.t1.toNat) + ((m.t3.toNat : Int) - t4)
  let tNs := Int.tdiv (half * 1000000000) (2 ^ 25 : Nat)
  let d : Int := ((t4 : Int) - m.t1.toNat) - ((m.t3.toNat : Int) - m.t2.toNat)
  let us := sat32 (Int.tdiv tNs 1000)
  if m.spoiled || decide (d < 0) || decide (((regFld s 0x5004 0 16 * 2 ^ 24 : Nat) : Int) < d * 1000000) then (s, 3, us)
  else
    let u := (d * 1000000000).toNat / 2 ^ 25 + 2000 + unc
    let (s, o) := timeApply s tNs (-(half * (2 ^ 31 : Nat))) u m.t2
    (s, o, us)

/-- T2 of a message: DT at the doorbell that brought it; DT now where core 3 took no such stamp (R463). -/
def msgT2 (s : State) (uid : Nat) : BitVec 64 :=
  if tget 0 s.host.t2s uid = 0 then dtOf s else tget 0 s.host.t2s uid

/-- RESULT of a time message: T2, OUTCOME, θ. -/
def timeResult (t2 : BitVec 64) (o : Nat) (us : Int) : BitVec 128 :=
  BitVec.ofNat 128 (t2.toNat + 2 ^ 64 * o + 2 ^ 96 * signedBits 32 us)

def timeMsg (s : State) (uid : Nat) : State :=
  withDesc s uid 0x68 fun f =>
    let t2 := msgT2 s uid
    let s := { s with host := { s.host with t2s := tset 0 s.host.t2s uid 0 } }
    match timeOnState s with
    | .off => reject s f stOff (timeResult t2 0 0)
    | .stopping => reject s f stStopping (timeResult t2 0 0)
    | _ =>
      let s := timeUtc s f.raw
      if timeMember s then complete s f stOk 0 0 (timeResult t2 5 0)
      else
        let t4 := dByte f.raw 36 8
        let seq := dByte f.raw 32 4
        let (s, o, us) := match s.time.lastMsg with
          | some m => if t4 ≠ 0 ∧ (m.seq.toNat + 1) % 2 ^ 32 = seq then timeEval s m t4 (dByte f.raw 44 4) else (s, 0, 0)
          | none => (s, 0, 0)
        let s := timeSet s fun t => { t with ringSrc := false, lastMsg := some ⟨BitVec.ofNat 32 seq,
          BitVec.ofNat 64 (dByte f.raw 24 8), t2, dtOf s, false⟩ }
        complete s f (if o = 4 then stStepRefused else stOk) 0 0 (timeResult t2 o us)

/-! ## RING_TICK (R471, R472) -/

/-- A member's θ: its own DT less the lead's and the correction, in ns. -/
def tickTheta (s : State) (leadDt : BitVec 64) (corr : Nat) : Int :=
  Int.tdiv (((dtOf s).toNat - (leadDt.toNat : Int)) * 1000000000) (2 ^ 24 : Nat) - corr

/-- ns as 2^-56 s. -/
def nsUnits (ns : Int) : Int := ns * (2 ^ 56 : Nat) / 1000000000

/-- RING_TICK at a member: a rise of the lead's REBASE_CNT moves DT by the lead's shift without the threshold; then R464
under a θ of the tick, with 50 ns of uncertainty per hop. With discipline OFF only HARN_TIME_OFS follows (R539). -/
def ringTick (s : State) (leadDt : BitVec 64) (corr hops reb : Nat) (shiftNs : Int) : State :=
  if !timeMember s || !s.harn.joined then s
  else
    let reb8 := BitVec.ofNat 8 reb
    let off := timeOnState s == .off || timeOnState s == .stopping
    let moved := match s.harn.leadReb with | some r => r != reb8 && decide ((reb8 - r).toNat < 128) | none => false
    let s := { s with harn := { s.harn with tickAt := s.tcxo, leadReb := some reb8 } }
    let s := if moved && !off then timeSet (dtJump s (nsUnits shiftNs)) fun t => { t with ringSrc := true } else s
    let th := tickTheta s leadDt corr
    let s := { s with harn := { s.harn with ofsNs := sat32 th } }
    if off then s
    else (timeApply (timeSet s fun t => { t with ringSrc := true }) th (nsUnits (-th)) (50 * hops) (dtOf s)).1

/-! ## Timed events (R461, R462, R464, R468) -/

/-- LEAP_CHANGE. -/
def leapChange (s : State) : State :=
  if !s.time.leapPend || (dtOf s).toNat < s.time.leapDt.toNat then s
  else logEvent 0x0903 (1 + 2 ^ 16 * s.time.utcNext.toNat)
    (timeSet s fun t => { t with utcCur := t.utcNext, leapPend := false })

/-- HOLDOVER_ENTRY: no exchange accepted for HOLDOVER_S. -/
def holdoverEntry (s : State) : State :=
  if timeOnState s = .on ∧ msPassed s s.time.accAt (1000 * regFld s 0x5004 16 16) then
    timeSet s fun t => { t with holdover := true }
  else s

/-- BATTERY_COUNTER_SYNC: rewritten where it differs from DT by more than two crystal ticks. -/
def bbcSync (s : State) : State :=
  let a := s.time.bbcSec.toNat * 32768 + s.time.bbcFrac.toNat
  let b := s.time.dt.toNat / 2 ^ 41
  if a ≤ b + 2 ∧ b ≤ a + 2 then s else timeSet s bbcWrite

/-- RATE_CORR_SAVE. -/
def rateSave (s : State) : State := timeSet s fun t => { t with savedRate := t.rate, savedF := t.f }

/-- VBAT_LOW: the flag follows VBAT, and its setting is recorded. -/
def vbatLow (s : State) (mv : Nat) : State :=
  let low := decide (mv < 1800)
  let s' := timeSet s fun t => { t with vbatLow := low }
  if low && !s.time.vbatLow then logEvent 0x0903 2 s' else s'

/-- DT_LO_READ: bits [31:0] read, bits [63:32] latched into DT_HI (R476). -/
def dtLoRead (s : State) : State :=
  let d := (dtOf s).toNat
  bwTx { s with time := { s.time with dtHi := BitVec.ofNat 32 (d / 2 ^ 32) },
                host := { s.host with lastRead := BitVec.ofNat 32 d },
                wire := .read (BitVec.ofNat 32 d) :: s.wire } 66 4

/-! ## OP_TIME_REBASE (R469, R470) -/

/-- IV and AAD of the token (R469). -/
def rebaseIv (nonce : Nat) : BitVec 96 := BitVec.ofNat 96 (nonce + 2 ^ 80 * 0xFFFF)
def rebaseAad (shift nonce : Nat) : List Byte :=
  [0x43, 0x4C, 0x47, 0x52, 0x45, 0x42, 0x41, 0x53] ++ leBytes 8 shift ++ leBytes 4 nonce

/-- A fresh nonce from the DRBG (R470). -/
def newNonce (s : State) : State :=
  let (n, s) := takeFree (drbgUse s)
  timeSet s fun t => { t with nonce := BitVec.ofNat 32 (Config.drbg n).toNat }

/-- Whether a key may authorize a rebase: a session key with USAGE bit 3. -/
def rebaseUsage (s : State) (h : Nat) : Bool :=
  match (dirGet s h).cur with
  | some b => b.usage.toNat / 8 % 2 == 1
  | none => true

def signed64 (v : Nat) : Int := if v < 2 ^ 63 then v else (v : Int) - (2 ^ 64 : Nat)

/-- The refusals of step 1, in the order of the parameters. -/
def rebaseBad (s : State) (f : Flight) (key : BitVec 256) : Option Nat :=
  let nonce := dByte f.raw 28 4
  let new := (s.time.dt.toNat : Int) + nsUnits (signed64 (dByte f.raw 32 8))
  if nonce ≠ s.time.nonce.toNat then some 28
  else if Config.gcmTag key (rebaseIv nonce) (rebaseAad (dByte f.raw 32 8) nonce) ≠ BitVec.ofNat 128 (dByte f.raw 40 16) then some 40
  else if new < 0 ∨ ((2 ^ 96 : Nat) : Int) ≤ new then some 32
  else none

/-- The steps after the check: the pending record, then DT and the counter in one write, then a fresh nonce. -/
def rebaseDo (s : State) (f : Flight) : State :=
  let shift := signed64 (dByte f.raw 32 8)
  let c := s.time.rebaseCnt + 1
  let s := setProgress (timeSet s fun t => { t with pendReb := some (shift, c) }) f 2 0
  let s := dtJump s (nsUnits shift)
  let s := timeSet s fun t => { t with rebaseCnt := c, pendReb := none, lastMsg := t.lastMsg.map fun m => { m with spoiled := true } }
  completeOk (newNonce s) { f with step := 2 } 3 0

/-- OP_TIME_REBASE; it waits for the DRBG that makes its fresh nonce (05 R165). -/
def timeRebase (s : State) (uid : Nat) : State :=
  withDesc s uid 0x69 fun f =>
    let h := dByte f.raw 24 4
    if timeMember s then badParam s f 0
    else if !(hIsDir h && hIsSession h) || !rebaseUsage s h then badParam s f 24
    else match dirUse s h with
    | .empty => reject s f stNotVerified 0
    | .revoked => reject s f stRevoked 0
    | .ok key _ => match rebaseBad s f key with
      | some o => badParam s f o
      | none => if drbgOpen s then rebaseDo s f else s

end Sys2Proof.Machine
end

