-- ==== Sys2Proof/Machine/Store.lean ====
section
/-!
DEFINITION. The interval store and its NAND (14): append, programming, placement and wrap, the journal's pages, garbage
collection, failures, patrol, discard, query, replay, health.
-/
namespace Sys2Proof.Machine
open Sys2Proof

def storeSet (s : State) (g : StoreSt → StoreSt) : State := { s with store := g s.store }

/-! ## Geometry and capacity (R427 to R431) -/

def pageKib (s : State) : Nat := max 1 (lget 0 s.store.geom 0)
def unitPages (s : State) : Nat := max 1 (32 / pageKib s)
/-- Map units a block holds. -/
def unitsPerBlock (s : State) : Nat := max 1 (lget 0 s.store.geom 1 * pageKib s / 32)
/-- TLC blocks of a die, after the pSLC share taken at format. -/
def tlcBlocks (s : State) : Nat := lget 0 s.store.geom 2 - lget 0 s.store.geom 2 * lget 0 s.store.geom 5 / 100

def dieGet (s : State) (n : Nat) : Die := tget Die.none s.store.dies n
def diePut (s : State) (n : Nat) (d : Die) : State := storeSet s fun t => { t with dies := tset Die.none t.dies n d }

/-- NAND_STATUS.PARITY_ACTIVE (R430). -/
def parityActive (s : State) : Bool := s.store.parity && decide (8 ≤ (diesOn s).length)

def goodBlocks (s : State) : Nat :=
  ((diesOn s).map fun n => tlcBlocks s - ((dieGet s n).retired.filter (· < tlcBlocks s)).length).sum

/-- STORE_CAPACITY in map units (R431). -/
def storeCapacity (s : State) : Nat :=
  let u := goodBlocks s * unitsPerBlock s * 93
  if parityActive s then u * 7 / 800 else u / 100

/-- Map units that hold entries. -/
def storeUsed (s : State) : Nat := (s.store.units.filter fun u => !u.par).length

/-- Bytes of an entry with its header (R432). -/
def entSize (e : SEnt) : Nat := 16 + e.body.length

def entBytes (e : SEnt) : List Byte :=
  leBytes 2 e.body.length ++ leBytes 1 e.typ ++ leBytes 1 (b2n e.quar) ++ leBytes 4 e.eid.toNat ++ leBytes 8 e.dt.toNat ++ e.body

/-- Pages in the NAND program queue 0x4F. -/
def progPages (s : State) : Nat := (s.store.units.map (·.left)).sum

def blockOf (s : State) (u : SUnit) : Nat := u.place / unitsPerBlock s

/-! ## Map entries of the journal (R437, R438) -/

/-- A map entry: 0 ALLOC, 1 GC_COMMIT, 2 DISCARD, 3 DROP, 4 BAD. It is this chip's own and is not mirrored. -/
def mapEntry (s : State) (kind arg : Nat) : State :=
  cnt (tailAdd s 0 (.note (16 + kind) arg)) 361

/-- Entries of the journal tail that fill one page, at least one. -/
def pageTake (room : Nat) : List JTail → Nat → List JTail × List JTail
  | [], _ => ([], [])
  | e :: t, used =>
    let n := used + Config.entryBytes (entKind e.ent)
    if used = 0 ∨ n ≤ room then
      let (a, b) := pageTake room t (max 1 n)
      (e :: a, b)
    else ([], e :: t)

/-- JOURNAL_PROGRAM: one page of the tail is programmed in both copies (R107, R429), and entries that waited for room join
it (03 R108). -/
def journalProgram (s : State) : State :=
  if !storeOn s || (diesOn s).isEmpty then s
  else
    let (a, b) := pageTake (pageKib s * 1024) s.recs.jtail 0
    match a.getLast? with
    | none => s
    | some e =>
      let s := { s with recs := { s.recs with jtail := b, jnand := s.recs.jnand ++ a, durable := BitVec.ofNat 32 e.jseq } }
      cntAdd (bwTx (tailRefill s.recs.jwait s) 68 (2 * pageKib s * 1024)) 353 2 0xFFFFFFFF

/-- The whole tail is programmed. -/
def journalFlush (s : State) : State := (List.range s.recs.jtail.length).foldl (fun s _ => journalProgram s) s

/-! ## Append (R433 to R436) -/

/-- Every physical unit in use: those the map names and the copies of a collection. -/
def allUnits (s : State) : List SUnit := s.store.units ++ s.store.copies

/-- The next free place of a die: on in the open block, or the first block that is free. -/
def placeFor (s : State) (die : Nat) : Option Nat :=
  let d := dieGet s die
  let upb := unitsPerBlock s
  if d.next % upb ≠ 0 then some d.next
  else
    let n := tlcBlocks s
    let free := fun b => !d.retired.contains b && !((allUnits s).any fun u => u.die == die && blockOf s u == b)
    ((List.range n).find? fun i => free ((d.next / upb + i) % n)).map fun i => (d.next / upb + i) % n * upb

/-- Put a unit on a die. -/
def unitPlace (s : State) (die : Nat) (u : SUnit) : State :=
  match placeFor s die with
  | none => s
  | some p =>
    let s := diePut s die { dieGet s die with next := p + 1 }
    mapEntry (storeSet s fun t => { t with units := t.units ++ [{ u with die := die, place := p, left := unitPages s }] }) 0 u.num

/-- Drop the oldest block of the interval store whole (R434). -/
def dropOldest (s : State) : State :=
  match s.store.units with
  | [] => s
  | u :: _ =>
    let gone := s.store.units.filter fun v => v.die == u.die && blockOf s v == blockOf s u
    let last := ((gone.map (·.ents)).flatten.map (·.ssn)).foldl max 0
    let s := storeSet s fun t => { t with units := t.units.filter fun v => !(v.die == u.die && blockOf s v == blockOf s u),
                                          oldest := max t.oldest (last + 1), wrapped := true }
    cnt (logEvent 0x0801 (2 ^ 32 * (u.die + 2 ^ 8 * blockOf s u)) (mapEntry s 3 (last + 1))) 360

/-- Drop the oldest block where the next unit would cut into the free reserve (R434). -/
def storeWrap (s : State) : State := if storeUsed s < storeCapacity s then s else dropOldest s

/-- The die of a physical unit: one after another, so that a stripe's eight lie on different dies (R430). -/
def stripeDie (s : State) (i : Nat) : Nat := lget 0 (diesOn s) (i % max 1 (diesOn s).length)

/-- Whether a die holds a unit of a stripe already. -/
def stripeHeld (s : State) (num die : Nat) : Bool :=
  parityActive s && (s.store.units.any fun v => v.die == die && v.num / 7 == num / 7)

/-- Of some dies, the first with room that holds nothing of a unit's stripe, else the first with room. -/
def roomyDie (s : State) (num : Nat) (l : List Nat) : Option Nat :=
  let l := l.filter fun d => (placeFor s d).isSome
  match l.find? fun d => !stripeHeld s num d with
  | some d => some d
  | none => l.head?

/-- Find a die for a unit; while none has room the oldest blocks are dropped, never the unit (R434, 00 R6). -/
def dieFind (l : List Nat) (num : Nat) : Nat → State → Option Nat × State
  | 0, s => (roomyDie s num l, s)
  | k + 1, s =>
    match roomyDie s num l with
    | some d => (some d, s)
    | none => dieFind l num k (dropOldest s)

/-- Place a unit on its stripe's die, or on another where that one is full. -/
def unitStore (s : State) (die : Nat) (u : SUnit) : State :=
  match dieFind (die :: diesOn s) u.num s.store.units.length s with
  | (some d, s) => unitPlace s d u
  | (none, s) => s

/-- Close the open unit: it goes to the program queue, and a full stripe's parity unit after it. -/
def unitClose (s : State) : State :=
  if s.store.open_.isEmpty then s
  else
    let n := s.store.unitNext
    let phys := if parityActive s then n + n / 7 else n
    let u : SUnit := { num := n, ents := s.store.open_, die := 0, place := 0, disc := false, unread := false, par := false,
                       left := 0, src := none }
    let s := storeWrap s
    let s := unitStore (storeSet s fun t => { t with open_ := [], unitNext := n + 1 }) (stripeDie s phys) u
    if parityActive s && n % 7 == 6 then
      unitStore s (stripeDie s (phys + 1)) { u with ents := [], par := true }
    else s

/-- STORE_APPEND: the oldest queued entry gets the next SSN in the open unit. -/
def storeAppend (s : State) : State :=
  match s.store.queue with
  | [] => s
  | e :: rest =>
    let fits := decide ((s.store.open_.map entSize).sum + entSize e ≤ 32768 - 64)
    if !storeOn s || (diesOn s).isEmpty then s
    else if !fits && decide (192 < progPages s + 2 * unitPages s) then s
    else
      let s := if fits then s else unitClose s
      let e := { e with ssn := s.store.next }
      cntAdd (storeSet s fun t => { t with queue := rest, next := t.next + 1, open_ := t.open_ ++ [e] }) 352 1 e.eid

/-- NAND_PAGE_PROGRAMMED: a queued page finishes on its die. -/
def pageProgrammed (s : State) (die : Nat) : State :=
  match s.store.units.find? fun u => u.die == die && u.left != 0 with
  | none => s
  | some v =>
    if !dieOn s die then s
    else
      let s := storeSet s fun t => { t with units := t.units.map fun u =>
        if u.num = v.num ∧ u.par = v.par then { u with left := u.left - 1 } else u }
      cnt (bwTx s 68 (pageKib s * 1024)) 353

/-! ## Garbage collection and failures (R439 to R442, R428, R454) -/

/-- A block is full: not the one its die is filling. -/
def blockFull (s : State) (die b : Nat) : Bool :=
  let d := dieGet s die
  d.next % unitsPerBlock s == 0 || d.next / unitsPerBlock s != b

def validIn (s : State) (die b : Nat) : List SUnit := s.store.units.filter fun u => u.die == die && blockOf s u == b && !u.disc

/-- The victim: a block due for refresh, else the one with the fewest valid units, then the fewest erases. -/
def gcVictim (s : State) (die : Nat) : Option Nat :=
  let d := dieGet s die
  let blocks := ((s.store.units.filter fun u => u.die == die && u.left == 0).map (blockOf s)).eraseDups.filter (blockFull s die)
  match d.refresh.find? (blocks.contains ·) with
  | some b => some b
  | none => blocks.foldl (fun a b => match a with
      | none => some b
      | some c =>
        let x := (validIn s die b).length
        let y := (validIn s die c).length
        if x < y ∨ (x = y ∧ tget 0 d.erases b < tget 0 d.erases c) then some b else some c) none

/-- Copy a unit to a die's next free place: a second physical unit, whose metadata names the first (R439). -/
def unitCopy (s : State) (u : SUnit) (die : Nat) : State :=
  match placeFor s die with
  | none => s
  | some p =>
    let s := diePut s die { dieGet s die with next := p + 1 }
    cnt (storeSet s fun t => { t with copies := t.copies ++ [{ u with die := die, place := p, left := 0, src := some (u.die, u.place) }] }) 355

/-- The copy the map is to name in a unit's place: of the same logical number, taken from where the map still places it. -/
def copyOf (t : StoreSt) (u : SUnit) : SUnit :=
  match t.copies.find? fun c => c.num == u.num && c.par == u.par && c.src == some (u.die, u.place) with
  | some c => { c with disc := u.disc, unread := u.unread }
  | none => u

/-- Apply a GC_COMMIT to the map: each unit it still places in the victim moves (R440 step 4). -/
def gcApply (s : State) : State := storeSet s fun t => { t with units := t.units.map (copyOf t), copies := [], gc := none }

/-- R440 step 1: the units the map places in a block are copied; its discarded ones are reclaimed with it. -/
def gcCopy (s : State) (die b dst : Nat) : State :=
  (validIn s die b).foldl (fun s u => unitCopy s u dst) (storeSet s fun t => { t with gc := some ⟨die, b, false⟩ })

/-- Step 2: GC_COMMIT is appended, and the journal page that holds it programmed. -/
def gcCommit (s : State) (die b : Nat) : State :=
  let s := journalFlush (mapEntry s 1 (validIn s die b).length)
  storeSet s fun t => { t with gc := some ⟨die, b, true⟩,
                               units := t.units.filter fun u => !(u.die == die && blockOf s u == b && u.disc) }

/-- Empty a block without erasing it: copies, commit, map. -/
def blockEmpty (s : State) (die b dst : Nat) : State := gcApply (gcCommit (gcCopy s die b dst) die b)

/-- Erase a block and return it to the free list. -/
def blockErase (s : State) (die b : Nat) : State :=
  let d := dieGet s die
  cnt (diePut s die { d with erases := tset 0 d.erases b (tget 0 d.erases b + 1), reads := tset 0 d.reads b 0, eraseRow := 0,
                             refresh := d.refresh.filter (· != b) }) 354

/-- No move begins while a control core is not running (R457) or after PFAIL_n (R445). -/
def storeWorks (s : State) (die : Nat) : Bool := storeOn s && dieOn s die && !coresPaused s && !s.rp.stopped

/-- Whether a die has room for every unit the map places in one of its blocks. -/
def gcRoom (s : State) (die b : Nat) : Bool :=
  (gcCopy s die b die).store.copies.length == s.store.copies.length + (validIn s die b).length

/-- GARBAGE_COLLECTION: steps 1 to 4 of R440, where the units have room. -/
def garbageCollect (s : State) (die : Nat) : State :=
  if !storeWorks s die then s
  else match gcVictim s die with
  | none => s
  | some b => if gcRoom s die b then gcApply (blockErase (gcCommit (gcCopy s die b die) die b) die b) else s

/-- A mount's answer to a collection that power loss cut short (R441): before its commit was programmed, its copies are
orphans and are reclaimed; after, its moves are replayed and the victim is erased again. -/
def gcMount (s : State) : State :=
  match s.store.gc with
  | some g => if g.committed then blockErase (gcApply s) g.die g.block else storeSet s fun t => { t with copies := [], gc := none }
  | none => storeSet s fun t => { t with copies := [] }

/-- Retire a block with a BAD entry. -/
def blockRetire (s : State) (die b : Nat) : State :=
  let d := dieGet s die
  mapEntry (storeSet (diePut s die { d with retired := d.retired ++ [b], refresh := d.refresh.filter (· != b) }) fun t =>
    { t with retired := t.retired + 1 }) 4 (die + 2 ^ 8 * b)

/-- NAND_PROGRAM_FAILURE: the block being filled is retired and everything in it goes to a fresh one; a collection that was
copying into it is redone from its victim (R442). -/
def programFailure (s : State) (die : Nat) : State :=
  let d := dieGet s die
  let upb := unitsPerBlock s
  if !storeOn s || !dieOn s die || d.next == 0 then s
  else
    let b := (d.next - 1) / upb
    let s := storeSet s fun t => { t with progFail := t.progFail + 1 }
    let s := blockRetire (diePut s die { d with next := (b + 1) * upb }) die b
    let v := match s.store.gc with | some g => if g.die = die then some g.block else none | none => none
    let s := storeSet s fun t => { t with copies := t.copies.filter fun c => !(c.die == die && blockOf s c == b) }
    let s := blockEmpty s die b die
    match v with
    | some v => if gcRoom s die v then gcApply (blockErase (gcCommit (gcCopy s die v die) die v) die v) else s
    | none => s

/-- Disable a die by a fault: codes 0x0103 with its FUNC_ID and 0x0801 cause 3 (R428; log entry 31). -/
def dieFail (s : State) (die : Nat) : State :=
  let s := diePut s die { dieGet s die with failed := true }
  logEvent 0x0801 (3 + 2 ^ 32 * die) (faultDisable s (0x0800 + die))

/-- NAND_ERASE_FAILURE: the victim's units have moved; the block is retired; three in a row disable the die (R428, R442). -/
def eraseFailure (s : State) (die : Nat) : State :=
  if !storeOn s || !dieOn s die then s
  else
    let s := storeSet s fun t => { t with eraseFail := t.eraseFail + 1 }
    let s := match gcVictim s die with
      | some b => blockRetire (blockEmpty s die b die) die b
      | none => s
    let d := dieGet s die
    let s := diePut s die { d with eraseRow := d.eraseRow + 1 }
    if 3 ≤ d.eraseRow + 1 then dieFail s die else s

/-- DIE_TIMEOUT: no command answered for 10 ms (R428). -/
def dieTimeout (s : State) (die : Nat) : State := if dieOn s die then dieFail s die else s

/-- Dies by how full they are, the emptiest first. -/
def byRoom (s : State) (l : List Nat) : List Nat :=
  let n := fun d => ((allUnits s).filter fun u => u.die == d).length
  l.foldl (fun a d => (a.filter fun x => n x ≤ n d) ++ d :: a.filter fun x => !decide (n x ≤ n d)) []

/-- Move one unit under R440 to another of some dies; while none has room the oldest block is dropped (R454 stage 2,
R434), the unit's own perhaps. -/
def unitRelocate (dst : List Nat) (s : State) (u : SUnit) : State :=
  match dieFind (byRoom s dst) u.num s.store.units.length s with
  | (some d, s) => if s.store.units.any fun v => v.num == u.num && v.par == u.par then gcApply (unitCopy s u d) else s
  | (none, s) => s

/-- What STOPPING of a die does: its units move to the other dies, the oldest dropped where they no longer fit (R454). -/
def dieRelocate (s : State) (die : Nat) : State :=
  let dst := (diesOn s).filter (· != die)
  let own := s.store.units.filter fun u => u.die == die && !u.disc
  let s := own.foldl (unitRelocate dst) s
  mapEntry (storeSet s fun t => { t with units := t.units.filter fun u => u.die != die }) 1 own.length

/-! ## Patrol and temperature (R443, R444, R453) -/

def refreshDue (s : State) (die b : Nat) : State :=
  let d := dieGet s die
  if d.refresh.contains b then s else diePut s die { d with refresh := d.refresh ++ [b] }

/-- Programmed pages of the dies ON. -/
def patrolPages (s : State) : Nat := (s.store.units.filter fun u => dieOn s u.die && u.left == 0).length * unitPages s

/-- A codeword corrected, in the histogram of corrected bits (R453). -/
def histAdd (s : State) (corr : Nat) : State :=
  storeSet s fun t => { t with hist := lset t.hist (min 7 (corr / 12)) (lget 0 t.hist (min 7 (corr / 12)) + 1) }

/-- The patrol's next page: its pass position. -/
def patrolStep (s : State) : State :=
  let s := storeSet s fun t => { t with patrol := t.patrol + 1 }
  if patrolPages s ≤ s.store.patrol then storeSet s fun t => { t with patrol := 0, passes := t.passes + 1 } else s

/-- PATROL_READ. -/
def patrolRead (s : State) (die corr : Nat) (eccFail retryOk rebuildOk : Bool) : State :=
  if !storeWorks s die then s
  else
    let d := dieGet s die
    let unit := d.ppos / unitPages s
    let b := unit / unitsPerBlock s
    let s := diePut s die { d with ppos := if d.ppos + 1 < d.next * unitPages s then d.ppos + 1 else 0 }
    let s := patrolStep (cnt (bwRx s 68 (pageKib s * 1024)) 356)
    let s := if eccFail then s else histAdd s corr
    let s := if (!eccFail && decide (regFld s 0xA004 0 7 ≤ corr)) || decide (regFld s 0xA004 8 16 * 1000 ≤ tget 0 d.reads b) then refreshDue s die b else s
    if !eccFail then s
    else
      let s := cnt s 357
      if retryOk then refreshDue (storeSet s fun t => { t with retryOk := t.retryOk + 1 }) die b
      else if rebuildOk then cnt (storeSet s fun t => { t with rebuilt := t.rebuilt + 1 }) 358
      else
        let s := storeSet s fun t => { t with unreadCnt := t.unreadCnt + 1, units := t.units.map fun u =>
          if u.die = die ∧ u.place = unit then { u with unread := true } else u }
        logEvent 0x0801 (1 + 2 ^ 32 * (die + 2 ^ 8 * b)) (cnt s 359)

def tempBucket (t : Int) : Nat := if t < 0 then 0 else if t < 40 then 1 else if t < 70 then 2 else if t < 85 then 3 else 4

/-- NAND_TEMPERATURE_READ: one minute at each die's temperature (log entry 32). -/
def temperatureRead (s : State) (temps : List Int) : State :=
  temps.foldl (fun s t => storeSet s fun x => { x with
    hours := lset x.hours (tempBucket t) (lget 0 x.hours (tempBucket t) + 1),
    hotMax := match x.hotMax with | some m => some (max m t) | none => some t }) s

/-! ## Discard, query, replay (R449 to R452, R575) -/

/-- OP_STORE_DISCARD. -/
def storeDiscard (s : State) (uid : Nat) : State :=
  withDesc s uid 0x61 fun f =>
    let mode := dByte f.raw 24 1
    let from_ := dByte f.raw 32 8
    let upto := dByte f.raw 40 8
    if 1 < mode then badParam s f 24
    else if upto ≤ from_ then badParam s f 40
    else storeRun s f <|
      let ent := JEnt.note 18 (mode + 2 * (from_ + 2 ^ 64 * upto))
      if !tailRoom s ent then s
      else
        let s := appendState s 0 ent
        let hit := fun (e : SEnt) => if mode = 1 then decide (from_ ≤ e.dt.toNat ∧ e.dt.toNat < upto) else decide (from_ ≤ e.ssn ∧ e.ssn < upto)
        let whole := fun (u : SUnit) => !u.par && !u.disc && !u.ents.isEmpty && u.ents.all hit
        let n := (s.store.units.filter whole).length
        let s := storeSet s fun t => { t with disc := t.disc ++ [(mode == 1, from_, upto, t.next)],
                                              units := t.units.map fun u => if whole u then { u with disc := true } else u }
        completeOk (cntAdd s 362 n 0xFFFFFFFF) f 3 (result4 n 0 0 0)

/-- Bad parameters of a query or replay. -/
def queryBad (s : State) (raw : BitVec 512) (replay : Bool) : Option Nat :=
  let m := dByte raw 25 1
  if 1 < dByte raw 24 1 then some 24
  else if m = 0 ∨ 15 < m then some 25
  else if replay && (decide (15 < dByte raw 26 1) || (rrGet s (dByte raw 26 1)).fn.st != .on) then some 26
  else if dByte raw 48 4 = 0 then some 48
  else none

def inRange (raw : BitVec 512) (e : SEnt) : Bool :=
  let k := if dByte raw 24 1 = 1 then e.dt.toNat else e.ssn
  decide (dByte raw 32 8 ≤ k ∧ k < dByte raw 40 8)

/-- Whether a query selects an entry. -/
def wanted (raw : BitVec 512) (e : SEnt) : Bool :=
  inRange raw e && dByte raw 25 1 / 2 ^ (e.typ - 1) % 2 == 1 && (dByte raw 28 4 == 0xFFFFFFFF || dByte raw 28 4 == e.eid.toNat)

/-- Whether an entry is discarded. -/
def entDiscarded (s : State) (e : SEnt) : Bool := entHidden { s with store := { s.store with oldest := 0 } } e

/-- Entries a scan meets, in SSN order, from STORE_OLDEST on. -/
def scanEnts (s : State) : List SEnt :=
  (((s.store.units.filter fun u => !u.unread).map (·.ents)).flatten ++ s.store.open_).filter fun e => decide (s.store.oldest ≤ e.ssn)

/-- Units a range touches that cannot be read. -/
def skippedUnits (s : State) (raw : BitVec 512) : Nat :=
  (s.store.units.filter fun u => u.unread && u.ents.any (inRange raw)).length

/-- The 8 B SSN, the entry, padding to 8 B; of a discarded entry the content is free. -/
def queryBytes (s : State) (e : SEnt) : State × List Byte :=
  let b := entBytes e
  let pad := List.replicate ((8 - b.length % 8) % 8) 0
  if entDiscarded s e then
    let (n, s) := takeFree s
    (s, leBytes 8 e.ssn ++ (List.range b.length).map (fun i => Config.freeByte (n * 65536 + i)) ++ pad)
  else (s, leBytes 8 e.ssn ++ b ++ pad)

/-- As many whole entries as the buffer and MAX_ENTRIES allow: the bytes, how many, and the entries left. -/
def queryTake (room max : Nat) : List SEnt → State → List Byte → Nat → State × List Byte × Nat × List SEnt
  | [], s, out, n => (s, out, n, [])
  | e :: t, s, out, n =>
    let (s', b) := queryBytes s e
    if n < max ∧ out.length + b.length ≤ room then queryTake room max t s' (out ++ b) (n + 1)
    else (s, out, n, e :: t)

/-- SSN to ask for next: the first entry not returned, or the end of what the range can hold. -/
def nextSsn (s : State) (raw : BitVec 512) (left : List SEnt) : Nat :=
  match left with
  | e :: _ => e.ssn
  | [] => if dByte raw 24 1 = 0 then min (dByte raw 40 8) s.store.next else s.store.next

/-- RESULT of R451. -/
def queryResult (s : State) (raw : BitVec 512) (n next : Nat) (disc : Bool) : BitVec 128 :=
  let sk := skippedUnits s raw
  let old := dByte raw 24 1 = 0 ∧ dByte raw 32 8 < s.store.oldest
  BitVec.ofNat 128 (n + 2 ^ 32 * (next % 2 ^ 64) + 2 ^ 96 * ((if old then 1 else 0) + 2 * b2n disc + 4 * b2n (sk != 0)) +
    2 ^ 112 * min sk 65535)

/-- A scan reads each unit it touches (R443). -/
def scanReads (s : State) (raw : BitVec 512) : State :=
  (s.store.units.filter fun u => u.left == 0 && u.ents.any (wanted raw)).foldl (fun s u =>
    let d := dieGet s u.die
    bwRx (diePut s u.die { d with reads := tset 0 d.reads (blockOf s u) (tget 0 d.reads (blockOf s u) + unitPages s) }) 68 32768) s

/-- OP_STORE_QUERY. -/
def storeQuery (s : State) (uid : Nat) : State :=
  withDesc s uid 0x60 fun f =>
    match queryBad s f.raw false with
    | some o => badParam s f o
    | none => storeRun s f <|
      let l := (scanEnts s).filter (wanted f.raw)
      let disc := (scanEnts s).any fun e => inRange f.raw e && entDiscarded s e
      let (s', out, n, left) := queryTake (dBufLen f.raw) (dByte f.raw 48 4) l (scanReads s f.raw) [] 0
      let s' := writeBuf s' f out
      complete s' f (if disc then stDiscarded else stOk) 1 n (queryResult s f.raw n (nextSsn s f.raw left) disc)

/-- Put the records of stored readings into the delivery queue for a ring, while it has room (R452). -/
def replayTake (ring uid max : Nat) : List SEnt → State → Nat → State × Nat × List SEnt
  | [], s, n => (s, n, [])
  | e :: t, s, n =>
    if max ≤ n ∨ delivRoom s 3 = false then (s, n, e :: t)
    else match e.rd with
    | some r =>
      let id := s.host.delivNext
      let s := { s with host := { s.host with delivNext := id + 1,
                                              deliv := s.host.deliv ++ [⟨id, false, r, 0, 3, some uid, some ring⟩] } }
      replayTake ring uid max t s (n + 1)
    | none => replayTake ring uid max t s n

/-- Where a replay that was held goes on: the SSN of the first record it has not delivered (R457). -/
def replayFrom (f : Flight) : Nat := match f.stage with | .wait ssn _ 1 => ssn | _ => 0

/-- OP_STORE_REPLAY: held while the delivery queue is full; it ends once its records are on their ring (R86). -/
def storeReplay (s : State) (uid : Nat) : State :=
  withDesc s uid 0x62 fun f =>
    match queryBad s f.raw true with
    | some o => badParam s f o
    | none => storeRun s f <|
      match f.stage with
      | .drain _ _ _ => s
      | _ =>
        let l := (scanEnts s).filter fun e => wanted f.raw e && e.typ == 1 && decide (replayFrom f ≤ e.ssn)
        let disc := (scanEnts s).any fun e => inRange f.raw e && entDiscarded s e
        let (s', n, left) := replayTake (dByte f.raw 26 1) uid (dByte f.raw 48 4) l (scanReads s f.raw) f.units
        if left.isEmpty || decide (dByte f.raw 48 4 ≤ n) then
          settle s' { f with units := n } (if disc then stDiscarded else stOk) 1 (queryResult s f.raw n (nextSsn s f.raw left) disc)
        else setProgress s' { f with stage := .wait (nextSsn s f.raw left) 0 1 } 0 n

/-! ## OP_STORE_HEALTH (R453) -/

/-- SPARE_PCT of the TLC pool: free reserve and held-back space left, which go with its good blocks (R431), of the value at
format. -/
def sparePct (s : State) : Nat := if s.store.fmtGood = 0 then 0 else min 255 (100 * goodBlocks s / s.store.fmtGood)

/-- SPARE_PCT of the pSLC pool, none of whose blocks the model retires (log entry 171). -/
def spareSlc (s : State) : Nat := if s.store.fmtGood = 0 then 0 else 100

def worstErase (s : State) : Nat := ((s.store.dies.map fun p => (p.2.erases.map (·.2)).foldl max 0)).foldl max 0
def meanErase (s : State) : Nat :=
  let n := (diesOn s).length * tlcBlocks s
  ((s.store.dies.map fun p => (p.2.erases.map (·.2)).sum).sum) / max 1 n

/-- WEAR_PCT: of the rated endurance of the NAND profile, whose figure the spec leaves to the profile. -/
def wearPct (s : State) : Nat := min 255 (worstErase s * 100 / max 1 (Config.ratedEndurance.toNat))

def healthBytes (s : State) : List Byte :=
  leBytes 1 (sparePct s) ++ leBytes 1 (spareSlc s) ++ leBytes 1 (wearPct s) ++ leBytes 1 0 ++ leBytes 4 (meanErase s) ++
  leBytes 4 s.store.retired ++ leBytes 4 s.store.progFail ++ leBytes 4 s.store.eraseFail ++ leBytes 4 s.store.retryOk ++
  leBytes 4 s.store.rebuilt ++ leBytes 4 s.store.unreadCnt ++ (s.store.hist.map (leBytes 4)).flatten ++
  leBytes 4 (maskOf (diesOn s)) ++ leBytes 4 (maskOf ((List.range 32).filter fun n => (dieGet s n).failed)) ++
  leBytes 2 (signedBits 16 (s.store.hotMax.getD 0)) ++ leBytes 2 0 ++ (s.store.hours.map fun m => leBytes 4 (m / 60)).flatten ++
  leBytes 8 s.store.passes ++ leBytes 24 0

def storeHealth (s : State) (uid : Nat) : State :=
  withDesc s uid 0x63 fun f =>
    storeRun s f (completeOk (writeBuf s f (healthBytes s)) f 1 0)

/-! ## Hold-up flush and mount (R445 to R448) -/

/-- HOLDUP_EST in µs (R446): both copies of the tail cap and 1 MiB of open units. -/
def holdupEst (s : State) : Nat :=
  let bytes := 2 * regFld s 0x9120 0 4 * 1048576 + 1048576
  let per := pageKib s * 1024 * max 1 (diesOn s).length
  (bytes + per - 1) / per * (lget 0 s.store.geom 3 * 10) + bytes / 3200

/-- Steps 3 and 4 of the hold-up flush: the tail in both copies, open units, queued pages, the marker. -/
def holdupFlush (s : State) : State :=
  if !storeOn s || (diesOn s).isEmpty then s
  else
    let s := unitClose (journalFlush s)
    storeSet (journalFlush s) fun t => { t with marker := true, lastFlush := holdupEst s,
                                                units := t.units.map fun u => { u with left := 0 } }

/-- Mount: with a root, or a format where AUTO_FORMAT allows one (R448 step 1); MOUNT_FAIL otherwise. -/
def storeFormat (s : State) : State :=
  let fresh := fun (d : Die) => { d with erases := [], reads := [], retired := [], next := 0, refresh := [], ppos := 0 }
  let s := storeSet s fun t => { t with dies := t.dies.map fun p => (p.1, fresh p.2) }
  storeSet s fun t =>
    { t with rootOk := true, fmtGood := goodBlocks s, mountFail := false, parity := wbit (regGet s 0xA000) 24,
             geom := t.geom.take 5 ++ [regFld s 0xA000 8 7], units := [], copies := [], gc := none, open_ := [], oldest := t.next,
             unitNext := 0, disc := [], marker := false, wrapped := false, retired := 0 }

/-- Whether the store can mount now. -/
def storeMounts (s : State) : Bool :=
  (s.store.dies.any fun p => p.2.found) && (s.store.rootOk || wbit (regGet s 0xA000) 0)

/-- Steps 1 to 6 of a mount that succeeds: flushed and queued pages are in place, the marker is cleared, HOLDUP_EST is
computed and a risk recorded (R446). -/
def storeMount (s : State) : State :=
  let s := gcMount (if s.store.rootOk then s else storeFormat s)
  let s := storeSet s fun t => { t with mountFail := false, marker := false, units := t.units.map fun u => { u with left := 0 } }
  let s := storeSet s fun t => { t with holdEst := holdupEst s }
  if 40000 < s.store.holdEst then logEvent 0x0801 2 s else s

end Sys2Proof.Machine
end

