-- ==== Sys2Proof/Machine/Eps.lean ====
section
/-!
DEFINITION. Endpoint records (03): OP_EP_PROVISION, OP_EP_UPDATE, OP_EP_RETIRE with its drain, and the background
migration of record formats.
-/
namespace Sys2Proof.Machine
open Sys2Proof

/-! ## The shared parameter layout (R577) -/

def pvAddr (raw : BitVec 512) : BitVec 64 := BitVec.ofNat 64 (dByte raw 24 8)
def pvAttach (raw : BitVec 512) : Word := BitVec.ofNat 32 (dByte raw 32 4)
def pvGrid (raw : BitVec 512) : Word := BitVec.ofNat 32 (dByte raw 36 4)
def pvBind (raw : BitVec 512) : Word := BitVec.ofNat 32 (dByte raw 40 4)
def pvValid (raw : BitVec 512) : Word := BitVec.ofNat 32 (dByte raw 44 4)
def pvBilling (raw : BitVec 512) : Bool := dByte raw 48 1 % 2 == 1
def pvProto (raw : BitVec 512) : BitVec 3 := BitVec.ofNat 3 (dByte raw 48 1 / 2)
def pvState (raw : BitVec 512) : BitVec 3 := BitVec.ofNat 3 (dByte raw 49 1)
/-- One bit of the update mask in AUX. -/
def pvMask (raw : BitVec 512) (i : Nat) : Bool := dAux raw / 2 ^ i % 2 == 1

/-- The meter address is bound to another record: offset 24, with that record's EID (R102, R103). -/
def addrBound (s : State) (f : Flight) (holder : Nat) : State := reject s f stBad (badResult rsParam 24 holder)

/-! ## OP_EP_PROVISION (R102, R201) -/

/-- The record step 3 writes: registers, ledger and LATE_ADJ zero, PERIOD the calendar's open period (R252). -/
def provRec (s : State) (raw : BitVec 512) : EpRec :=
  { EpRec.free with
    version := s.recs.fmt, state := 1, billing := pvBilling raw, proto := pvProto raw, ownerEpoch := s.recs.epoch,
    meterAddr := pvAddr raw, attach := pvAttach raw, gridLoc := pvGrid raw, tariffBind := pvBind raw,
    validCfg := pvValid raw, period := (calGet s (fld (pvBind raw) 8 8)).openPer }

/-- Whether a provision repeats the record as it stands (R102). -/
def provSame (r : EpRec) (raw : BitVec 512) : Bool :=
  (r.state == 1 || r.state == 2) && r.meterAddr == pvAddr raw && r.proto == pvProto raw && r.attach == pvAttach raw &&
  r.tariffBind == pvBind raw && r.validCfg == pvValid raw && r.billing == pvBilling raw

/-- What step 1 finds of a blob. -/
inductive PvBlob where
  | none
  | ok (b : Blob)
  | badAux
  | revoked
  | check (n : Nat)
  deriving DecidableEq, Repr

/-- A blob carries the same generation and KCV as one held. -/
def blobAlike (b : Blob) (x : Option Blob) : Bool :=
  match x with | some c => c.gen == b.gen && blobKcv c == blobKcv b | none => false

/-- The record holds a blob already, as its current or pending key (R102, 06 R200). -/
def blobHeld (r : EpRec) (b : Blob) : Bool := (kcCurValid r && blobAlike b r.keyCur) || (kcPendValid r && blobAlike b r.keyPend)

/-- Step 1 for a blob: AUX names its domain key, the blob carries GEN 1 (R201) and passes R198. A record that holds
another key and could not take GEN 1 under R216 fails the check of the generation, the second. -/
def provBlob (s : State) (eid : Nat) (raw : BitVec 512) (blob : Option Blob) : PvBlob :=
  if dBufLen raw = 0 then (if dAux raw = 0 then .none else .badAux)
  else match parentUse s (.ep eid) (dAux raw) with
    | .empty => .badAux
    | .revoked => .revoked
    | .ok kek pg =>
      match blobCheck blob kek (epHandle eid) (dAux raw) 1 pg, blob with
      | some c, _ => .check c
      | Option.none, some b =>
        if !blobHeld (recGet s eid) b && (recGet s eid).state != 0 && nextGen (recGet s eid) != 1 then .check 2 else .ok b
      | Option.none, Option.none => .none

/-- Step 4: the blob becomes the pending key; one the record holds already changes nothing. -/
def provInstall (s : State) (eid : Nat) (b : Blob) : State :=
  let r := recGet s eid
  if blobHeld r b then s
  else
    let r' := kcSet (kcSet (kcSet { recView s eid with keyPend := some b } 8 8 b.gen.toNat) 16 12 (hIndex b.parent.toNat))
                29 1 1
    let s := recChange s eid r'
    if kcPendValid r then retireEp s eid (kcPend r) else s

/-- Posting entries of a former record of the EID restore nothing of the new one. -/
def postsEnd (s : State) (eid : Nat) : State :=
  let g : SEnt → SEnt := fun e => if e.eid.toNat = eid then { e with post := none } else e
  { s with store := { s.store with
      open_ := s.store.open_.map g
      queue := s.store.queue.map g
      units := s.store.units.map fun u => { u with ents := u.ents.map g } } }

/-- Steps 2 to 4. The slot an unwrap needs has been found. -/
def provGo (s : State) (f : Flight) (same : Bool) (b : PvBlob) : State :=
  let eid := dEid f.raw
  let s := if same then s else
    let r := provRec s f.raw
    recPut (appendState (postsEnd s eid) 0 (.epRec eid r)) eid r
  let s := match b with | .ok b => provInstall s eid b | _ => s
  completeOk s f 4 (result4 (b2n same) 0 0 0)

/-- The checks of step 1, in the order of R102; the unwrap may wait for a kennel slot (R205). -/
def provCheck (s : State) (f : Flight) (same : Bool) (b : PvBlob) : State :=
  let eid := dEid f.raw
  match b with
  | .badAux => badParam s f 20
  | .revoked => reject s f stRevoked 0
  | .check c => reject (logBlob s (epHandle eid) c) f stBad (badResult rsParam 8 c)
  | .none => provGo s f same b
  | .ok x =>
    let pin := (pinGet s eid).on && !blobHeld (recGet s eid) x
    match (if pin then pinsExceed s 1 else (false, s)) with
    | (true, s) => reject s f stSlotBusy 0
    | (false, s) =>
    match (if pin then ensureEp s eid (some x) true else ensureDir s (dAux f.raw) false) with
      | Option.none => slotWait s f
      | some s => provGo s f same b

/-- OP_EP_PROVISION. -/
def epProvision (s : State) (uid : Nat) (blob : Option Blob) : State :=
  withDesc s uid 0x10 fun f =>
    let eid := dEid f.raw
    let r := recGet s eid
    let same := provSame r f.raw
    if dBufLen f.raw ≠ 0 ∧ dBufLen f.raw ≠ 64 then badBuf s f 16
    else if pvProto f.raw > 2 then badParam s f 48
    else if !same && r.state != 0 then badParam s f 4
    else match (if same then none else addrLookup s (pvAddr f.raw) (pvProto f.raw)) with
      | some e => addrBound s f e
      | none => provCheck s f same (provBlob s eid f.raw blob)

/-! ## OP_EP_UPDATE (R103, R104, R279) -/

/-- PREPAY as a change of BILLING leaves it: to prepay it enters CREDIT with EVAL_HOLD (R279). -/
def billChanged (s : State) (r : EpRec) (pre : Bool) : Prepay :=
  if pre && !r.billing then { r.prepay with lstate := 0, flags := r.prepay.flags ||| 8, stateDt := dtOf s } else r.prepay

/-- A word's defined bits replaced, its reserved ones kept as found (R114). -/
def keepRes (mask old new : Word) : Word := (new &&& mask) ||| (old &&& ~~~mask)

/-- The record with every selected field applied. -/
def updRec (s : State) (r : EpRec) (raw : BitVec 512) : EpRec :=
  { r with
    attach := if pvMask raw 0 then keepRes 0xFF3F r.attach (pvAttach raw) else r.attach
    gridLoc := if pvMask raw 1 then keepRes 0xFF1F r.gridLoc (pvGrid raw) else r.gridLoc
    tariffBind := if pvMask raw 2 then keepRes 0xFFFFFF r.tariffBind (pvBind raw) else r.tariffBind
    validCfg := if pvMask raw 3 then keepRes 0xFF3F r.validCfg (pvValid raw) else r.validCfg
    billing := if pvMask raw 4 then pvBilling raw else r.billing
    prepay := if pvMask raw 4 then billChanged s r (pvBilling raw) else r.prepay
    state := if pvMask raw 5 then pvState raw else r.state
    meterAddr := if pvMask raw 6 then pvAddr raw else r.meterAddr
    proto := if pvMask raw 6 then pvProto raw else r.proto }

/-- Another record that holds the new address (R103). -/
def updHolder (s : State) (eid : Nat) (raw : BitVec 512) : Option Nat :=
  match (if pvMask raw 6 then addrLookup s (pvAddr raw) (pvProto raw) else none) with
  | some e => if e = eid then none else some e
  | none => none

/-- OP_EP_UPDATE; a new LINK_PROFILE releases the record's link (11 R359). DESIGN CHOICE (log entry 164): a mask that
selects nothing is a change like any other, with its state entry and WRITE_SEQ. -/
def epUpdate (s : State) (uid : Nat) : State :=
  withDesc s uid 0x11 fun f =>
    let eid := dEid f.raw
    let r := recView s eid
    if !stateRuns r.state.toNat 0x11 (dTc f.raw) then badParam s f 4
    else if pvMask f.raw 6 && decide (pvProto f.raw > 2) then badParam s f 48
    else if pvMask f.raw 5 && pvState f.raw != 1 && pvState f.raw != 2 then badParam s f 49
    else match updHolder s eid f.raw with
      | some e => addrBound s f e
      | none =>
        let r' := updRec s r f.raw
        let s := recChange s eid r'
        completeOk (if epProfile r' = epProfile r then s else linkRelease s eid) f 3 0

/-! ## OP_EP_RETIRE (R105) -/

/-- Frames waiting on a radio channel for a meter whose record leaves service: the link is released, and the waiting
descriptors complete under R96 (11 R368). -/
def downlinkEnds (s : State) (eid : Nat) : State :=
  let ch := chanOf s eid
  if !chRadio s ch then s
  else ((chGet s ch).tx.filter fun x => x.eid == eid).foldl (fun s x =>
    let s := txMap s ch fun g => if g.id = x.id then none else some g
    match x.txn.bind (txnOf s) with
    | none => s
    | some t =>
      match t.uid.bind (flightOf s) with
      | none => txnClose s t.id
      | some f =>
        if f.ended then txnClose s t.id
        else if namesEid ((opInfo (dOpcode f.raw)).getD ⟨0, 0, none, .no, false, .no, 0, []⟩) f.raw then
          bad (objScrub (txnClose s t.id) f) f rsParam 4
        else txnLost s t stBad 0) s

/-- Step 2: RETIRING, out of the address index, the link released. -/
def retireBegin (s : State) (eid : Nat) : State :=
  let r := recView s eid
  if r.state = 3 then s
  else
    let s := recChange s eid { r with state := 3 }
    let s := { s with recs := { s.recs with retire := tset 0 s.recs.retire eid 2 } }
    downlinkEnds (linkRelease s eid) eid

/-- Whether a descriptor other than a retire that names an EID is in flight. -/
def eidBusy (s : State) (eid : Nat) : Bool :=
  s.host.flights.any fun g => !g.discard && dOpcode g.raw != 0x12 &&
    ((dEid g.raw == eid && (match opInfo (dOpcode g.raw) with | some o => namesEid o g.raw | none => false)) ||
     (match g.stage with | .list todo _ _ => todo.any fun x => x % 2 ^ 32 == eid | _ => false))

/-- Whether a reading of an EID has not yet been written to its reading ring. -/
def eidReadings (s : State) (eid : Nat) : Bool :=
  ((s.rp.parsed ++ s.rp.cipherQ ++ s.rp.tc0Q ++ s.rp.validQ ++ s.rp.postQ).any fun i => i.eid == some eid) ||
  (s.sealU.queue.any fun i => i.rd.eid.toNat == eid) || (s.host.deliv.any fun d => d.rd.eid.toNat == eid)

/-- Steps of a retire done for an EID. -/
def retireAt (s : State) (eid : Nat) : Nat := tget 0 s.recs.retire eid
def retirePut (s : State) (eid n : Nat) : State := { s with recs := { s.recs with retire := tset 0 s.recs.retire eid n } }

/-- The record the newest item of the seal stage holds was caused by a descriptor (02 R86). -/
def causedBy (s : State) (uid : Nat) : State :=
  match s.sealU.queue.reverse with
  | [] => s
  | x :: t => { s with sealU := { s.sealU with queue := (t.reverse ++ [{ x with uid := some uid }]) } }

/-- Step 4, once: the final close. -/
def retireClose (s : State) (f : Flight) (eid : Nat) : State :=
  if 4 ≤ retireAt s eid then s
  else
    let s := (closePeriod s eid (recView s eid) true (nowSec s)).1
    setProgress (retirePut (causedBy s f.uid) eid 4) f 4 0

/-- Step 5, once: both blobs marked empty and their slots retired, as OP_KEY_ERASE does. -/
def retireErase (s : State) (eid : Nat) : State :=
  if 5 ≤ retireAt s eid then s
  else
    let r := recView s eid
    let s := recChange s eid (kcSet (kcSet r 28 1 0) 29 1 0)
    retirePut (slotRetire s fun x => x.handle == epHandle eid) eid 5

/-- Step 6: the record zeroed and FREE, with nothing of it left in the pinned-state store, among relay
timers or in the analysis. -/
def retireFree (s : State) (f : Flight) (eid : Nat) : State :=
  let w := (recGet s eid).writeSeq + 1
  let s := recPut (appendState s w (.epRec eid EpRec.free)) eid EpRec.free
  let s := relayPut (pinPut (retirePut s eid 0) eid PinEnt.none) eid RelayT.none
  let s := { s with met := { s.met with meters := tset MInf.none s.met.meters eid MInf.none } }
  settle s f stOk 6 0

/-- Steps 3 to 6, from the first not yet done. -/
def retireGo (s : State) (f : Flight) : State :=
  let eid := dEid f.raw
  if (recGet s eid).state = 0 then complete s f stOk 6 0 1
  else if retireAt s eid < 4 && (eidBusy s eid || eidReadings s eid) then s
  else
    let s := retireErase (retireClose s f eid) eid
    if s.keys.slots.any fun p => p.2.handle == epHandle eid && p.2.st != 0 then
      match f.stage with
      | .wait _ 5 _ => s
      | _ => setProgress s { f with stage := .wait s.tcxo 5 0 } 4 0
    else retireFree s f eid

/-- OP_EP_RETIRE: steps 1 and 2, then as far as it goes. -/
def epRetire (s : State) (uid : Nat) : State :=
  withDesc s uid 0x12 fun f =>
    let eid := dEid f.raw
    match f.stage with
    | .wait _ _ _ => retireGo s f
    | .drain _ _ _ => s
    | _ =>
      if (recGet s eid).state = 0 then badParam s f 4
      else
        let f := { f with stage := .wait s.tcxo 3 0 }
        retireGo (setProgress (retireBegin s eid) f 2 0) f

/-- RETIRE_DRAIN_END: a waiting retire goes on. -/
def retireDrainEnd (s : State) (uid : Nat) : State :=
  withDesc s uid 0x12 fun f => match f.stage with | .wait _ _ _ => retireGo s f | _ => s

/-- Retires that wait in step 5 and now can go on. -/
def retireResume (s : State) : State :=
  (s.host.flights.filter fun f => dOpcode f.raw == 0x12 && !f.ended &&
    (match f.stage with | .wait _ 5 _ => true | _ => false)).foldl retireGo s

/-! ## Migration (R113) -/

/-- Records still in an older format. -/
def migrateLeft (s : State) : List Nat :=
  (s.recs.tab.filter fun p => p.2.state != 0 && decide (p.2.version.toNat < s.recs.fmt.toNat)).map (·.1)

/-- BACKGROUND_MIGRATION: the next record takes the running image's version. -/
def backgroundMigration (s : State) : State :=
  let s := match migrateLeft s with
    | [] => s
    | e :: _ => recChange s e (recView s e)
  { s with recs := { s.recs with migrate := !(migrateLeft s).isEmpty } }

end Sys2Proof.Machine
end

