-- ==== Sys2Proof/Machine/Metrology.lean ====
section
/-!
DEFINITION. Check metering and the Crevasse detector (09): the seconds of the front end, the seal and its reseal, where
meters hang, the balance of each feeder, and the four reports.
-/
namespace Sys2Proof.Machine
open Sys2Proof

def metSet (s : State) (g : MetSt → MetSt) : State := { s with met := g s.met }

/-! ## The seal (R288 to R291) -/

/-- SEAL_STATE: 0 UNLOCKED, 1 SEALED, 2 BROKEN. -/
def sealState (s : State) : Nat :=
  if !s.met.calLock then 0 else if s.met.latched || s.boot.dLm != s.met.sealedDig then 2 else 1

/-- The UNSEALED flag of every output. -/
def unsealed (s : State) : Bool := sealState s != 1

def loopLog (s : State) (k : Nat) : State := logEvent 0x0601 (Config.loopCause k % 256) s

/-- Latch a loop opening, once, with its cause. -/
def loopLatch (s : State) (k : Nat) : State :=
  if s.met.latched then s else loopLog (metSet s fun m => { m with latched := true }) k

/-- SEAL_LOOP_CHECK: every millisecond while powered; the third mismatch in a row latches. The bit is the DRBG's: none is
driven while it refuses requests (05 R165). -/
def sealLoopCheck (s : State) (matched : Bool) : State :=
  if s.pins.resetLow || !drbgOpen s then s
  else
    let s := drbgUse s
    if matched then metSet s fun m => { m with mis := 0, loopSince := some (m.loopSince.getD s.tcxo) }
    else
      let s := cnt (metSet s fun m => { m with mis := m.mis + 1, loopSince := none }) 424
      if 3 ≤ s.met.mis then loopLatch s 0 else s

/-- SEAL_LOOP_PULSE: the backup domain's pulse while the device is unpowered; its event is logged at the next start. -/
def sealLoopPulse (s : State) (ok : Bool) : State :=
  if !s.pins.resetLow || ok || s.met.latched then s
  else metSet s fun m => { m with latched := true, latchDue := m.latchDue ++ [1] }

/-! ## Calibration (R286, R287, R290) -/

/-- The copy in force is B. -/
def calIsB (m : MetSt) : Bool := m.calB.ok && (!m.calA.ok || decide (m.calA.seq.toNat < m.calB.seq.toNat))

/-- Write a block to the older copy with the next sequence number. -/
def calWrite (m : MetSt) (b : List Byte) : MetSt :=
  let cur := if calIsB m then m.calB else m.calA
  let c : CalCopy := ⟨true, cur.seq + 1, b⟩
  if calIsB m then { m with calA := c } else { m with calB := c }

def rsFlags (b : List Byte) : Nat := tb b 16

/-- MAGIC, length, reserved bytes and FLAGS of a reseal block. -/
def resealForm (f : Flight) (b : List Byte) : Bool :=
  dBufLen f.raw == 1248 && b.length == 1248 &&
  (b.take 8).map (·.toNat) == [0x43, 0x4C, 0x47, 0x52, 0x53, 0x45, 0x41, 0x4C] &&
  decide (rsFlags b < 4) && ((b.drop 17).take 15).all (· == 0) &&
  (rsFlags b % 2 == 1 || ((b.drop 128).take 1024).all (· == 0))

/-- The first failing check of R290. -/
def resealBad (s : State) (f : Flight) (b : List Byte) (authOk sigOk : Bool) : Option Nat :=
  if !resealForm f b then some 1
  else if tb4 b 12 ≠ s.met.nonce.toNat then some 2
  else if tb4 b 8 ≤ s.met.resealSeq.toNat then some 3
  else if !authOk then some 4
  else if !sigOk then some 5
  else if !(match s.met.loopSince with | some t => msPassed s t 10000 | none => false) then some 6
  else if rsFlags b % 2 = 1 ∧ sealState s = 1 then some 7
  else none

/-- A fresh nonce from the DRBG. -/
def metNonce (s : State) : State :=
  let (n, s) := takeFree (drbgUse s)
  metSet s fun m => { m with nonce := BitVec.ofNat 32 (Config.drbg n).toNat }

/-- OP_CAL_RESEAL; it waits for the DRBG that makes its fresh nonce (05 R165). -/
def calReseal (s : State) (uid : Nat) (b : List Byte) (authOk sigOk : Bool) : State :=
  withDesc s uid 0x5A fun f =>
    match resealBad s f b authOk sigOk with
    | some c => reject s f stBad (badResult rsParam 8 c)
    | none =>
      if !drbgOpen s then s
      else
      let s := metSet s fun m =>
        let m := if rsFlags b % 2 = 1 then calWrite m ((b.drop 128).take 1024) else m
        { m with resealSeq := BitVec.ofNat 32 (tb4 b 8), sealedDig := s.boot.dLm, latched := false, mis := 0,
                 calLock := m.calLock || decide (2 ≤ rsFlags b) }
      let s := metNonce (setProgress s f 3 0)
      completeOk s { f with step := 3 } 4 (result4 (sealState s) 0 0 0)

/-! ## Intervals (R285, R292) -/

/-- Seconds of an interval code. -/
def ivLen (code : Nat) : Nat := lget 300 [300, 600, 900, 1800, 3600] code
def infLen (s : State) : Nat := ivLen s.met.inf
def balLen (s : State) : Nat := ivLen s.met.bal

/-- Local standard seconds of the alignment calendar; offset zero while it is not loaded. -/
def alignStd (s : State) (sec : Nat) : Nat :=
  if calLoaded s s.met.cal then stdOf s (calGet s s.met.cal).bytes sec else sec
def alignSec (s : State) (std : Nat) : Nat :=
  if calLoaded s s.met.cal then secOfStd s (calGet s s.met.cal).bytes std else std

def infIdx (s : State) (sec : Nat) : Nat := alignStd s sec / infLen s
def balIdx (s : State) (sec : Nat) : Nat := alignStd s sec / balLen s
/-- DT second at which a balance interval begins. -/
def balStart (s : State) (k : Nat) : Nat := alignSec s (k * balLen s)

def feOn (s : State) : Bool := fnOn s 0x0600
/-- The detector's evaluation: function 0x0700, run by the legal-metrology firmware while the cores run. -/
def crvOn (s : State) : Bool := fnOn s 0x0700 && !coresPaused s

/-- Close the inference interval in progress: its means, NO_REF unless every second of it was measured. -/
def ivClose (s : State) (next : Nat) : State :=
  let m := s.met
  let mean : Mean := { k := m.ivK, volts := (m.ivRms.take 3).map (· / max 1 m.ivCnt),
                       amps := (m.ivRms.drop 4).map (· / max 1 m.ivCnt), noRef := decide (m.ivCnt < infLen s) }
  metSet s fun m => { m with means := (mean :: m.means).take 16384, ivK := next, ivCnt := 0, ivRms := [] }

/-- At a boundary the second that has just ended is still to be taken. -/
def secondDue (s : State) : Bool :=
  feOn s && decide (infIdx s (nowSec s - 1) < infIdx s (nowSec s)) && decide (s.met.secStart + 1 < nowSec s)

/-- INFERENCE_INTERVAL_END. -/
def inferenceIntervalEnd (s : State) : State :=
  let k := infIdx s (nowSec s)
  if k ≤ s.met.ivK ∨ secondDue s = true then s else ivClose s k

/-- mWh of an accumulator: truncated towards zero. -/
def mwhOf (e : BitVec 64) : Int := Int.tdiv e.toInt 3600000

def readNow (m : MetSt) (k : Nat) : Snap := { k := k, mwh := m.energy.map mwhOf, q := m.q.map (·.toNat) }

/-- Disable a function for a fault with its cause (01 R43, 17 code 0x0103). -/
def faultCause (s : State) (id cause : Nat) : State :=
  let s := if fnOn s id then fnPut s id { fnGet s id with st := .stopping } else s
  logEvent 0x0103 (id + 65536 * cause) s

/-- Add a second's sums to the accumulators. -/
def metAdd (m : MetSt) (sec : Nat) (x : MetSecond) : MetSt :=
  { m with
    secStart := sec, last := x
    energy := (List.range 12).map fun i => lget 0 m.energy i + BitVec.ofInt 64 (lget 0 x.ener i)
    q := (List.range 12).map fun i => lget 0 m.q i + BitVec.ofNat 64 (lget 0 x.qsum i)
    ivCnt := m.ivCnt + 1
    ivRms := (List.range 16).map fun i => lget 0 m.ivRms i + lget 0 x.rms i }

/-- METROLOGY_SECOND: the DT second that has just ended. An input that fails a check disables the front end (R531). -/
def metrologySecond (s : State) (x : MetSecond) : State :=
  if !feOn s then s
  else match x.bad with
  | some i => faultCause s 0x0600 i
  | none =>
    let sec := nowSec s - 1
    let s := if s.met.ivK < infIdx s sec then ivClose s (infIdx s sec) else s
    let k := balIdx s sec
    let s := if k = s.met.balK then s
             else metSet s fun m => { m with balK := k, snaps := (readNow m k :: m.snaps).take 512 }
    cnt (metSet s fun m => metAdd m sec x) 423

/-! ## The feeder map (R293) -/

def fdrGet (s : State) (n : Nat) : Fdr := tget Fdr.idle s.met.feeders n
def fdrPut (s : State) (n : Nat) (f : Fdr) : State := metSet s fun m => { m with feeders := tset Fdr.idle m.feeders n f }

/-- A feeder at reset: EN 0. -/
def FeederMap.off : FeederMap := ⟨false, 0, 1, 0, 1, 0, 0, 500⟩

/-- The parameters a balance interval is judged by. -/
def mapAt (f : Fdr) (k : Nat) : FeederMap :=
  match f.maps.find? fun p => decide (p.1 ≤ k) with
  | some p => p.2
  | none => FeederMap.off

/-- The parameters last set. -/
def mapLast (f : Fdr) : FeederMap := match f.maps with | p :: _ => p.2 | [] => FeederMap.off

/-- Whether a channel group lies on an enabled feeder; head-end groups are ignored (19, mode combinations). -/
def onFeeder (s : State) (f : Fdr) (g : Nat) : Bool :=
  (mapLast f).en && (mapLast f).groupMask.toNat / 2 ^ g % 2 == 1 && !groupHead s g

def anyFeeder (s : State) (g : Nat) : Bool := (List.range 4).any fun n => onFeeder s (fdrGet s n) g

def fmMap (raw : BitVec 512) : FeederMap :=
  { en := dByte raw 25 1 % 2 == 1, groupMask := BitVec.ofNat 4 (dByte raw 26 1), persist := dByte raw 27 1,
    rMohm := dByte raw 28 2, relPermille := dByte raw 30 2, fixedW := dByte raw 32 4, absMinWh := dByte raw 36 4,
    coverPermille := dByte raw 40 2 }

def fmBad (raw : BitVec 512) : Option Nat :=
  if 3 < dByte raw 24 1 then some 24
  else if dByte raw 27 1 < 1 ∨ 96 < dByte raw 27 1 then some 27
  else if dByte raw 30 2 < 1 ∨ 1000 < dByte raw 30 2 then some 30
  else if dByte raw 40 2 < 500 ∨ 1000 < dByte raw 40 2 then some 40
  else none

/-- A feeder with new parameters from an interval on; one newly enabled starts NORMAL there. -/
def fdrSet (f : Fdr) (m : FeederMap) (k : Nat) : Fdr :=
  let g := { f with maps := ((k, m) :: f.maps.filter fun p => decide (p.1 < k)).take 16 }
  if m.en && !(mapLast f).en then { g with st := 0, run := 0, clear := 0, neg := false, next := max f.next k } else g

/-- RESET_INFERENCE: the sums of every meter in the feeder's groups clear, until the next window. -/
def infClear (s : State) (mask : Nat) : State :=
  let g : Nat × MInf → Nat × MInf := fun p =>
    if mask / 2 ^ (epGroup (recGet s p.1)) % 2 = 1 then (p.1, { p.2 with volts := [], phase := 0, hold := true }) else p
  metSet s fun m => { m with meters := m.meters.map g }

/-- OP_FEEDER_MAP: the parameters apply from the next balance interval to start. -/
def feederMap (s : State) (uid : Nat) : State :=
  withDesc s uid 0x59 fun f =>
    match fmBad f.raw with
    | some o => badParam s f o
    | none =>
      let n := dByte f.raw 24 1
      let m := fmMap f.raw
      let s := appendState s 0 (.feeder n m)
      let s := fdrPut s n (fdrSet (fdrGet s n) m (balIdx s (nowSec s) + 1))
      let s := if dByte f.raw 25 1 / 2 % 2 = 1 then infClear s m.groupMask.toNat else s
      completeOk s f 3 0

/-! ## Correlation (R294) -/

/-- The greatest r below 2^b whose square is at most q. -/
def isqrt (q : Nat) : Nat → Nat → Nat
  | 0, r => r
  | b + 1, r => if (r + 2 ^ b) * (r + 2 ^ b) ≤ q then isqrt q b (r + 2 ^ b) else isqrt q b r

/-- r_q of pairs: the integer nearest to 32,768 × Sxy / √(Sxx × Syy), ties away from zero, clamped. -/
def corr (l : List (Int × Int)) : Int :=
  let n : Int := l.length
  let sx := (l.map (·.1)).sum
  let sy := (l.map (·.2)).sum
  let sxy := n * (l.map fun p => p.1 * p.2).sum - sx * sy
  let sxx := n * (l.map fun p => p.1 * p.1).sum - sx * sx
  let syy := n * (l.map fun p => p.2 * p.2).sum - sy * sy
  if sxx = 0 ∨ syy = 0 then 0
  else
    let a := 32768 * sxy.natAbs
    let r := min 32767 ((isqrt (4 * a * a / (sxx * syy).toNat) 18 0 + 1) / 2)
    if sxy < 0 then -(r : Int) else r

/-! ## Locating meters (R295 to R297) -/

def mGet (s : State) (eid : Nat) : MInf := tget MInf.none s.met.meters eid
def mPut (s : State) (eid : Nat) (m : MInf) : State := metSet s fun t => { t with meters := tset MInf.none t.meters eid m }

/-- The reference of an interval, unless it is NO_REF. -/
def refAt (m : MetSt) (k : Nat) : Option Mean := m.means.find? fun x => x.k == k && !x.noRef

/-- A meter's voltage of an interval. -/
def voltAt (m : MInf) (k : Nat) : Option Int := match tget 0 m.volts k with | 0 => none | v + 1 => some v

/-- The pairs of a window: first differences of a quantity of the meter's voltage and the reference, and of one of the
reference alone. -/
def pairsIn (t : MetSt) (m : MInf) (k0 w : Nat) (x : Int → Mean → Int) (y : Mean → Int) : List (Int × Int) :=
  (List.range w).filterMap fun i =>
    match voltAt m (k0 + i), voltAt m (k0 + i - 1), refAt t (k0 + i), refAt t (k0 + i - 1) with
    | some a, some b, some ra, some rb => some (x a ra - x b rb, y ra - y rb)
    | _, _, _, _ => none

/-- The largest of some correlations, with its place, and the next. -/
def best (l : List (Nat × Int)) : Option (Nat × Int × Int) :=
  match l with
  | [] => none
  | p :: t =>
    let b := t.foldl (fun a c => if a.2 < c.2 then c else a) p
    let rest := l.filter fun c => c.1 != b.1
    some (b.1, b.2, match rest with | [] => 0 | q :: u => u.foldl (fun a c => max a c.2) q.2)

/-- The phase stage: pairs, the three correlations. -/
def phaseStage (t : MetSt) (m : MInf) (w : Nat) : Nat × Option (Nat × Int × Int) :=
  let ps := (List.range 3).map fun p => pairsIn t m t.winK w (fun v _ => v) fun r => ((lget 0 r.volts p : Nat) : Int)
  ((lget [] ps 0).length, best ((List.range 3).map fun p => (p, corr (lget [] ps p))))

/-- The feeder stage on a phase: voltage drop against each candidate's current. -/
def feederStage (s : State) (m : MInf) (w p g : Nat) : Nat × Option (Nat × Int × Int) :=
  let cand := (List.range 4).filter fun f => onFeeder s (fdrGet s f) g
  let ps := cand.map fun f => (f, pairsIn s.met m s.met.winK w (fun v r => ((lget 0 r.volts p : Nat) : Int) - v)
                                    fun r => ((lget 0 r.amps (3 * f + p) : Nat) : Int))
  (match ps with | [] => 0 | x :: _ => x.2.length, best (ps.map fun x => (x.1, corr x.2)))

/-- Whether a stage infers (R295). -/
def infers (s : State) (off n : Nat) (b s2 : Int) : Bool :=
  decide (regFld s 0xB020 16 16 ≤ n) && decide ((regFld s off 0 16 : Int) ≤ b) && decide ((regFld s off 16 16 : Int) ≤ b - s2)

/-- GRID_LOC of an inferred location. -/
def gridOf (feeder phase conf : Nat) : Word := BitVec.ofNat 32 (feeder + 4 * phase + 256 * conf)

/-- One meter at the end of a window: the phase stage, the feeder stage on the phase of the window before, the location
where it is inferred, and the result. -/
def inferOne (s : State) (eid : Nat) : State :=
  let m := mGet s eid
  let r := recGet s eid
  let g := epGroup r
  if !anyFeeder s g || !(r.state == 1 || r.state == 2) then s
  else if m.hold then mPut s eid { m with hold := false }
  else
    let w := regFld s 0xB020 0 16
    let (n, pst) := phaseStage s.met m w
    let (pi, pb, p2) := pst.getD (0, 0, 0)
    let okP := infers s 0xB018 n pb p2
    let (fn, fst_) := if m.phase = 0 then (0, none) else feederStage s m w (m.phase - 1) g
    let (fi, fb, f2) := fst_.getD (0, 0, 0)
    let okF := fst_.isSome && infers s 0xB01C fn fb f2
    let conf := min 255 ((fb - f2) / 128).toNat
    let host := wbit r.gridLoc 4
    let new := keepRes 0xFF1F r.gridLoc (gridOf fi m.phase conf)
    let same := fld r.gridLoc 0 2 == fi && fld r.gridLoc 2 2 == m.phase
    let e : InfEnt := { feeder := fi, phase := if okP then pi + 1 else 0, applied := okF && !host, hostSet := host,
                        disagree := okF && host && !same, unsealed := unsealed s, conf := if okF then conf else 0,
                        n := if okP then n else 0xFFFF, pb := pb, ps := p2, fb := fb, fs := f2 }
    let s := mPut s eid { m with phase := if okP then pi + 1 else 0, res := some e }
    if okF && !host && r.gridLoc != new then recChange s eid { recView s eid with gridLoc := new } else s

/-- INFERENCE_WINDOW_END: every interval of the window has ended. -/
def inferenceWindowEnd (s : State) : State :=
  let w := regFld s 0xB020 0 16
  if !crvOn s || s.met.ivK < s.met.winK + w then s
  else
    let s := (s.met.meters.map (·.1)).foldl inferOne s
    metSet s fun t => { t with winK := t.winK + w,
                               meters := t.meters.map fun p =>
                                 (p.1, { p.2 with volts := p.2.volts.filter fun v => decide (t.winK + w ≤ v.1 + 1) }) }

/-! ## Balance (R298 to R300) -/

/-- Net energy of registers 0 and 1: import less export. -/
def netOf (r : EpRec) : Int := ((tget 0 r.energy 0).toNat : Int) - (tget 0 r.energy 1).toNat

/-- The balance intervals a span touches, cut at their boundaries: index and segment. -/
def balSegs (s : State) (lo hi : Nat) : List (Nat × (Nat × Nat)) :=
  let a := balIdx s lo
  (List.range (balIdx s (hi - 1) + 1 - a)).map fun i => (a + i, (max lo (balStart s (a + i)), min hi (balStart s (a + i + 1))))

/-- The feeder a record is located on. -/
def locatedOn (r : EpRec) (n : Nat) : Bool := fld r.gridLoc 2 2 != 0 && fld r.gridLoc 0 2 == n

/-- Give a segment's energy to its interval; late where the meter's feeder has evaluated it (R299). -/
def shareAdd (s : State) (eid k : Nat) (e : Int) : State :=
  let m := mGet s eid
  let s := mPut s eid { m with share := tset 0 m.share k (tget 0 m.share k + e) }
  (List.range 4).foldl (fun s n =>
    let f := fdrGet s n
    if locatedOn (recGet s eid) n && decide (k < f.next) then fdrPut s n { f with late := f.late + e } else s) s

/-- Apportion a reading's net energy from the meter's balance position up to its meter time, by the arithmetic of R256
on the magnitude. -/
def balancePost (s : State) (eid : Nat) (sec : Nat) (de : Int) : State :=
  let m := mGet s eid
  if !m.begun then mPut s eid { m with begun := true, first := sec, pos := sec }
  else if sec ≤ m.pos then (if de = 0 then s else shareAdd s eid (balIdx s (m.pos - 1)) de)
  else
    let segs := balSegs s m.pos sec
    let es := shares de.natAbs (segs.map (·.2)) (sec - m.pos)
    let s := mPut s eid { m with pos := sec }
    (segs.zip es).foldl (fun s p => if p.2 = 0 then s else shareAdd s eid p.1.1 (if de < 0 then -(p.2 : Int) else p.2)) s

/-- What a posting gives the analysis: the meter's voltage of its interval, and its energy. `old`: the record before. -/
def crevassePosted (s : State) (eid : Nat) (old : EpRec) (carries : Bool) (volt : Option Nat) : State :=
  let r := recGet s eid
  let sec := r.lastMeter.toNat / 2 ^ 24
  let s := match volt with
    | some v =>
      if anyFeeder s (epGroup r) then
        let m := mGet s eid
        mPut s eid { m with volts := tset 0 m.volts (infIdx s sec) (v + 1) }
      else s
    | none => s
  if carries then balancePost s eid sec (netOf r - netOf old) else s

/-- The accumulators as interval `k` began: nothing was added between the boundary and the next second measured. -/
def snapAt (m : MetSt) (k : Nat) : Snap :=
  match m.snaps.reverse.find? fun x => decide (k ≤ x.k) with
  | some x => x
  | none => readNow m k

def sum3 (l : List Int) (f : Nat) : Int := lget 0 l (3 * f) + lget 0 l (3 * f + 1) + lget 0 l (3 * f + 2)
def sumQ (l : List Nat) (f : Nat) : Nat := lget 0 l (3 * f) + lget 0 l (3 * f + 1) + lget 0 l (3 * f + 2)

/-- Meters located on a feeder. -/
def mappedOn (s : State) (n : Nat) : List Nat :=
  (s.recs.tab.filter fun p => p.2.state != 0 && locatedOn p.2 n).map (·.1)

/-- A meter's apportioned span covers the whole of an interval. -/
def covers (s : State) (k eid : Nat) : Bool :=
  let m := mGet s eid
  m.begun && decide (m.first ≤ balStart s k) && decide (balStart s (k + 1) ≤ m.pos)

/-- Whether a reference interval within a balance interval is NO_REF. -/
def balNoRef (s : State) (k : Nat) : Bool :=
  let per := balLen s / infLen s
  !((List.range per).all fun i => (refAt s.met (k * per + i)).isSome)

/-- The state a scored interval leaves a feeder in (R300). -/
def fdrMove (f : Fdr) (ex : Bool) (persist : Nat) : Fdr :=
  if f.st = 2 then
    if ex then { f with run := f.run + 1, clear := 0 }
    else if persist ≤ f.clear + 1 then { f with st := 0, run := 0, clear := 0 }
    else { f with run := 0, clear := f.clear + 1 }
  else if ex then { f with run := f.run + 1, st := if persist ≤ f.run + 1 then 2 else 1, clear := 0 }
  else { f with run := 0, st := 0 }

def clampI (lo hi x : Int) : Int := max lo (min hi x)

/-- The 64 bytes of a balance record. -/
def balBytes (r : BalRec) : List Byte :=
  leBytes 4 r.bseq.toNat ++ leBytes 1 r.feeder ++ leBytes 1 r.st ++ leBytes 2 r.flags ++ leBytes 8 (r.start * 2 ^ 24) ++
  leBytes 8 (signedBits 64 r.eIn) ++ leBytes 8 (signedBits 64 r.eMet) ++ leBytes 4 r.lTech ++
  leBytes 4 (signedBits 32 r.late) ++ leBytes 8 (signedBits 64 r.d) ++ leBytes 2 (signedBits 16 r.dPm) ++
  leBytes 2 r.cover ++ leBytes 4 r.mapped ++ leBytes 4 r.complete ++ leBytes 2 r.run ++ leBytes 2 0

/-- Number a balance record, keep it among the newest 16,384, and append it to the interval store (R302). -/
def balAppend (s : State) (r : BalRec) : State :=
  let r := { r with bseq := s.met.nextBseq }
  let s := metSet s fun m => { m with nextBseq := m.nextBseq + 1, recs := (r :: m.recs).take 16384 }
  storeQueue s { ssn := 0, typ := 4, quar := false, eid := 0xFFFFFFFF, dt := BitVec.ofNat 64 (r.start * 2 ^ 24), rid := 0,
                 post := none, pw := 0, rd := none, body := balBytes r }

/-- The quantities of an interval of a feeder (R298, R299), before the feeder moves; and the feeder with its remainder
carried. -/
def balForm (s : State) (n k : Nat) (f : Fdr) (m : FeederMap) : BalRec × Fdr :=
  let a := snapAt s.met k
  let b := snapAt s.met (k + 1)
  let tot := sum3 b.mwh n - sum3 a.mwh n + f.carry
  let eIn := Int.tdiv tot 1000
  let mapped := mappedOn s n
  let done := mapped.filter (covers s k)
  let eMet := (done.map fun e => tget 0 (mGet s e).share k).sum
  let lTech := m.rMohm * (sumQ b.q n - sumQ a.q n) / 3600000000000 + m.fixedW * balLen s / 3600
  let d := eIn - eMet - lTech
  let inc := decide (done.length * 1000 < m.coverPermille * mapped.length)
  let out := inOutage s (balStart s k) (balStart s (k + 1))
  let nr := balNoRef s k
  let big := fun x : Int => decide ((m.relPermille : Int) * eIn < x * 1000) && decide ((m.absMinWh : Int) < x)
  let scored := !inc && !out && !nr
  let ex := scored && big d
  let ng := scored && big (-d)
  ({ bseq := 0, feeder := n, st := f.st,
     flags := b2n inc + 2 * b2n out + 4 * b2n nr + 8 * b2n (unsealed s) + 16 * b2n ng + 32 * b2n ex +
              64 * b2n (f.maps.any fun p => p.1 == k),
     start := balStart s k, eIn := eIn, eMet := eMet, lTech := lTech, late := f.late, d := d,
     dPm := if eIn ≤ 0 then 0 else clampI (-32767) 32767 (Int.tdiv (d * 1000) eIn),
     cover := if mapped.isEmpty then 1000 else done.length * 1000 / mapped.length, mapped := mapped.length,
     complete := done.length, run := f.run },
   { f with carry := Int.tmod tot 1000, late := 0, next := k + 1 })

/-- Score an interval: the feeder moves, with a Firn log event on entering and leaving ALARM. -/
def balScore (s : State) (n : Nat) (r : BalRec) (f : Fdr) (m : FeederMap) : State :=
  let scored := r.flags % 8 == 0
  let ex := r.flags / 32 % 2 == 1
  let g := if scored then { fdrMove f ex m.persist with neg := r.flags / 16 % 2 == 1 } else f
  let s := balAppend (fdrPut s n g) { r with st := g.st, run := g.run }
  if (f.st == 2) == (g.st == 2) then s
  else logEvent 0x0602 (n + 256 * b2n (g.st != 2) + 2 ^ 32 * signedBits 64 r.d) s

/-- BALANCE_EVALUATION: the next interval of a feeder, when every mapped meter is complete or BAL_GRACE has passed. Its
last reference interval has ended with it. Its record waits for a place before the store (01 R34). -/
def balanceEvaluation (s : State) (n : Nat) : State :=
  let s := inferenceIntervalEnd s
  let f := fdrGet s n
  let k := f.next
  let m := mapAt f k
  let fin := balStart s (k + 1)
  if 4 ≤ n ∨ !crvOn s ∨ f.maps.isEmpty ∨ nowSec s < fin ∨ secondDue s = true then s
  else if !m.en then fdrPut s n { f with next := k + 1, st := 3, run := 0, clear := 0, neg := false }
  else if !storeRoom s || (!((mappedOn s n).all (covers s k)) && decide (nowSec s < fin + 600 * regFld s 0xB000 8 8)) then s
  else
    let f := if f.st = 3 then { f with st := 0 } else f
    let (r, g) := balForm s n k f m
    balScore s n r g m

/-- At rejoin, one NO_REF record for each interval a feeder missed, up to 16,384 (09, Harness, store and roles). -/
def balMissed (n : Nat) : Nat → State → State
  | 0, s => s
  | fuel + 1, s =>
    let f := fdrGet s n
    if f.maps.isEmpty || decide (nowSec s < balStart s (f.next + 1)) then s
    else if !(mapAt f f.next).en then balMissed n fuel (fdrPut s n { f with next := f.next + 1 })
    else
      let r : BalRec := { bseq := 0, feeder := n, st := f.st, flags := 4 + 8 * b2n (unsealed s), start := balStart s f.next,
                          eIn := 0, eMet := 0, lTech := 0, late := 0, d := 0, dPm := 0, cover := 0, mapped := 0,
                          complete := 0, run := f.run }
      balMissed n fuel (balAppend (fdrPut s n { f with next := f.next + 1 }) r)

def balRejoin (s : State) : State := (List.range 4).foldl (fun s n => balMissed n 16384 s) s

/-! ## OP_CREVASSE_REPORT (R301 to R305) -/

/-- The oldest BSEQ held. -/
def balOldest (s : State) : Word := match s.met.recs.reverse with | r :: _ => r.bseq | [] => s.met.nextBseq

/-- Complete a type 0 read with what there is. -/
def balGetDone (s : State) (f : Flight) : State :=
  let from_ := dByte f.raw 28 4
  let old := (balOldest s).toNat
  let older := decide (from_ < old)
  let out := (s.met.recs.reverse.filter fun r => decide (from_ ≤ r.bseq.toNat)).take (dBufLen f.raw / 64)
  let next := match out.getLast? with | some r => r.bseq.toNat + 1 | none => max from_ (if older then old else 0)
  completeOk (writeBuf s f (out.map balBytes).flatten) f 0 (result4 out.length next old (b2n older))

/-- Type 0: records from a BSEQ on, or a wait of up to WAIT_MS for one. -/
def crvBalance (s : State) (uid : Nat) : State :=
  withSub s uid 0x58 24 0 [0, 1, 2, 3] fun f =>
    if dByte f.raw 24 1 ≠ 0 then badParam s f 24
    else ifUnused s f [(25, 1), (34, 2)] <|
      let wait := dByte f.raw 32 2
      if 10000 < wait then badParam s f 32
      else if wait == 0 || (s.met.recs.any fun r => decide (dByte f.raw 28 4 ≤ r.bseq.toNat)) then balGetDone s f
      else match f.stage with
        | .wait _ _ _ => s
        | _ => flightPut s { f with stage := .wait s.tcxo wait 0 }

/-- CREVASSE_REPORT_WAIT_EXPIRY. -/
def crvWaitExpiry (s : State) (uid : Nat) : State :=
  withDesc s uid 0x58 fun f =>
    match f.stage with
    | .wait since ms _ => if msPassed s since ms then balGetDone s f else s
    | _ => s

def infBytes (eid : Nat) (e : InfEnt) : List Byte :=
  leBytes 4 eid ++
  leBytes 1 (e.feeder + 4 * e.phase + 16 * b2n e.applied + 32 * b2n e.hostSet + 64 * b2n e.disagree + 128 * b2n e.unsealed) ++
  leBytes 1 e.conf ++ leBytes 2 e.n ++ leBytes 2 (signedBits 16 e.pb) ++ leBytes 2 (signedBits 16 e.ps) ++
  leBytes 2 (signedBits 16 e.fb) ++ leBytes 2 (signedBits 16 e.fs)

/-- Type 1: inference entries of ACTIVE and SUSPENDED records in record-index order. -/
def crvInference (s : State) (uid : Nat) : State :=
  withSub s uid 0x58 24 1 [0, 1, 2, 3] fun f =>
    if dByte f.raw 24 1 ≠ 1 then badParam s f 24
    else ifUnused s f [(25, 1), (32, 4)] <|
      let from_ := dByte f.raw 28 4
      let all := s.met.meters.filterMap fun p =>
        let r := recGet s p.1
        if (r.state == 1 || r.state == 2) && eidHome p.1 == s.harn.pos && decide (from_ ≤ eidIndex p.1) then
          p.2.res.map fun e => (p.1, e)
        else none
      let out := all.take (dBufLen f.raw / 16)
      let next := match out.getLast? with | some p => eidIndex p.1 + 1 | none => from_
      completeOk (writeBuf s f (out.map fun p => infBytes p.1 p.2).flatten) f 0 (result4 out.length next 0 0)

/-- A score entry's figures: EID, SCORE, FLAGS, n, r_q. -/
structure Score where
  eid   : Nat
  score : Nat
  flags : Nat
  n     : Nat
  r     : Int
  deriving DecidableEq, Repr

/-- Score one meter over some scored intervals of its feeder (R304). -/
def scoreOne (s : State) (ivs : List BalRec) (eid : Nat) : Score :=
  let m := mGet s eid
  let l := ivs.filterMap fun r =>
    let k := balIdx s r.start
    if covers s k eid then some (tget 0 m.share k, r.d) else none
  let rq := corr l
  let n := l.length
  { eid := eid, score := if n < 16 then 0 else min 255 (max 0 rq / 128).toNat,
    flags := b2n (l.all fun p => p.1 == 0) + 2 * b2n ((recView s eid).alarms != 0) + 4 * b2n (decide (n < 16)) +
             8 * b2n (unsealed s),
    n := n, r := rq }

/-- Insert by descending SCORE, ties by ascending EID. -/
def scoreIns (x : Score) : List Score → List Score
  | [] => [x]
  | y :: t => if y.score < x.score ∨ (y.score = x.score ∧ x.eid < y.eid) then x :: y :: t else y :: scoreIns x t

def scoreBytes (x : Score) : List Byte :=
  leBytes 4 x.eid ++ leBytes 1 x.score ++ leBytes 1 x.flags ++ leBytes 2 x.n ++ leBytes 2 (signedBits 16 x.r) ++ leBytes 6 0

/-- Type 2: meters on a feeder scored against its residual. -/
def crvScores (s : State) (uid : Nat) : State :=
  withSub s uid 0x58 24 2 [0, 1, 2, 3] fun f =>
    if dByte f.raw 24 1 ≠ 2 then badParam s f 24
    else ifUnused s f [(28, 6)] <|
      let n := dByte f.raw 25 1
      let w := dByte f.raw 34 2
      if 3 < n then badParam s f 25
      else if w < 16 ∨ 672 < w then badParam s f 34
      else storeRun s f <|
        let ivs := (s.met.recs.filter fun r => r.feeder == n && r.flags % 8 == 0).take w
        let l := ((mappedOn s n).map (scoreOne s ivs)).foldr scoreIns []
        let out := l.take (dBufLen f.raw / 16)
        completeOk (writeBuf s f (out.map scoreBytes).flatten) f 0 (result4 out.length 0 0 0)

/-- MET_STATUS (R306). -/
def metStatus (s : State) : Word :=
  BitVec.ofNat 32 (sealState s + 4 * b2n s.met.loopSince.isSome + 8 * b2n s.met.latched +
    16 * b2n (s.boot.dLm != s.met.sealedDig) + 32 * b2n s.time.vbatLost + 64 * b2n s.met.calLock +
    128 * b2n (calIsB s.met) + 256 * b2n (!calLoaded s s.met.cal))

/-- The 128 bytes of a snapshot (R305). -/
def snapshotBytes (s : State) : List Byte :=
  let m := s.met
  leBytes 8 (m.secStart * 2 ^ 24) ++ ((List.range 16).map fun i => leBytes 4 (lget 0 m.last.rms i)).flatten ++
  leBytes 4 m.last.freq ++ leBytes 4 (metStatus s).toNat ++
  ((List.range 4).map fun f => leBytes 8 (signedBits 64 (sum3 (m.energy.map mwhOf) f))).flatten ++ leBytes 16 0

/-- Type 3: a snapshot of the last completed second. -/
def crvSnapshot (s : State) (uid : Nat) : State :=
  withSub s uid 0x58 24 3 [0, 1, 2, 3] fun f =>
    if dByte f.raw 24 1 ≠ 3 then badParam s f 24
    else ifUnused s f [(25, 1), (28, 8)] <|
      if !feOn s then reject s f stOff 0
      else if dBufLen f.raw < 128 then badBuf s f 16
      else completeOk (writeBuf s f (snapshotBytes s)) f 0 (result4 1 0 0 0)

end Sys2Proof.Machine
end

