-- ==== Sys2Proof/Machine/Harness.lean ====
section
/-!
DEFINITION. The ring (13): heartbeats, link acknowledgements and replay, lanes and ports, joining, and the mirroring of a
pair on both of its sides.
-/
namespace Sys2Proof.Machine
open Sys2Proof

def harnSet (s : State) (g : HarnSt → HarnSt) : State := { s with harn := g s.harn }

/-! ## Positions and roles (R400, R402, R412, R413) -/

def inMask (m p : Nat) : Bool := m / 2 ^ p % 2 == 1
def withBit (m p : Nat) : Nat := if inMask m p then m else m + 2 ^ p
def withoutBit (m p : Nat) : Nat := if inMask m p then m - 2 ^ p else m

/-- The by-pass is closed: RESET_n low, not opened by the join yet, refused, or fenced (R402). A chip without its supplies
has no state here. -/
def bypassClosed (s : State) : Bool := s.pins.resetLow || s.harn.fenced || !(s.harn.joined || s.harn.phase == 3)

/-- A joined chip whose by-pass is open. -/
def onRing (s : State) : Bool := s.harn.joined && !bypassClosed s

/-- The lead, or the shadow of position 0 acting as lead. -/
def isLead (s : State) : Bool := s.pins.harnMode == 2 || s.harn.acting

/-- The nearest joined position from this chip's eastward, or westward. -/
def eastOf (s : State) : Option Nat :=
  ((List.range 7).map fun i => (s.harn.pos + 1 + i) % 8).find? fun p => inMask s.harn.joinedM p
def westOf (s : State) : Option Nat :=
  ((List.range 7).map fun i => (s.harn.pos + 7 - i) % 8).find? fun p => inMask s.harn.joinedM p

/-- A frame's OWNER_EPOCH lies behind this chip's (R423). -/
def staleEpoch (s : State) (e : Nat) : Bool :=
  let d := (s.recs.epoch.toNat + 256 - e % 256) % 256
  d != 0 && decide (d < 128)

/-- Firn log code 0x0701: FUNC_ID or position, and the new state or reason. -/
def ringLog (s : State) (id new : Nat) : State := logEvent 0x0701 (id + 65536 * new) s

/-- A ring frame has arrived on a port: counted, and acknowledged (R405). -/
def ringGot (s : State) (p : Nat) : State :=
  let x := portGet s p
  cnt { (portPut s p { x with rx := x.rx + 1 }) with wire := .ring p 3 [x.rx] :: s.wire } (386 + p)

/-! ## Outbound mirroring (R413 to R416) -/

/-- Links acknowledged late: the acknowledgements of received frames whose gates are open (R413). -/
def acksFree (s : State) : State := (s.chan.tab.map (·.1)).foldl ackRelease s

/-- Open every gate: the gated actions go on. -/
def gatesOff (s : State) : State := acksFree (harnSet s fun h => { h with gates := [] })

/-- Own records, in record-index order. -/
def ownRecs (s : State) : List Nat := (s.recs.tab.filter fun p => eidHome p.1 == s.harn.pos && p.2.state != 0).map (·.1)

/-- Other state the shadow holds: directory, feeder map, tariffs, calendars, radio plan, pins. -/
def heldEnts (s : State) : List JEnt :=
  (if s.sealU.set then [.sealKeys (BitVec.ofNat 32 s.sealU.session) (BitVec.ofNat 32 s.sealU.sign) s.sealU.src] else []) ++
  (s.keys.dir.map fun p => .dir p.1 p.2) ++ (s.bill.tariffs.map fun p => .tariff p.1 p.2) ++
  (s.bill.cals.map fun p => .cal p.1 p.2) ++ (if s.air.plan.isEmpty then [] else [.plan s.air.plan]) ++
  (s.met.feeders.map fun p => .feeder p.1 (mapLast p.2)) ++
  (s.recs.pins.filterMap fun p => if p.2.on then some (.note 1 (epHandle p.1)) else none)

/-- Send the next records as SYNC_COPY frames, as far as a place of the replay buffer frees; after the last record the
other state (R415). -/
def syncSend (s : State) : State :=
  if s.harn.outState ≠ 1 then s
  else match (ownRecs s).drop s.harn.syncPos with
  | [] => s
  | e :: t =>
    let s := ringSend s 0 0x15 [0, e, (recGet s e).writeSeq.toNat]
    let s := harnSet s fun h => { h with syncPos := h.syncPos + 1, syncLeft := t.length }
    if t.isEmpty then (heldEnts s).foldl (fun s e => ringSend s 0 0x15 [entKind e, 0, 0]) s else s

/-- SYNCING starts: every record is to be sent. -/
def syncStart (s : State) (sh : Nat) : State :=
  let n := (ownRecs s).length
  let s := harnSet s fun h => { h with outState := 1, outReason := 0, shadow := some sh, syncPos := 0, syncLeft := n }
  if n = 0 then (heldEnts s).foldl (fun s e => ringSend s 0 0x15 [entKind e, 0, 0]) s else syncSend s

/-- Roots of this chip as JOIN carries them: index and KCV. -/
def rootKcvs (s : State) : List (Nat × Word) := (s.keys.roots.filter fun p => !p.2.empty).map fun p => (p.1, p.2.kcv)

/-- Reason 7: the shadow's own pins, a free value each time it is asked (log entry 162), with those it would pin for this
chip. -/
def pinReason (s : State) : Nat × State :=
  let (n, s) := takeFree s
  (if Config.freeNat n + ownPins s > 2048 then 7 else 0, s)

/-- Reasons 3, 4 and 7 of a shadow. Its DRAM and roots are known where its JOIN was seen; a free value where it was not. -/
def peerReason (s : State) (sh : Nat) : Nat × State :=
  match s.harn.peers.find? fun p => p.1 == sh with
  | some p =>
    if p.2.dramSize < s.recs.dramMib then (3, s)
    else if p.2.kcvs != rootKcvs s then (4, s)
    else pinReason s
  | none =>
    let (n, s) := takeFree s
    if Config.freeNat n = 3 ∨ Config.freeNat n = 4 then (Config.freeNat n, s) else pinReason s

/-- The first reason of R416 that holds; 0: none. -/
def mirrorReason (s : State) : Nat × State :=
  if !wbit (regGet s 0x8000) 0 then (1, s)
  else match (if onRing s then eastOf s else none) with
  | none => (2, s)
  | some sh =>
    let (r, s') := peerReason s sh
    if r = 3 ∨ r = 4 then (r, s')
    else if (List.range 8).any fun p => p != sh && serverOf s p == some sh then (5, s')
    else (r, s')

/-- Mirroring goes OFF for a reason; a change of reason is logged (R416). -/
def mirrorOff (s : State) (r : Nat) : State :=
  if s.harn.outState = 0 ∧ s.harn.outReason = r then s
  else
    let s := gatesOff (harnSet s fun h => { h with outState := 0, outReason := r, syncLeft := 0, syncPos := 0 })
    ringLog s s.harn.pos r

/-- Judge the pair anew: OFF with its reason, or SYNCING where it was OFF or the shadow has changed. -/
def mirrorEval (s : State) : State :=
  let (r, s) := mirrorReason s
  if r ≠ 0 then mirrorOff s r
  else match eastOf s with
  | none => s
  | some sh =>
    if s.harn.outState ≠ 0 ∧ s.harn.shadow = some sh then s
    else ringLog (syncStart (gatesOff s) sh) s.harn.pos 0

/-! ## Heartbeats and other timed frames (R404, R407, R412) -/

/-- HEARTBEAT_TRANSMIT. -/
def heartbeatTransmit (s : State) : State :=
  if !onRing s || s.harn.beatsOff then s
  else ringSend (ringSend s 0 1 [s.harn.pos, 7]) 1 1 [s.harn.pos, 7]

/-- A position heard of for the first time: joined, and serving itself unless an OWNER frame said otherwise. -/
def posHeard (s : State) (p : Nat) : State :=
  if inMask s.harn.joinedM p then s
  else
    let s := harnSet s fun h => { h with joinedM := withBit h.joinedM p }
    let s := match serverOf s p with
      | some _ => s
      | none => { s with recs := { s.recs with owner := lset s.recs.owner p (p, true) } }
    mirrorEval s

/-- HEARTBEAT: the origin is alive; the frame goes on in its direction of travel. -/
def heartbeat (s : State) (port origin hops epoch : Nat) : State :=
  if !onRing s || decide (1 < port) || decide (7 < origin) then s
  else
    let s := ringGot s port
    if origin = s.harn.pos ∨ staleEpoch s epoch = true ∨ inMask s.harn.silentM origin = true then s
    else
      let s := posHeard (harnSet s fun h => { h with beats := tset 0 h.beats origin s.tcxo }) origin
      if hops = 0 then s else ringSend s (1 - port) 1 [origin, hops - 1]

/-- RING_TICK_TRANSMIT: the lead's DT, its REBASE_CNT (15 R471). -/
def ringTickTransmit (s : State) : State :=
  if onRing s && isLead s && !s.harn.beatsOff then ringSend s 0 2 [(dtOf s).toNat, s.time.rebaseCnt.toNat] else s

/-- Lanes of a port that are up: functions 0x0500 to 0x0503, two a port. -/
def lanesUp (s : State) (port : Nat) : Nat := b2n (fnOn s (0x0500 + 2 * port)) + b2n (fnOn s (0x0501 + 2 * port))

/-- This chip's own entry of OP_HARN_STATUS mode 0 (R401, R424). -/
def ownEntry (s : State) : HarnEnt :=
  let alone := !inHarness s
  { flags := BitVec.ofNat 8 (b2n (alone || s.harn.joined) + 4 * b2n (alone || s.pins.harnMode == 2) +
             8 * b2n s.harn.acting + 16 * b2n s.harn.fenced)
    server := BitVec.ofNat 8 (match serverOf s s.harn.pos with | some v => v + 8 | none => 0)
    mirror := BitVec.ofNat 8 (s.harn.outState + 4 * s.harn.outReason)
    lanes := BitVec.ofNat 8 (lanesUp s 0 + 4 * lanesUp s 1)
    capacity := BitVec.ofNat 32 (epCapacity s), active := BitVec.ofNat 32 (activeCount s) }

/-- STATUS_FRAME_TRANSMIT. -/
def statusTransmit (s : State) : State :=
  if onRing s then ringSend s 0 0x22 [s.harn.pos] else s

/-- STATUS: the lead keeps a position's last entry. -/
def statusRx (s : State) (p : Nat) (e : HarnEnt) : State :=
  if !onRing s || !isLead s || decide (7 < p) then s
  else harnSet (ringGot s 1) fun h => { h with stat := (p, ⟨e, s.tcxo⟩) :: h.stat.filter fun x => x.1 != p }

/-! ## LINK_ACK, replay, lanes and ports (R405, R406, R408) -/

/-- Unwrap a port that has trained again once the other port's replay buffer is empty (R408). -/
def unwrap (s : State) (p : Nat) : State :=
  let x := portGet s p
  let s := if x.broken && x.trained && (portGet s (1 - p)).replay.isEmpty then portPut s p { x with broken := false } else s
  harnSet s fun h => { h with wrapped := (portGet s 0).broken || (portGet s 1).broken }

/-- The ring wraps around a port: its frames leave by the other, those it held among them, their gates with them. -/
def wrapPort (s : State) (p : Nat) : State :=
  let x := portGet s p
  let s := cnt (portPut s p { x with broken := true, trained := false, replay := [] }) 393
  let s := harnSet s fun h => { h with wrapped := true }
  let s := x.replay.foldl (fun s f =>
    let l := (portGet s (1 - p)).tx
    let s := ringSend s p f.kind f.args
    harnSet s fun h => { h with gates := h.gates.map fun g => if g.port = p ∧ g.lseq = f.lseq then { g with port := 1 - p, lseq := l } else g }) s
  ringLog s (0x0400 + p) 1

/-- A neighbour's segment that waits to be wrapped for a join is, once nothing sent into it is unacknowledged (R409). -/
def joinWrap (s : State) : State :=
  match s.harn.reqs with
  | side :: _ => if (portGet s side).broken || !(portGet s side).replay.isEmpty then s else wrapPort s side
  | [] => s

/-- LINK_ACK: frames up to an LSEQ leave the replay buffer, and their gates open. -/
def linkAck (s : State) (port lseq : Nat) : State :=
  if !onRing s || decide (1 < port) then s
  else
    let x := portGet s port
    let s := portPut (cnt s (386 + port)) port { x with replay := x.replay.filter fun f => decide (lseq < f.lseq) }
    let s := harnSet s fun h => { h with gates := h.gates.filter fun g => !(g.port == port && decide (g.lseq ≤ lseq)) }
    let s := if port = outPort s 0 then syncSend s else s
    joinWrap (unwrap (unwrap (acksFree s) 0) 1)

/-- REPLAY_RESEND: every frame a port holds goes out again. -/
def replayResend (s : State) (p : Nat) : State :=
  if !onRing s || decide (1 < p) then s
  else (portGet s p).replay.foldl (fun s f =>
    cnt (cnt { s with wire := .ring p f.kind f.args :: .ringHead p (ringHeader s f.kind f.lseq f.args) :: s.wire } (384 + p)) 388) s

/-- LANE_FAILURE: the port goes on on its other lane. -/
def laneFailure (s : State) (lane : Nat) : State :=
  let id := 0x0500 + lane
  if decide (3 < lane) || !inHarness s || (fnGet s id).st == .off then s
  else
    let s := fnPut s id Fn.idle
    replayResend (cnt (ringLog s id 0) 389) (lane / 2)

/-- PORT_BROKEN. -/
def portBroken (s : State) (p : Nat) : State :=
  if !onRing s || decide (1 < p) || (portGet s p).broken then s else wrapPort s p

/-- PORT_RETRAIN. -/
def portRetrain (s : State) (p : Nat) : State :=
  let x := portGet s p
  if !onRing s || decide (1 < p) || !x.broken then s
  else
    let s := unwrap (portPut s p { x with trained := true }) p
    ringLog s (0x0400 + p) 0

/-! ## Joining (R409 to R411) -/

/-- Requests on both sides of a chip: the one granted already first, else that west-nearest to the lead, which is the west
side's at the lead and the east side's elsewhere (R423). -/
def reqsWith (s : State) (side : Nat) : List Nat :=
  match s.harn.reqs with
  | x :: t => if !(portGet s x).broken && side == b2n (isLead s) then side :: x :: t else x :: t ++ [side]
  | [] => [side]

/-- JOIN_REQUEST: a sideband low of 10 µs or more. -/
def joinRequest (s : State) (side lowUs : Nat) : State :=
  if !onRing s || decide (lowUs < 10) || decide (1 < side) || s.harn.reqs.contains side then s
  else joinWrap (harnSet s fun h => { h with reqs := reqsWith s side })

/-- A position no joined chip holds. -/
def posFree (s : State) (p : Nat) : Bool := decide (p < 8) && !inMask s.harn.joinedM p

/-- JOIN_ERR of a refusal, or the position assigned (R410). -/
def joinAssign (s : State) (q : JoinReq) : Nat ⊕ Nat :=
  let mine := q.ringId == s.harn.ringId
  if (List.range 8).all fun p => inMask s.harn.joinedM p then .inl 3
  else if q.leadStrap then .inl 2
  else if q.holdsRecords && !mine then .inl 4
  else match q.posReq.filter (posFree s), q.storedPos.filter fun p => mine && posFree s p with
  | some p, _ => .inr p
  | none, some p => .inr p
  | none, none =>
    if q.holdsRecords then .inl 1
    else match ((List.range 7).map (· + 1)).find? (posFree s) with
      | some p => .inr p
      | none => .inl 3

/-- A position taken by a chip: no longer silent, its capacity known; it serves itself unless another chip serves it. -/
def joinTake (s : State) (p : Nat) (q : JoinReq) : State :=
  let s := harnSet s fun h =>
    { h with joinedM := withBit h.joinedM p, silentM := withoutBit h.silentM p, beats := tset 0 h.beats p s.tcxo,
             peers := (p, q) :: h.peers.filter (fun x => x.1 != p), caps := tset 0 h.caps p (capOfMib q.dramSize) }
  let s := match serverOf s p with
    | some _ => s
    | none => { s with recs := { s.recs with owner := lset s.recs.owner p (p, true) } }
  let s := if p = 0 then harnSet s fun h => { h with acting := false } else s
  mirrorEval (ringLog s p 1)

/-- JOIN: every chip takes note; the lead answers with a position and its server, or refuses. -/
def joinRx (s : State) (q : JoinReq) : State :=
  if !onRing s then s
  else
    let lead := isLead s
    let s := harnSet (ringGot s 1) fun h => { h with reqs := h.reqs.drop 1 }
    match joinAssign s q with
    | .inl e => let s := if lead then ringSend s 0 0x20 [2, e] else s
                joinWrap (ringLog s 0xFF e)
    | .inr p =>
      let s := joinTake s p q
      joinWrap (if lead then ringSend s 0 0x20 [1, p, (serverOf s p).getD 0xFF] else s)

/-- What JOIN carries: POS_REQ_VALID and POS_REQ; then the stored RING_ID and position (8: none), the fitted DRAM, and the
index and KCV of each utility root (R409 step 5). -/
def joinArgs (s : State) : List Nat :=
  [0, b2n (wbit (regGet s 0x8000) 4), regFld s 0x8000 1 3] ++
  (match s.harn.nvPos with | some (id, p) => [id.toNat, p] | none => [0, 8]) ++
  s.recs.dramMib :: ((rootKcvs s).map fun p => [p.1, p.2.toNat]).flatten

/-- HARNESS_LINK_TRAINED: the by-pass is open, both links have trained; JOIN goes out (R409 steps 4 and 5). -/
def harnessTrained (s : State) : State :=
  if s.pins.harnMode ≠ 1 ∨ s.pins.resetLow = true ∨ s.harn.phase ≠ 1 then s
  else
    let s := [0x0400, 0x0401, 0x0500, 0x0501, 0x0502, 0x0503].foldl (fun s id => fnPut s id ⟨.on, false, false, []⟩) s
    let s := (portPut (portPut s 0 { HPort.idle with trained := true }) 1 { HPort.idle with trained := true })
    ringSend (harnSet s fun h => { h with phase := 3 }) 0 0x20 (joinArgs s)

/-- JOIN_GRANT: the position goes to MRAM with RING_ID; the chip serves its own endpoints unless another chip does. -/
def joinGrant (s : State) (pos server : Nat) (served : Bool) (ringId : BitVec 64) : State :=
  if s.harn.phase ≠ 3 ∨ 7 < pos then s
  else
    let s := harnSet s fun h =>
      { h with pos := pos, nvPos := some (ringId, pos), ringId := ringId, joined := true, phase := 4, joinErr := 0,
               joinedM := withBit h.joinedM pos }
    let own := if served && server != pos then (server, true) else (pos, true)
    let s := { s with recs := { s.recs with owner := lset s.recs.owner pos own } }
    mirrorEval (ringLog s pos 1)

/-- JOIN_REFUSE. -/
def joinRefuse (s : State) (err : Nat) : State :=
  if s.harn.phase ≠ 3 then s
  else
    let s := harnSet s fun h => { h with phase := 5, joinErr := err % 8, joined := false }
    let s := portPut (portPut s 0 HPort.idle) 1 HPort.idle
    ringLog s 0xFF err

/-! ## The mirror held for the west neighbour (R413, R415, R208) -/

/-- Whether a mirror frame of a position is taken: its chip is not silent, its epoch not behind. -/
def mirrorFrom (s : State) (src epoch : Nat) : Bool :=
  onRing s && decide (src < 8) && src != s.harn.pos && !inMask s.harn.silentM src && !staleEpoch s epoch

/-- Whether this chip holds a mirror of a position. -/
def holdsFor (s : State) (src epoch : Nat) : Bool := mirrorFrom s src epoch && s.harn.inState != 0 && s.harn.inPos == src

def mirrorGot (s : State) : State := cnt (ringGot s 1) 391

/-- The EID of an endpoint key handle (06 R189). -/
def eidOfHandle (h : Nat) : Nat := h % 2 ^ 26 / 2 ^ 23 * 2 ^ 29 + h % 2 ^ 22

/-- A directory key of the west neighbour, as its mirrored entries leave it. -/
def mirrorDir (s : State) (h : Nat) : DirEnt :=
  s.harn.mEnts.foldl (fun a e => match e with | .dir k d => if k = h then d else a | _ => a) DirEnt.empty

/-- Whether the west neighbour has an endpoint pinned: its newest pin entry says so. -/
def mirrorPinned (s : State) (h : Nat) : Bool :=
  s.harn.mEnts.foldl (fun a e => match e with | .note 1 k => a || k == h | .note 2 k => a && k != h | _ => a) false

/-- The key a mirrored blob is wrapped under, with its generation: a mirrored domain key that hangs under a utility root
held here, or such a root (R208). -/
def shadowKek (s : State) (h : Nat) (b : Blob) : PKey :=
  if hIsDir h then rootUse s (hIndex b.parent.toNat) else entUse s b.parent.toNat (mirrorDir s b.parent.toNat)

/-- Unwrap and pin a key of the west neighbour, in this step (R208): within the 2,048 pins, as R198 lets the blob be used.
None: no pipeline or no slot, and the item that carries the pin waits. -/
def shadowPin (s : State) (h : Nat) (b : Blob) : Option State :=
  match slotFind s h b.gen 2, shadowKek s h b with
  | some i, _ => some (slotPut s i { slotGet s i with shadow := (slotGet s i).shadow || decide (pinnedCount s < 2048) })
  | none, .ok kek pg =>
    if 2048 ≤ pinnedCount s then some s
    else
      match wrapRun s kek with
      | (_, none) => none
      | (s, some _) =>
        match blobCheck (some b) kek h b.parent.toNat b.gen pg with
        | some c => some (logBlob s h c)
        | none => (slotAlloc s).map fun p => slotLoad p.2 p.1 h b false true
  | none, _ => some s

def shadowPins (h : Nat) : List Blob → State → Option State
  | [], s => some s
  | b :: t, s => (shadowPin s h b).bind (shadowPins h t)

/-- The shadow's pins of a handle released, of the generations a test picks. -/
def shadowUnpin (s : State) (h : Nat) (g : BitVec 8 → Bool) : State :=
  slotMap s fun x => if x.handle == h && g x.gen then { x with shadow := false } else x

/-- Mirrored records take the entry of the greater WRITE_SEQ, a provision or a retirement. The keys of a pinned endpoint
stay pinned as its record names them, a pending key newly installed among them (R208). -/
def mirrorRec (s : State) (eid : Nat) (r : EpRec) : Option State :=
  let old := tget EpRec.free s.harn.mRecs eid
  let h := epHandle eid
  if r.state = 0 ∨ old.state = 0 ∨ r.writeSeq = 0 ∨ old.writeSeq.toNat < r.writeSeq.toNat then
    let s := harnSet s fun h => { h with mRecs := tset EpRec.free h.mRecs eid r }
    if mirrorPinned s h then
      let bl := if r.state = 0 then [] else pinBlobs r
      shadowPins h bl (shadowUnpin s h fun g => !(bl.any fun b => b.gen == g))
    else some s
  else some s

def mirrorNote (s : State) (e : JEnt) : State := harnSet s fun h => { h with mEnts := h.mEnts ++ [e] }

/-- Apply a state entry to the mirror copy, pins in the same step (R208). None: it waits for a pin's slot or unwrap. -/
def mirrorApply (s : State) (e : JEnt) : Option State :=
  match e with
  | .epRec eid r => mirrorRec s eid r
  | .linkDrop eid r => (mirrorRec s eid r).map fun s => mirrorNote s e
  | .note 1 h => shadowPins h (pinBlobs (tget EpRec.free s.harn.mRecs (eidOfHandle h))) (mirrorNote s e)
  | .note 2 h => some (shadowUnpin (mirrorNote s e) h fun _ => true)
  | .dir h d =>
    match d.pinned, d.cur with
    | true, some b => shadowPins h [b] (shadowUnpin (mirrorNote s e) h fun g => g != b.gen)
    | _, _ => some (shadowUnpin (mirrorNote s e) h fun _ => true)
  | _ => some (mirrorNote s e)

/-- MIRROR_RAW. -/
def mirrorRaw (s : State) (src id epoch : Nat) (f : Frame) : State :=
  if !holdsFor s src epoch then s else harnSet (mirrorGot s) fun h => { h with holdRaw := h.holdRaw ++ [(id, f)] }

/-- MIRROR_STATE. -/
def mirrorState (s : State) (src epoch : Nat) (e : JEnt) : State :=
  if !holdsFor s src epoch then s else (mirrorApply (mirrorGot s) e).getD s

/-- MIRROR_READING: held until delivered; it ends the hold of its raw frame, and its posting entry is applied. -/
def mirrorReading (s : State) (src id epoch : Nat) (rd : ReadRec) (post : Option EpRec) : State :=
  if !holdsFor s src epoch then s
  else
    let eid := rd.eid.toNat
    let r := tget EpRec.free s.harn.mRecs eid
    match (match post with | some r => mirrorRec s eid r | none => some s) with
    | none => s
    | some s => harnSet (mirrorGot s) fun h =>
        { h with holdRd := h.holdRd ++ [(id, rd, post)],
                 holdRaw := h.holdRaw.filter fun x => !(x.2.addr == r.meterAddr && x.2.ic == rd.rxIc) }

/-- MIRROR_CMD. -/
def mirrorCmd (s : State) (src epoch : Nat) (c : MCmd) : State :=
  if !holdsFor s src epoch then s else harnSet (mirrorGot s) fun h => { h with holdCmd := h.holdCmd ++ [c] }

/-- RELEASE: kind 0 a reading delivered, 1 a raw frame discarded or rejected, 2 a command acknowledged by its ring and
tag, 3 one without a descriptor by its EID and counter. -/
def releaseRx (s : State) (src epoch kind id : Nat) : State :=
  if !holdsFor s src epoch then s
  else harnSet (mirrorGot s) fun h =>
    match kind with
    | 0 => { h with holdRd := h.holdRd.filter fun x => x.1 != id }
    | 1 => { h with holdRaw := h.holdRaw.filter fun x => x.1 != id }
    | 3 => { h with holdCmd := h.holdCmd.filter fun c => c.eid.toNat * 2 ^ 32 + c.ic.toNat != id }
    | _ => { h with holdCmd := h.holdCmd.filter fun c => c.sq + 64 * c.tag.toNat != id }

/-- The home chip keeps, for each record, the copy with the greater WRITE_SEQ (03 R117). -/
def homeRec (s : State) (eid : Nat) (r : EpRec) : State :=
  let old := recGet s eid
  if old.state = 0 ∨ old.writeSeq.toNat < r.writeSeq.toNat then recPut (pinSync s eid r) eid r else s

/-- Whether an OP_HARN_RETURN waits for the copies of a serving chip. -/
def returning (s : State) : Option Flight :=
  s.host.flights.find? fun f => dOpcode f.raw == 0x71 && !f.ended && f.stage != .none

/-- Whether this chip may hold a mirror of a west neighbour: its fitted DRAM is at least the neighbour's (03 R100), known
where its JOIN was seen, a free value where it was not. -/
def mirrorMay (s : State) (src : Nat) : Bool × State :=
  match s.harn.peers.find? fun p => p.1 == src with
  | some p => (decide (p.2.dramSize ≤ s.recs.dramMib), s)
  | none => let (n, s) := takeFree s
            (Config.freeBool n, s)

/-- SYNC_COPY: applied over the mirror copy; to the home chip's own records while they are returned to it (R422). The
first one starts the mirror of a pair. -/
def syncCopy (s : State) (src : Nat) (e : JEnt) : State :=
  if !mirrorFrom s src s.recs.epoch.toNat then s
  else if (returning s).isSome && serverOf s s.harn.pos == some src then
    match e with
    | .epRec eid r => if eidHome eid = s.harn.pos then homeRec (mirrorGot s) eid r else s
    | _ => mirrorGot s
  else if s.harn.served.isSome then s
  else
    match (if s.harn.inState = 0 ∨ s.harn.inPos ≠ src then mirrorMay s src else (true, s)) with
    | (false, s) => s
    | (true, s) =>
      let s := if s.harn.inState = 0 ∨ s.harn.inPos ≠ src then
          harnSet s fun h => { h with inState := 1, inPos := src, mRecs := [], mEnts := [], holdRaw := [], holdRd := [], holdCmd := [] }
        else s
      (mirrorApply (mirrorGot s) e).getD s

/-- MIRROR_GATE_TIMEOUT: gates wait on a silent shadow; the actions go on unmirrored (R414). -/
def mirrorGateTimeout (s : State) : State :=
  let silent := match s.harn.shadow with | some p => inMask s.harn.silentM p | none => false
  if s.harn.gates.isEmpty || !silent || s.harn.outState == 0 then s else mirrorOff s 6

end Sys2Proof.Machine
end

