-- ==== Sys2Proof/Machine/Takeover.lean ====
section
/-!
DEFINITION. Silence, fencing, takeover and return (13 R417 to R424).
-/
namespace Sys2Proof.Machine
open Sys2Proof

/-- A chip fences itself: nothing is transmitted, none of its endpoints is served, its by-pass closes (R417). -/
def fence (s : State) : State := harnSet s fun h => { h with fenced := true, beatsOff := true }

/-- Broadcast the owner of a home position under the present epoch (R419, R422). -/
def ownerCast (s : State) (p : Nat) : State :=
  ringSend s 0 0x21 [p, (serverOf s p).getD 0, b2n (serverOf s p).isSome, s.recs.epoch.toNat]

def ownerPut (s : State) (p v : Nat) (valid : Bool) : State :=
  { s with recs := { s.recs with owner := lset s.recs.owner p (v, valid) } }

def epochUp (s : State) : State := { s with recs := { s.recs with epoch := s.recs.epoch + 1 } }

/-- The counter of a record's last relay command: the newest one used whose low 16 bits are CMD_IC (08 R275). -/
def relayIc (r : EpRec) : Word := r.txIcHwm - BitVec.ofNat 32 ((r.txIcHwm.toNat + 65536 - fld r.relay 16 16) % 65536)

/-- Restart the confirmation timer of a record whose RELAY is PENDING, at its full length (08 R280). -/
def relayRestart (s : State) (eid : Nat) : State :=
  let r := recGet s eid
  if relayPend r.relay && r.state != 0 then relayPut s eid ⟨s.tcxo, regFld s 0x600 0 12, relayIc r, 0, none, 0, 0⟩
  else s

/-! ## Takeover (R419 to R421) -/

/-- The mirrored records become this chip's to serve, relay timers among them; state this chip lacks is taken over, its
own stands (R116, R419 step 4). -/
def tkoRecords (s : State) : State :=
  let s := s.harn.mRecs.foldl (fun s p => relayRestart (recPut s p.1 p.2) p.1) s
  s.harn.mEnts.foldl (fun s e =>
    match e with
    | .tariff id t => if tarGet s id = TarEnt.empty then { s with bill := { s.bill with tariffs := tset TarEnt.empty s.bill.tariffs id t } } else s
    | .cal id c => if calGet s id = CalEnt.empty then { s with bill := { s.bill with cals := tset CalEnt.empty s.bill.cals id c } } else s
    | .dir h d => if (dirGet s h).st = 0 then dirPut s h d else s
    | .plan b => if s.air.plan.isEmpty then { s with air := { s.air with plan := b } } else s
    | _ => s) s

/-- One mirrored command enters this chip's command path under its mirrored IC (R376, R419 step 2). -/
def tkoCommand (pos : Nat) (s : State) (c : MCmd) : State :=
  let uid := s.host.uidNext
  let op := c.opcode.toNat
  let eid := c.eid.toNat
  let arg := if op = 0x42 then (if dByte c.raw 24 4 = 0 then 0xFFFFFFFF else dByte c.raw 24 4) else 0
  let t : TkoEnt := { home := pos, sq := c.sq, tag := c.tag, opcode := c.opcode, tc := 0, status := none, eid := c.eid, ic := c.ic,
                      progress := 0, dt := 0, epoch := s.recs.epoch + 1, uid := uid, since := s.tcxo }
  let s := { s with host := { s.host with uidNext := uid + 1 } }
  let s := harnSet s fun h => { h with tko := t :: h.tko }
  match chRefuse s eid 0 with
  | some st => tkoSettle s (some uid) st 3
  | none => relayFrame s eid (op - 0x40) arg c.ic (some uid) c.tag

/-- A held reading not marked delivered joins the delivery queue (R419 step 3). -/
def tkoReading (s : State) (x : Nat × ReadRec × Option EpRec) : State :=
  let id := s.host.delivNext
  let d : Deliv := { id := id, tc0 := false, rd := x.2.1, group := epGroup (recGet s x.2.1.eid.toNat), cls := x.2.1.tc, uid := none,
                     ring := none }
  { s with host := { s.host with deliv := s.host.deliv ++ [d], delivNext := id + 1 } }

/-- Held readings go to the delivery queue in order, as far as it has places for them (02 R76); the rest stay held. -/
def tkoReadings : List (Nat × ReadRec × Option EpRec) → State → State
  | [], s => harnSet s fun h => { h with holdRd := [] }
  | x :: t, s =>
    if delivRoom s x.2.1.tc then tkoReadings t (tkoReading s x) else harnSet s fun h => { h with holdRd := x :: t }

/-- The batch the silent chip had open, from the held records: the newest BATCH_ID among them, missing places padded,
closed with cause TAKEOVER and signed under this chip's key (07 R240). What of its header no mirror item carries is a
free value. -/
def tkoBatch (s : State) : State :=
  let rds := s.harn.holdRd.map (·.2.1)
  let bid := (rds.map (·.batchId.toNat)).foldl max 0
  let l := rds.filter fun r => r.batchId.toNat == bid
  if l.isEmpty then s
  else
    let n := (l.map (·.leaf.toNat)).foldl max 0 + 1
    let leaves := (List.range n).map fun i => match l.find? fun r => r.leaf.toNat == i with | some r => leafHash r | none => 0
    let gaps := (List.range n).any fun i => !(l.any fun r => r.leaf.toNat == i)
    let ses := (s.harn.mEnts.foldl (fun a e => match e with | .sealKeys x _ _ => x.toNat | _ => a) 0)
    let prev := (s.harn.mEnts.foldl (fun a e => match e with | .batch i p => if i.toNat = bid then p else a | _ => a) 0)
    let (k, s) := takeFree s
    let b : Batch := { bid := BitVec.ofNat 64 bid, prev := prev, session := ses, sGen := (dirGet s ses).curGen, sign := s.sealU.sign,
                       gGen := (dirGet s s.sealU.sign).curGen, dtOpen := BitVec.ofNat 64 (Config.freeNat k), dtClose := dtOf s,
                       cause := 4, rebuilt := false, gaps := gaps, closeMs := 0, opened := s.tcxo, leaves := leaves, recs := [] }
    cnt { s with sealU := { s.sealU with signQ := s.sealU.signQ ++ [b], recent := (b :: s.sealU.recent).take 32 } } 325

/-- A held raw frame enters this chip's own reading path, through the tunnel queue of the group that carries its meter
(R419 step 4, R421). -/
def tkoRaw (s : State) (x : Nat × Frame) : Option State :=
  let f := x.2
  let g := match addrResolve s f.addr f.proto with | some e => chanOf s e / 16 | none => 0
  let g := if g < 4 then g else 0
  if (if frameCls s f 0 = 0 then 1024 else 960) < tunnelUnits (lget [] s.rp.tunnel g) + units f.raw.length then none else some <|
  let it := newItem s.rp.idNext f (16 * g) true (dtOf s) 0x80 0 false
  rpSet s fun r => { r with tunnel := lset r.tunnel g (lget [] r.tunnel g ++ [it]), idNext := r.idNext + 1 }

/-- Held raw frames in arrival order, as far as the tunnel queues have room; the rest stay held. -/
def tkoRaws : List (Nat × Frame) → State → State
  | [], s => harnSet s fun h => { h with holdRaw := [] }
  | x :: t, s => match tkoRaw s x with | some s => tkoRaws t s | none => harnSet s fun h => { h with holdRaw := x :: t }

/-- What a takeover holds for want of places goes on (01 R34). While this chip serves another's endpoints no mirror is held
for a neighbour: what is held is the takeover's. -/
def tkoRefill (s : State) : State :=
  if s.harn.served.isNone then s else tkoRaws s.harn.holdRaw (tkoReadings s.harn.holdRd s)

/-- Journaled descriptors of classes 1 to 3 the silent chip had not finished (R421): the last mirrored entry of each. -/
def tkoDescs (pos : Nat) (s : State) : State :=
  let ds := s.harn.mEnts.foldl (fun (l : List TkoEnt) e =>
    match e with
    | .desc _ sq tag _ _ op tc eid pr _ js =>
      let l := l.filter fun t => !(t.sq == sq && t.tag == tag)
      if js != 1 || tc == 0 then l
      else { home := pos, sq := sq, tag := tag, opcode := op, tc := tc, status := some (BitVec.ofNat 8 stMoved), eid := eid, ic := 0,
             progress := pr, dt := dtOf s, epoch := s.recs.epoch + 1, uid := 0, since := s.tcxo } :: l
    | _ => l) []
  harnSet s fun h => { h with tko := ds ++ h.tko }

/-- The takeover, steps 1 to 5. -/
def takeover (s : State) (pos : Nat) : State :=
  let cmds := s.harn.holdCmd
  let s := ownerPut (tkoRecords s) pos s.harn.pos true
  let s := tkoDescs pos (cmds.foldl (tkoCommand pos) s)
  let s := tkoReadings s.harn.holdRd (tkoBatch s)
  let s := tkoRaws s.harn.holdRaw s
  let s := ownerCast (epochUp s) pos
  let s := unsolicited s 0x10 0 0xFFFF 0xFFFFFFFF (pos + 256 * s.recs.epoch.toNat)
  let s := harnSet s fun h => { h with served := some pos, tkoCnt := min 255 (h.tkoCnt + 1), inState := 0, mRecs := [], mEnts := [], holdCmd := [] }
  cnt s 392

/-! ## Silence (R417, R418) -/

/-- Whether no heartbeat from a position has come for 2 µs. -/
def beatLost (s : State) (p : Nat) : Bool := decide (tget 0 s.harn.beats p * 10 + 768 ≤ s.tcxo * 10)

/-- Whether a joined chip other than this one and a position still is heard (R417). -/
def othersHeard (s : State) (pos : Nat) : Bool :=
  (List.range 8).any fun p => p != s.harn.pos && p != pos && inMask s.harn.joinedM p && !beatLost s p

/-- A joined chip other than this one. -/
def othersJoined (s : State) : Bool := (List.range 8).any fun p => p != s.harn.pos && inMask s.harn.joinedM p

/-- What a silence means on this chip once it has not fenced itself: takeover by the shadow of the pair that was ON, no
server for the endpoints of one that was not; the lead's duties pass to position 0's shadow. -/
def silenceActs (s : State) (pos : Nat) (shadow : Bool) : State :=
  let s := if pos = 0 ∧ shadow = true ∧ s.pins.harnMode = 1 then harnSet s fun h => { h with acting := true } else s
  if s.harn.inState = 2 ∧ s.harn.inPos = pos ∧ s.pins.pfailLow = false then takeover s pos
  else if shadow && serverOf s pos == some pos then
    let s := ownerPut s pos pos false
    ownerCast (if s.harn.inPos = pos then harnSet s fun h => { h with inState := 0 } else s) pos
  else s

/-- SILENCE_DECLARED: the isolation test where no other position is heard, then fencing or what follows (R417, R418). -/
def silenceDeclared (s : State) (pos : Nat) (lowReturned : Bool) : State :=
  if !onRing s || pos == s.harn.pos || !inMask s.harn.joinedM pos || !beatLost s pos then s
  else
    let shadow := westOf s == some pos
    let s := harnSet s fun h => { h with silentM := withBit h.silentM pos, joinedM := withoutBit h.joinedM pos }
    let s := ringLog s pos 2
    if !othersHeard s pos && !lowReturned then fence s
    else
      let s := silenceActs s pos shadow
      if s.harn.shadow = some pos ∧ s.harn.outState ≠ 0 ∧ s.harn.gates ≠ [] then s else mirrorEval s

/-- TC0_STAGE_HANG: heartbeats stop and the chip fences itself, unless it is a ring of one. -/
def tc0StageHang (s : State) : State :=
  if !onRing s then s
  else if othersJoined s then fence s else harnSet s fun h => { h with beatsOff := true }

/-! ## Owners and return (R420, R422) -/

/-- The serving chip gives a home position back: descriptors that wait complete NOT_OWNER naming it, the records go back
to the mirror, KIND 0x11 is posted. -/
def giveBack (s : State) (p : Nat) : State :=
  let s := s.host.flights.foldl (fun s f =>
    if !f.ended && dTc f.raw != 0 && f.stage == .none && (match opInfo (dOpcode f.raw) with | some o => namesEid o f.raw | none => false) &&
        eidHome (dEid f.raw) == p then reject s f stNotOwner (BitVec.ofNat 128 p) else s) s
  let mine := s.recs.tab.filter fun x => eidHome x.1 == p
  let s := { s with recs := { s.recs with tab := s.recs.tab.filter fun x => eidHome x.1 != p } }
  let s := s.harn.holdRd.foldl tkoReading s
  let s := harnSet s fun h => { h with served := none, inState := 2, inPos := p, mRecs := mine, holdRd := [], holdRaw := [] }
  unsolicited s 0x11 0 0xFFFF 0xFFFFFFFF (p + 256 * s.recs.epoch.toNat)

/-- OWNER. -/
def ownerRx (s : State) (p v : Nat) (valid : Bool) (epoch : Nat) : State :=
  if !onRing s || decide (7 < p) || staleEpoch s epoch then s
  else
    let s := ringGot s 1
    let s := ownerPut { s with recs := { s.recs with epoch := BitVec.ofNat 8 epoch } } p v valid
    mirrorEval (if s.harn.served = some p ∧ v = p ∧ valid = true then giveBack s p else s)

/-- Step 1 of OP_HARN_RETURN. -/
def harnReturn (s : State) (uid : Nat) : State :=
  withDesc s uid 0x71 fun f =>
    if !inHarness s then reject s f stOff 0
    else match f.stage with
    | .wait _ _ _ => s
    | _ =>
      if !onRing s || !(match serverOf s s.harn.pos with | some v => v != s.harn.pos | none => false) then badParam s f 0
      else setProgress s { f with stage := .wait s.tcxo 2 0 } 1 0

/-- Steps 3 and 4: ownership comes home, mirroring starts ON towards a shadow whose copies agree, and the balance
intervals missed are recorded (09, Harness, store and roles). -/
def returnDone (s : State) (f : Flight) : State :=
  let was := serverOf s s.harn.pos
  let s := ownerCast (ownerPut (epochUp s) s.harn.pos s.harn.pos true) s.harn.pos
  let s := (s.recs.tab.map (·.1)).foldl relayRestart s
  let (r, s) := mirrorReason s
  let s := if r = 0 ∧ eastOf s = was then
      ringLog (harnSet s fun h => { h with outState := 2, outReason := 0, shadow := was, syncLeft := 0 }) s.harn.pos 0
    else mirrorEval s
  completeOk (balRejoin s) f 4 0

/-- MIRROR_SYNC_COMPLETE: of the copies returned to their home chip, of the outbound pair, or of the mirror held. -/
def mirrorSyncComplete (s : State) : State :=
  match returning s with
  | some f => returnDone s f
  | none =>
    if s.harn.outState = 1 ∧ s.harn.syncLeft = 0 then harnSet s fun h => { h with outState := 2 }
    else if s.harn.inState = 1 then harnSet s fun h => { h with inState := 2 }
    else s

/-! ## OP_HARN_STATUS (R401, R424) -/

def harnEntBytes (e : HarnEnt) : List Byte :=
  [e.flags, e.server, e.mirror, e.lanes] ++ leBytes 4 e.capacity.toNat ++ leBytes 4 e.active.toNat ++ leBytes 4 0

/-- The entry of a position: its own, or the STATUS frame of the last 1 ms with what the ring knows of its silence. -/
def harnEntry (s : State) (p : Nat) : List Byte :=
  if p = (if inHarness s then s.harn.pos else 0) then harnEntBytes (ownEntry s)
  else if !inHarness s then leBytes 16 0
  else match s.harn.stat.find? fun x => x.1 == p && decide (s.tcxo ≤ x.2.at_ + 38400) with
    | some x => harnEntBytes x.2.ent
    | none => leBytes 1 (2 * b2n (inMask s.harn.silentM p)) ++ leBytes 15 0

/-- Mode 0. -/
def harnStatusRing (s : State) (uid : Nat) : State :=
  withSub s uid 0x70 24 0 [0, 1] fun f =>
    if dByte f.raw 24 1 ≠ 0 then badParam s f 24
    else if dBufLen f.raw < 128 then badBuf s f 16
    else completeOk (writeBuf s f ((List.range 8).map (harnEntry s)).flatten) f 0 (result4 8 0 0 0)

def tkoBytes (e : TkoEnt) : List Byte :=
  leBytes 1 e.home ++ leBytes 1 e.sq ++ leBytes 2 e.tag.toNat ++ leBytes 1 e.opcode.toNat ++ leBytes 1 e.tc ++
  leBytes 1 (match e.status with | some x => x.toNat | none => 0) ++ leBytes 1 0 ++ leBytes 4 e.eid.toNat ++ leBytes 4 e.ic.toNat ++
  leBytes 4 e.progress.toNat ++ leBytes 8 e.dt.toNat ++ leBytes 4 e.epoch.toNat

/-- Mode 1: commands that have an outcome, the newest takeover first. -/
def harnStatusTaken (s : State) (uid : Nat) : State :=
  withSub s uid 0x70 24 1 [0, 1] fun f =>
    if dByte f.raw 24 1 ≠ 1 then badParam s f 24
    else if dBufLen f.raw < 32 then badBuf s f 16
    else
      let out := (s.harn.tko.filter fun e => e.status.isSome).take (dBufLen f.raw / 32)
      completeOk (writeBuf s f (out.map tkoBytes).flatten) f 0 (result4 out.length 0 0 0)

end Sys2Proof.Machine
end

