-- ==== Sys2Proof/Machine/HostRegs.lean ====
section
/-!
DEFINITION. The credit queues' watermarks and their pins (01 R36 to R38), and a BAR0 write with what it does beside
storing its fields (02 R50, R52, R79; 01 R44; 06 R193; 18 R521 to R526; 20 R544, R545).
-/
namespace Sys2Proof.Machine
open Sys2Proof

/-! ## Watermarks (01 R36, R37) -/

/-- Depth of a queue of the watermark table, in its own unit; 0 for a reserved ID. -/
def queueDepth (s : State) (q : Nat) : Nat :=
  if q < 0x40 then 256
  else if q < 0x44 then 1024
  else if q = 0x44 ∨ q = 0x45 ∨ q = 0x48 then 512
  else if q = 0x46 ∨ q = 0x49 then 1024
  else if q = 0x47 then 4096
  else if q = 0x4A then 8192
  else if q = 0x4B then max 1 (regFld s 0x9120 0 4) * 1048576
  else if q = 0x4C then 16384
  else if q = 0x4F then 256
  else if q = 0x4D ∨ q = 0x4E then max 1 (Config.queueDepth q)
  else 0

/-- Present occupancy of a queue of the watermark table, in the unit of its depth. -/
def queueUsed (s : State) (q : Nat) : Nat :=
  if q < 0x40 then rxUnits (chGet s q)
  else if q < 0x44 then ((lget [] s.rp.tunnel (q - 0x40)).map fun x => units x.f.raw.length).sum
  else if q = 0x44 then s.rp.parsed.length
  else if q = 0x45 then s.keys.missQ.length
  else if q = 0x46 then s.rp.cipherQ.length
  else if q = 0x47 then holdUsed s
  else if q = 0x48 then s.rp.validQ.length
  else if q = 0x49 then s.rp.postQ.length
  else if q = 0x4A then s.store.queue.length
  else if q = 0x4B then tailBytes s
  else if q = 0x4C then s.host.deliv.length
  else if q = 0x4D then min (max 1 (Config.queueDepth q)) (s.chan.tab.map fun p => (p.2.tx.filter fun f => !f.queued).length).sum
  else if q = 0x4E then (portGet s 0).replay.length
  else if q = 0x4F then (s.store.units.map fun u => u.left).sum
  else 0

def wmId (w : Word) : Nat := fld w 0 8
def wmHigh (w : Word) : Nat := fld w 8 6
def wmLow (w : Word) : Nat := fld w 16 6

/-- A configuration is invalid: LOW at or above HIGH, HIGH 0, or a reserved queue (R37). -/
def wmInvalid (w : Word) : Bool := decide (wmHigh w ≤ wmLow w) || wmHigh w == 0 || decide (0x4F < wmId w)

/-- Whether a watermark register routes a queue to its pin. -/
def wmRouted (w : Word) : Bool := wbit w 31 && !wmInvalid w

/-- A watermark's next state under R36. -/
def wmNext (s : State) (n : Nat) : Bool :=
  let w := regGet s (0x20 + 4 * n)
  if !wmRouted w then false
  else
    let used := 64 * queueUsed s (wmId w)
    let depth := queueDepth s (wmId w)
    if wmHigh w * depth ≤ used then true
    else if used ≤ wmLow w * depth then false
    else lget false s.glob.wm n

/-- Every watermark follows the occupancies. -/
def wmUpdate (s : State) : State := { s with glob := { s.glob with wm := (List.range 4).map (wmNext s) } }

/-- The level of a WM pin, true for high (R37): deasserted while RESET_n is low. -/
def wmPin (s : State) (n : Nat) : Bool :=
  let w := regGet s (0x20 + 4 * n)
  if s.pins.resetLow then false else (lget false s.glob.wm n && wmRouted w) != wbit w 30

/-- Whether a listed queue is above its high watermark: its pins' where one routes it, else RP_BP_CFG's (04 R147). -/
def queueHigh (s : State) (q : Nat) : Bool :=
  let r := (List.range 4).filter fun n => wmRouted (regGet s (0x20 + 4 * n)) && wmId (regGet s (0x20 + 4 * n)) == q
  let above := fun h => decide (h * queueDepth s q < 64 * queueUsed s q)
  if r.isEmpty then above (regFld s 0x204 0 6) else r.any fun n => above (wmHigh (regGet s (0x20 + 4 * n)))

/-- Any listed queue above its high watermark (01 R22). -/
def anyQueueHigh (s : State) : Bool := (List.range 0x50).any (queueHigh s)

/-! ## Register writes with an effect of their own -/

/-- WMn_CFG: the watermark deasserts and is evaluated anew against the present occupancy (R38). -/
def wmCfg (s : State) (n : Nat) (v : Word) : State :=
  let s := regWrite s (0x20 + 4 * n) v
  wmUpdate { s with glob := { s.glob with wm := lset s.glob.wm n false } }

/-- The three peaks: cleared, a peak starts again at the present value (log entry 40). -/
def paceClr (s : State) (v : Word) : State :=
  if wbit v 31 then { s with glob := { s.glob with peak := s.glob.stPs } } else s
def inflightClr (s : State) (v : Word) : State :=
  if wbit v 31 then { s with host := { s.host with peak := inflight s } } else s
def holdClr (s : State) (v : Word) : State :=
  if wbit v 31 then { s with ce := { s.ce with holdPeak := holdUsed s } } else s

/-- SUPPLY_REQ_CTRL's fields. -/
def vreqEn (s : State) : Bool := wbit (regGet s 0x18) 0
def vreqFixed (s : State) : BitVec 8 := BitVec.ofNat 8 (regFld s 0x18 8 8)
def vreqTarget (s : State) : Nat := regFld s 0x18 16 16

/-- SUPPLY_REQ_CTRL: while EN is 0 the code is FIXED_CODE; as EN rises the adaptive code begins at the code driven
before, within 250 (01 R21, R22; log entry 147). -/
def vreqCtrl (s : State) (v : Word) : State :=
  let old := if vreqEn s then s.glob.code else vreqFixed s
  let s := regWrite s 0x18 v
  let code := if vreqEn s then BitVec.ofNat 8 (min 250 old.toNat) else vreqFixed s
  { s with glob := { s.glob with code := code } }

/-- A write of a ring's CFG: the other fields first, then the request EN makes (02 R52, R53). -/
def ringCfg (s : State) (kind n off : Nat) (v : Word) : State :=
  let s := regWrite s off v
  if wbit v 31 then ringEnable s kind n else if kind = 2 then delivChanged (ringDisable s kind n) else ringDisable s kind n

/-- READ_ROUTEi: records that waited for one ring may wait for another (02 R75, R77). -/
def readRoute (s : State) (off : Nat) (v : Word) : State := delivChanged (regWrite s off v)

/-- CQc_IRQ_CFG: IRQ_EN rising evaluates the conditions of R78 at once (R79). -/
def irqCfg (s : State) (c : Nat) (v : Word) : State :=
  let was := cqIrqEn s c
  let s := regWrite s (0x1C0C + 0x20 * c) v
  if !was && cqIrqEn s c then cqEval s c else s

/-- KL_DATAi. -/
def klData (s : State) (i : Nat) (v : Word) : State :=
  { s with keys := { s.keys with klData := lset s.keys.klData i v } }

/-- KL_CTRL: CLEAR zeroes the key-load registers (06 R193). -/
def klCtrl (s : State) (v : Word) : State := if wbit v 0 then klZero s else s

/-- HARN_CFG: a change of MIRROR_EN is judged at once (13 R416). -/
def harnCfg (s : State) (v : Word) : State :=
  let was := wbit (regGet s 0x8000) 0
  let s := regWrite s 0x8000 v
  if was != wbit (regGet s 0x8000) 0 then mirrorEval s else s

/-- SMPn_STATUS: PENDING and OVERRUN clear by a 1 (18 R522). -/
def smpClear (s : State) (n : Nat) (v : Word) : State :=
  let x := smpGet s n
  smpPut s n { x with pending := x.pending && !wbit v 0, overrun := x.overrun && !wbit v 1 }

/-- The other registers with W1C fields (R12): RP_STATUS, CE_FAULT, TIME_STATUS, NAND_STATUS, UPD_STATUS, FLT_STATUS. -/
def w1c (s : State) (off : Nat) (v : Word) : State :=
  if off = 0x208 then { s with rp := { s.rp with wrapped := s.rp.wrapped && !wbit v 0 } }
  else if off = 0x308 then { s with ce := { s.ce with fault := s.ce.fault &&& ~~~ (v &&& 0x5FF) } }
  else if off = 0x5008 then { s with time := { s.time with refused := s.time.refused && !wbit v 6 } }
  else if off = 0xA008 then { s with store := { s.store with wrapped := s.store.wrapped && !wbit v 3 } }
  else if off = 0xE004 then { s with upd := { s.upd with fellBack := s.upd.fellBack && !wbit v 8 } }
  else { s with flt := { s.flt with ueSeen := s.flt.ueSeen && !wbit v 0, dramWeak := s.flt.dramWeak && !wbit v 1 } }

/-- The index of an offset in a run of `count` registers at a stride, if it is one of them. -/
def runIdx (off base stride count : Nat) : Option Nat :=
  if base ≤ off ∧ (off - base) % stride = 0 ∧ (off - base) / stride < count then some ((off - base) / stride) else none

/-- The registers of the host queue set-up block whose write does more than store. -/
def hostBlockWrite (s : State) (off : Nat) (v : Word) : State :=
  if off = 0x1004 then inflightClr s v
  else match runIdx off 0x1410 0x20 64 with
  | some q => ringCfg s 0 q off v
  | none => match runIdx off 0x1C08 0x20 64 with
  | some c => ringCfg s 1 c off v
  | none => match runIdx off 0x1C0C 0x20 64 with
  | some c => irqCfg s c v
  | none => match runIdx off 0x2410 0x20 16 with
  | some r => ringCfg s 2 r off v
  | none => match runIdx off 0x2600 4 16 with
  | some _ => readRoute s off v
  | none => regWrite s off v

/-- A stored word at a BAR0 offset, with what its register does (R544). -/
def barWrite (s : State) (off : Nat) (v : Word) : State :=
  if inHostBlock off then hostBlockWrite s off v
  else if off = 0x14 then paceClr s v
  else if off = 0x18 then vreqCtrl s v
  else if off = 0x30C then holdClr s v
  else if off = 0x900 then bwWindowMs s v
  else if off = 0x904 then bwSel s v
  else if off = 0x4020 then klCtrl s v
  else if off = 0x8000 then harnCfg s v
  else if off ∈ [0x208, 0x308, 0x5008, 0xA008, 0xE004, 0xF000] then w1c s off v
  else match runIdx off 0x20 4 4 with
  | some n => wmCfg s n v
  | none => match runIdx off 0x4000 4 8 with
  | some i => klData s i v
  | none => match runIdx off 0x800 0x20 8 with
  | some n => samplerCfg s n v
  | none => match runIdx off 0x808 0x20 8 with
  | some n => smpClear s n v
  | none => regWrite s off v

/-- A host write to BAR0: only an aligned 4-byte write acts (R50). -/
def hostWrite (s : State) (off size : Nat) (v : Word) : State :=
  let s := bwRx s 66 size
  if size = 4 ∧ off % 4 = 0 then barWrite s off v else s

end Sys2Proof.Machine
end

