-- ==== Sys2Proof/Machine/Restore.lean ====
section
/-!
DEFINITION. Checkpoints of the endpoint records and of the other journaled state, and their rebuilding at a start
(03 R107 to R111; 02 R89; 06 R221; 07 R230, R240; 08 R280; 11 R359; 14 R447).
-/
namespace Sys2Proof.Machine
open Sys2Proof

/-! ## CHECKPOINT (R109) -/

/-- The state beside the records that a checkpoint carries: what a shadow would hold, links, collections, seal keys,
the OP_STATUS entries, oldest first, steps of retires done (R105), and the WRITE_SEQ of key handles (log entry 154). -/
def ckptOther (s : State) : List JEnt :=
  heldEnts s ++ (s.air.links.map fun p => .link p.1 p.2) ++ (s.cmd.binds.map fun p => .coll p.1 p.2) ++
  (s.cmd.plans.map fun p => .collPlan p.1 p.2.kind p.2.period p.2.offset p.2.spread) ++
  [.batch s.sealU.prev (match s.sealU.batch with | some b => b.prev | none => 0)] ++
  (s.host.jrnl.reverse.map (jrnlJEnt s)) ++ (s.recs.retire.map fun p => .note 4 (p.1 + 2 ^ 32 * p.2)) ++
  (s.keys.seqs.map fun p => .note 5 (p.1 + 2 ^ 32 * p.2.toNat))

/-- Bytes of the map's checkpoint: pieces of 32 KiB, 8,192 entries each, one entry per map unit of raw NAND (14 R437, R438). -/
def mapPieces (s : State) : Nat :=
  let n := (s.store.dies.filter fun p => p.2.found).length * lget 0 s.store.geom 2 * unitsPerBlock s
  (n + 8191) / 8192 * 32768

/-- Pages one copy of a checkpoint takes, the map's pieces with it (log entry 44). -/
def ckptPages (s : State) (other : List JEnt) : Nat :=
  let bytes := s.recs.tab.length * Config.entryBytes 0 + (other.map fun e => Config.entryBytes (entKind e)).sum + mapPieces s
  let page := max 1 (pageKib s * 1024)
  (bytes + page - 1) / page

/-- Write a checkpoint: the tail is programmed first, then every record in index order as one unit with its WRITE_SEQ, in
both copies (14 R429), and the map's pieces; the journal space behind them is reclaimed (R110, 14 R438). -/
def ckptWrite (s : State) : State :=
  let s := journalFlush s
  let other := ckptOther s
  let n := 2 * ckptPages s other
  let g : Nat × EpRec → Nat × EpRec := fun p => (p.1, recView s p.1)
  let s := { s with recs := { s.recs with ckpt := s.recs.tab.map g, ckptEnts := other, jnand := [],
                                          ckptCnt := s.recs.ckptCnt + 1, ckptAct := false, ckptAt := s.tcxo } }
  cntAdd (bwTx s 68 (n * pageKib s * 1024)) 353 n 0xFFFFFFFF

/-- Whether CKPT_PERIOD_MIN has passed since the newest checkpoint, or since the start (R109). -/
def ckptDue (s : State) : Bool := msPassed s s.recs.ckptAt (60000 * regFld s 0x9120 8 8)

/-- CHECKPOINT: once each period, while the store is ON. -/
def checkpoint (s : State) : State := if !storeOn s || (diesOn s).isEmpty || !ckptDue s then s else ckptWrite s

/-! ## Rebuilding one record (R110) -/

/-- The posting entries of an EID that can be read, with the WRITE_SEQ each carries. -/
def postsOf (s : State) (eid : Nat) : List (Word × EpRec) :=
  ((s.store.units.filter fun u => !u.unread).map fun u =>
    u.ents.filterMap fun e => if e.eid.toNat = eid then e.post.map fun r => (e.pw, r) else none).flatten

/-- Apply posting entries in WRITE_SEQ order up to the one before `stop`, or up to the first gap. -/
def rbPosts (posts : List (Word × EpRec)) (stop : Option Word) : Nat → EpRec → EpRec
  | 0, r => r
  | n + 1, r =>
    if stop = some (r.writeSeq + 1) then r
    else match posts.find? fun p => p.1 == r.writeSeq + 1 with
      | some p => rbPosts posts stop n { p.2 with writeSeq := p.1 }
      | none => r

/-- The EID a journal entry changes the record of. -/
def entEid (e : JEnt) : Option Nat :=
  match e with
  | .epRec eid _ => some eid
  | .linkDrop eid _ => some eid
  | .note 1 h => some (eidOfHandle h)
  | _ => none

/-- What a state entry leaves of a record. -/
def entRec (e : JEnt) (w : Word) (r : EpRec) : EpRec :=
  match e with
  | .epRec _ x => x
  | .linkDrop _ x => x
  | _ => { r with writeSeq := w }

/-- Whether a state entry begins a record's life: a provision writes WRITE_SEQ 0 (R106). -/
def entFresh (e : JEnt) : Bool :=
  match e with
  | .epRec _ x => x.state != 0 && x.writeSeq == 0
  | _ => false

/-- Take one state entry: `(record, gap met)`. -/
def rbEntry (posts : List (Word × EpRec)) (a : EpRec × Bool) (j : JTail) : EpRec × Bool :=
  if entFresh j.ent then (entRec j.ent j.wseq a.1, false)
  else if a.2 then a
  else
    let r := rbPosts posts (some j.wseq) posts.length a.1
    if r.writeSeq + 1 = j.wseq then (entRec j.ent j.wseq r, false) else (r, true)

/-- What follows the last state entry: posting entries up to their first gap, beyond which another stands. -/
def rbTail (posts : List (Word × EpRec)) (a : EpRec × Bool) : EpRec × Bool :=
  if a.2 then a
  else
    let r := rbPosts posts none posts.length a.1
    (r, posts.any fun p => decide (r.writeSeq.toNat < p.1.toNat))

/-- An erase whose step 2 is journaled is completed: a place marked empty holds no blob, and REVOKED is clear (06 R221,
R576). -/
def rbBlobs (r : EpRec) : EpRec :=
  let cur := r.keyCur.isSome && !kcCurValid r
  let pend := r.keyPend.isSome && !kcPendValid r
  if cur || pend then
    kcSet { r with keyCur := if cur then none else r.keyCur, keyPend := if pend then none else r.keyPend } 30 1 0
  else r

/-- Rebuild one record; a gap is recorded with its EID and sets ALARMS bit 0. -/
def rbRecord (s : State) (eid : Nat) : State :=
  let posts := postsOf s eid
  let ents := s.recs.jnand.filter fun j => entEid j.ent == some eid
  let a := ents.foldl (rbEntry posts) (tget EpRec.free s.recs.ckpt eid, false)
  if a.1.state = 0 then recPut s eid EpRec.free
  else
    let t := rbTail posts a
    let a := (rbBlobs t.1, t.2)
    if a.2 then logEvent 0x0401 (eid + 2 ^ 32 * a.1.writeSeq.toNat) (recPut s eid { a.1 with alarms := a.1.alarms ||| 1 })
    else recPut s eid a.1

/-- The EIDs the checkpoint or the journal speaks of. -/
def rbEids (s : State) : List Nat :=
  (s.recs.ckpt.map (·.1) ++ s.recs.jnand.filterMap fun j => entEid j.ent).eraseDups

/-! ## The other state -/

/-- A link as journaled: MISSED is 0, and it was last heard no later than its record says (11 R359). `off`: how long the
device was unpowered, in 2^-24 s. -/
def rbLink (s : State) (eid : Nat) (l : MLink) (off : Nat) : MLink :=
  let heard := ((recGet s eid).lastRx - s.air.sfOffset).toNat
  let t := if (recGet s eid).lastRx.toNat < s.air.sfOffset.toNat then l.syncItc else max l.syncItc heard
  { l with missed := 0, syncItc := t, lastHeard := max l.lastHeard t, offT := off }

/-- An OP_STATUS entry read back; the newest of a descriptor stands (R89). -/
def rbDesc (s : State) (e : JrnlEnt) : State :=
  { s with host := { s.host with jrnl := (e :: s.host.jrnl.filter fun x => x.uid != e.uid).take 65536 } }

/-- The seal keys in use, with their pins (07 R226); the pins of those they replace are released. -/
def sealUse (s : State) (se si : Nat) (src : BitVec 16) : State :=
  let pin := fun (s : State) h => dirPut s h { dirGet s h with pinned := true }
  let off := fun (s : State) h => if h = 0 then s else dirPut s h { dirGet s h with pinned := false }
  let s := pin (pin (off (off s s.sealU.session) s.sealU.sign) se) si
  { s with sealU := { s.sealU with set := true, session := se, sign := si, src := src, missed := false } }

/-- Apply one journaled entry that is no record's. -/
def rbOther (s : State) (e : JEnt) (off : Nat) : State :=
  match e with
  | .dir h d => dirPut s h (if d.st = 0 then DirEnt.empty else d)
  | .tariff id t => { s with bill := { s.bill with tariffs := tset TarEnt.empty s.bill.tariffs id t } }
  | .cal id c => { s with bill := { s.bill with cals := tset CalEnt.empty s.bill.cals id c } }
  | .plan b => { s with air := { s.air with plan := b } }
  | .feeder n m => fdrPut s n (fdrSet (fdrGet s n) m 0)
  | .link eid l => linkPut s eid (if l.st = 0 then l else rbLink s eid l off)
  | .linkDrop eid _ => linkPut s eid { MLink.none with st := 3, channel := (linkGet s eid).channel, profile := (linkGet s eid).profile }
  | .sealKeys k g src =>
    sealUse s k.toNat g.toNat src
  | .batch id _ => { s with sealU := { s.sealU with prev := id } }
  | .coll eid v => bindSet s eid v
  | .collPlan p k per o sp => { s with cmd := { s.cmd with plans := tset Plan.none s.cmd.plans p ⟨k, per, o, sp⟩ } }
  | .note 1 h => pinPut s (eidOfHandle h) { PinEnt.none with on := true }
  | .note 2 h => pinPut s (eidOfHandle h) PinEnt.none
  | .desc uid sq tag seq pwr opc _ _ prog st js => rbDesc s ⟨uid, sq, tag, seq, pwr, opc, prog, st, js⟩
  | .epRec _ _ => s
  | .root _ _ => s
  | .note _ _ => s

/-- The newest WRITE_SEQ of a key handle (log entry 154). -/
def rbSeq (s : State) (h : Nat) (w : Word) : State := { s with keys := { s.keys with seqs := tset 0 s.keys.seqs h w } }

/-- Steps of a retire done, as its record's entries and its descriptors' progress words tell them (R105); a checkpoint's own notes. -/
def rbRetire (s : State) (e : JEnt) : State :=
  match e with
  | .note 4 x => retirePut s (x % 2 ^ 32) (x / 2 ^ 32)
  | .note 5 x => rbSeq s (x % 2 ^ 32) (BitVec.ofNat 32 (x / 2 ^ 32))
  | .epRec eid r => if r.state ≠ 3 then retirePut s eid 0 else if retireAt s eid = 0 then retirePut s eid 2 else s
  | .desc _ _ _ _ _ op _ eid prog _ _ =>
    if op = 0x12 ∧ 2 ≤ retireAt s eid.toNat then retirePut s eid.toNat (max (retireAt s eid.toNat) (fld prog 24 8)) else s
  | _ => s

/-- Step 5 has been done where step 4 has and no blob is left. -/
def rbErased (s : State) : State :=
  s.recs.retire.foldl (fun s p =>
    if p.2 = 4 ∧ kcCurValid (recGet s p.1) = false ∧ kcPendValid (recGet s p.1) = false then retirePut s p.1 5 else s) s

def rbSeqs (s : State) (j : JTail) : State :=
  match j.ent with
  | .dir h _ => rbSeq s h j.wseq
  | .root n _ => rbSeq s (0x20000000 + n) j.wseq
  | _ => s

/-- Every OP_STATUS entry still open is closed with DEVICE_FAULT_PARTIAL and its last journaled progress (R89); its
completion is never written. -/
def rbJrnlClose (s : State) : State :=
  let g : JrnlEnt → JrnlEnt := fun e =>
    if e.jstate = 1 then { e with jstate := 3, status := BitVec.ofNat 8 stFault } else e
  { s with host := { s.host with jrnl := s.host.jrnl.map g } }

/-- Pinned endpoints read their live fields from the rebuilt record, and their keys are loaded and pinned again
(06 R221); those whose keys cannot be loaded stay listed as pinned. -/
def rbPin (s : State) (eid : Nat) : State :=
  let r := recGet s eid
  if r.state = 0 then pinPut s eid PinEnt.none
  else
    let s := pinPut s eid (pinOf r)
    if kcRevoked r then s
    else match pinEpAll s eid (pinBlobs r) with
    | some s => s
    | none => s

def rbPins (s : State) : State :=
  let s := s.recs.pins.foldl (fun s p => rbPin s p.1) s
  s.keys.dir.foldl (fun s p =>
    if p.2.pinned then (match ensureDir s p.1 true with | some s => s | none => s) else s) s

/-! ## The batch log and the balance records, read back from the store -/

def rbLogBatch (e : SEnt) : LogBatch :=
  let b := e.body
  { lseq := BitVec.ofNat 32 (tb4 b 0), hdr := (b.drop 8).take 96, sig := (b.drop 104).take 96,
    bid := BitVec.ofNat 64 (tb8 b 20), recs := [] }

/-- A signed field of `n` bits. -/
def sBits (n v : Nat) : Int := if v < 2 ^ (n - 1) then (v : Int) else (v : Int) - (2 ^ n : Nat)

def rbBalRec (e : SEnt) : BalRec :=
  let b := e.body
  { bseq := BitVec.ofNat 32 (tb4 b 0), feeder := tb b 4, st := tb b 5, flags := tb2 b 6, start := tb8 b 8 / 2 ^ 24,
    eIn := sBits 64 (tb8 b 16), eMet := sBits 64 (tb8 b 24), lTech := tb4 b 32, late := sBits 32 (tb4 b 36),
    d := sBits 64 (tb8 b 40), dPm := sBits 16 (tb2 b 48), cover := tb2 b 50, mapped := tb4 b 52, complete := tb4 b 56,
    run := tb2 b 60 }

/-- Entries of a TYPE in SSN order that can be read. -/
def entsOf (s : State) (typ : Nat) : List SEnt :=
  ((s.store.units.filter fun u => !u.unread && !u.par).map fun u => u.ents.filter fun e => e.typ == typ).flatten

/-- The feeder as its last balance record left it (09 R300); the intervals since then are still to be evaluated. -/
def rbFeeder (s : State) (recs : List BalRec) (n : Nat) (f : Fdr) : Fdr :=
  match recs.find? fun r => r.feeder == n with
  | some r => { f with st := r.st, run := r.run, next := balIdx s r.start + 1 }
  | none => { f with next := balIdx s (nowSec s) }

def rbLogs (s : State) : State :=
  let lb := (entsOf s 3).map rbLogBatch
  let br := ((entsOf s 4).map rbBalRec).reverse
  let lseq := match lb.getLast? with | some e => e.lseq + 1 | none => 0
  let bseq := match br with | r :: _ => r.bseq + 1 | [] => 0
  let s := { s with sealU := { s.sealU with log := lb.drop (lb.length - 65536), lseq := lseq } }
  metSet s fun m => { m with recs := br.take 16384, nextBseq := bseq,
                             feeders := m.feeders.map fun p => (p.1, rbFeeder s br p.1 p.2) }

/-- The batch a power loss left open, rebuilt from its leaves in the store: cause POWER, REBUILT, and GAPS where a place
is missing; when it opened and closed is not known (07 R240). -/
def rbBatch (s : State) : State :=
  let done := s.sealU.log.map (·.bid) ++ s.sealU.signQ.map (·.bid)
  let rds := (entsOf s 1).filterMap (·.rd)
  let l := rds.filter fun r => r.batchId == s.sealU.prev
  if l.isEmpty ∨ s.sealU.prev ∈ done then s
  else
    let n := (l.map (·.leaf.toNat)).foldl max 0 + 1
    let leaves := (List.range n).map fun i => match l.find? fun r => r.leaf.toNat == i with | some r => leafHash r | none => 0
    let gaps := (List.range n).any fun i => !(l.any fun r => r.leaf.toNat == i)
    let (j, s) := takeFree s
    let before := (s.recs.ckptEnts ++ s.recs.jnand.map (·.ent)).foldl
      (fun a e => match e with | .batch i p => if i = s.sealU.prev then p else a | _ => a) 0
    let b : Batch := { bid := s.sealU.prev, prev := before, session := s.sealU.session,
                       sGen := (dirGet s s.sealU.session).curGen, sign := s.sealU.sign,
                       gGen := (dirGet s s.sealU.sign).curGen, dtOpen := BitVec.ofNat 64 (Config.freeNat j),
                       dtClose := dtOf s, cause := 3, rebuilt := true, gaps := gaps, closeMs := 0, opened := s.tcxo,
                       leaves := leaves, recs := [] }
    cnt { s with sealU := { s.sealU with signQ := s.sealU.signQ ++ [b], recent := (b :: s.sealU.recent).take 32 } } 324

/-! ## The whole rebuild (phase 0x6) -/

/-- Rebuild the records and the other journaled state; `off`: the unpowered span in 2^-24 s. -/
def rebuild (s : State) (off : Nat) : State :=
  let s := (rbEids s).foldl rbRecord s
  let s := (s.recs.ckptEnts ++ s.recs.jnand.map (·.ent)).foldl (fun s e => rbRetire (rbOther s e off) e) s
  let s := s.recs.jnand.foldl rbSeqs (rbErased s)
  let s := rbLogs (rbJrnlClose (rbPins s))
  let s := rbBatch s
  let s := { s with sealU := { s.sealU with owed := s.sealU.signQ.length } }
  s.recs.tab.foldl (fun s p => relayRestart s p.1) s

end Sys2Proof.Machine
end

