-- ==== Sys2Proof/Machine/Func.lean ====
section
/-!
DEFINITION. How a function's STARTING and STOPPING end (01 R41 to R43; 05 R185; 09 R285; 10 R322, R324; 13 R406, R408;
14 R448, R454 to R456), OP_FUNC_CTRL (19 R535, R538), READY (16 R479), and OP_ABORT (02 R91).
-/
namespace Sys2Proof.Machine
open Sys2Proof

/-- The encoding of FUNC_STATE (01 R44). -/
def fnCode (st : FnSt) : Nat :=
  match st with
  | .off => 0
  | .starting => 1
  | .on => 2
  | .stopping => 3

/-- RESULT: STATE in byte 16, the pending bits in byte 17. -/
def funcResult (s : State) (id : Nat) : BitVec 128 :=
  let f := fnGet s id
  result4 (fnCode f.st + 256 * (b2n f.enPend + 2 * b2n f.disPend)) 0 0 0

/-! ## The end of STARTING -/

/-- The tests of a pipeline's STARTING are over: an enable that waits for them completes OK, and shows what has become of
the pipeline (05 R185). -/
def pipeStarted (s : State) (id : Nat) : State :=
  s.host.flights.foldl (fun s f =>
    if dOpcode f.raw = 0x04 ∧ f.ended = false ∧ f.stage ≠ .none ∧ dByte f.raw 24 2 = id then completeOk s f 2 (funcResult s id)
    else s) s

/-- A channel reaches ON: a slotted one is synchronised from here on, and its island's random generator is reseeded from
the DRBG (11 R348, R360), whose refusal it waits out (05 R165). -/
def chanArrive (s : State) (ch : Nat) : State :=
  if !drbgOpen s then s
  else
  let s := fnArrive (drbgUse s) (0x0100 + ch)
  let s := { s with chan := { s.chan with draws := lset s.chan.draws (ch / 16) 0 } }
  if slottedCoord s ch then macPut s ch { MacCh.idle with sync := 1, since := s.tcxo }
  else if slottedMember s ch then macPut s ch { MacCh.idle with sync := 2, since := s.tcxo }
  else s

/-- The store's mount (14 R448): ON, with a full checkpoint of records held in DRAM only; or OFF with MOUNT_FAIL, and
queued work completes STORE_UNAVAILABLE (R575). -/
def storeArrive (s : State) (ok : Bool) : State :=
  if storeMounts s && ok then
    let s := fnArrive (storeMount s) 0x0A00
    if s.recs.tab.isEmpty then s else ckptWrite s
  else fnStartFails (storeSet s fun t => { t with mountFail := true }) 0x0A00 stNoStore

/-- A die: its good blocks join the pools from here on (14 R455). -/
def dieArrive (s : State) (id : Nat) (ok : Bool) : State :=
  let n := id % 256
  if ok && (dieGet s n).found then fnArrive (diePut s n { dieGet s n with failed := false, eraseRow := 0 }) id
  else fnStartFails s id stOff

/-- A port's training or a lane's PRBS-31 (13 R406, R408). -/
def harnArrive (s : State) (id : Nat) (ok : Bool) : State :=
  let n := id % 256
  if !ok then ringLog (fnStartFails s id stOff) id 0
  else if id / 256 = 4 then portRetrain (fnArrive s id) n else fnArrive s id

/-- A rank's scrub: a pass starts on entry to ON (19 R536). -/
def rankArrive (s : State) (id : Nat) : State :=
  let r := id % 256
  fnArrive { s with flt := { s.flt with ranks := lset s.flt.ranks r { lget Rank.idle s.flt.ranks r with perPos := [], words := 0 } } } id

/-- A function whose start check is the `ok` of the row, by kind. Time discipline reaches ON only by an accepted exchange
(15 R463). -/
def funcArrive (s : State) (id : Nat) (ok : Bool) : State :=
  match id / 256 with
  | 1 => chanArrive s (id % 256)
  | 3 => pipeStarted (if ok then fnArrive s id else fnStartFails s id stOff) id
  | 4 => harnArrive s id ok
  | 5 => harnArrive s id ok
  | 6 => if ok then fnArrive s id else logEvent 0x0103 id (fnStartFails s id stOff)
  | 7 => fnArrive (metSet s fun m => { m with winK := m.ivK }) id
  | 8 => dieArrive s id ok
  | 9 => rankArrive s id
  | 0xA => storeArrive s ok
  | 0xB => s
  | _ => fnArrive s id

/-- FUNCTION_START_COMPLETE: nothing arrives before READY (16 R479). -/
def startComplete (s : State) (f : FuncRef) (ok : Bool) : State :=
  match f with
  | .ring kind n => ringArrive s kind n
  | .func id =>
    if !s.boot.ready || !funcKnown id || (fnGet s id).st != .starting then s else funcArrive s id ok

/-! ## The end of STOPPING -/

/-- A channel is OFF once both queues are empty and no frame is on the pins (10 R324). -/
def chanStopped (s : State) (ch : Nat) : State :=
  if !(chGet s ch).rx.isEmpty || decide (s.tcxo < (chGet s ch).busy) then s
  else
    let s := framesFail s ch stChDown 0 fun _ => true
    fnOff (macPut s ch MacCh.idle) (0x0100 + ch)

/-- The store is OFF once it has flushed as the hold-up does (14 R456); appends queued are stored first. -/
def storeStopped (s : State) : State :=
  let s := fnPut s 0x0A00 { fnGet s 0x0A00 with st := .on }
  let s := (List.range s.store.queue.length).foldl (fun s _ => storeAppend s) s
  let held := (fnGet s 0x0A00).enPend
  fnOff (fnPut (holdupFlush s) 0x0A00 ⟨.stopping, held, false, []⟩) 0x0A00

/-- By kind, what the last item's completion does. -/
def funcStopped (s : State) (id : Nat) : State :=
  match id / 256 with
  | 1 => chanStopped s (id % 256)
  | 4 => fnOff (portBroken s (id % 256)) id
  | 5 => replayResend (cnt (ringLog (fnOff s id) id 0) 389) (id % 256 / 2)
  | 8 => fnOff (dieRelocate s (id % 256)) id
  | 0xA => storeStopped s
  | _ => fnOff s id

/-- Whether descriptors the store took on before its stop began have still to end (R41). -/
def storeBusy (s : State) : Bool :=
  s.host.flights.any fun f => !f.ended && 0x60 ≤ dOpcode f.raw && dOpcode f.raw ≤ 0x63 && workKept (fnGet s 0x0A00) f

/-- FUNCTION_STOP_COMPLETE. -/
def stopComplete (s : State) (f : FuncRef) : State :=
  match f with
  | .ring kind n => ringStopped s kind n
  | .func id => if !funcKnown id || (fnGet s id).st != .stopping || (id == 0x0A00 && storeBusy s) then s else funcStopped s id

/-! ## OP_FUNC_CTRL (R538) -/

/-- Step 2 of an enable: the status of R41, with the pending enable held where it says FUNCTION_STOPPING. An enable that
starts a pipeline completes when the tests of its STARTING are over (05 R185). -/
def funcEnable (s : State) (f : Flight) (id : Nat) : State :=
  let (s, st) := fnEnable s id
  if st ≠ stOk then reject s f st (funcResult s id)
  else if id / 256 = 3 ∧ (fnGet s id).st = .starting then setProgress s { f with stage := .wait s.tcxo id 2 } 1 0
  else completeOk s f 2 (funcResult s id)

/-- Step 2 of a disable, refused whole where it breaks a limit of R535. -/
def funcDisable (s : State) (f : Flight) (id : Nat) : State :=
  let st := (fnGet s id).st
  if (st == .on || st == .starting) && limitBroken s id then badParam s f 24
  else
    let s := fnDisable s id
    completeOk s f 2 (funcResult s id)

/-- OP_FUNC_CTRL with ACTION 0, 1 or 2. -/
def funcCtrl (s : State) (uid action : Nat) : State :=
  withSub s uid 0x04 26 action [0, 1, 2] fun f =>
    let id := dByte f.raw 24 2
    if f.stage ≠ .none then s
    else if !funcKnown id then badParam s f 24
    else if 2 < dByte f.raw 26 1 then badParam s f 26
    else match action with
      | 0 => funcDisable s f id
      | 1 => funcEnable s f id
      | _ => completeOk s f 2 (funcResult s id)

/-! ## BOOT_READY (16 R478, R479) -/

/-- Every ring of a kind that waits in STARTING arrives. -/
def ringsArrive (s : State) (kind n : Nat) : State := (List.range n).foldl (fun s i => ringArrive s kind i) s

/-- READY sets: completion rings, then submission and reading rings, then functions enabled before. -/
def bootReady (s : State) : State :=
  if s.boot.phase ≠ 7 then s
  else
    let s := { s with boot := { s.boot with phase := 15, ready := true } }
    let s := ringsArrive (ringsArrive (ringsArrive s 1 64) 0 64) 2 16
    s.funcs.foldl (fun s p => if p.2.st == .starting && decide (p.1 / 256 ≤ 2) then funcArrive s p.1 true else s) s

/-! ## OP_ABORT (02 R91) -/

/-- What OP_ABORT finds: the target in flight, newest first. -/
def abortTarget (s : State) (f : Flight) : Option Flight :=
  s.host.flights.reverse.find? fun g =>
    g.uid != f.uid && g.sq == dByte f.raw 24 2 && (dTag g.raw).toNat == dByte f.raw 26 2

/-- Whether a descriptor of the ring and TAG an abort names has completed: its completion was written, or its journal entry
is kept (R91). -/
def abortDone (s : State) (f : Flight) : Bool :=
  (sqGet s (dByte f.raw 24 2)).done.contains (BitVec.ofNat 16 (dByte f.raw 26 2)) ||
    (jrnlFind s (dByte f.raw 24 2) (dByte f.raw 26 2) 0xFFFFFFFF).isSome

/-- A TC0 command past mirror-before-act (R91, 13 R413). -/
def pastMirror (g : Flight) : Bool :=
  match g.stage with
  | .relay _ _ _ _ => dTc g.raw == 0
  | _ => false

/-- Whether a descriptor is within a step, so that it stops at that step's end at the earliest (R91): its frame is out and
its answer awaited, OP_TUNNEL_RX admits frames (04 R126), or OP_CH_LOOPBACK waits for OFF or runs its frames (10 R326). An
object's segments are units of their own. -/
def midStep (s : State) (g : Flight) : Bool :=
  (dOpcode g.raw == 0x30 && g.stage != .none) ||
  (dOpcode g.raw == 0x78 && (match g.stage with
    | .wait _ _ phase => phase != 0 || (fnGet s (0x0100 + dByte g.raw 24 1)).st != .off
    | _ => false)) ||
  (match g.stage with
   | .relay _ _ sent _ => sent
   | .wait _ _ _ => s.cmd.txns.any fun t => t.uid == some g.uid && t.since.isSome && !t.obj
   | _ => false)

/-- Whether a descriptor's steps are done and only its completion is to come. -/
def stepsDone (g : Flight) : Bool := g.ended || (match g.stage with | .drain _ _ _ => true | _ => false)

/-- Another clear of the log than `uid`'s has passed its check and waits (17 R509). -/
def clearWaits (s : State) (uid : Nat) : Bool :=
  s.host.flights.any fun g => dOpcode g.raw == 0x91 && g.uid != uid && g.stage != .none && !g.ended

/-- Take back what a descriptor has under way: its place at admission or in the push buffer, its object's bytes scrubbed
(05 R175), a log clear's hold of the write queue, its distribution, its open transactions and waiting frames. -/
def abortWithdraw (s : State) (g : Flight) : State :=
  let s := { s with host := { s.host with admQ := s.host.admQ.filter fun i => i != .desc g.uid,
                                          pushBuf := s.host.pushBuf.filter fun u => u != g.uid } }
  let s := if dOpcode g.raw = 0x91 then { s with log := { s.log with held := clearWaits s g.uid } } else s
  txnCloseUid (distDrop (objDrop (objScrub s g) g.uid) g.uid) g.uid

/-- OP_ABORT: outcome 0 aborted, 1 already completed, 2 not found, 3 not abortable. It waits while its target is within a
step; a target that ends there has completed before it reached a boundary. The target's completion follows the tail
write-backs of the records it caused, and its own follows the target's (R86). -/
def opAbort (s : State) (uid : Nat) : State :=
  withDesc s uid 0x03 fun f =>
    match abortTarget s f with
    | some g =>
      if stepsDone g then completeAfter s f stOk 0 0 (result4 1 0 0 0) (if g.ended then none else some g.uid)
      else if pastMirror g then completeOk s f 0 (result4 3 0 0 0)
      else if midStep s g then s
      else completeAfter (settle (klFail (abortWithdraw s g) g) g stAborted g.step 0) f stOk 0 0 0 (some g.uid)
    | none => completeOk s f 0 (result4 (if abortDone s f then 1 else 2) 0 0 0)

/-! ## OP_KAT (R182 to R185) -/

/-- Whether every AES pipeline but one is ON. -/

def katResult (failing : Option Nat) (n : Nat) : BitVec 128 :=
  result4 (b2n failing.isSome) n (failing.getD 0xFF) 0

/-- Step 4: the target ON where every vector passed, else OFF; an enable or a disable held meanwhile acts now (R42). -/
def katEnable (s : State) (id : Nat) (pass : Bool) : State :=
  let f := fnGet s id
  let s := fnPut s id { f with st := if pass && !f.disPend then .on else .off, enPend := false, disPend := false }
  if f.enPend && !pass then (fnEnable s id).1 else s

/-- An AES pipeline: disabled under R41 where it is not OFF; once it is OFF, its vectors; back where they pass. -/
def katPipe (s : State) (f : Flight) (t : Nat) (failing : Option Nat) : State :=
  let id := 0x0300 + t
  match f.stage with
  | .none =>
    if !othersOn s t then badParam s f 24
    else if (fnGet s id).st = .off then setProgress s { f with stage := .wait s.tcxo t 0 } 2 0
    else setProgress (fnDisable s id) { f with stage := .wait s.tcxo t 0 } 1 0
  | _ =>
    if (fnGet s id).st ≠ .off then s
    else complete (katEnable s id failing.isNone) f stOk 4 0 (katResult failing 40)

/-- A vector of the SHA (0x10) or ECDSA engine (0x11) has failed (R184). DESIGN CHOICE (log entry 156): R504 lists no code
for it, and 0x0310 and 0x0311 are no FUNC_ID; the event recorded is code 0x0103 with the target in the FUNC_ID's place. -/
def engineFails (s : State) (t : Nat) (ok : Bool) : State :=
  if ok then s else logEvent 0x0103 (0x0300 + t) (ceFault s 10)

/-- The SHA or ECDSA engine, ON throughout; or the DRBG and noise sources, whose count of vectors is not stated. -/
def katEngine (s : State) (f : Flight) (t : Nat) (failing : Option Nat) : State :=
  if t = 0x12 then
    let (n, s) := takeFree s
    complete s f stOk 4 0 (katResult failing (Config.freeNat n))
  else
    complete (engineFails s t failing.isNone) f stOk 4 0 (katResult failing 16)

def opKat (s : State) (uid : Nat) (failing : Option Nat) : State :=
  withDesc s uid 0x90 fun f =>
    let t := dByte f.raw 24 1
    if t < 6 then katPipe s f t failing
    else if t = 0x10 ∨ t = 0x11 ∨ t = 0x12 then katEngine s f t failing
    else badParam s f 24

end Sys2Proof.Machine
end

