-- ==== Sys2Proof/Machine/Boot.lean ====
section
/-!
DEFINITION. RESET_n and start-up: what a reset keeps, the phases of R478 from the power-cycle count to billing catch-up,
configuration copies and their bodies (16 R478 to R485), recovery (R480).
-/
namespace Sys2Proof.Machine
open Sys2Proof

/-! ## RESET_ASSERT (21 R553, R554) -/

/-- The flash media as a reset leaves it: units still programming and entries of an open unit are lost, and the next SSN
follows the highest found (14 R447). -/
def storeKeep (t : StoreSt) : StoreSt :=
  let us := t.units.filter fun u => u.left == 0
  let top := us.foldl (fun n u => u.ents.foldl (fun n e => max n (e.ssn + 1)) n) t.oldest
  { t with units := us, open_ := [], queue := [], next := top, mountFail := false, wrapped := false, holdEst := 0,
           lastFlush := 0, patrol := 0, dies := t.dies.map fun p => (p.1, { p.2 with found := false, reads := [], ppos := 0 }) }

/-- A die in STOPPING stays so in the journal (14 R454). -/
def diesStopping (s : State) : Tab Fn :=
  if storeOn s then s.funcs.filter fun p => p.1 / 256 == 8 && p.2.st == .stopping else []

/-- What MRAM, flash, the battery-backed counter and the board keep through RESET_n; all else is at its reset value. The
device journal is kept where a store held it (03 R111); bytes an object had released are undefined in its buffer (05 R176). -/
def resetKeep (s : State) : State :=
  let on := storeOn s
  let s := (s.ce.objs.filter fun o => o.released != 0).foldl objLost s
  let r := State.reset
  { r with
    pins := { s.pins with resetLow := true }
    funcs := diesStopping s
    host := { r.host with uidNext := s.host.uidNext, delivNext := s.host.delivNext }
    log := { r.log with recs := s.log.recs, reserve := s.log.reserve, next := s.log.next, full := s.log.full,
                        mediaFault := s.log.mediaFault, dropped := s.log.dropped }
    recs := { r.recs with ckpt := if on then s.recs.ckpt else [], ckptEnts := if on then s.recs.ckptEnts else [],
                          jnand := if on then s.recs.jnand else [], jseq := s.recs.jseq }
    upd := { s.upd with fellBack := false, recovery := false, restartDue := false, restarted := false }
    boot := { r.boot with pwrCycles := s.boot.pwrCycles, opSec := s.boot.opSec, opFrac := s.boot.opFrac,
                          inp := s.boot.inp }
    time := { r.time with dt := s.time.dt, savedRate := s.time.savedRate, savedF := s.time.savedF,
                          bbcSec := s.time.bbcSec, bbcFrac := s.time.bbcFrac, bbcAcc := s.time.bbcAcc,
                          rebaseCnt := s.time.rebaseCnt, vbatLow := s.time.vbatLow, utcSet := s.time.utcSet,
                          leapPend := s.time.leapPend, utcCur := s.time.utcCur, utcNext := s.time.utcNext,
                          leapDt := s.time.leapDt, pendReb := s.time.pendReb }
    harn := { r.harn with nvPos := s.harn.nvPos }
    sealU := { r.sealU with ctrNext := s.sealU.ctrLimit, ctrLimit := s.sealU.ctrLimit,
                            signQ := if on then s.sealU.signQ.map fun b => { b with recs := [] } else [] }
    bill := { r.bill with pos := s.bill.pos, posStep := s.bill.posStep, outages := s.bill.outages,
                          outStart := s.bill.outStart, sweeps := if on then s.bill.sweeps else [] }
    chan := { r.chan with banks := s.chan.banks }
    air := { r.air with sfOffset := s.air.sfOffset, duty := s.air.duty }
    store := storeKeep s.store
    met := { r.met with calA := s.met.calA, calB := s.met.calB, calLock := s.met.calLock, latched := s.met.latched,
                        latchDue := s.met.latchDue, sealedDig := s.met.sealedDig, resealSeq := s.met.resealSeq }
    hostMem := s.hostMem
    wire := s.wire
    free := s.free
    pending := s.pending }

/-- RESET_ASSERT: a low pulse below 100 ns is ignored, one of 10 µs or more acts, one between may do either (R554). -/
def resetAssert (s : State) (lowNs : Nat) : State :=
  if s.pins.resetLow || decide (lowNs < 100) then s
  else if 10000 ≤ lowNs then resetKeep s
  else
    let (n, s) := takeFree s
    if Config.freeBool n then resetKeep s else s

/-! ## Configuration bodies (R484) -/

/-- An offset from `lo` to `hi`, by words. -/
def offIn (off lo hi : Nat) : Bool := decide (lo ≤ off ∧ off ≤ hi) && off % 4 == 0

/-- An offset of a repeated block: `count` blocks at a stride, words up to offset `last` in each. -/
def offRun (off base stride count last : Nat) : Bool :=
  decide (base ≤ off ∧ (off - base) / stride < count ∧ (off - base) % stride ≤ last) && off % 4 == 0

/-- Whether Register Map lists an offset (20 R544). -/
def regListed (off : Nat) : Bool :=
  ([(0x00, 0x38), (0x40, 0x44), (0x50, 0x54), (0x60, 0x60), (0x200, 0x218), (0x240, 0x2BC), (0x300, 0x310), (0x400, 0x418),
    (0x500, 0x51C), (0x600, 0x630), (0x640, 0x65C), (0x700, 0x70C), (0x900, 0x918), (0x1000, 0x100C), (0x1040, 0x1080),
    (0x2600, 0x263C), (0x4000, 0x4020), (0x5000, 0x5034)] : List (Nat × Nat)).any (fun p => offIn off p.1 p.2) ||
  ([(0x6000, 0x63FC), (0x6400, 0x6410), (0x6800, 0x6BFC), (0x6C00, 0x6C24), (0x8000, 0x8024), (0x9100, 0x9114),
    (0x9120, 0x912C), (0xA000, 0xA018), (0xA020, 0xA03C), (0xB000, 0xB024), (0xB040, 0xB09C), (0xC000, 0xC018),
    (0xD000, 0xDFFC), (0xE000, 0xE030), (0xE040, 0xE0CC), (0xF000, 0xF018)] : List (Nat × Nat)).any (fun p => offIn off p.1 p.2) ||
  offRun off 0x800 0x20 8 0x10 || offRun off 0x1400 0x20 64 0x18 || offRun off 0x1C00 0x20 64 0x10 ||
  offRun off 0x2400 0x20 16 0x1C

/-- The items of a body: TYPE, LEN, LEN bytes padded to 4. -/
def bodyItems : Nat → List Byte → Option (List (Nat × List Byte))
  | 0, l => if l.isEmpty then some [] else none
  | n + 1, l =>
    if l.isEmpty then some []
    else
      let len := tb2 l 2
      let size := 4 + (len + 3) / 4 * 4
      if l.length < 4 ∨ l.length < size then none
      else (bodyItems n (l.drop size)).map fun t => (tb2 l 0, (l.drop 4).take len) :: t

/-- The pairs of a REG_WRITE item. -/
def regPairs : Nat → List Byte → List (Nat × Word)
  | 0, _ => []
  | n + 1, l => if l.length < 8 then [] else (tb4 l 0, BitVec.ofNat 32 (tb4 l 4)) :: regPairs n (l.drop 8)

/-- A known item whose value is in range; TYPE 5 is not accepted. -/
def itemOk (i : Nat × List Byte) : Bool :=
  match i.1 with
  | 1 => i.2.length % 8 == 0 &&
         (regPairs i.2.length i.2).all fun p => regListed p.1 && !decide (0x4000 ≤ p.1 ∧ p.1 < 0x5000)
  | 2 => i.2.length == 8
  | 3 => true
  | 4 => i.2.length == 4
  | _ => false

/-- No TYPE but REG_WRITE appears twice. -/
def noRepeat : List (Nat × List Byte) → Bool
  | [] => true
  | i :: t => (i.1 == 1 || !(t.any fun j => j.1 == i.1)) && noRepeat t

/-- A valid body (R482, R484). -/
def bodyOk (b : List Byte) : Bool :=
  decide (16 ≤ b.length ∧ b.length ≤ 61440) &&
  match bodyItems b.length b with
  | some l => l.all itemOk && noRepeat l
  | none => false

/-- A valid copy (R483). -/
def cfgValid (u : UpdSt) (c : CfgCopy) : Bool :=
  c.ok && c.seq != 0 && c.seq != u.rejectSeq && decide (1 ≤ c.format.toNat ∧ c.format.toNat ≤ u.cfgFmt)

/-- A copy's body as the running image uses it: migrated where its FORMAT is older (R498). -/
def bodyUsed (u : UpdSt) (c : CfgCopy) : List Byte :=
  if c.format.toNat < u.cfgFmt then Config.migrateBody u.cfgFmt c.body else c.body

/-- The items of the selected copy's body, where one is in force. -/
def cfgItems (s : State) : List (Nat × List Byte) :=
  let b := if cfgValid s.upd (cfgSelected s) then bodyUsed s.upd (cfgSelected s) else []
  ((bodyItems b.length b).getD []).filter itemOk

def cfgItem (s : State) (t : Nat) : Option (List Byte) := ((cfgItems s).find? fun i => i.1 == t).map (·.2)

/-! ## Phases 0x1 to 0x3 -/

def updSet (s : State) (g : UpdSt → UpdSt) : State := { s with upd := g s.upd }

/-- DT from the battery-backed counter, with the rate correction and the integral term saved (15 R462). The counter is the
one the pins show, never behind the one the model counted (log entry 43). -/
def bootTime (s : State) : State :=
  let i := s.boot.inp
  let a := max (s.time.bbcSec.toNat * 32768 + s.time.bbcFrac.toNat) (i.bbcSec * 32768 + i.bbcFrac)
  let t : TimeSt := { s.time with rate := s.time.savedRate, f := s.time.savedF }
  if i.vbatLost then
    let t := { t with dt := 0, dtValid := false, vbatLost := true, bbcSec := 0, bbcFrac := 0, bbcAcc := 0, rebaseCnt := 0,
                      pendReb := none }
    loopLatch (logEvent 0x0903 0 { s with time := t }) 2
  else
    { s with time := { t with dt := BitVec.ofNat 96 (a * 2 ^ 41), dtValid := true, bbcSec := BitVec.ofNat 40 (a / 32768),
                              bbcFrac := BitVec.ofNat 15 a } }

/-- A pending rebase is applied once, or has been applied and is cleared (15 R470). -/
def bootRebase (s : State) : State :=
  match s.time.pendReb with
  | none => s
  | some (shift, c) =>
    let s := timeSet s fun t => { t with pendReb := none }
    if s.time.rebaseCnt + 1 = c then timeSet (dtJump s (nsUnits shift)) fun t => { t with rebaseCnt := c } else s

/-- Openings the backup domain latched while unpowered are recorded (09 R288). -/
def bootLatch (s : State) : State :=
  let s := s.met.latchDue.foldl (fun s k => loopLog s k) s
  metSet s fun m => { m with latchDue := [] }

/-- A failed trial: REJECT_SEQ, IDLE, FELL_BACK, code 0x0A01 (R493). -/
def trialFail (s : State) : State :=
  let slot := b2n s.upd.trialSlot
  logEvent 0x0A01 slot (updSet s fun u => { u with rejectSeq := u.stagedSeq, state := 0, fellBack := true })

/-- Phase 0x2: the update record settles (R481). -/
def settleUpd (s : State) : State :=
  match s.upd.state with
  | 2 => updSet s fun u => { u with rejectSeq := u.stagedSeq, state := if u.kindCfg then 0 else 1 }
  | 3 => updSet s fun u => { u with rejectSeq := u.stagedSeq, state := 1 }
  | 4 => updSet s fun u => { u with state := 5, trialSlot := u.runSlot, boots := 1, trialStart := s.boot.opSec }
  | 5 =>
    let s := updSet s fun u => { u with boots := u.boots + 1 }
    if 4 ≤ s.upd.boots then trialFail s else s
  | _ => s

def slotFound (s : State) (b : Bool) : SlotIn := if b then s.boot.inp.slotB else s.boot.inp.slotA

/-- The NOR bytes of a slot. -/
def norOf (u : UpdSt) (b : Bool) : Tab Byte := if b then u.norB else u.norA

/-- Four bytes of a slot's container. -/
def norWord (u : UpdSt) (b : Bool) (at_ : Nat) : Word := BitVec.ofNat 32 (leNat (memRead (norOf u b) at_ 4))

/-- Phase 0x3, once a slot has passed: its image runs (R478, R486). -/
def slotBoot (s : State) (b : Bool) : State :=
  let x := slotFound s b
  let s := { s with boot := { s.boot with slot := b, dFw := x.dFw, dLm := x.dLm, phase := 4 }
                    recs := { s.recs with fmt := x.recFmt } }
  updSet s fun u => { u with fwVersion := norWord u b 16, fwSecVer := norWord u b 12, cfgFmt := x.cfgFmt,
                             old := slotFound s u.runSlot }

/-- A slot refused at boot: LAST_FAIL and code 0x0A01. -/
def slotRefuse (s : State) (b : Bool) : State :=
  let r := (slotFound s b).reason
  logEvent 0x0A01 (b2n b + 256 * r) { s with boot := { s.boot with lastFail := BitVec.ofNat 8 r } }

/-- Phase 0x3: the slot the update record names, else the other as a confirmed image with the record rewritten to match,
else recovery. -/
def slotPhase (s : State) : State :=
  let b := if s.upd.state = 5 then s.upd.trialSlot else s.upd.runSlot
  if (slotFound s b).reason = 0 then slotBoot s b
  else
    let s := slotRefuse s b
    if (slotFound s (!b)).reason = 0 then
      slotBoot (updSet s fun u => { u with runSlot := !b, state := 0 }) (!b)
    else
      let s := slotRefuse s (!b)
      { s with upd := { s.upd with recovery := true }, boot := { s.boot with phase := 14 } }

/-! ## Phase 0x4: configuration copy, measurement, sealing root, roots -/

/-- The copy boot takes: the valid one with the higher SEQ; in IDLE it becomes CONF_SEQ. -/
def cfgSelect (s : State) : State × Bool :=
  let a := cfgValid s.upd s.upd.copyA
  let b := cfgValid s.upd s.upd.copyB
  let sel := b && (!a || decide (s.upd.copyA.seq.toNat < s.upd.copyB.seq.toNat))
  let s := updSet s fun u => { u with selected := sel }
  (if (a || b) && s.upd.state == 0 then updSet s fun u => { u with confSeq := (cfgSelected s).seq } else s, a || b)

/-- A root entry at start: CUR, then FWD, whichever unwraps under the sealing root first (06 R195). The second answer says
that FWD was taken. -/
def rootUnwrap (sr : BitVec 256) (n : Nat) (e : RootEnt) : RootEnt × Bool :=
  let chk := fun b => blobCheck b sr (0x20000000 + n) 0x10000000 e.gen 0
  if e.empty then (e, false)
  else match e.cur, chk e.cur with
    | some b, none => ({ e with key := some b.material }, false)
    | _, _ => match e.fwd, chk e.fwd with
      | some b, none => ({ e with key := some b.material }, true)
      | _, _ => ({ e with key := none }, false)

/-- M and the sealing root; then the roots; code 0x0302 for each that is lost (06 R190, R191, R195). -/
def rootPhase (s : State) (cfg : Bool) : State × Bool :=
  let dCfg := Config.sha384 (if cfg then (cfgSelected s).body else [])
  let m := measure s.boot.dFw s.boot.dLm dCfg
  let sr := sealRoot m
  let s := { s with boot := { s.boot with m := m, dCfg := dCfg } }
  let un := (if cfg then (cfgSelected s).roots else []).map fun p => (p.1, rootUnwrap sr p.1 p.2)
  let roots := un.map fun p => (p.1, p.2.1)
  let s := { s with keys := { s.keys with roots := roots, srCur := sr, srValid := true, rootLost := rootsLost roots } }
  let s := roots.foldl (fun s p =>
    if !p.2.empty && p.2.key.isNone then logEvent 0x0302 (0x20000000 + p.1 + 2 ^ 32 * 0xFF) s else s) s
  (s, un.any fun p => p.2.2)

/-- After a start in IDLE that took a root from FWD: a new copy with each FWD blob moved to CUR (R485, 06 R224). -/
def rootMove (s : State) : State :=
  let g : Nat × RootEnt → Nat × RootEnt := fun p => (p.1, if p.2.fwd.isSome then { p.2 with cur := p.2.fwd, fwd := none } else p.2)
  let roots := s.keys.roots.map g
  cfgKeySection { s with keys := { s.keys with roots := roots } } roots

def keyPhase (s : State) : State :=
  let (s, cfg) := cfgSelect s
  let (s, fwd) := rootPhase s cfg
  if fwd && s.upd.state == 0 then rootMove s else s

/-! ## Phase 0x5: cores, memory, tests, REG_WRITE items, the harness -/

/-- A noise source has failed its start-up test (R163). -/
def sourceFails (s : State) (src : Nat) (ok : Bool) : State := if ok then s else logEvent 0x0301 src (ceFault s (6 + src))

/-- Pipelines that pass are ON; the engines, noise sources and the DRBG as found, what failed flagged and recorded (05
R186, R163, R164, R184). -/
def testPhase (s : State) : State :=
  let i := s.boot.inp
  let s := sourceFails (sourceFails (engineFails (engineFails s 0x10 i.shaOk) 0x11 i.ecdsaOk) 0 i.entA) 1 i.entB
  let s := (List.range 6).foldl (fun s p => if i.pipeFail.contains p then s else fnPut s (0x0300 + p) ⟨.on, false, false, []⟩) s
  { s with ce := { s.ce with entA := i.entA, entB := i.entB, drbgOk := i.entA || i.entB, exhausted := !(i.entA || i.entB),
                             shaOn := i.shaOk, ecdsaOn := i.ecdsaOk, reqs := 0 } }

/-- Every REG_WRITE item in list order (R484). -/
def regPhase (s : State) : State :=
  (cfgItems s).foldl (fun s i =>
    if i.1 = 1 then (regPairs i.2.length i.2).foldl (fun s p => barWrite s p.1 p.2) s else s) s

/-- The fields a start takes (20 R548), the security floor of the configuration, and the window of a trial begun here. -/
def fieldPhase (s : State) (begun : Bool) : State :=
  let m := regGet s 0xB000
  let s := { s with rp := { s.rp with quarMib := regFld s 0x200 16 8 } }
  let s := metSet s fun t => { t with inf := fld m 1 3, bal := fld m 4 3, cal := fld m 16 6 }
  let min := match cfgItem s 4 with | some b => BitVec.ofNat 32 (tb4 b 0) | none => 0
  updSet s fun u => { u with secVerMin := min, trialWin := if begun then regFld s 0xE000 0 8 else u.trialWin }

/-- The harness by its straps: a lead forms a ring of one, a member starts its join (13 R400, R409). -/
def harnPhase (s : State) : State :=
  let mode := s.boot.inp.harnMode % 4
  let s := { s with pins := { s.pins with harnMode := mode } }
  if mode = 2 then
    let id := match cfgItem s 2 with | some b => BitVec.ofNat 64 (leNat b) | none => 0
    harnSet s fun h => { h with joined := true, phase := 4, joinedM := 1, ringId := id }
  else if mode = 1 then harnSet s fun h => { h with phase := 1 }
  else if mode = 3 then ringLog s 0 3
  else s

def loadPhase (s : State) (begun : Bool) : State :=
  let s := { s with glob := { s.glob with cores := [0, 0, 0, 0] }, recs := { s.recs with dramMib := s.boot.inp.dramMib } }
  let s := newNonce (metNonce (testPhase s))
  harnPhase (fieldPhase (regPhase s) begun)

/-! ## Phase 0x6: store, records, pins -/

/-- The dies found come up, but for those that have failed (14 R427, R428). -/
def diePhase (s : State) : State :=
  let i := s.boot.inp
  let s := storeSet s fun t => { t with geom := i.geom.take 5 ++ t.geom.drop 5 }
  (i.dies.filter fun n => decide (n < 32)).foldl (fun s n =>
    let s := diePut s n { dieGet s n with found := true }
    if (dieGet s n).failed || (fnGet s (0x0800 + n)).st != .off then s else fnPut s (0x0800 + n) ⟨.on, false, false, []⟩) s

/-- The store mounts where it can (14 R448); a fresh format holds no journal. -/
def mountPhase (s : State) : State :=
  if storeMounts s then
    let s := if s.store.rootOk then s else { s with recs := { s.recs with ckpt := [], ckptEnts := [], jnand := [] } }
    fnPut (storeMount s) 0x0A00 ⟨.on, false, false, []⟩
  else storeSet s fun t => { t with mountFail := t.dies.any fun p => p.2.found }

/-- Records and the other journaled state; without a store every record is FREE (03 R111), and so without the least DRAM
(03 R99). -/
def recPhase (s : State) (off : Nat) : State :=
  let s := if storeOn s then rebuild s off else s
  let s := if epCapacity s = 0 then { s with recs := { s.recs with tab := [], pins := [] } } else s
  { s with recs := { s.recs with migrate := s.recs.tab.any fun p => decide (p.2.version.toNat < s.recs.fmt.toNat) } }

/-! ## Phase 0x7 and the whole start -/

/-- A change of TAI−UTC that fell due while unpowered, then billing catch-up (15 R475, 08 R269). Without a valid DT it
waits. -/
def billPhase (s : State) : State :=
  let s := { s with boot := { s.boot with phase := 7 } }
  if s.time.dtValid then billStart (leapChange s) else s

/-- D_lm changed while the seal was SEALED (09 R291). -/
def lmPhase (s : State) : State :=
  if s.met.calLock && !s.met.latched && s.met.sealedDig != s.boot.dLm then loopLog s 3 else s

/-- What the health reference of R494 records. -/
def healthNow (s : State) : Health :=
  ⟨(List.range 6).map fun p => fnOn s (0x0300 + p), storeOn s, s.harn.joined, fnOn s 0x0B00⟩

/-- Phases 0x2 to 0x7 for the straps and media found. -/
def bootRun (s : State) (off : Nat) : State :=
  let was := s.upd.state
  let s := slotPhase (settleUpd { s with boot := { s.boot with phase := 2 } })
  if s.upd.recovery then s
  else
    let begun := was == 4
    let s := lmPhase (loadPhase (keyPhase s) begun)
    let s := billPhase (recPhase (mountPhase (diePhase s)) off)
    if begun then updSet s fun u => { u with health := healthNow s } else s

/-- At a first start with no committed record the log writes code 0x0001 with SEQ 0 (17 R509). -/
def logFirstStart (s : State) : State :=
  if s.log.recs.isEmpty && s.log.reserve.isEmpty then logCommit s (logOwn s 0x0001 0) else s

/-- Phase 0x1: the power-cycle count, the first log record, DT, the pending rebase, the loop; what of the span unpowered
passed in 2^-24 s. -/
def bootFirst (s : State) : State × Nat :=
  let was := (dtOf s).toNat
  let s := logFirstStart { s with boot := { s.boot with phase := 1, pwrCycles := s.boot.pwrCycles + 1 } }
  let s := bootTime (bootLatch s)
  let off := if s.time.dtValid then (dtOf s).toNat - was else 0
  (bootRebase s, off)

/-- A start for findings `inp`; while PFAIL_n is low it holds phase 0x1 (21 R559). -/
def bootFrom (s : State) (inp : BootIn) : State :=
  let s := { s with pins := { s.pins with resetLow := false, pfailLow := inp.pfailLow, tap := if s.pins.tap ≤ 2 then s.pins.tap else 0 }
                    boot := { s.boot with inp := inp }
                    glob := { s.glob with code := BitVec.ofNat 8 (regFld s 0x18 8 8) }
                    chan := { s.chan with banks := (List.range 4).map fun g => bankLevel (lget 0 inp.banksMv g) } }
  if inp.pfailLow then s
  else
    let (s, off) := bootFirst s
    bootRun s off

/-- RESET_RELEASE, TEST_EN low. -/
def resetRelease (s : State) (inp : BootIn) : State := if s.pins.resetLow then bootFrom s inp else s

/-- PFAIL_DEASSERT: a start held in phase 0x1 goes on; otherwise ingest stays stopped until the next reset (21 R559). -/
def pfailDeassert (s : State) : State :=
  let s' := { s with pins := { s.pins with pfailLow := false } }
  if s.pins.pfailLow && !s.pins.resetLow && s.boot.phase == 1 && !s.rp.stopped then
    let (t, off) := bootFirst s'
    bootRun t off
  else s'

end Sys2Proof.Machine
end

