-- ==== Sys2Proof/Machine/Pfail.lean ====
section
/-!
DEFINITION. PFAIL_n: ingest stops, the reading path drains, boundaries and the open batch close, the power-fail
checkpoint and the hold-up flush (14 R445; 08 R268; 07 R231, R240; 15 R462; 21 R558, R559).
-/
namespace Sys2Proof.Machine
open Sys2Proof

/-- Every pool full: what the expanders make while the path drains (05 R156). -/
def poolsFull (s : State) : State :=
  (List.range 5).foldl (fun s p => (List.range (poolDepth p - pool s p)).foldl (fun s _ => maskRefill s p) s) s

/-- One item through each stage of the reading path. -/
def drainRound (s : State) : State :=
  let s := (List.range 64).foldl (fun s ch => parseAndClassify s false ch) s
  let s := (List.range 4).foldl (fun s g => parseAndClassify s true g) s
  let s := keyUnwrap (tc0Admission (poolsFull s))
  let s := (List.range 6).foldl (fun s p => decryptVerify s p false false) s
  let s := storeAppend (sealStep (postingRow (validationRow s)))
  (List.range 16).foldl readingDelivery s

/-- Items on the reading path. -/
def pathItems (s : State) : Nat :=
  (s.chan.tab.map fun p => p.2.rx.length).sum + (s.rp.tunnel.map (·.length)).sum + s.rp.parsed.length + s.rp.cipherQ.length +
  s.rp.tc0Q.length + s.rp.validQ.length + s.rp.postQ.length + s.sealU.queue.length + s.store.queue.length +
  s.host.deliv.length + s.keys.missQ.length

/-- The path drained: enough rounds for every item to pass every stage that can take it. -/
def drainPath (s : State) : State := (List.range (4 * pathItems s + 8)).foldl (fun s _ => drainRound s) s

/-- Every closed batch signed. -/
def signAll (s : State) : State := (List.range s.sealU.signQ.length).foldl (fun s _ => batchSign s) s

/-- Step 2 of R445: the path drains, due boundaries are processed, the open batch closes with POWER and is signed, and
BILL_POS and the outage start go to MRAM (R268). -/
def pfailPath (s : State) : State :=
  let at_ := dtOf s
  let s := boundaryCatchUp (drainPath s)
  let s := signAll (if s.sealU.batch.isSome then batchClose s 3 else s)
  let s := (List.range s.store.queue.length).foldl (fun s _ => storeAppend s) s
  rateSave { s with bill := { s.bill with outStart := some at_ } }

/-- PFAIL_ASSERT: a low level below 1 µs is ignored, and so is one while RESET_n is low. The steps of R445 are one step of
the model, so a reset cannot cut them (log entry 45). -/
def pfailAssert (s : State) (lowNs : Nat) : State :=
  if s.pins.resetLow || s.pins.pfailLow || decide (lowNs < 1000) then s
  else
    let s := { s with pins := { s.pins with pfailLow := true }, rp := { s.rp with stopped := true } }
    holdupFlush (pfailPath s)

end Sys2Proof.Machine
end

