-- ==== Sys2Proof/Machine/Update.lean ====
section
/-!
DEFINITION. Firmware and configuration update: Lumkar containers, the update opcodes, trial, confirmation and fallback
(16 R486 to R499; 06 R222 to R224; 01 R39, R40).
-/
namespace Sys2Proof.Machine
open Sys2Proof

/-! ## Lumkar containers (R486, R487), read through a function from byte number to byte -/

def cByte4 (g : Nat → Nat) (a : Nat) : Nat := g a + 256 * g (a + 1) + 65536 * g (a + 2) + 16777216 * g (a + 3)
def cKind (g : Nat → Nat) : Nat := g 7
def cTotal (g : Nat → Nat) : Nat := cByte4 g 8
def cSecVer (g : Nat → Nat) : Nat := cByte4 g 12
def cVersion (g : Nat → Nat) : Nat := cByte4 g 16

/-- TYPE, OFFSET and LEN of a component. -/
def cComp (g : Nat → Nat) (i : Nat) : Nat × Nat × Nat := (g (32 + 64 * i), cByte4 g (36 + 64 * i), cByte4 g (40 + 64 * i))
def cComps (g : Nat → Nat) : List (Nat × Nat × Nat) := (List.range (g 20)).map (cComp g)

/-- A span of zero bytes. -/
def cZero (g : Nat → Nat) (lo n : Nat) : Bool := (List.range n).all fun i => g (lo + i) == 0

/-- Reserved bytes of the header and of the components in use. -/
def cReservedOk (g : Nat → Nat) : Bool :=
  cZero g 21 11 && cZero g 928 96 && (List.range (g 20)).all fun i => cZero g (34 + 64 * i) 2 && cZero g (44 + 64 * i) 4

/-- No two components overlap. -/
def cApart : List (Nat × Nat × Nat) → Bool
  | [] => true
  | c :: t => (t.all fun d => decide (c.2.1 + c.2.2 ≤ d.2.1 ∨ d.2.1 + d.2.2 ≤ c.2.1)) && cApart t

/-- Components within TOTAL_LEN from byte 1,024 on, and as many of each TYPE as the KIND takes. -/
def cCompsOk (g : Nat → Nat) : Bool :=
  let l := cComps g
  let n := fun t => (l.filter fun c => c.1 == t).length
  l.all (fun c => decide (1024 ≤ c.2.1 ∧ c.2.1 + c.2.2 ≤ cTotal g)) && cApart l &&
  (if cKind g = 1 then n 1 == 1 && n 2 == 1 else n 3 == 1)

/-- Reason 1: the structure. -/
def cStructOk (g : Nat → Nat) : Bool :=
  (List.range 7).map g == [0x4C, 0x55, 0x4D, 0x4B, 0x41, 0x52, 1] && decide (1 ≤ cKind g ∧ cKind g ≤ 2) &&
  decide (1 ≤ g 20 ∧ g 20 ≤ 8) && decide (cTotal g ≤ 8388608) && cReservedOk g && cCompsOk g

/-- The first failing check of R487, 0 where all pass: `got`: every sector up to TOTAL_LEN is there; `kind`: the KIND the
operation needs. -/
def cReason (s : State) (g : Nat → Nat) (got : Bool) (kind : Nat) (c : ImgCheck) : Nat :=
  let img := cKind g == 1
  if !cStructOk g then 1
  else if !got then 2
  else if !c.digestsOk then 3
  else if img && !c.vendorKeyOk then 4
  else if img && !c.vendorSigOk then 5
  else if Config.ownerFused == 1 && !c.ownerOk then 6
  else if img && !c.lmOk then 7
  else if cSecVer g < s.upd.floor.toNat ∨ cSecVer g < s.upd.secVerMin.toNat then 8
  else if cKind g ≠ kind then 9
  else 0

/-- IMAGE_INVALID with its reason in RESULT byte 24. -/
def imageInvalid (s : State) (f : Flight) (step reason : Nat) : State := complete s f stImgInvalid step 0 (result4 0 0 reason 0)

/-! ## OP_IMG_BLOCK (R488, R489) -/

/-- The slot a download goes to. -/
def rxSlot (s : State) : Bool := !s.upd.runSlot

def norSet (u : UpdSt) (b : Bool) (t : Tab Byte) : UpdSt := if b then { u with norB := t } else { u with norA := t }

/-- Program a sector's bytes into the receiving slot. -/
def sectorWrite (s : State) (k : Nat) (bytes : List Byte) : State :=
  updSet s fun u => norSet u (rxSlot s) (memWrite (norOf u (rxSlot s)) (4096 * k) bytes)

/-- What an OP_IMG_BLOCK leaves of the update state before it runs: IDLE clears the map, VERIFIED drops the staged copy. -/
def blockEnter (s : State) (restart : Bool) : State :=
  updSet s fun u =>
    { u with sectors := if u.state = 0 ∨ restart then [] else u.sectors,
             rejectSeq := if u.state = 3 then u.stagedSeq else u.rejectSeq, state := 1 }

/-- Sectors `k` on, `n` of them: each is programmed, read back and marked; how many were done, and whether one failed. A
sector that reads back otherwise than written holds free content. -/
def sectorsWrite (first : Nat) (data : List Byte) (bad : Option Nat) : Nat → Nat → State → State × Nat × Bool
  | 0, k, s => (s, k, false)
  | n + 1, k, s =>
    if bad = some k then
      let (x, s) := takeFree s
      (sectorWrite s (first + k) ((List.range 4096).map fun i => Config.freeByte (x * 4096 + i)), k, true)
    else
      let part := (data.drop (4096 * k)).take 4096
      let s := sectorWrite s (first + k) (part ++ List.replicate (4096 - part.length) 0)
      sectorsWrite first data bad n (k + 1) (updSet s fun u => { u with sectors := tset false u.sectors (first + k) true })

/-- OP_IMG_BLOCK. `mismatch`: the sector of the block whose read-back differs, if any. -/
def imgBlock (s : State) (uid : Nat) (data : List Byte) (mismatch : Option Nat) : State :=
  withDesc s uid 0x80 fun f =>
    let len := dBufLen f.raw
    let off := dByte f.raw 24 4
    if len % 4096 ≠ 0 ∨ len < 4096 ∨ 65536 < len then badParam s f 16
    else if off % 4096 ≠ 0 ∨ 8388608 < off + len then badParam s f 24
    else if !(s.upd.state == 0 || s.upd.state == 1 || s.upd.state == 3) then updStateError s f
    else
      let s := blockEnter (bwRx s 66 len) (dAux f.raw % 2 == 1)
      let (s, k, failed) := sectorsWrite (off / 4096) data mismatch (len / 4096) 0 s
      if failed then complete s f stFault 1 k 0 else completeOk s f 3 0

/-! ## Forward roots and staged copies (06 R222, R223) -/

/-- A root's entry in a staged copy: CUR as it stands, FWD under the forward root where the root is available. -/
def rootForward (sr : BitVec 256) (n : Nat) (e : RootEnt) : RootEnt :=
  match e.key with
  | none => { e with fwd := none }
  | some k =>
    let b : Blob := { kek := sr, intact := true, material := k, handle := BitVec.ofNat 32 (0x20000000 + n), parent := 0x10000000,
                      gen := e.gen, typ := 2, usage := match e.cur with | some c => c.usage | none => 0, parentGen := 0,
                      reserved := 0 }
    { e with fwd := some b, key := none }

def rootsForward (s : State) (sr : BitVec 256) : Tab RootEnt := s.keys.roots.map fun p => (p.1, rootForward sr p.1 p.2)

/-- Every root that is not EMPTY has its FWD slot written (R223). -/
def forwardDone (t : Tab RootEnt) : Bool := t.all fun p => p.2.empty || p.2.fwd.isSome

/-- The copy the selected one is not. -/
def cfgOther (s : State) : CfgCopy := if s.upd.selected then s.upd.copyA else s.upd.copyB
def cfgOtherPut (s : State) (c : CfgCopy) : State :=
  updSet s fun u => if u.selected then { u with copyA := c } else { u with copyB := c }

def srForward (s : State) (sr : BitVec 256) : State := { s with keys := { s.keys with srFwd := sr, fwdValid := true } }

/-! ## OP_IMG_VERIFY (R490) -/

def norByte (s : State) : Nat → Nat := fun a => (memByte (norOf s.upd (rxSlot s)) a).toNat

/-- Every sector of the container has been received. -/
def sectorsGot (s : State) : Bool := (List.range ((cTotal (norByte s) + 4095) / 4096)).all fun k => tget false s.upd.sectors k

/-- Steps 3 and 4: the staged copy with forward roots; none of it in recovery (R480). -/
def verifyStage (s : State) (c : ImgCheck) : State :=
  if s.upd.recovery then updSet s fun u => { u with state := 3 }
  else
    let sr := sealRoot (measure c.dFw c.dLm s.boot.dCfg)
    let seq := (cfgSelected s).seq + 1
    let s := srForward s sr
    let s := cfgOtherPut s { cfgSelected s with ok := true, seq := seq, roots := rootsForward s sr }
    updSet s fun u => { u with state := 3, stagedSeq := seq, kindCfg := false }

/-- OP_IMG_VERIFY. -/
def imgVerify (s : State) (uid : Nat) (c : ImgCheck) : State :=
  withDesc s uid 0x81 fun f =>
    if !(s.upd.state == 1 || s.upd.state == 3) then updStateError s f
    else
      let g := norByte s
      let r := cReason s g (sectorsGot s) 1 c
      if r ≠ 0 then imageInvalid (updSet s fun u => { u with state := 1 }) f 1 r
      else completeOk (verifyStage s c) f 4 (result4 (cVersion g) (cSecVer g) 0 0)

/-! ## The switch of images (R491, R493) -/

/-- Work a control core holds for a descriptor is given up: DEVICE_FAULT_PARTIAL with its journaled progress (01 R40, R492). -/
def coreDrop (s : State) (f : Flight) : State := complete (abortWithdraw s f) { f with started := true } stFault f.step f.units 0

/-- The firmware-executed descriptors held by the cores `p` names, the descriptor `but` aside (01 R581). -/
def coreHolds (s : State) (p : Nat → Bool) (but : Nat) : List Flight :=
  s.host.flights.filter fun f =>
    !f.ended && !f.inPush && f.uid != but && (match opCore (dOpcode f.raw) with | some k => p k | none => false)

def coresDrop (s : State) (p : Nat → Bool) (but : Nat) : State := (coreHolds s p but).foldl coreDrop s

/-- The image in use now, as a slot's check would give it. -/
def imageNow (s : State) : SlotIn := ⟨0, s.boot.dFw, s.boot.dLm, s.recs.fmt, s.upd.cfgFmt⟩

/-- Cores and legal-metrology component switch to an image in a slot, under the sealing root of its measurement and the
configuration copy selected. -/
def imageSwitch (s : State) (x : SlotIn) (slot : Bool) : State :=
  let s := { s with boot := { s.boot with dFw := x.dFw, dLm := x.dLm }, recs := { s.recs with fmt := x.recFmt } }
  let s := updSet s fun u => { u with fwVersion := norWord u slot 16, fwSecVer := norWord u slot 12, cfgFmt := x.cfgFmt }
  let s := (rootPhase { s with keys := { s.keys with fwdValid := false } } (cfgSelected s).ok).1
  let s := { s with recs := { s.recs with migrate := s.recs.tab.any fun p => decide (p.2.version.toNat < s.recs.fmt.toNat) } }
  lmPhase s

/-- Steps 3 and 4 of OP_IMG_ACTIVATE. The incoming image completes it. -/
def activateTrial (s : State) (f : Flight) (x : SlotIn) : State :=
  let s := coresDrop s (fun _ => true) f.uid
  let s := updSet s fun u =>
    { u with state := 5, trialSlot := !u.runSlot, boots := 1, trialStart := s.boot.opSec, trialWin := regFld s 0xE000 0 8,
             health := healthNow s, old := imageNow s, selected := !u.selected }
  let s := imageSwitch s x s.upd.trialSlot
  completeOk s f 4 (result4 s.upd.fwVersion.toNat 0 0 0)

/-- In recovery: a restart into the new image as a confirmed one (R480). -/
def activateRecovery (s : State) (x : SlotIn) : State :=
  let i := s.boot.inp
  let b := rxSlot s
  let s := updSet s fun u => { u with state := 0, runSlot := b }
  bootFrom (resetKeep s) (if b then { i with slotB := x } else { i with slotA := x })

/-- OP_IMG_ACTIVATE. `x`: what loading the payloads of the slot finds (reason 0: their digests agree). -/
def imgActivate (s : State) (uid : Nat) (x : SlotIn) : State :=
  withDesc s uid 0x82 fun f =>
    if s.upd.state ≠ 3 ∨ (!s.upd.recovery && !forwardDone (cfgOther s).roots) then updStateError s f
    else if x.reason ≠ 0 then imageInvalid (updSet s fun u => { u with state := 1 }) f 1 3
    else if s.upd.recovery then activateRecovery s x
    else activateTrial s f x

/-! ## Trial (R493 to R495) -/

/-- The first item of R494 that fails, 0 while healthy. -/
def healthItem (s : State) : Nat :=
  let h := s.upd.health
  if (List.range 6).any fun p => lget false h.pipes p && !fnOn s (0x0300 + p) then 1
  else if h.store && !storeOn s then 2
  else if h.join && !s.harn.joined then 3
  else if h.time && !fnOn s 0x0B00 then 4
  else if !s.boot.ready then 5
  else if s.upd.restarted then 6
  else 0

/-- A trial that fails while running: an image trial returns to RUN_SLOT's image and its roots, a configuration trial keeps
its copy until the next start (R493). -/
def trialEnds (s : State) : State :=
  let s := trialFail s
  if s.upd.kindCfg then updSet s fun u => { u with restartDue := true }
  else imageSwitch (updSet s fun u => { u with selected := !u.selected }) s.upd.old s.upd.runSlot

/-- TRIAL_WINDOW_EXPIRY. -/
def trialExpiry (s : State) : State :=
  if s.upd.state = 5 ∧ s.upd.trialStart + 60 * s.upd.trialWin ≤ s.boot.opSec then trialEnds s else s

/-- Step 4 of a confirmation: FWD moves to CUR, and a body of an older FORMAT is written migrated, with the roots wrapped
forward for it (R495, R498, 06 R224). -/
def confirmWrite (s : State) : State :=
  let move : Nat × RootEnt → Nat × RootEnt := fun p => (p.1, if p.2.fwd.isSome then { p.2 with cur := p.2.fwd, fwd := none } else p.2)
  let c := cfgSelected s
  let roots := s.keys.roots.map move
  let s := { s with keys := { s.keys with roots := roots } }
  if c.format.toNat < s.upd.cfgFmt then
    let body := Config.migrateBody s.upd.cfgFmt c.body
    let sr := sealRoot (measure s.boot.dFw s.boot.dLm (Config.sha384 body))
    let s := srForward s sr
    let fwd := roots.map fun p => (p.1, { rootForward sr p.1 p.2 with key := p.2.key })
    let s := { s with keys := { s.keys with roots := fwd } }
    let s := cfgOtherPut s { c with ok := true, seq := c.seq + 1, format := BitVec.ofNat 8 s.upd.cfgFmt, body := body,
                                    roots := fwd.map fun p => (p.1, { p.2 with key := none }) }
    updSet s fun u => { u with selected := !u.selected }
  else cfgKeySection s roots

/-- Steps 2 to 4 of a confirmation; SEC_VER_FLOOR rises for an image only (R497). -/
def confirmDo (s : State) : State :=
  let s := updSet s fun u =>
    { u with state := 0, runSlot := u.trialSlot, confSeq := u.stagedSeq,
             floor := if !u.kindCfg && decide (u.floor.toNat < u.fwSecVer.toNat) then u.fwSecVer else u.floor }
  confirmWrite s

/-- OP_IMG_CONFIRM outside a trial. -/
def confirmIdle (s : State) (f : Flight) : State := completeOk s f 1 (result4 1 0 0 0)

/-- A well-formed ACTION, then the state table of R488. -/
def confirmWith (s : State) (uid action : Nat) (g : Flight → State) : State :=
  withSub s uid 0x83 24 action [0, 1] fun f =>
    if 1 < dByte f.raw 24 1 then badParam s f 24 else if s.upd.state ≠ 5 then confirmIdle s f else g f

def imgConfirmAccept (s : State) (uid : Nat) : State :=
  confirmWith s uid 0 fun f =>
    if healthItem s ≠ 0 then reject s f stUpdState (result4 (s.upd.state + 256 * healthItem s) 0 0 0)
    else completeOk (confirmDo s) f 4 0

/-- OP_IMG_CONFIRM with ACTION 1. -/
def imgConfirmReject (s : State) (uid : Nat) : State := confirmWith s uid 1 fun f => completeOk (trialEnds s) f 1 0

/-! ## OP_CONFIG_WRITE (R496) -/

/-- The body a KIND 2 container carries. -/
def containerBody (g : Nat → Nat) (l : List Byte) : List Byte :=
  match (cComps g).find? fun c => c.1 == 3 with
  | some c => (l.drop c.2.1).take c.2.2
  | none => []

/-- A SEQ at or below that of a valid copy. -/
def seqStale (s : State) (seq : Nat) : Bool :=
  (cfgValid s.upd s.upd.copyA && decide (seq ≤ s.upd.copyA.seq.toNat)) ||
  (cfgValid s.upd s.upd.copyB && decide (seq ≤ s.upd.copyB.seq.toNat))

/-- Whether the copy in use is not the confirmed one: after a configuration trial that failed while running (R493). -/
def confirmedApart (s : State) : Bool := s.upd.restartDue && (cfgOther s).seq == s.upd.confSeq

/-- Write the copy that is not the confirmed one (R496). -/
def unconfirmedPut (s : State) (c : CfgCopy) : State :=
  if confirmedApart s then updSet s fun u => if u.selected then { u with copyB := c } else { u with copyA := c }
  else cfgOtherPut s c

/-- Steps 2 to 4. -/
def configStage (s : State) (f : Flight) (seq : Nat) (body : List Byte) : State :=
  let sr := sealRoot (measure s.boot.dFw s.boot.dLm (Config.sha384 body))
  let roots := rootsForward s sr
  if !forwardDone roots then updStateError s f
  else
    let s := unconfirmedPut (srForward s sr) { ok := true, seq := BitVec.ofNat 32 seq, format := BitVec.ofNat 8 s.upd.cfgFmt,
                                               roots := roots, body := body }
    completeOk (updSet s fun u => { u with state := 4, stagedSeq := BitVec.ofNat 32 seq, kindCfg := true }) f 4 0

/-- OP_CONFIG_WRITE. The reason code of a body that fails R484 is stated nowhere: it is free. -/
def configWrite (s : State) (uid : Nat) (l : List Byte) (c : ImgCheck) : State :=
  withDesc s uid 0x84 fun f =>
    let l := l.take (dBufLen f.raw)
    let g := fun a => (lget 0 l a).toNat
    if 62464 < dBufLen f.raw then badBuf s f 16
    else if !(s.upd.state == 0 || s.upd.state == 4) then updStateError s f
    else
      let s := bwRx s 66 (dBufLen f.raw)
      let r := if l.length < cTotal g then 1 else cReason s g true 2 c
      if r ≠ 0 then imageInvalid s f 0 r
      else if !bodyOk (containerBody g l) then
        let (n, s) := takeFree s
        imageInvalid s f 0 (Config.freeNat n % 256)
      else if seqStale s (dByte f.raw 24 4) then reject s f stCfgStale 0
      else configStage s f (dByte f.raw 24 4) (containerBody g l)

end Sys2Proof.Machine
end

