-- ==== Sys2Proof/Machine/Faults.lean ====
section
/-!
DEFINITION. Pace monitor and supply request (01 R19 to R22), control-core restarts (01 R40, 19 R530), the scrub and
uncorrectable codewords (19 R529, R532, R536), boundary scan (19 R537), loss of the PCIe link (05 R176).
-/
namespace Sys2Proof.Machine
open Sys2Proof

/-! ## Pace and supply (01 R19 to R22) -/

/-- ST_PS below 95 % of the target. -/
def paceFast (s : State) : Bool := decide (100 * s.glob.stPs.toNat < 95 * vreqTarget s)

/-- Since when ST_PS has stayed below 95 % of the target: kept, begun or ended by the newest measurement (R22). -/
def paceBelow (s : State) : State :=
  { s with glob := { s.glob with below := if paceFast s then some (s.glob.below.getD s.tcxo) else none } }

/-- PACE_MEASUREMENT. -/
def paceMeasure (s : State) (ps : Nat) : State :=
  let p := BitVec.ofNat 16 ps
  paceBelow { s with glob := { s.glob with stPs := p, valid := true,
                                           peak := if s.glob.peak.toNat < p.toNat then p else s.glob.peak } }

/-- Whether ST_PS has stayed below 95 % of the target for 1 ms (R22). -/
def paceStayed (s : State) : Bool :=
  paceFast s && (match s.glob.below with | some t => msPassed s t 1 | none => false)

/-- The adaptive code's next value: up by one, down by one, or held, within 0 to 250 (R22). -/
def vreqNext (code : Nat) (slow high stayed : Bool) : Nat :=
  if slow || high then min 250 (code + 1)
  else if stayed then code - 1
  else code

/-- VREQ_ADJUST: one period of 100 µs. While EN is 0 the code is FIXED_CODE (R21). -/
def vreqAdjust (s : State) : State :=
  let s := paceBelow s
  if vreqEn s then
    let slow := decide (vreqTarget s < s.glob.stPs.toNat)
    let code := vreqNext (min 250 s.glob.code.toNat) slow (anyQueueHigh s) (paceStayed s)
    { s with glob := { s.glob with code := BitVec.ofNat 8 code } }
  else { s with glob := { s.glob with code := vreqFixed s } }

/-! ## Control cores (01 R40, R581; 19 R530) -/

/-- Set a core's state. -/
def coreSet (s : State) (k v : Nat) : State := { s with glob := { s.glob with cores := lset s.glob.cores k v } }

/-- A control-core restart in a trial counts as a boot of it (16 R493). -/
def trialBoot (s : State) : State :=
  if s.upd.state = 5 then
    let s := updSet s fun u => { u with boots := u.boots + 1 }
    if 4 ≤ s.upd.boots then trialEnds s else s
  else s

/-- CONTROL_CORE_RESTART of a running or paused core. -/
def coreRestart (s : State) (k cause : Nat) : State :=
  if coreState s k = 0 ∨ coreState s k = 1 then
    let s := coreSet (coresDrop s (fun c => c == k) 0) k 2
    trialBoot (updSet (logEvent 0x0104 (k + 256 * cause) s) fun u => { u with restarted := true })
  else s

/-- CORE_RESTART_COMPLETE: the cores are loaded from phase 0x5 on (16 R478). -/
def coreReturn (s : State) (k : Nat) : State :=
  if coreState s k = 2 ∧ (s.boot.phase = 7 ∨ s.boot.phase = 15) then coreSet s k 0 else s

/-! ## Uncorrectable codewords (19 R532)

Where a codeword lies, and its `key`: 0 an endpoint record (EID), 1 a key directory entry (handle), 2 a map piece, 3 a
batch log or balance record copy, 4 a kennel slot (slot), 5 a pipeline's stage (pipeline) or the hold buffer (above 5), 6 a harness ring frame
(port), 7 the queue entry of a frame not yet acknowledged (frame), 8 of a frame already acknowledged (frame), 9 of a
descriptor (uid). -/

/-- FLT_UE_SRC.SRC of a location (R541). -/
def ueSrc (loc : Nat) : BitVec 3 := if loc < 4 then 1 else if loc = 4 then 4 else if loc = 6 then 3 else 2

/-- Counter, UE_SEEN, latch, error vector. -/
def ueReport (s : State) (loc : Nat) (addr : BitVec 64) : State :=
  let first := !s.flt.ueSeen
  let s := cnt s 419
  errVector { s with flt := { s.flt with ueSeen := true, ueCnt := satInc s.flt.ueCnt,
                                         src := if first then ueSrc loc else s.flt.src,
                                         ueAddr := if first then addr else s.flt.ueAddr } }

/-- The shadow holds a complete copy (13 R415). -/
def mirrorWhole (s : State) : Bool := s.harn.outState == 2

/-- A record is fetched back from the mirror, or rebuilt from the store with the journal tail DRAM still holds (03 R110). -/
def ueRecord (s : State) (eid : Nat) : State :=
  if mirrorWhole s then s
  else
    let nand := s.recs.jnand
    let s := rbRecord { s with recs := { s.recs with jnand := nand ++ s.recs.jtail ++ s.recs.jwait } } eid
    { s with recs := { s.recs with jnand := nand } }

/-- A directory entry: the newest the mirror, the checkpoint or the journal holds. -/
def ueDir (s : State) (h : Nat) : State :=
  if mirrorWhole s then s
  else
    let pick : JEnt → Option DirEnt := fun e => match e with | .dir n d => if n = h then some d else none | _ => none
    let l := (s.recs.ckptEnts ++ (s.recs.jnand ++ s.recs.jtail ++ s.recs.jwait).map (·.ent)).filterMap pick
    dirPut s h (l.getLast?.getD DirEnt.empty)

/-- A kennel slot: zeroed, and its key unwrapped again from its blob; one that work still uses, or that is pinned for the
west neighbour, is reloaded in place. -/
def ueSlot (s : State) (i : Nat) : State :=
  let x := slotGet s i
  if x.st ≠ 2 then s
  else if 0 < x.refs || x.shadow then cnt (cnt s 237) 238
  else
    let s := slotPut (cnt s 237) i Slot.free
    if (handleEid s x.handle).isSome then
      if s.keys.missQ.length < 448 then missTake s ⟨0, x.handle, x.gen, false⟩ else s
    else (ensureDir s x.handle x.pin).getD s

/-- A received frame not yet acknowledged is discarded; the meter retries. -/
def ueFrame (s : State) (id : Nat) : State :=
  let hit := fun (x : RxF) => x.id == id
  let s' := { s with chan := { s.chan with tab := s.chan.tab.map fun p => (p.1, { p.2 with rx := p.2.rx.filter fun x => !hit x }) } }
  if s.chan.tab.any fun p => p.2.rx.any hit then cnt s' 198 else s

/-- An item of a reading-path queue is lost. -/
def ueItem (s : State) (id : Nat) : State :=
  let g := fun (l : List RpItem) => l.filter fun x => x.id != id
  rpSet s fun r => { r with parsed := g r.parsed, cipherQ := g r.cipherQ, tc0Q := g r.tc0Q, validQ := g r.validQ, postQ := g r.postQ }

/-- Whether an item has passed the replay check: the counter it took is then written back though its reading is lost (03
R95). -/
def ueCounter (s : State) (it : RpItem) : State :=
  if (s.rp.validQ ++ s.rp.postQ).any fun x => x.id == it.id then itemTouched s it false id else s

/-- The reading-path queue entry of a number, its kennel references released. -/
def ueAcked (s : State) (id : Nat) : State :=
  match (s.rp.parsed ++ s.rp.cipherQ ++ s.rp.tc0Q ++ s.rp.validQ ++ s.rp.postQ).find? fun x => x.id == id with
  | some it =>
    let s := ueItem (itemRelease (ueCounter s it) it) id
    if it.tc0 then rpSet s fun r => { r with tc0Frames := r.tc0Frames - 1 } else s
  | none => s

/-- A queued descriptor. -/
def ueDesc (s : State) (uid : Nat) : State :=
  match flightOf s uid with
  | some f => if f.ended then s else coreDrop s f
  | none => s

/-- A pipeline's stage (5, keys 0 to 5): the item in it is flagged, PIPE_FAULT set, and the item is run again elsewhere as
R178 has it. An item of the hold buffer (keys above) is decrypted again from its retained input, to the same bytes. -/
def ueStage (s : State) (p : Nat) : State :=
  if p < 6 ∧ (fnGet s (0x0300 + p)).st ≠ .off then stageSet (ceFault s p) p true else s

/-- UNCORRECTABLE_CODEWORD: the report, then what its location calls for. -/
def ueHandle (s : State) (loc key : Nat) (addr : BitVec 64) : State :=
  let s := ueReport s loc addr
  match loc with
  | 0 => ueRecord s key
  | 1 => ueDir s key
  | 4 => ueSlot s key
  | 5 => ueStage s key
  | 6 => replayResend s key
  | 7 => ueFrame s key
  | 8 => ueAcked s key
  | 9 => ueDesc s key
  | _ => s

/-! ## The scrub (R529, R536) -/

def rankGet (s : State) (r : Nat) : Rank := lget Rank.idle s.flt.ranks r
def rankPut (s : State) (r : Nat) (x : Rank) : State := { s with flt := { s.flt with ranks := lset s.flt.ranks r x } }

/-- Codewords of one of the two ranks: 16 data bytes each. -/
def rankWords (s : State) : Nat := s.recs.dramMib * 32768

/-- One symbol position corrected; in 64 or more codewords of a pass it is weak. -/
def symbolFix (s : State) (r pos : Nat) : State :=
  let x := rankGet s r
  let n := tget 0 x.perPos pos + 1
  let s := rankPut (cnt s 416) r { x with perPos := tset 0 x.perPos pos n, weak := if 64 ≤ n then BitVec.ofNat 8 pos else x.weak }
  if 64 ≤ n then { s with flt := { s.flt with dramWeak := true } } else s

/-- One codeword further in the pass. -/
def rankStep (s : State) (r : Nat) : State :=
  let x := rankGet s r
  if rankWords s ≤ x.words + 1 then rankPut s r { x with words := 0, perPos := [], passes := x.passes + 1 }
  else rankPut s r { x with words := x.words + 1 }

/-- What reading a codeword does. Three or more symbols in error: detected at an address nobody knows, miscorrected, or
passed unchanged, as a free value has it. -/
def codeword (s : State) (r : Nat) (x : CwRead) : State :=
  match x with
  | .clean => s
  | .one pos => symbolFix s r pos
  | .sram => cnt s 417
  | .harness => cnt s 418
  | .two loc key addr => ueHandle s loc key addr
  | .more =>
    let (n, s) := takeFree s
    match Config.freeNat n % 3 with
    | 0 => ueReport s 0 (BitVec.ofNat 64 (Config.freeNat n / 3))
    | 1 => cnt s 416
    | _ => s

/-- The codeword lies in the rank the scrub reads. -/
def cwOfRank (x : CwRead) : Bool :=
  match x with
  | .sram | .harness => false
  | .two loc _ _ => decide (loc < 4)
  | _ => true

/-- A codeword another read than the scrub's has decoded: it belongs to no pass (R529; log entry 172). -/
def cwDecoded (s : State) (r : Nat) (x : CwRead) : State :=
  match x with
  | .one _ => cnt s 416
  | _ => codeword s r x

/-- SCRUB_PASS: one codeword of a rank whose scrub is ON; otherwise what the decoder of another read has found. -/
def scrubPass (s : State) (r : Nat) (x : CwRead) : State :=
  if r < 2 ∧ fnOn s (0x0900 + r) = true ∧ cwOfRank x = true then rankStep (codeword (cnt s 420) r x) r
  else cwDecoded s r x

/-! ## Boundary scan (R537) and the PCIe link (05 R176) -/

/-- BOUNDARY_SCAN_INSTRUCTION: 0 BYPASS, 1 IDCODE, 2 SAMPLE/PRELOAD at any time; EXTEST, INTEST, CLAMP and the AC ones
above them only while RESET_n is low. With TRST_n low the port is held in reset and no instruction reaches it (R571). -/
def scanInstr (s : State) (i : Nat) : State :=
  if i ≤ 2 ∨ s.pins.resetLow = true then { s with pins := { s.pins with tap := i } } else s

/-- An object with bytes released early and not zeroed: its descriptor ends without a completion and its buffer's content
is free (05 R176). -/
def linkLose (s : State) (o : Obj) : State :=
  match flightOf s o.uid with
  | none => s
  | some f => coreDrop (objLost s o) { f with discard := true }

/-- PCIE_LINK_DOWN. -/
def linkDown (s : State) : State :=
  let l := s.ce.objs.filter fun o => o.released != 0
  l.foldl linkLose { s with host := { s.host with linkDown := true } }

end Sys2Proof.Machine
end

