-- ==== Sys2Proof/Machine/RegView.lean ====
section
/-!
DEFINITION. What a 4-byte read of BAR0 answers (20 R543 to R545): registers that software writes read as stored, the
read-only fields as the state they show. CNTi_LO and DT_LO have a read effect of their own, which their rows carry.
-/
namespace Sys2Proof.Machine
open Sys2Proof

/-- A word from its fields: lowest bit, length, value. -/
def pk (l : List (Nat × Nat × Nat)) : Word := BitVec.ofNat 32 (l.map fun p => p.2.2 % 2 ^ p.2.1 * 2 ^ p.1).sum

def lo32 (n : Nat) : Word := BitVec.ofNat 32 n
def hi32 (n : Nat) : Word := BitVec.ofNat 32 (n / 2 ^ 32)

/-- STATE, ENABLE_PENDING and DISABLE_PENDING of FUNC_STATE (01 R44). -/
def fnFields (f : Fn) : List (Nat × Nat × Nat) := [(0, 2, fnCode f.st), (2, 1, b2n f.enPend)]

/-- A word of a wide number, counted from the least significant. -/
def wordOf (n i : Nat) : Word := BitVec.ofNat 32 (n / 2 ^ (32 * i))

/-- A digest is laid out from its first byte up (06 R191): byte 0 of a digest is its most significant. -/
def digestWord (d : BitVec 384) (i : Nat) : Word :=
  BitVec.ofNat 32 (leNat ((List.range 4).map fun j => BitVec.ofNat 8 (d.toNat / 2 ^ (8 * (47 - (4 * i + j))))))

/-! ## Identity and global control (01 R44, 20 R543) -/

/-- A fault of R527 is in progress (19 R541). -/
def faultActive (s : State) : Bool :=
  s.boot.ready &&
  (((List.range 6).any fun p => wbit s.ce.fault p && !pipeOn s p) || !s.ce.entA || !s.ce.entB ||
   (s.glob.cores.any fun c => c == 2) ||
   (inHarness s && (((List.range 4).any fun n => !fnOn s (0x0500 + n)) || (portGet s 0).broken || (portGet s 1).broken)) ||
   s.harn.silentM != 0 || (s.store.dies.any fun p => p.2.failed) || (s.met.last.bad.isSome && !fnOn s 0x0600) ||
   s.log.mediaFault || (s.chan.tab.any fun p => p.2.bankFault))

/-- CORES_PAUSED reads 1 for a core paused or restarting once the cores have been loaded (01 R44; log entry 46). -/
def coresPausedBit (s : State) : Bool := coresPaused s && (s.boot.phase == 7 || s.boot.phase == 15)

/-- The part's identity in configuration space (00 R8). -/
def vendorId : BitVec 16 := 0x1E4D
def deviceId : BitVec 16 := 0x0C64
def revisionId : BitVec 8 := 0xB0

/-- A TC0 item waits at admission (01 R29): a descriptor fetched, a frame at its parse stage, or a push (02 R72). -/
def tc0Held (s : State) : Bool :=
  !s.host.admQ.isEmpty || (!s.host.pushBuf.isEmpty && decide (64 ≤ tc0Used s))

/-- TAKEOVER_ACTIVE reads 1 from step 1 to step 5 of a takeover (13 R419), all of them within SILENCE_DECLARED: no read
falls between them. -/
def globalView (s : State) (off : Nat) : Word :=
  match off with
  | 0x00 => pk [(0, 16, vendorId.toNat), (16, 16, deviceId.toNat)]
  | 0x04 => pk [(0, 1, b2n (tc0Lane s).isSome), (1, 1, b2n (tc0Held s)), (2, 1, 0), (3, 1, b2n (coresPausedBit s))]
  | 0x0C => pk [(0, 8, revisionId.toNat), (8, 1, Config.grade.toNat)]
  | 0x10 => pk [(0, 16, s.glob.stPs.toNat), (31, 1, b2n s.glob.valid)]
  | 0x14 => pk [(0, 16, s.glob.peak.toNat)]
  | 0x1C => pk [(0, 8, s.glob.code.toNat)]
  | 0x30 => pk ((List.range 4).map fun n => (n, 1, b2n (lget false s.glob.wm n)) ) |||
            pk ((List.range 4).map fun n => (4 + n, 1, b2n (wbit (regGet s (0x20 + 4 * n)) 31 && wmInvalid (regGet s (0x20 + 4 * n)))))
  | 0x34 => lo32 Config.serial.toNat
  | 0x38 => hi32 Config.serial.toNat
  | 0x54 =>
    let id := regFld s 0x50 0 16
    let f := fnGet s id
    if funcKnown id then pk (fnFields f ++ [(3, 1, b2n f.disPend)]) else 0
  | 0x60 => pk ((List.range 4).map fun k => (4 * k, 4, coreState s k))
  | _ => 0

/-! ## Reading path, engines, keys, seals (04 R151, 05 R187, 06 R225, 07 R241) -/

def bpWord (s : State) (base : Nat) : Word := pk ((List.range 32).map fun i => (i, 1, b2n (chBp s (base + i))))

def rootBits (s : State) (p : RootEnt → Bool) : Nat := ((List.range 16).map fun n => b2n (p (rootGet s n)) * 2 ^ n).sum

/-- A root has a FWD blob in the selected copy, or in the staged one. -/
def fwdPresent (s : State) : Nat :=
  ((List.range 16).map fun n =>
    b2n ((rootGet s n).fwd.isSome || ((s.upd.state == 3 || s.upd.state == 4) && (tget RootEnt.none (cfgOther s).roots n).fwd.isSome)) *
      2 ^ n).sum

def pathView (s : State) (off : Nat) : Word :=
  match off with
  | 0x208 => pk [(0, 1, b2n s.rp.wrapped), (1, 1, b2n ((List.range 64).any (chBp s)))]
  | 0x20C => bpWord s 0
  | 0x210 => bpWord s 32
  | 0x214 => s.rp.qNext
  | 0x218 => quarOldest s
  | 0x304 => pk [(0, 6, ((List.range 6).map fun p => b2n (pipeOn s p) * 2 ^ p).sum), (6, 3, (tc0Lane s).getD 7),
                 (9, 1, b2n s.ce.entA), (10, 1, b2n s.ce.entB), (11, 1, b2n s.ce.drbgOk), (12, 1, b2n s.ce.shaOn),
                 (13, 1, b2n s.ce.ecdsaOn), (14, 1, b2n (katActive s))]
  | 0x308 => pk [(0, 11, s.ce.fault.toNat), (16, 16, s.ce.faultCnt.toNat)] ||| pk [(9, 1, b2n s.ce.exhausted)]
  | 0x30C => pk [(0, 13, holdUsed s), (16, 13, s.ce.holdPeak)]
  | 0x310 => pk [(0, 12, min 3072 (holdUsed s)), (12, 8, (s.ce.objs.filter fun o => o.units != 0).length),
                 (20, 8, min 255 s.ce.objWait.length)]
  | 0x404 => pk [(0, 14, s.keys.slots.length), (16, 12, pinnedCount s)]
  | 0x408 => pk [(0, 12, (s.keys.slots.filter fun p => p.2.shadow).length)]
  | 0x40C => pk [(0, 10, s.keys.missQ.length), (16, 1, b2n (!s.keys.missQ.isEmpty && (unwrapPipe s).isSome))]
  | 0x410 => pk [(0, 16, rootBits s fun r => r.key.isSome && !r.revoked), (16, 16, fwdPresent s)]
  | 0x414 => pk [(0, 1, b2n s.keys.srValid), (1, 1, b2n s.keys.fwdValid), (2, 1, b2n s.keys.rootLost)]
  | 0x418 => pk [(0, 13, (s.keys.dir.filter fun p => p.2.st != 0 && hLevel p.1 == 3 && decide (hIndex p.1 < 4096)).length),
                 (16, 9, (s.keys.dir.filter fun p => p.2.st != 0 && hIsSession p.1).length)]
  | 0x504 => pk [(0, 13, match s.sealU.batch with | some b => b.leaves.length | none => 0), (13, 1, b2n (keyMissing s)),
                 (16, 9, s.sealU.signQ.length)]
  | 0x508 => BitVec.ofNat 32 s.sealU.session
  | 0x50C => BitVec.ofNat 32 s.sealU.sign
  | 0x510 => pk [(0, 16, s.sealU.src.toNat)]
  | 0x514 => match s.sealU.batch with | some b => lo32 b.bid.toNat | none => 0
  | 0x518 => match s.sealU.batch with | some b => hi32 b.bid.toNat | none => 0
  | 0x51C => s.sealU.lseq
  | _ => 0

/-! ## Billing, commands, samplers, bandwidth (08 R281, 12 R398, 18 R525) -/

/-- Entries of one kind within 24 h, each found from the one before it. -/
def btKind (s : State) (k lim : Nat) : Nat → Nat
  | 0 => 0
  | n + 1 =>
    match nextEntry s k with
    | none => 0
    | some t =>
      if lim < t then 0 else 1 + btKind { s with bill := { s.bill with pos := BitVec.ofNat 64 (t * 2 ^ 24), posStep := 9 } } k lim n

/-- Boundary table entries of the next 24 h, at most 65 of each kind counted (R254). -/
def btCount (s : State) : Nat :=
  let lim := nowSec s + 86400
  ([1, 2, 5, 6].map fun k => btKind s k lim 65).sum +
    ([3, 4].map fun k => ((entryTimes s k).filter fun t => decide (t ≤ lim)).length).sum

def btNext (s : State) : Nat := ((minOpt ((List.range 7).filterMap fun k => if k = 0 then none else nextEntry s k)).getD 0) * 2 ^ 24

/-- Records a running sweep has still to visit. -/
def sweepLeft (s : State) : Nat :=
  (s.bill.sweeps.map fun w => (s.recs.tab.filter fun p => decide (w.pos ≤ p.1) && sweepHits s w p.1 p.2).length).sum

def calSel (s : State) : CalEnt := calGet s (regFld s 0x624 0 6)

def billView (s : State) (off : Nat) : Word :=
  match off with
  | 0x604 => pk [(0, 7, min 64 (btCount s)), (7, 1, b2n (decide (64 < btCount s))), (8, 1, b2n !s.bill.sweeps.isEmpty),
                 (9, 1, b2n s.bill.catchup), (10, 1, b2n s.bill.posValid)]
  | 0x608 => lo32 s.bill.pos.toNat
  | 0x60C => hi32 s.bill.pos.toNat
  | 0x610 => lo32 (btNext s)
  | 0x614 => hi32 (btNext s)
  | 0x618 => pk [(0, 23, sweepLeft s)]
  | 0x61C => pk [(0, 17, s.cmd.relays.length)]
  | 0x620 => pk [(0, 23, (s.recs.tab.filter fun p => p.2.billing && p.2.prepay.lstate == 6).length)]
  | 0x628 => (calSel s).openPer
  | 0x62C => if (calSel s).everClosed then lo32 (calSel s).lastClose.toNat else 0
  | 0x630 => if (calSel s).everClosed then hi32 (calSel s).lastClose.toNat else 0
  | 0x704 => pk [(0, 17, (s.cmd.txns.filter fun t => !t.waiting).length), (17, 5, s.cmd.dists.length)]
  | 0x908 => pk [(0, 16, s.cnt.copy.seq.toNat), (16, 1, b2n s.cnt.copy.valid)]
  | 0x90C => lo32 s.cnt.copy.rx.toNat
  | 0x910 => hi32 s.cnt.copy.rx.toNat
  | 0x914 => lo32 s.cnt.copy.tx.toNat
  | 0x918 => hi32 s.cnt.copy.tx.toNat
  | _ => 0

/-- TARIFF_LOADEDn. -/
def tariffLoaded (s : State) (n : Nat) : Word :=
  pk ((List.range 32).map fun i => (i, 1, b2n (tget TarEnt.empty s.bill.tariffs (32 * n + i)).cur.isSome))

/-- SMPn_STATUS, SMPn_TAG and SMPn_VAL. -/
def smpView (s : State) (n at_ : Nat) : Word :=
  let x := smpGet s n
  let cfg := regGet s (0x800 + 0x20 * n)
  match at_ with
  | 0x08 => pk [(0, 1, b2n x.pending), (1, 1, b2n x.overrun), (2, 1, b2n (wbit cfg 31 && cntReserved (fld cfg 0 9))),
                (16, 16, x.ovfCnt.toNat)]
  | 0x0C => x.tag
  | 0x10 => x.val
  | _ => 0

/-! ## Host queues (02 R92) -/

/-- A completion waits because its ring is full (R63). -/
def cqFull (s : State) (c : Nat) : Bool := !(cqGet s c).waiting.isEmpty && decide (cqSize s c ≤ cqUsed s c + 1)

def hostView (s : State) (off : Nat) : Word :=
  match off with
  | 0x1004 => pk [(0, 11, inflight s), (16, 11, s.host.peak)]
  | 0x1008 => pk [(0, 16, s.host.dbDrop.toNat), (16, 16, s.host.pushDrop.toNat)]
  | 0x100C => pk [(0, 15, s.host.deliv.length)]
  | 0x1080 => pk [(0, 7, s.host.pushBuf.length), (16, 16, s.host.pushOvf.toNat)]
  | _ => match runIdx off 0x1414 0x20 64 with
  | some q => pk (fnFields (sqGet s q).fn ++ [(3, 1, b2n (sqGet s q).error), (16, 16, (sqGet s q).head)])
  | none => match runIdx off 0x1418 0x20 64 with
  | some q => (sqGet s q).seq
  | none => match runIdx off 0x1C10 0x20 64 with
  | some c => pk (fnFields (cqGet s c).fn ++ [(3, 1, b2n (cqGet s c).error), (4, 1, b2n (cqFull s c)), (16, 16, (cqGet s c).tail)])
  | none => match runIdx off 0x2414 0x20 16 with
  | some r => pk (fnFields (rrGet s r).fn ++ [(3, 1, b2n (rrGet s r).grantErr), (4, 1, b2n (rrGet s r).error)])
  | none => match runIdx off 0x2418 0x20 16 with
  | some r => (rrGet s r).w
  | none => match runIdx off 0x241C 0x20 16 with
  | some r => (rrGet s r).g
  | none => 0

/-! ## Time (15 R476) -/

/-- DSTATE. -/
def dState (s : State) : Nat :=
  match (fnGet s 0x0B00).st with
  | .off => 0
  | .starting => 1
  | _ => if s.time.holdover then 3 else 2

def timeView (s : State) (off : Nat) : Word :=
  let t := s.time
  match off with
  | 0x5008 => pk [(0, 1, b2n t.dtValid), (1, 2, dState s), (3, 1, b2n t.ringSrc), (4, 1, b2n t.vbatLost), (5, 1, b2n t.leapPend),
                  (6, 1, b2n t.refused), (7, 1, b2n t.utcSet), (8, 1, b2n t.vbatLow), (16, 16, t.refuseCnt.toNat)]
  | 0x500C => lo32 (dtOf s).toNat
  | 0x5010 => t.dtHi
  | 0x5014 => BitVec.ofNat 32 (signedBits 32 t.rate)
  | 0x5018 => BitVec.ofNat 32 (signedBits 32 (sat32 t.offset))
  | 0x501C => BitVec.ofNat 32 t.unc
  | 0x5020 => pk [(0, 16, t.utcCur.toNat), (16, 16, t.utcNext.toNat)]
  | 0x5024 => lo32 t.leapDt.toNat
  | 0x5028 => hi32 t.leapDt.toNat
  | 0x502C => lo32 t.bbcSec.toNat
  | 0x5030 => pk [(0, 8, t.bbcSec.toNat / 2 ^ 32), (8, 8, t.rebaseCnt.toNat)]
  | 0x5034 => t.nonce
  | _ => 0

/-! ## Channels and radio (10 R327, 11 R369) -/

def chStatus (s : State) (n : Nat) : Word :=
  let c := chGet s n
  pk (fnFields (fnGet s (0x0100 + n)) ++
    [(3, 1, b2n c.cfgErr), (4, 1, b2n c.bankFault), (5, 1, b2n c.heBlock), (6, 1, b2n c.loop), (7, 1, b2n (chBp s n)),
     (16, 9, rxUnits c)])

/-- A member sends its TC0 frames by LBT now (R350). -/
def lbtFallback (s : State) (n : Nat) : Bool := decide (4 ≤ (macGet s n).sync) && lbtTc0 s n

def macStatus (s : State) (n : Nat) : Word :=
  pk [(0, 3, (macGet s n).sync), (3, 2, min 3 (macGet s n).missed), (5, 1, b2n (lbtFallback s n)),
      (6, 1, b2n ((chGet s n).tx.any fun f => f.dutyWait.isSome)), (16, 16, linksOn s n)]

/-- The link LINK_SEL names: of this home position's record with that index. -/
def linkSel (s : State) : MLink := linkGet s (regFld s 0x6C14 0 22 + 2 ^ 29 * s.harn.pos)

/-- The counter of a link's next event: the first at or after the superframe now on air. -/
def nextEventCtr (s : State) (l : MLink) : Nat :=
  let n := max 1 (lpInterval s l.profile)
  (sfNow s l.channel - l.anchorSf + n - 1) / n % 65536

def radioView (s : State) (off : Nat) : Word :=
  let l := if regFld s 0x6C14 0 22 < epCapacity s then linkSel s else MLink.none
  match off with
  | 0x6410 => pk ((List.range 4).map fun g => (2 * g, 2, lget 0 s.chan.banks g))
  | 0x6C00 => pk [(0, 1, b2n !s.air.plan.isEmpty), (8, 8, tb s.air.plan 0)]
  | 0x6C0C => pk [(0, 22, dutyUsed s (regFld s 0x6C08 0 6) (regFld s 0x6C08 8 4))]
  | 0x6C10 => pk [(0, 22, if s.air.plan.isEmpty then 0 else dutyBudget s (regFld s 0x6C08 8 4))]
  | 0x6C18 => pk [(0, 3, l.st), (4, 6, l.slot), (16, 16, if l.st = 0 then 0 else nextEventCtr s l)]
  | 0x6C1C => pk [(0, 12, l.anchorSf % max 1 (lpInterval s l.profile)), (16, 16, min 65535 l.missed)]
  | 0x6C20 => lo32 s.air.sfOffset.toNat
  | 0x6C24 => hi32 s.air.sfOffset.toNat
  | _ => match runIdx off 0x600C 0x10 64 with
  | some n => chStatus s n
  | none => match runIdx off 0x680C 0x10 64 with
  | some n => macStatus s n
  | none => 0

/-! ## Harness, records, store, metrology (13 R425, 03 R118, 14 R458, 09 R306) -/

def ownerWord (s : State) : Word :=
  (List.range 8).foldl (fun w p =>
    let o := lget (0, false) s.recs.owner p
    w ||| pk [(4 * p, 3, if o.2 then o.1 else 0), (4 * p + 3, 1, b2n o.2)]) 0

def harnView (s : State) (off : Nat) : Word :=
  let h := s.harn
  match off with
  | 0x8004 => pk [(0, 2, s.pins.harnMode), (2, 1, b2n h.joined), (3, 3, h.pos), (6, 1, b2n h.acting), (7, 1, b2n h.wrapped),
                  (8, 3, h.joinErr), (11, 1, b2n h.fenced), (16, 8, h.joinedM), (24, 8, h.silentM)]
  | 0x8008 => pk [(0, 2, lanesUp s 0), (2, 1, b2n (portGet s 0).trained), (8, 2, lanesUp s 1), (10, 1, b2n (portGet s 1).trained)]
  | 0x800C => pk [(0, 2, h.outState), (2, 3, h.outReason), (5, 3, h.shadow.getD 0), (8, 2, h.inState), (10, 3, h.inPos)]
  | 0x8010 => pk [(0, 23, h.syncLeft)]
  | 0x8014 => lo32 h.ringId.toNat
  | 0x8018 => hi32 h.ringId.toNat
  | 0x801C => BitVec.ofNat 32 (signedBits 32 (sat32 h.ofsNs))
  | 0x8024 => pk [(0, 3, h.served.getD 0), (3, 1, b2n h.served.isSome), (8, 8, min 255 h.tkoCnt)]
  | 0x9100 => pk [(0, 2, if s.recs.dramMib < 2048 then 0 else if s.recs.dramMib < 4096 then 1 else if s.recs.dramMib < 8192 then 2 else 3),
                  (2, 1, b2n (storeOn s)), (3, 1, b2n s.recs.migrate)]
  | 0x9104 => pk [(0, 23, epCapacity s)]
  | 0x9108 => pk [(0, 23, (s.recs.tab.filter fun p => p.2.state == 1 || p.2.state == 2).length)]
  | 0x910C => pk [(0, 8, s.recs.fmt.toNat), (8, 24, (migrateLeft s).length)]
  | 0x9110 => ownerWord s
  | 0x9114 => pk [(0, 8, s.recs.epoch.toNat)]
  | 0x9124 => pk [(0, 24, tailBytes s)]
  | 0x9128 => s.recs.durable
  | 0x912C => pk [(0, 16, s.recs.ckptCnt.toNat), (31, 1, b2n s.recs.ckptAct)]
  | _ => 0

def maskWord (l : List Nat) : Word := pk (l.map fun n => (n, 1, 1))

def nandView (s : State) (off : Nat) : Word :=
  let t := s.store
  let found := (t.dies.filter fun p => p.2.found).map (·.1)
  match off with
  | 0xA008 => pk [(0, 1, b2n !found.isEmpty), (1, 1, b2n t.rootOk), (2, 1, b2n (decide (40000 < t.holdEst))), (3, 1, b2n t.wrapped),
                  (4, 1, b2n (parityActive s)), (5, 1, b2n t.mountFail), (8, 6, (diesOn s).length),
                  (16, 8, if found.isEmpty then 0 else sparePct s), (24, 8, if found.isEmpty then 0 else wearPct s)]
  | 0xA00C => maskWord (found.filter fun n => decide (n < 32))
  | 0xA010 => maskWord (diesOn s)
  | 0xA014 => pk [(0, 16, lget 0 t.geom 1), (16, 16, lget 0 t.geom 2)]
  | 0xA018 => pk [(0, 2, if lget 0 t.geom 0 = 16 then 1 else 0), (8, 8, lget 0 t.geom 3), (16, 16, lget 0 t.geom 4)]
  | 0xA020 => lo32 t.next
  | 0xA024 => hi32 t.next
  | 0xA028 => lo32 t.oldest
  | 0xA02C => hi32 t.oldest
  | 0xA030 => BitVec.ofNat 32 (storeCapacity s)
  | 0xA034 => BitVec.ofNat 32 (storeUsed s)
  | 0xA038 => pk [(0, 10, t.patrol * 1000 / max 1 (patrolPages s)), (16, 16, t.passes)]
  | 0xA03C => pk [(0, 16, min 65535 t.holdEst), (16, 16, min 65535 t.lastFlush)]
  | _ => 0

def metView (s : State) (off : Nat) : Word :=
  match off with
  | 0xB004 => metStatus s
  | 0xB008 => s.met.resealSeq
  | 0xB00C => s.met.nonce
  | 0xB010 => pk ((List.range 4).map fun f => (8 * f, 3, (tget Fdr.idle s.met.feeders f).st + 4 * b2n (tget Fdr.idle s.met.feeders f).neg))
  | 0xB014 => s.met.nextBseq
  | 0xB024 => pk [(0, 23, (s.recs.tab.filter fun p => fld p.2.gridLoc 2 2 != 0).length)]
  | _ => match runIdx off 0xB040 4 12 with
  | some i => digestWord s.boot.dLm i
  | none => match runIdx off 0xB070 4 12 with
  | some i => digestWord s.met.sealedDig i
  | none => 0

/-! ## Event recorder, counters, update, test (17 R512, 18 R525, 16 R501, 19 R541) -/

def logView (s : State) (off : Nat) : Word :=
  let l := s.log
  match off with
  | 0xC004 => pk [(0, 1, b2n l.full), (1, 1, b2n l.mediaFault), (2, 5, l.reserve.length), (8, 7, l.queue.length)]
  | 0xC008 => l.next
  | 0xC00C => match l.recs with | r :: _ => r.seq | [] => l.next
  | 0xC010 => pk [(0, 15, l.recs.length)]
  | 0xC014 => l.dropped
  | 0xC018 => l.suppressed
  | _ => 0

/-- Operating seconds left in a trial. -/
def trialLeft (s : State) : Nat :=
  if s.upd.state = 5 then s.upd.trialStart + 60 * s.upd.trialWin - s.boot.opSec else 0

def updView (s : State) (off : Nat) : Word :=
  let u := s.upd
  match off with
  | 0xE004 => pk [(0, 3, u.state), (3, 1, b2n u.runSlot), (4, 1, b2n u.trialSlot), (5, 3, u.boots), (8, 1, b2n u.fellBack),
                  (9, 1, b2n u.recovery), (10, 1, b2n u.restartDue), (11, 1, b2n (u.state == 5 && healthItem s == 0))]
  | 0xE008 => pk [(0, 12, u.sectors.length)]
  | 0xE00C => pk [(0, 16, trialLeft s)]
  | 0xE010 => u.fwVersion
  | 0xE014 => u.fwSecVer
  | 0xE018 => u.floor
  | 0xE01C => pk [(0, 1, b2n (cfgValid u u.copyA)), (1, 1, b2n (cfgValid u u.copyB)), (2, 1, b2n u.selected),
                  (3, 1, b2n (u.state == 3 || u.state == 4 || u.state == 5)), (8, 8, (cfgSelected s).format.toNat)]
  | 0xE020 => (cfgSelected s).seq
  | 0xE024 => if u.state = 3 ∨ u.state = 4 ∨ u.state = 5 then u.stagedSeq else 0
  | 0xE028 => pk [(0, 4, s.boot.phase), (4, 1, b2n s.boot.ready), (5, 1, b2n s.boot.slot), (6, 1, Config.ownerFused.toNat),
                  (16, 8, s.boot.lastFail.toNat)]
  | 0xE02C => lo32 s.boot.pwrCycles
  | 0xE030 => lo32 s.boot.opSec
  | _ => match runIdx off 0xE040 4 12 with
  | some i => digestWord s.boot.m i
  | none => match runIdx off 0xE070 4 12 with
  | some i => digestWord s.boot.dFw i
  | none => match runIdx off 0xE0A0 4 12 with
  | some i => digestWord s.boot.dCfg i
  | none => 0

def fltView (s : State) (off : Nat) : Word :=
  let f := s.flt
  match off with
  | 0xF000 => pk [(0, 1, b2n f.ueSeen), (1, 1, b2n f.dramWeak), (2, 1, b2n (faultActive s))]
  | 0xF004 => pk [(0, 3, f.src.toNat), (16, 16, f.ueCnt.toNat)]
  | 0xF008 => lo32 f.ueAddr.toNat
  | 0xF00C => hi32 f.ueAddr.toNat
  | _ => match runIdx off 0xF014 4 2 with
  | some r =>
    let x := rankGet s r
    pk [(0, 10, x.words * 1000 / max 1 (rankWords s)), (16, 8, x.weak.toNat), (24, 8, x.passes.toNat)]
  | none => 0

/-- Counters: LO as it stands, HI from the latch (18 R516). -/
def cntView (s : State) (off : Nat) : Word :=
  let i := (off - 0xD000) / 8
  if off % 8 = 0 then BitVec.ofNat 32 (cntGet s i).toNat else if off % 8 = 4 then cntHi s i else 0

/-! ## The whole map -/

/-- Read-only registers by block. -/
def roView (s : State) (off : Nat) : Word :=
  if off < 0x200 then globalView s off
  else if off < 0x600 then pathView s off
  else if off < 0x1000 then
    match runIdx off 0x640 4 8 with
    | some n => tariffLoaded s n
    | none => if 0x800 ≤ off ∧ off < 0x900 then smpView s ((off - 0x800) / 0x20) ((off - 0x800) % 0x20) else billView s off
  else if off < 0x4000 then hostView s off
  else if off < 0x6000 then timeView s off
  else if off < 0x8000 then radioView s off
  else if off < 0xA000 then harnView s off
  else if off < 0xB000 then nandView s off
  else if off < 0xC000 then metView s off
  else if off < 0xD000 then logView s off
  else if off < 0xE000 then cntView s off
  else if off < 0xF000 then updView s off
  else fltView s off

/-- What a 4-byte read of an aligned BAR0 offset answers. -/
def readReg (s : State) (off : Nat) : Word :=
  if off = 0x624 then regGet s off ||| pk [(31, 1, b2n !(calSel s).bytes.isEmpty)]
  else match regRow off with
  | some _ => regGet s off
  | none => roView s off

/-! ## Channel pins (10 R309, R310; 00 R3) -/

/-- A channel pin: driven, an input with its weak pull, or moved by the traffic of a channel in service. -/
inductive PinLevel where
  | high | low | pullUp | pullDown | traffic
  deriving DecidableEq, Repr

/-- The last column of R310: RESET_n low, ATTACH 000 or reserved, a head-end group. -/
def pinsOpen (s : State) (ch : Nat) : Bool :=
  s.pins.resetLow || groupHead s (ch / 16) || chAttach s ch == 0 || decide (4 < chAttach s ch)

/-- A channel OFF outside a loopback test. -/
def pinsIdle (s : State) (ch : Nat) : Bool := (chFn s ch).st == .off && !(chGet s ch).loop

/-- Pin D of a channel that uses it as GPIO: CHn_CFG.D_DIR and D_OUT. An input has the weak pull-down of the last column
(log entry 163). -/
def gpioD (s : State) (ch : Nat) : PinLevel :=
  let w := regGet s (0x6000 + 0x10 * ch)
  if !wbit w 6 then .pullDown else if wbit w 7 then .high else .low

/-- The level of pins A to D (0 to 3) of a channel (R310). -/
def chPin (s : State) (ch k : Nat) : PinLevel :=
  if pinsOpen s ch then .pullDown
  else if k = 3 ∧ chAttach s ch ≠ 1 then gpioD s ch
  else if !pinsIdle s ch then .traffic
  else match chAttach s ch, k with
  | _, 0 => .high
  | 1, 3 => .low
  | 1, _ => .pullDown
  | _, 1 => .pullUp
  | 2, _ => .low
  | _, _ => .pullDown

/-- The level of a group's SPI pins: 0 SCK, 1 MOSI, 2 MISO. -/
def grpPin (s : State) (g k : Nat) : PinLevel :=
  if s.pins.resetLow || groupHead s g || !((List.range 16).any fun i => chRadio s (16 * g + i)) then .pullDown
  else if k = 2 then .pullDown
  else if (List.range 16).any fun i => chRadio s (16 * g + i) && chOn s (16 * g + i) then .traffic
  else .low

/-! ## Reads of the BARs and of configuration space (02 R47, R50, R51, R69; 00 R8) -/

/-- BAR0: anything but an aligned 4-byte read answers 0 (R50). -/
def bar0Read (s : State) (off size : Nat) : Word := if size = 4 ∧ off % 4 = 0 ∧ off < 0x10000 then readReg s off else 0

/-- A doorbell page: the last value accepted at offset 0, zero elsewhere (R51). -/
def doorbellRead (s : State) (off : Nat) : Word :=
  if off % 0x1000 ≠ 0 then 0
  else if off < 0x40000 then (sqGet s (off / 0x1000)).db
  else if off < 0x80000 then (cqGet s (off / 0x1000 - 64)).db
  else if off < 0x90000 then (rrGet s (off / 0x1000 - 128)).db
  else 0

/-- A word of the MSI-X table: message address and data, then the mask bit; and of the pending bit array. -/
def msixRead (s : State) (off : Nat) : Word :=
  if off < 0xF0800 then
    let v := (off - 0xF0000) / 16
    let k := off / 4 % 4
    if k = 3 then pk [(0, 1, b2n (tget true s.host.msixMask v))]
    else (tget 0 s.host.pcie.msixTab v >>> (32 * k)).setWidth 32
  else if 0xF8000 ≤ off ∧ off < 0xF8010 then
    pk ((List.range 32).map fun i => (i, 1, b2n (tget false s.host.msixPend (8 * (off - 0xF8000) + i))))
  else 0

/-- BAR2, read by aligned words; its reserved range reads zero. -/
def bar2Read (s : State) (off size : Nat) : Word :=
  if size ≠ 4 ∨ off % 4 ≠ 0 then 0 else if off < 0xF0000 then doorbellRead s off else msixRead s off

/-- What a host read answers: BAR4 reads zero (R69), so do BAR1, BAR3 and BAR5, which hold nothing of their own. -/
def barRead (s : State) (bar off size : Nat) : Word :=
  match bar with
  | 0 => bar0Read s off size
  | 2 => bar2Read s off size
  | _ => 0

/-- Fields of configuration space by name: the identity the spec gives, and what PcieSt holds (log entry 145). -/
inductive CfgField where
  | vendor | device | revision | command | devCtl | pmState | aspm | uncErr | corErr
  deriving DecidableEq, Repr

def configRead (s : State) (f : CfgField) : Nat :=
  match f with
  | .vendor => vendorId.toNat
  | .device => deviceId.toNat
  | .revision => revisionId.toNat
  | .command => s.host.pcie.command.toNat
  | .devCtl => s.host.pcie.devCtl.toNat
  | .pmState => s.host.pcie.pmState.toNat
  | .aspm => s.host.pcie.aspm.toNat
  | .uncErr => s.host.pcie.uncErr.toNat
  | .corErr => s.host.pcie.corErr.toNat

end Sys2Proof.Machine
end

