-- ==== Sys2Proof/Machine/RowBase.lean ====
section
/-!
DEFINITION. What every row is run under: whether the device is out of reset and started, and the watermarks that follow
what it does (01 R36, R37). The rows that join two blocks.
-/
namespace Sys2Proof.Machine
open Sys2Proof

/-- What a row answers. -/
abbrev Res := Host.Outcome State Fault Refusal

/-- The device acts: RESET_n is high and no start is held in phase 0x1 (16 R478, 21 R559). -/
def awake (s : State) : Bool := !s.pins.resetLow && s.boot.phase != 1

/-- A row of a device that acts; otherwise nothing happens. -/
def run (s : State) (g : State → State) : Res := .next (if awake s then wmUpdate (g s) else s)

/-- A host access, which shows that the link is up (log entry 47). -/
def hostRun (s : State) (g : State → State) : Res := run s fun s => g (linkUp s)

/-- A row of the device's own that may change state entries: it waits while the journal tail is full (R108). -/
def tailRun (s : State) (g : State → State) : Res := run s fun s => if tailOpen s then g s else s

/-- Such a row that acts for an item of a class. -/
def tailRunTc (s : State) (tc : Nat) (g : State → State) : Res := run s fun s => if tailOpenTc s tc then g s else s

/-- Such a row that closes periods or intervals: each makes a store entry, and waits for its place (01 R34). -/
def sweepRun (s : State) (g : State → State) : Res := tailRun s fun s => if storeRoom s then g s else s

/-- A row that acts whether or not the device does: pins and the backup domain. -/
def anyRun (t : State) : Res := .next (wmUpdate t)

/-- A write of a ring's CFG by its kind: 0 submission, 1 completion, 2 reading. -/
def ringCfgWrite (s : State) (kind n : Nat) (v : Word) : State :=
  match kind with
  | 0 => hostWrite s (0x1410 + 0x20 * n) 4 v
  | 1 => hostWrite s (0x1C08 + 0x20 * n) 4 v
  | 2 => hostWrite s (0x2410 + 0x20 * n) 4 v
  | _ => s

/-- A pin or an unpin may decide whether mirroring can run (13 R416). -/
def keyPinRow (s : State) (uid : Nat) : State := mirrorEval (keyPin s uid)
def keyUnpinRow (s : State) (uid : Nat) : State := mirrorEval (keyUnpin s uid)

/-- A seal key in use that has just ceased to serve is recorded at once (07 R228). -/
def sealJudged (old s : State) : State := if keyMissing old then s else sealWatch s

/-- A change of the chip's utility roots decides it too (06 R209). -/
def rootsJudged (old s : State) : State := if rootKcvs s == rootKcvs old then s else mirrorEval s
def keyInstallRow (s : State) (uid : Nat) (blob : Option Blob) : State := rootsJudged s (keyInstall s uid blob)
def keyEraseRow (s : State) (uid : Nat) : State := sealJudged s (rootsJudged s (keyErase s uid))

/-- OP_KEY_INVALIDATE, and a seal key it leaves without use (07 R228). -/
def keyInvalidateRow (s : State) (uid : Nat) : State := sealJudged s (keyInvalidate s uid)

/-- What a takeover could not yet pass on for want of places goes on once others have left them (13 R419). -/
def deliveryRow (s : State) (g : State → State) : State := tkoRefill (g s)

/-- A zeroed slot may let a retire go on (03 R105). -/
def slotZeroizeRow (s : State) (i : Nat) : State := retireResume (slotZeroize s i)

end Sys2Proof.Machine
end

