-- ==== Sys2Proof/Machine/RowsChannel.lean ====
section
/-!
DEFINITION. The rows of meter channels, radio access and the command path (10 to 12).
-/
namespace Sys2Proof.Machine
open Sys2Proof

/-- CHANNEL_FRAME_RECEIVE (R318). -/
def execChannelFrameReceive (ch : Nat) (f : Frame) (lk : LinkIn) (s : State) : Res := run s fun s => frameReceive s ch f lk

/-- INTER_CHARACTER_GAP (R318). -/
def execInterCharacterGap (ch : Nat) (gapChars : Nat) (s : State) : Res := run s fun s => characterGap s ch gapChars

/-- MODEM_READY_TIMEOUT (R321). -/
def execModemReadyTimeout (ch : Nat) (s : State) : Res := run s fun s => modemTimeout s ch

/-- CHANNEL_FRAME_TRANSMIT (R317). -/
def execChannelFrameTransmit (chan : ChReady) (s : State) : Res :=
  run s fun s => frameTransmit s chan.ch chan.pinC

/-- DUTY_BUCKET_ROLLOVER (R364). -/
def execDutyBucketRollover (s : State) : Res := run s fun s => dutyRollover s

/-- DUTY_WAIT_TIMEOUT (R366). -/
def execDutyWaitTimeout (ch : Nat) (uid : Nat) (s : State) : Res := run s fun s => Machine.dutyWaitTimeout s ch uid

/-- BEACON_TRANSMIT (R343). -/
def execBeaconTransmit (ch : Nat) (s : State) : Res := run s fun s => Machine.beaconTransmit s ch

/-- BEACON_RECEIVE (R348). -/
def execBeaconReceive (ch : Nat) (panId : Nat) (addr : Nat) (sfNum : Nat) (s : State) : Res :=
  run s fun s => Machine.beaconReceive s ch panId addr sfNum

/-- BEACON_MISSED (R348). -/
def execBeaconMissed (ch : Nat) (s : State) : Res := run s fun s => Machine.beaconMissed s ch

/-- MEMBER_SUPERVISION_TIMEOUT (R348). -/
def execMemberSupervisionTimeout (ch : Nat) (s : State) : Res := run s fun s => memberTimeout s ch

/-- ENHANCED_ACKNOWLEDGEMENT (R344). -/
def execEnhancedAcknowledgement (ch : Nat) (eid : Nat) (lk : LinkIn) (timeCorrUs : Int) (tc0 : Bool) (deferred : Bool) (s : State) : Res :=
  run s fun s => enhancedAck s ch eid lk timeCorrUs tc0 deferred

/-- LINK_EVENT (R355). -/
def execLinkEvent (eid : Nat) (s : State) : Res := run s fun s => Machine.linkEvent s eid

/-- LINK_EVENT_MISSED (R356). -/
def execLinkEventMissed (eid : Nat) (s : State) : Res := run s fun s => Machine.linkEventMissed s eid

/-- LINK_DROP (R357). -/
def execLinkDrop (eid : Nat) (s : State) : Res := tailRun s fun s => Machine.linkDrop s eid

/-- LBT_BACKOFF (R360). -/
def execLbtBackoff (ch : Nat) (idle : Bool) (s : State) : Res := run s fun s => Machine.lbtBackoff s ch idle

/-- ACK_WAIT_EXPIRY (R360). -/
def execAckWaitExpiry (ch : Nat) (s : State) : Res := run s fun s => Machine.ackWaitExpiry s ch

/-- LINK_ACKNOWLEDGEMENT (R379). -/
def execLinkAcknowledgement (ch : Nat) (eid : Nat) (s : State) : Res := run s fun s => linkAcked s ch eid

/-- RESPONSE_TIMEOUT (R374). -/
def execResponseTimeout (txn : Nat) (s : State) : Res := run s fun s => Machine.responseTimeout s txn

/-- COMMAND_WAIT_TIMEOUT (R379). -/
def execCommandWaitTimeout (uid : Nat) (s : State) : Res := run s fun s => Machine.commandWaitTimeout s uid

/-- COLLECTION_INSTANT (R388). -/
def execCollectionInstant (eid : Nat) (s : State) : Res := tailRun s fun s => Machine.collectionInstant s eid

end Sys2Proof.Machine
end

