-- ==== Sys2Proof/Machine/RowsDesc.lean ====
section
/-!
DEFINITION. The rows of host descriptors (02 to 19): each executes the descriptor in flight it names.
-/
namespace Sys2Proof.Machine
open Sys2Proof

/-- OP_NOP (R82). -/
def execOpNop (uid : Nat) (s : State) : Res := run s fun s => opNop s uid

/-- OP_STATUS (R90). -/
def execOpStatus (uid : Nat) (s : State) : Res := run s fun s => opStatus s uid

/-- OP_ABORT (R91). -/
def execOpAbort (uid : Nat) (s : State) : Res := run s fun s => opAbort s uid

/-- OP_FUNC_CTRL_ENABLE (R538). -/
def execOpFuncCtrlEnable (uid : Nat) (s : State) : Res := run s fun s => funcCtrl s uid 1

/-- OP_FUNC_CTRL_DISABLE (R538). -/
def execOpFuncCtrlDisable (uid : Nat) (s : State) : Res := run s fun s => funcCtrl s uid 0

/-- OP_FUNC_CTRL_QUERY (R538). -/
def execOpFuncCtrlQuery (uid : Nat) (s : State) : Res := run s fun s => funcCtrl s uid 2

/-- OP_EP_PROVISION (R102). -/
def execOpEpProvision (uid : Nat) (blob : Option Blob) (s : State) : Res := run s fun s => epProvision s uid blob

/-- OP_EP_UPDATE (R103). -/
def execOpEpUpdate (uid : Nat) (s : State) : Res := run s fun s => epUpdate s uid

/-- OP_EP_RETIRE (R105). -/
def execOpEpRetire (uid : Nat) (s : State) : Res := run s fun s => epRetire s uid

/-- RETIRE_DRAIN_END (R105). -/
def execRetireDrainEnd (uid : Nat) (s : State) : Res := run s fun s => retireDrainEnd s uid

/-- OP_EP_READ (R106). -/
def execOpEpRead (uid : Nat) (s : State) : Res := run s fun s => epRead s uid

/-- OP_KEY_INSTALL (R211). -/
def execOpKeyInstall (uid : Nat) (blob : Option Blob) (s : State) : Res := run s fun s => keyInstallRow s uid blob

/-- OP_KEY_ERASE (R212). -/
def execOpKeyErase (uid : Nat) (s : State) : Res := run s fun s => keyEraseRow s uid

/-- OP_KEY_PIN (R207). -/
def execOpKeyPin (uid : Nat) (s : State) : Res := run s fun s => keyPinRow s uid

/-- OP_KEY_UNPIN (R214). -/
def execOpKeyUnpin (uid : Nat) (s : State) : Res := run s fun s => keyUnpinRow s uid

/-- OP_KEY_INVALIDATE (R213). -/
def execOpKeyInvalidate (uid : Nat) (s : State) : Res := run s fun s => keyInvalidateRow s uid

/-- OP_BATCH_GET_LOG (R238). -/
def execOpBatchGetLog (uid : Nat) (s : State) : Res := run s fun s => batchGetLog s uid

/-- OP_BATCH_GET_PATH (R239). -/
def execOpBatchGetPath (uid : Nat) (s : State) : Res := run s fun s => batchGetPath s uid

/-- BATCH_GET_WAIT_EXPIRY (R238). -/
def execBatchGetWaitExpiry (uid : Nat) (s : State) : Res := run s fun s => batchGetWaitExpiry s uid

/-- OP_SEAL_KEY_SET (R226). -/
def execOpSealKeySet (uid : Nat) (s : State) : Res := run s fun s => sealKeySet s uid

/-- OP_TUNNEL_RX (R124). -/
def execOpTunnelRx (uid : Nat) (entries : List TunnelEntry) (s : State) : Res := run s fun s => tunnelRx s uid entries

/-- OP_QUARANTINE_READ (R141). -/
def execOpQuarantineRead (uid : Nat) (s : State) : Res := run s fun s => quarantineRead s uid

/-- OP_DISCONNECT (R379). -/
def execOpDisconnect (uid : Nat) (s : State) : Res := run s fun s => opDisconnect s uid

/-- OP_RECONNECT (R379). -/
def execOpReconnect (uid : Nat) (s : State) : Res := run s fun s => opReconnect s uid

/-- OP_LOAD_LIMIT (R379). -/
def execOpLoadLimit (uid : Nat) (s : State) : Res := run s fun s => opLoadLimit s uid

/-- OP_READ_ON_DEMAND (R385). -/
def execOpReadOnDemand (uid : Nat) (targets : List Word) (s : State) : Res := run s fun s => readOnDemand s uid targets

/-- OP_CREDIT_PUSH (R389). -/
def execOpCreditPush (uid : Nat) (token : List Byte) (s : State) : Res := run s fun s => creditPush s uid token

/-- OP_TARIFF_PUSH (R392). -/
def execOpTariffPush (uid : Nat) (targets : List Word) (s : State) : Res := run s fun s => distRow s uid 0x45 targets [] [] []

/-- OP_DIST_START (R392). -/
def execOpDistStart (uid : Nat) (buf : DistIn) (s : State) : Res :=
  run s fun s => distRow s uid 0x46 buf.targets [] [] buf.image

/-- OP_DIST_RESUME (R397). -/
def execOpDistResume (uid : Nat) (buf : DistIn) (held : List (List Nat)) (tstates : List Nat) (s : State) : Res :=
  run s fun s => distRow s uid 0x47 buf.targets held tstates buf.image

/-- OP_COLLECT_PLAN (R387). -/
def execOpCollectPlan (uid : Nat) (targets : List Word) (s : State) : Res := run s fun s => collectPlan s uid targets

/-- OP_TARIFF_LOAD (R250). -/
def execOpTariffLoad (uid : Nat) (table : List Byte) (s : State) : Res := run s fun s => tariffLoad s uid table

/-- OP_CALENDAR_LOAD (R250). -/
def execOpCalendarLoad (uid : Nat) (cal : List Byte) (s : State) : Res := run s fun s => calendarLoad s uid cal

/-- OP_LEDGER_ADJUST_TOPUP (R278). -/
def execOpLedgerAdjustTopup (uid : Nat) (s : State) : Res := run s fun s => ledgerAdjust s uid 0

/-- OP_LEDGER_ADJUST_DEBIT (R278). -/
def execOpLedgerAdjustDebit (uid : Nat) (s : State) : Res := run s fun s => ledgerAdjust s uid 1

/-- OP_LEDGER_ADJUST_EMERG_SET (R278). -/
def execOpLedgerAdjustEmergSet (uid : Nat) (s : State) : Res := run s fun s => ledgerAdjust s uid 2

/-- OP_LEDGER_ADJUST_LOW_SET (R278). -/
def execOpLedgerAdjustLowSet (uid : Nat) (s : State) : Res := run s fun s => ledgerAdjust s uid 3

/-- OP_LEDGER_ADJUST_AUTO_RECONNECT (R278). -/
def execOpLedgerAdjustAutoReconnect (uid : Nat) (s : State) : Res := run s fun s => ledgerAdjust s uid 4

/-- OP_LEDGER_ADJUST_RELEASE (R274). -/
def execOpLedgerAdjustRelease (uid : Nat) (s : State) : Res := run s fun s => ledgerAdjust s uid 5

/-- OP_REG_SNAPSHOT (R271). -/
def execOpRegSnapshot (uid : Nat) (targets : List Word) (s : State) : Res := run s fun s => regSnapshot s uid targets

/-- OP_CREVASSE_REPORT_BALANCE (R302). -/
def execOpCrevasseReportBalance (uid : Nat) (s : State) : Res := run s fun s => crvBalance s uid

/-- OP_CREVASSE_REPORT_INFERENCE (R303). -/
def execOpCrevasseReportInference (uid : Nat) (s : State) : Res := run s fun s => crvInference s uid

/-- OP_CREVASSE_REPORT_SCORES (R304). -/
def execOpCrevasseReportScores (uid : Nat) (s : State) : Res := run s fun s => crvScores s uid

/-- OP_CREVASSE_REPORT_SNAPSHOT (R305). -/
def execOpCrevasseReportSnapshot (uid : Nat) (s : State) : Res := run s fun s => crvSnapshot s uid

/-- CREVASSE_REPORT_WAIT_EXPIRY (R301). -/
def execCrevasseReportWaitExpiry (uid : Nat) (s : State) : Res := run s fun s => crvWaitExpiry s uid

/-- OP_FEEDER_MAP (R293). -/
def execOpFeederMap (uid : Nat) (s : State) : Res := run s fun s => feederMap s uid

/-- OP_CAL_RESEAL (R290). -/
def execOpCalReseal (uid : Nat) (block : List Byte) (authOk : Bool) (sigOk : Bool) (s : State) : Res :=
  run s fun s => calReseal s uid block authOk sigOk

/-- OP_STORE_QUERY (R451). -/
def execOpStoreQuery (uid : Nat) (s : State) : Res := run s fun s => storeQuery s uid

/-- OP_STORE_DISCARD (R449). -/
def execOpStoreDiscard (uid : Nat) (s : State) : Res := run s fun s => storeDiscard s uid

/-- OP_STORE_REPLAY (R452). -/
def execOpStoreReplay (uid : Nat) (s : State) : Res := run s fun s => storeReplay s uid

/-- OP_STORE_HEALTH (R453). -/
def execOpStoreHealth (uid : Nat) (s : State) : Res := run s fun s => storeHealth s uid

/-- OP_TIME_MSG (R463). -/
def execOpTimeMsg (uid : Nat) (s : State) : Res := run s fun s => timeMsg s uid

/-- OP_TIME_REBASE (R470). -/
def execOpTimeRebase (uid : Nat) (s : State) : Res := run s fun s => timeRebase s uid

/-- OP_METER_TIME_SET (R473). -/
def execOpMeterTimeSet (uid : Nat) (targets : List Word) (s : State) : Res := run s fun s => meterTimeSet s uid targets

/-- OP_HARN_STATUS_RING (R424). -/
def execOpHarnStatusRing (uid : Nat) (s : State) : Res := run s fun s => harnStatusRing s uid

/-- OP_HARN_STATUS_TAKEN_OVER (R424). -/
def execOpHarnStatusTakenOver (uid : Nat) (s : State) : Res := run s fun s => harnStatusTaken s uid

/-- OP_HARN_RETURN (R422). -/
def execOpHarnReturn (uid : Nat) (s : State) : Res := run s fun s => harnReturn s uid

/-- OP_CH_LOOPBACK (R326). -/
def execOpChLoopback (uid : Nat) (errors : List (Nat × Nat)) (s : State) : Res := run s fun s => chLoopback s uid errors

/-- OP_DUTY_TABLE_LOAD (R329). -/
def execOpDutyTableLoad (uid : Nat) (plan : List Byte) (s : State) : Res := run s fun s => dutyTableLoad s uid plan

/-- OP_IMG_BLOCK (R489). -/
def execOpImgBlock (uid : Nat) (data : List Byte) (mismatch : Option Nat) (s : State) : Res :=
  run s fun s => imgBlock s uid data mismatch

/-- OP_IMG_VERIFY (R490). -/
def execOpImgVerify (uid : Nat) (chk : ImgCheck) (s : State) : Res := run s fun s => imgVerify s uid chk

/-- OP_IMG_ACTIVATE (R491). -/
def execOpImgActivate (uid : Nat) (img : SlotIn) (s : State) : Res := run s fun s => imgActivate s uid img

/-- OP_IMG_CONFIRM_ACCEPT (R495). -/
def execOpImgConfirmAccept (uid : Nat) (s : State) : Res := run s fun s => imgConfirmAccept s uid

/-- OP_IMG_CONFIRM_REJECT (R493). -/
def execOpImgConfirmReject (uid : Nat) (s : State) : Res := run s fun s => imgConfirmReject s uid

/-- OP_CONFIG_WRITE (R496). -/
def execOpConfigWrite (uid : Nat) (container : List Byte) (chk : ImgCheck) (s : State) : Res :=
  run s fun s => configWrite s uid container chk

/-- OP_KAT (R182). -/
def execOpKat (uid : Nat) (failing : Option Nat) (s : State) : Res := run s fun s => opKat s uid failing

/-- OP_LOG_READ_READ (R510). -/
def execOpLogReadRead (uid : Nat) (s : State) : Res := run s fun s => logReadRead s uid

/-- OP_LOG_READ_CLEAR (R509). -/
def execOpLogReadClear (uid : Nat) (verifyOk : Bool) (s : State) : Res := run s fun s => logReadClear s uid verifyOk

/-- OP_COUNTER_PRESET_PRESET (R519). -/
def execOpCounterPresetPreset (uid : Nat) (s : State) : Res := run s fun s => counterPreset s uid 0

/-- OP_COUNTER_PRESET_READ_AND_PRESET (R519). -/
def execOpCounterPresetReadAndPreset (uid : Nat) (s : State) : Res := run s fun s => counterPreset s uid 1

/-- OP_COUNTER_PRESET_READ (R518). -/
def execOpCounterPresetRead (uid : Nat) (s : State) : Res := run s fun s => counterPreset s uid 2

end Sys2Proof.Machine
end

