-- ==== Sys2Proof/Machine/RowsDevice.lean ====
section
/-!
DEFINITION. The rows of the store, metrology, time, log, counters, start-up, power and faults (09, 14 to 19, 21).
-/
namespace Sys2Proof.Machine
open Sys2Proof

/-- BW_WINDOW_END (R523). -/
def execBwWindowEnd (s : State) : Res := run s fun s => Machine.bwWindowEnd s

/-- RESET_ASSERT (R554). -/
def execResetAssert (lowNs : Nat) (s : State) : Res := anyRun (Machine.resetAssert s lowNs)

/-- RESET_RELEASE (R478). -/
def execResetRelease (inp : BootIn) (s : State) : Res :=
  if s.pins.resetLow && inp.testEn then .fault .factoryTest else anyRun (Machine.resetRelease s inp)

/-- BOOT_READY (R479). -/
def execBootReady (s : State) : Res := run s fun s => Machine.bootReady s

/-- PFAIL_ASSERT (R445). -/
def execPfailAssert (lowNs : Nat) (s : State) : Res := run s fun s => Machine.pfailAssert s lowNs

/-- PFAIL_DEASSERT (R559). -/
def execPfailDeassert (s : State) : Res := anyRun (Machine.pfailDeassert s)

/-- BANK_LEVEL_CHANGE (R311). -/
def execBankLevelChange (g : Nat) (mv : Nat) (heldUs : Nat) (s : State) : Res := anyRun (bankChange s g mv heldUs)

/-- VBAT_LOW (R462). -/
def execVbatLow (mv : Nat) (s : State) : Res := anyRun (Machine.vbatLow s mv)

/-- PACE_MEASUREMENT (R19). -/
def execPaceMeasurement (ps : Nat) (s : State) : Res := run s fun s => paceMeasure s ps

/-- VREQ_ADJUST (R22). -/
def execVreqAdjust (s : State) : Res := run s fun s => Machine.vreqAdjust s

/-- FUNCTION_START_COMPLETE (R42). -/
def execFunctionStartComplete (f : FuncRef) (checkOk : Bool) (s : State) : Res := run s fun s => startComplete s f checkOk

/-- FUNCTION_STOP_COMPLETE (R41). -/
def execFunctionStopComplete (f : FuncRef) (s : State) : Res := run s fun s => stopComplete s f

/-- LEAP_CHANGE (R468). -/
def execLeapChange (s : State) : Res := run s fun s => Machine.leapChange s

/-- HOLDOVER_ENTRY (R464). -/
def execHoldoverEntry (s : State) : Res := run s fun s => Machine.holdoverEntry s

/-- BATTERY_COUNTER_SYNC (R461). -/
def execBatteryCounterSync (s : State) : Res := run s fun s => bbcSync s

/-- RATE_CORR_SAVE (R462). -/
def execRateCorrSave (s : State) : Res := run s fun s => rateSave s

/-- RING_TICK (R471). -/
def execRingTick (leadDt : BitVec 64) (correctionNs : Nat) (hops : Nat) (rebaseCnt : Nat) (shiftNs : Int) (s : State) : Res :=
  run s fun s => Machine.ringTick s leadDt correctionNs hops rebaseCnt shiftNs

/-- GARBAGE_COLLECTION (R440). -/
def execGarbageCollection (die : Nat) (s : State) : Res := run s fun s => garbageCollect s die

/-- NAND_PROGRAM_FAILURE (R442). -/
def execNandProgramFailure (die : Nat) (s : State) : Res := run s fun s => programFailure s die

/-- NAND_ERASE_FAILURE (R428). -/
def execNandEraseFailure (die : Nat) (s : State) : Res := run s fun s => eraseFailure s die

/-- DIE_TIMEOUT (R428). -/
def execDieTimeout (die : Nat) (s : State) : Res := run s fun s => Machine.dieTimeout s die

/-- PATROL_READ (R443). -/
def execPatrolRead (die : Nat) (corrections : Nat) (eccFail : Bool) (retryOk : Bool) (rebuildOk : Bool) (s : State) : Res :=
  run s fun s => Machine.patrolRead s die corrections eccFail retryOk rebuildOk

/-- JOURNAL_PROGRAM (R107). -/
def execJournalProgram (s : State) : Res := run s fun s => Machine.journalProgram s

/-- CHECKPOINT (R109). -/
def execCheckpoint (s : State) : Res := run s fun s => Machine.checkpoint s

/-- NAND_TEMPERATURE_READ (R453). -/
def execNandTemperatureRead (temps : List Int) (s : State) : Res := run s fun s => temperatureRead s temps

/-- SCRUB_PASS (R536). -/
def execScrubPass (rank : Nat) (r : CwRead) (s : State) : Res := run s fun s => Machine.scrubPass s rank r

/-- CONTROL_CORE_RESTART (R40). -/
def execControlCoreRestart (core : Nat) (cause : Nat) (s : State) : Res := run s fun s => coreRestart s core cause

/-- CORE_RESTART_COMPLETE (R40). -/
def execCoreRestartComplete (core : Nat) (s : State) : Res := run s fun s => coreReturn s core

/-- METROLOGY_SECOND (R283). -/
def execMetrologySecond (m : MetSecond) (s : State) : Res := run s fun s => Machine.metrologySecond s m

/-- SEAL_LOOP_CHECK (R288). -/
def execSealLoopCheck (matched : Bool) (s : State) : Res := run s fun s => Machine.sealLoopCheck s matched

/-- SEAL_LOOP_PULSE (R288). -/
def execSealLoopPulse (ok : Bool) (s : State) : Res := anyRun (Machine.sealLoopPulse s ok)

/-- INFERENCE_INTERVAL_END (R285). -/
def execInferenceIntervalEnd (s : State) : Res := run s fun s => Machine.inferenceIntervalEnd s

/-- INFERENCE_WINDOW_END (R295). -/
def execInferenceWindowEnd (s : State) : Res := tailRun s fun s => Machine.inferenceWindowEnd s

/-- BALANCE_EVALUATION (R299). -/
def execBalanceEvaluation (feeder : Nat) (s : State) : Res := run s fun s => Machine.balanceEvaluation s feeder

/-- LOG_RECORD_WRITE (R506). -/
def execLogRecordWrite (readBackOk : Bool) (s : State) : Res := run s fun s => Machine.logRecordWrite s readBackOk

/-- FLURRY_TOKEN (R505). -/
def execFlurryToken (code : Nat) (s : State) : Res := run s fun s => Machine.flurryToken s code

/-- TRIAL_WINDOW_EXPIRY (R493). -/
def execTrialWindowExpiry (s : State) : Res := run s fun s => trialExpiry s

/-- BACKGROUND_MIGRATION (R113). -/
def execBackgroundMigration (s : State) : Res := tailRun s fun s => Machine.backgroundMigration s

/-- PCIE_LINK_DOWN (R176). -/
def execPcieLinkDown (s : State) : Res := run s fun s => linkDown s

/-- NAND_PAGE_PROGRAMMED (R436). -/
def execNandPageProgrammed (die : Nat) (s : State) : Res := run s fun s => pageProgrammed s die

/-- BOUNDARY_SCAN_INSTRUCTION (R537). -/
def execBoundaryScanInstruction (instr : Nat) (s : State) : Res := anyRun (scanInstr s instr)

end Sys2Proof.Machine
end

