-- ==== Sys2Proof/Machine/RowsHarness.lean ====
section
/-!
DEFINITION. The rows of the harness (13).
-/
namespace Sys2Proof.Machine
open Sys2Proof

/-- HEARTBEAT_TRANSMIT (R404). -/
def execHeartbeatTransmit (s : State) : Res := run s fun s => Machine.heartbeatTransmit s

/-- HEARTBEAT (R407). -/
def execHeartbeat (port : Nat) (origin : Nat) (hops : Nat) (epoch : Nat) (s : State) : Res :=
  run s fun s => Machine.heartbeat s port origin hops epoch

/-- RING_TICK_TRANSMIT (R404). -/
def execRingTickTransmit (s : State) : Res := run s fun s => Machine.ringTickTransmit s

/-- STATUS_FRAME_TRANSMIT (R404). -/
def execStatusFrameTransmit (s : State) : Res := run s fun s => statusTransmit s

/-- STATUS (R424). -/
def execStatus (pos : Nat) (ent : HarnEnt) (s : State) : Res := run s fun s => statusRx s pos ent

/-- LINK_ACK (R405). -/
def execLinkAck (port : Nat) (lseq : Nat) (s : State) : Res := run s fun s => Machine.linkAck s port lseq

/-- REPLAY_RESEND (R405). -/
def execReplayResend (port : Nat) (s : State) : Res := run s fun s => Machine.replayResend s port

/-- LANE_FAILURE (R406). -/
def execLaneFailure (lane : Nat) (s : State) : Res := run s fun s => Machine.laneFailure s lane

/-- PORT_BROKEN (R408). -/
def execPortBroken (port : Nat) (s : State) : Res := run s fun s => Machine.portBroken s port

/-- PORT_RETRAIN (R408). -/
def execPortRetrain (port : Nat) (s : State) : Res := run s fun s => Machine.portRetrain s port

/-- MIRROR_RAW (R413). -/
def execMirrorRaw (src : Nat) (id : Nat) (epoch : Nat) (f : Frame) (s : State) : Res :=
  run s fun s => Machine.mirrorRaw s src id epoch f

/-- MIRROR_STATE (R413). -/
def execMirrorState (src : Nat) (epoch : Nat) (e : JEnt) (s : State) : Res := run s fun s => Machine.mirrorState s src epoch e

/-- MIRROR_READING (R413). -/
def execMirrorReading (src : Nat) (id : Nat) (epoch : Nat) (rd : ReadRec) (post : Option EpRec) (s : State) : Res :=
  run s fun s => Machine.mirrorReading s src id epoch rd post

/-- MIRROR_CMD (R413). -/
def execMirrorCmd (src : Nat) (epoch : Nat) (c : MCmd) (s : State) : Res := run s fun s => Machine.mirrorCmd s src epoch c

/-- RELEASE (R413). -/
def execRelease (src : Nat) (epoch : Nat) (kind : Nat) (id : Nat) (s : State) : Res :=
  run s fun s => releaseRx s src epoch kind id

/-- SYNC_COPY (R415). -/
def execSyncCopy (src : Nat) (e : JEnt) (s : State) : Res := run s fun s => Machine.syncCopy s src e

/-- MIRROR_SYNC_COMPLETE (R415). -/
def execMirrorSyncComplete (s : State) : Res := run s fun s => Machine.mirrorSyncComplete s

/-- MIRROR_GATE_TIMEOUT (R414). -/
def execMirrorGateTimeout (s : State) : Res := run s fun s => Machine.mirrorGateTimeout s

/-- SILENCE_DECLARED (R417). -/
def execSilenceDeclared (pos : Nat) (lowReturned : Bool) (s : State) : Res :=
  run s fun s => Machine.silenceDeclared s pos lowReturned

/-- TC0_STAGE_HANG (R417). -/
def execTc0StageHang (s : State) : Res := run s fun s => Machine.tc0StageHang s

/-- JOIN_REQUEST (R409). -/
def execJoinRequest (side : Nat) (lowUs : Nat) (s : State) : Res := run s fun s => Machine.joinRequest s side lowUs

/-- JOIN (R410). -/
def execJoin (req : JoinReq) (s : State) : Res := run s fun s => joinRx s req

/-- JOIN_GRANT (R409). -/
def execJoinGrant (pos : Nat) (server : Nat) (served : Bool) (ringId : BitVec 64) (s : State) : Res :=
  run s fun s => Machine.joinGrant s pos server served ringId

/-- JOIN_REFUSE (R410). -/
def execJoinRefuse (err : Nat) (s : State) : Res := run s fun s => Machine.joinRefuse s err

/-- HARNESS_LINK_TRAINED (R409). -/
def execHarnessLinkTrained (s : State) : Res := run s fun s => harnessTrained s

/-- OWNER (R420). -/
def execOwner (pos : Nat) (server : Nat) (valid : Bool) (epoch : Nat) (s : State) : Res :=
  run s fun s => ownerRx s pos server valid epoch

end Sys2Proof.Machine
end

