-- ==== Sys2Proof/Machine/RowsHost.lean ====
section
/-!
DEFINITION. The rows of host accesses and of the host rings (02, 20).
-/
namespace Sys2Proof.Machine
open Sys2Proof

/-- SQ_TAIL_DOORBELL (R55). -/
def execSqTailDoorbell (q : Nat) (off : Nat) (size : Nat) (value : Word) (s : State) : Res :=
  hostRun s fun s => sqTailDoorbell s q off size value

/-- CQ_HEAD_DOORBELL (R65). -/
def execCqHeadDoorbell (c : Nat) (off : Nat) (size : Nat) (value : Word) (s : State) : Res :=
  hostRun s fun s => cqHeadDoorbell s c off size value

/-- RR_GRANT_DOORBELL (R74). -/
def execRrGrantDoorbell (r : Nat) (off : Nat) (size : Nat) (value : Word) (s : State) : Res :=
  hostRun s fun s => rrGrantDoorbell s r off size value

/-- PUSH_WRITE (R69). -/
def execPushWrite (page : Nat) (off : Nat) (len : Nat) (raw : BitVec 512) (s : State) : Res :=
  hostRun s fun s => Machine.pushWrite s page off len raw

/-- RING_ENABLE (R52). -/
def execRingEnable (kind : Nat) (n : Nat) (value : Word) (s : State) : Res := hostRun s fun s => ringCfgWrite s kind n value

/-- RING_DISABLE (R52). -/
def execRingDisable (kind : Nat) (n : Nat) (value : Word) (s : State) : Res := hostRun s fun s => ringCfgWrite s kind n value

/-- DESCRIPTOR_FETCH (R56). -/
def execDescriptorFetch (q : Nat) (raws : List (BitVec 512)) (s : State) : Res :=
  run s fun s => Machine.descriptorFetch s q raws

/-- TC0_ADMISSION (R29). -/
def execTc0Admission (s : State) : Res := run s fun s => Machine.tc0Admission s

/-- PUSH_ADMISSION (R88). -/
def execPushAdmission (s : State) : Res := run s fun s => Machine.pushAdmission s

/-- COMPLETION_WRITE (R63). -/
def execCompletionWrite (c : Nat) (s : State) : Res := run s fun s => Machine.completionWrite s c

/-- COMPLETION_INTERRUPT_TIMER (R78). -/
def execCompletionInterruptTimer (c : Nat) (s : State) : Res := run s fun s => completionTimer s c

/-- IRQ_EN_WRITE (R79). -/
def execIrqEnWrite (c : Nat) (value : Word) (s : State) : Res := hostRun s fun s => hostWrite s (0x1C0C + 0x20 * c) 4 value

/-- MSIX_VECTOR_UNMASK (R79). -/
def execMsixVectorUnmask (v : Nat) (s : State) : Res := hostRun s fun s => vectorUnmask s v

/-- READING_DELIVERY (R75). -/
def execReadingDelivery (r : Nat) (s : State) : Res := run s fun s => deliveryRow s fun s => Machine.readingDelivery s r

/-- FUNCTION_LEVEL_RESET (R49). -/
def execFunctionLevelReset (s : State) : Res := hostRun s fun s => Machine.functionLevelReset s

/-- REGISTER_WRITE (R12). -/
def execRegisterWrite (off : Nat) (size : Nat) (value : Word) (s : State) : Res := hostRun s fun s => hostWrite s off size value

/-- WM_CFG_WRITE (R38). -/
def execWmCfgWrite (n : Nat) (value : Word) (s : State) : Res := hostRun s fun s => hostWrite s (0x20 + 4 * n) 4 value

/-- KL_CTRL_CLEAR (R193). -/
def execKlCtrlClear (value : Word) (s : State) : Res := hostRun s fun s => hostWrite s 0x4020 4 value

/-- PACE_PEAK_CLEAR (R44). -/
def execPacePeakClear (value : Word) (s : State) : Res := hostRun s fun s => hostWrite s 0x14 4 value

/-- INFLIGHT_PEAK_CLEAR (R92). -/
def execInflightPeakClear (value : Word) (s : State) : Res := hostRun s fun s => hostWrite s 0x1004 4 value

/-- HOLD_PEAK_CLEAR (R187). -/
def execHoldPeakClear (value : Word) (s : State) : Res := hostRun s fun s => hostWrite s 0x30C 4 value

/-- CHG_ROLE_WRITE (R323). -/
def execChgRoleWrite (g : Nat) (value : Word) (s : State) : Res := hostRun s fun s => hostWrite s (0x6400 + 4 * g) 4 value

/-- CNT_LO_READ (R516). -/
def execCntLoRead (k : Nat) (s : State) : Res := hostRun s fun s => Machine.cntLoRead s k

/-- DT_LO_READ (R476). -/
def execDtLoRead (s : State) : Res := hostRun s fun s => Machine.dtLoRead s

/-- BW_SEL_WRITE (R524). -/
def execBwSelWrite (value : Word) (s : State) : Res := hostRun s fun s => hostWrite s 0x904 4 value

/-- BW_WINDOW_MS_WRITE (R523). -/
def execBwWindowMsWrite (value : Word) (s : State) : Res := hostRun s fun s => hostWrite s 0x900 4 value

/-- SAMPLER_ARM (R521). -/
def execSamplerArm (n : Nat) (value : Word) (s : State) : Res := hostRun s fun s => hostWrite s (0x800 + 0x20 * n) 4 value

end Sys2Proof.Machine
end

