-- ==== Sys2Proof/Machine/RowsPath.lean ====
section
/-!
DEFINITION. The rows of the reading path, engines, kennel, seals and billing (04 to 08).
-/
namespace Sys2Proof.Machine
open Sys2Proof

/-- RELAY_CONFIRMATION_TIMEOUT (R277). -/
def execRelayConfirmationTimeout (eid : Nat) (s : State) : Res := tailRun s fun s => relayTimeout s eid

/-- PARSE_AND_CLASSIFY (R128). -/
def execParseAndClassify (tunnel : Bool) (src : Nat) (s : State) : Res := run s fun s => deliveryRow s fun s => Machine.parseAndClassify s tunnel src

/-- KEY_UNWRAP (R202). -/
def execKeyUnwrap (s : State) : Res := run s fun s => Machine.keyUnwrap s

/-- HOLD_RESERVATION (R170). -/
def execHoldReservation (s : State) : Res := run s fun s => Machine.holdReservation s

/-- DECRYPT_AND_VERIFY (R131). -/
def execDecryptAndVerify (pipe : Nat) (faultFlag : Bool) (secondOk : Bool) (s : State) : Res :=
  run s fun s => decryptVerify s pipe faultFlag secondOk

/-- VALIDATION (R136). -/
def execValidation (s : State) : Res := run s fun s => validationRow s

/-- POSTING (R256). -/
def execPosting (s : State) : Res :=
  tailRunTc s (match postFront s with | some it => it.cls | none => 1) fun s => postingRow s

/-- STORE_APPEND (R433). -/
def execStoreAppend (s : State) : Res := run s fun s => Machine.storeAppend s

/-- SEAL (R229). -/
def execSealLeaf (s : State) : Res := run s fun s => sealStep s

/-- BATCH_CLOSE_TIMER (R231). -/
def execBatchCloseTimer (s : State) : Res := run s fun s => Machine.batchCloseTimer s

/-- BATCH_SIGN (R235). -/
def execBatchSign (s : State) : Res := run s fun s => Machine.batchSign s

/-- FILTER_ENTRY_EVICTION (R134). -/
def execFilterEntryEviction (s : State) : Res := run s fun s => filterEvict s

/-- SLOT_ZEROIZE (R202). -/
def execSlotZeroize (slot : Nat) (s : State) : Res := run s fun s => slotZeroizeRow s slot

/-- KEY_SLOT_BUSY_TIMEOUT (R205). -/
def execKeySlotBusyTimeout (uid : Nat) (s : State) : Res := run s fun s => Machine.keySlotBusyTimeout s uid

/-- SHARE_RERANDOMISE (R206). -/
def execShareRerandomise (s : State) : Res := run s fun s => Machine.shareRerandomise s

/-- MASK_SET_REFILL (R156). -/
def execMaskSetRefill (pipe : Nat) (s : State) : Res := run s fun s => maskRefill s pipe

/-- NOISE_SOURCE_FAIL (R163). -/
def execNoiseSourceFail (source : Nat) (s : State) : Res := run s fun s => noiseFail s source

/-- NOISE_SOURCE_RETURN (R163). -/
def execNoiseSourceReturn (source : Nat) (s : State) : Res := run s fun s => noiseReturn s source

/-- DRBG_RESEED (R164). -/
def execDrbgReseed (s : State) : Res := run s fun s => Machine.drbgReseed s

/-- MASK_EXPANDER_RESEED (R164). -/
def execMaskExpanderReseed (pipe : Nat) (s : State) : Res := run s fun s => maskReseed s pipe

/-- INTERVAL_END (R254). -/
def execIntervalEnd (s : State) : Res := run s fun s => boundaryPass s 1

/-- DEMAND_END (R254). -/
def execDemandEnd (s : State) : Res := run s fun s => boundaryPass s 2

/-- TARIFF_SWITCH (R254). -/
def execTariffSwitch (s : State) : Res := run s fun s => boundaryPass s 5

/-- TARIFF_ACTIVATE (R249). -/
def execTariffActivate (s : State) : Res := tailRun s fun s => Machine.tariffActivate s

/-- PERIOD_CLOSE (R254). -/
def execPeriodClose (s : State) : Res := tailRun s fun s => Machine.periodClose s

/-- FRIENDLY_END (R254). -/
def execFriendlyEnd (s : State) : Res := run s fun s => Machine.friendlyEnd s

/-- CLOSE_SWEEP (R265). -/
def execCloseSweep (s : State) : Res := sweepRun s fun s => Machine.closeSweep s

/-- FRIENDLY_EVALUATION_SWEEP (R254). -/
def execFriendlyEvaluationSweep (s : State) : Res := tailRun s fun s => friendlySweep s

end Sys2Proof.Machine
end

