-- ==== Sys2Proof/Machine/Dispatch.lean ====
section
/-!
DEFINITION. One arm per command.
-/
namespace Sys2Proof.Machine
open Sys2Proof

def exec (i : Instr) (s : State) : Host.Outcome State Fault Refusal :=
  match i with
  | .opNop uid => Sys2Proof.Machine.execOpNop uid s
  | .opStatus uid => Sys2Proof.Machine.execOpStatus uid s
  | .opAbort uid => Sys2Proof.Machine.execOpAbort uid s
  | .opFuncCtrlEnable uid => Sys2Proof.Machine.execOpFuncCtrlEnable uid s
  | .opFuncCtrlDisable uid => Sys2Proof.Machine.execOpFuncCtrlDisable uid s
  | .opFuncCtrlQuery uid => Sys2Proof.Machine.execOpFuncCtrlQuery uid s
  | .opEpProvision uid blob => Sys2Proof.Machine.execOpEpProvision uid blob s
  | .opEpUpdate uid => Sys2Proof.Machine.execOpEpUpdate uid s
  | .opEpRetire uid => Sys2Proof.Machine.execOpEpRetire uid s
  | .retireDrainEnd uid => Sys2Proof.Machine.execRetireDrainEnd uid s
  | .opEpRead uid => Sys2Proof.Machine.execOpEpRead uid s
  | .opKeyInstall uid blob => Sys2Proof.Machine.execOpKeyInstall uid blob s
  | .opKeyErase uid => Sys2Proof.Machine.execOpKeyErase uid s
  | .opKeyPin uid => Sys2Proof.Machine.execOpKeyPin uid s
  | .opKeyUnpin uid => Sys2Proof.Machine.execOpKeyUnpin uid s
  | .opKeyInvalidate uid => Sys2Proof.Machine.execOpKeyInvalidate uid s
  | .opBatchGetLog uid => Sys2Proof.Machine.execOpBatchGetLog uid s
  | .opBatchGetPath uid => Sys2Proof.Machine.execOpBatchGetPath uid s
  | .batchGetWaitExpiry uid => Sys2Proof.Machine.execBatchGetWaitExpiry uid s
  | .opSealKeySet uid => Sys2Proof.Machine.execOpSealKeySet uid s
  | .opTunnelRx uid entries => Sys2Proof.Machine.execOpTunnelRx uid entries s
  | .opQuarantineRead uid => Sys2Proof.Machine.execOpQuarantineRead uid s
  | .opDisconnect uid => Sys2Proof.Machine.execOpDisconnect uid s
  | .opReconnect uid => Sys2Proof.Machine.execOpReconnect uid s
  | .opLoadLimit uid => Sys2Proof.Machine.execOpLoadLimit uid s
  | .opReadOnDemand uid targets => Sys2Proof.Machine.execOpReadOnDemand uid targets s
  | .opCreditPush uid token => Sys2Proof.Machine.execOpCreditPush uid token s
  | .opTariffPush uid targets => Sys2Proof.Machine.execOpTariffPush uid targets s
  | .opDistStart uid buf => Sys2Proof.Machine.execOpDistStart uid buf s
  | .opDistResume uid buf held tstates => Sys2Proof.Machine.execOpDistResume uid buf held tstates s
  | .opCollectPlan uid targets => Sys2Proof.Machine.execOpCollectPlan uid targets s
  | .opTariffLoad uid table => Sys2Proof.Machine.execOpTariffLoad uid table s
  | .opCalendarLoad uid cal => Sys2Proof.Machine.execOpCalendarLoad uid cal s
  | .opLedgerAdjustTopup uid => Sys2Proof.Machine.execOpLedgerAdjustTopup uid s
  | .opLedgerAdjustDebit uid => Sys2Proof.Machine.execOpLedgerAdjustDebit uid s
  | .opLedgerAdjustEmergSet uid => Sys2Proof.Machine.execOpLedgerAdjustEmergSet uid s
  | .opLedgerAdjustLowSet uid => Sys2Proof.Machine.execOpLedgerAdjustLowSet uid s
  | .opLedgerAdjustAutoReconnect uid => Sys2Proof.Machine.execOpLedgerAdjustAutoReconnect uid s
  | .opLedgerAdjustRelease uid => Sys2Proof.Machine.execOpLedgerAdjustRelease uid s
  | .opRegSnapshot uid targets => Sys2Proof.Machine.execOpRegSnapshot uid targets s
  | .opCrevasseReportBalance uid => Sys2Proof.Machine.execOpCrevasseReportBalance uid s
  | .opCrevasseReportInference uid => Sys2Proof.Machine.execOpCrevasseReportInference uid s
  | .opCrevasseReportScores uid => Sys2Proof.Machine.execOpCrevasseReportScores uid s
  | .opCrevasseReportSnapshot uid => Sys2Proof.Machine.execOpCrevasseReportSnapshot uid s
  | .crevasseReportWaitExpiry uid => Sys2Proof.Machine.execCrevasseReportWaitExpiry uid s
  | .opFeederMap uid => Sys2Proof.Machine.execOpFeederMap uid s
  | .opCalReseal uid block authOk sigOk => Sys2Proof.Machine.execOpCalReseal uid block authOk sigOk s
  | .opStoreQuery uid => Sys2Proof.Machine.execOpStoreQuery uid s
  | .opStoreDiscard uid => Sys2Proof.Machine.execOpStoreDiscard uid s
  | .opStoreReplay uid => Sys2Proof.Machine.execOpStoreReplay uid s
  | .opStoreHealth uid => Sys2Proof.Machine.execOpStoreHealth uid s
  | .opTimeMsg uid => Sys2Proof.Machine.execOpTimeMsg uid s
  | .opTimeRebase uid => Sys2Proof.Machine.execOpTimeRebase uid s
  | .opMeterTimeSet uid targets => Sys2Proof.Machine.execOpMeterTimeSet uid targets s
  | .opHarnStatusRing uid => Sys2Proof.Machine.execOpHarnStatusRing uid s
  | .opHarnStatusTakenOver uid => Sys2Proof.Machine.execOpHarnStatusTakenOver uid s
  | .opHarnReturn uid => Sys2Proof.Machine.execOpHarnReturn uid s
  | .opChLoopback uid errors => Sys2Proof.Machine.execOpChLoopback uid errors s
  | .opDutyTableLoad uid plan => Sys2Proof.Machine.execOpDutyTableLoad uid plan s
  | .opImgBlock uid data mismatch => Sys2Proof.Machine.execOpImgBlock uid data mismatch s
  | .opImgVerify uid chk => Sys2Proof.Machine.execOpImgVerify uid chk s
  | .opImgActivate uid img => Sys2Proof.Machine.execOpImgActivate uid img s
  | .opImgConfirmAccept uid => Sys2Proof.Machine.execOpImgConfirmAccept uid s
  | .opImgConfirmReject uid => Sys2Proof.Machine.execOpImgConfirmReject uid s
  | .opConfigWrite uid container chk => Sys2Proof.Machine.execOpConfigWrite uid container chk s
  | .opKat uid failing => Sys2Proof.Machine.execOpKat uid failing s
  | .opLogReadRead uid => Sys2Proof.Machine.execOpLogReadRead uid s
  | .opLogReadClear uid verifyOk => Sys2Proof.Machine.execOpLogReadClear uid verifyOk s
  | .opCounterPresetPreset uid => Sys2Proof.Machine.execOpCounterPresetPreset uid s
  | .opCounterPresetReadAndPreset uid => Sys2Proof.Machine.execOpCounterPresetReadAndPreset uid s
  | .opCounterPresetRead uid => Sys2Proof.Machine.execOpCounterPresetRead uid s
  | .sqTailDoorbell q off size value => Sys2Proof.Machine.execSqTailDoorbell q off size value s
  | .cqHeadDoorbell c off size value => Sys2Proof.Machine.execCqHeadDoorbell c off size value s
  | .rrGrantDoorbell r off size value => Sys2Proof.Machine.execRrGrantDoorbell r off size value s
  | .pushWrite page off len raw => Sys2Proof.Machine.execPushWrite page off len raw s
  | .ringEnable kind n value => Sys2Proof.Machine.execRingEnable kind n value s
  | .ringDisable kind n value => Sys2Proof.Machine.execRingDisable kind n value s
  | .descriptorFetch q raws => Sys2Proof.Machine.execDescriptorFetch q raws s
  | .tc0Admission => Sys2Proof.Machine.execTc0Admission s
  | .pushAdmission => Sys2Proof.Machine.execPushAdmission s
  | .completionWrite c => Sys2Proof.Machine.execCompletionWrite c s
  | .completionInterruptTimer c => Sys2Proof.Machine.execCompletionInterruptTimer c s
  | .irqEnWrite c value => Sys2Proof.Machine.execIrqEnWrite c value s
  | .msixVectorUnmask v => Sys2Proof.Machine.execMsixVectorUnmask v s
  | .readingDelivery r => Sys2Proof.Machine.execReadingDelivery r s
  | .functionLevelReset => Sys2Proof.Machine.execFunctionLevelReset s
  | .registerWrite off size value => Sys2Proof.Machine.execRegisterWrite off size value s
  | .wmCfgWrite n value => Sys2Proof.Machine.execWmCfgWrite n value s
  | .klCtrlClear value => Sys2Proof.Machine.execKlCtrlClear value s
  | .pacePeakClear value => Sys2Proof.Machine.execPacePeakClear value s
  | .inflightPeakClear value => Sys2Proof.Machine.execInflightPeakClear value s
  | .holdPeakClear value => Sys2Proof.Machine.execHoldPeakClear value s
  | .chgRoleWrite g value => Sys2Proof.Machine.execChgRoleWrite g value s
  | .cntLoRead k => Sys2Proof.Machine.execCntLoRead k s
  | .dtLoRead => Sys2Proof.Machine.execDtLoRead s
  | .bwSelWrite value => Sys2Proof.Machine.execBwSelWrite value s
  | .bwWindowMsWrite value => Sys2Proof.Machine.execBwWindowMsWrite value s
  | .bwWindowEnd => Sys2Proof.Machine.execBwWindowEnd s
  | .samplerArm n value => Sys2Proof.Machine.execSamplerArm n value s
  | .resetAssert lowNs => Sys2Proof.Machine.execResetAssert lowNs s
  | .resetRelease inp => Sys2Proof.Machine.execResetRelease inp s
  | .bootReady => Sys2Proof.Machine.execBootReady s
  | .pfailAssert lowNs => Sys2Proof.Machine.execPfailAssert lowNs s
  | .pfailDeassert => Sys2Proof.Machine.execPfailDeassert s
  | .bankLevelChange g mv heldUs => Sys2Proof.Machine.execBankLevelChange g mv heldUs s
  | .vbatLow mv => Sys2Proof.Machine.execVbatLow mv s
  | .paceMeasurement ps => Sys2Proof.Machine.execPaceMeasurement ps s
  | .vreqAdjust => Sys2Proof.Machine.execVreqAdjust s
  | .functionStartComplete f checkOk => Sys2Proof.Machine.execFunctionStartComplete f checkOk s
  | .functionStopComplete f => Sys2Proof.Machine.execFunctionStopComplete f s
  | .channelFrameReceive ch f lk => Sys2Proof.Machine.execChannelFrameReceive ch f lk s
  | .interCharacterGap ch gapChars => Sys2Proof.Machine.execInterCharacterGap ch gapChars s
  | .modemReadyTimeout ch => Sys2Proof.Machine.execModemReadyTimeout ch s
  | .channelFrameTransmit chan => Sys2Proof.Machine.execChannelFrameTransmit chan s
  | .dutyBucketRollover => Sys2Proof.Machine.execDutyBucketRollover s
  | .dutyWaitTimeout ch uid => Sys2Proof.Machine.execDutyWaitTimeout ch uid s
  | .beaconTransmit ch => Sys2Proof.Machine.execBeaconTransmit ch s
  | .beaconReceive ch panId addr sfNum => Sys2Proof.Machine.execBeaconReceive ch panId addr sfNum s
  | .beaconMissed ch => Sys2Proof.Machine.execBeaconMissed ch s
  | .memberSupervisionTimeout ch => Sys2Proof.Machine.execMemberSupervisionTimeout ch s
  | .enhancedAcknowledgement ch eid lk timeCorrUs tc0 deferred => Sys2Proof.Machine.execEnhancedAcknowledgement ch eid lk timeCorrUs tc0 deferred s
  | .linkEvent eid => Sys2Proof.Machine.execLinkEvent eid s
  | .linkEventMissed eid => Sys2Proof.Machine.execLinkEventMissed eid s
  | .linkDrop eid => Sys2Proof.Machine.execLinkDrop eid s
  | .lbtBackoff ch idle => Sys2Proof.Machine.execLbtBackoff ch idle s
  | .ackWaitExpiry ch => Sys2Proof.Machine.execAckWaitExpiry ch s
  | .linkAcknowledgement ch eid => Sys2Proof.Machine.execLinkAcknowledgement ch eid s
  | .responseTimeout txn => Sys2Proof.Machine.execResponseTimeout txn s
  | .commandWaitTimeout uid => Sys2Proof.Machine.execCommandWaitTimeout uid s
  | .collectionInstant eid => Sys2Proof.Machine.execCollectionInstant eid s
  | .relayConfirmationTimeout eid => Sys2Proof.Machine.execRelayConfirmationTimeout eid s
  | .parseAndClassify tunnel src => Sys2Proof.Machine.execParseAndClassify tunnel src s
  | .keyUnwrap => Sys2Proof.Machine.execKeyUnwrap s
  | .holdReservation => Sys2Proof.Machine.execHoldReservation s
  | .decryptAndVerify pipe faultFlag secondOk => Sys2Proof.Machine.execDecryptAndVerify pipe faultFlag secondOk s
  | .validation => Sys2Proof.Machine.execValidation s
  | .posting => Sys2Proof.Machine.execPosting s
  | .storeAppend => Sys2Proof.Machine.execStoreAppend s
  | .sealLeaf => Sys2Proof.Machine.execSealLeaf s
  | .batchCloseTimer => Sys2Proof.Machine.execBatchCloseTimer s
  | .batchSign => Sys2Proof.Machine.execBatchSign s
  | .filterEntryEviction => Sys2Proof.Machine.execFilterEntryEviction s
  | .slotZeroize slot => Sys2Proof.Machine.execSlotZeroize slot s
  | .keySlotBusyTimeout uid => Sys2Proof.Machine.execKeySlotBusyTimeout uid s
  | .shareRerandomise => Sys2Proof.Machine.execShareRerandomise s
  | .maskSetRefill pipe => Sys2Proof.Machine.execMaskSetRefill pipe s
  | .noiseSourceFail source => Sys2Proof.Machine.execNoiseSourceFail source s
  | .noiseSourceReturn source => Sys2Proof.Machine.execNoiseSourceReturn source s
  | .drbgReseed => Sys2Proof.Machine.execDrbgReseed s
  | .maskExpanderReseed pipe => Sys2Proof.Machine.execMaskExpanderReseed pipe s
  | .intervalEnd => Sys2Proof.Machine.execIntervalEnd s
  | .demandEnd => Sys2Proof.Machine.execDemandEnd s
  | .tariffSwitch => Sys2Proof.Machine.execTariffSwitch s
  | .tariffActivate => Sys2Proof.Machine.execTariffActivate s
  | .periodClose => Sys2Proof.Machine.execPeriodClose s
  | .friendlyEnd => Sys2Proof.Machine.execFriendlyEnd s
  | .closeSweep => Sys2Proof.Machine.execCloseSweep s
  | .friendlyEvaluationSweep => Sys2Proof.Machine.execFriendlyEvaluationSweep s
  | .leapChange => Sys2Proof.Machine.execLeapChange s
  | .holdoverEntry => Sys2Proof.Machine.execHoldoverEntry s
  | .batteryCounterSync => Sys2Proof.Machine.execBatteryCounterSync s
  | .rateCorrSave => Sys2Proof.Machine.execRateCorrSave s
  | .heartbeatTransmit => Sys2Proof.Machine.execHeartbeatTransmit s
  | .heartbeat port origin hops epoch => Sys2Proof.Machine.execHeartbeat port origin hops epoch s
  | .ringTickTransmit => Sys2Proof.Machine.execRingTickTransmit s
  | .ringTick leadDt correctionNs hops rebaseCnt shiftNs => Sys2Proof.Machine.execRingTick leadDt correctionNs hops rebaseCnt shiftNs s
  | .statusFrameTransmit => Sys2Proof.Machine.execStatusFrameTransmit s
  | .status pos ent => Sys2Proof.Machine.execStatus pos ent s
  | .linkAck port lseq => Sys2Proof.Machine.execLinkAck port lseq s
  | .replayResend port => Sys2Proof.Machine.execReplayResend port s
  | .laneFailure lane => Sys2Proof.Machine.execLaneFailure lane s
  | .portBroken port => Sys2Proof.Machine.execPortBroken port s
  | .portRetrain port => Sys2Proof.Machine.execPortRetrain port s
  | .mirrorRaw src id epoch f => Sys2Proof.Machine.execMirrorRaw src id epoch f s
  | .mirrorState src epoch e => Sys2Proof.Machine.execMirrorState src epoch e s
  | .mirrorReading src id epoch rd post => Sys2Proof.Machine.execMirrorReading src id epoch rd post s
  | .mirrorCmd src epoch c => Sys2Proof.Machine.execMirrorCmd src epoch c s
  | .release src epoch kind id => Sys2Proof.Machine.execRelease src epoch kind id s
  | .syncCopy src e => Sys2Proof.Machine.execSyncCopy src e s
  | .mirrorSyncComplete => Sys2Proof.Machine.execMirrorSyncComplete s
  | .mirrorGateTimeout => Sys2Proof.Machine.execMirrorGateTimeout s
  | .silenceDeclared pos lowReturned => Sys2Proof.Machine.execSilenceDeclared pos lowReturned s
  | .tc0StageHang => Sys2Proof.Machine.execTc0StageHang s
  | .joinRequest side lowUs => Sys2Proof.Machine.execJoinRequest side lowUs s
  | .join req => Sys2Proof.Machine.execJoin req s
  | .joinGrant pos server served ringId => Sys2Proof.Machine.execJoinGrant pos server served ringId s
  | .joinRefuse err => Sys2Proof.Machine.execJoinRefuse err s
  | .harnessLinkTrained => Sys2Proof.Machine.execHarnessLinkTrained s
  | .owner pos server valid epoch => Sys2Proof.Machine.execOwner pos server valid epoch s
  | .garbageCollection die => Sys2Proof.Machine.execGarbageCollection die s
  | .nandProgramFailure die => Sys2Proof.Machine.execNandProgramFailure die s
  | .nandEraseFailure die => Sys2Proof.Machine.execNandEraseFailure die s
  | .dieTimeout die => Sys2Proof.Machine.execDieTimeout die s
  | .patrolRead die corrections eccFail retryOk rebuildOk => Sys2Proof.Machine.execPatrolRead die corrections eccFail retryOk rebuildOk s
  | .journalProgram => Sys2Proof.Machine.execJournalProgram s
  | .checkpoint => Sys2Proof.Machine.execCheckpoint s
  | .nandTemperatureRead temps => Sys2Proof.Machine.execNandTemperatureRead temps s
  | .scrubPass rank r => Sys2Proof.Machine.execScrubPass rank r s
  | .controlCoreRestart core cause => Sys2Proof.Machine.execControlCoreRestart core cause s
  | .coreRestartComplete core => Sys2Proof.Machine.execCoreRestartComplete core s
  | .metrologySecond m => Sys2Proof.Machine.execMetrologySecond m s
  | .sealLoopCheck matched => Sys2Proof.Machine.execSealLoopCheck matched s
  | .sealLoopPulse ok => Sys2Proof.Machine.execSealLoopPulse ok s
  | .inferenceIntervalEnd => Sys2Proof.Machine.execInferenceIntervalEnd s
  | .inferenceWindowEnd => Sys2Proof.Machine.execInferenceWindowEnd s
  | .balanceEvaluation feeder => Sys2Proof.Machine.execBalanceEvaluation feeder s
  | .logRecordWrite readBackOk => Sys2Proof.Machine.execLogRecordWrite readBackOk s
  | .flurryToken code => Sys2Proof.Machine.execFlurryToken code s
  | .trialWindowExpiry => Sys2Proof.Machine.execTrialWindowExpiry s
  | .backgroundMigration => Sys2Proof.Machine.execBackgroundMigration s
  | .pcieLinkDown => Sys2Proof.Machine.execPcieLinkDown s
  | .nandPageProgrammed die => Sys2Proof.Machine.execNandPageProgrammed die s
  | .boundaryScanInstruction instr => Sys2Proof.Machine.execBoundaryScanInstruction instr s

end Sys2Proof.Machine
end

