-- ==== Sys2Proof/Safety.lean ====
section
/-!
DEFINITION. What a safe run is: no fault, no refusal, and the watermarks of every state between steps agree with the queues
they watch.
-/
namespace Sys2Proof.Safety
open Sys2Proof Sys2Proof.Machine

/-- A step that goes on. -/
def Goes (s : State) : Prop := ∃ t, step s = .next t

/-- One watermark agrees with its queue (01 R36, R37): not routed, it is deasserted; asserted, its queue stands above LOW;
deasserted, below HIGH. -/
def WmAgrees (s : State) (n : Nat) : Prop :=
  let w := regGet s (0x20 + 4 * n)
  (wmRouted w = false → lget false s.glob.wm n = false) ∧
  (wmRouted w = true → lget false s.glob.wm n = true → wmLow w * queueDepth s (wmId w) < 64 * queueUsed s (wmId w)) ∧
  (wmRouted w = true → lget false s.glob.wm n = false → 64 * queueUsed s (wmId w) < wmHigh w * queueDepth s (wmId w))

/-- The invariant: all four watermarks agree with their queues. -/
def WmInv (s : State) : Prop := ∀ n, n < 4 → WmAgrees s n

/-- The host memory is in its canonical form: addresses rising, no byte listed that reads 0. -/
def MemWf (s : State) : Bool := twf (0 : Byte) s.hostMem

/-! ## What statements say of a descriptor -/

/-- The device acts, and the descriptor `uid` names is in flight, admitted, not ended, of opcode `op`, its core running
its FENCE open and no earlier one to its endpoint left to act (01 R29; 02 R58, R59, R61, R88), its record in a state it
may start in (03 R96); no Function Level Reset has discarded its completion (R49). -/
abbrev Runs (s : State) (uid op : Nat) (f : Flight) : Prop :=
  awake s = true ∧ runnable s uid op = some f ∧ stateShut s uid = false ∧ f.discard = false

/-- A completion of a descriptor with this outcome waits on its ring (02 R62, R63). -/
def CplIs (t : State) (f : Flight) (status step units : Nat) (res : BitVec 128) (e : Cpl) : Prop :=
  e.uid = f.uid ∧ e.unsol = false ∧ e.sq = f.sq ∧ e.tag = dTag f.raw ∧ e.status = BitVec.ofNat 8 status ∧
  e.progress = progWord step units ∧ e.dt = dtOf t ∧ e.result = res ∧ e.irqNow = dIrqNow f.raw

/-- The descriptor's ring holds that completion last, behind what waited there before. -/
def Completed (s t : State) (f : Flight) (status step units : Nat) (res : BitVec 128) : Prop :=
  ∃ e, (cqGet t f.cq).waiting = (cqGet s f.cq).waiting ++ [e] ∧ CplIs t f status step units res e

/-- The descriptor's ring holds that completion. -/
def Formed (t : State) (f : Flight) (status step units : Nat) (res : BitVec 128) : Prop :=
  ∃ e, e ∈ (cqGet t f.cq).waiting ∧ CplIs t f status step units res e

/-- A state without a descriptor's bookkeeping: places in flight, OP_STATUS journal, completion rings, the counters and
what they signal, the journal tail, the harness ports a mirror frame leaves by, and the watermarks. -/
def rest (s : State) : State :=
  { s with
    glob := { s.glob with wm := [] }
    host := { s.host with flights := [], jrnl := [], cq := [], msixPend := [] }
    cnt := State.reset.cnt
    recs := { s.recs with jtail := [], jwait := [], jseq := 0 }
    harn := { s.harn with ports := [] }
    wire := [] }

/-- Host memory: the bytes read back from the address up, and every byte outside them reads as before. -/
def Wrote (s t : State) (a : Nat) (bytes : List Byte) : Prop :=
  memRead t.hostMem a bytes.length = bytes ∧
  ∀ x, x < a ∨ a + bytes.length ≤ x → memByte t.hostMem x = memByte s.hostMem x

end Sys2Proof.Safety
end

