-- ==== Sys2Proof/Certificates/Slice0/Obligations.lean ====
section
/-!
DEFINITION. The statements for the provers: one for each group of commands and each kind of state, with what every command
does where it completes, its frame, and where it stops or waits.
-/
open Sys2Proof Sys2Proof.Machine Sys2Proof.Safety

/-! ## The queue, the reset, whole-machine rules -/

/-- A step takes the command at the front of the queue and answers what `exec` answers for it on the state with the rest of
the queue. -/
def Obligations.StepRunsFrontCommand : Prop :=
  ∀ (c : Instr) (l : List Instr) (s : State), s.pending = c :: l → step s = exec c { s with pending := l }

/-- With nothing waiting a step is one TCXO cycle and changes nothing but the clocks (log entry 1; the model's choice). -/
def Obligations.IdleStepOnlyAdvancesClocks : Prop :=
  ∀ s : State, s.pending = [] → ∃ t, step s = .next t ∧
    { t with tcxo := s.tcxo, boot := s.boot, time := s.time } = s ∧ (s.pins.resetLow = false → t.tcxo = s.tcxo + 1)

/-- After reset every watermark agrees with its queue, the host memory is in its canonical form, nothing waits, and registers
read their reset words. -/
def Obligations.ResetStateSound : Prop :=
  WmInv State.reset ∧ MemWf State.reset = true ∧ State.reset.pending = [] ∧
  ∀ p ∈ [(0x0000, 0x0C641E4D), (0x0018, 0x03E87D00), (0x001C, 0x0000007D), (0x0040, 0x00010408), (0x0060, 0x00002222),
      (0x0200, 0x00200A03), (0x0204, 0x00001030), (0x0304, 0x000001C0), (0x0400, 0x00000001), (0x0504, 0x00002000),
      (0x0700, 0x2001E03C), (0x0900, 0x000003E8), (0x1410, 0x00000004), (0x2410, 0x00100004), (0x5004, 0x0E1001F4),
      (0x6004, 0x6A01A0AB), (0x6804, 0x0A103453), (0x800C, 0x00000008), (0x9120, 0x00001E04), (0xA000, 0x01070A00),
      (0xB010, 0x03030303), (0xC000, 0x0103E808), (0xE000, 0x0000000A), (0xF014, 0x00FF0000)],
    (readReg State.reset p.1).toNat = p.2

/-- Every step from a state whose watermarks agree with their queues leads to one whose watermarks do (R36, R37). -/
def Obligations.WatermarksAgreeKept : Prop :=
  ∀ s t : State, WmInv s → step s = .next t → WmInv t

/-- While RESET_n is low, or a start is held in phase 0x1, no command acts but the events of pins and of the backup
domain: RESET_n, PFAIL_n, VBAT, the VDD_CH banks, the seal loop and the test access port. -/
def Obligations.HeldDeviceIgnoresCommands : Prop :=
  ∀ (c : Instr) (s : State), awake s = false →
    (∀ n, c ≠ .resetAssert n) → (∀ i, c ≠ .resetRelease i) → c ≠ .pfailDeassert → (∀ n, c ≠ .vbatLow n) →
    (∀ g m h, c ≠ .bankLevelChange g m h) → (∀ o, c ≠ .sealLoopPulse o) → (∀ i, c ≠ .boundaryScanInstruction i) →
    exec c s = .next s

/-- No command is refused, and none faults but RESET_RELEASE, with TEST_EN strapped high while RESET_n is low. -/
def Obligations.OnlyFactoryStrapStops : Prop :=
  ∀ (c : Instr) (s : State), (∃ t, exec c s = .next t) ∨
    (∃ i, c = .resetRelease i ∧ i.testEn = true ∧ s.pins.resetLow = true ∧ exec c s = .fault .factoryTest)

/-! ## Descriptors of the device itself -/

/-- OP_NOP completes OK; OP_STATUS answers the newest matching journal entry, or JSTATE 0; neither changes anything else.
OP_ABORT: a target in flight that stands at a step boundary completes ABORTED_BY_HOST with the steps and units it has
done, once no record it caused is uncovered, and the abort OK with outcome 0; while the target is within a step the abort
waits. Outcome 1 for one whose steps are done or that has completed, 3 for a TC0 command past its mirror, 2 where none of
the ring has the TAG. -/
def Obligations.HostServicesComplete : Prop :=
  ((∀ (s : State) (uid : Nat) (f : Flight), Runs s uid 0x01 f →
    ∃ t, exec (.opNop uid) s = .next t ∧ Completed s t f 0x00 0 0 0 ∧ rest t = rest s) ∧
  (∀ (s : State) (uid : Nat) (f : Flight), Runs s uid 0x02 f →
    (∀ e, jrnlFind s (dByte f.raw 24 2) (dByte f.raw 26 2) (dByte f.raw 28 4) = some e →
      ∃ t, exec (.opStatus uid) s = .next t ∧ rest t = rest s ∧ Completed s t f 0x00 0 0
        (result4 (e.jstate + 2 ^ 8 * e.status.toNat + 2 ^ 16 * e.opcode.toNat) e.progress.toNat e.seq.toNat
          e.pwr.toNat)) ∧
    (jrnlFind s (dByte f.raw 24 2) (dByte f.raw 26 2) (dByte f.raw 28 4) = none →
      ∃ t, exec (.opStatus uid) s = .next t ∧ rest t = rest s ∧ Completed s t f 0x00 0 0 0))) ∧
  (∀ (s : State) (uid : Nat) (f : Flight), Runs s uid 0x03 f →
    (∀ g, abortTarget s f = some g → stepsDone g = false → pastMirror g = false → midStep s g = false →
      ∃ t, exec (.opAbort uid) s = .next t ∧ Formed t f 0x00 0 0 0 ∧
        (g.discard = false → recordsOut s g.uid = false → Formed t g 0x02 g.step g.units 0)) ∧
    (∀ g, abortTarget s f = some g → stepsDone g = false → pastMirror g = false → midStep s g = true →
      ∃ t, exec (.opAbort uid) s = .next t ∧ rest t = rest s ∧ t.host = s.host) ∧
    (∀ g, abortTarget s f = some g → stepsDone g = true →
      ∃ t, exec (.opAbort uid) s = .next t ∧ Completed s t f 0x00 0 0 (result4 1 0 0 0) ∧ rest t = rest s) ∧
    (∀ g, abortTarget s f = some g → stepsDone g = false → pastMirror g = true →
      ∃ t, exec (.opAbort uid) s = .next t ∧ Completed s t f 0x00 0 0 (result4 3 0 0 0) ∧ rest t = rest s) ∧
    (abortTarget s f = none → ∃ t, exec (.opAbort uid) s = .next t ∧ rest t = rest s ∧
      Completed s t f 0x00 0 0 (result4 (if abortDone s f then 1 else 2) 0 0 0)))

/-! ## Functions -/

/-- OP_FUNC_CTRL: a query reports state and pending bits and changes nothing; an enable starts an OFF function (a channel
only past its start check; a pipeline's completes when its tests are over), is held where the function is STOPPING,
withdraws a held disable while STARTING, and a harness function of a standalone part stays OFF; a disable of an ON function
begins STOPPING, one of a STARTING function is held, one of a STOPPING function withdraws a held enable, and one that would
break a limit is refused whole. A channel in loopback holds either. An unknown FUNC_ID or ACTION is refused. -/
def Obligations.FuncCtrlFollowsLifecycle : Prop :=
  ∀ (s : State) (uid id : Nat) (f : Flight), Runs s uid 0x04 f → dByte f.raw 24 2 = id → f.stage = .none →
    (dByte f.raw 26 1 = 2 → funcKnown id = true →
      ∃ t, exec (.opFuncCtrlQuery uid) s = .next t ∧ rest t = rest s ∧ Completed s t f 0x00 2 0 (funcResult s id)) ∧
    (dByte f.raw 26 1 = 1 → funcKnown id = true → harnessOnly id = true → inHarness s = false →
      ∃ t, exec (.opFuncCtrlEnable uid) s = .next t ∧ rest t = rest s ∧ Completed s t f 0x41 0 0 (funcResult s id)) ∧
    (dByte f.raw 26 1 = 1 → funcKnown id = true → (harnessOnly id && !inHarness s) = false →
      (id / 256 = 1 → (chGet s (id % 256)).loop = true →
        ∃ t, exec (.opFuncCtrlEnable uid) s = .next t ∧ fnGet t id = { fnGet s id with enPend := true, disPend := false } ∧
          Completed s t f 0x00 2 0 (funcResult t id)) ∧
      ((id / 256 = 1 → (chGet s (id % 256)).loop = false) →
        ((fnGet s id).st = .off → id / 256 ≠ 3 → (id / 256 = 1 → chStartBad s (id % 256) = 0) →
          ∃ t, exec (.opFuncCtrlEnable uid) s = .next t ∧ (fnGet t id).st = .starting ∧ (fnGet t id).enPend = false ∧
            Completed s t f 0x00 2 0 (funcResult t id)) ∧
        ((fnGet s id).st = .off → id / 256 = 1 → chStartBad s (id % 256) ≠ 0 →
          ∃ t, exec (.opFuncCtrlEnable uid) s = .next t ∧ fnGet t id = Fn.idle ∧ Completed s t f 0x00 2 0 (funcResult t id)) ∧
        ((fnGet s id).st = .off → id / 256 = 3 →
          ∃ t, exec (.opFuncCtrlEnable uid) s = .next t ∧ (fnGet t id).st = .starting ∧ (fnGet t id).enPend = false ∧
            t.host.cq = s.host.cq) ∧
        ((fnGet s id).st = .starting → id / 256 ≠ 3 →
          ∃ t, exec (.opFuncCtrlEnable uid) s = .next t ∧ fnGet t id = { fnGet s id with disPend := false } ∧
            Completed s t f 0x00 2 0 (funcResult t id)) ∧
        ((fnGet s id).st = .starting → id / 256 = 3 →
          ∃ t, exec (.opFuncCtrlEnable uid) s = .next t ∧ fnGet t id = { fnGet s id with disPend := false } ∧
            t.host.cq = s.host.cq) ∧
        ((fnGet s id).st = .on →
          ∃ t, exec (.opFuncCtrlEnable uid) s = .next t ∧ rest t = rest s ∧ Completed s t f 0x00 2 0 (funcResult t id)) ∧
        ((fnGet s id).st = .stopping →
          ∃ t, exec (.opFuncCtrlEnable uid) s = .next t ∧ fnGet t id = { fnGet s id with enPend := true } ∧
            Completed s t f 0x40 0 0 (funcResult t id)))) ∧
    (dByte f.raw 26 1 = 0 → funcKnown id = true →
      (((fnGet s id).st = .on ∨ (fnGet s id).st = .starting) → limitBroken s id = true →
        ∃ t, exec (.opFuncCtrlDisable uid) s = .next t ∧ rest t = rest s ∧ Completed s t f 0x08 0 0 (badResult 9 24 0)) ∧
      (id / 256 = 1 → (chGet s (id % 256)).loop = true →
        ∃ t, exec (.opFuncCtrlDisable uid) s = .next t ∧ fnGet t id = { fnGet s id with enPend := false, disPend := true } ∧
          Completed s t f 0x00 2 0 (funcResult t id)) ∧
      ((id / 256 = 1 → (chGet s (id % 256)).loop = false) →
        ((fnGet s id).st = .off →
          ∃ t, exec (.opFuncCtrlDisable uid) s = .next t ∧ rest t = rest s ∧ Completed s t f 0x00 2 0 (funcResult t id)) ∧
        ((fnGet s id).st = .starting → limitBroken s id = false →
          ∃ t, exec (.opFuncCtrlDisable uid) s = .next t ∧ fnGet t id = { fnGet s id with disPend := true } ∧
            Completed s t f 0x00 2 0 (funcResult t id)) ∧
        ((fnGet s id).st = .on → limitBroken s id = false →
          ∃ t, exec (.opFuncCtrlDisable uid) s = .next t ∧ fnGet t id = { fnGet s id with st := .stopping } ∧
            Formed t f 0x00 2 0 (funcResult t id)) ∧
        ((fnGet s id).st = .stopping →
          ∃ t, exec (.opFuncCtrlDisable uid) s = .next t ∧ fnGet t id = { fnGet s id with enPend := false } ∧
            Completed s t f 0x00 2 0 (funcResult t id)))) ∧
    (∀ p ∈ [(0, Instr.opFuncCtrlDisable uid), (1, Instr.opFuncCtrlEnable uid), (2, Instr.opFuncCtrlQuery uid)],
      (funcKnown id = false → dByte f.raw 26 1 = p.1 ∨ 2 < dByte f.raw 26 1 →
        ∃ t, exec p.2 s = .next t ∧ rest t = rest s ∧ Completed s t f 0x08 0 0 (badResult 9 24 0)) ∧
      (funcKnown id = true → 2 < dByte f.raw 26 1 →
        ∃ t, exec p.2 s = .next t ∧ rest t = rest s ∧ Completed s t f 0x08 0 0 (badResult 9 26 0)))

/-! ## Endpoint records -/

/-- OP_EP_PROVISION of a FREE record: an ACTIVE record of the descriptor's fields, registers, ledger and late adjustment
zero, RESULT 0; with a wrapped key of generation 1 under the domain AUX names, that key pending besides. Of a record that
stands so already, OK with RESULT 1 and nothing changed. Refused: a BUF_LEN other than 0 and 64, a PROTO above 2, a record
in use otherwise, an address bound elsewhere (with the record that holds it), an AUX without a key, a revoked domain, a key
that fails its checks. -/
def Obligations.ProvisionCreatesActiveRecord : Prop :=
  ∀ (s : State) (uid : Nat) (f : Flight), Runs s uid 0x10 f →
    (dBufLen f.raw = 0 → dAux f.raw = 0 → pvProto f.raw ≤ 2 → (recGet s (dEid f.raw)).state = 0 →
      addrLookup s (pvAddr f.raw) (pvProto f.raw) = none →
      ∃ t, exec (.opEpProvision uid none) s = .next t ∧ recGet t (dEid f.raw) = provRec s f.raw ∧
        (provRec s f.raw).state = 1 ∧ (provRec s f.raw).energy = [] ∧ (provRec s f.raw).writeSeq = 0 ∧
        (∀ e, e ≠ dEid f.raw → recGet t e = recGet s e) ∧ Completed s t f 0x00 4 0 (result4 0 0 0 0)) ∧
    (∀ (kek : BitVec 256) (pg : BitVec 8), dBufLen f.raw = 64 → pvProto f.raw ≤ 2 →
      (recGet s (dEid f.raw)).state = 0 → addrLookup s (pvAddr f.raw) (pvProto f.raw) = none →
      parentUse s (.ep (dEid f.raw)) (dAux f.raw) = .ok kek pg →
      ∀ b : Blob, blobCheck (some b) kek (epHandle (dEid f.raw)) (dAux f.raw) 1 pg = none → (pinGet s (dEid f.raw)).on = false →
      ∀ s1 : State, ensureDir s (dAux f.raw) false = some s1 →
      ∃ t, exec (.opEpProvision uid (some b)) s = .next t ∧ (recGet t (dEid f.raw)).keyPend = some b ∧
        (recGet t (dEid f.raw)).keyCur = none ∧ kcPend (recGet t (dEid f.raw)) = 1 ∧
        kcPendValid (recGet t (dEid f.raw)) = true ∧ kcCurValid (recGet t (dEid f.raw)) = false ∧
        (recGet t (dEid f.raw)).state = 1 ∧ (recGet t (dEid f.raw)).meterAddr = pvAddr f.raw ∧
        (∀ e, e ≠ dEid f.raw → recGet t e = recGet s e) ∧ Formed t f 0x00 4 0 (result4 0 0 0 0)) ∧
    (dBufLen f.raw = 0 → dAux f.raw = 0 → pvProto f.raw ≤ 2 → provSame (recGet s (dEid f.raw)) f.raw = true →
      ∃ t, exec (.opEpProvision uid none) s = .next t ∧ rest t = rest s ∧ Completed s t f 0x00 4 0 (result4 1 0 0 0)) ∧
    (∀ blob : Option Blob,
      (dBufLen f.raw ≠ 0 → dBufLen f.raw ≠ 64 →
        ∃ t, exec (.opEpProvision uid blob) s = .next t ∧ rest t = rest s ∧ Completed s t f 0x08 0 0 (badResult 6 16 0)) ∧
      ((dBufLen f.raw = 0 ∨ dBufLen f.raw = 64) → 2 < pvProto f.raw →
        ∃ t, exec (.opEpProvision uid blob) s = .next t ∧ rest t = rest s ∧ Completed s t f 0x08 0 0 (badResult 9 48 0)) ∧
      ((dBufLen f.raw = 0 ∨ dBufLen f.raw = 64) → pvProto f.raw ≤ 2 → (recGet s (dEid f.raw)).state ≠ 0 →
        provSame (recGet s (dEid f.raw)) f.raw = false →
        ∃ t, exec (.opEpProvision uid blob) s = .next t ∧ rest t = rest s ∧ Completed s t f 0x08 0 0 (badResult 9 4 0)) ∧
      (∀ e, (dBufLen f.raw = 0 ∨ dBufLen f.raw = 64) → pvProto f.raw ≤ 2 → (recGet s (dEid f.raw)).state = 0 →
        addrLookup s (pvAddr f.raw) (pvProto f.raw) = some e →
        ∃ t, exec (.opEpProvision uid blob) s = .next t ∧ rest t = rest s ∧ Completed s t f 0x08 0 0 (badResult 9 24 e)) ∧
      (dBufLen f.raw = 64 → pvProto f.raw ≤ 2 → (recGet s (dEid f.raw)).state = 0 →
        addrLookup s (pvAddr f.raw) (pvProto f.raw) = none →
        (parentUse s (.ep (dEid f.raw)) (dAux f.raw) = .empty →
          ∃ t, exec (.opEpProvision uid blob) s = .next t ∧ rest t = rest s ∧ Completed s t f 0x08 0 0 (badResult 9 20 0)) ∧
        (parentUse s (.ep (dEid f.raw)) (dAux f.raw) = .revoked →
          ∃ t, exec (.opEpProvision uid blob) s = .next t ∧ rest t = rest s ∧ Completed s t f 0x12 0 0 0) ∧
        (∀ kek pg c, parentUse s (.ep (dEid f.raw)) (dAux f.raw) = .ok kek pg →
          blobCheck blob kek (epHandle (dEid f.raw)) (dAux f.raw) 1 pg = some c →
          ∃ t, exec (.opEpProvision uid blob) s = .next t ∧ t.recs.tab = s.recs.tab ∧ t.keys = s.keys ∧
            Formed t f 0x08 0 0 (badResult 9 8 c))))

/-- OP_EP_UPDATE applies every selected field in one step, raises WRITE_SEQ by one and stamps the owner epoch; no other
record changes. A word's reserved bits stay. -/
def Obligations.UpdateAppliesMaskedFields : Prop :=
  ∀ (s : State) (uid : Nat) (f : Flight), Runs s uid 0x11 f →
    stateRuns (recView s (dEid f.raw)).state.toNat 0x11 (dTc f.raw) = true →
    (pvMask f.raw 6 = true → pvProto f.raw ≤ 2) → (pvMask f.raw 5 = true → pvState f.raw = 1 ∨ pvState f.raw = 2) →
    updHolder s (dEid f.raw) f.raw = none →
    ∃ t, exec (.opEpUpdate uid) s = .next t ∧ Completed s t f 0x00 3 0 0 ∧
      recGet t (dEid f.raw) = stamped s (updRec s (recView s (dEid f.raw)) f.raw) ∧
      (recGet t (dEid f.raw)).writeSeq = (recView s (dEid f.raw)).writeSeq + 1 ∧
      (recGet t (dEid f.raw)).ownerEpoch = s.recs.epoch ∧
      (pvMask f.raw 0 = true → (recGet t (dEid f.raw)).attach = keepRes 0xFF3F (recView s (dEid f.raw)).attach (pvAttach f.raw)) ∧
      (pvMask f.raw 0 = false → (recGet t (dEid f.raw)).attach = (recView s (dEid f.raw)).attach) ∧
      (pvMask f.raw 5 = true → (recGet t (dEid f.raw)).state = pvState f.raw) ∧
      (∀ e, e ≠ dEid f.raw → recGet t e = recGet s e) ∧ t.keys = s.keys ∧ t.bill = s.bill ∧ t.store = s.store

/-- OP_EP_READ writes the record's 512 bytes to the buffer and nothing else to host memory, and completes with WRITE_SEQ
and state; the record stays. -/
def Obligations.ReadWritesRecordSnapshot : Prop :=
  ∀ (s : State) (uid : Nat) (f : Flight), Runs s uid 0x13 f → s.host.linkDown = false →
    ∃ t, exec (.opEpRead uid) s = .next t ∧
      memRead t.hostMem (dBufAddr f.raw) 512 = recBytes (dEid f.raw) (recView s (dEid f.raw)) ∧
      (∀ a, a < dBufAddr f.raw ∨ dBufAddr f.raw + 512 ≤ a → memByte t.hostMem a = memByte s.hostMem a) ∧
      rest { t with hostMem := s.hostMem } = rest s ∧
      Completed s t f 0x00 0 0 (result4 (recView s (dEid f.raw)).writeSeq.toNat (recView s (dEid f.raw)).state.toNat 0 0) ∧
      ((recGet s (dEid f.raw)).state = 0 → memRead t.hostMem (dBufAddr f.raw) 512 = List.replicate 512 0) ∧
      ((pinGet s (dEid f.raw)).on = true → (recView s (dEid f.raw)).rxIc = (pinGet s (dEid f.raw)).rxIc ∧
        (recView s (dEid f.raw)).txIcHwm = (pinGet s (dEid f.raw)).txIc ∧
        (recView s (dEid f.raw)).relay = (pinGet s (dEid f.raw)).relay ∧
        (recView s (dEid f.raw)).alarms = (pinGet s (dEid f.raw)).alarms)

/-! ## Keys -/

/-- OP_KEY_INSTALL at an endpoint from a blob: once the blob is unwrapped, passes its checks and has its slot, it is the
pending key and WRITE_SEQ rises by one; where EXPECT_KCV is present and agrees it is the current key at once. RESULT is the
key check value.
OP_KEY_INSTALL of a utility root: the root is the key the key-load registers hold, generation 1 where the place was
EMPTY, and the registers read zero afterwards. At a directory handle: the blob is the current key; a generated key takes the
next generation and a value of the DRBG, and what OP_KEY_INSTALL hands out of it is in the buffer. Rehomed: the current key
stands under its new blob and no key is pending. A key that fails to verify, a revoked place or parent, a parent that is
none and a blob that fails a check are refused. -/
def Obligations.KeyInstallPutsKeys : Prop :=
  (∀ (s : State) (uid eid : Nat) (f : Flight), Runs s uid 0x20 f →
    keyTgt f.raw = .ep eid → keyBehind s f = false → installBad s f.raw (.ep eid) = none → kiSource f.raw = 0 →
    kcRevoked (recGet s eid) = false → kiGen f.raw = nextGen (recGet s eid) → kiGen f.raw ≠ kcCur (recGet s eid) →
    ((recGet s eid).keyCur.isSome ∨ (recGet s eid).keyPend.isSome →
      kiParent f.raw = 0x30000000 + kcDomain (recGet s eid)) →
    ∀ s0 : State, installPins s f eid (recGet s eid) = (false, s0) →
    ∀ (kek : BitVec 256) (pg : BitVec 8), parentUse s0 (.ep eid) (kiParent f.raw) = .ok kek pg →
    ∀ (s1 : State) (p : Nat), wrapRun s0 kek = (s1, some p) →
    ∀ b : Blob, blobCheck (some b) kek (epHandle eid) (kiParent f.raw) (kiGen f.raw) pg = none →
    (kiKcvPresent f.raw = true → blobKcv b = kiKcv f.raw) →
    ∀ s2 : State,
    (if (pinGet s1 eid).on
     then ensureEp (if kcPendValid (recGet s eid) then retireEp s1 eid (kcPend (recGet s eid)) else s1) eid (some b) true
     else ensureDir (if kcPendValid (recGet s eid) then retireEp s1 eid (kcPend (recGet s eid)) else s1)
       (kiParent f.raw) false) = some s2 →
    ∃ t, exec (.opKeyInstall uid (some b)) s = .next t ∧
      (recGet t eid).keyPend = (if kiKcvPresent f.raw then none else some b) ∧
      (recGet t eid).keyCur = (if kiKcvPresent f.raw then some b else (recGet s eid).keyCur) ∧
      kcCur (recGet t eid) = (if kiKcvPresent f.raw then kiGen f.raw else kcCur (recGet s eid)) ∧
      kcPend (recGet t eid) = kiGen f.raw ∧ kcPendValid (recGet t eid) = !kiKcvPresent f.raw ∧
      (recGet t eid).writeSeq = (recGet s eid).writeSeq + 1 ∧
      (∀ e, e ≠ eid → recGet t e = recGet s e) ∧ Completed s t f 0x00 4 0 (result4 (blobKcv b).toNat 0 0 0)) ∧
  ((∀ (s : State) (uid n : Nat) (f : Flight), Runs s uid 0x20 f → keyTgt f.raw = .root n → keyBehind s f = false →
    installBad s f.raw (.root n) = none → kiSource f.raw = 1 → rootChangeOpen s = true →
    (rootGet s n).revoked = false → (rootGet s n).empty = true →
    ∀ (s1 : State) (p : Nat), wrapRun s s.keys.srCur = (s1, some p) →
    (kiKcvPresent f.raw = true → keyKcv 2 (klMaterial s) (BitVec.ofNat 32 (0x20000000 + n)) = kiKcv f.raw) →
    ∃ t, exec (.opKeyInstall uid none) s = .next t ∧ (rootGet t n).key = some (klMaterial s) ∧ (rootGet t n).gen = 1 ∧
      (rootGet t n).empty = false ∧ t.keys.klData = [0, 0, 0, 0, 0, 0, 0, 0] ∧
      Completed s t f 0x00 4 0
        (result4 (keyKcv 2 (klMaterial s) (BitVec.ofNat 32 (0x20000000 + n))).toNat 0 0 0)) ∧
  (∀ (s : State) (uid h : Nat) (f : Flight), Runs s uid 0x20 f →
    keyTgt f.raw = .dir h → keyBehind s f = false → installBad s f.raw (.dir h) = none → kiSource f.raw = 0 →
    (dirGet s h).st ≠ 2 → ∀ (kek : BitVec 256) (pg : BitVec 8), parentUse s (.dir h) (kiParent f.raw) = .ok kek pg →
    ∀ (s1 : State) (p : Nat), wrapRun s kek = (s1, some p) →
    ∀ b : Blob, blobCheck (some b) kek h (kiParent f.raw) (kiGen f.raw) pg = none →
    (dirVerified s f.raw h b = true →
      ∃ t, exec (.opKeyInstall uid (some b)) s = .next t ∧ (dirGet t h).cur = some b ∧ (dirGet t h).st = 1 ∧
        (dirGet t h).curGen = b.gen ∧ (dirGet t h).parent = b.parent ∧ (∀ k, k ≠ h → dirGet t k = dirGet s k) ∧
        Completed s t f 0x00 4 0 (result4 (blobKcv b).toNat 0 0 0)) ∧
    (dirVerified s f.raw h b = false →
      ∃ t, exec (.opKeyInstall uid (some b)) s = .next t ∧ t.keys.dir = s.keys.dir ∧ Completed s t f 0x13 0 0 0)) ∧
  (∀ (s : State) (uid h : Nat) (f : Flight), Runs s uid 0x20 f →
    keyTgt f.raw = .dir h → keyBehind s f = false → installBad s f.raw (.dir h) = none → kiSource f.raw = 2 →
    (dirGet s h).st ≠ 2 → drbgOpen s = true → s.host.linkDown = false →
    ∀ (kek : BitVec 256) (pg : BitVec 8), parentUse s (.dir h) (kiParent f.raw) = .ok kek pg →
    ∀ (s1 : State) (p : Nat), wrapRun s kek = (s1, some p) → ∀ n : Nat, n = (drbgUse s1).free →
    ∀ b : Blob, b = genBlob s f.raw h n kek pg →
    dirVerified s f.raw h b = true →
    ∃ t, exec (.opKeyInstall uid none) s = .next t ∧ (dirGet t h).cur = some b ∧
      (dirGet t h).curGen = (dirGet s h).curGen + 1 ∧ (dirGet t h).st = 1 ∧ (∀ k, k ≠ h → dirGet t k = dirGet s k) ∧
      Wrote s t (dBufAddr f.raw)
        (if hIsSign h then Config.pubPoint b.typ (privScalar b.typ b.material b.handle) else blobBytes b) ∧
      Completed s t f 0x00 4 0 (result4 (blobKcv b).toNat 0 0 0)) ∧
  (∀ (s : State) (uid eid : Nat) (f : Flight), Runs s uid 0x20 f →
    keyTgt f.raw = .ep eid → keyBehind s f = false → installBad s f.raw (.ep eid) = none → kiSource f.raw = 3 →
    kcRevoked (recGet s eid) = false →
    ∀ (kek : BitVec 256) (pg : BitVec 8), parentUse s (.ep eid) (kiParent f.raw) = .ok kek pg →
    ∀ (s1 : State) (p : Nat), wrapRun s kek = (s1, some p) →
    ∀ c : Blob, (recGet s eid).keyCur = some c → ∀ b : Blob, kcCurValid (recGet s eid) = true → b.intact = true → b.kek = kek → b.gen = kcCur (recGet s eid) →
    b.material = c.material → blobCheck (some b) kek (epHandle eid) (kiParent f.raw) (kiGen f.raw) pg = none →
    ∃ t, exec (.opKeyInstall uid (some b)) s = .next t ∧ (recGet t eid).keyCur = some b ∧ (recGet t eid).keyPend = none ∧
      kcDomain (recGet t eid) = hIndex (kiParent f.raw) ∧ (∀ e, e ≠ eid → recGet t e = recGet s e) ∧
      (recGet t eid).writeSeq = (recGet s eid).writeSeq + 1 ∧ Completed s t f 0x00 4 0 (result4 (blobKcv b).toNat 0 0 0)) ∧
  (∀ (s : State) (uid : Nat) (f : Flight) (blob : Option Blob), Runs s uid 0x20 f →
    (keyTgt f.raw = .badHandle → ∃ t, exec (.opKeyInstall uid blob) s = .next t ∧ t.recs.tab = s.recs.tab ∧
      t.keys.dir = s.keys.dir ∧ t.keys.roots = s.keys.roots ∧ Completed s t f 0x08 0 0 (badResult 9 24 0)) ∧
    (∀ h r o, (keyTgt f.raw = .ep h ∨ keyTgt f.raw = .dir h ∨ keyTgt f.raw = .root h) → keyBehind s f = false →
      installBad s f.raw (keyTgt f.raw) = some (r, o) →
      ∃ t, exec (.opKeyInstall uid blob) s = .next t ∧ t.recs.tab = s.recs.tab ∧ t.keys.dir = s.keys.dir ∧
        t.keys.roots = s.keys.roots ∧ Completed s t f 0x08 0 0 (badResult r o 0)) ∧
    (∀ h, keyTgt f.raw = .dir h → keyBehind s f = false → installBad s f.raw (.dir h) = none →
      ((dirGet s h).st = 2 ∨ parentUse s (.dir h) (kiParent f.raw) = .revoked →
        ∃ t, exec (.opKeyInstall uid blob) s = .next t ∧ t.keys.dir = s.keys.dir ∧ Completed s t f 0x12 0 0 0) ∧
      ((dirGet s h).st ≠ 2 → parentUse s (.dir h) (kiParent f.raw) = .empty →
        ∃ t, exec (.opKeyInstall uid blob) s = .next t ∧ t.keys.dir = s.keys.dir ∧
          Completed s t f 0x08 0 0 (badResult 9 32 0)))))

/-- OP_KEY_ERASE: the selected blob places of an endpoint are empty, a directory entry or a root is empty; while a slot
still holds an erased key it waits with the places marked empty, and completes once none does. Refused: a root or a directory
key in use, neither revoked nor without children. -/
def Obligations.EraseEmptiesKeyPlaces : Prop :=
  (∀ (s : State) (uid eid : Nat) (f : Flight), Runs s uid 0x21 f → keyTgt f.raw = .ep eid → keyBehind s f = false →
    dByte f.raw 42 1 ≤ 2 →
    (f.stage = .none → (∀ p ∈ s.keys.slots, p.2.handle ≠ epHandle eid) →
      ∃ t, exec (.opKeyErase uid) s = .next t ∧ (dByte f.raw 42 1 ≠ 1 → (recGet t eid).keyPend = none) ∧
        (dByte f.raw 42 1 ≠ 0 → (recGet t eid).keyCur = none) ∧
        (dByte f.raw 42 1 = 0 → (recGet t eid).keyCur = (recGet s eid).keyCur) ∧ kcRevoked (recGet t eid) = false ∧
        (∀ e, e ≠ eid → recGet t e = recGet s e) ∧ Completed s t f 0x00 4 0 0) ∧
    (f.stage = .none → (∃ p ∈ s.keys.slots, p.2.handle = epHandle eid ∧ p.2.st ≠ 0 ∧
        p.2.gen ∈ eraseGens (recGet s eid) (dByte f.raw 42 1)) →
      ∃ t, exec (.opKeyErase uid) s = .next t ∧ t.host.cq = s.host.cq ∧
        (dByte f.raw 42 1 ≠ 1 → kcPendValid (recGet t eid) = false) ∧
        (dByte f.raw 42 1 ≠ 0 → kcCurValid (recGet t eid) = false) ∧
        (∀ p ∈ t.keys.slots, p.2.handle = epHandle eid → p.2.gen ∈ eraseGens (recGet s eid) (dByte f.raw 42 1) →
          p.2.st ≠ 1 ∧ p.2.st ≠ 2)) ∧
    (∀ a b c, f.stage = .wait a b c →
      slotHolds s (epHandle eid) (eraseGens (recGet s eid) (dByte f.raw 42 1)) = false →
      ∃ t, exec (.opKeyErase uid) s = .next t ∧ recGet t eid = eraseDone (recGet s eid) (dByte f.raw 42 1) ∧
        Completed s t f 0x00 4 0 0)) ∧
  (∀ (s : State) (uid h : Nat) (f : Flight), Runs s uid 0x21 f → keyTgt f.raw = .dir h → keyBehind s f = false →
    f.stage = .none → dByte f.raw 42 1 = 0 → (dirGet s h).st ≠ 0 →
    (((dirGet s h).st = 2 ∨ childCount s h = 0) → (∀ p ∈ s.keys.slots, p.2.handle ≠ h) →
      ∃ t, exec (.opKeyErase uid) s = .next t ∧ dirGet t h = DirEnt.empty ∧ (∀ k, k ≠ h → dirGet t k = dirGet s k) ∧
        Completed s t f 0x00 4 0 0) ∧
    ((dirGet s h).st ≠ 2 → childCount s h ≠ 0 →
      ∃ t, exec (.opKeyErase uid) s = .next t ∧ t.keys.dir = s.keys.dir ∧ Completed s t f 0x08 0 0 (badResult 9 24 0))) ∧
  (∀ (s : State) (uid n : Nat) (f : Flight), Runs s uid 0x21 f → keyTgt f.raw = .root n → keyBehind s f = false →
    f.stage = .none → dByte f.raw 42 1 = 0 → (rootGet s n).empty = false →
    (((rootGet s n).revoked = true ∨ childCount s (0x20000000 + n) = 0) → rootChangeOpen s = true →
      ∃ t, exec (.opKeyErase uid) s = .next t ∧ rootGet t n = RootEnt.none ∧ Completed s t f 0x00 4 0 0) ∧
    ((rootGet s n).revoked = false → childCount s (0x20000000 + n) ≠ 0 →
      ∃ t, exec (.opKeyErase uid) s = .next t ∧ t.keys.roots = s.keys.roots ∧
        Completed s t f 0x08 0 0 (badResult 9 24 0)))

/-- OP_KEY_PIN puts an endpoint into the pinned-state store with the record's fields, its slots loaded and pinned, or marks a
directory key pinned; a root is never in a slot, and its pin changes nothing. It waits for a slot, ends KEY_SLOT_BUSY over
the limit and KEY_REVOKED under a key that is revoked. OP_KEY_UNPIN takes a pin away, writing an endpoint's fields through to
its record, and changes nothing where there is none.
OP_KEY_INVALIDATE sets REVOKED on the key and leaves no READY or LOADING slot of it or of a key under it; RESULT is the
number of slots retired. An EMPTY handle is refused, and a root while an update is past RECEIVING. Every key opcode refuses
a HANDLE that names nothing. -/
def Obligations.PinUnpinInvalidate : Prop :=
  ((∀ (s : State) (uid eid : Nat) (f : Flight), Runs s uid 0x22 f → keyTgt f.raw = .ep eid → keyBehind s f = false →
    (kcRevoked (recGet s eid) = false →
      (pinBlobs (recGet s eid) ≠ [] → ∃ k g, dirUse s (0x30000000 + kcDomain (recGet s eid)) = .ok k g) →
      (∀ s0 : State, pinsExceed s ((pinBlobs (recGet s eid)).length - pinsOf s (epHandle eid)) = (false, s0) →
        ∀ s1 : State, pinEpAll s0 eid (pinBlobs (recGet s eid)) = some s1 →
        ∃ t, exec (.opKeyPin uid) s = .next t ∧ pinGet t eid = pinOf (recView s eid) ∧
          recGet t eid = stamped s (recView s eid) ∧
          (∀ e, e ≠ eid → recGet t e = recGet s e ∧ pinGet t e = pinGet s e) ∧
          Completed s t f 0x00 3 0 (result4 (pinsOf s1 (epHandle eid)) 0 0 0)) ∧
      (∀ s0 : State, pinsExceed s ((pinBlobs (recGet s eid)).length - pinsOf s (epHandle eid)) = (false, s0) →
        pinEpAll s0 eid (pinBlobs (recGet s eid)) = none →
        ∃ t, exec (.opKeyPin uid) s = .next t ∧ t.recs.tab = s.recs.tab ∧ t.recs.pins = s.recs.pins ∧
          t.host.cq = s.host.cq) ∧
      (∀ s0 : State, pinsExceed s ((pinBlobs (recGet s eid)).length - pinsOf s (epHandle eid)) = (true, s0) →
        ∃ t, exec (.opKeyPin uid) s = .next t ∧ t.recs.tab = s.recs.tab ∧ t.recs.pins = s.recs.pins ∧
          t.keys.slots = s.keys.slots ∧ Completed s t f 0x14 0 0 0)) ∧
    (kcRevoked (recGet s eid) = true ∨ (pinBlobs (recGet s eid) ≠ [] ∧
        (∀ k g, dirUse s (0x30000000 + kcDomain (recGet s eid)) ≠ .ok k g)) →
      ∃ t, exec (.opKeyPin uid) s = .next t ∧ t.recs.tab = s.recs.tab ∧ t.recs.pins = s.recs.pins ∧
        t.keys.slots = s.keys.slots ∧ Completed s t f 0x12 0 0 0)) ∧
  (∀ (s : State) (uid h : Nat) (f : Flight), Runs s uid 0x22 f → keyTgt f.raw = .dir h → keyBehind s f = false →
    (∀ k g, dirUse s h = .ok k g → ∀ s0 : State, pinsExceed s (if (dirGet s h).pinned then 0 else 1) = (false, s0) →
      ∀ s1 : State, ensureDir s0 h true = some s1 →
      ∃ t, exec (.opKeyPin uid) s = .next t ∧ dirGet t h = { dirGet s h with pinned := true } ∧
        (∀ k, k ≠ h → dirGet t k = dirGet s k) ∧ t.recs.tab = s.recs.tab ∧
        Completed s t f 0x00 3 0 (result4 (pinsOf s1 h) 0 0 0)) ∧
    (∀ k g, dirUse s h = .ok k g → ∀ s0 : State, pinsExceed s (if (dirGet s h).pinned then 0 else 1) = (true, s0) →
      ∃ t, exec (.opKeyPin uid) s = .next t ∧ t.keys.dir = s.keys.dir ∧ Completed s t f 0x14 0 0 0) ∧
    (dirUse s h = .revoked →
      ∃ t, exec (.opKeyPin uid) s = .next t ∧ t.keys.dir = s.keys.dir ∧ Completed s t f 0x12 0 0 0) ∧
    (dirUse s h = .empty →
      ∃ t, exec (.opKeyPin uid) s = .next t ∧ t.keys.dir = s.keys.dir ∧ Completed s t f 0x08 0 0 (badResult 9 24 0))) ∧
  (∀ (s : State) (uid n : Nat) (f : Flight), Runs s uid 0x22 f → keyTgt f.raw = .root n → keyBehind s f = false →
    ((rootGet s n).empty = false → ∃ t, exec (.opKeyPin uid) s = .next t ∧ t.keys = s.keys ∧ Completed s t f 0x00 3 0 0) ∧
    ((rootGet s n).empty = true →
      ∃ t, exec (.opKeyPin uid) s = .next t ∧ t.keys = s.keys ∧ Completed s t f 0x08 0 0 (badResult 9 24 0))) ∧
  (∀ (s : State) (uid eid : Nat) (f : Flight), Runs s uid 0x23 f → keyTgt f.raw = .ep eid → keyBehind s f = false →
    ((pinGet s eid).on = true →
      ∃ t, exec (.opKeyUnpin uid) s = .next t ∧ pinGet t eid = PinEnt.none ∧
        recGet t eid = stamped s (recView s eid) ∧ pinsOf t (epHandle eid) = 0 ∧
        (∀ e, e ≠ eid → recGet t e = recGet s e ∧ pinGet t e = pinGet s e) ∧
        Completed s t f 0x00 3 0 (result4 (pinsOf s (epHandle eid)) 0 0 0)) ∧
    ((pinGet s eid).on = false →
      ∃ t, exec (.opKeyUnpin uid) s = .next t ∧ t.recs.tab = s.recs.tab ∧ t.recs.pins = s.recs.pins ∧
        Completed s t f 0x00 3 0 0)) ∧
  (∀ (s : State) (uid h : Nat) (f : Flight), Runs s uid 0x23 f → keyTgt f.raw = .dir h → keyBehind s f = false →
    ((dirGet s h).pinned = true →
      ∃ t, exec (.opKeyUnpin uid) s = .next t ∧ dirGet t h = { dirGet s h with pinned := false } ∧ pinsOf t h = 0 ∧
        (∀ k, k ≠ h → dirGet t k = dirGet s k) ∧ Completed s t f 0x00 3 0 (result4 (pinsOf s h) 0 0 0)) ∧
    ((dirGet s h).pinned = false →
      ∃ t, exec (.opKeyUnpin uid) s = .next t ∧ t.keys = s.keys ∧ Completed s t f 0x00 3 0 0)) ∧
  (∀ (s : State) (uid n : Nat) (f : Flight), Runs s uid 0x23 f → keyTgt f.raw = .root n → keyBehind s f = false →
    ∃ t, exec (.opKeyUnpin uid) s = .next t ∧ t.keys = s.keys ∧ Completed s t f 0x00 3 0 0)) ∧
  ((∀ (s : State) (uid eid : Nat) (f : Flight), Runs s uid 0x24 f → keyTgt f.raw = .ep eid → keyBehind s f = false →
    ∃ t, exec (.opKeyInvalidate uid) s = .next t ∧
      (recGet t eid).keyCtl = setFld (recGet s eid).keyCtl 30 1 1 ∧ (∀ e, e ≠ eid → recGet t e = recGet s e) ∧
      (∀ p ∈ t.keys.slots, slotUnder s (epHandle eid) p.2 = true → p.2.st ≠ 2 ∧ p.2.st ≠ 1) ∧
      Completed s t f 0x00 3 0 (result4 (retireCount s (slotUnder s (epHandle eid))) 0 0 0)) ∧
  (∀ (s : State) (uid h : Nat) (f : Flight), Runs s uid 0x24 f → keyTgt f.raw = .dir h → keyBehind s f = false →
    ((dirGet s h).st ≠ 0 →
      ∃ t, exec (.opKeyInvalidate uid) s = .next t ∧ dirGet t h = { dirGet s h with st := 2 } ∧
        (∀ k, k ≠ h → dirGet t k = dirGet s k) ∧
        (∀ p ∈ t.keys.slots, slotUnder s h p.2 = true → p.2.st ≠ 2 ∧ p.2.st ≠ 1) ∧
        Completed s t f 0x00 3 0 (result4 (retireCount s (slotUnder s h)) 0 0 0)) ∧
    ((dirGet s h).st = 0 →
      ∃ t, exec (.opKeyInvalidate uid) s = .next t ∧ t.keys.dir = s.keys.dir ∧
        Completed s t f 0x08 0 0 (badResult 9 24 0))) ∧
  (∀ (s : State) (uid n : Nat) (f : Flight), Runs s uid 0x24 f → keyTgt f.raw = .root n → keyBehind s f = false →
    ((rootGet s n).empty = false → rootChangeOpen s = true →
      ∃ t, exec (.opKeyInvalidate uid) s = .next t ∧ (rootGet t n).revoked = true ∧
        (∀ p ∈ t.keys.slots, slotUnder s (0x20000000 + n) p.2 = true → p.2.st ≠ 2 ∧ p.2.st ≠ 1) ∧
        Completed s t f 0x00 3 0 (result4 (retireCount s (slotUnder s (0x20000000 + n))) 0 0 0)) ∧
    ((rootGet s n).empty = false → rootChangeOpen s = false →
      ∃ t, exec (.opKeyInvalidate uid) s = .next t ∧ t.keys.roots = s.keys.roots ∧
        Completed s t f 0x61 0 0 (BitVec.ofNat 128 s.upd.state)) ∧
    ((rootGet s n).empty = true →
      ∃ t, exec (.opKeyInvalidate uid) s = .next t ∧ t.keys.roots = s.keys.roots ∧
        Completed s t f 0x08 0 0 (badResult 9 24 0))) ∧
  (∀ (s : State) (uid : Nat) (f : Flight), keyTgt f.raw = .badHandle →
    ∀ p ∈ [(0x21, Instr.opKeyErase uid), (0x22, Instr.opKeyPin uid), (0x23, Instr.opKeyUnpin uid),
        (0x24, Instr.opKeyInvalidate uid)], Runs s uid p.1 f →
      ∃ t, exec p.2 s = .next t ∧ t.recs.tab = s.recs.tab ∧ t.keys.dir = s.keys.dir ∧ t.keys.slots = s.keys.slots ∧
        Completed s t f 0x08 0 0 (badResult 9 24 0)))

/-! ## Kennel events -/

/-- The kennel's own events: a ZEROIZING slot is FREE, and an erase that waited for it alone completes; every READY slot's
shares are re-randomised and its key stays; a descriptor that has waited a millisecond while no slot can be had completes
KEY_SLOT_BUSY. -/
def Obligations.KennelEvents : Prop :=
  (∀ (s : State) (i : Nat), awake s = true → (slotGet s i).st = 4 →
    (∀ f ∈ s.host.flights, dOpcode f.raw ≠ 0x21 ∧ dOpcode f.raw ≠ 0x12) →
    ∃ t, exec (.slotZeroize i) s = .next t ∧ slotGet t i = Slot.free ∧ (∀ j, j ≠ i → slotGet t j = slotGet s j)) ∧
  (∀ (s : State) (i eid a b c : Nat) (f : Flight), awake s = true → (slotGet s i).st = 4 → s.host.flights = [f] →
    dOpcode f.raw = 0x21 → f.ended = false → f.discard = false → f.stage = .wait a b c → keyTgt f.raw = .ep eid →
    slotHolds (slotPut s i Slot.free) (epHandle eid) (eraseGens (recGet s eid) (dByte f.raw 42 1)) = false →
    ∃ t, exec (.slotZeroize i) s = .next t ∧ slotGet t i = Slot.free ∧
      recGet t eid = eraseDone (recGet s eid) (dByte f.raw 42 1) ∧ Completed s t f 0x00 4 0 0) ∧
  (∀ (s : State) (i : Nat), awake s = true → (slotGet s i).st ≠ 4 →
    (∀ f ∈ s.host.flights, dOpcode f.raw ≠ 0x12) →
    ∃ t, exec (.slotZeroize i) s = .next t ∧ t.keys = s.keys ∧ t.host = s.host) ∧
  (∀ s : State, awake s = true →
    ∃ t, exec .shareRerandomise s = .next t ∧
      t.keys.slots = s.keys.slots.map (fun p =>
        (p.1, if p.2.st = 2 then { p.2 with sh := shareAgain (s.free + 2 * p.1) p.2.sh } else p.2)) ∧
      (∀ p ∈ s.keys.slots, (shareAgain (s.free + 2 * p.1) p.2.sh).val = p.2.sh.val) ∧
      rest { t with keys := s.keys, free := s.free } = rest s) ∧
  (∀ (s : State) (uid since : Nat) (f : Flight), awake s = true → flightOf s uid = some f → f.discard = false →
    f.stage = .wait since 0 0 → f.ended = false → dOpcode f.raw ∈ slotOps →
    (dOpcode f.raw = 0x20 → kiSource f.raw ≠ 1) →
    (msPassed s since 1 = true → slotAlloc s = none →
      ∃ t, exec (.keySlotBusyTimeout uid) s = .next t ∧ rest t = rest s ∧ Completed s t f 0x14 0 0 0) ∧
    ((msPassed s since 1 = false ∨ slotAlloc s ≠ none) →
      ∃ t, exec (.keySlotBusyTimeout uid) s = .next t ∧ t.keys = s.keys ∧ t.host = s.host))

/-! ## Doorbells and the push window -/

/-- The three doorbells: an aligned 4-byte write at offset 0 moves the ring's index where it is legal and is a ring error
that moves nothing where it is not; any other write to the page is dropped and counted. -/
def Obligations.DoorbellsMoveOrRefuse : Prop :=
  ∀ (s : State) (n off size : Nat) (v : Word), awake s = true →
    (off = 0 ∧ size = 4 →
      (v.toNat < sqSize s n → ∃ t, exec (.sqTailDoorbell n off size v) s = .next t ∧
        sqGet t n = { sqGet s n with tail := v.toNat, db := v } ∧ t.host.flights = s.host.flights ∧ t.regs = s.regs) ∧
      (sqSize s n ≤ v.toNat → ∃ t, exec (.sqTailDoorbell n off size v) s = .next t ∧
        (sqGet t n).error = true ∧ (sqGet t n).tail = (sqGet s n).tail) ∧
      ((v.toNat < cqSize s n ∧ (v.toNat + cqSize s n - (cqGet s n).head) % cqSize s n ≤
          ((cqGet s n).tail + cqSize s n - (cqGet s n).head) % cqSize s n) →
        ∃ t, exec (.cqHeadDoorbell n off size v) s = .next t ∧ cqGet t n = { cqGet s n with head := v.toNat, db := v } ∧
          t.host.flights = s.host.flights ∧ t.regs = s.regs) ∧
      (¬ (v.toNat < cqSize s n ∧ (v.toNat + cqSize s n - (cqGet s n).head) % cqSize s n ≤
          ((cqGet s n).tail + cqSize s n - (cqGet s n).head) % cqSize s n) → ∃ t, exec (.cqHeadDoorbell n off size v) s = .next t ∧
        (cqGet t n).error = true ∧ (cqGet t n).head = (cqGet s n).head) ∧
      (((v - (rrGet s n).g).toNat ≤ rrSize s n ∧ (v - (rrGet s n).w).toNat ≤ rrSize s n) →
        ∃ t, exec (.rrGrantDoorbell n off size v) s = .next t ∧ rrGet t n = { rrGet s n with g := v, db := v } ∧
          t.host.deliv = s.host.deliv) ∧
      (rrSize s n < (v - (rrGet s n).g).toNat ∨ rrSize s n < (v - (rrGet s n).w).toNat → ∃ t, exec (.rrGrantDoorbell n off size v) s = .next t ∧
        (rrGet t n).grantErr = true ∧ (rrGet t n).g = (rrGet s n).g)) ∧
    (¬ (off = 0 ∧ size = 4) →
      (∃ t, exec (.sqTailDoorbell n off size v) s = .next t ∧ t.host.dbDrop = satInc s.host.dbDrop ∧ t.host.sq = s.host.sq) ∧
      (∃ t, exec (.cqHeadDoorbell n off size v) s = .next t ∧ t.host.dbDrop = satInc s.host.dbDrop ∧ t.host.cq = s.host.cq) ∧
      (∃ t, exec (.rrGrantDoorbell n off size v) s = .next t ∧ t.host.dbDrop = satInc s.host.dbDrop ∧ t.host.rr = s.host.rr))

/-- A 64-byte write inside a mapped push page of an ON ring enters the push buffer while it holds fewer than 64, and
completes BAD_DESCRIPTOR, PUSH_FULL, otherwise; any other push is dropped and counted. A push leaves the buffer
when a place is free, and its journal entry can be written. -/
def Obligations.PushEntersAndLeavesBuffer : Prop :=
  (∀ (s : State) (page off : Nat) (raw : BitVec 512), awake s = true → page < 16 → off % 64 = 0 → off < 4096 →
    wbit (regGet s (0x1040 + 4 * page)) 31 = true →
    (sqGet s (fld (regGet s (0x1040 + 4 * page)) 0 6)).fn.st = .on →
    (s.host.pushBuf.length < 64 → ∃ t, exec (.pushWrite page off 64 raw) s = .next t ∧
      t.host.pushBuf = s.host.pushBuf ++ [s.host.uidNext] ∧ t.host.uidNext = s.host.uidNext + 1 ∧
      ∃ f, f ∈ t.host.flights ∧ f.uid = s.host.uidNext ∧ f.raw = raw ∧ f.inPush = true ∧
        f.seq = (sqGet s (fld (regGet s (0x1040 + 4 * page)) 0 6)).seq) ∧
    (64 ≤ s.host.pushBuf.length → ∃ t f, exec (.pushWrite page off 64 raw) s = .next t ∧
      t.host.pushBuf = s.host.pushBuf ∧ t.host.pushOvf = satInc s.host.pushOvf ∧ f.raw = raw ∧
      f.cq = sqCqId s (fld (regGet s (0x1040 + 4 * page)) 0 6) ∧ ∃ o, Formed t f 0x08 0 0 (badResult 8 o 0))) ∧
  (∀ (s : State) (page off len : Nat) (raw : BitVec 512), awake s = true →
    (16 ≤ page ∨ len ≠ 64 ∨ off % 64 ≠ 0 ∨ 4096 ≤ off ∨ wbit (regGet s (0x1040 + 4 * page)) 31 = false ∨
      (sqGet s (fld (regGet s (0x1040 + 4 * page)) 0 6)).fn.st ≠ .on) →
    ∃ t, exec (.pushWrite page off len raw) s = .next t ∧ t.host.pushDrop = satInc s.host.pushDrop ∧
      t.host.flights = s.host.flights ∧ t.host.pushBuf = s.host.pushBuf) ∧
  (∀ (s : State) (uid : Nat) (l : List Nat) (f : Flight), awake s = true → s.host.pushBuf = uid :: l → tc0Used s < 64 →
    s.host.admQ = [] → placeFree s 0 = true → flightOf s uid = some f → f.discard = false → jrnlReady s f = true →
    ∃ t, exec .pushAdmission s = .next t ∧ t.host.pushBuf = l ∧
      ∃ g, g ∈ t.host.flights ∧ g.uid = uid ∧ g.raw = f.raw ∧ g.inPush = false)

/-! ## Rings -/

/-- A write of EN = 1 to an OFF ring's CFG starts it with its indices zero where its size is legal (a submission ring also
needs its completion ring ON or STARTING), and leaves it OFF with ERROR where not; EN = 0 to an ON ring begins STOPPING, a
reading ring's records all covered by its last tail write-back. -/
def Obligations.RingEnableAndDisable : Prop :=
  ∀ (s u : State) (n : Nat) (v : Word), awake s = true →
    (n < 64 → wbit v 31 = true → u = regWrite (bwRx (linkUp s) 66 4) (0x1C08 + 0x20 * n) v → (cqGet s n).fn.st = .off →
      (sizeOk (regFld u (0x1C08 + 0x20 * n) 0 5) = true → ∃ t, exec (.ringEnable 1 n v) s = .next t ∧
        (cqGet t n).fn.st = .starting ∧ (cqGet t n).head = 0 ∧ (cqGet t n).tail = 0 ∧ (cqGet t n).phaseInv = false) ∧
      (sizeOk (regFld u (0x1C08 + 0x20 * n) 0 5) = false → ∃ t, exec (.ringEnable 1 n v) s = .next t ∧
        (cqGet t n).fn = Fn.idle ∧ (cqGet t n).error = true)) ∧
    (n < 64 → wbit v 31 = true → u = regWrite (bwRx (linkUp s) 66 4) (0x1410 + 0x20 * n) v → (sqGet s n).fn.st = .off →
      (sizeOk (regFld u (0x1410 + 0x20 * n) 0 5) = true →
        ((cqGet s (sqCqId u n)).fn.st = .on ∨ (cqGet s (sqCqId u n)).fn.st = .starting) →
        ∃ t, exec (.ringEnable 0 n v) s = .next t ∧ (sqGet t n).fn.st = .starting ∧ (sqGet t n).head = 0 ∧
          (sqGet t n).tail = 0 ∧ (sqGet t n).seq = 0) ∧
      ((cqGet s (sqCqId u n)).fn.st = .off ∨ (cqGet s (sqCqId u n)).fn.st = .stopping ∨
          sizeOk (regFld u (0x1410 + 0x20 * n) 0 5) = false → ∃ t, exec (.ringEnable 0 n v) s = .next t ∧
        (sqGet t n).fn = Fn.idle ∧ (sqGet t n).error = true)) ∧
    (n < 16 → wbit v 31 = true → u = regWrite (bwRx (linkUp s) 66 4) (0x2410 + 0x20 * n) v → (rrGet s n).fn.st = .off →
      (sizeOk (regFld u (0x2410 + 0x20 * n) 0 5) = true → ∃ t, exec (.ringEnable 2 n v) s = .next t ∧
        (rrGet t n).fn.st = .starting ∧ (rrGet t n).w = 0) ∧
      (sizeOk (regFld u (0x2410 + 0x20 * n) 0 5) = false → ∃ t, exec (.ringEnable 2 n v) s = .next t ∧
        (rrGet t n).fn = Fn.idle ∧ (rrGet t n).error = true)) ∧
    (n < 64 → wbit v 31 = false → (cqGet s n).fn.st = .on → ∃ t, exec (.ringDisable 1 n v) s = .next t ∧
      cqGet t n = { cqGet s n with fn := { (cqGet s n).fn with st := .stopping } } ∧ t.host.sq = s.host.sq) ∧
    (n < 64 → wbit v 31 = false → (sqGet s n).fn.st = .on → ∃ t, exec (.ringDisable 0 n v) s = .next t ∧
      sqGet t n = { sqGet s n with fn := { (sqGet s n).fn with st := .stopping } } ∧ t.host.cq = s.host.cq) ∧
    (n < 16 → wbit v 31 = false → (rrGet s n).fn.st = .on → ∃ t, exec (.ringDisable 2 n v) s = .next t ∧
      (rrGet t n).fn = { (rrGet s n).fn with st := .stopping } ∧ (rrGet t n).w = (rrGet s n).w ∧
      (rrGet t n).g = (rrGet s n).g ∧ (rrGet t n).uncov = [] ∧
      t.host.sq = s.host.sq)

/-- DESCRIPTOR_FETCH takes the descriptor at the head of an ON ring that the arbiter grants into flight with the ring's SEQ
while a place is free, its journal entry finds room and neither a paused core nor a FENCE stops it; TC0_ADMISSION admits the longest-waiting descriptor once fewer than 64 TC0 items
hold a place. -/
def Obligations.FetchAndAdmission : Prop :=
  (∀ (s : State) (q : Nat) (raw : BitVec 512), awake s = true → (sqGet s q).fn.st = .on → s.host.linkDown = false →
    (sqGet s q).head ≠ (sqGet s q).tail → placeFree s (dTc raw) = true → fenceStopped s q = false → fetchGrant s q = true →
    (coresPaused s = true → opCore (dOpcode raw) = none) → (journaled (dOpcode raw) = true → tailOpenTc s (dTc raw) = true) →
    ∃ t, exec (.descriptorFetch q [raw]) s = .next t ∧ (sqGet t q).head = ((sqGet s q).head + 1) % sqSize s q ∧
      (sqGet t q).seq = (sqGet s q).seq + 1 ∧ (sqGet t q).tail = (sqGet s q).tail ∧
      t.host.uidNext = s.host.uidNext + 1 ∧
      ∃ f, f ∈ t.host.flights ∧ f.uid = s.host.uidNext ∧ f.sq = q ∧ f.cq = sqCqId s q ∧ f.raw = raw ∧
        f.seq = (sqGet s q).seq ∧ f.idx = some (sqGet s q).head) ∧
  (∀ (s : State) (uid : Nat) (l : List AdmItem) (f : Flight), awake s = true → s.host.admQ = .desc uid :: l →
    tc0Used s < 64 → flightOf s uid = some f → f.discard = false →
    ∃ t, exec .tc0Admission s = .next t ∧ t.host.admQ = l ∧
      ∃ g, g ∈ t.host.flights ∧ g.uid = uid ∧ g.raw = f.raw ∧ g.admWait = false)

/-- COMPLETION_WRITE puts the oldest waiting completion into its ring: its 32 bytes with the present phase at the tail, after
the head write-back of its submission ring where it has one; the tail advances, the phase inverts at the wrap, the descriptor
leaves its place in flight.
The interrupt conditions: TIME_US after the first unsignalled completion, or IRQ_EN rising with COUNT reached, signals the
ring and starts its counts again; an unmasked vector sends the message it held. -/
def Obligations.CompletionsWrittenAndSignalled : Prop :=
  (∀ (s : State) (c : Nat) (e : Cpl) (l : List Cpl), awake s = true → (cqGet s c).waiting = e :: l → cplReady s c e = true →
    ∃ t base, exec (.completionWrite c) s = .next t ∧
      base = (regGet s (0x1C00 + 0x20 * c)).toNat + 2 ^ 32 * (regGet s (0x1C04 + 0x20 * c)).toNat ∧
      (cqGet t c).waiting = l ∧ (cqGet t c).tail = ((cqGet s c).tail + 1) % cqSize s c ∧
      (cqGet t c).phaseInv = (if ((cqGet s c).tail + 1) % cqSize s c = 0 then !(cqGet s c).phaseInv else (cqGet s c).phaseInv) ∧
      memRead t.hostMem (base + 32 * (cqGet s c).tail) 32 = cplBytes e (!(cqGet s c).phaseInv) ∧
      (e.headIdx = none → ∀ a, a < base + 32 * (cqGet s c).tail ∨ base + 32 * (cqGet s c).tail + 32 ≤ a →
        memByte t.hostMem a = memByte s.hostMem a) ∧
      (e.unsol = false → ∀ f ∈ t.host.flights, f.uid ≠ e.uid) ∧ t.regs = s.regs ∧ t.recs.tab = s.recs.tab) ∧
  ((∀ (s : State) (c : Nat), awake s = true → cqTimeUp s c = true → cqIrqEn s c = true →
    ∃ t, exec (.completionInterruptTimer c) s = .next t ∧ cqGet t c = { cqGet s c with unsig := 0, timer := none } ∧
      t.hostMem = s.hostMem ∧ t.host.flights = s.host.flights) ∧
  (∀ (s u : State) (c : Nat) (v : Word), awake s = true → c < 64 →
    u = regWrite (bwRx (linkUp s) 66 4) (0x1C0C + 0x20 * c) v → cqIrqEn s c = false → cqIrqEn u c = true →
    (cqCount u c ≤ (cqGet s c).unsig → ∃ t, exec (.irqEnWrite c v) s = .next t ∧
      cqGet t c = { cqGet s c with unsig := 0, timer := none } ∧ t.regs = u.regs) ∧
    ((cqGet s c).unsig < cqCount u c → cqTimeUp u c = false → ∃ t, exec (.irqEnWrite c v) s = .next t ∧
      cqGet t c = cqGet s c ∧ t.regs = u.regs)) ∧
  (∀ (s : State) (v : Nat), awake s = true →
    ∃ t, exec (.msixVectorUnmask v) s = .next t ∧ tget true t.host.msixMask v = false ∧
      (tget false s.host.msixPend v = true → WireEv.msix v ∈ t.wire) ∧
      (tget false s.host.msixPend v = false → t.wire = (linkUp s).wire)))

/-- READING_DELIVERY writes the next record of a ring that can take one, as the arbiter grants the classes: its 128 bytes at
its place, W one higher, the record out of the delivery queue. -/
def Obligations.ReadingDelivered : Prop :=
  ∀ (s : State) (r : Nat) (d : Deliv), awake s = true → rrNext s r = some d →
    ∃ t base tail, exec (.readingDelivery r) s = .next t ∧
      base = (regGet s (0x2400 + 0x20 * r)).toNat + 2 ^ 32 * (regGet s (0x2404 + 0x20 * r)).toNat +
        128 * ((rrGet s r).w.toNat % rrSize s r) ∧
      tail = (regGet s (0x2408 + 0x20 * r)).toNat + 2 ^ 32 * (regGet s (0x240C + 0x20 * r)).toNat ∧
      (rrGet t r).w = (rrGet s r).w + 1 ∧ (rrGet t r).g = (rrGet s r).g ∧ (s.harn.served = none → ∀ e ∈ t.host.deliv, e.id ≠ d.id) ∧
      (tail + 4 ≤ base ∨ base + 128 ≤ tail → memRead t.hostMem base 128 = recordBytes d.rd) ∧
      (∀ a, (a < base ∨ base + 128 ≤ a) → (a < tail ∨ tail + 4 ≤ a) → memByte t.hostMem a = memByte s.hostMem a)

/-- A Function Level Reset: every register of the host block at its reset value and every other register unchanged, the rings
OFF and empty, every vector masked and none pending, the descriptors in flight without a completion to come, records not
covered by a tail write-back at the front of the delivery queue again. -/
def Obligations.FunctionLevelResetClearsHostBlock : Prop :=
  ∀ s : State, awake s = true → ∃ t, exec .functionLevelReset s = .next t ∧
    (∀ off, inHostBlock off = true → regGet t off = resetWord off) ∧
    (∀ off, inHostBlock off = false → regGet t off = regGet s off) ∧
    (∀ q, sqGet t q = Sq.idle ∧ cqGet t q = Cq.idle ∧ rrGet t q = Rr.idle) ∧
    (∀ v, tget true t.host.msixMask v = true ∧ tget false t.host.msixPend v = false) ∧
    (∀ f ∈ t.host.flights, f.discard = true) ∧ t.host.deliv = uncovered s ++ s.host.deliv ∧
    t.host.dbDrop = 0 ∧ t.host.pushDrop = 0 ∧ t.host.pcie = PcieSt.reset ∧ t.hostMem = (linkUp s).hostMem ∧
    t.recs.tab = s.recs.tab ∧ t.keys = s.keys ∧
    t.funcs = s.funcs

/-! ## Registers -/

/-- A host write of four aligned bytes stores the fields that are writable and in range and drops the rest; any other write
changes no register. Register 0x50 keeps its 16 bits, 0x204 refuses a HIGH of 0, and 0x300 with LOCK set keeps all. -/
def Obligations.RegisterWriteRules : Prop :=
  (∀ (s : State) (off size : Nat) (v : Word), awake s = true → ¬ (size = 4 ∧ off % 4 = 0) →
    ∃ t, exec (.registerWrite off size v) s = .next t ∧ t.regs = s.regs ∧ t.host.sq = s.host.sq ∧ t.keys = s.keys) ∧
  (∀ (s : State) (v : Word), awake s = true →
    (∃ t, exec (.registerWrite 0x50 4 v) s = .next t ∧ (regGet t 0x50).toNat = v.toNat % 2 ^ 16 ∧
      ∀ o, o ≠ 0x50 → regGet t o = regGet s o) ∧
    (fld v 0 6 = 0 → ∃ t, exec (.registerWrite 0x204 4 v) s = .next t ∧
      fld (regGet t 0x204) 0 6 = fld (regGet s 0x204) 0 6 ∧ ∀ o, o ≠ 0x204 → regGet t o = regGet s o) ∧
    (wbit (regGet s 0x300) 31 = true → ∃ t, exec (.registerWrite 0x300 4 v) s = .next t ∧
      regGet t 0x300 = regGet s 0x300 ∧ ∀ o, o ≠ 0x300 → regGet t o = regGet s o) ∧
    (∃ t, exec (.registerWrite 0x5008 4 v) s = .next t ∧ t.regs = s.regs ∧
      t.time.refused = (s.time.refused && !wbit v 6)))

/-- A write of WMn_CFG deasserts the watermark and evaluates it anew: it is then asserted exactly where the queue the new word
routes stands at or above its HIGH, and the pin shows it. -/
def Obligations.WatermarkReevaluated : Prop :=
  ∀ (s : State) (n : Nat) (v : Word), awake s = true → n < 4 → s.glob.wm.length = 4 →
    ∃ t, exec (.wmCfgWrite n v) s = .next t ∧ (∀ o, o ≠ 0x20 + 4 * n → regGet t o = regGet s o) ∧
      (lget false t.glob.wm n = true ↔ wmRouted (regGet t (0x20 + 4 * n)) = true ∧
        wmHigh (regGet t (0x20 + 4 * n)) * queueDepth t (wmId (regGet t (0x20 + 4 * n))) ≤
          64 * queueUsed t (wmId (regGet t (0x20 + 4 * n)))) ∧
      wmPin t n = ((lget false t.glob.wm n && wmRouted (regGet t (0x20 + 4 * n))) != wbit (regGet t (0x20 + 4 * n)) 30)

/-- KL_CTRL.CLEAR zeroes the key-load registers; the three PEAK_CLR bits start their peaks again at the present value (log
entry 40: the model's reading); a ROLE is stored while its group and channels are OFF and kept while one is not. -/
def Obligations.ClearAndRoleWrites : Prop :=
  ∀ (s : State) (v : Word), awake s = true →
    (wbit v 0 = true → ∃ t, exec (.klCtrlClear v) s = .next t ∧ t.keys.klData = [0, 0, 0, 0, 0, 0, 0, 0] ∧
      t.keys.slots = s.keys.slots ∧ t.regs = s.regs) ∧
    (wbit v 31 = true → (∃ t, exec (.pacePeakClear v) s = .next t ∧ t.glob.peak = s.glob.stPs ∧ t.regs = s.regs) ∧
      (∃ t, exec (.inflightPeakClear v) s = .next t ∧ t.host.peak = inflight s ∧ t.regs = s.regs) ∧
      (∃ t, exec (.holdPeakClear v) s = .next t ∧ t.ce.holdPeak = holdUsed s ∧ t.regs = s.regs)) ∧
    (∀ g, g < 4 → gateHeld s .role g = false → ∃ t, exec (.chgRoleWrite g v) s = .next t ∧
      fld (regGet t (0x6400 + 4 * g)) 0 1 = fld v 0 1 ∧ ∀ o, o ≠ 0x6400 + 4 * g → regGet t o = regGet s o) ∧
    (∀ g, g < 4 → gateHeld s .role g = true → ∃ t, exec (.chgRoleWrite g v) s = .next t ∧
      fld (regGet t (0x6400 + 4 * g)) 0 1 = fld (regGet s (0x6400 + 4 * g)) 0 1)

/-- A read of a counter's or DT's low word answers it and latches the high word beside it. -/
def Obligations.LowReadsLatchHigh : Prop :=
  ∀ s : State, awake s = true →
    (∀ k, ∃ t, exec (.cntLoRead k) s = .next t ∧ t.host.lastRead = BitVec.ofNat 32 (cntGet s k).toNat ∧
      cntHi t k = BitVec.ofNat 32 ((cntGet s k).toNat / 2 ^ 32 + 2 ^ 31) ∧ cntGet t k = cntGet s k ∧
      (∀ j, j ≠ k → cntHi t j = 0) ∧ t.regs = s.regs ∧ t.time = s.time) ∧
    (∃ t, exec .dtLoRead s = .next t ∧ t.host.lastRead = BitVec.ofNat 32 (dtOf s).toNat ∧
      t.time = { s.time with dtHi := BitVec.ofNat 32 ((dtOf s).toNat / 2 ^ 32) } ∧ t.regs = s.regs)

/-- The bandwidth windows: BW_SEL copies the selected port's last completed window, or an invalid one for a port that does not
exist; a legal WINDOW_MS starts every window anew; a window's end makes its totals the last completed window (those of the DRAM port,
67, are free: log entry 41). Arming a sampler
starts it at zero with its threshold. -/
def Obligations.WindowsAndSamplers : Prop :=
  (∀ (s : State) (v : Word), awake s = true → ∃ t p, exec (.bwSelWrite v) s = .next t ∧ p = fld v 0 7 ∧
    regFld t 0x904 0 7 = p ∧ (p ≤ 68 → t.cnt.copy = ⟨(bwGet s p).lastRx, (bwGet s p).lastTx, (bwGet s p).seq, (bwGet s p).done⟩) ∧
    (68 < p → t.cnt.copy = ⟨0, 0, 0, false⟩)) ∧
  (∀ (s : State) (v : Word), awake s = true → 1 ≤ fld v 0 14 → fld v 0 14 ≤ 10000 →
    ∃ t, exec (.bwWindowMsWrite v) s = .next t ∧ regFld t 0x900 0 14 = fld v 0 14 ∧ t.cnt.bwStart = s.tcxo ∧
      ∀ p, p < 69 → (bwGet t p).rx = 0 ∧ (bwGet t p).tx = 0 ∧ (bwGet t p).lastRx = (bwGet s p).lastRx) ∧
  (∀ s : State, awake s = true → msPassed s s.cnt.bwStart (regFld s 0x900 0 14) = true →
    ∃ t, exec .bwWindowEnd s = .next t ∧ t.cnt.bwStart = s.tcxo ∧ t.cnt.val = s.cnt.val ∧
      (bwGet t 67).rx = 0 ∧ (bwGet t 67).tx = 0 ∧ (bwGet t 67).seq = (bwGet s 67).seq + 1 ∧ (bwGet t 67).done = true ∧
      ∀ p, p < 69 → p ≠ 67 → bwGet t p = { bwGet s p with lastRx := (bwGet s p).rx, lastTx := (bwGet s p).tx, rx := 0, tx := 0,
                                                          seq := (bwGet s p).seq + 1, done := true }) ∧
  (∀ (s : State) (n : Nat) (v : Word), awake s = true → n < 8 → wbit (regGet s (0x800 + 0x20 * n)) 31 = false →
    wbit v 31 = true →
    ∃ t, exec (.samplerArm n v) s = .next t ∧ (smpGet t n).since = 0 ∧ (smpGet t n).thresh = regGet s (0x804 + 0x20 * n) ∧
      (∀ m, m ≠ n → smpGet t m = smpGet s m) ∧ wbit (regGet t (0x800 + 0x20 * n)) 31 = true)

/-! ## Retiring records, the journal -/

/-- OP_EP_RETIRE takes a record in use to RETIRING and, where nothing of it is under way and no kennel slot holds its
key, to FREE with its pinned state gone, in that step or in the RETIRE_DRAIN_END that finds it so; a FREE record is
BAD_DESCRIPTOR at offset 4. No other record changes. -/
def Obligations.RetireFreesTheRecord : Prop :=
  ∀ (s : State) (u : Nat) (f : Flight), Runs s u 0x12 f →
    ((recGet s (dEid f.raw)).state ≠ 0 → f.stage = .none →
      ∃ t, exec (.opEpRetire u) s = .next t ∧
        ((recGet t (dEid f.raw)).state = 3 ∨ recGet t (dEid f.raw) = EpRec.free) ∧
        (chRadio s (chanOf s (dEid f.raw)) = false → eidBusy s (dEid f.raw) = false → eidReadings s (dEid f.raw) = false →
          (∀ p ∈ s.keys.slots, p.2.handle = epHandle (dEid f.raw) → p.2.st = 0) →
          recGet t (dEid f.raw) = EpRec.free ∧ pinGet t (dEid f.raw) = PinEnt.none) ∧
        ∀ e, e ≠ dEid f.raw → recGet t e = recGet s e) ∧
    ((recGet s (dEid f.raw)).state = 3 → (∃ a b c, f.stage = .wait a b c) →
      (4 ≤ retireAt s (dEid f.raw) ∨ (eidBusy s (dEid f.raw) = false ∧ eidReadings s (dEid f.raw) = false)) →
      (∀ p ∈ s.keys.slots, p.2.handle = epHandle (dEid f.raw) → p.2.st = 0) →
      ∃ t, exec (.retireDrainEnd u) s = .next t ∧ recGet t (dEid f.raw) = EpRec.free ∧
        pinGet t (dEid f.raw) = PinEnt.none ∧ ∀ e, e ≠ dEid f.raw → recGet t e = recGet s e) ∧
    ((recGet s (dEid f.raw)).state = 0 → f.stage = .none →
      ∃ t, exec (.opEpRetire u) s = .next t ∧ Completed s t f 0x08 0 0 (badResult 9 4 0) ∧ rest t = rest s)

/-- The journal: a program moves the oldest entries of the tail to the flash copy and makes them durable, and entries that
waited join the tail; a checkpoint, once its period has passed, carries every record as a reader sees it and empties both; the migration restamps the next record of an older format. -/
def Obligations.JournalCheckpointMigration : Prop :=
  (∀ s : State, awake s = true → storeOn s = true → diesOn s ≠ [] → s.recs.jtail ≠ [] →
    ∃ t, exec .journalProgram s = .next t ∧ ∃ l b w e, l ++ b = s.recs.jtail ∧ t.recs.jtail = b ++ w ∧
      w ++ t.recs.jwait = s.recs.jwait ∧ l.getLast? = some e ∧
      t.recs.jnand = s.recs.jnand ++ l ∧ t.recs.durable = BitVec.ofNat 32 e.jseq ∧ t.recs.tab = s.recs.tab ∧
      t.store = s.store ∧ t.hostMem = s.hostMem) ∧
  (∀ s : State, awake s = true → storeOn s = true → diesOn s ≠ [] →
    (ckptDue s = true → ∃ t, exec .checkpoint s = .next t ∧ t.recs.ckpt = s.recs.tab.map (fun p => (p.1, recView s p.1)) ∧
      (s.recs.jwait = [] → t.recs.jtail = []) ∧ t.recs.jnand = [] ∧ t.recs.ckptCnt = s.recs.ckptCnt + 1 ∧
      t.recs.ckptAt = s.tcxo ∧ t.recs.tab = s.recs.tab ∧ t.store = s.store ∧ t.hostMem = s.hostMem) ∧
    (ckptDue s = false → ∃ t, exec .checkpoint s = .next t ∧ t.recs = s.recs ∧ t.store = s.store)) ∧
  (∀ (s : State) (e : Nat) (l : List Nat), awake s = true → tailOpen s = true → migrateLeft s = e :: l →
    ∃ t, exec .backgroundMigration s = .next t ∧ s.recs.fmt.toNat ≤ (recGet t e).version.toNat ∧
      (recGet t e).writeSeq = (recGet s e).writeSeq + 1 ∧ (recGet t e).energy = (recGet s e).energy ∧
      ∀ x, x ≠ e → recGet t x = recGet s x)

/-! ## Seals -/

/-- The record at the head of the seal stage becomes the next leaf of the open batch once a pipeline has run its eight blocks
under the session key of its slot, and goes to the delivery queue; at 4,096 leaves the batch closes with cause 0; with no
batch open it opens one under the next batch number, bound to the batch before. Without its keys the stage holds the record. -/
def Obligations.RecordsBecomeLeaves : Prop :=
  ∀ (s : State) (it : SealItem) (l : List SealItem), awake s = true → s.sealU.queue = it :: l →
    (sealKeys s = none → ∃ t, exec .sealLeaf s = .next t ∧ t.sealU.queue = s.sealU.queue ∧ t.sealU.missed = true ∧
      t.host.deliv = s.host.deliv) ∧
    (∀ (k gk : BitVec 256) (g gg typ : BitVec 8) (i : Nat), sealKeys s = some (k, g, gk, gg, typ) →
      sealHeld s it.cls = false → slotFind s s.sealU.session g 2 = some i →
      (∀ b, s.sealU.batch = some b → batchDue s b = false → b.sGen = g →
        (cipherRun (slotHand s i).1 1 (slotHand s i).2 8).2.isSome = true →
        ∃ t, exec .sealLeaf s = .next t ∧ t.sealU.queue = l ∧
          (∃ d, d ∈ t.host.deliv ∧ d.id = s.host.delivNext ∧ d.rd = sealRecord (slotGet s i).sh.val b it.rd ∧
            d.tc0 = it.tc0 ∧ d.cls = it.cls ∧ d.uid = it.uid) ∧
          (b.leaves.length + 1 < 4096 → t.sealU.signQ = s.sealU.signQ ∧ ∃ b', t.sealU.batch = some b' ∧ b'.bid = b.bid ∧
            b'.leaves = b.leaves ++ [leafHash (sealRecord (slotGet s i).sh.val b it.rd)]) ∧
          (4096 ≤ b.leaves.length + 1 → t.sealU.batch = none ∧ ∃ b', t.sealU.signQ = s.sealU.signQ ++ [b'] ∧ b'.bid = b.bid ∧
            b'.cause = 0 ∧ b'.leaves = b.leaves ++ [leafHash (sealRecord (slotGet s i).sh.val b it.rd)]) ∧
          t.hostMem = s.hostMem ∧ t.recs.tab = s.recs.tab) ∧
      (s.sealU.batch = none → batchMayOpen s it.cls = true →
        (cipherRun (slotHand (batchOpen s g gg) i).1 1 (slotHand (batchOpen s g gg) i).2 8).2.isSome = true →
        ∃ t, exec .sealLeaf s = .next t ∧ t.sealU.queue = l ∧ t.sealU.prev = batchId s.sealU.src s.sealU.ctrNext ∧
          t.sealU.ctrNext = s.sealU.ctrNext + 1 ∧ ∃ b', t.sealU.batch = some b' ∧
          b'.bid = batchId s.sealU.src s.sealU.ctrNext ∧ b'.prev = s.sealU.prev ∧ b'.leaves.length = 1 ∧ b'.dtOpen = dtOf s))

/-- A batch whose window has ended closes with cause 1 and queues for its signature; the oldest closed batch is signed under
the present generation of the signing key it names, from that key's slot, and enters the batch log with the next LSEQ, while
the DRBG serves the two requests this takes and the store has a place. -/
def Obligations.BatchesCloseAndAreSigned : Prop :=
  (∀ (s : State) (b : Batch), awake s = true → s.sealU.batch = some b → batchDue s b = true →
    ∃ t, exec .batchCloseTimer s = .next t ∧ t.sealU.batch = none ∧
      t.sealU.signQ = s.sealU.signQ ++ [{ b with dtClose := dtOf s, cause := 1 }] ∧
      t.sealU.recent = ({ b with dtClose := dtOf s, cause := 1 } :: s.sealU.recent).take 32 ∧
      t.sealU.queue = s.sealU.queue ∧ t.host.deliv = s.host.deliv ∧ t.recs = s.recs) ∧
  (∀ (s : State) (b : Batch) (l : List Batch), awake s = true → s.sealU.signQ = b :: l →
    ∀ (k : BitVec 256) (g : BitVec 8), dirUse s b.sign = .ok k g → ∀ kb : Blob, (dirGet s b.sign).cur = some kb →
    ∀ i : Nat, slotFind s b.sign g 2 = some i →
    (storeRoom s = true → (signDraw s).isSome = true →
      ∃ t, exec .batchSign s = .next t ∧ t.sealU.signQ = l ∧ t.sealU.lseq = s.sealU.lseq + 1 ∧
        t.sealU.batch = s.sealU.batch ∧ t.host.deliv = s.host.deliv ∧ t.sealU.owed = s.sealU.owed - 1 ∧
        ∃ e n, t.sealU.log.getLast? = some e ∧ e.lseq = s.sealU.lseq ∧ e.bid = b.bid ∧ e.recs = b.recs ∧
        e.hdr = batchHeader s { b with gGen := g } (if kb.typ = 4 then 1 else 2) ∧
        e.sig = sigBytes (if kb.typ = 4 then 1 else 2)
          (Config.ecdsaSign kb.typ (privScalar kb.typ (slotGet s i).sh.val (BitVec.ofNat 32 b.sign)) n
            (sigHash kb.typ e.hdr))) ∧
    (storeRoom s = false ∨ signDraw s = none → ∃ t, exec .batchSign s = .next t ∧ t.sealU = s.sealU ∧ t.store = s.store))

/-- OP_SEAL_KEY_SET with two usable keys of the right types: both handles and SEAL_SRC in use, the open batch closed, OK after
step 4. A key that is empty or invalidated, a handle of the wrong kind, a key of the wrong type and a pin over the limit
refuse it whole. -/
def Obligations.SealKeysSet : Prop :=
  ∀ (s : State) (u : Nat) (f : Flight), Runs s u 0x29 f →
    ((hIsDir (dByte f.raw 24 4) && hIsSession (dByte f.raw 24 4)) = false ∨ sealKeyWrong s (dByte f.raw 24 4) = true →
      ∃ t, exec (.opSealKeySet u) s = .next t ∧ Completed s t f 0x08 0 0 (badResult 9 24 0) ∧ rest t = rest s) ∧
    ((hIsDir (dByte f.raw 24 4) && hIsSession (dByte f.raw 24 4)) = true → sealKeyWrong s (dByte f.raw 24 4) = false →
      ((hIsDir (dByte f.raw 28 4) && hIsSign (dByte f.raw 28 4)) = false ∨ sealKeyWrong s (dByte f.raw 28 4) = true →
        ∃ t, exec (.opSealKeySet u) s = .next t ∧ Completed s t f 0x08 0 0 (badResult 9 28 0) ∧ rest t = rest s) ∧
      ((hIsDir (dByte f.raw 28 4) && hIsSign (dByte f.raw 28 4)) = true → sealKeyWrong s (dByte f.raw 28 4) = false →
        (∀ st, sealKeyBad s (dByte f.raw 24 4) = some st →
          ∃ t, exec (.opSealKeySet u) s = .next t ∧ Completed s t f st 0 0 0 ∧ rest t = rest s) ∧
        (∀ st, sealKeyBad s (dByte f.raw 24 4) = none → sealKeyBad s (dByte f.raw 28 4) = some st →
          ∃ t, exec (.opSealKeySet u) s = .next t ∧ Completed s t f st 0 0 0 ∧ rest t = rest s) ∧
        (sealKeyBad s (dByte f.raw 24 4) = none → sealKeyBad s (dByte f.raw 28 4) = none →
          (∀ s0 : State, pinsExceed s (sealNewPins s (dByte f.raw 24 4) + sealNewPins s (dByte f.raw 28 4)) = (true, s0) →
            ∃ t, exec (.opSealKeySet u) s = .next t ∧ Completed s t f 0x14 0 0 0 ∧ t.sealU = s.sealU ∧ t.keys = s.keys) ∧
          (∀ s0 : State, pinsExceed s (sealNewPins s (dByte f.raw 24 4) + sealNewPins s (dByte f.raw 28 4)) = (false, s0) →
            ((sealPin s0 (dByte f.raw 24 4)).bind fun x => sealPin x (dByte f.raw 28 4)).isSome = true →
            ∃ t, exec (.opSealKeySet u) s = .next t ∧ Completed s t f 0 4 0 0 ∧ t.sealU.set = true ∧
              t.sealU.session = dByte f.raw 24 4 ∧ t.sealU.sign = dByte f.raw 28 4 ∧ t.sealU.missed = false ∧
              t.sealU.src = BitVec.ofNat 16 (dByte f.raw 32 2) ∧ t.sealU.batch = none ∧
              (∀ b, s.sealU.batch = some b →
                t.sealU.signQ = s.sealU.signQ ++ [{ b with dtClose := dtOf s, cause := 2 }])))))

/-- OP_BATCH_GET: a MODE above 1 is refused; mode 0 writes the visible entries from FROM_LSEQ on, or waits up to WAIT_MS for one and then answers with
what is there; mode 1 writes the twelve path entries of a leaf, or answers RESULT 1 for a batch it no longer holds and 2
for a leaf that batch has not. -/
def Obligations.BatchLogAndPathsRead : Prop :=
  ∀ (s : State) (u : Nat) (f : Flight), Runs s u 0x28 f → s.host.linkDown = false →
    (1 < dByte f.raw 24 1 →
      (∃ t, exec (.opBatchGetLog u) s = .next t ∧ Completed s t f 0x08 0 0 (badResult 9 24 0) ∧ rest t = rest s) ∧
      (∃ t, exec (.opBatchGetPath u) s = .next t ∧ Completed s t f 0x08 0 0 (badResult 9 24 0) ∧ rest t = rest s)) ∧
    (dByte f.raw 24 1 = 0 → spanSet f.raw 36 10 = none → dByte f.raw 32 2 ≤ 10000 →
      (((logVisible s).any fun e => decide (dByte f.raw 28 4 ≤ e.lseq.toNat)) = true ∨ dByte f.raw 32 2 = 0 →
        ∃ t, exec (.opBatchGetLog u) s = .next t ∧ Wrote s t (dBufAddr f.raw) ((batchOut s f.raw).map logBatchBytes).flatten ∧
          Completed s t f 0 0 0 (result4 (batchOut s f.raw).length (batchNext s f.raw) (logOldest s).toNat
            (b2n (batchOlder s f.raw))) ∧ t.sealU = s.sealU) ∧
      (((logVisible s).any fun e => decide (dByte f.raw 28 4 ≤ e.lseq.toNat)) = false → 0 < dByte f.raw 32 2 →
        f.stage = .none → ∃ t, exec (.opBatchGetLog u) s = .next t ∧
          flightOf t u = some { f with stage := .wait s.tcxo (dByte f.raw 32 2) 0 } ∧ t.host.cq = s.host.cq ∧
          rest t = rest s)) ∧
    (∀ a ms x, f.stage = .wait a ms x → msPassed s a ms = true →
      ∃ t, exec (.batchGetWaitExpiry u) s = .next t ∧ Wrote s t (dBufAddr f.raw) ((batchOut s f.raw).map logBatchBytes).flatten ∧
        Completed s t f 0 0 0 (result4 (batchOut s f.raw).length (batchNext s f.raw) (logOldest s).toNat
          (b2n (batchOlder s f.raw))) ∧ t.sealU = s.sealU) ∧
    (dByte f.raw 24 1 = 1 → spanSet f.raw 28 6 = none → 384 ≤ dBufLen f.raw →
      ((∀ b ∈ s.sealU.recent, b.bid.toNat ≠ dByte f.raw 36 8) →
        ∃ t, exec (.opBatchGetPath u) s = .next t ∧ Completed s t f 0 0 0 1 ∧ rest t = rest s) ∧
      (∀ b, s.sealU.recent.find? (fun b => b.bid.toNat == dByte f.raw 36 8) = some b →
        (b.leaves.length ≤ dByte f.raw 44 2 →
          ∃ t, exec (.opBatchGetPath u) s = .next t ∧ Completed s t f 0 0 0 2 ∧ rest t = rest s) ∧
        (dByte f.raw 44 2 < b.leaves.length → ∃ t, exec (.opBatchGetPath u) s = .next t ∧ Completed s t f 0 0 0 0 ∧
          Wrote s t (dBufAddr f.raw) ((List.range 12).map fun j => bytes32 (pathEntry b.leaves (dByte f.raw 44 2) j)).flatten)))

/-! ## The interval store -/

/-- With the store ON: OP_STORE_QUERY writes the selected entries with their count and the SSN to ask for next, DISCARDED
where the range holds a discarded entry; OP_STORE_DISCARD journals the range and marks every unit that lies whole in it;
OP_STORE_HEALTH writes the health block. With the store OFF, or STOPPING and not at work for it, each of the four completes
STORE_UNAVAILABLE; with the store STARTING each queues.
OP_STORE_REPLAY puts the records of the wanted readings into the delivery queue, in SSN order, for the ring it names; the
queue keeps its last 64 places for TC0. -/
def Obligations.StoreCommandsAnswer : Prop :=
  ((∀ (s : State) (u : Nat) (f : Flight), Runs s u 0x60 f → queryBad s f.raw false = none →
    (fnGet s 0x0A00).st = .on → s.host.linkDown = false →
    ∃ t x disc, exec (.opStoreQuery u) s = .next t ∧
      x = queryTake (dBufLen f.raw) (dByte f.raw 48 4) ((scanEnts s).filter (wanted f.raw)) (scanReads s f.raw) [] 0 ∧
      disc = ((scanEnts s).any fun e => inRange f.raw e && entDiscarded s e) ∧
      Wrote s t (dBufAddr f.raw) x.2.1 ∧
      Completed s t f (if disc then 0x52 else 0) 1 x.2.2.1
        (queryResult s f.raw x.2.2.1 (nextSsn s f.raw x.2.2.2) disc)) ∧
  (∀ (s : State) (u : Nat) (f : Flight), Runs s u 0x61 f → dByte f.raw 24 1 ≤ 1 →
    dByte f.raw 32 8 < dByte f.raw 40 8 → (fnGet s 0x0A00).st = .on → tailRoom s (.note 18 0) = true →
    ∃ t n, exec (.opStoreDiscard u) s = .next t ∧ Completed s t f 0 3 0 (result4 n 0 0 0) ∧
      t.store.disc = s.store.disc ++ [(dByte f.raw 24 1 == 1, dByte f.raw 32 8, dByte f.raw 40 8, s.store.next)] ∧
      (∀ v ∈ t.store.units, v.par = false → v.ents ≠ [] → (∀ e ∈ v.ents, dByte f.raw 32 8 ≤
          (if dByte f.raw 24 1 = 1 then e.dt.toNat else e.ssn) ∧
          (if dByte f.raw 24 1 = 1 then e.dt.toNat else e.ssn) < dByte f.raw 40 8) → v.disc = true) ∧
      t.store.units.map (·.ents) = s.store.units.map (·.ents) ∧ t.store.open_ = s.store.open_ ∧ t.hostMem = s.hostMem) ∧
  (∀ (s : State) (u : Nat) (f : Flight), Runs s u 0x63 f → (fnGet s 0x0A00).st = .on → s.host.linkDown = false →
    ∃ t, exec (.opStoreHealth u) s = .next t ∧ Wrote s t (dBufAddr f.raw) (healthBytes s) ∧ Completed s t f 0 1 0 0 ∧
      t.store = s.store) ∧
  (∀ (s : State) (u : Nat) (f : Flight),
    ∀ p ∈ [(0x60, Instr.opStoreQuery u), (0x61, Instr.opStoreDiscard u), (0x62, Instr.opStoreReplay u),
        (0x63, Instr.opStoreHealth u)], Runs s u p.1 f →
    (p.1 = 0x60 → queryBad s f.raw false = none) → (p.1 = 0x62 → queryBad s f.raw true = none) →
    (p.1 = 0x61 → dByte f.raw 24 1 ≤ 1 ∧ dByte f.raw 32 8 < dByte f.raw 40 8) →
    ((fnGet s 0x0A00).st = .off ∨ ((fnGet s 0x0A00).st = .stopping ∧ workKept (fnGet s 0x0A00) f = false) →
      ∃ t, exec p.2 s = .next t ∧ Completed s t f 0x51 0 0 0 ∧ rest t = rest s) ∧
    ((fnGet s 0x0A00).st = .starting → (fnGet s 0x0A00).queued.contains u = false →
      ∃ t, exec p.2 s = .next t ∧ t.host = s.host ∧ t.store = s.store ∧
        fnGet t 0x0A00 = { fnGet s 0x0A00 with queued := (fnGet s 0x0A00).queued ++ [u] }))) ∧
  (∀ (s : State) (u : Nat) (f : Flight) (l : List SEnt), Runs s u 0x62 f → queryBad s f.raw true = none →
    (fnGet s 0x0A00).st = .on → f.stage = .none → f.units = 0 →
    l = (scanEnts s).filter (fun e => wanted f.raw e && e.typ == 1) → l.length ≤ dByte f.raw 48 4 →
    s.host.deliv.length + s.sealU.queue.length + l.length ≤ 16320 →
    ∃ t, exec (.opStoreReplay u) s = .next t ∧ t.host.deliv.map (·.rd) = s.host.deliv.map (·.rd) ++ l.filterMap (·.rd) ∧
      (∀ d ∈ t.host.deliv.drop s.host.deliv.length, d.ring = some (dByte f.raw 26 1) ∧ d.uid = some u ∧ d.tc0 = false) ∧
      t.hostMem = s.hostMem ∧ t.store.units = s.store.units ∧ t.store.open_ = s.store.open_)

/-- The store's own work: an append takes the next SSN in the open unit, in a fresh one where it no longer fits; a queued page
finishes; a collection erases its victim block once more; a program failure retires the block being filled, the third
erase failure in a row and a timeout fail the die; a patrol read moves on and marks a worn block, one the first decoding of
which failed is read again, rebuilt or counted unreadable; a temperature reading counts a minute in each reading's bucket. -/
def Obligations.StoreWorks : Prop :=
  (∀ (s : State) (e : SEnt) (l : List SEnt), awake s = true → s.store.queue = e :: l → storeOn s = true → diesOn s ≠ [] →
    ((s.store.open_.map entSize).sum + entSize e ≤ 32704 → ∃ t, exec .storeAppend s = .next t ∧ t.store.queue = l ∧
      t.store.next = s.store.next + 1 ∧ t.store.open_ = s.store.open_ ++ [{ e with ssn := s.store.next }] ∧
      t.store.units = s.store.units ∧ t.recs = s.recs) ∧
    (32704 < (s.store.open_.map entSize).sum + entSize e → progPages s + 2 * unitPages s ≤ 192 →
      ∃ t, exec .storeAppend s = .next t ∧ t.store.queue = l ∧ t.store.next = s.store.next + 1 ∧
        t.store.open_ = [{ e with ssn := s.store.next }])) ∧
  (∀ (s : State) (die : Nat) (v : SUnit), awake s = true → dieOn s die = true →
    (s.store.units.find? fun u => u.die == die && u.left != 0) = some v →
    ∃ t, exec (.nandPageProgrammed die) s = .next t ∧
      t.store.units = s.store.units.map (fun u => if u.num = v.num ∧ u.par = v.par then { u with left := u.left - 1 } else u) ∧
      t.store.dies = s.store.dies ∧ t.recs = s.recs) ∧
  (∀ (s : State) (die b : Nat), awake s = true → storeWorks s die = true → gcVictim s die = some b →
    gcRoom s die b = true → ∃ t, exec (.garbageCollection die) s = .next t ∧
      tget 0 (dieGet t die).erases b = tget 0 (dieGet s die).erases b + 1 ∧ (dieGet t die).eraseRow = 0 ∧
      b ∉ (dieGet t die).refresh ∧ t.store.next = s.store.next ∧ t.store.open_ = s.store.open_) ∧
  (∀ (s : State) (die : Nat), awake s = true → storeOn s = true → dieOn s die = true →
    ((dieGet s die).next ≠ 0 → ∃ t, exec (.nandProgramFailure die) s = .next t ∧
      t.store.progFail = s.store.progFail + 1 ∧ ((dieGet s die).next - 1) / unitsPerBlock s ∈ (dieGet t die).retired) ∧
    (∃ t, exec (.nandEraseFailure die) s = .next t ∧ t.store.eraseFail = s.store.eraseFail + 1 ∧
      (dieGet t die).eraseRow = (dieGet s die).eraseRow + 1 ∧ (2 ≤ (dieGet s die).eraseRow → (dieGet t die).failed = true)) ∧
    (∃ t, exec (.dieTimeout die) s = .next t ∧ (dieGet t die).failed = true ∧ (fnGet t (0x0800 + die)).st = .stopping)) ∧
  (∀ (s : State) (die corr : Nat), awake s = true → storeWorks s die = true →
    ∃ t, exec (.patrolRead die corr false false false) s = .next t ∧ t.store.units = s.store.units ∧
      (dieGet t die).ppos =
        (if (dieGet s die).ppos + 1 < (dieGet s die).next * unitPages s then (dieGet s die).ppos + 1 else 0) ∧
      (regFld s 0xA004 0 7 ≤ corr → (dieGet s die).ppos / unitPages s / unitsPerBlock s ∈ (dieGet t die).refresh) ∧
      t.store.unreadCnt = s.store.unreadCnt) ∧
  (∀ (s : State) (die corr : Nat) (ok : Bool), awake s = true → storeWorks s die = true →
    (∃ t, exec (.patrolRead die corr true true ok) s = .next t ∧ t.store.units = s.store.units ∧
      t.store.retryOk = s.store.retryOk + 1 ∧
      (dieGet s die).ppos / unitPages s / unitsPerBlock s ∈ (dieGet t die).refresh) ∧
    (∃ t, exec (.patrolRead die corr true false true) s = .next t ∧ t.store.units = s.store.units ∧
      t.store.rebuilt = s.store.rebuilt + 1) ∧
    (∃ t, exec (.patrolRead die corr true false false) s = .next t ∧ t.store.unreadCnt = s.store.unreadCnt + 1 ∧
      t.store.units = s.store.units.map fun v =>
        if v.die = die ∧ v.place = (dieGet s die).ppos / unitPages s then { v with unread := true } else v)) ∧
  (∀ s : State, awake s = true → (∃ t, exec (.nandTemperatureRead []) s = .next t ∧ t.store = s.store) ∧
    ∀ (l : List Int) (x : Int), ∃ t r, exec (.nandTemperatureRead (l ++ [x])) s = .next t ∧
      r = temperatureRead s l ∧ exec (.nandTemperatureRead l) s = .next (wmUpdate r) ∧
      t.store.hours = lset r.store.hours (tempBucket x) (lget 0 r.store.hours (tempBucket x) + 1) ∧
      t.store.hotMax = some (match r.store.hotMax with | some m => max m x | none => x) ∧ t.store.units = s.store.units)

/-! ## Time -/

/-- OP_TIME_MSG: with discipline OFF or STOPPING it ends so; a member leaves DT to the ring and answers OUTCOME 5. On a part that
disciplines itself a message without a previous exchange is recorded, with DT at its doorbell, and answers OUTCOME 0; an
exchange whose delay is negative is discarded; in TRACKING one within the step threshold slews, one beyond it is refused
with STEP_REFUSED and moves nothing. The offset to UTC and a leap change are taken from the flags of any message.
OP_TIME_REBASE with a usable key and a valid token moves DT by SHIFT and counts it, once the DRBG can make its next
nonce; a wrong nonce, a wrong tag and a shift out of range are refused at their offsets, a member, a key of another kind and
an empty or revoked one too, and move nothing. -/
def Obligations.TimeMessagesAndRebase : Prop :=
  ((∀ (s : State) (u : Nat) (f : Flight), Runs s u 0x68 f →
    ((fnGet s 0x0B00).st = .off → ∃ t, exec (.opTimeMsg u) s = .next t ∧ t.time = s.time ∧
      Completed s t f 0x41 0 0 (timeResult (msgT2 s u) 0 0)) ∧
    ((fnGet s 0x0B00).st = .stopping → ∃ t, exec (.opTimeMsg u) s = .next t ∧ t.time = s.time ∧
      Completed s t f 0x40 0 0 (timeResult (msgT2 s u) 0 0)) ∧
    ((fnGet s 0x0B00).st = .on ∨ (fnGet s 0x0B00).st = .starting → timeMember s = true →
      ∃ t, exec (.opTimeMsg u) s = .next t ∧ t.time.dt = s.time.dt ∧ t.time.rate = s.time.rate ∧
        Completed s t f 0 0 0 (timeResult (msgT2 s u) 5 0)) ∧
    ((fnGet s 0x0B00).st = .on →
      ∃ t, exec (.opTimeMsg u) s = .next t ∧
        (dByte f.raw 48 1 % 2 = 1 → t.time.utcSet = true ∧ t.time.utcCur = BitVec.ofNat 16 (dByte f.raw 50 2)) ∧
        (dByte f.raw 48 1 % 2 = 0 → t.time.utcSet = s.time.utcSet ∧ t.time.utcCur = s.time.utcCur) ∧
        (dByte f.raw 48 1 / 2 % 2 = 1 → t.time.leapPend = true ∧ t.time.utcNext = BitVec.ofNat 16 (dByte f.raw 52 2) ∧
          t.time.leapDt = BitVec.ofNat 64 (dByte f.raw 56 8)) ∧
        (dByte f.raw 48 1 / 2 % 2 = 0 → t.time.leapPend = s.time.leapPend ∧ t.time.utcNext = s.time.utcNext))) ∧
  ∀ (s : State) (u : Nat) (f : Flight), Runs s u 0x68 f → (fnGet s 0x0B00).st = .on → timeMember s = false →
    (s.time.lastMsg = none → ∃ t, exec (.opTimeMsg u) s = .next t ∧ Completed s t f 0 0 0 (timeResult (msgT2 s u) 0 0) ∧
      t.time.lastMsg = some ⟨BitVec.ofNat 32 (dByte f.raw 32 4), BitVec.ofNat 64 (dByte f.raw 24 8), msgT2 s u, dtOf s, false⟩ ∧
      t.time.dt = s.time.dt ∧ t.time.rate = s.time.rate) ∧
    (∀ m : TMsg, s.time.lastMsg = some m → ∀ (half d : Int), dByte f.raw 36 8 ≠ 0 →
      (m.seq.toNat + 1) % 2 ^ 32 = dByte f.raw 32 4 →
      half = ((m.t2.toNat : Int) - m.t1.toNat) + ((m.t3.toNat : Int) - dByte f.raw 36 8) →
      d = ((dByte f.raw 36 8 : Nat) - (m.t1.toNat : Int)) - ((m.t3.toNat : Int) - m.t2.toNat) →
      (m.spoiled = true ∨ d < 0 → ∃ t, exec (.opTimeMsg u) s = .next t ∧ t.time.dt = s.time.dt ∧ t.time.rate = s.time.rate ∧
        t.time.offset = s.time.offset ∧ Completed s t f 0 0 0 (timeResult (msgT2 s u) 3
          (sat32 (Int.tdiv (Int.tdiv (half * 1000000000) (2 ^ 25 : Nat)) 1000)))) ∧
      (m.spoiled = false → 0 ≤ d → d * 1000000 ≤ ((regFld s 0x5004 0 16 * 2 ^ 24 : Nat) : Int) →
        ((Int.tdiv (half * 1000000000) (2 ^ 25 : Nat)).natAbs ≤ regFld s 0x5000 0 10 * 1000000 →
          ∃ t dS, exec (.opTimeMsg u) s = .next t ∧ t.time.dt = s.time.dt ∧
            t.time.offset = Int.tdiv (half * 1000000000) (2 ^ 25 : Nat) ∧
            (t.time.f, t.time.rate) =
              slewRates s.time.f (Int.tdiv (half * 1000000000) (2 ^ 25 : Nat)) (regFld s 0x5000 16 8) dS ∧
            (s.time.lastAcc = none → dS = regFld s 0x5000 16 8) ∧ t.time.lastAcc = some m.t2 ∧ t.time.holdover = false ∧
            Completed s t f 0 0 0 (timeResult (msgT2 s u) 2
              (sat32 (Int.tdiv (Int.tdiv (half * 1000000000) (2 ^ 25 : Nat)) 1000)))) ∧
        (regFld s 0x5000 0 10 * 1000000 < (Int.tdiv (half * 1000000000) (2 ^ 25 : Nat)).natAbs →
          ∃ t, exec (.opTimeMsg u) s = .next t ∧ t.time.dt = s.time.dt ∧ t.time.rate = s.time.rate ∧
            t.time.refused = true ∧ t.time.refuseCnt = satInc s.time.refuseCnt ∧
            Completed s t f 0x50 0 0 (timeResult (msgT2 s u) 4
              (sat32 (Int.tdiv (Int.tdiv (half * 1000000000) (2 ^ 25 : Nat)) 1000))))))) ∧
  (∀ (s : State) (u : Nat) (f : Flight), Runs s u 0x69 f →
    (timeMember s = true → ∃ t, exec (.opTimeRebase u) s = .next t ∧ Completed s t f 0x08 0 0 (badResult 9 0 0) ∧
      rest t = rest s) ∧
    (timeMember s = false →
      (hIsDir (dByte f.raw 24 4) && hIsSession (dByte f.raw 24 4) && rebaseUsage s (dByte f.raw 24 4)) = false →
      ∃ t, exec (.opTimeRebase u) s = .next t ∧ Completed s t f 0x08 0 0 (badResult 9 24 0) ∧ rest t = rest s) ∧
    (timeMember s = false →
      (hIsDir (dByte f.raw 24 4) && hIsSession (dByte f.raw 24 4) && rebaseUsage s (dByte f.raw 24 4)) = true →
      (dirUse s (dByte f.raw 24 4) = .empty → ∃ t, exec (.opTimeRebase u) s = .next t ∧ Completed s t f 0x13 0 0 0 ∧
        rest t = rest s) ∧
      (dirUse s (dByte f.raw 24 4) = .revoked → ∃ t, exec (.opTimeRebase u) s = .next t ∧ Completed s t f 0x12 0 0 0 ∧
        rest t = rest s) ∧
      (∀ (k : BitVec 256) (g : BitVec 8), dirUse s (dByte f.raw 24 4) = .ok k g →
        (rebaseBad s f k = none → drbgOpen s = true → ∃ t, exec (.opTimeRebase u) s = .next t ∧ Completed s t f 0 3 0 0 ∧
          t.time.dt = BitVec.ofNat 96 ((s.time.dt.toNat : Int) + nsUnits (signed64 (dByte f.raw 32 8))).toNat ∧
          t.time.rebaseCnt = s.time.rebaseCnt + 1 ∧ t.time.pendReb = none ∧ t.sealU.batch = none ∧
          t.time.rate = s.time.rate ∧ t.air.sfOffset = s.air.sfOffset + (dtOf t - dtOf s)) ∧
        (rebaseBad s f k = none → drbgOpen s = false → ∃ t, exec (.opTimeRebase u) s = .next t ∧ t.time = s.time ∧
          t.host = s.host) ∧
        (∀ o, rebaseBad s f k = some o → ∃ t, exec (.opTimeRebase u) s = .next t ∧
          Completed s t f 0x08 0 0 (badResult 9 o 0) ∧ rest t = rest s) ∧
        (dByte f.raw 28 4 ≠ s.time.nonce.toNat → rebaseBad s f k = some 28))))

/-- The timed events of the clock: a due leap change takes effect, a leap change not due does nothing; HOLDOVER after HOLDOVER_S
without an accepted exchange; the battery-backed counter is rewritten where it differs by more than two ticks; the rate
correction is saved; VBAT below 1.8 V sets VBAT_LOW; a ring tick disciplines a joined member within the threshold. -/
def Obligations.ClockEvents : Prop :=
  ∀ s : State, awake s = true →
    (s.time.leapPend = true → s.time.leapDt.toNat ≤ (dtOf s).toNat → ∃ t, exec .leapChange s = .next t ∧
      t.time = { s.time with utcCur := s.time.utcNext, leapPend := false } ∧ t.regs = s.regs) ∧
    (s.time.leapPend = false → ∃ t, exec .leapChange s = .next t ∧ t.time = s.time) ∧
    ((fnGet s 0x0B00).st = .on → msPassed s s.time.accAt (1000 * regFld s 0x5004 16 16) = true →
      ∃ t, exec .holdoverEntry s = .next t ∧ t.time = { s.time with holdover := true } ∧ rest { t with time := s.time } = rest s) ∧
    (s.time.dt.toNat / 2 ^ 41 + 2 < s.time.bbcSec.toNat * 32768 + s.time.bbcFrac.toNat ∨
        s.time.bbcSec.toNat * 32768 + s.time.bbcFrac.toNat + 2 < s.time.dt.toNat / 2 ^ 41 →
      ∃ t, exec .batteryCounterSync s = .next t ∧ t.time = { s.time with
        bbcSec := BitVec.ofNat 40 (s.time.dt.toNat / 2 ^ 56), bbcFrac := BitVec.ofNat 15 (s.time.dt.toNat / 2 ^ 41),
        bbcAcc := 0 }) ∧
    (∃ t, exec .rateCorrSave s = .next t ∧ t.time = { s.time with savedRate := s.time.rate, savedF := s.time.f } ∧
      rest { t with time := s.time } = rest s) ∧
    (∀ mv, ∃ t, exec (.vbatLow mv) s = .next t ∧ t.time = { s.time with vbatLow := decide (mv < 1800) } ∧ t.regs = s.regs) ∧
    (∀ lead corr hops reb shift, timeMember s = true → s.harn.joined = true →
      ((fnGet s 0x0B00).st = .off → ∃ t, exec (.ringTick lead corr hops reb shift) s = .next t ∧
        t.harn.ofsNs = sat32 (tickTheta s lead corr) ∧ t.time = s.time) ∧
      ((fnGet s 0x0B00).st = .on → s.harn.leadReb = some (BitVec.ofNat 8 reb) →
        (tickTheta s lead corr).natAbs ≤ regFld s 0x5000 0 10 * 1000000 →
        ∃ t, exec (.ringTick lead corr hops reb shift) s = .next t ∧ t.harn.ofsNs = sat32 (tickTheta s lead corr) ∧
          t.time.offset = tickTheta s lead corr ∧ t.time.dt = s.time.dt ∧ t.time.holdover = false ∧
          t.time.ringSrc = true ∧ t.time.lastAcc = some (dtOf s)))

/-! ## Reset, start, power -/

/-- RESET_n low for 10 µs or more puts every register at its reset value and loses all that is not kept in MRAM, flash or the
backup domain, where no object had bytes released early host memory too; a pulse below 100 ns changes nothing, one between
does the one or the other. -/
def Obligations.ResetKeepsWhatMediaKeep : Prop :=
  ∀ (s : State) (ns : Nat), s.pins.resetLow = false →
    (10000 ≤ ns → ∃ t, exec (.resetAssert ns) s = .next t ∧ t.pins.resetLow = true ∧
      (∀ off, regGet t off = resetWord off) ∧ t.host.flights = [] ∧ t.host.deliv = [] ∧ t.recs.tab = [] ∧
      t.keys = State.reset.keys ∧ t.rp = State.reset.rp ∧ t.ce = State.reset.ce ∧ t.cnt = State.reset.cnt ∧
      (∀ id, id / 256 ≠ 8 → fnGet t id = Fn.idle) ∧ t.log.recs = s.log.recs ∧ t.upd.copyA = s.upd.copyA ∧
      t.upd.copyB = s.upd.copyB ∧ t.upd.norA = s.upd.norA ∧ t.upd.norB = s.upd.norB ∧ t.time.bbcSec = s.time.bbcSec ∧
      t.met.calA = s.met.calA ∧ ((∀ o ∈ s.ce.objs, o.released = 0) → t.hostMem = s.hostMem)) ∧
    (ns < 100 → ∃ t, exec (.resetAssert ns) s = .next t ∧ rest t = rest s) ∧
    (100 ≤ ns → ns < 10000 → ∃ t, exec (.resetAssert ns) s = .next t ∧ (t.pins.resetLow = true ∨ t = { s with free := s.free + 1 }))

/-- A rising RESET_n counts a power cycle and starts the part: with both slots valid it reaches phase 0x7 and leaves READY as it was;
while PFAIL_n is low the start is held and PFAIL_n's rise lets it go on. BOOT_READY sets READY and phase 0xF and the
completion rings that wait in STARTING are ON. -/
def Obligations.StartAndReady : Prop :=
  (∀ (s : State) (i : BootIn), s.pins.resetLow = true → i.testEn = false → s.upd.recovery = false →
    (i.pfailLow = false → i.slotA.reason = 0 → i.slotB.reason = 0 → ∃ t, exec (.resetRelease i) s = .next t ∧
      t.pins.resetLow = false ∧ t.boot.pwrCycles = s.boot.pwrCycles + 1 ∧ t.boot.phase = 7 ∧ t.boot.ready = s.boot.ready) ∧
    (i.pfailLow = true → ∃ t, exec (.resetRelease i) s = .next t ∧ t.pins.resetLow = false ∧ t.pins.pfailLow = true ∧
      t.boot.phase = s.boot.phase ∧ t.boot.pwrCycles = s.boot.pwrCycles ∧ t.boot.inp = i ∧ t.regs = s.regs)) ∧
  (∀ s : State, (s.pins.resetLow = true ∨ s.rp.stopped = true ∨ s.boot.phase ≠ 1 → ∃ t, exec .pfailDeassert s = .next t ∧
      t.pins = { s.pins with pfailLow := false } ∧ t.regs = s.regs ∧ t.boot = s.boot) ∧
    (s.pins.pfailLow = true → s.pins.resetLow = false → s.boot.phase = 1 → s.rp.stopped = false →
      ∃ t, exec .pfailDeassert s = .next t ∧ t.boot.pwrCycles = s.boot.pwrCycles + 1)) ∧
  (∀ s : State, awake s = true → s.boot.phase = 7 → ∃ t, exec .bootReady s = .next t ∧ t.boot.phase = 15 ∧
    t.boot.ready = true ∧ (∀ c, c < 64 → (cqGet s c).fn.st = .starting → (cqGet s c).fn.disPend = false →
      (cqGet t c).fn.st = .on)) ∧
  (∀ (s : State) (ns : Nat), awake s = true → s.pins.pfailLow = false → 1000 ≤ ns → ∃ t, exec (.pfailAssert ns) s = .next t ∧
    t.bill.outStart = some (dtOf s) ∧ t.sealU.batch = none ∧ t.time.savedRate = t.time.rate) ∧
  (∀ (s : State) (ns : Nat), awake s = true → ns < 1000 → ∃ t, exec (.pfailAssert ns) s = .next t ∧ rest t = rest s)

/-- A function's check ends STARTING in ON, or in STOPPING where a disable is held, or in OFF where it fails; STOPPING ends in
OFF, or in STARTING where an enable is held. -/
def Obligations.FunctionsArriveAndStop : Prop :=
  ∀ (s : State) (id : Nat), awake s = true → funcKnown id = true →
    (s.boot.ready = true → (fnGet s id).st = .starting →
      (id / 256 = 2 ∨ id / 256 = 3 ∨ id / 256 = 5 ∨ id / 256 = 7 ∨ id / 256 = 9 →
        ((fnGet s id).disPend = false → ∃ t, exec (.functionStartComplete (.func id) true) s = .next t ∧
          fnGet t id = ⟨.on, false, false, []⟩ ∧ ∀ x, x ≠ id → fnGet t x = fnGet s x) ∧
        ((fnGet s id).disPend = true → ∃ t, exec (.functionStartComplete (.func id) true) s = .next t ∧
          fnGet t id = ⟨.stopping, false, false, []⟩ ∧ ∀ x, x ≠ id → fnGet t x = fnGet s x)) ∧
      (id / 256 = 3 → ∃ t, exec (.functionStartComplete (.func id) false) s = .next t ∧ fnGet t id = Fn.idle ∧
        ∀ x, x ≠ id → fnGet t x = fnGet s x)) ∧
    ((fnGet s id).st = .stopping → (id / 256 = 2 ∨ id / 256 = 3 ∨ id / 256 = 7 ∨ id / 256 = 9) →
      ((fnGet s id).enPend = false → ∃ t, exec (.functionStopComplete (.func id)) s = .next t ∧ fnGet t id = Fn.idle ∧
        ∀ x, x ≠ id → fnGet t x = fnGet s x) ∧
      ((fnGet s id).enPend = true → ∃ t, exec (.functionStopComplete (.func id)) s = .next t ∧
        (fnGet t id).st = .starting ∧ (fnGet t id).enPend = false ∧ ∀ x, x ≠ id → fnGet t x = fnGet s x))

/-- Pace, supply request, control cores, scrub, bank levels, the test access port and the PCIe link. -/
def Obligations.BoardEvents : Prop :=
  ∀ s : State, awake s = true →
    (∀ ps, ∃ t, exec (.paceMeasurement ps) s = .next t ∧ t.glob.stPs = BitVec.ofNat 16 ps ∧ t.glob.valid = true ∧
      t.glob.peak.toNat = max s.glob.peak.toNat (BitVec.ofNat 16 ps).toNat ∧ t.glob.code = s.glob.code ∧ t.regs = s.regs) ∧
    (vreqEn s = false → ∃ t, exec .vreqAdjust s = .next t ∧ t.glob.code = vreqFixed s ∧ t.glob.stPs = s.glob.stPs ∧
      t.regs = s.regs) ∧
    (vreqEn s = true → s.glob.code.toNat ≤ 250 →
      (vreqTarget s < s.glob.stPs.toNat ∨ anyQueueHigh s = true →
        ∃ t, exec .vreqAdjust s = .next t ∧ t.glob.code.toNat = min 250 (s.glob.code.toNat + 1) ∧ t.regs = s.regs) ∧
      (s.glob.stPs.toNat ≤ vreqTarget s → anyQueueHigh s = false →
        (paceStayed s = true → ∃ t, exec .vreqAdjust s = .next t ∧ t.glob.code.toNat = s.glob.code.toNat - 1 ∧
          t.regs = s.regs) ∧
        (s.glob.below = none ∨ paceStayed s = false → ∃ t, exec .vreqAdjust s = .next t ∧ t.glob.code = s.glob.code ∧
          t.regs = s.regs))) ∧
    (∀ k cause, coreState s k = 0 → s.upd.state ≠ 5 → ∃ t, exec (.controlCoreRestart k cause) s = .next t ∧
      coreState t k = 2 ∧ t.upd.restarted = true ∧ (∀ j, j ≠ k → coreState t j = coreState s j) ∧ t.regs = s.regs) ∧
    (∀ k, coreState s k = 2 → s.boot.phase = 7 ∨ s.boot.phase = 15 → ∃ t, exec (.coreRestartComplete k) s = .next t ∧
      coreState t k = 0 ∧ (∀ j, j ≠ k → coreState t j = coreState s j) ∧ t.host = s.host) ∧
    (∀ r, r < 2 → s.flt.ranks.length = 2 → fnOn s (0x0900 + r) = true →
      ((rankGet s r).words + 1 < rankWords s → ∃ t, exec (.scrubPass r .clean) s = .next t ∧
        rankGet t r = { rankGet s r with words := (rankGet s r).words + 1 } ∧ t.recs = s.recs) ∧
      (∀ pos, tget 0 (rankGet s r).perPos pos = 63 → (rankGet s r).words + 1 < rankWords s →
        ∃ t, exec (.scrubPass r (.one pos)) s = .next t ∧ (rankGet t r).weak = BitVec.ofNat 8 pos ∧
          t.flt.dramWeak = true ∧ t.recs = s.recs)) ∧
    (∀ g mv us, g < s.chan.banks.length → g < 4 → 50 ≤ us → lget 0 s.chan.banks g ≠ bankLevel mv →
      ∃ t, exec (.bankLevelChange g mv us) s = .next t ∧ lget 0 t.chan.banks g = bankLevel mv) ∧
    (∀ i, i ≤ 2 → ∃ t, exec (.boundaryScanInstruction i) s = .next t ∧ t.pins = { s.pins with tap := i } ∧ t.regs = s.regs) ∧
    (∀ i, 2 < i → ∃ t, exec (.boundaryScanInstruction i) s = .next t ∧ t.pins = s.pins ∧ t.regs = s.regs) ∧
    (∃ t, exec .pcieLinkDown s = .next t ∧ t.host.linkDown = true ∧ t.regs = s.regs)

/-! ## The event log, counters, tests -/

/-- An event in the write queue becomes the next record of the log; a full log drops it and counts; a failed read-back
raises MEDIA_FAULT, and from then on every event goes to the reserve area. A token flows back once its period has passed.
OP_LOG_READ writes the records from FROM_SEQ on; with ACTION 1, CLEAR_EN set, the right SEQ and no read before it, it leaves
one record, of code 0x0001, which goes to the reserve area where the read-back fails. -/
def Obligations.EventLogKept : Prop :=
  (∀ (s : State) (ev : LogEv) (l : List LogEv), awake s = true → s.log.held = false → s.log.queue = ev :: l →
    s.log.mediaFault = false →
    (s.log.full = false → ∃ t, exec (.logRecordWrite true) s = .next t ∧ t.log.queue = l ∧
      t.log.recs = s.log.recs ++ [logForm s ev false] ∧ t.log.next = s.log.next + 1 ∧ t.log.reserve = s.log.reserve ∧
      t.log.dropped = s.log.dropped) ∧
    (s.log.full = true → ∃ t, exec (.logRecordWrite true) s = .next t ∧ t.log.queue = l ∧ t.log.recs = s.log.recs ∧
      t.log.dropped = satInc s.log.dropped ∧ t.log.next = s.log.next) ∧
    (s.log.full = false → ∃ t, exec (.logRecordWrite false) s = .next t ∧ t.log.queue = l ∧ t.log.recs = s.log.recs ∧
      t.log.mediaFault = true)) ∧
  (∀ (s : State) (ev : LogEv) (l : List LogEv) (ok : Bool), awake s = true → s.log.held = false → s.log.queue = ev :: l →
    s.log.mediaFault = true → s.log.reserve.length < 16 → ∃ t, exec (.logRecordWrite ok) s = .next t ∧ t.log.queue = l ∧
      t.log.recs = s.log.recs ∧ t.log.reserve = s.log.reserve ++ [logForm s ev true] ∧ t.log.next = s.log.next + 1) ∧
  (∀ (s : State) (c : Nat), awake s = true →
    ((bucketGet s c).taken ≠ 0 → msPassed s (bucketGet s c).since (bucketGet s c).ms = true →
      ∃ t, exec (.flurryToken c) s = .next t ∧ bucketGet t c = { bucketGet s c with
        taken := (bucketGet s c).taken - 1, since := (bucketGet s c).since + (bucketGet s c).ms * 38400 } ∧
        t.log.queue = s.log.queue ∧ t.log.recs = s.log.recs) ∧
    ((bucketGet s c).taken = 0 ∨ msPassed s (bucketGet s c).since (bucketGet s c).ms = false →
      ∃ t, exec (.flurryToken c) s = .next t ∧ t.log = s.log)) ∧
  (∀ (s : State) (u : Nat) (f : Flight), Runs s u 0x91 f →
    (dByte f.raw 24 1 = 0 → 32 ≤ dBufLen f.raw → s.host.linkDown = false → ∃ t out next flags,
      exec (.opLogReadRead u) s = .next t ∧ out = (logFrom s (dByte f.raw 28 4)).take (dBufLen f.raw / 32) ∧
      Wrote s t (dBufAddr f.raw) (out.map logBytes).flatten ∧
      next = (match out.getLast? with | some r => r.seq.toNat + 1 | none => dByte f.raw 28 4) ∧
      Completed s t f (if s.log.mediaFault then 3 else 0) 0 out.length
        (result4 out.length next (s.log.next - 1).toNat flags) ∧ t.log = s.log) ∧
    (dByte f.raw 24 1 = 1 → dByte f.raw 8 12 = 0 → f.stage = .none → wbit (regGet s 0xC000) 24 = true →
      BitVec.ofNat 32 (dByte f.raw 28 4) + 1 = s.log.next →
      (∀ g ∈ s.host.flights, dOpcode g.raw = 0x91 → u ≤ g.uid ∨ g.ended = true) →
      (∃ t r, exec (.opLogReadClear u true) s = .next t ∧ Completed s t f 0 0 0 0 ∧ t.log.recs = [r] ∧ r.ev.code = 1 ∧
        r.seq = s.log.next ∧ t.log.reserve = [] ∧ t.log.dropped = 0 ∧ t.log.held = false ∧ t.log.full = false) ∧
      (s.log.mediaFault = true → ∃ t r, exec (.opLogReadClear u false) s = .next t ∧ Completed s t f 3 0 0 0 ∧
        t.log.recs = [] ∧ t.log.reserve = [r] ∧ r.ev.code = 1 ∧ t.log.mediaFault = true)) ∧
    (dByte f.raw 24 1 = 1 → dByte f.raw 8 12 = 0 → f.stage = .none →
      (wbit (regGet s 0xC000) 24 = false → ∃ t, exec (.opLogReadClear u true) s = .next t ∧
        Completed s t f 0x08 0 0 (badResult 9 24 0) ∧ t.log.recs = s.log.recs) ∧
      (wbit (regGet s 0xC000) 24 = true → BitVec.ofNat 32 (dByte f.raw 28 4) + 1 ≠ s.log.next →
        ∃ t, exec (.opLogReadClear u true) s = .next t ∧ Completed s t f 0x08 0 0 (badResult 9 28 0) ∧
          t.log.recs = s.log.recs)))

/-- OP_COUNTER_PRESET: mode 0 presets the run, mode 1 writes the states and then presets, mode 2 only writes them; the count
of counters is in UNITS and RESULT. The completion's own counters (297, 299, 361, 384, 385, 390) may have counted since. -/
def Obligations.CountersPresetAndRead : Prop :=
  ∀ (s : State) (u : Nat) (f : Flight), Runs s u 0x92 f → cntPresetBad f.raw = none → s.host.linkDown = false →
    (dByte f.raw 24 1 = 0 → ∃ t, exec (.opCounterPresetPreset u) s = .next t ∧
      Completed s t f 0 0 (dByte f.raw 28 2) (result4 (dByte f.raw 28 2) 0 0 0) ∧ t.hostMem = s.hostMem ∧
      ∀ i, i ≠ 297 → i ≠ 299 → i ≠ 361 → i ≠ 384 → i ≠ 385 → i ≠ 390 → cntGet t i =
        (if dByte f.raw 26 2 ≤ i ∧ i < dByte f.raw 26 2 + dByte f.raw 28 2 ∧ cntReserved i = false
         then BitVec.ofNat 56 (dByte f.raw 32 7) else cntGet s i)) ∧
    (dByte f.raw 24 1 = 1 → ∃ t, exec (.opCounterPresetReadAndPreset u) s = .next t ∧
      Completed s t f 0 0 (dByte f.raw 28 2) (result4 (dByte f.raw 28 2) 0 0 0) ∧
      Wrote s t (dBufAddr f.raw) (cntRun s (dByte f.raw 26 2) (dByte f.raw 28 2)) ∧
      ∀ i, i ≠ 297 → i ≠ 299 → i ≠ 361 → i ≠ 384 → i ≠ 385 → i ≠ 390 → cntGet t i =
        (if dByte f.raw 26 2 ≤ i ∧ i < dByte f.raw 26 2 + dByte f.raw 28 2 ∧ cntReserved i = false
         then BitVec.ofNat 56 (dByte f.raw 32 7) else cntGet s i)) ∧
    (dByte f.raw 24 1 = 2 → ∃ t, exec (.opCounterPresetRead u) s = .next t ∧
      Completed s t f 0 0 (dByte f.raw 28 2) (result4 (dByte f.raw 28 2) 0 0 0) ∧
      Wrote s t (dBufAddr f.raw) (cntRun s (dByte f.raw 26 2) (dByte f.raw 28 2)) ∧
      ∀ i, i ≠ 297 → i ≠ 299 → i ≠ 361 → i ≠ 384 → i ≠ 385 → i ≠ 390 → cntGet t i = cntGet s i)

/-- OP_KAT takes an AES pipeline out of service while every other is ON, by a disable where it is ON; once it is OFF its
vectors run, and it returns to ON where they pass and no disable is held. An engine is tested in service. -/
def Obligations.KnownAnswerTests : Prop :=
  ∀ (s : State) (u : Nat) (f : Flight), Runs s u 0x90 f →
    (dByte f.raw 24 1 < 6 →
      (f.stage = .none → othersOn s (dByte f.raw 24 1) = true → (fnGet s (0x0300 + dByte f.raw 24 1)).st = .on →
        ∃ t, exec (.opKat u none) s = .next t ∧
          fnGet t (0x0300 + dByte f.raw 24 1) = { fnGet s (0x0300 + dByte f.raw 24 1) with st := .stopping } ∧
          t.host.cq = s.host.cq ∧ ∀ x, x ≠ 0x0300 + dByte f.raw 24 1 → fnGet t x = fnGet s x) ∧
      (f.stage = .none → othersOn s (dByte f.raw 24 1) = true → (fnGet s (0x0300 + dByte f.raw 24 1)).st = .off →
        ∃ t, exec (.opKat u none) s = .next t ∧ t.funcs = s.funcs ∧ t.host.cq = s.host.cq) ∧
      (f.stage = .none → othersOn s (dByte f.raw 24 1) = false → ∃ t, exec (.opKat u none) s = .next t ∧
        Completed s t f 0x08 0 0 (badResult 9 24 0) ∧ rest t = rest s) ∧
      (∀ a b c x, f.stage = .wait a b c → (fnGet s (0x0300 + dByte f.raw 24 1)).st ≠ .off →
        exec (.opKat u x) s = .next s) ∧
      (∀ a b c, f.stage = .wait a b c → (fnGet s (0x0300 + dByte f.raw 24 1)).st = .off →
        (fnGet s (0x0300 + dByte f.raw 24 1)).disPend = false → ∃ t, exec (.opKat u none) s = .next t ∧
        (fnGet t (0x0300 + dByte f.raw 24 1)).st = .on ∧ Completed s t f 0 4 0 (katResult none 40)) ∧
      (∀ a b c k, f.stage = .wait a b c → (fnGet s (0x0300 + dByte f.raw 24 1)).st = .off →
        (fnGet s (0x0300 + dByte f.raw 24 1)).enPend = false → ∃ t, exec (.opKat u (some k)) s = .next t ∧
        (fnGet t (0x0300 + dByte f.raw 24 1)).st = .off ∧ Completed s t f 0 4 0 (katResult (some k) 40))) ∧
    (dByte f.raw 24 1 = 0x10 ∨ dByte f.raw 24 1 = 0x11 →
      (∃ t, exec (.opKat u none) s = .next t ∧ Completed s t f 0 4 0 (katResult none 16) ∧ rest t = rest s) ∧
      ∀ k, ∃ t, exec (.opKat u (some k)) s = .next t ∧ Completed s t f 0 4 0 (katResult (some k) 16) ∧
        t.ce.fault.getLsbD 10 = true ∧ t.funcs = s.funcs)

/-! ## Images and configuration -/

/-- OP_IMG_BLOCK programs its sectors into the slot that does not run and marks them received; the running slot is
untouched; a read-back mismatch ends it with the sectors done. -/
def Obligations.ImageBlocksProgrammed : Prop :=
  ∀ (s : State) (u : Nat) (f : Flight) (data : List Byte), Runs s u 0x80 f → dBufLen f.raw % 4096 = 0 → 4096 ≤ dBufLen f.raw →
    dBufLen f.raw ≤ 65536 → dByte f.raw 24 4 % 4096 = 0 → dByte f.raw 24 4 + dBufLen f.raw ≤ 8388608 →
    s.upd.state = 0 ∨ s.upd.state = 1 ∨ s.upd.state = 3 →
    (∃ t, exec (.opImgBlock u data none) s = .next t ∧ Completed s t f 0 3 0 0 ∧ t.upd.state = 1 ∧
      t.upd.runSlot = s.upd.runSlot ∧ norOf t.upd s.upd.runSlot = norOf s.upd s.upd.runSlot ∧
      (∀ i, i < dBufLen f.raw → memByte (norOf t.upd (rxSlot s)) (dByte f.raw 24 4 + i) = lget 0 data i) ∧
      (∀ a, a < dByte f.raw 24 4 ∨ dByte f.raw 24 4 + dBufLen f.raw ≤ a →
        memByte (norOf t.upd (rxSlot s)) a = memByte (norOf s.upd (rxSlot s)) a) ∧
      (∀ k, k < dBufLen f.raw / 4096 → tget false t.upd.sectors (dByte f.raw 24 4 / 4096 + k) = true)) ∧
    (∀ j, j < dBufLen f.raw / 4096 → ∃ t, exec (.opImgBlock u data (some j)) s = .next t ∧ Completed s t f 3 1 j 0 ∧
      norOf t.upd s.upd.runSlot = norOf s.upd s.upd.runSlot)

/-- The course of an update: OP_IMG_VERIFY stages a verified image, OP_IMG_ACTIVATE begins its trial in the other slot,
OP_IMG_CONFIRM accepts it while healthy or rejects it, the trial window's end rejects it, OP_CONFIG_WRITE stages a
configuration. Each in its state, and UPDATE_STATE_ERROR outside it; an image that fails a check is IMAGE_INVALID with the
check's reason, a trial not healthy is not accepted, a configuration at or below a valid SEQ is stale. -/
def Obligations.UpdatesRunTheirCourse : Prop :=
  (∀ (s : State) (u : Nat) (f : Flight) (c : ImgCheck), Runs s u 0x81 f → s.upd.state = 1 ∨ s.upd.state = 3 →
    (cReason s (norByte s) (sectorsGot s) 1 c = 0 → s.upd.recovery = false → ∃ t, exec (.opImgVerify u c) s = .next t ∧
      Completed s t f 0 4 0 (result4 (cVersion (norByte s)) (cSecVer (norByte s)) 0 0) ∧ t.upd.state = 3 ∧
      t.upd.stagedSeq = (cfgSelected s).seq + 1 ∧ t.upd.kindCfg = false ∧ t.upd.norA = s.upd.norA ∧
      t.upd.norB = s.upd.norB ∧ t.upd.runSlot = s.upd.runSlot) ∧
    (cReason s (norByte s) (sectorsGot s) 1 c ≠ 0 → ∃ t, exec (.opImgVerify u c) s = .next t ∧ t.upd.state = 1 ∧
      Completed s t f 0x60 1 0 (result4 0 0 (cReason s (norByte s) (sectorsGot s) 1 c) 0) ∧ t.upd.copyA = s.upd.copyA ∧
      t.upd.copyB = s.upd.copyB)) ∧
  (∀ (s : State) (u : Nat) (f : Flight) (c : ImgCheck), Runs s u 0x81 f → s.upd.state ≠ 1 → s.upd.state ≠ 3 →
    ∃ t, exec (.opImgVerify u c) s = .next t ∧ Completed s t f 0x61 0 0 (result4 s.upd.state 0 0 0) ∧ rest t = rest s) ∧
  (∀ (s : State) (u : Nat) (f : Flight) (x : SlotIn), Runs s u 0x82 f →
    (s.upd.state ≠ 3 → ∃ t, exec (.opImgActivate u x) s = .next t ∧
      Completed s t f 0x61 0 0 (result4 s.upd.state 0 0 0) ∧ rest t = rest s) ∧
    (s.upd.state = 3 → s.upd.recovery = true ∨ forwardDone (cfgOther s).roots = true → x.reason ≠ 0 →
      ∃ t, exec (.opImgActivate u x) s = .next t ∧ Completed s t f 0x60 1 0 (result4 0 0 3 0) ∧ t.upd.state = 1 ∧
        t.upd.runSlot = s.upd.runSlot)) ∧
  (∀ (s : State) (u : Nat) (f : Flight) (x : SlotIn), Runs s u 0x82 f → s.upd.state = 3 → s.upd.recovery = false →
    forwardDone (cfgOther s).roots = true → x.reason = 0 → ∃ t, exec (.opImgActivate u x) s = .next t ∧ t.upd.state = 5 ∧
      t.upd.trialSlot = !s.upd.runSlot ∧ t.upd.runSlot = s.upd.runSlot ∧ t.upd.boots = 1 ∧
      t.upd.trialWin = regFld s 0xE000 0 8 ∧ t.boot.dFw = x.dFw ∧ Formed t f 0 4 0 (result4 t.upd.fwVersion.toNat 0 0 0)) ∧
  (∀ (s : State) (u : Nat) (f : Flight), Runs s u 0x83 f →
    (dByte f.raw 24 1 = 0 → s.upd.state = 5 → healthItem s = 0 → ∃ t, exec (.opImgConfirmAccept u) s = .next t ∧
      Completed s t f 0 4 0 0 ∧ t.upd.state = 0 ∧ t.upd.runSlot = s.upd.trialSlot ∧ t.upd.confSeq = s.upd.stagedSeq) ∧
    (dByte f.raw 24 1 = 0 → s.upd.state = 5 → healthItem s ≠ 0 → ∃ t, exec (.opImgConfirmAccept u) s = .next t ∧
      Completed s t f 0x61 0 0 (result4 (5 + 256 * healthItem s) 0 0 0) ∧ rest t = rest s) ∧
    (dByte f.raw 24 1 = 0 → s.upd.state ≠ 5 → ∃ t, exec (.opImgConfirmAccept u) s = .next t ∧
      Completed s t f 0 1 0 (result4 1 0 0 0) ∧ rest t = rest s) ∧
    (dByte f.raw 24 1 = 1 → s.upd.state = 5 → ∃ t, exec (.opImgConfirmReject u) s = .next t ∧
      Completed s t f 0 1 0 0 ∧ t.upd.state = 0 ∧ t.upd.rejectSeq = s.upd.stagedSeq ∧ t.upd.fellBack = true ∧
      t.upd.runSlot = s.upd.runSlot)) ∧
  (∀ s : State, awake s = true → s.upd.state = 5 →
    (s.upd.trialStart + 60 * s.upd.trialWin ≤ s.boot.opSec → ∃ t, exec .trialWindowExpiry s = .next t ∧ t.upd.state = 0 ∧
      t.upd.rejectSeq = s.upd.stagedSeq ∧ t.upd.fellBack = true ∧ t.upd.runSlot = s.upd.runSlot) ∧
    (s.boot.opSec < s.upd.trialStart + 60 * s.upd.trialWin → ∃ t, exec .trialWindowExpiry s = .next t ∧ t.upd = s.upd)) ∧
  (∀ (s : State) (u : Nat) (f : Flight) (l : List Byte) (c : ImgCheck) (g : Nat → Nat), Runs s u 0x84 f →
    dBufLen f.raw ≤ 62464 → g = (fun a => (lget 0 (l.take (dBufLen f.raw)) a).toNat) →
    (s.upd.state ≠ 0 → s.upd.state ≠ 4 → ∃ t, exec (.opConfigWrite u l c) s = .next t ∧
      Completed s t f 0x61 0 0 (result4 s.upd.state 0 0 0) ∧ rest t = rest s) ∧
    (s.upd.state = 0 ∨ s.upd.state = 4 → cTotal g ≤ (l.take (dBufLen f.raw)).length →
      (cReason s g true 2 c ≠ 0 → ∃ t, exec (.opConfigWrite u l c) s = .next t ∧
        Completed s t f 0x60 0 0 (result4 0 0 (cReason s g true 2 c) 0) ∧ t.upd = s.upd) ∧
      (cReason s g true 2 c = 0 → bodyOk (containerBody g (l.take (dBufLen f.raw))) = true →
        seqStale s (dByte f.raw 24 4) = true → ∃ t, exec (.opConfigWrite u l c) s = .next t ∧ Completed s t f 0x62 0 0 0 ∧
          t.upd = s.upd) ∧
      (cReason s g true 2 c = 0 → bodyOk (containerBody g (l.take (dBufLen f.raw))) = true →
        seqStale s (dByte f.raw 24 4) = false →
        forwardDone (rootsForward s (sealRoot (measure s.boot.dFw s.boot.dLm
          (Config.sha384 (containerBody g (l.take (dBufLen f.raw))))))) = true → confirmedApart s = false →
        ∃ t, exec (.opConfigWrite u l c) s = .next t ∧ Completed s t f 0 4 0 0 ∧ t.upd.state = 4 ∧ t.upd.kindCfg = true ∧
          t.upd.stagedSeq = BitVec.ofNat 32 (dByte f.raw 24 4) ∧ cfgSelected t = cfgSelected s ∧
          (cfgOther t).body = containerBody g (l.take (dBufLen f.raw)))))

/-! ## Tariffs, calendars, the ledger -/

/-- OP_TARIFF_LOAD makes a sound table current at once (mode 0) or pending for its instant (mode 1); OP_CALENDAR_LOAD loads a
calendar with its open period; OP_REG_SNAPSHOT of one record writes its live block. -/
def Obligations.TablesLoadAndSnapshots : Prop :=
  (∀ (s : State) (u : Nat) (f : Flight) (tab : List Byte), Runs s u 0x50 f → dBufLen f.raw = 1024 →
    dByte f.raw 24 1 = tb tab 1 → tariffBad tab = none →
    (dByte f.raw 25 1 = 0 → spanSet f.raw 32 8 = none → ∃ t, exec (.opTariffLoad u tab) s = .next t ∧
      Completed s t f 0 3 0 (result4 ((dtOf s).toNat % 2 ^ 32) ((dtOf s).toNat / 2 ^ 32) 0 0) ∧
      tarGet t (dByte f.raw 24 1) =
        { tarGet s (dByte f.raw 24 1) with prev := (tarGet s (dByte f.raw 24 1)).cur, cur := some ⟨tab, dtOf s⟩ } ∧
      (∀ n, n ≠ dByte f.raw 24 1 → tarGet t n = tarGet s n) ∧ t.hostMem = s.hostMem) ∧
    (dByte f.raw 25 1 = 1 → (dtOf s).toNat < dByte f.raw 32 8 → ∃ t, exec (.opTariffLoad u tab) s = .next t ∧
      Completed s t f 0 3 0 (result4 (dByte f.raw 32 8 % 2 ^ 32) (dByte f.raw 32 8 / 2 ^ 32) 0 0) ∧
      tarGet t (dByte f.raw 24 1) =
        { tarGet s (dByte f.raw 24 1) with pend := some ⟨tab, BitVec.ofNat 64 (dByte f.raw 32 8)⟩ } ∧
      (∀ n, n ≠ dByte f.raw 24 1 → tarGet t n = tarGet s n) ∧ t.hostMem = s.hostMem)) ∧
  (∀ (s : State) (u : Nat) (f : Flight) (cal : List Byte), Runs s u 0x51 f → dBufLen f.raw = 64 →
    dByte f.raw 24 1 = tb cal 1 → calendarBad cal = none →
    (calLoaded s (dByte f.raw 24 1) = false → ∃ t, exec (.opCalendarLoad u cal) s = .next t ∧ Completed s t f 0 3 0 0 ∧
      calGet t (dByte f.raw 24 1) = ⟨cal, BitVec.ofNat 32 (tb4 cal 24), dtOf s, false⟩ ∧
      ∀ n, n ≠ dByte f.raw 24 1 → calGet t n = calGet s n) ∧
    (calLoaded s (dByte f.raw 24 1) = true → (BitVec.ofNat 32 (tb4 cal 24)).toNat < (calGet s (dByte f.raw 24 1)).openPer.toNat →
      ∃ t, exec (.opCalendarLoad u cal) s = .next t ∧ Completed s t f 0x22 0 0 0 ∧ rest t = rest s)) ∧
  (∀ (s : State) (u : Nat) (f : Flight) (tg : List Word), Runs s u 0x53 f → dByte f.raw 24 1 = 0 → dBitmap f.raw = 0 →
    spanSet f.raw 28 4 = none → spanSet f.raw 32 8 = none → spanSet f.raw 40 4 = none → 256 ≤ dBufLen f.raw →
    s.host.linkDown = false → ∃ t, exec (.opRegSnapshot u tg) s = .next t ∧ Completed s t f 0 0 0 0 ∧
      Wrote s t (dBufAddr f.raw) (liveBlock s (dEid f.raw)).2)

/-- OP_LEDGER_ADJUST: the action on PREPAY, EVAL_HOLD cleared, then the evaluation of the ledger, in one change of that record
alone; a top-up with the last REF is answered SAME and changes nothing; a postpay record is refused. -/
def Obligations.LedgerAdjusted : Prop :=
  ∀ (s : State) (u : Nat) (f : Flight) (act : Nat) (c : Instr), Runs s u 0x52 f →
    (c, act) ∈ [(Instr.opLedgerAdjustTopup u, 0), (Instr.opLedgerAdjustDebit u, 1), (Instr.opLedgerAdjustEmergSet u, 2),
      (Instr.opLedgerAdjustLowSet u, 3), (Instr.opLedgerAdjustAutoReconnect u, 4), (Instr.opLedgerAdjustRelease u, 5)] →
    dByte f.raw 24 1 = act → (∀ p ∈ laUnused act, spanSet f.raw p.1 p.2 = none) →
    ((recGet s (dEid f.raw)).billing = true → laRange act (laAmount f.raw) = true →
      (act ≠ 0 ∨ BitVec.ofNat 32 (dByte f.raw 28 4) ≠ (recGet s (dEid f.raw)).prepay.lastTopup →
        ∃ t, exec c s = .next t ∧ Completed s t f 0 3 0 (laResult t (dEid f.raw) 0) ∧
          (recGet t (dEid f.raw)).prepay = (ledgerEval (laApply (recView s (dEid f.raw)) act (laAmount f.raw)
            (BitVec.ofNat 32 (dByte f.raw 28 4)) (dtOf s)) (friendlyNow s (recView s (dEid f.raw))) (dtOf s)).1 ∧
          (∀ e, e ≠ dEid f.raw → recGet t e = recGet s e) ∧ t.hostMem = s.hostMem) ∧
      (act = 0 → BitVec.ofNat 32 (dByte f.raw 28 4) = (recGet s (dEid f.raw)).prepay.lastTopup →
        ∃ t, exec c s = .next t ∧ Completed s t f 0 1 0 (laResult s (dEid f.raw) 1) ∧ rest t = rest s)) ∧
    ((recGet s (dEid f.raw)).billing = false →
      ∃ t, exec c s = .next t ∧ Completed s t f 0x08 0 0 (badResult 9 4 0) ∧ rest t = rest s)

/-- Boundaries: the entries of intervals, demand and tariff switches advance BILL_POS; a due version becomes current; a due
close opens the next period of its calendar and starts its sweep; a friendly end starts an evaluation sweep; a sweep visits
its next record, and ends when none is left.
A row that may change journaled state is stated for an open journal tail (log entry 12, the model's choice), a close for a
place in the store append queue. -/
def Obligations.BillingBoundaries : Prop :=
  (∀ (s : State) (k at_ : Nat) (c : Instr), awake s = true →
    (c, k) ∈ [(Instr.intervalEnd, 1), (Instr.demandEnd, 2), (Instr.tariffSwitch, 5)] → dueEntry s k = some at_ →
    posSec s < at_ ∨ (posSec s = at_ ∧ s.bill.posStep < k) → ∃ t, exec c s = .next t ∧ t.bill = { s.bill with pos := BitVec.ofNat 64 (at_ * 2 ^ 24), posStep := k } ∧
      t.recs = s.recs) ∧
  (∀ (s : State) (id at_ : Nat) (v : TarVer), awake s = true → tailOpen s = true → dueEntry s 4 = some at_ →
    twf TarEnt.empty s.bill.tariffs = true → (tarGet s id).pend = some v → v.act.toNat / 2 ^ 24 = at_ →
    ∃ t, exec .tariffActivate s = .next t ∧ tarGet t id = { prev := (tarGet s id).cur, cur := some v, pend := none } ∧
      t.recs.tab = s.recs.tab) ∧
  (∀ (s : State) (id at_ b : Nat), awake s = true → tailOpen s = true → dueEntry s 3 = some at_ → twf CalEnt.empty s.bill.cals = true →
    closeEntry s (calGet s id) = some (b, at_) →
    ∃ t, exec .periodClose s = .next t ∧ (calGet t id).openPer = (calGet s id).openPer + 1 ∧
      (calGet t id).lastClose = BitVec.ofNat 64 (b * 2 ^ 24) ∧ (calGet t id).bytes = (calGet s id).bytes ∧
      ⟨false, id, 0, b, (calGet s id).openPer, 0⟩ ∈ t.bill.sweeps ∧ t.recs.tab = s.recs.tab) ∧
  (∀ (s : State) (at_ : Nat), awake s = true → dueEntry s 6 = some at_ →
    ∃ t, exec .friendlyEnd s = .next t ∧ t.bill.sweeps = s.bill.sweeps ++ ((pairsOf s fun r => r.billing).filter fun k =>
      nextSwitch s k true (afterPos s 6) == some at_).map (fun k => ⟨true, k.2, k.1, at_, 0, 0⟩) ∧ t.recs = s.recs) ∧
  (∀ (s : State) (w : Sweep) (fr : Bool) (c : Instr), awake s = true → tailOpen s = true → (fr = false → storeRoom s = true) →
    (c, fr) ∈ [(Instr.closeSweep, false), (Instr.friendlyEvaluationSweep, true)] →
    (s.bill.sweeps.find? fun x => x.friendly == fr) = some w →
    (sweepNext s w = none → ∃ t, exec c s = .next t ∧ w ∉ t.bill.sweeps ∧ t.recs = s.recs) ∧
    (∀ e r, sweepNext s w = some (e, r) → ∃ t, exec c s = .next t ∧ { w with pos := e + 1 } ∈ t.bill.sweeps ∧
      (fr = true → (recView s e).billing = true → (recGet t e).prepay =
        (ledgerEval (recView s e).prepay (friendlyNow s (recView s e)) (dtOf s)).1) ∧
      ∀ x, x ≠ e → recGet t x = recGet s x))

/-! ## Commands to meters -/

/-- A relay command on a channel that can carry it: RELAY as commanded with the next invocation counter, a command frame in the
channel's queue, and the descriptor waiting for its acknowledgement; without a usable key it is refused, without a slot for
the key it waits; its link acknowledgement completes it OK, CMD_WAIT_S without one ends it LINK_LOST; a load limit is refused for a meter that is not DLMS/COSEM.
A row that may change journaled state is stated for an open journal tail (log entry 12, the model's choice). -/
def Obligations.RelayCommandsRun : Prop :=
  (∀ (s : State) (u : Nat) (f : Flight) (op cmd arg : Nat) (c : Instr), Runs s u op f → unbegun f.stage = true →
    ((c = .opDisconnect u ∧ op = 0x40 ∧ cmd = 2 ∧ arg = 0) ∨ (c = .opReconnect u ∧ op = 0x41 ∧ cmd = 1 ∧ arg = 0) ∨
      (c = .opLoadLimit u ∧ op = 0x42 ∧ (recGet s (dEid f.raw)).proto = 0 ∧
        cmd = (if dByte f.raw 24 4 = 0 then 1 else 3) ∧
        arg = (if dByte f.raw 24 4 = 0 then 0xFFFFFFFF else dByte f.raw 24 4))) →
    (∀ st, outRefuse s (dEid f.raw) true = some st → icExhausted (recView s (dEid f.raw)) = false →
      ∃ t, exec c s = .next t ∧ Completed s t f st 0 0 0 ∧ rest t = rest s) ∧
    (outRefuse s (dEid f.raw) true = none → outSlot s (dEid f.raw) true = none → ∃ t, exec c s = .next t ∧
      t.host.cq = s.host.cq ∧ t.recs = s.recs ∧ t.chan = s.chan) ∧
    (outRefuse s (dEid f.raw) true = none → (outSlot s (dEid f.raw) true).isSome = true → chRefuse s (dEid f.raw) 0 = none → ∃ t ic, exec c s = .next t ∧ ic = (recView s (dEid f.raw)).txIcHwm + 1 ∧
      (recGet t (dEid f.raw)).relay = relayCommanded (recView s (dEid f.raw)).relay cmd 0 ic ∧
      (recGet t (dEid f.raw)).txIcHwm = ic ∧
      (∃ x ∈ (chGet t (chanOf s (dEid f.raw))).tx, x.uid = some u ∧ x.what = op - 0x40 ∧ x.arg = arg ∧ x.ic = ic ∧
        x.eid = dEid f.raw ∧ x.tc = 0 ∧ x.sent = 0) ∧
      (∃ g, flightOf t u = some g ∧ g.stage = .relay ic f.adm false cmd ∧ g.step = 3) ∧ t.host.cq = s.host.cq ∧
      (∀ e, e ≠ dEid f.raw → recGet t e = recGet s e) ∧ t.hostMem = s.hostMem) ∧
    (outRefuse s (dEid f.raw) true = none → (outSlot s (dEid f.raw) true).isSome = true →
      ∀ st, chRefuse s (dEid f.raw) 0 = some st → ∃ t, exec c s = .next t ∧ Completed s t f st 3 0 0 ∧
      (recGet t (dEid f.raw)).txIcHwm = (recView s (dEid f.raw)).txIcHwm + 1)) ∧
  (∀ (s : State) (u : Nat) (f : Flight), Runs s u 0x42 f → (recGet s (dEid f.raw)).proto ≠ 0 →
    ∃ t, exec (.opLoadLimit u) s = .next t ∧ Completed s t f 0x08 0 0 (badResult 9 0 0) ∧ rest t = rest s) ∧
  (∀ (s : State) (ch eid : Nat) (x : TxF) (f : Flight), awake s = true →
    ((chGet s ch).tx.find? fun f => f.eid == eid && f.sent != 0) = some x → x.what ≤ 2 → x.uid = some f.uid →
    flightOf s f.uid = some f → f.ended = false → f.discard = false →
    ∃ t, exec (.linkAcknowledgement ch eid) s = .next t ∧ Completed s t f 0 4 0 (result4 x.ic.toNat 0 0 0) ∧
      t.hostMem = s.hostMem) ∧
  (∀ (s : State) (f : Flight) (ic : Word) (at_ k : Nat) (b : Bool), awake s = true → flightOf s f.uid = some f →
    f.stage = .relay ic at_ b k → f.ended = false → f.discard = false →
    msPassed s at_ (1000 * cmdWaitOf s f.uid) = true → onPins s f.uid = false → unacked s f.uid = true →
    ∃ t, exec (.commandWaitTimeout f.uid) s = .next t ∧ Completed s t f 0x31 3 0 (result4 0 1 0 0) ∧
      (∀ y ∈ t.cmd.txns, y.uid ≠ some f.uid) ∧ t.recs.tab = s.recs.tab) ∧
  (∀ (s : State) (e : Nat), awake s = true → tailOpen s = true → tget RelayT.none s.cmd.relays e ≠ RelayT.none →
    relayPend (recView s e).relay = true →
    msPassed s (tget RelayT.none s.cmd.relays e).since (1000 * (tget RelayT.none s.cmd.relays e).secs) = true →
    ∃ t, exec (.relayConfirmationTimeout e) s = .next t ∧
      (∃ it ∈ t.sealU.queue, it.rd.eid = BitVec.ofNat 32 e ∧ it.rd.kind = 4) ∧
      ((recView s e).billing = false → (recGet t e).relay = relaySettled (recView s e).relay none 2 ∧
        (recGet t e).alarms = (recView s e).alarms ||| 2 ∧ tget RelayT.none t.cmd.relays e = RelayT.none) ∧
      ∀ x, x ≠ e → recGet t x = recGet s x)

/-- Requests to meters: OP_READ_ON_DEMAND of registers, of an object, of a list, and OP_CREDIT_PUSH queue their frames and
wait; a waiting object gets its reservation when it fits, and is refused where the mode in force no longer allows its buffer;
an unanswered request ends LINK_LOST after RESP_TIMEOUT_S; OP_COLLECT_PLAN sets the plan and binds its targets,
and at a target's instant a TC2 request goes out while core 1 runs; OP_METER_TIME_SET queues a clock frame; a distribution takes one of 16
places with its targets, once no earlier one has yet to start. A row that may change journaled state is stated for an open
journal tail (log entry 12, the model's choice). -/
def Obligations.MeterRequestsRun : Prop :=
  (∀ (s : State) (u : Nat) (f : Flight) (tg : List Word), Runs s u 0x43 f → unbegun f.stage = true → dBitmap f.raw ≠ 0 →
    dByte f.raw 24 1 = 0 → (∀ p ∈ readUnused 0 true, spanSet f.raw p.1 p.2 = none) →
    listBad s ((listOf f tg).map (BitVec.ofNat 32)) 0 = none → listOf f tg ≠ [] →
    (∀ e ∈ listOf f tg, targetOk s e 0x43 (dTc f.raw) = true ∧ askRefuse s e 1 = none) →
    ∃ t, exec (.opReadOnDemand u tg) s = .next t ∧
      (∀ e ∈ listOf f tg, ∃ y ∈ t.cmd.txns, y.eid = e ∧ y.uid = some u ∧ y.what = 3 ∧ y.cls = 1) ∧
      (∃ g, flightOf t u = some g ∧ g.stage = .list (withIdx (listOf f tg)) 0 0) ∧ t.host.cq = s.host.cq ∧
      t.hostMem = s.hostMem) ∧
  (∀ (s : State) (u : Nat) (f : Flight) (tg : List Word), Runs s u 0x43 f → unbegun f.stage = true → dBitmap f.raw = 0 →
    dByte f.raw 24 1 = 1 ∨ dByte f.raw 24 1 = 2 → readBad s f.raw = none →
    (∀ p ∈ readUnused (dByte f.raw 24 1) false, spanSet f.raw p.1 p.2 = none) → askRefuse s (dEid f.raw) 1 = none →
    (outSlot s (dEid f.raw) false).isSome = true →
    (s.ce.objWait = [] → holdUsed s + objUnits s (dBufLen f.raw) ≤ 3072 → ∃ t, exec (.opReadOnDemand u tg) s = .next t ∧
      holdUsed t = holdUsed s + objUnits s (dBufLen f.raw) ∧
      (∃ x ∈ (chGet t (chanOf s (dEid f.raw))).tx, x.uid = some u ∧ x.what = 4 ∧ x.eid = dEid f.raw) ∧ t.host.cq = s.host.cq) ∧
    (s.ce.objWait ≠ [] ∨ 3072 < holdUsed s + objUnits s (dBufLen f.raw) → ∃ t, exec (.opReadOnDemand u tg) s = .next t ∧
      t.ce.objWait = s.ce.objWait ++ [u] ∧ t.chan = s.chan ∧ t.host.cq = s.host.cq)) ∧
  (∀ (s : State) (u : Nat) (f : Flight) (tg : List Word), Runs s u 0x43 f → unbegun f.stage = true → dBitmap f.raw = 0 →
    dByte f.raw 24 1 = 0 → (∀ p ∈ readUnused 0 false, spanSet f.raw p.1 p.2 = none) → askRefuse s (dEid f.raw) 1 = none →
    (outSlot s (dEid f.raw) false).isSome = true →
    ∃ t, exec (.opReadOnDemand u tg) s = .next t ∧ (recGet t (dEid f.raw)).txIcHwm = (recView s (dEid f.raw)).txIcHwm + 1 ∧
      (∃ x ∈ (chGet t (chanOf s (dEid f.raw))).tx, x.uid = some u ∧ x.what = 3 ∧ x.tc = 1 ∧ x.eid = dEid f.raw ∧
        ∃ y ∈ t.cmd.txns, x.txn = some y.id ∧ y.uid = some u ∧ y.eid = dEid f.raw) ∧
      (∃ g, flightOf t u = some g ∧ g.stage = .wait s.tcxo 0 1 ∧ g.step = 2) ∧ t.host.cq = s.host.cq ∧
      t.hostMem = s.hostMem) ∧
  (∀ (s : State) (u : Nat) (f : Flight) (tok : List Byte), Runs s u 0x44 f → unbegun f.stage = true →
    (recGet s (dEid f.raw)).proto = 0 → dBufLen f.raw ≤ 64 → outRefuse s (dEid f.raw) false = none →
    (outSlot s (dEid f.raw) false).isSome = true → chRefuse s (dEid f.raw) 1 = none → ∃ t, exec (.opCreditPush u tok) s = .next t ∧
      (∃ x ∈ (chGet t (chanOf s (dEid f.raw))).tx, x.uid = some u ∧ x.what = 5 ∧ x.eid = dEid f.raw ∧
        x.arg = tokenArg f.raw tok ∧ x.ic = (recView s (dEid f.raw)).txIcHwm + 1) ∧
      (recGet t (dEid f.raw)).txIcHwm = (recView s (dEid f.raw)).txIcHwm + 1 ∧
      (∃ g, flightOf t u = some g ∧ g.step = 3 ∧ g.ended = f.ended) ∧ t.host.cq = s.host.cq) ∧
  (∀ (s : State) (u : Nat) (l : List Nat) (f : Flight), awake s = true → s.ce.objWait = u :: l → flightOf s u = some f →
    (earlyMode s = true ∨ dBufLen f.raw ≤ holdLimit s → holdUsed s + objUnits s (dBufLen f.raw) ≤ 3072 →
      ∃ t, exec .holdReservation s = .next t ∧ t.ce.objWait = l ∧
        (∀ o ∈ t.ce.objs, o.uid = u → o.units = objUnits s (dBufLen f.raw)) ∧ t.host.cq = s.host.cq) ∧
    (earlyMode s = false → holdLimit s < dBufLen f.raw → f.ended = false → f.discard = false →
      ∃ t, exec .holdReservation s = .next t ∧ u ∉ t.ce.objWait ∧ (∀ o ∈ t.ce.objs, o.uid ≠ u) ∧
        Completed s t f 0x08 0 0 (badResult 9 16 0))) ∧
  (∀ (s : State) (id at_ : Nat) (x : Txn) (f : Flight) (a b c : Nat), awake s = true → txnOf s id = some x → x.since = some at_ →
    x.what = 3 ∨ x.what = 4 → msPassed s at_ (1000 * x.respS) = true → x.uid = some f.uid →
    flightOf s f.uid = some f → f.stage = .wait a b c → f.ended = false → f.discard = false →
    ∃ t, exec (.responseTimeout id) s = .next t ∧ Completed s t f 0x31 3 0 (result4 0 1 0 0) ∧
      (∀ y ∈ t.cmd.txns, y.id ≠ id) ∧ t.recs.tab = s.recs.tab) ∧
  (∀ (s : State) (u : Nat) (f : Flight) (tg : List Word) (l : List Nat), Runs s u 0x48 f → l = listOf f tg →
    dByte f.raw 24 1 ≤ 63 → dByte f.raw 25 1 ≤ 1 → 300 ≤ dByte f.raw 28 4 → dByte f.raw 28 4 ≤ 86400 →
    dByte f.raw 32 4 < dByte f.raw 28 4 → dByte f.raw 36 4 ≤ dByte f.raw 28 4 →
    listBad s (l.map (BitVec.ofNat 32)) 0 = none →
    ∃ t n, exec (.opCollectPlan u tg) s = .next t ∧
      planGet t (dByte f.raw 24 1) = ⟨dByte f.raw 25 1, dByte f.raw 28 4, dByte f.raw 32 4, dByte f.raw 36 4⟩ ∧
      (∀ e ∈ l, targetOk s e 0x48 2 = true → bindGet t e = dByte f.raw 24 1 + 1) ∧
      n = (l.filter fun e => targetOk s e 0x48 2).length ∧
      Completed s t f (if n = l.length then 0 else 1) 3 0 (result4 n (l.length - n) 0 0)) ∧
  (∀ (s : State) (e : Nat), awake s = true → tailOpen s = true → coreState s 1 = 0 → bindGet s e ≠ 0 → collDue (planGet s (bindGet s e - 1)) e (nowSec s) = true →
    ((s.cmd.txns.find? fun t => t.eid == e && t.coll == bindGet s e) = none → targetOk s e 0x48 2 = true →
      outRefuse s e false = none → chUp s e = true → ∃ t, exec (.collectionInstant e) s = .next t ∧
        ∃ y ∈ t.cmd.txns, y.eid = e ∧ y.coll = bindGet s e ∧ y.cls = 2 ∧ y.uid = none) ∧
    (∀ y, (s.cmd.txns.find? fun t => t.eid == e && t.coll == bindGet s e) = some y →
      ∃ t, exec (.collectionInstant e) s = .next t ∧ (∀ z ∈ t.cmd.txns, z.id ≠ y.id) ∧ t.recs = s.recs)) ∧
  (∀ (s : State) (u : Nat) (f : Flight) (e : Word), Runs s u 0x6A f → f.stage = .none → dByte f.raw 24 1 = 0 →
    spanSet f.raw 28 4 = none → dBufLen f.raw = 4 →
    ((fnGet s 0x0B00).st = .on → targetOk s e.toNat 0x6A 2 = true → askRefuse s e.toNat 2 = none →
      ∃ t, exec (.opMeterTimeSet u [e]) s = .next t ∧ (∃ x ∈ (chGet t (chanOf s e.toNat)).tx, x.uid = some u ∧ x.what = 6 ∧
        x.eid = e.toNat ∧ x.tc = 2) ∧ t.host.cq = s.host.cq ∧ t.recs.tab = s.recs.tab) ∧
    ((fnGet s 0x0B00).st = .off → ∃ t, exec (.opMeterTimeSet u [e]) s = .next t ∧ Completed s t f 0x41 0 0 0 ∧
      rest t = rest s)) ∧
  (∀ (s : State) (u op : Nat) (f : Flight) (tg : List Word) (hd : List (List Nat)) (ts : List Nat) (img : List Byte)
    (c : Instr), Runs s u op f →
    (c, op) ∈ [(Instr.opTariffPush u tg, 0x45), (Instr.opDistStart u ⟨tg, img⟩, 0x46), (Instr.opDistResume u ⟨tg, img⟩ hd ts, 0x47)] →
    distOf s u = none → distBehind s f = false → (op = 0x45 → spanSet f.raw 25 7 = none ∧ spanSet f.raw 32 6 = none) →
    distBad s f.raw (op == 0x45) = none → listBad s ((listOf f tg).map (BitVec.ofNat 32)) 0 = none →
    s.cmd.dists.length < 16 → ∃ t d, exec c s = .next t ∧ distOf t u = some d ∧ d.step = 2 ∧
      d.distId = dByte f.raw 38 2 ∧ d.tariff = (op == 0x45) ∧ d.tgts.map (·.eid.toNat) = (listOf f tg).map (· % 2 ^ 32) ∧
      t.cmd.dists.length = s.cmd.dists.length + 1 ∧ t.host.cq = s.host.cq ∧ t.recs.tab = s.recs.tab)

/-! ## The reading path -/

/-- Frames enter and pass the reading path: OP_TUNNEL_RX admits a frame to its group's queue; the parser takes the frame at the
head of an ingress queue; a frame that verifies passes the replay check and its counter becomes the one seen, a replayed one
is flagged, and so is one whose tag fails on a second pipeline too; where the second passes, the first is at fault; a pipeline
fault disables the pipeline; validation judges, and forms a TC0 alarm's record; posting forms the record of the rest; the
filter drops old entries; OP_QUARANTINE_READ writes the held frames.
A row that may change journaled state is stated for an open journal tail (log entry 12, the model's choice). -/
def Obligations.FramesBecomeRecords : Prop :=
  (∀ (s : State) (u : Nat) (f : Flight) (e : TunnelEntry), Runs s u 0x30 f → dByte f.raw 24 4 = 1 → tunnelBad f.raw [e] = none →
    groupHead s (dAux f.raw % 4) = true → (fnGet s (0x0200 + dAux f.raw % 4)).st = .on → f.stage = .none → f.units = 0 →
    s.rp.stopped = false → s.harn.outState ≠ 2 → gateShut s 3 u = false → s.rp.tunnel.length = 4 →
    tunnelUnits (lget [] s.rp.tunnel (dAux f.raw % 4)) + units e.len ≤ 960 → s.host.deliv.length < 16320 →
    ∃ t it, exec (.opTunnelRx u [e]) s = .next t ∧ Completed s t f 0 2 0 (result4 1 0 0 0) ∧ it.f = e.frame ∧ it.tunnel = true ∧
      lget [] t.rp.tunnel (dAux f.raw % 4) = lget [] s.rp.tunnel (dAux f.raw % 4) ++ [it] ∧ t.recs.tab = s.recs.tab) ∧
  (∀ (s : State) (ch : Nat) (x : RxF) (l : List RxF), awake s = true → (chGet s ch).rx = x :: l → parseRoom s false = true →
    frameCls s x.f x.lk.slotKind ≠ 0 → arbGrants s 1 (frameCls s x.f x.lk.slotKind) (parseWaiting s) = true →
    s.host.admQ.contains (.frame false ch) = false → (∀ y ∈ s.rp.parsed, y.id ≠ x.id) →
    x.f.proto = 0 ∨ x.f.prot ≠ .plain ∨ wbit (regGet s 0x200) 1 = false →
    ∃ t it, exec (.parseAndClassify false ch) s = .next t ∧ (chGet t ch).rx = l ∧
      it ∈ t.rp.parsed ++ t.rp.cipherQ ++ t.rp.tc0Q ++ t.rp.validQ ∧ it.id = x.id ∧ it.f = x.f ∧ it.rxDt = x.rxDt ∧
      it.cls = frameCls s x.f x.lk.slotKind ∧ it.eid = addrResolve s x.f.addr x.f.proto ∧ t.recs.tab = s.recs.tab) ∧
  (∀ (s : State) (p e : Nat) (it : RpItem), awake s = true → cipherFront s p = some it →
    inPipe s it = true ∨ itemPipe s it = some p → (blocksPass s p (itemBlocks it)).isSome = true → stageFlag s p = false →
    qRoom s.rp.validQ.length 512 it.tc0 = true → (∀ y ∈ s.rp.parsed, y.id ≠ it.id) → it.eid = some e →
    (∀ i, verifyKey s it = some i → wbit it.flags 1 = false → wbit it.flags 2 = false → wbit it.flags 3 = false →
      kcPendValid (recGet s e) = false →
      (hasCounter it.f = true → replayPasses (seenIc s e) (recGet s e).validCfg it.f = true) →
      ∃ t y, exec (.decryptAndVerify p false false) s = .next t ∧ y ∈ t.rp.validQ ∧ y.id = it.id ∧ y.flags = it.flags ∧
        (hasCounter it.f = true → s.rp.parsed = [] → seenIc t e = frameIc it.f) ∧
        (∀ z ∈ t.rp.cipherQ ++ t.rp.tc0Q, z.id ≠ it.id) ∧ t.recs.tab = s.recs.tab) ∧
    (∀ i, verifyKey s it = some i → wbit it.flags 1 = false → wbit it.flags 2 = false → wbit it.flags 3 = false →
      kcPendValid (recGet s e) = false → hasCounter it.f = true →
      replayPasses (seenIc s e) (recGet s e).validCfg it.f = false →
      dupHit s { it with gen := (slotGet s i).gen } e = false →
      ∃ t y, exec (.decryptAndVerify p false false) s = .next t ∧ y ∈ t.rp.validQ ∧ y.id = it.id ∧ wbit y.flags 4 = true ∧
        t.recs.tab = s.recs.tab) ∧
    (verifyKey s it = none → ∀ q, secondPipe s p = some q → itemBlocks it ≤ pool s q → lget 0 s.ce.sets q ≤ 65536 →
      (∃ t y, exec (.decryptAndVerify p false false) s = .next t ∧ y ∈ t.rp.validQ ∧ y.id = it.id ∧
        wbit y.flags 2 = true ∧ pool t q = pool s q - itemBlocks it ∧ (∀ z ∈ t.rp.cipherQ ++ t.rp.tc0Q, z.id ≠ it.id) ∧
        t.recs.tab = s.recs.tab) ∧
      (p < 6 → keyOrder s it ≠ [] → ∃ t, exec (.decryptAndVerify p false true) s = .next t ∧ wbit t.ce.fault 8 = true ∧
        wbit t.ce.fault p = true ∧ (fnGet t (0x0300 + p)).st ≠ .on ∧ ∀ z ∈ t.rp.cipherQ ++ t.rp.tc0Q, z.id ≠ it.id)) ∧
    (p < 6 → ∃ t, exec (.decryptAndVerify p true false) s = .next t ∧ wbit t.ce.fault p = true ∧
      t.ce.faultCnt = satInc s.ce.faultCnt ∧ (fnGet t (0x0300 + p)).st ≠ .on ∧ t.recs.tab = s.recs.tab)) ∧
  (∀ (s : State) (it : RpItem), awake s = true → validFront s = some it → validRoom s it = true →
    it.txn = none → (∀ e, it.eid = some e → contentDup s (recView s e) it = false) →
    (it.alarm = false ∨ it.cls ≠ 0 →
      ∃ t, exec .validation s = .next t ∧ (∀ y ∈ t.rp.validQ, y.id ≠ it.id) ∧ judged s it ∈ t.rp.postQ) ∧
    (it.alarm = true → it.cls = 0 → (judged s it).verdict ≤ 2 → ∃ t x, exec .validation s = .next t ∧
      (∀ y ∈ t.rp.validQ, y.id ≠ it.id) ∧ t.rp.postQ = s.rp.postQ ∧ x ∈ t.sealU.queue ∧ x.rd.kind = 1 ∧ x.rd.tc = 0 ∧
      x.rd.verdict = (judged s it).verdict ∧ x.rd.rxDt = it.rxDt)) ∧
  (∀ (s : State) (it : RpItem), awake s = true → postFront s = some it → tailOpenTc s it.cls = true → it.verdict ≤ 2 →
    postRoom s it = true →
    ∃ t x, exec .posting s = .next t ∧ t.rp.postQ = s.rp.postQ.filter (fun y => y.id != it.id) ∧ x ∈ t.sealU.queue ∧
      x.rd.verdict = it.verdict ∧ x.rd.tc = it.cls ∧
      x.rd.rxDt = it.rxDt ∧ x.rd.kind = itemKind it ∧ (∀ e, it.eid = some e → x.rd.eid = BitVec.ofNat 32 e) ∧
      (∀ e, it.eid = some e → it.verdict ≤ 1 → wbit it.flags 22 = false →
        bound s (lastSeen s it (recView s e)) = false → (recGet t e).energy =
          (carried (lastSeen s it (recView s e)) it.f.regs).foldl (fun a p => tset 0 a p.1 p.2) (recView s e).energy) ∧
      (∀ e, it.eid = some e → it.verdict ≤ 1 → wbit it.flags 22 = false → icMoved it = true →
        (recGet t e).rxIc = (if (pinGet s e).on then (pinGet s e).rxIc else frameIc it.f)) ∧
      ∀ y, it.eid ≠ some y → recGet t y = recGet s y) ∧
  (∀ s : State, awake s = true → ∃ t, exec .filterEntryEviction s = .next t ∧
    t.rp = { s.rp with filter := s.rp.filter.filter fun e => !msPassed s e.taken (1000 * regFld s 0x200 8 8) } ∧
    t.recs = s.recs) ∧
  (∀ (s : State) (u : Nat) (f : Flight), Runs s u 0x31 f → s.host.linkDown = false →
    ∃ t start out next, exec (.opQuarantineRead u) s = .next t ∧
      start = max (dByte f.raw 24 4) (quarOldest s).toNat ∧
      out = quarFit (s.rp.quar.filter fun q => decide (start ≤ q.qseq.toNat)) (dByte f.raw 28 4) (dBufLen f.raw) ∧
      next = (match out.getLast? with | some q => q.qseq.toNat + 1 | none => start) ∧
      Wrote s t (dBufAddr f.raw) (out.map quarBytes).flatten ∧
      Completed s t f 0 0 0 (result4 out.length next (quarOldest s).toNat
        (b2n (decide (dByte f.raw 24 4 < (quarOldest s).toNat)))) ∧ t.rp = s.rp)

/-- Kennel and entropy: a queued lookup is served by the unwrap of its blob into a slot; a mask set is refilled while the
expander's seed lasts; an expander whose seed is spent is reseeded; a noise source that fails or returns is marked and logged;
the DRBG is reseeded from a passing source once its requests are made, and without one refuses. -/
def Obligations.KeysAndEntropySupplied : Prop :=
  (∀ (s : State) (m : Miss) (b : Blob), awake s = true →
    missFront s = some m → slotFind s m.handle m.gen 2 = none → missBlob s m = some b →
    ∀ (kek : BitVec 256) (pg : BitVec 8), dirUse s b.parent.toNat = .ok kek pg →
    (slotFind s b.parent.toNat (dirGet s b.parent.toNat).curGen 2).isSome = true →
    blobCheck (some b) kek m.handle b.parent.toNat m.gen pg = none → ∀ p, missSlot s m = some p →
    (wrapRun p.2 kek).2.isSome = true →
    ∃ t, exec .keyUnwrap s = .next t ∧ (slotGet t p.1).st = 2 ∧ (slotGet t p.1).handle = m.handle ∧
      (slotGet t p.1).key = b.material ∧
      (∀ x ∈ t.keys.missQ, ¬ (x.handle = m.handle ∧ x.gen = m.gen)) ∧ t.recs.tab = s.recs.tab) ∧
  (∀ (s : State) (p : Nat), awake s = true → s.ce.pools.length = 5 → s.ce.sets.length = 6 → p < 5 →
    (pool s p < poolDepth p → lget 0 s.ce.sets p < 65536 → ∃ t, exec (.maskSetRefill p) s = .next t ∧
      pool t p = pool s p + 1 ∧ lget 0 t.ce.sets p = lget 0 s.ce.sets p + 1 ∧ t.ce.objs = s.ce.objs ∧ t.keys = s.keys) ∧
    (65536 ≤ lget 0 s.ce.sets p → drbgOpen s = true → ∃ t, exec (.maskExpanderReseed p) s = .next t ∧
      lget 0 t.ce.sets p = 0 ∧ t.ce.reqs = s.ce.reqs + 1 ∧ t.ce.pools = s.ce.pools)) ∧
  (∀ s : State, awake s = true →
    (∃ t, exec (.noiseSourceFail 0) s = .next t ∧ t.ce.entA = false ∧ t.ce.entB = s.ce.entB ∧ wbit t.ce.fault 6 = true) ∧
    (∃ t, exec (.noiseSourceFail 1) s = .next t ∧ t.ce.entB = false ∧ t.ce.entA = s.ce.entA ∧ wbit t.ce.fault 7 = true) ∧
    (s.ce.entA = false → ∃ t, exec (.noiseSourceReturn 0) s = .next t ∧ t.ce = { s.ce with entA := true }) ∧
    (s.ce.entB = false → ∃ t, exec (.noiseSourceReturn 1) s = .next t ∧ t.ce = { s.ce with entB := true }) ∧
    (drbgOpen s = false →
      ((s.ce.entA || s.ce.entB) = true → ∃ t, exec .drbgReseed s = .next t ∧ t.ce.reqs = 0 ∧ t.ce.exhausted = false) ∧
      ((s.ce.entA || s.ce.entB) = false → ∃ t, exec .drbgReseed s = .next t ∧ t.ce.exhausted = true ∧
        t.ce.reqs = s.ce.reqs)))

/-! ## Channels and the air -/

/-- Frames on channels: one that the island accepts and that finds room enters the receive queue; a faulty one is dropped
under its cause, one that back-pressure discards under its own; a gap beyond the limit drops the frame; a frame that may begin
goes on the pins and the channel is busy for its time; a modem that does not become ready frees the channel; the loopback test
disables its channel, waits for OFF, and answers with the errors found. -/
def Obligations.ChannelsCarryFrames : Prop :=
  (∀ (s : State) (ch : Nat) (f : Frame) (lk : LinkIn) (tc0 : Bool), awake s = true → (fnGet s (0x100 + ch)).st = .on →
    groupHead s (ch / 16) = false → s.rp.stopped = false → (chAttach s ch ≠ 2 ∨ (chGet s ch).busy ≤ s.tcxo) →
    slottedCoord s ch = false ∨ lk.slotKind ≠ 0 →
    (rxFault s ch f lk = none → tc0 = (frameCls s f lk.slotKind == 0) →
      (tc0 = true ∨ bpDiscards s ch f lk = false →
        rxRoom s ch (units f.raw.length) (ownReserve s ch f lk) tc0 = true →
        ∃ t, exec (.channelFrameReceive ch f lk) s = .next t ∧
          (chGet t ch).rx = (chGet s ch).rx ++ [⟨s.rp.idNext, f, lk, dtOf s, tc0⟩] ∧ t.rp.idNext = s.rp.idNext + 1 ∧
          (∀ c, c ≠ ch → chGet t c = chGet s c) ∧ t.recs.tab = s.recs.tab) ∧
      (tc0 = false → bpDiscards s ch f lk = true → ∃ t, exec (.channelFrameReceive ch f lk) s = .next t ∧
        (chGet t ch).rx = (chGet s ch).rx ∧ cntGet t 198 = cntGet s 198 + 1 ∧ t.rp.idNext = s.rp.idNext)) ∧
    (∀ c, rxFault s ch f lk = some c → ch < 64 → ∃ t, exec (.channelFrameReceive ch f lk) s = .next t ∧
      t.chan = s.chan ∧ t.rp = s.rp ∧ cntGet t (192 + c) = cntGet s (192 + c) + 1)) ∧
  (∀ (s : State) (ch gap : Nat), awake s = true → (fnGet s (0x100 + ch)).st = .on → ch < 64 → 2 ≤ chAttach s ch →
    regFld s (0x6004 + 0x10 * ch) 29 3 ≠ 0 → regFld s (0x6004 + 0x10 * ch) 29 3 < gap →
    ∃ t, exec (.interCharacterGap ch gap) s = .next t ∧ cntGet t 196 = cntGet s 196 + 1 ∧ t.chan = s.chan) ∧
  (∀ (s : State) (ch : Nat), awake s = true → chAttach s ch = 4 → (fnGet s (0x100 + ch)).st ≠ .off →
    s.tcxo < (chGet s ch).busy → ∃ t, exec (.modemReadyTimeout ch) s = .next t ∧ (chGet t ch).busy = s.tcxo ∧
      (∀ x ∈ (chGet t ch).tx, x.id ≠ newestSent s ch) ∧ t.recs.tab = s.recs.tab) ∧
  (∀ (s : State) (ch : Nat) (f : TxF) (l : List TxF) (pinC : Bool), awake s = true → chOn s ch = true → txStop s = false →
    (chGet s ch).busy ≤ s.tcxo → pinCHolds s ch pinC = false →
    (txOrder (chGet s ch).tx).filter (fun g => txMay s ch g && (g.tc == 0 || !spiWaits s ch)) = f :: l → f.what ≠ 6 → f.enc = true →
    chRadio s ch = false ∨ (radioAdmit s ch (txIndex s ch f.eid) f.bytes.length (f.tc == 0)
      (f.what == 7 && f.eid == 0xFFFFFFFF)).isSome = true →
    ∃ t, exec (.channelFrameTransmit ⟨ch, pinC⟩) s = .next t ∧ WireEv.frame ch f.bytes ∈ t.wire ∧
      (chGet t ch).busy = s.tcxo + txLasts s ch f.bytes.length ∧
      (f.eid ≠ 0xFFFFFFFF → ∃ x ∈ (chGet t ch).tx, x.id = f.id ∧ x.sent = f.sent + 1 ∧ x.since = s.tcxo ∧ x.retry = false) ∧
      (f.eid = 0xFFFFFFFF → ∀ x ∈ (chGet t ch).tx, x.id ≠ f.id) ∧
      (∀ c, c ≠ ch → chGet t c = chGet s c) ∧ t.recs.tab = s.recs.tab) ∧
  (∀ (s : State) (u : Nat) (f : Flight) (errs : List (Nat × Nat)) (ch : Nat), Runs s u 0x78 f → loopBad s f.raw = none →
    ch = dByte f.raw 24 1 →
    (f.stage = .none → (chGet s ch).loop = false →
      ∃ t g, exec (.opChLoopback u errs) s = .next t ∧ flightOf t u = some g ∧ g.stage = .wait s.tcxo (b2n (chOn s ch)) 0 ∧
        g.step = 1 ∧ (fnGet t (0x0100 + ch)).st ≠ .on ∧ ((fnGet s (0x0100 + ch)).st = .off → t.funcs = s.funcs)) ∧
    (∀ a o, f.stage = .wait a o 0 → (fnGet s (0x0100 + ch)).st = .off →
      ∃ t g, exec (.opChLoopback u errs) s = .next t ∧ flightOf t u = some g ∧ g.stage = .wait s.tcxo o 1 ∧ g.step = 2 ∧
        g.units = dByte f.raw 26 2 ∧ (chGet t ch).loop = true) ∧
    (∀ a o, f.stage = .wait a o 1 → ∀ bad, bad = errs.filter (fun e => decide (e.1 < dByte f.raw 26 2) && e.2 != 0) →
      ∃ t, exec (.opChLoopback u errs) s = .next t ∧ (chGet t ch).loop = false ∧
        Completed s t f 0 4 0 (result4 (b2n !bad.isEmpty) (dByte f.raw 26 2) ((bad.map (·.2)).sum)
          ((bad.map (·.1)).foldl min 0xFFFFFFFF))))

/-- The radio: a sound plan is loaded; budgets age and a frame beyond its wait ends; a beacon reserves credit and goes out
where its band admits it; a member follows its coordinator's beacons through missed ones to SEARCH and, after its
supervision time, DROPPED; link events tune the window or are missed, an enhanced acknowledgement goes out, synchronises or
assigns a link, and lets the meter's frames follow; a link beyond its supervision drops; listen-before-talk backs off until an
attempt has failed, and an unacknowledged frame is tried again.
A row that may change journaled state is stated for an open journal tail (log entry 12, the model's choice). -/
def Obligations.RadioAccess : Prop :=
  (∀ (s : State) (u : Nat) (f : Flight) (p : List Byte), Runs s u 0x79 f → dBufLen f.raw = 5312 → planBad s p = none →
    tailRoom s (.plan p) = true → ∃ t, exec (.opDutyTableLoad u p) s = .next t ∧ Completed s t f 0 3 0 0 ∧ t.air.plan = p ∧
      t.air.links = s.air.links ∧ t.hostMem = s.hostMem) ∧
  (∀ s : State, awake s = true → s.time.dtValid = true → ∃ t, exec .dutyBucketRollover s = .next t ∧
    t.air = { s.air with duty := s.air.duty.map fun p => (p.1, dutyAge p.2 (minuteOf s)) } ∧ t.chan = s.chan) ∧
  (∀ (s : State) (ch u : Nat) (f : TxF), awake s = true →
    ((chGet s ch).tx.find? fun f => f.uid == some u && f.dutyWait.isSome && !(f.what == 7 || f.what == 8)) = some f →
    msPassed s (f.dutyWait.getD 0) (1000 * (if f.tc = 0 then regFld s 0x6C04 16 8 else regFld s 0x6C04 0 12)) = true →
    ∃ t, exec (.dutyWaitTimeout ch u) s = .next t ∧ (∀ x ∈ (chGet t ch).tx, x.id ≠ f.id) ∧ t.recs.tab = s.recs.tab) ∧
  (∀ (s : State) (ch : Nat) (r : Nat × List (Nat × Nat) × List Nat), awake s = true → chOn s ch = true →
    slottedCoord s ch = true → txStop s = false → r = slotPlan (reserveUnits s ch) (192 - rxOtherUnits (chGet s ch)) (chBp s ch)
      (eventSlots s ch (sfNow s ch)) (scheduledSlots s ch)
      (if coreState s 2 = 0 then tget [] s.air.grants ch else []) (0, [], []) →
    ∃ t, exec (.beaconTransmit ch) s = .next t ∧ (chGet t ch).reserved = r.1 ∧ (chGet t ch).rx = (chGet s ch).rx ∧
      ((radioAdmit s ch (bcnCh s ch) (53 + 3 * r.2.1.length) true false).isSome = true → ∃ w, WireEv.beacon ch w ∈ t.wire)) ∧
  (∀ (s : State) (ch : Nat), awake s = true → chOn s ch = true → slottedMember s ch = true →
    (∀ sf, ∃ t, exec (.beaconReceive ch (tb2 (plan s) (sfAt (chProfile s ch) + 42))
        (tb2 (plan s) (sfAt (chProfile s ch) + 44)) sf) s = .next t ∧
      macGet t ch = { macGet s ch with sync := 3, missed := 0, sfNum := sf, since := s.tcxo } ∧
      rest { t with air := s.air } = rest s) ∧
    ((macGet s ch).sync = 3 → (macGet s ch).missed < 2 → ∃ t, exec (.beaconMissed ch) s = .next t ∧
      macGet t ch = { macGet s ch with missed := (macGet s ch).missed + 1 } ∧ t.chan = s.chan) ∧
    ((macGet s ch).sync = 3 → 2 ≤ (macGet s ch).missed → ∃ t, exec (.beaconMissed ch) s = .next t ∧
      ((macGet t ch).sync = 4 ∨ (macGet t ch).sync = 5) ∧ (macGet t ch).missed = 3) ∧
    (2 ≤ (macGet s ch).sync → (macGet s ch).sync ≠ 6 → msPassed s (macGet s ch).since (1000 * superS s ch) = true →
      ∃ t, exec (.memberSupervisionTimeout ch) s = .next t ∧ macGet t ch = { macGet s ch with sync := 6 })) ∧
  (∀ (s : State) (e : Nat) (l : MLink), awake s = true → l = linkGet s e →
    (l.st = 1 → chOn s l.channel = true →
      (slottedCoord s l.channel = true → eventIn s l (sfNow s l.channel) = true →
        (tooWide s l (sfNow s l.channel) = true → ∃ t, exec (.linkEvent e) s = .next t ∧ linkGet t e = { l with st := 2 }) ∧
        (tooWide s l (sfNow s l.channel) = false → ∃ t, exec (.linkEvent e) s = .next t ∧ linkGet t e = l ∧
          (macGet t l.channel).tuned = some (eventCh s e l (sfNow s l.channel)))) ∧
      (∃ t, exec (.linkEventMissed e) s = .next t ∧ (linkGet t e).missed = l.missed + 1 ∧
        ((linkGet t e).st = 1 ∨ (linkGet t e).st = 2) ∧ t.chan = s.chan)) ∧
    (l.st = 1 ∨ l.st = 2 ∨ l.st = 4 → l.lastHeard + lpSuper s l.profile * 2 ^ 24 ≤ airNow s → tailOpen s = true →
      ∃ t, exec (.linkDrop e) s = .next t ∧
        (linkGet t e).st = 3 ∧ (recGet t e).alarms = (recView s e).alarms ||| 4 ∧ (∀ x ∈ (chGet t l.channel).tx, x.eid ≠ e) ∧
        ∀ x, x ≠ e → recGet t x = recGet s x)) ∧
  (∀ (s : State) (ch e : Nat) (lk : LinkIn) (c : Int) (tc0 defer : Bool), awake s = true → chOn s ch = true →
    slottedCoord s ch = true → txStop s = false → gateShut s 0 (chGet s ch).lastRx = false →
    (assignDue s e lk = false → ∃ r : Bool, ∀ bytes, bytes = Config.downFrame 21 (ch :: e :: respIe s e defer
        ((chGet s ch).tx.any fun f => f.eid == e) false r (timeCorr lk c)) →
      ∃ t, exec (.enhancedAcknowledgement ch e lk c tc0 defer) s = .next t ∧ t.recs.tab = s.recs.tab ∧
      ((radioAdmit s ch ((macGet s ch).tuned.getD (txIndex s ch e)) bytes.length tc0 false).isSome = true →
        WireEv.frame ch bytes ∈ t.wire ∧ (∀ x ∈ (chGet t ch).tx, x.eid = e → x.retry = true) ∧
        (lk.slotKind = 3 → (linkGet s e).st = 1 →
          linkGet t e = { linkGet s e with missed := 0, syncItc := airNow s, offT := 0 })) ∧
      (radioAdmit s ch ((macGet s ch).tuned.getD (txIndex s ch e)) bytes.length tc0 false = none →
        t.wire = s.wire ∧ t.air = s.air)) ∧
    (assignDue s e lk = true → tailOpen s = true → coreState s 2 = 0 → (recGet s e).state = 1 → linksOn s ch < 65535 →
      ∀ p, linkPlace s ch (lpInterval s (epProfile (recGet s e))) (sfNow s ch + 2) = some p →
      ∃ r : Bool, ∀ l, l = MLink.mk 1 ch p.1 p.2 (epProfile (recGet s e)) 0 (airNow s) (airNow s) 0 0 →
        ∀ bytes, bytes = Config.downFrame 21 (ch :: e :: respIe (linkPut s e l) e defer
          ((chGet s ch).tx.any fun f => f.eid == e) true r (timeCorr lk c)) →
        ∃ t, exec (.enhancedAcknowledgement ch e lk c tc0 defer) s = .next t ∧ t.recs.tab = s.recs.tab ∧
        ((radioAdmit s ch ((macGet s ch).tuned.getD (txIndex s ch e)) bytes.length tc0 false).isSome = true →
          WireEv.frame ch bytes ∈ t.wire ∧ linkGet t e = l) ∧
        (radioAdmit s ch ((macGet s ch).tuned.getD (txIndex s ch e)) bytes.length tc0 false = none →
          t.wire = s.wire ∧ t.air = s.air))) ∧
  (∀ (s : State) (ch : Nat) (f : TxF) (n : Nat), awake s = true → chOn s ch = true → chRadio s ch = true →
    n = fld (regGet s (0x6804 + 0x10 * ch)) 8 3 →
    ((txOrder (chGet s ch).tx).find? (txMay s ch) = some f → lget 0 s.chan.draws (ch / 16) + 1 ≠ 65536 ∨ drbgOpen s = true →
      (f.backoffs < n → ∃ t, exec (.lbtBackoff ch false) s = .next t ∧ (chGet t ch).tx =
        txAdmit ((chGet s ch).tx.map fun x => if x.id = f.id then { x with backoffs := x.backoffs + 1 } else x) ∧
        t.wire = s.wire) ∧
      (n ≤ f.backoffs → ∃ t, exec (.lbtBackoff ch false) s = .next t ∧ (chGet t ch).tx =
        txAdmit ((chGet s ch).tx.map fun x => if x.id = f.id then
          { x with backoffs := 0, tries := x.tries + 1, retry := decide (x.tries + 1 < triesOf s ch f) } else x))) ∧
    (((chGet s ch).tx.find? fun f => f.sent != 0 && !f.retry && decide (f.tries < triesOf s ch f) &&
        decide (f.since + regFld s (0x6808 + 0x10 * ch) 16 8 * 3840 ≤ s.tcxo)) = some f →
      ∃ t, exec (.ackWaitExpiry ch) s = .next t ∧ (chGet t ch).tx = txAdmit ((chGet s ch).tx.map fun x => if x.id = f.id then
        { x with tries := x.tries + 1, retry := decide (x.tries + 1 < triesOf s ch f) } else x)))

/-! ## The ring -/

/-- The ring's links: heartbeats, the lead's tick and status frames go out and are taken note of; a LINK_ACK empties the replay
buffer and opens gates up to its LSEQ; a resend sends what a port holds; a lane that fails goes OFF alone; a broken port's
frames leave by the other, and it unwraps once the other port's buffer is empty. -/
def Obligations.RingLinksCarried : Prop :=
  (∀ s : State, awake s = true → onRing s = true →
    (s.harn.beatsOff = false → ∃ t, exec .heartbeatTransmit s = .next t ∧
      WireEv.ring (outPort s 0) 1 [s.harn.pos, 7] ∈ t.wire ∧ WireEv.ring (outPort s 1) 1 [s.harn.pos, 7] ∈ t.wire ∧
      t.harn = { s.harn with ports := t.harn.ports } ∧ t.recs = s.recs) ∧
    (s.harn.beatsOff = false → isLead s = true → ∃ t, exec .ringTickTransmit s = .next t ∧
      WireEv.ring (outPort s 0) 2 [(dtOf s).toNat, s.time.rebaseCnt.toNat] ∈ t.wire ∧
      t.harn = { s.harn with ports := t.harn.ports } ∧ t.time = s.time) ∧
    (∃ t, exec .statusFrameTransmit s = .next t ∧ WireEv.ring (outPort s 0) 0x22 [s.harn.pos] ∈ t.wire ∧
      t.harn = { s.harn with ports := t.harn.ports } ∧ t.recs = s.recs)) ∧
  (∀ (s : State) (p o h e : Nat), awake s = true → onRing s = true → p < 2 → o < 8 → o ≠ s.harn.pos → staleEpoch s e = false →
    inMask s.harn.silentM o = false → inMask s.harn.joinedM o = true →
    ∃ t, exec (.heartbeat p o h e) s = .next t ∧
      t.harn = { s.harn with ports := t.harn.ports, beats := tset 0 s.harn.beats o s.tcxo } ∧ t.recs = s.recs ∧
      (0 < h → WireEv.ring (outPort s (1 - p)) 1 [o, h - 1] ∈ t.wire)) ∧
  (∀ (s : State) (p : Nat) (e : HarnEnt), awake s = true → onRing s = true → isLead s = true → p < 8 →
    ∃ t, exec (.status p e) s = .next t ∧
      t.harn = { s.harn with ports := t.harn.ports,
                             stat := (p, ⟨e, s.tcxo⟩) :: s.harn.stat.filter fun x => x.1 != p } ∧ t.recs = s.recs) ∧
  (∀ (s : State) (p l : Nat), awake s = true → onRing s = true → p < 2 → s.harn.reqs = [] → s.harn.outState ≠ 1 →
    ∃ t, exec (.linkAck p l) s = .next t ∧
      (portGet t p).replay = (portGet s p).replay.filter (fun f => decide (l < f.lseq)) ∧
      t.harn.gates = s.harn.gates.filter (fun g => !(g.port == p && decide (g.lseq ≤ l))) ∧ t.recs = s.recs) ∧
  (∀ (s : State) (p : Nat), awake s = true → onRing s = true → p < 2 →
    ∃ t, exec (.replayResend p) s = .next t ∧
      (∀ f ∈ (portGet s p).replay, WireEv.ring p f.kind f.args ∈ t.wire) ∧ t.harn = s.harn ∧ t.recs = s.recs) ∧
  (∀ (s : State) (n : Nat), awake s = true → inHarness s = true → n < 4 → (fnGet s (0x0500 + n)).st ≠ .off →
    ∃ t, exec (.laneFailure n) s = .next t ∧ fnGet t (0x0500 + n) = Fn.idle ∧
      (∀ id, id ≠ 0x0500 + n → fnGet t id = fnGet s id) ∧ t.harn = s.harn ∧ t.recs = s.recs) ∧
  (∀ (s : State) (p : Nat), awake s = true → onRing s = true → p < 2 → (portGet s p).broken = false →
    ∃ t, exec (.portBroken p) s = .next t ∧ (portGet t p).broken = true ∧ (portGet t p).replay = [] ∧
      t.harn.wrapped = true ∧ (∀ f ∈ (portGet s p).replay, WireEv.ring (1 - p) f.kind f.args ∈ t.wire) ∧ t.recs = s.recs) ∧
  (∀ (s : State) (p : Nat), awake s = true → onRing s = true → p < 2 → (portGet s p).broken = true →
    ∃ t, exec (.portRetrain p) s = .next t ∧ (portGet t p).trained = true ∧
      (portGet t p).broken = !(portGet s (1 - p)).replay.isEmpty ∧ t.recs = s.recs)

/-- Joining: a low of 10 µs or more is a request; a JOIN is answered by the lead with a position or a refusal; the trained
links send JOIN; the grant makes the chip joined at its position, the refusal leaves it out; an OWNER frame tells who serves a
position. -/
def Obligations.JoiningTheRing : Prop :=
  (∀ (s : State) (d low : Nat), awake s = true → onRing s = true → 10 ≤ low → d < 2 → s.harn.reqs.contains d = false →
    ∃ t, exec (.joinRequest d low) s = .next t ∧ t.harn.reqs = reqsWith s d ∧ t.recs = s.recs ∧
      (s.harn.reqs = [] → t.harn.reqs = [d]) ∧ (s.harn.reqs = [] → (portGet s d).replay = [] → (portGet t d).broken = true)) ∧
  (∀ (s : State) (d low : Nat), low < 10 → exec (.joinRequest d low) s = .next (if awake s = true then wmUpdate s else s)) ∧
  (∀ (s : State) (q : JoinReq), awake s = true → onRing s = true →
    (∀ p, joinAssign s q = .inr p → ∃ t, exec (.join q) s = .next t ∧ inMask t.harn.joinedM p = true ∧
      inMask t.harn.silentM p = false ∧ (p, q) ∈ t.harn.peers ∧ tget 0 t.harn.beats p = s.tcxo ∧
      (isLead s = true → ∃ w, [WireEv.ring 0 0x20 [1, p, w], WireEv.ring 1 0x20 [1, p, w]].any (t.wire.contains ·) = true)) ∧
    (∀ e, joinAssign s q = .inl e → ∃ t, exec (.join q) s = .next t ∧ t.harn.joinedM = s.harn.joinedM ∧
      t.harn.peers = s.harn.peers ∧ t.recs = s.recs ∧
      (isLead s = true → WireEv.ring (outPort s 0) 0x20 [2, e] ∈ t.wire))) ∧
  (∀ s : State, awake s = true → s.pins.harnMode = 1 → s.harn.phase = 1 →
    ∃ t, exec .harnessLinkTrained s = .next t ∧ t.harn.phase = 3 ∧ (portGet t 0).trained = true ∧ (portGet t 1).trained = true ∧
      (∀ id ∈ [0x0400, 0x0401, 0x0500, 0x0501, 0x0502, 0x0503], (fnGet t id).st = .on) ∧
      WireEv.ring 0 0x20 (joinArgs s) ∈ t.wire ∧ t.recs = s.recs) ∧
  (∀ (s : State) (p v : Nat) (served : Bool) (id : BitVec 64), awake s = true → s.harn.phase = 3 → p < 8 →
    s.recs.owner.length = 8 → ∃ t, exec (.joinGrant p v served id) s = .next t ∧ t.harn.pos = p ∧ t.harn.joined = true ∧
      t.harn.phase = 4 ∧ t.harn.ringId = id ∧ t.harn.nvPos = some (id, p) ∧ t.harn.joinErr = 0 ∧
      serverOf t p = some (if served then v else p) ∧ t.recs.tab = s.recs.tab) ∧
  (∀ (s : State) (e : Nat), awake s = true → s.harn.phase = 3 →
    ∃ t, exec (.joinRefuse e) s = .next t ∧ t.harn.phase = 5 ∧ t.harn.joined = false ∧ t.harn.joinErr = e % 8 ∧
      t.recs = s.recs) ∧
  (∀ (s : State) (p v e : Nat) (valid : Bool), awake s = true → onRing s = true → p < 8 → staleEpoch s e = false →
    s.recs.owner.length = 8 → ¬(s.harn.served = some p ∧ v = p ∧ valid = true) →
    ∃ t, exec (.owner p v valid e) s = .next t ∧ t.recs.epoch = BitVec.ofNat 8 e ∧
      lget (0, false) t.recs.owner p = (v, valid) ∧ t.recs.tab = s.recs.tab) ∧
  (∀ (s : State) (p e : Nat), awake s = true → onRing s = true → p < 8 → staleEpoch s e = false →
    s.recs.owner.length = 8 → s.harn.served = some p →
    ∃ t, exec (.owner p p true e) s = .next t ∧ t.harn.served = none ∧ t.harn.inState = 2 ∧ t.harn.inPos = p ∧
      t.recs.epoch = BitVec.ofNat 8 e ∧ serverOf t p = some p)

/-- Mirroring: every frame of the west neighbour is held until released, a record only under a greater WRITE_SEQ, one that
carries a pin only once its key is pinned here; the first copy starts a mirror where this chip's DRAM is as large, and the end
of the copies turns SYNCING into ON; a gate on a silent shadow opens. -/
def Obligations.MirrorHeldAndReleased : Prop :=
  (∀ (s : State) (src id ep : Nat), awake s = true → holdsFor s src ep = true →
    (∀ f, ∃ t, exec (.mirrorRaw src id ep f) s = .next t ∧
      t.harn = { s.harn with ports := t.harn.ports, holdRaw := s.harn.holdRaw ++ [(id, f)] } ∧ t.recs = s.recs) ∧
    (∀ e r, (tget EpRec.free s.harn.mRecs e).writeSeq.toNat < r.writeSeq.toNat →
      ((mirrorRec (mirrorGot s) e r).isSome = true → ∃ t, exec (.mirrorState src ep (.epRec e r)) s = .next t ∧
        t.recs = s.recs ∧ t.harn = { s.harn with ports := t.harn.ports, mRecs := tset EpRec.free s.harn.mRecs e r }) ∧
      (mirrorRec (mirrorGot s) e r = none → ∃ t, exec (.mirrorState src ep (.epRec e r)) s = .next t ∧
        t.harn = s.harn ∧ t.keys = s.keys)) ∧
    (∀ x, (∀ e r, x ≠ .epRec e r ∧ x ≠ .linkDrop e r) → (mirrorApply (mirrorGot s) x).isSome = true →
      ∃ t, exec (.mirrorState src ep x) s = .next t ∧ t.recs = s.recs ∧
        t.harn = { s.harn with ports := t.harn.ports, mEnts := s.harn.mEnts ++ [x] }) ∧
    (∀ e r, (tget EpRec.free s.harn.mRecs e).state ≠ 0 → r.state ≠ 0 → r.writeSeq ≠ 0 →
      r.writeSeq.toNat ≤ (tget EpRec.free s.harn.mRecs e).writeSeq.toNat →
      ∃ t, exec (.mirrorState src ep (.epRec e r)) s = .next t ∧ t.recs = s.recs ∧
        t.harn = { s.harn with ports := t.harn.ports }) ∧
    (∀ rd : ReadRec, ∃ t, exec (.mirrorReading src id ep rd none) s = .next t ∧ t.recs = s.recs ∧
      t.harn.holdRd = s.harn.holdRd ++ [(id, rd, none)] ∧
      t.harn.holdRaw = s.harn.holdRaw.filter fun x =>
        !(x.2.addr == (tget EpRec.free s.harn.mRecs rd.eid.toNat).meterAddr && x.2.ic == rd.rxIc)) ∧
    (∀ (rd : ReadRec) (r : EpRec), (mirrorRec s rd.eid.toNat r).isSome = true →
      ∃ t, exec (.mirrorReading src id ep rd (some r)) s = .next t ∧ t.recs = s.recs ∧
        t.harn.holdRd = s.harn.holdRd ++ [(id, rd, some r)] ∧
        ((tget EpRec.free s.harn.mRecs rd.eid.toNat).writeSeq.toNat < r.writeSeq.toNat →
          t.harn.mRecs = tset EpRec.free s.harn.mRecs rd.eid.toNat r)) ∧
    (∀ c, ∃ t, exec (.mirrorCmd src ep c) s = .next t ∧ t.recs = s.recs ∧
      t.harn = { s.harn with ports := t.harn.ports, holdCmd := s.harn.holdCmd ++ [c] }) ∧
    (∃ t, exec (.release src ep 0 id) s = .next t ∧ t.recs = s.recs ∧
      t.harn = { s.harn with ports := t.harn.ports, holdRd := s.harn.holdRd.filter fun x => x.1 != id }) ∧
    (∃ t, exec (.release src ep 1 id) s = .next t ∧ t.recs = s.recs ∧
      t.harn = { s.harn with ports := t.harn.ports, holdRaw := s.harn.holdRaw.filter fun x => x.1 != id }) ∧
    (∃ t, exec (.release src ep 2 id) s = .next t ∧ t.recs = s.recs ∧
      t.harn = { s.harn with ports := t.harn.ports, holdCmd := s.harn.holdCmd.filter fun c => c.sq + 64 * c.tag.toNat != id }) ∧
    (∃ t, exec (.release src ep 3 id) s = .next t ∧ t.recs = s.recs ∧
      t.harn = { s.harn with ports := t.harn.ports,
                             holdCmd := s.harn.holdCmd.filter fun c => c.eid.toNat * 2 ^ 32 + c.ic.toNat != id })) ∧
  (∀ (s : State) (src e : Nat) (r : EpRec), awake s = true → mirrorFrom s src s.recs.epoch.toNat = true → returning s = none →
    s.harn.served = none → s.harn.inState = 0 → ∀ q, (s.harn.peers.find? fun p => p.1 == src) = some q →
    (q.2.dramSize ≤ s.recs.dramMib → ∃ t, exec (.syncCopy src (.epRec e r)) s = .next t ∧ t.harn.inState = 1 ∧
      t.harn.inPos = src ∧ t.harn.mRecs = tset EpRec.free [] e r ∧ t.harn.mEnts = [] ∧ t.harn.holdRaw = [] ∧
      t.harn.holdRd = [] ∧ t.harn.holdCmd = [] ∧ t.recs = s.recs) ∧
    (s.recs.dramMib < q.2.dramSize → ∃ t, exec (.syncCopy src (.epRec e r)) s = .next t ∧ t.harn = s.harn ∧
      t.recs = s.recs)) ∧
  (∀ s : State, awake s = true → returning s = none →
    (s.harn.outState = 1 → s.harn.syncLeft = 0 → ∃ t, exec .mirrorSyncComplete s = .next t ∧
      t.harn = { s.harn with outState := 2 } ∧ t.recs = s.recs) ∧
    (s.harn.outState ≠ 1 → s.harn.inState = 1 → ∃ t, exec .mirrorSyncComplete s = .next t ∧
      t.harn = { s.harn with inState := 2 } ∧ t.recs = s.recs)) ∧
  (∀ (s : State) (p : Nat), awake s = true → s.harn.gates ≠ [] → s.harn.shadow = some p → inMask s.harn.silentM p = true →
    s.harn.outState ≠ 0 → ∃ t, exec .mirrorGateTimeout s = .next t ∧ t.harn.gates = [] ∧ t.harn.outState = 0 ∧
      t.harn.outReason = 6 ∧ t.recs = s.recs)

/-- Silence and return: a position whose heartbeats stop for 2 µs is silent; a chip that then hears nothing and whose low does
not come back fences itself; the shadow of a pair that is ON takes the position over under a new epoch; a hung TC0 stage fences
unless the chip is alone. OP_HARN_RETURN waits for the copies and ends when they are complete, the position its own again;
OP_HARN_STATUS writes the ring's entries or the commands taken over. -/
def Obligations.SilenceTakeoverReturn : Prop :=
  (∀ (s : State) (p : Nat) (low : Bool), awake s = true → onRing s = true → p < 8 → p ≠ s.harn.pos →
    inMask s.harn.joinedM p = true → beatLost s p = true →
    (low = false → (∀ q, q < 8 → q ≠ s.harn.pos → q ≠ p → inMask s.harn.joinedM q = false) →
      ∃ t, exec (.silenceDeclared p low) s = .next t ∧ t.harn.fenced = true ∧ t.harn.beatsOff = true ∧
        inMask t.harn.silentM p = true ∧ inMask t.harn.joinedM p = false ∧ t.recs = s.recs) ∧
    (low = true → s.harn.inState = 2 → s.harn.inPos = p → s.pins.pfailLow = false → s.recs.owner.length = 8 →
      ∃ t, exec (.silenceDeclared p low) s = .next t ∧ t.harn.fenced = false ∧ t.harn.served = some p ∧
        serverOf t p = some s.harn.pos ∧ t.recs.epoch = s.recs.epoch + 1 ∧ t.harn.inState = 0 ∧
        t.harn.tkoCnt = min 255 (s.harn.tkoCnt + 1))) ∧
  (∀ s : State, awake s = true → onRing s = true → ∃ t, exec .tc0StageHang s = .next t ∧ t.harn.beatsOff = true ∧
    t.harn.fenced = othersJoined s ∧ t.recs = s.recs) ∧
  (∀ (s : State) (u : Nat) (f : Flight), Runs s u 0x71 f →
    (inHarness s = false → ∃ t, exec (.opHarnReturn u) s = .next t ∧ Completed s t f 0x41 0 0 0 ∧ rest t = rest s) ∧
    (∀ v, inHarness s = true → onRing s = true → serverOf s s.harn.pos = some v → v ≠ s.harn.pos → f.stage = .none →
      ∃ t g, exec (.opHarnReturn u) s = .next t ∧ flightOf t u = some g ∧ g.stage = .wait s.tcxo 2 0 ∧ g.step = 1 ∧
        rest t = rest s) ∧
    (inHarness s = true → onRing s = true → serverOf s s.harn.pos = some s.harn.pos → f.stage = .none →
      ∃ t, exec (.opHarnReturn u) s = .next t ∧ Completed s t f 8 0 0 (badResult 9 0 0) ∧ rest t = rest s)) ∧
  (∀ (s : State) (f : Flight), awake s = true → returning s = some f → f.discard = false → s.harn.pos < 8 →
    s.recs.owner.length = 8 → ∃ t, exec .mirrorSyncComplete s = .next t ∧ Formed t f 0 4 0 0 ∧
      serverOf t s.harn.pos = some s.harn.pos ∧ t.recs.epoch = s.recs.epoch + 1) ∧
  (∀ (s : State) (u : Nat) (f : Flight), Runs s u 0x70 f → s.host.linkDown = false →
    (dByte f.raw 24 1 = 0 → 128 ≤ dBufLen f.raw → ∃ t, exec (.opHarnStatusRing u) s = .next t ∧
      Completed s t f 0 0 0 (result4 8 0 0 0) ∧
      Wrote s t (dBufAddr f.raw) ((List.range 8).map (harnEntry s)).flatten ∧ t.harn = { s.harn with ports := t.harn.ports }) ∧
    (dByte f.raw 24 1 = 1 → 32 ≤ dBufLen f.raw → ∃ t, exec (.opHarnStatusTakenOver u) s = .next t ∧
      Completed s t f 0 0 0 (result4 ((s.harn.tko.filter fun e => e.status.isSome).take (dBufLen f.raw / 32)).length 0 0 0) ∧
      Wrote s t (dBufAddr f.raw)
        ((((s.harn.tko.filter fun e => e.status.isSome).take (dBufLen f.raw / 32)).map tkoBytes).flatten) ∧
      t.harn = { s.harn with ports := t.harn.ports }))

/-! ## Check metering and the Crevasse detector -/

/-- The metering second adds its sums, a failed check disables the front end; the seal loop latches at the third mismatch in a
row, or at the backup domain's pulse; inference intervals and windows end; a balance interval of a feeder is evaluated into one
numbered record; OP_FEEDER_MAP, OP_CAL_RESEAL and the four OP_CREVASSE_REPORT types complete with their effects.
A row that may change journaled state is stated for an open journal tail (log entry 12, the model's choice). -/
def Obligations.MeteringAndAnalysis : Prop :=
  (∀ (s : State) (x : MetSecond), awake s = true → feOn s = true →
    (∀ i, x.bad = some i → ∃ t, exec (.metrologySecond x) s = .next t ∧ (fnGet t 0x0600).st = .stopping ∧ t.met = s.met ∧
      t.recs = s.recs) ∧
    (x.bad = none → ∃ t, exec (.metrologySecond x) s = .next t ∧ t.met.secStart = nowSec s - 1 ∧ t.met.last = x ∧
      (∀ i, i < 12 → lget 0 t.met.energy i = lget 0 s.met.energy i + BitVec.ofInt 64 (lget 0 x.ener i) ∧
        lget 0 t.met.q i = lget 0 s.met.q i + BitVec.ofNat 64 (lget 0 x.qsum i)) ∧ t.recs = s.recs ∧ t.funcs = s.funcs)) ∧
  (∀ s : State, awake s = true →
    (drbgOpen s = true → (∃ t, exec (.sealLoopCheck true) s = .next t ∧
        t.met = { s.met with mis := 0, loopSince := some (s.met.loopSince.getD s.tcxo) }) ∧
      (s.met.mis + 1 < 3 → ∃ t, exec (.sealLoopCheck false) s = .next t ∧
        t.met = { s.met with mis := s.met.mis + 1, loopSince := none }) ∧
      (3 ≤ s.met.mis + 1 → ∃ t, exec (.sealLoopCheck false) s = .next t ∧ t.met.latched = true ∧ t.met.loopSince = none)) ∧
    (drbgOpen s = false → ∀ b, ∃ t, exec (.sealLoopCheck b) s = .next t ∧ t.met = s.met)) ∧
  (∀ s : State, s.pins.resetLow = true →
    (∃ t, exec (.sealLoopPulse true) s = .next t ∧ t.met = s.met) ∧
    (s.met.latched = false → ∃ t, exec (.sealLoopPulse false) s = .next t ∧
      t.met = { s.met with latched := true, latchDue := s.met.latchDue ++ [1] })) ∧
  (∀ s : State, awake s = true → s.met.ivK < infIdx s (nowSec s) → secondDue s = false → ∃ t m, exec .inferenceIntervalEnd s = .next t ∧
    t.met.means = (m :: s.met.means).take 16384 ∧ m.k = s.met.ivK ∧ m.noRef = decide (s.met.ivCnt < infLen s) ∧
    t.met.ivK = infIdx s (nowSec s) ∧ t.met.ivCnt = 0 ∧ t.recs = s.recs) ∧
  (∀ s : State, awake s = true → tailOpen s = true → crvOn s = true → s.met.winK + regFld s 0xB020 0 16 ≤ s.met.ivK →
    ∃ t, exec .inferenceWindowEnd s = .next t ∧ t.met.winK = s.met.winK + regFld s 0xB020 0 16 ∧
      ∀ e, wbit (recGet s e).gridLoc 4 = true → recGet t e = recGet s e) ∧
  (∀ (s : State) (n : Nat), awake s = true → n < 4 → crvOn s = true → (fdrGet s n).maps ≠ [] →
    balStart s ((fdrGet s n).next + 1) ≤ nowSec s → secondDue s = false →
    ((mapAt (fdrGet s n) (fdrGet s n).next).en = false → ∃ t, exec (.balanceEvaluation n) s = .next t ∧
      fdrGet t n = { fdrGet s n with next := (fdrGet s n).next + 1, st := 3, run := 0, clear := 0, neg := false } ∧
      (∀ x, x ≠ n → fdrGet t x = fdrGet s x) ∧ t.met.recs = s.met.recs ∧ t.recs = s.recs) ∧
    ((mapAt (fdrGet s n) (fdrGet s n).next).en = true → storeRoom s = true →
      (mappedOn s n).all (covers s (fdrGet s n).next) = true ∨
        balStart s ((fdrGet s n).next + 1) + 600 * regFld s 0xB000 8 8 ≤ nowSec s →
      ∃ t r, exec (.balanceEvaluation n) s = .next t ∧ t.met.recs = (r :: s.met.recs).take 16384 ∧ r.bseq = s.met.nextBseq ∧
        t.met.nextBseq = s.met.nextBseq + 1 ∧ r.feeder = n ∧ r.start = balStart s (fdrGet s n).next ∧
        r.d = r.eIn - r.eMet - r.lTech ∧ r.st = (fdrGet t n).st ∧ (fdrGet t n).next = (fdrGet s n).next + 1 ∧
        (∀ x, x ≠ n → fdrGet t x = fdrGet s x))) ∧
  (∀ (s : State) (u : Nat) (f : Flight), Runs s u 0x59 f →
    (∀ o, fmBad f.raw = some o → ∃ t, exec (.opFeederMap u) s = .next t ∧ Completed s t f 0x08 0 0 (badResult 9 o 0) ∧
      rest t = rest s) ∧
    (fmBad f.raw = none → ∃ t, exec (.opFeederMap u) s = .next t ∧ Completed s t f 0 3 0 0 ∧
      fdrGet t (dByte f.raw 24 1) = fdrSet (fdrGet s (dByte f.raw 24 1)) (fmMap f.raw) (balIdx s (nowSec s) + 1) ∧
      (∀ x, x ≠ dByte f.raw 24 1 → fdrGet t x = fdrGet s x) ∧ t.hostMem = s.hostMem ∧ t.recs.tab = s.recs.tab)) ∧
  (∀ (s : State) (u : Nat) (f : Flight) (b : List Byte) (a g : Bool), Runs s u 0x5A f →
    (∀ c, resealBad s f b a g = some c → ∃ t, exec (.opCalReseal u b a g) s = .next t ∧
      Completed s t f 0x08 0 0 (badResult 9 8 c) ∧ rest t = rest s) ∧
    (resealBad s f b a g = none → drbgOpen s = true → ∃ t, exec (.opCalReseal u b a g) s = .next t ∧
      Completed s t f 0 4 0 (result4 (sealState t) 0 0 0) ∧ t.met.resealSeq = BitVec.ofNat 32 (tb4 b 8) ∧
      t.met.sealedDig = s.boot.dLm ∧ t.met.latched = false ∧ t.met.calLock = (s.met.calLock || decide (2 ≤ rsFlags b)) ∧
      t.recs.tab = s.recs.tab)) ∧
  (∀ (s : State) (u : Nat) (f : Flight), Runs s u 0x58 f → s.host.linkDown = false →
    (∀ out, out = (s.met.recs.reverse.filter fun r => decide (dByte f.raw 28 4 ≤ r.bseq.toNat)).take (dBufLen f.raw / 64) →
      ∀ n, n = (match out.getLast? with
        | some r => r.bseq.toNat + 1
        | none => max (dByte f.raw 28 4) (if dByte f.raw 28 4 < (balOldest s).toNat then (balOldest s).toNat else 0)) →
      (dByte f.raw 24 1 = 0 → spanSet f.raw 25 1 = none → spanSet f.raw 34 2 = none → dByte f.raw 32 2 ≤ 10000 →
        dByte f.raw 32 2 = 0 ∨ (∃ r ∈ s.met.recs, dByte f.raw 28 4 ≤ r.bseq.toNat) →
        ∃ t, exec (.opCrevasseReportBalance u) s = .next t ∧
          Completed s t f 0 0 0 (result4 out.length n (balOldest s).toNat (b2n (decide (dByte f.raw 28 4 < (balOldest s).toNat)))) ∧
          Wrote s t (dBufAddr f.raw) (out.map balBytes).flatten ∧ t.met = s.met) ∧
      (∀ a ms x, f.stage = .wait a ms x → msPassed s a ms = true → ∃ t, exec (.crevasseReportWaitExpiry u) s = .next t ∧
        Completed s t f 0 0 0 (result4 out.length n (balOldest s).toNat (b2n (decide (dByte f.raw 28 4 < (balOldest s).toNat)))) ∧
        Wrote s t (dBufAddr f.raw) (out.map balBytes).flatten ∧ t.met = s.met)) ∧
    (dByte f.raw 24 1 = 0 → spanSet f.raw 25 1 = none → spanSet f.raw 34 2 = none → dByte f.raw 32 2 ≠ 0 →
      dByte f.raw 32 2 ≤ 10000 → (∀ r ∈ s.met.recs, r.bseq.toNat < dByte f.raw 28 4) → f.stage = .none →
      ∃ t g, exec (.opCrevasseReportBalance u) s = .next t ∧ flightOf t u = some g ∧
        g.stage = .wait s.tcxo (dByte f.raw 32 2) 0 ∧ t.hostMem = s.hostMem) ∧
    (∀ out, out = (s.met.meters.filterMap fun p =>
        if ((recGet s p.1).state == 1 || (recGet s p.1).state == 2) && eidHome p.1 == s.harn.pos &&
          decide (dByte f.raw 28 4 ≤ eidIndex p.1) then p.2.res.map fun e => (p.1, e) else none).take (dBufLen f.raw / 16) →
      dByte f.raw 24 1 = 1 → spanSet f.raw 25 1 = none → spanSet f.raw 32 4 = none →
      ∃ t, exec (.opCrevasseReportInference u) s = .next t ∧ Completed s t f 0 0 0 (result4 out.length
          (match out.getLast? with | some p => eidIndex p.1 + 1 | none => dByte f.raw 28 4) 0 0) ∧
        Wrote s t (dBufAddr f.raw) (out.map fun p => infBytes p.1 p.2).flatten ∧ t.met = s.met ∧ t.recs.tab = s.recs.tab) ∧
    (dByte f.raw 24 1 = 2 → spanSet f.raw 28 6 = none → dByte f.raw 25 1 < 4 → 16 ≤ dByte f.raw 34 2 →
      dByte f.raw 34 2 ≤ 672 →
      ((fnGet s 0x0A00).st = .off → ∃ t, exec (.opCrevasseReportScores u) s = .next t ∧ Completed s t f stNoStore 0 0 0 ∧
        rest t = rest s) ∧
      (∀ out, out = (((mappedOn s (dByte f.raw 25 1)).map (scoreOne s ((s.met.recs.filter fun r =>
          r.feeder == dByte f.raw 25 1 && r.flags % 8 == 0).take (dByte f.raw 34 2)))).foldr scoreIns []).take
          (dBufLen f.raw / 16) →
        (fnGet s 0x0A00).st = .on → ∃ t, exec (.opCrevasseReportScores u) s = .next t ∧
          Completed s t f 0 0 0 (result4 out.length 0 0 0) ∧ Wrote s t (dBufAddr f.raw) (out.map scoreBytes).flatten ∧
          t.met = s.met ∧ t.recs.tab = s.recs.tab)) ∧
    (dByte f.raw 24 1 = 3 → spanSet f.raw 25 1 = none → spanSet f.raw 28 8 = none →
      (feOn s = false → ∃ t, exec (.opCrevasseReportSnapshot u) s = .next t ∧ Completed s t f 0x41 0 0 0 ∧ rest t = rest s) ∧
      (feOn s = true → 128 ≤ dBufLen f.raw → ∃ t, exec (.opCrevasseReportSnapshot u) s = .next t ∧
        Completed s t f 0 0 0 (result4 1 0 0 0) ∧ Wrote s t (dBufAddr f.raw) (snapshotBytes s) ∧ t.met = s.met)))
end

