-- ==== Sys2Proof/Laws/Tables.lean ====
section
/-!
SUPPORT. What the sparse tables, lists and host memory satisfy: a read after a write, and the canonical form kept.
-/
namespace Sys2Proof.Machine
open Sys2Proof

theorem tget_tins_same {α : Type} (d : α) (t : Tab α) (i : Nat) (v : α) (h : ∀ p ∈ t, p.1 ≠ i) :
    tget d (tins t i v) i = v := by
  induction t with
  | nil => simp [tins, tget]
  | cons p t ih =>
    obtain ⟨k, x⟩ := p
    have hk : ¬ i = k := fun e => h (k, x) (by simp) e.symm
    simp only [tins]
    split
    · simp [tget]
    · simp [tget, hk, ih (fun q hq => h q (by simp [hq]))]

theorem tget_tins_other {α : Type} (d : α) (t : Tab α) (i j : Nat) (v : α) (h : j ≠ i) :
    tget d (tins t i v) j = tget d t j := by
  induction t with
  | nil => simp [tins, tget, h]
  | cons p t ih =>
    obtain ⟨k, x⟩ := p
    simp only [tins]
    split
    · simp [tget, h]
    · simp [tget, ih]

theorem tget_erase_same {α : Type} (d : α) (t : Tab α) (i : Nat) :
    tget d (t.filter fun p => p.1 != i) i = d := by
  induction t with
  | nil => simp [tget]
  | cons p t ih =>
    obtain ⟨k, x⟩ := p
    by_cases hk : k = i
    · simp [hk, ih]
    · simp [hk, tget, ih]; intro e; exact absurd e.symm hk

theorem tget_erase_other {α : Type} (d : α) (t : Tab α) (i j : Nat) (h : j ≠ i) :
    tget d (t.filter fun p => p.1 != i) j = tget d t j := by
  induction t with
  | nil => simp
  | cons p t ih =>
    obtain ⟨k, x⟩ := p
    by_cases hk : k = i
    · have : ¬ j = k := fun e => h (e.trans hk)
      simp [hk, tget, h, ih]
    · simp [hk, tget, ih]

/-- A table reads back what was set, whatever it held. -/
@[simp] theorem tget_tset_same {α : Type} [DecidableEq α] (d : α) (t : Tab α) (i : Nat) (v : α) :
    tget d (tset d t i v) i = v := by
  unfold tset
  split
  · simp [tget_erase_same, *]
  · exact tget_tins_same d _ i v (by simp)

/-- Setting one key leaves every other. -/
theorem tget_tset_other {α : Type} [DecidableEq α] (d : α) (t : Tab α) (i j : Nat) (v : α) (h : j ≠ i) :
    tget d (tset d t i v) j = tget d t j := by
  unfold tset
  split
  · exact tget_erase_other d t i j h
  · simp only [tget_tins_other d _ i j v h, tget_erase_other d t i j h]

/-- Both at once. -/
theorem tget_tset {α : Type} [DecidableEq α] (d : α) (t : Tab α) (i j : Nat) (v : α) :
    tget d (tset d t i v) j = if j = i then v else tget d t j := by
  split
  · next h => subst h; simp
  · next h => exact tget_tset_other d t i j v h

theorem twfFrom_weaken {α : Type} [DecidableEq α] (d : α) (lo hi : Nat) (t : Tab α) (hl : lo ≤ hi) :
    twfFrom d (some hi) t = true → twfFrom d (some lo) t = true := by
  cases t with
  | nil => simp [twfFrom]
  | cons p t =>
    obtain ⟨k, x⟩ := p
    simp only [twfFrom, Bool.and_eq_true, decide_eq_true_eq]
    intro ⟨⟨h1, h2⟩, h3⟩
    exact ⟨⟨by omega, h2⟩, h3⟩

theorem twfFrom_erase {α : Type} [DecidableEq α] (d : α) (t : Tab α) (i : Nat) (lo : Option Nat) :
    twfFrom d lo t = true → twfFrom d lo (t.filter fun p => p.1 != i) = true := by
  induction t generalizing lo with
  | nil => simp [twfFrom]
  | cons p t ih =>
    obtain ⟨k, x⟩ := p
    simp only [twfFrom, Bool.and_eq_true, decide_eq_true_eq]
    intro ⟨⟨h1, h2⟩, h3⟩
    by_cases hk : k = i
    · have h4 := ih (some k) h3
      simp only [hk, bne_self_eq_false, Bool.false_eq_true, not_false_eq_true, List.filter_cons_of_neg]
      cases lo with
      | none =>
        rw [hk] at h4
        revert h4
        cases t.filter fun p => p.1 != i with
        | nil => simp [twfFrom]
        | cons q u => obtain ⟨m, y⟩ := q; simp only [twfFrom, Bool.and_eq_true]; exact fun ⟨⟨_, b⟩, c⟩ => ⟨⟨trivial, b⟩, c⟩
      | some l =>
        have : l < k := by simpa using h1
        exact twfFrom_weaken d l i _ (by omega) (hk ▸ h4)
    · simp [hk, twfFrom, h1, h2, ih (some k) h3]

theorem twfFrom_tins {α : Type} [DecidableEq α] (d : α) (t : Tab α) (i : Nat) (v : α) (hv : v ≠ d)
    (hn : ∀ p ∈ t, p.1 ≠ i) (lo : Option Nat) (hlo : ∀ l, lo = some l → l < i) :
    twfFrom d lo t = true → twfFrom d lo (tins t i v) = true := by
  induction t generalizing lo with
  | nil =>
    intro _
    cases lo with
    | none => simp [tins, twfFrom, hv]
    | some l => simp [tins, twfFrom, hv, hlo l rfl]
  | cons p t ih =>
    obtain ⟨k, x⟩ := p
    simp only [twfFrom, Bool.and_eq_true, decide_eq_true_eq, tins]
    intro ⟨⟨h1, h2⟩, h3⟩
    have hik : k ≠ i := hn (k, x) (by simp)
    split
    · next h =>
      simp only [twfFrom, Bool.and_eq_true, decide_eq_true_eq]
      refine ⟨⟨?_, hv⟩, ⟨h, h2⟩, h3⟩
      cases lo with
      | none => rfl
      | some l => simpa using hlo l rfl
    · next h =>
      simp only [twfFrom, Bool.and_eq_true, decide_eq_true_eq]
      exact ⟨⟨h1, h2⟩, ih (fun q hq => hn q (by simp [hq])) (some k) (fun l e => by cases e; omega) h3⟩

/-- A write keeps a table's canonical form. -/
theorem twf_tset {α : Type} [DecidableEq α] (d : α) (t : Tab α) (i : Nat) (v : α) :
    twf d t = true → twf d (tset d t i v) = true := by
  intro h
  have he := twfFrom_erase d t i none h
  unfold tset twf
  split
  · exact he
  · next hv => exact twfFrom_tins d _ i v hv (by simp) none (by simp) he

/-! ## Host memory -/

@[simp] theorem memWrite_nil (m : Tab Byte) (a : Nat) : memWrite m a [] = m := rfl
@[simp] theorem memRead_length (m : Tab Byte) (a n : Nat) : (memRead m a n).length = n := by
  induction n generalizing a with
  | zero => rfl
  | succ n ih => simp [memRead, ih]

/-- A write keeps the memory's canonical form. -/
theorem twf_memWrite (m : Tab Byte) (a : Nat) (bs : List Byte) :
    twf (0 : Byte) m = true → twf (0 : Byte) (memWrite m a bs) = true := by
  induction bs generalizing m a with
  | nil => exact id
  | cons b bs ih => exact fun h => ih _ _ (twf_tset _ _ _ _ h)

/-- A byte outside what is written reads as before. -/
theorem memByte_memWrite_other (m : Tab Byte) (a b : Nat) (bs : List Byte) (h : b < a ∨ a + bs.length ≤ b) :
    memByte (memWrite m a bs) b = memByte m b := by
  induction bs generalizing m a with
  | nil => rfl
  | cons x bs ih =>
    simp only [List.length_cons] at h
    rw [memWrite, ih _ _ (by omega)]
    exact tget_tset_other _ _ _ _ _ (by omega)

/-- What is written reads back. -/
theorem memRead_memWrite (m : Tab Byte) (a : Nat) (bs : List Byte) :
    memRead (memWrite m a bs) a bs.length = bs := by
  induction bs generalizing m a with
  | nil => rfl
  | cons x bs ih =>
    simp only [List.length_cons, memRead, memWrite]
    rw [ih]
    congr 1
    rw [memByte_memWrite_other _ _ _ _ (by omega)]
    exact tget_tset_same _ _ _ _

/-! ## Lists -/

@[simp] theorem lset_length {α : Type} (l : List α) (n : Nat) (v : α) : (lset l n v).length = l.length := by
  induction l generalizing n with
  | nil => rfl
  | cons x l ih => cases n <;> simp [lset, ih]

theorem lget_lset_same {α : Type} (d : α) (l : List α) (n : Nat) (v : α) (h : n < l.length) :
    lget d (lset l n v) n = v := by
  induction l generalizing n with
  | nil => simp at h
  | cons x l ih => cases n with
    | zero => rfl
    | succ n => simp [lset, lget, ih n (by simpa using h)]

theorem lget_lset_other {α : Type} (d : α) (l : List α) (n m : Nat) (v : α) (h : m ≠ n) :
    lget d (lset l n v) m = lget d l m := by
  induction l generalizing n m with
  | nil => rfl
  | cons x l ih =>
    cases n with
    | zero => cases m with
      | zero => exact absurd rfl h
      | succ m => rfl
    | succ n => cases m with
      | zero => rfl
      | succ m => simp [lset, lget, ih n m (by omega)]

end Sys2Proof.Machine
end

