-- ==== Sys2Proof/Laws/Ops.lean ====
section
/-!
SUPPORT. What the shared operations can do, each said once: which fields they may change, and what they read back.
-/
namespace Sys2Proof.Machine
open Sys2Proof

/-! ## Reads after writes -/

@[simp] theorem fnGet_fnPut (s : State) (i : Nat) (f : Fn) : fnGet (fnPut s i f) i = f := by simp [fnGet, fnPut]
@[simp] theorem sqGet_sqPut (s : State) (q : Nat) (x : Sq) : sqGet (sqPut s q x) q = x := by simp [sqGet, sqPut]
@[simp] theorem cqGet_cqPut (s : State) (c : Nat) (x : Cq) : cqGet (cqPut s c x) c = x := by simp [cqGet, cqPut]
@[simp] theorem rrGet_rrPut (s : State) (r : Nat) (x : Rr) : rrGet (rrPut s r x) r = x := by simp [rrGet, rrPut]
@[simp] theorem cntGet_cntPut (s : State) (i : Nat) (v : BitVec 56) : cntGet (cntPut s i v) i = v := by
  simp [cntGet, cntPut]
@[simp] theorem smpGet_smpPut (s : State) (n : Nat) (x : Smp) : smpGet (smpPut s n x) n = x := by simp [smpGet, smpPut]
@[simp] theorem bwGet_bwPut (s : State) (p : Nat) (x : BwPort) : bwGet (bwPut s p x) p = x := by simp [bwGet, bwPut]
@[simp] theorem bucketGet_bucketPut (s : State) (c : Nat) (b : Bucket) : bucketGet (bucketPut s c b) c = b := by
  simp [bucketGet, bucketPut]

theorem sqGet_sqPut_ne (s : State) (p q : Nat) (x : Sq) (h : p ≠ q) : sqGet (sqPut s q x) p = sqGet s p := by
  simp [sqGet, sqPut, tget_tset_other _ _ _ _ _ h]
theorem cqGet_cqPut_ne (s : State) (p q : Nat) (x : Cq) (h : p ≠ q) : cqGet (cqPut s q x) p = cqGet s p := by
  simp [cqGet, cqPut, tget_tset_other _ _ _ _ _ h]
theorem rrGet_rrPut_ne (s : State) (p q : Nat) (x : Rr) (h : p ≠ q) : rrGet (rrPut s q x) p = rrGet s p := by
  simp [rrGet, rrPut, tget_tset_other _ _ _ _ _ h]
theorem fnGet_fnPut_ne (s : State) (p q : Nat) (x : Fn) (h : p ≠ q) : fnGet (fnPut s q x) p = fnGet s p := by
  simp [fnGet, fnPut, tget_tset_other _ _ _ _ _ h]
theorem cntGet_cntPut_ne (s : State) (i j : Nat) (v : BitVec 56) (h : i ≠ j) : cntGet (cntPut s j v) i = cntGet s i := by
  simp [cntGet, cntPut, tget_tset_other _ _ _ _ _ h]
theorem bwGet_bwPut_ne (s : State) (p q : Nat) (x : BwPort) (h : p ≠ q) : bwGet (bwPut s q x) p = bwGet s p := by
  simp [bwGet, bwPut, tget_tset_other _ _ _ _ _ h]
theorem smpGet_smpPut_ne (s : State) (p q : Nat) (x : Smp) (h : p ≠ q) : smpGet (smpPut s q x) p = smpGet s p := by
  simp [smpGet, smpPut, tget_tset_other _ _ _ _ _ h]

/-- A register reads back the word put into it. -/
@[simp] theorem regGet_regPut (s : State) (off : Nat) (w : Word) : regGet (regPut s off w) off = w := by
  simp only [regGet, regPut, tget_tset, if_true, BitVec.xor_assoc, BitVec.xor_self, BitVec.xor_zero]
/-- A register write leaves every other register. -/
theorem regGet_regPut_ne (s : State) (o p : Nat) (w : Word) (h : o ≠ p) : regGet (regPut s p w) o = regGet s o := by
  simp [regGet, regPut, tget_tset_other _ _ _ _ _ h]

/-! ## What a count, a message, a log event and a host write may change -/

theorem smpSee_eq (s : State) (n i k : Nat) (e : Word) : ∃ c, (smpSee s n i k e).1 = { s with cnt := c } := by
  unfold smpSee smpPut
  dsimp only
  repeat' split
  all_goals exact ⟨_, rfl⟩

theorem smpAll_eq (i k : Nat) (e : Word) (n : Nat) (p : State × List Nat) :
    ∃ c, (smpAll i k e n p).1 = { p.1 with cnt := c } := by
  induction n generalizing p with
  | zero => exact ⟨p.1.cnt, rfl⟩
  | succ n ih =>
    obtain ⟨s, vs⟩ := p
    obtain ⟨c, hc⟩ := smpSee_eq s n i k e
    simp only [smpAll]
    split <;> rename_i s' heq <;> rw [heq] at hc <;> simp only at hc <;> subst hc
    · obtain ⟨d, hd⟩ := ih ({ s with cnt := c }, fld (regGet s (0x800 + 0x20 * n)) 16 7 :: vs)
      exact ⟨d, by rw [hd]⟩
    · obtain ⟨d, hd⟩ := ih ({ s with cnt := c }, vs)
      exact ⟨d, by rw [hd]⟩

theorem cntRaw_eq (s : State) (i k : Nat) (e : Word) : ∃ c, (cntRaw s i k e).1 = { s with cnt := c } := by
  unfold cntRaw
  split
  · exact ⟨s.cnt, rfl⟩
  · obtain ⟨c, hc⟩ := smpAll_eq i k e 8 (cntPut s i (cntGet s i + BitVec.ofNat 56 k), [])
    exact ⟨c, by rw [hc]; rfl⟩

theorem msixAll_eq (fuel : Nat) (vs : List Nat) (s : State) :
    ∃ c p w, msixAll fuel vs s = { s with cnt := c, host := { s.host with msixPend := p }, wire := w } := by
  induction fuel generalizing vs s with
  | zero => exact ⟨s.cnt, s.host.msixPend, s.wire, rfl⟩
  | succ n ih =>
    cases vs with
    | nil => exact ⟨s.cnt, s.host.msixPend, s.wire, rfl⟩
    | cons v vs =>
      simp only [msixAll]
      split
      · obtain ⟨c, p, w, h⟩ := ih vs { s with host := { s.host with msixPend := tset false s.host.msixPend v true } }
        exact ⟨c, p, w, by rw [h]⟩
      · obtain ⟨c, hc⟩ := cntRaw_eq (bwTx { s with wire := .msix v :: s.wire } 66 4) 297 1 0xFFFFFFFF
        generalize cntRaw (bwTx { s with wire := .msix v :: s.wire } 66 4) 297 1 0xFFFFFFFF = r at hc ⊢
        obtain ⟨s', more⟩ := r
        simp only at hc ⊢
        obtain ⟨c', p, w, h⟩ := ih (vs ++ more) s'
        exact ⟨c', p, w, by rw [h, hc]; rfl⟩

/-- A message changes counters, pending bits and pins only. -/
theorem msix_eq (s : State) (v : Nat) :
    ∃ c p w, msix s v = { s with cnt := c, host := { s.host with msixPend := p }, wire := w } := msixAll_eq _ _ _

/-- A count changes counters, and what a sampler signals, only. -/
theorem cntAdd_eq (s : State) (i k : Nat) (e : Word) :
    ∃ c p w, cntAdd s i k e = { s with cnt := c, host := { s.host with msixPend := p }, wire := w } := by
  unfold cntAdd
  obtain ⟨c, hc⟩ := cntRaw_eq s i k e
  generalize cntRaw s i k e = r at hc ⊢
  obtain ⟨s', vs⟩ := r
  simp only at hc ⊢
  obtain ⟨c', p, w, h⟩ := msixAll_eq 18 vs s'
  exact ⟨c', p, w, by rw [h, hc]⟩

theorem cnt_eq (s : State) (i : Nat) :
    ∃ c p w, Machine.cnt s i = { s with cnt := c, host := { s.host with msixPend := p }, wire := w } := cntAdd_eq _ _ _ _

/-- A log event changes the log and what a count changes. -/
theorem logEvent_eq (code data : Nat) (s : State) :
    ∃ l c p w, logEvent code data s =
      { s with log := l, cnt := c, host := { s.host with msixPend := p }, wire := w } := by
  unfold logEvent logSuppress bucketPut
  simp only
  split
  · obtain ⟨c, p, w, h⟩ := cnt_eq _ 426
    exact ⟨_, c, p, w, by rw [h]⟩
  · split
    · obtain ⟨c, p, w, h⟩ := cnt_eq _ 426
      exact ⟨_, c, p, w, by rw [h]⟩
    · exact ⟨_, s.cnt, s.host.msixPend, s.wire, rfl⟩

/-- A write to host memory changes host memory, the port's meter and its pins only; with the link down it waits. -/
theorem hostPost_eq (s : State) (r : Bool) (a : Nat) (bs : List Byte) :
    ∃ c p w, hostPost s r a bs =
      { s with hostMem := if s.host.linkDown then s.hostMem else memWrite s.hostMem a bs, cnt := c,
               host := { s.host with posted := p }, wire := w } := by
  unfold hostPost
  split
  · exact ⟨s.cnt, _, s.wire, rfl⟩
  · exact ⟨_, s.host.posted, _, rfl⟩

theorem hostWriteMem_eq (s : State) (a : Nat) (bs : List Byte) :
    ∃ c p w, hostWriteMem s a bs =
      { s with hostMem := if s.host.linkDown then s.hostMem else memWrite s.hostMem a bs, cnt := c,
               host := { s.host with posted := p }, wire := w } := hostPost_eq s false a bs

theorem hostWriteData_eq (s : State) (a : Nat) (bs : List Byte) :
    ∃ c p w, hostWriteData s a bs =
      { s with hostMem := if s.host.linkDown then s.hostMem else memWrite s.hostMem a bs, cnt := c,
               host := { s.host with posted := p }, wire := w } := hostPost_eq s _ a bs

/-- A write to a register of the bank changes the bank, and logs what it ignored. -/
theorem regWrite_eq (s : State) (off : Nat) (w : Word) :
    ∃ r l c p q, regWrite s off w =
      { s with regs := r, log := l, cnt := c, host := { s.host with msixPend := p }, wire := q } := by
  unfold regWrite
  split
  · exact ⟨s.regs, s.log, s.cnt, s.host.msixPend, s.wire, rfl⟩
  · simp only
    split
    · exact ⟨_, s.log, s.cnt, s.host.msixPend, s.wire, rfl⟩
    · obtain ⟨l, c, p, q, h⟩ := logEvent_eq 0x0101 _ (regPut s off _)
      exact ⟨_, l, c, p, q, by unfold logIgnored; rw [h]; rfl⟩

end Sys2Proof.Machine
end

