-- ==== Sys2Proof/Laws/Flow.lean ====
section
/-!
SUPPORT. What forming a completion, a journal entry and a ring frame can do, each said once.
-/
namespace Sys2Proof.Machine
open Sys2Proof

/-- A ring frame changes the port, counters and pins only. -/
theorem ringSend_eq (s : State) (port kind : Nat) (args : List Nat) :
    ∃ h c p w, ringSend s port kind args =
      { s with harn := { s.harn with ports := h }, cnt := c, host := { s.host with msixPend := p }, wire := w } := by
  unfold ringSend portPut
  dsimp only
  obtain ⟨c, p, w, h⟩ := cnt_eq _ (384 + outPort s port)
  exact ⟨_, c, p, w, by rw [h]⟩

theorem mirrorSend_eq (s : State) (kind : Nat) (args : List Nat) :
    ∃ h c p w, mirrorSend s kind args =
      { s with harn := { s.harn with ports := h }, cnt := c, host := { s.host with msixPend := p }, wire := w } := by
  unfold mirrorSend
  split
  · obtain ⟨h, c, p, w, e⟩ := ringSend_eq s 0 kind args
    obtain ⟨c', p', w', e'⟩ := cnt_eq (ringSend s 0 kind args) 390
    exact ⟨h, c', p', w', by rw [e', e]⟩
  · exact ⟨s.harn.ports, s.cnt, s.host.msixPend, s.wire, rfl⟩

/-- A change of a journal entry goes to the journal tail and the shadow. -/
theorem jrnlMirror_eq (s : State) (uid : Nat) :
    ∃ j jw q h c p w, jrnlMirror s uid =
      { s with recs := { s.recs with jtail := j, jwait := jw, jseq := q }, harn := { s.harn with ports := h }, cnt := c,
               host := { s.host with msixPend := p }, wire := w } := by
  unfold jrnlMirror
  split
  · exact ⟨s.recs.jtail, s.recs.jwait, s.recs.jseq, s.harn.ports, s.cnt, s.host.msixPend, s.wire, rfl⟩
  · dsimp only
    obtain ⟨h, c, p, w, e⟩ := mirrorSend_eq s 0x11 [12, uid]
    generalize mirrorSend s 0x11 [12, uid] = u at e ⊢
    subst e
    obtain ⟨c', p', w', e'⟩ := cnt_eq _ 361
    exact ⟨_, _, _, h, c', p', w', by rw [e']; rfl⟩

/-- A state that differs from another in what a journal entry's change may change. -/
def jState (s : State) (l : List JrnlEnt) (j jw : List JTail) (q : Nat) (h : Tab HPort) (c : CntSt) (p : Tab Bool)
    (w : List WireEv) : State :=
  { s with
    recs := { s.recs with jtail := j, jwait := jw, jseq := q }
    harn := { s.harn with ports := h }
    cnt := c
    host := { s.host with jrnl := l, msixPend := p }
    wire := w }

theorem jrnlMod_eq (s : State) (uid : Nat) (g : JrnlEnt → JrnlEnt) :
    ∃ l j jw q h c p w, jrnlMod s uid g = jState s l j jw q h c p w := by
  unfold jrnlMod
  obtain ⟨j, jw, q, h, c, p, w, e⟩ := jrnlMirror_eq
    { s with host := { s.host with jrnl := s.host.jrnl.map fun e => if e.uid = uid then g e else e } } uid
  exact ⟨_, j, jw, q, h, c, p, w, by rw [e]; rfl⟩

theorem flightPut_cqPut_eq (s : State) (c : Nat) (x : Cq) (f : Flight) :
    ∃ fl cq, flightPut (cqPut s c x) f = { s with host := { s.host with flights := fl, cq := cq } } :=
  ⟨s.host.flights.map fun g => if g.uid = f.uid then f else g, tset Cq.idle s.host.cq c x, rfl⟩

/-- What forming a completion may change, whatever it forms. -/
theorem completeAfter_eq (s : State) (f : Flight) (status step units : Nat) (res : BitVec 128) (a : Option Nat) :
    ∃ l j jw q h c p w fl cq, completeAfter s f status step units res a =
      { s with recs := { s.recs with jtail := j, jwait := jw, jseq := q }, harn := { s.harn with ports := h }, cnt := c,
               host := { s.host with jrnl := l, msixPend := p, flights := fl, cq := cq }, wire := w } := by
  unfold completeAfter
  dsimp only
  obtain ⟨l, j, jw, q, h, c, p, w, e⟩ := jrnlMod_eq s f.uid fun e =>
    if f.discard then { e with progress := progWord step units, status := BitVec.ofNat 8 status, jstate := 3 }
    else { e with progress := progWord step units }
  generalize jrnlMod s f.uid _ = u at e ⊢
  subst e
  split
  · exact ⟨_, j, jw, q, h, c, p, w, _, s.host.cq, rfl⟩
  · split
    · obtain ⟨fl, cq, e2⟩ := flightPut_cqPut_eq (jState s l j jw q h c p w) f.cq _ _
      exact ⟨l, j, jw, q, h, c, p, w, fl, cq, e2⟩
    · obtain ⟨c', p', w', e'⟩ := cnt_eq (jState s l j jw q h c p w) 299
      rw [e']
      obtain ⟨fl, cq, e2⟩ := flightPut_cqPut_eq { jState s l j jw q h c p w with
        cnt := c'
        host := { (jState s l j jw q h c p w).host with msixPend := p' }
        wire := w' } f.cq _ _
      exact ⟨l, j, jw, q, h, c', p', w', fl, cq, e2⟩

theorem complete_eq (s : State) (f : Flight) (status step units : Nat) (res : BitVec 128) :
    ∃ l j jw q h c p w fl cq, complete s f status step units res =
      { s with recs := { s.recs with jtail := j, jwait := jw, jseq := q }, harn := { s.harn with ports := h }, cnt := c,
               host := { s.host with jrnl := l, msixPend := p, flights := fl, cq := cq }, wire := w } :=
  completeAfter_eq s f status step units res none

/-- The completion a descriptor's outcome becomes (02 R63, R83). -/
def cplOf (s : State) (f : Flight) (status step units : Nat) (res : BitVec 128) (a : Option Nat) : Cpl :=
  { uid := f.uid, unsol := false, sq := f.sq, tag := dTag f.raw, status := BitVec.ofNat 8 status,
    progress := progWord step units, dt := dtOf s, result := res, irqNow := dIrqNow f.raw, headIdx := f.idx, after := a,
    tc0 := false }

/-- It stands last on its completion ring; nothing else of the ring changes. -/
theorem completeAfter_cq (s : State) (f : Flight) (status step units : Nat) (res : BitVec 128) (a : Option Nat)
    (hd : f.discard = false) :
    cqGet (completeAfter s f status step units res a) f.cq =
      { cqGet s f.cq with waiting := (cqGet s f.cq).waiting ++ [cplOf s f status step units res a] } := by
  unfold completeAfter
  dsimp only
  obtain ⟨l, j, jw, q, h, c, p, w, e⟩ := jrnlMod_eq s f.uid fun e =>
    if f.discard then { e with progress := progWord step units, status := BitVec.ofNat 8 status, jstate := 3 }
    else { e with progress := progWord step units }
  generalize jrnlMod s f.uid _ = u at e ⊢
  subst e
  simp only [hd, Bool.false_eq_true, if_false]
  split
  · simp [jState, flightPut, cqGet, cqPut, cplOf, dtOf]
  · obtain ⟨c', p', w', e'⟩ := cnt_eq (jState s l j jw q h c p w) 299
    rw [e']
    simp [jState, flightPut, cqGet, cqPut, cplOf, dtOf]

theorem complete_cq (s : State) (f : Flight) (status step units : Nat) (res : BitVec 128) (hd : f.discard = false) :
    cqGet (complete s f status step units res) f.cq =
      { cqGet s f.cq with waiting := (cqGet s f.cq).waiting ++ [cplOf s f status step units res none] } :=
  completeAfter_cq s f status step units res none hd

/-! ## What a row starts with -/

theorem withDesc_run (s : State) (uid op : Nat) (g : Flight → State) (f : Flight) (h : runnable s uid op = some f)
    (hs : stateShut s uid = false) : withDesc s uid op g = g f := by simp [withDesc, h, hs]

theorem withSub_run (s : State) (uid op byte sub : Nat) (listed : List Nat) (g : Flight → State) (f : Flight)
    (h : runnable s uid op = some f) (hs : stateShut s uid = false) (hv : dByte f.raw byte 1 = sub) :
    withSub s uid op byte sub listed g = g f := by
  simp [withSub, withDesc, h, hs, hv]

/-- A descriptor whose record no longer lets it start is refused (03 R96). -/
theorem withDesc_shut (s : State) (uid op : Nat) (g : Flight → State) (f : Flight) (h : runnable s uid op = some f)
    (hs : stateShut s uid = true) : withDesc s uid op g = bad (klFail s f) f rsParam 4 := by
  simp [withDesc, h, hs]

/-- A row whose descriptor cannot run does nothing (log entry 9). -/
theorem withDesc_none (s : State) (uid op : Nat) (g : Flight → State) (h : runnable s uid op = none) :
    withDesc s uid op g = s := by simp [withDesc, h]

end Sys2Proof.Machine
end

