-- ==== Sys2Proof/Laws/Frames.lean ====
section
/-!
SUPPORT. The frames of the shared operations, one equation a field, so that no proof unfolds one of them.
-/
namespace Sys2Proof.Machine
open Sys2Proof

/-! ## cnt -/

@[simp] theorem cnt_regs (s : State) (i : Nat) : (Machine.cnt s i).regs = s.regs := by obtain ⟨_, _, _, h⟩ := cnt_eq s i; rw [h]
@[simp] theorem cnt_glob (s : State) (i : Nat) : (Machine.cnt s i).glob = s.glob := by obtain ⟨_, _, _, h⟩ := cnt_eq s i; rw [h]
@[simp] theorem cnt_pins (s : State) (i : Nat) : (Machine.cnt s i).pins = s.pins := by obtain ⟨_, _, _, h⟩ := cnt_eq s i; rw [h]
@[simp] theorem cnt_funcs (s : State) (i : Nat) : (Machine.cnt s i).funcs = s.funcs := by obtain ⟨_, _, _, h⟩ := cnt_eq s i; rw [h]
@[simp] theorem cnt_host_sq (s : State) (i : Nat) : (Machine.cnt s i).host.sq = s.host.sq := by obtain ⟨_, _, _, h⟩ := cnt_eq s i; rw [h]
@[simp] theorem cnt_host_cq (s : State) (i : Nat) : (Machine.cnt s i).host.cq = s.host.cq := by obtain ⟨_, _, _, h⟩ := cnt_eq s i; rw [h]
@[simp] theorem cnt_host_rr (s : State) (i : Nat) : (Machine.cnt s i).host.rr = s.host.rr := by obtain ⟨_, _, _, h⟩ := cnt_eq s i; rw [h]
@[simp] theorem cnt_host_flights (s : State) (i : Nat) : (Machine.cnt s i).host.flights = s.host.flights := by obtain ⟨_, _, _, h⟩ := cnt_eq s i; rw [h]
@[simp] theorem cnt_host_pushBuf (s : State) (i : Nat) : (Machine.cnt s i).host.pushBuf = s.host.pushBuf := by obtain ⟨_, _, _, h⟩ := cnt_eq s i; rw [h]
@[simp] theorem cnt_host_admQ (s : State) (i : Nat) : (Machine.cnt s i).host.admQ = s.host.admQ := by obtain ⟨_, _, _, h⟩ := cnt_eq s i; rw [h]
@[simp] theorem cnt_host_jrnl (s : State) (i : Nat) : (Machine.cnt s i).host.jrnl = s.host.jrnl := by obtain ⟨_, _, _, h⟩ := cnt_eq s i; rw [h]
@[simp] theorem cnt_host_deliv (s : State) (i : Nat) : (Machine.cnt s i).host.deliv = s.host.deliv := by obtain ⟨_, _, _, h⟩ := cnt_eq s i; rw [h]
@[simp] theorem cnt_host_peak (s : State) (i : Nat) : (Machine.cnt s i).host.peak = s.host.peak := by obtain ⟨_, _, _, h⟩ := cnt_eq s i; rw [h]
@[simp] theorem cnt_host_dbDrop (s : State) (i : Nat) : (Machine.cnt s i).host.dbDrop = s.host.dbDrop := by obtain ⟨_, _, _, h⟩ := cnt_eq s i; rw [h]
@[simp] theorem cnt_host_pushDrop (s : State) (i : Nat) : (Machine.cnt s i).host.pushDrop = s.host.pushDrop := by obtain ⟨_, _, _, h⟩ := cnt_eq s i; rw [h]
@[simp] theorem cnt_host_pushOvf (s : State) (i : Nat) : (Machine.cnt s i).host.pushOvf = s.host.pushOvf := by obtain ⟨_, _, _, h⟩ := cnt_eq s i; rw [h]
@[simp] theorem cnt_host_unsolCnt (s : State) (i : Nat) : (Machine.cnt s i).host.unsolCnt = s.host.unsolCnt := by obtain ⟨_, _, _, h⟩ := cnt_eq s i; rw [h]
@[simp] theorem cnt_host_msixMask (s : State) (i : Nat) : (Machine.cnt s i).host.msixMask = s.host.msixMask := by obtain ⟨_, _, _, h⟩ := cnt_eq s i; rw [h]
@[simp] theorem cnt_host_uidNext (s : State) (i : Nat) : (Machine.cnt s i).host.uidNext = s.host.uidNext := by obtain ⟨_, _, _, h⟩ := cnt_eq s i; rw [h]
@[simp] theorem cnt_host_delivNext (s : State) (i : Nat) : (Machine.cnt s i).host.delivNext = s.host.delivNext := by obtain ⟨_, _, _, h⟩ := cnt_eq s i; rw [h]
@[simp] theorem cnt_host_lastRead (s : State) (i : Nat) : (Machine.cnt s i).host.lastRead = s.host.lastRead := by obtain ⟨_, _, _, h⟩ := cnt_eq s i; rw [h]
@[simp] theorem cnt_host_linkDown (s : State) (i : Nat) : (Machine.cnt s i).host.linkDown = s.host.linkDown := by obtain ⟨_, _, _, h⟩ := cnt_eq s i; rw [h]
@[simp] theorem cnt_host_posted (s : State) (i : Nat) : (Machine.cnt s i).host.posted = s.host.posted := by obtain ⟨_, _, _, h⟩ := cnt_eq s i; rw [h]
@[simp] theorem cnt_host_pcie (s : State) (i : Nat) : (Machine.cnt s i).host.pcie = s.host.pcie := by obtain ⟨_, _, _, h⟩ := cnt_eq s i; rw [h]
@[simp] theorem cnt_log (s : State) (i : Nat) : (Machine.cnt s i).log = s.log := by obtain ⟨_, _, _, h⟩ := cnt_eq s i; rw [h]
@[simp] theorem cnt_flt (s : State) (i : Nat) : (Machine.cnt s i).flt = s.flt := by obtain ⟨_, _, _, h⟩ := cnt_eq s i; rw [h]
@[simp] theorem cnt_recs (s : State) (i : Nat) : (Machine.cnt s i).recs = s.recs := by obtain ⟨_, _, _, h⟩ := cnt_eq s i; rw [h]
@[simp] theorem cnt_upd (s : State) (i : Nat) : (Machine.cnt s i).upd = s.upd := by obtain ⟨_, _, _, h⟩ := cnt_eq s i; rw [h]
@[simp] theorem cnt_boot (s : State) (i : Nat) : (Machine.cnt s i).boot = s.boot := by obtain ⟨_, _, _, h⟩ := cnt_eq s i; rw [h]
@[simp] theorem cnt_time (s : State) (i : Nat) : (Machine.cnt s i).time = s.time := by obtain ⟨_, _, _, h⟩ := cnt_eq s i; rw [h]
@[simp] theorem cnt_harn (s : State) (i : Nat) : (Machine.cnt s i).harn = s.harn := by obtain ⟨_, _, _, h⟩ := cnt_eq s i; rw [h]
@[simp] theorem cnt_rp (s : State) (i : Nat) : (Machine.cnt s i).rp = s.rp := by obtain ⟨_, _, _, h⟩ := cnt_eq s i; rw [h]
@[simp] theorem cnt_keys (s : State) (i : Nat) : (Machine.cnt s i).keys = s.keys := by obtain ⟨_, _, _, h⟩ := cnt_eq s i; rw [h]
@[simp] theorem cnt_sealU (s : State) (i : Nat) : (Machine.cnt s i).sealU = s.sealU := by obtain ⟨_, _, _, h⟩ := cnt_eq s i; rw [h]
@[simp] theorem cnt_ce (s : State) (i : Nat) : (Machine.cnt s i).ce = s.ce := by obtain ⟨_, _, _, h⟩ := cnt_eq s i; rw [h]
@[simp] theorem cnt_bill (s : State) (i : Nat) : (Machine.cnt s i).bill = s.bill := by obtain ⟨_, _, _, h⟩ := cnt_eq s i; rw [h]
@[simp] theorem cnt_chan (s : State) (i : Nat) : (Machine.cnt s i).chan = s.chan := by obtain ⟨_, _, _, h⟩ := cnt_eq s i; rw [h]
@[simp] theorem cnt_cmd (s : State) (i : Nat) : (Machine.cnt s i).cmd = s.cmd := by obtain ⟨_, _, _, h⟩ := cnt_eq s i; rw [h]
@[simp] theorem cnt_air (s : State) (i : Nat) : (Machine.cnt s i).air = s.air := by obtain ⟨_, _, _, h⟩ := cnt_eq s i; rw [h]
@[simp] theorem cnt_store (s : State) (i : Nat) : (Machine.cnt s i).store = s.store := by obtain ⟨_, _, _, h⟩ := cnt_eq s i; rw [h]
@[simp] theorem cnt_met (s : State) (i : Nat) : (Machine.cnt s i).met = s.met := by obtain ⟨_, _, _, h⟩ := cnt_eq s i; rw [h]
@[simp] theorem cnt_hostMem (s : State) (i : Nat) : (Machine.cnt s i).hostMem = s.hostMem := by obtain ⟨_, _, _, h⟩ := cnt_eq s i; rw [h]
@[simp] theorem cnt_tcxo (s : State) (i : Nat) : (Machine.cnt s i).tcxo = s.tcxo := by obtain ⟨_, _, _, h⟩ := cnt_eq s i; rw [h]
@[simp] theorem cnt_free (s : State) (i : Nat) : (Machine.cnt s i).free = s.free := by obtain ⟨_, _, _, h⟩ := cnt_eq s i; rw [h]
@[simp] theorem cnt_pending (s : State) (i : Nat) : (Machine.cnt s i).pending = s.pending := by obtain ⟨_, _, _, h⟩ := cnt_eq s i; rw [h]

/-! ## cntAdd -/

@[simp] theorem cntAdd_regs (s : State) (i k : Nat) (e : Word) : (Machine.cntAdd s i k e).regs = s.regs := by obtain ⟨_, _, _, h⟩ := cntAdd_eq s i k e; rw [h]
@[simp] theorem cntAdd_glob (s : State) (i k : Nat) (e : Word) : (Machine.cntAdd s i k e).glob = s.glob := by obtain ⟨_, _, _, h⟩ := cntAdd_eq s i k e; rw [h]
@[simp] theorem cntAdd_pins (s : State) (i k : Nat) (e : Word) : (Machine.cntAdd s i k e).pins = s.pins := by obtain ⟨_, _, _, h⟩ := cntAdd_eq s i k e; rw [h]
@[simp] theorem cntAdd_funcs (s : State) (i k : Nat) (e : Word) : (Machine.cntAdd s i k e).funcs = s.funcs := by obtain ⟨_, _, _, h⟩ := cntAdd_eq s i k e; rw [h]
@[simp] theorem cntAdd_host_sq (s : State) (i k : Nat) (e : Word) : (Machine.cntAdd s i k e).host.sq = s.host.sq := by obtain ⟨_, _, _, h⟩ := cntAdd_eq s i k e; rw [h]
@[simp] theorem cntAdd_host_cq (s : State) (i k : Nat) (e : Word) : (Machine.cntAdd s i k e).host.cq = s.host.cq := by obtain ⟨_, _, _, h⟩ := cntAdd_eq s i k e; rw [h]
@[simp] theorem cntAdd_host_rr (s : State) (i k : Nat) (e : Word) : (Machine.cntAdd s i k e).host.rr = s.host.rr := by obtain ⟨_, _, _, h⟩ := cntAdd_eq s i k e; rw [h]
@[simp] theorem cntAdd_host_flights (s : State) (i k : Nat) (e : Word) : (Machine.cntAdd s i k e).host.flights = s.host.flights := by obtain ⟨_, _, _, h⟩ := cntAdd_eq s i k e; rw [h]
@[simp] theorem cntAdd_host_pushBuf (s : State) (i k : Nat) (e : Word) : (Machine.cntAdd s i k e).host.pushBuf = s.host.pushBuf := by obtain ⟨_, _, _, h⟩ := cntAdd_eq s i k e; rw [h]
@[simp] theorem cntAdd_host_admQ (s : State) (i k : Nat) (e : Word) : (Machine.cntAdd s i k e).host.admQ = s.host.admQ := by obtain ⟨_, _, _, h⟩ := cntAdd_eq s i k e; rw [h]
@[simp] theorem cntAdd_host_jrnl (s : State) (i k : Nat) (e : Word) : (Machine.cntAdd s i k e).host.jrnl = s.host.jrnl := by obtain ⟨_, _, _, h⟩ := cntAdd_eq s i k e; rw [h]
@[simp] theorem cntAdd_host_deliv (s : State) (i k : Nat) (e : Word) : (Machine.cntAdd s i k e).host.deliv = s.host.deliv := by obtain ⟨_, _, _, h⟩ := cntAdd_eq s i k e; rw [h]
@[simp] theorem cntAdd_host_peak (s : State) (i k : Nat) (e : Word) : (Machine.cntAdd s i k e).host.peak = s.host.peak := by obtain ⟨_, _, _, h⟩ := cntAdd_eq s i k e; rw [h]
@[simp] theorem cntAdd_host_dbDrop (s : State) (i k : Nat) (e : Word) : (Machine.cntAdd s i k e).host.dbDrop = s.host.dbDrop := by obtain ⟨_, _, _, h⟩ := cntAdd_eq s i k e; rw [h]
@[simp] theorem cntAdd_host_pushDrop (s : State) (i k : Nat) (e : Word) : (Machine.cntAdd s i k e).host.pushDrop = s.host.pushDrop := by obtain ⟨_, _, _, h⟩ := cntAdd_eq s i k e; rw [h]
@[simp] theorem cntAdd_host_pushOvf (s : State) (i k : Nat) (e : Word) : (Machine.cntAdd s i k e).host.pushOvf = s.host.pushOvf := by obtain ⟨_, _, _, h⟩ := cntAdd_eq s i k e; rw [h]
@[simp] theorem cntAdd_host_unsolCnt (s : State) (i k : Nat) (e : Word) : (Machine.cntAdd s i k e).host.unsolCnt = s.host.unsolCnt := by obtain ⟨_, _, _, h⟩ := cntAdd_eq s i k e; rw [h]
@[simp] theorem cntAdd_host_msixMask (s : State) (i k : Nat) (e : Word) : (Machine.cntAdd s i k e).host.msixMask = s.host.msixMask := by obtain ⟨_, _, _, h⟩ := cntAdd_eq s i k e; rw [h]
@[simp] theorem cntAdd_host_uidNext (s : State) (i k : Nat) (e : Word) : (Machine.cntAdd s i k e).host.uidNext = s.host.uidNext := by obtain ⟨_, _, _, h⟩ := cntAdd_eq s i k e; rw [h]
@[simp] theorem cntAdd_host_delivNext (s : State) (i k : Nat) (e : Word) : (Machine.cntAdd s i k e).host.delivNext = s.host.delivNext := by obtain ⟨_, _, _, h⟩ := cntAdd_eq s i k e; rw [h]
@[simp] theorem cntAdd_host_lastRead (s : State) (i k : Nat) (e : Word) : (Machine.cntAdd s i k e).host.lastRead = s.host.lastRead := by obtain ⟨_, _, _, h⟩ := cntAdd_eq s i k e; rw [h]
@[simp] theorem cntAdd_host_linkDown (s : State) (i k : Nat) (e : Word) : (Machine.cntAdd s i k e).host.linkDown = s.host.linkDown := by obtain ⟨_, _, _, h⟩ := cntAdd_eq s i k e; rw [h]
@[simp] theorem cntAdd_host_posted (s : State) (i k : Nat) (e : Word) : (Machine.cntAdd s i k e).host.posted = s.host.posted := by obtain ⟨_, _, _, h⟩ := cntAdd_eq s i k e; rw [h]
@[simp] theorem cntAdd_host_pcie (s : State) (i k : Nat) (e : Word) : (Machine.cntAdd s i k e).host.pcie = s.host.pcie := by obtain ⟨_, _, _, h⟩ := cntAdd_eq s i k e; rw [h]
@[simp] theorem cntAdd_log (s : State) (i k : Nat) (e : Word) : (Machine.cntAdd s i k e).log = s.log := by obtain ⟨_, _, _, h⟩ := cntAdd_eq s i k e; rw [h]
@[simp] theorem cntAdd_flt (s : State) (i k : Nat) (e : Word) : (Machine.cntAdd s i k e).flt = s.flt := by obtain ⟨_, _, _, h⟩ := cntAdd_eq s i k e; rw [h]
@[simp] theorem cntAdd_recs (s : State) (i k : Nat) (e : Word) : (Machine.cntAdd s i k e).recs = s.recs := by obtain ⟨_, _, _, h⟩ := cntAdd_eq s i k e; rw [h]
@[simp] theorem cntAdd_upd (s : State) (i k : Nat) (e : Word) : (Machine.cntAdd s i k e).upd = s.upd := by obtain ⟨_, _, _, h⟩ := cntAdd_eq s i k e; rw [h]
@[simp] theorem cntAdd_boot (s : State) (i k : Nat) (e : Word) : (Machine.cntAdd s i k e).boot = s.boot := by obtain ⟨_, _, _, h⟩ := cntAdd_eq s i k e; rw [h]
@[simp] theorem cntAdd_time (s : State) (i k : Nat) (e : Word) : (Machine.cntAdd s i k e).time = s.time := by obtain ⟨_, _, _, h⟩ := cntAdd_eq s i k e; rw [h]
@[simp] theorem cntAdd_harn (s : State) (i k : Nat) (e : Word) : (Machine.cntAdd s i k e).harn = s.harn := by obtain ⟨_, _, _, h⟩ := cntAdd_eq s i k e; rw [h]
@[simp] theorem cntAdd_rp (s : State) (i k : Nat) (e : Word) : (Machine.cntAdd s i k e).rp = s.rp := by obtain ⟨_, _, _, h⟩ := cntAdd_eq s i k e; rw [h]
@[simp] theorem cntAdd_keys (s : State) (i k : Nat) (e : Word) : (Machine.cntAdd s i k e).keys = s.keys := by obtain ⟨_, _, _, h⟩ := cntAdd_eq s i k e; rw [h]
@[simp] theorem cntAdd_sealU (s : State) (i k : Nat) (e : Word) : (Machine.cntAdd s i k e).sealU = s.sealU := by obtain ⟨_, _, _, h⟩ := cntAdd_eq s i k e; rw [h]
@[simp] theorem cntAdd_ce (s : State) (i k : Nat) (e : Word) : (Machine.cntAdd s i k e).ce = s.ce := by obtain ⟨_, _, _, h⟩ := cntAdd_eq s i k e; rw [h]
@[simp] theorem cntAdd_bill (s : State) (i k : Nat) (e : Word) : (Machine.cntAdd s i k e).bill = s.bill := by obtain ⟨_, _, _, h⟩ := cntAdd_eq s i k e; rw [h]
@[simp] theorem cntAdd_chan (s : State) (i k : Nat) (e : Word) : (Machine.cntAdd s i k e).chan = s.chan := by obtain ⟨_, _, _, h⟩ := cntAdd_eq s i k e; rw [h]
@[simp] theorem cntAdd_cmd (s : State) (i k : Nat) (e : Word) : (Machine.cntAdd s i k e).cmd = s.cmd := by obtain ⟨_, _, _, h⟩ := cntAdd_eq s i k e; rw [h]
@[simp] theorem cntAdd_air (s : State) (i k : Nat) (e : Word) : (Machine.cntAdd s i k e).air = s.air := by obtain ⟨_, _, _, h⟩ := cntAdd_eq s i k e; rw [h]
@[simp] theorem cntAdd_store (s : State) (i k : Nat) (e : Word) : (Machine.cntAdd s i k e).store = s.store := by obtain ⟨_, _, _, h⟩ := cntAdd_eq s i k e; rw [h]
@[simp] theorem cntAdd_met (s : State) (i k : Nat) (e : Word) : (Machine.cntAdd s i k e).met = s.met := by obtain ⟨_, _, _, h⟩ := cntAdd_eq s i k e; rw [h]
@[simp] theorem cntAdd_hostMem (s : State) (i k : Nat) (e : Word) : (Machine.cntAdd s i k e).hostMem = s.hostMem := by obtain ⟨_, _, _, h⟩ := cntAdd_eq s i k e; rw [h]
@[simp] theorem cntAdd_tcxo (s : State) (i k : Nat) (e : Word) : (Machine.cntAdd s i k e).tcxo = s.tcxo := by obtain ⟨_, _, _, h⟩ := cntAdd_eq s i k e; rw [h]
@[simp] theorem cntAdd_free (s : State) (i k : Nat) (e : Word) : (Machine.cntAdd s i k e).free = s.free := by obtain ⟨_, _, _, h⟩ := cntAdd_eq s i k e; rw [h]
@[simp] theorem cntAdd_pending (s : State) (i k : Nat) (e : Word) : (Machine.cntAdd s i k e).pending = s.pending := by obtain ⟨_, _, _, h⟩ := cntAdd_eq s i k e; rw [h]

/-! ## msix -/

@[simp] theorem msix_regs (s : State) (v : Nat) : (Machine.msix s v).regs = s.regs := by obtain ⟨_, _, _, h⟩ := msix_eq s v; rw [h]
@[simp] theorem msix_glob (s : State) (v : Nat) : (Machine.msix s v).glob = s.glob := by obtain ⟨_, _, _, h⟩ := msix_eq s v; rw [h]
@[simp] theorem msix_pins (s : State) (v : Nat) : (Machine.msix s v).pins = s.pins := by obtain ⟨_, _, _, h⟩ := msix_eq s v; rw [h]
@[simp] theorem msix_funcs (s : State) (v : Nat) : (Machine.msix s v).funcs = s.funcs := by obtain ⟨_, _, _, h⟩ := msix_eq s v; rw [h]
@[simp] theorem msix_host_sq (s : State) (v : Nat) : (Machine.msix s v).host.sq = s.host.sq := by obtain ⟨_, _, _, h⟩ := msix_eq s v; rw [h]
@[simp] theorem msix_host_cq (s : State) (v : Nat) : (Machine.msix s v).host.cq = s.host.cq := by obtain ⟨_, _, _, h⟩ := msix_eq s v; rw [h]
@[simp] theorem msix_host_rr (s : State) (v : Nat) : (Machine.msix s v).host.rr = s.host.rr := by obtain ⟨_, _, _, h⟩ := msix_eq s v; rw [h]
@[simp] theorem msix_host_flights (s : State) (v : Nat) : (Machine.msix s v).host.flights = s.host.flights := by obtain ⟨_, _, _, h⟩ := msix_eq s v; rw [h]
@[simp] theorem msix_host_pushBuf (s : State) (v : Nat) : (Machine.msix s v).host.pushBuf = s.host.pushBuf := by obtain ⟨_, _, _, h⟩ := msix_eq s v; rw [h]
@[simp] theorem msix_host_admQ (s : State) (v : Nat) : (Machine.msix s v).host.admQ = s.host.admQ := by obtain ⟨_, _, _, h⟩ := msix_eq s v; rw [h]
@[simp] theorem msix_host_jrnl (s : State) (v : Nat) : (Machine.msix s v).host.jrnl = s.host.jrnl := by obtain ⟨_, _, _, h⟩ := msix_eq s v; rw [h]
@[simp] theorem msix_host_deliv (s : State) (v : Nat) : (Machine.msix s v).host.deliv = s.host.deliv := by obtain ⟨_, _, _, h⟩ := msix_eq s v; rw [h]
@[simp] theorem msix_host_peak (s : State) (v : Nat) : (Machine.msix s v).host.peak = s.host.peak := by obtain ⟨_, _, _, h⟩ := msix_eq s v; rw [h]
@[simp] theorem msix_host_dbDrop (s : State) (v : Nat) : (Machine.msix s v).host.dbDrop = s.host.dbDrop := by obtain ⟨_, _, _, h⟩ := msix_eq s v; rw [h]
@[simp] theorem msix_host_pushDrop (s : State) (v : Nat) : (Machine.msix s v).host.pushDrop = s.host.pushDrop := by obtain ⟨_, _, _, h⟩ := msix_eq s v; rw [h]
@[simp] theorem msix_host_pushOvf (s : State) (v : Nat) : (Machine.msix s v).host.pushOvf = s.host.pushOvf := by obtain ⟨_, _, _, h⟩ := msix_eq s v; rw [h]
@[simp] theorem msix_host_unsolCnt (s : State) (v : Nat) : (Machine.msix s v).host.unsolCnt = s.host.unsolCnt := by obtain ⟨_, _, _, h⟩ := msix_eq s v; rw [h]
@[simp] theorem msix_host_msixMask (s : State) (v : Nat) : (Machine.msix s v).host.msixMask = s.host.msixMask := by obtain ⟨_, _, _, h⟩ := msix_eq s v; rw [h]
@[simp] theorem msix_host_uidNext (s : State) (v : Nat) : (Machine.msix s v).host.uidNext = s.host.uidNext := by obtain ⟨_, _, _, h⟩ := msix_eq s v; rw [h]
@[simp] theorem msix_host_delivNext (s : State) (v : Nat) : (Machine.msix s v).host.delivNext = s.host.delivNext := by obtain ⟨_, _, _, h⟩ := msix_eq s v; rw [h]
@[simp] theorem msix_host_lastRead (s : State) (v : Nat) : (Machine.msix s v).host.lastRead = s.host.lastRead := by obtain ⟨_, _, _, h⟩ := msix_eq s v; rw [h]
@[simp] theorem msix_host_linkDown (s : State) (v : Nat) : (Machine.msix s v).host.linkDown = s.host.linkDown := by obtain ⟨_, _, _, h⟩ := msix_eq s v; rw [h]
@[simp] theorem msix_host_posted (s : State) (v : Nat) : (Machine.msix s v).host.posted = s.host.posted := by obtain ⟨_, _, _, h⟩ := msix_eq s v; rw [h]
@[simp] theorem msix_host_pcie (s : State) (v : Nat) : (Machine.msix s v).host.pcie = s.host.pcie := by obtain ⟨_, _, _, h⟩ := msix_eq s v; rw [h]
@[simp] theorem msix_log (s : State) (v : Nat) : (Machine.msix s v).log = s.log := by obtain ⟨_, _, _, h⟩ := msix_eq s v; rw [h]
@[simp] theorem msix_flt (s : State) (v : Nat) : (Machine.msix s v).flt = s.flt := by obtain ⟨_, _, _, h⟩ := msix_eq s v; rw [h]
@[simp] theorem msix_recs (s : State) (v : Nat) : (Machine.msix s v).recs = s.recs := by obtain ⟨_, _, _, h⟩ := msix_eq s v; rw [h]
@[simp] theorem msix_upd (s : State) (v : Nat) : (Machine.msix s v).upd = s.upd := by obtain ⟨_, _, _, h⟩ := msix_eq s v; rw [h]
@[simp] theorem msix_boot (s : State) (v : Nat) : (Machine.msix s v).boot = s.boot := by obtain ⟨_, _, _, h⟩ := msix_eq s v; rw [h]
@[simp] theorem msix_time (s : State) (v : Nat) : (Machine.msix s v).time = s.time := by obtain ⟨_, _, _, h⟩ := msix_eq s v; rw [h]
@[simp] theorem msix_harn (s : State) (v : Nat) : (Machine.msix s v).harn = s.harn := by obtain ⟨_, _, _, h⟩ := msix_eq s v; rw [h]
@[simp] theorem msix_rp (s : State) (v : Nat) : (Machine.msix s v).rp = s.rp := by obtain ⟨_, _, _, h⟩ := msix_eq s v; rw [h]
@[simp] theorem msix_keys (s : State) (v : Nat) : (Machine.msix s v).keys = s.keys := by obtain ⟨_, _, _, h⟩ := msix_eq s v; rw [h]
@[simp] theorem msix_sealU (s : State) (v : Nat) : (Machine.msix s v).sealU = s.sealU := by obtain ⟨_, _, _, h⟩ := msix_eq s v; rw [h]
@[simp] theorem msix_ce (s : State) (v : Nat) : (Machine.msix s v).ce = s.ce := by obtain ⟨_, _, _, h⟩ := msix_eq s v; rw [h]
@[simp] theorem msix_bill (s : State) (v : Nat) : (Machine.msix s v).bill = s.bill := by obtain ⟨_, _, _, h⟩ := msix_eq s v; rw [h]
@[simp] theorem msix_chan (s : State) (v : Nat) : (Machine.msix s v).chan = s.chan := by obtain ⟨_, _, _, h⟩ := msix_eq s v; rw [h]
@[simp] theorem msix_cmd (s : State) (v : Nat) : (Machine.msix s v).cmd = s.cmd := by obtain ⟨_, _, _, h⟩ := msix_eq s v; rw [h]
@[simp] theorem msix_air (s : State) (v : Nat) : (Machine.msix s v).air = s.air := by obtain ⟨_, _, _, h⟩ := msix_eq s v; rw [h]
@[simp] theorem msix_store (s : State) (v : Nat) : (Machine.msix s v).store = s.store := by obtain ⟨_, _, _, h⟩ := msix_eq s v; rw [h]
@[simp] theorem msix_met (s : State) (v : Nat) : (Machine.msix s v).met = s.met := by obtain ⟨_, _, _, h⟩ := msix_eq s v; rw [h]
@[simp] theorem msix_hostMem (s : State) (v : Nat) : (Machine.msix s v).hostMem = s.hostMem := by obtain ⟨_, _, _, h⟩ := msix_eq s v; rw [h]
@[simp] theorem msix_tcxo (s : State) (v : Nat) : (Machine.msix s v).tcxo = s.tcxo := by obtain ⟨_, _, _, h⟩ := msix_eq s v; rw [h]
@[simp] theorem msix_free (s : State) (v : Nat) : (Machine.msix s v).free = s.free := by obtain ⟨_, _, _, h⟩ := msix_eq s v; rw [h]
@[simp] theorem msix_pending (s : State) (v : Nat) : (Machine.msix s v).pending = s.pending := by obtain ⟨_, _, _, h⟩ := msix_eq s v; rw [h]

/-! ## logEvent -/

@[simp] theorem logEvent_regs (c d : Nat) (s : State) : (Machine.logEvent c d s).regs = s.regs := by obtain ⟨_, _, _, _, h⟩ := logEvent_eq c d s; rw [h]
@[simp] theorem logEvent_glob (c d : Nat) (s : State) : (Machine.logEvent c d s).glob = s.glob := by obtain ⟨_, _, _, _, h⟩ := logEvent_eq c d s; rw [h]
@[simp] theorem logEvent_pins (c d : Nat) (s : State) : (Machine.logEvent c d s).pins = s.pins := by obtain ⟨_, _, _, _, h⟩ := logEvent_eq c d s; rw [h]
@[simp] theorem logEvent_funcs (c d : Nat) (s : State) : (Machine.logEvent c d s).funcs = s.funcs := by obtain ⟨_, _, _, _, h⟩ := logEvent_eq c d s; rw [h]
@[simp] theorem logEvent_host_sq (c d : Nat) (s : State) : (Machine.logEvent c d s).host.sq = s.host.sq := by obtain ⟨_, _, _, _, h⟩ := logEvent_eq c d s; rw [h]
@[simp] theorem logEvent_host_cq (c d : Nat) (s : State) : (Machine.logEvent c d s).host.cq = s.host.cq := by obtain ⟨_, _, _, _, h⟩ := logEvent_eq c d s; rw [h]
@[simp] theorem logEvent_host_rr (c d : Nat) (s : State) : (Machine.logEvent c d s).host.rr = s.host.rr := by obtain ⟨_, _, _, _, h⟩ := logEvent_eq c d s; rw [h]
@[simp] theorem logEvent_host_flights (c d : Nat) (s : State) : (Machine.logEvent c d s).host.flights = s.host.flights := by obtain ⟨_, _, _, _, h⟩ := logEvent_eq c d s; rw [h]
@[simp] theorem logEvent_host_pushBuf (c d : Nat) (s : State) : (Machine.logEvent c d s).host.pushBuf = s.host.pushBuf := by obtain ⟨_, _, _, _, h⟩ := logEvent_eq c d s; rw [h]
@[simp] theorem logEvent_host_admQ (c d : Nat) (s : State) : (Machine.logEvent c d s).host.admQ = s.host.admQ := by obtain ⟨_, _, _, _, h⟩ := logEvent_eq c d s; rw [h]
@[simp] theorem logEvent_host_jrnl (c d : Nat) (s : State) : (Machine.logEvent c d s).host.jrnl = s.host.jrnl := by obtain ⟨_, _, _, _, h⟩ := logEvent_eq c d s; rw [h]
@[simp] theorem logEvent_host_deliv (c d : Nat) (s : State) : (Machine.logEvent c d s).host.deliv = s.host.deliv := by obtain ⟨_, _, _, _, h⟩ := logEvent_eq c d s; rw [h]
@[simp] theorem logEvent_host_peak (c d : Nat) (s : State) : (Machine.logEvent c d s).host.peak = s.host.peak := by obtain ⟨_, _, _, _, h⟩ := logEvent_eq c d s; rw [h]
@[simp] theorem logEvent_host_dbDrop (c d : Nat) (s : State) : (Machine.logEvent c d s).host.dbDrop = s.host.dbDrop := by obtain ⟨_, _, _, _, h⟩ := logEvent_eq c d s; rw [h]
@[simp] theorem logEvent_host_pushDrop (c d : Nat) (s : State) : (Machine.logEvent c d s).host.pushDrop = s.host.pushDrop := by obtain ⟨_, _, _, _, h⟩ := logEvent_eq c d s; rw [h]
@[simp] theorem logEvent_host_pushOvf (c d : Nat) (s : State) : (Machine.logEvent c d s).host.pushOvf = s.host.pushOvf := by obtain ⟨_, _, _, _, h⟩ := logEvent_eq c d s; rw [h]
@[simp] theorem logEvent_host_unsolCnt (c d : Nat) (s : State) : (Machine.logEvent c d s).host.unsolCnt = s.host.unsolCnt := by obtain ⟨_, _, _, _, h⟩ := logEvent_eq c d s; rw [h]
@[simp] theorem logEvent_host_msixMask (c d : Nat) (s : State) : (Machine.logEvent c d s).host.msixMask = s.host.msixMask := by obtain ⟨_, _, _, _, h⟩ := logEvent_eq c d s; rw [h]
@[simp] theorem logEvent_host_uidNext (c d : Nat) (s : State) : (Machine.logEvent c d s).host.uidNext = s.host.uidNext := by obtain ⟨_, _, _, _, h⟩ := logEvent_eq c d s; rw [h]
@[simp] theorem logEvent_host_delivNext (c d : Nat) (s : State) : (Machine.logEvent c d s).host.delivNext = s.host.delivNext := by obtain ⟨_, _, _, _, h⟩ := logEvent_eq c d s; rw [h]
@[simp] theorem logEvent_host_lastRead (c d : Nat) (s : State) : (Machine.logEvent c d s).host.lastRead = s.host.lastRead := by obtain ⟨_, _, _, _, h⟩ := logEvent_eq c d s; rw [h]
@[simp] theorem logEvent_host_linkDown (c d : Nat) (s : State) : (Machine.logEvent c d s).host.linkDown = s.host.linkDown := by obtain ⟨_, _, _, _, h⟩ := logEvent_eq c d s; rw [h]
@[simp] theorem logEvent_host_posted (c d : Nat) (s : State) : (Machine.logEvent c d s).host.posted = s.host.posted := by obtain ⟨_, _, _, _, h⟩ := logEvent_eq c d s; rw [h]
@[simp] theorem logEvent_host_pcie (c d : Nat) (s : State) : (Machine.logEvent c d s).host.pcie = s.host.pcie := by obtain ⟨_, _, _, _, h⟩ := logEvent_eq c d s; rw [h]
@[simp] theorem logEvent_flt (c d : Nat) (s : State) : (Machine.logEvent c d s).flt = s.flt := by obtain ⟨_, _, _, _, h⟩ := logEvent_eq c d s; rw [h]
@[simp] theorem logEvent_recs (c d : Nat) (s : State) : (Machine.logEvent c d s).recs = s.recs := by obtain ⟨_, _, _, _, h⟩ := logEvent_eq c d s; rw [h]
@[simp] theorem logEvent_upd (c d : Nat) (s : State) : (Machine.logEvent c d s).upd = s.upd := by obtain ⟨_, _, _, _, h⟩ := logEvent_eq c d s; rw [h]
@[simp] theorem logEvent_boot (c d : Nat) (s : State) : (Machine.logEvent c d s).boot = s.boot := by obtain ⟨_, _, _, _, h⟩ := logEvent_eq c d s; rw [h]
@[simp] theorem logEvent_time (c d : Nat) (s : State) : (Machine.logEvent c d s).time = s.time := by obtain ⟨_, _, _, _, h⟩ := logEvent_eq c d s; rw [h]
@[simp] theorem logEvent_harn (c d : Nat) (s : State) : (Machine.logEvent c d s).harn = s.harn := by obtain ⟨_, _, _, _, h⟩ := logEvent_eq c d s; rw [h]
@[simp] theorem logEvent_rp (c d : Nat) (s : State) : (Machine.logEvent c d s).rp = s.rp := by obtain ⟨_, _, _, _, h⟩ := logEvent_eq c d s; rw [h]
@[simp] theorem logEvent_keys (c d : Nat) (s : State) : (Machine.logEvent c d s).keys = s.keys := by obtain ⟨_, _, _, _, h⟩ := logEvent_eq c d s; rw [h]
@[simp] theorem logEvent_sealU (c d : Nat) (s : State) : (Machine.logEvent c d s).sealU = s.sealU := by obtain ⟨_, _, _, _, h⟩ := logEvent_eq c d s; rw [h]
@[simp] theorem logEvent_ce (c d : Nat) (s : State) : (Machine.logEvent c d s).ce = s.ce := by obtain ⟨_, _, _, _, h⟩ := logEvent_eq c d s; rw [h]
@[simp] theorem logEvent_bill (c d : Nat) (s : State) : (Machine.logEvent c d s).bill = s.bill := by obtain ⟨_, _, _, _, h⟩ := logEvent_eq c d s; rw [h]
@[simp] theorem logEvent_chan (c d : Nat) (s : State) : (Machine.logEvent c d s).chan = s.chan := by obtain ⟨_, _, _, _, h⟩ := logEvent_eq c d s; rw [h]
@[simp] theorem logEvent_cmd (c d : Nat) (s : State) : (Machine.logEvent c d s).cmd = s.cmd := by obtain ⟨_, _, _, _, h⟩ := logEvent_eq c d s; rw [h]
@[simp] theorem logEvent_air (c d : Nat) (s : State) : (Machine.logEvent c d s).air = s.air := by obtain ⟨_, _, _, _, h⟩ := logEvent_eq c d s; rw [h]
@[simp] theorem logEvent_store (c d : Nat) (s : State) : (Machine.logEvent c d s).store = s.store := by obtain ⟨_, _, _, _, h⟩ := logEvent_eq c d s; rw [h]
@[simp] theorem logEvent_met (c d : Nat) (s : State) : (Machine.logEvent c d s).met = s.met := by obtain ⟨_, _, _, _, h⟩ := logEvent_eq c d s; rw [h]
@[simp] theorem logEvent_hostMem (c d : Nat) (s : State) : (Machine.logEvent c d s).hostMem = s.hostMem := by obtain ⟨_, _, _, _, h⟩ := logEvent_eq c d s; rw [h]
@[simp] theorem logEvent_tcxo (c d : Nat) (s : State) : (Machine.logEvent c d s).tcxo = s.tcxo := by obtain ⟨_, _, _, _, h⟩ := logEvent_eq c d s; rw [h]
@[simp] theorem logEvent_free (c d : Nat) (s : State) : (Machine.logEvent c d s).free = s.free := by obtain ⟨_, _, _, _, h⟩ := logEvent_eq c d s; rw [h]
@[simp] theorem logEvent_pending (c d : Nat) (s : State) : (Machine.logEvent c d s).pending = s.pending := by obtain ⟨_, _, _, _, h⟩ := logEvent_eq c d s; rw [h]

/-! ## hostWriteMem -/

@[simp] theorem hostWriteMem_regs (s : State) (a : Nat) (b : List Byte) : (Machine.hostWriteMem s a b).regs = s.regs := by obtain ⟨_, _, _, h⟩ := hostWriteMem_eq s a b; rw [h]
@[simp] theorem hostWriteMem_glob (s : State) (a : Nat) (b : List Byte) : (Machine.hostWriteMem s a b).glob = s.glob := by obtain ⟨_, _, _, h⟩ := hostWriteMem_eq s a b; rw [h]
@[simp] theorem hostWriteMem_pins (s : State) (a : Nat) (b : List Byte) : (Machine.hostWriteMem s a b).pins = s.pins := by obtain ⟨_, _, _, h⟩ := hostWriteMem_eq s a b; rw [h]
@[simp] theorem hostWriteMem_funcs (s : State) (a : Nat) (b : List Byte) : (Machine.hostWriteMem s a b).funcs = s.funcs := by obtain ⟨_, _, _, h⟩ := hostWriteMem_eq s a b; rw [h]
@[simp] theorem hostWriteMem_host_sq (s : State) (a : Nat) (b : List Byte) : (Machine.hostWriteMem s a b).host.sq = s.host.sq := by obtain ⟨_, _, _, h⟩ := hostWriteMem_eq s a b; rw [h]
@[simp] theorem hostWriteMem_host_cq (s : State) (a : Nat) (b : List Byte) : (Machine.hostWriteMem s a b).host.cq = s.host.cq := by obtain ⟨_, _, _, h⟩ := hostWriteMem_eq s a b; rw [h]
@[simp] theorem hostWriteMem_host_rr (s : State) (a : Nat) (b : List Byte) : (Machine.hostWriteMem s a b).host.rr = s.host.rr := by obtain ⟨_, _, _, h⟩ := hostWriteMem_eq s a b; rw [h]
@[simp] theorem hostWriteMem_host_flights (s : State) (a : Nat) (b : List Byte) : (Machine.hostWriteMem s a b).host.flights = s.host.flights := by obtain ⟨_, _, _, h⟩ := hostWriteMem_eq s a b; rw [h]
@[simp] theorem hostWriteMem_host_pushBuf (s : State) (a : Nat) (b : List Byte) : (Machine.hostWriteMem s a b).host.pushBuf = s.host.pushBuf := by obtain ⟨_, _, _, h⟩ := hostWriteMem_eq s a b; rw [h]
@[simp] theorem hostWriteMem_host_admQ (s : State) (a : Nat) (b : List Byte) : (Machine.hostWriteMem s a b).host.admQ = s.host.admQ := by obtain ⟨_, _, _, h⟩ := hostWriteMem_eq s a b; rw [h]
@[simp] theorem hostWriteMem_host_jrnl (s : State) (a : Nat) (b : List Byte) : (Machine.hostWriteMem s a b).host.jrnl = s.host.jrnl := by obtain ⟨_, _, _, h⟩ := hostWriteMem_eq s a b; rw [h]
@[simp] theorem hostWriteMem_host_deliv (s : State) (a : Nat) (b : List Byte) : (Machine.hostWriteMem s a b).host.deliv = s.host.deliv := by obtain ⟨_, _, _, h⟩ := hostWriteMem_eq s a b; rw [h]
@[simp] theorem hostWriteMem_host_peak (s : State) (a : Nat) (b : List Byte) : (Machine.hostWriteMem s a b).host.peak = s.host.peak := by obtain ⟨_, _, _, h⟩ := hostWriteMem_eq s a b; rw [h]
@[simp] theorem hostWriteMem_host_dbDrop (s : State) (a : Nat) (b : List Byte) : (Machine.hostWriteMem s a b).host.dbDrop = s.host.dbDrop := by obtain ⟨_, _, _, h⟩ := hostWriteMem_eq s a b; rw [h]
@[simp] theorem hostWriteMem_host_pushDrop (s : State) (a : Nat) (b : List Byte) : (Machine.hostWriteMem s a b).host.pushDrop = s.host.pushDrop := by obtain ⟨_, _, _, h⟩ := hostWriteMem_eq s a b; rw [h]
@[simp] theorem hostWriteMem_host_pushOvf (s : State) (a : Nat) (b : List Byte) : (Machine.hostWriteMem s a b).host.pushOvf = s.host.pushOvf := by obtain ⟨_, _, _, h⟩ := hostWriteMem_eq s a b; rw [h]
@[simp] theorem hostWriteMem_host_unsolCnt (s : State) (a : Nat) (b : List Byte) : (Machine.hostWriteMem s a b).host.unsolCnt = s.host.unsolCnt := by obtain ⟨_, _, _, h⟩ := hostWriteMem_eq s a b; rw [h]
@[simp] theorem hostWriteMem_host_msixMask (s : State) (a : Nat) (b : List Byte) : (Machine.hostWriteMem s a b).host.msixMask = s.host.msixMask := by obtain ⟨_, _, _, h⟩ := hostWriteMem_eq s a b; rw [h]
@[simp] theorem hostWriteMem_host_msixPend (s : State) (a : Nat) (b : List Byte) : (Machine.hostWriteMem s a b).host.msixPend = s.host.msixPend := by obtain ⟨_, _, _, h⟩ := hostWriteMem_eq s a b; rw [h]
@[simp] theorem hostWriteMem_host_uidNext (s : State) (a : Nat) (b : List Byte) : (Machine.hostWriteMem s a b).host.uidNext = s.host.uidNext := by obtain ⟨_, _, _, h⟩ := hostWriteMem_eq s a b; rw [h]
@[simp] theorem hostWriteMem_host_delivNext (s : State) (a : Nat) (b : List Byte) : (Machine.hostWriteMem s a b).host.delivNext = s.host.delivNext := by obtain ⟨_, _, _, h⟩ := hostWriteMem_eq s a b; rw [h]
@[simp] theorem hostWriteMem_host_lastRead (s : State) (a : Nat) (b : List Byte) : (Machine.hostWriteMem s a b).host.lastRead = s.host.lastRead := by obtain ⟨_, _, _, h⟩ := hostWriteMem_eq s a b; rw [h]
@[simp] theorem hostWriteMem_host_linkDown (s : State) (a : Nat) (b : List Byte) : (Machine.hostWriteMem s a b).host.linkDown = s.host.linkDown := by obtain ⟨_, _, _, h⟩ := hostWriteMem_eq s a b; rw [h]
@[simp] theorem hostWriteMem_host_pcie (s : State) (a : Nat) (b : List Byte) : (Machine.hostWriteMem s a b).host.pcie = s.host.pcie := by obtain ⟨_, _, _, h⟩ := hostWriteMem_eq s a b; rw [h]
@[simp] theorem hostWriteMem_log (s : State) (a : Nat) (b : List Byte) : (Machine.hostWriteMem s a b).log = s.log := by obtain ⟨_, _, _, h⟩ := hostWriteMem_eq s a b; rw [h]
@[simp] theorem hostWriteMem_flt (s : State) (a : Nat) (b : List Byte) : (Machine.hostWriteMem s a b).flt = s.flt := by obtain ⟨_, _, _, h⟩ := hostWriteMem_eq s a b; rw [h]
@[simp] theorem hostWriteMem_recs (s : State) (a : Nat) (b : List Byte) : (Machine.hostWriteMem s a b).recs = s.recs := by obtain ⟨_, _, _, h⟩ := hostWriteMem_eq s a b; rw [h]
@[simp] theorem hostWriteMem_upd (s : State) (a : Nat) (b : List Byte) : (Machine.hostWriteMem s a b).upd = s.upd := by obtain ⟨_, _, _, h⟩ := hostWriteMem_eq s a b; rw [h]
@[simp] theorem hostWriteMem_boot (s : State) (a : Nat) (b : List Byte) : (Machine.hostWriteMem s a b).boot = s.boot := by obtain ⟨_, _, _, h⟩ := hostWriteMem_eq s a b; rw [h]
@[simp] theorem hostWriteMem_time (s : State) (a : Nat) (b : List Byte) : (Machine.hostWriteMem s a b).time = s.time := by obtain ⟨_, _, _, h⟩ := hostWriteMem_eq s a b; rw [h]
@[simp] theorem hostWriteMem_harn (s : State) (a : Nat) (b : List Byte) : (Machine.hostWriteMem s a b).harn = s.harn := by obtain ⟨_, _, _, h⟩ := hostWriteMem_eq s a b; rw [h]
@[simp] theorem hostWriteMem_rp (s : State) (a : Nat) (b : List Byte) : (Machine.hostWriteMem s a b).rp = s.rp := by obtain ⟨_, _, _, h⟩ := hostWriteMem_eq s a b; rw [h]
@[simp] theorem hostWriteMem_keys (s : State) (a : Nat) (b : List Byte) : (Machine.hostWriteMem s a b).keys = s.keys := by obtain ⟨_, _, _, h⟩ := hostWriteMem_eq s a b; rw [h]
@[simp] theorem hostWriteMem_sealU (s : State) (a : Nat) (b : List Byte) : (Machine.hostWriteMem s a b).sealU = s.sealU := by obtain ⟨_, _, _, h⟩ := hostWriteMem_eq s a b; rw [h]
@[simp] theorem hostWriteMem_ce (s : State) (a : Nat) (b : List Byte) : (Machine.hostWriteMem s a b).ce = s.ce := by obtain ⟨_, _, _, h⟩ := hostWriteMem_eq s a b; rw [h]
@[simp] theorem hostWriteMem_bill (s : State) (a : Nat) (b : List Byte) : (Machine.hostWriteMem s a b).bill = s.bill := by obtain ⟨_, _, _, h⟩ := hostWriteMem_eq s a b; rw [h]
@[simp] theorem hostWriteMem_chan (s : State) (a : Nat) (b : List Byte) : (Machine.hostWriteMem s a b).chan = s.chan := by obtain ⟨_, _, _, h⟩ := hostWriteMem_eq s a b; rw [h]
@[simp] theorem hostWriteMem_cmd (s : State) (a : Nat) (b : List Byte) : (Machine.hostWriteMem s a b).cmd = s.cmd := by obtain ⟨_, _, _, h⟩ := hostWriteMem_eq s a b; rw [h]
@[simp] theorem hostWriteMem_air (s : State) (a : Nat) (b : List Byte) : (Machine.hostWriteMem s a b).air = s.air := by obtain ⟨_, _, _, h⟩ := hostWriteMem_eq s a b; rw [h]
@[simp] theorem hostWriteMem_store (s : State) (a : Nat) (b : List Byte) : (Machine.hostWriteMem s a b).store = s.store := by obtain ⟨_, _, _, h⟩ := hostWriteMem_eq s a b; rw [h]
@[simp] theorem hostWriteMem_met (s : State) (a : Nat) (b : List Byte) : (Machine.hostWriteMem s a b).met = s.met := by obtain ⟨_, _, _, h⟩ := hostWriteMem_eq s a b; rw [h]
@[simp] theorem hostWriteMem_tcxo (s : State) (a : Nat) (b : List Byte) : (Machine.hostWriteMem s a b).tcxo = s.tcxo := by obtain ⟨_, _, _, h⟩ := hostWriteMem_eq s a b; rw [h]
@[simp] theorem hostWriteMem_free (s : State) (a : Nat) (b : List Byte) : (Machine.hostWriteMem s a b).free = s.free := by obtain ⟨_, _, _, h⟩ := hostWriteMem_eq s a b; rw [h]
@[simp] theorem hostWriteMem_pending (s : State) (a : Nat) (b : List Byte) : (Machine.hostWriteMem s a b).pending = s.pending := by obtain ⟨_, _, _, h⟩ := hostWriteMem_eq s a b; rw [h]

/-! ## hostWriteData -/

@[simp] theorem hostWriteData_regs (s : State) (a : Nat) (b : List Byte) : (Machine.hostWriteData s a b).regs = s.regs := by obtain ⟨_, _, _, h⟩ := hostWriteData_eq s a b; rw [h]
@[simp] theorem hostWriteData_glob (s : State) (a : Nat) (b : List Byte) : (Machine.hostWriteData s a b).glob = s.glob := by obtain ⟨_, _, _, h⟩ := hostWriteData_eq s a b; rw [h]
@[simp] theorem hostWriteData_pins (s : State) (a : Nat) (b : List Byte) : (Machine.hostWriteData s a b).pins = s.pins := by obtain ⟨_, _, _, h⟩ := hostWriteData_eq s a b; rw [h]
@[simp] theorem hostWriteData_funcs (s : State) (a : Nat) (b : List Byte) : (Machine.hostWriteData s a b).funcs = s.funcs := by obtain ⟨_, _, _, h⟩ := hostWriteData_eq s a b; rw [h]
@[simp] theorem hostWriteData_host_sq (s : State) (a : Nat) (b : List Byte) : (Machine.hostWriteData s a b).host.sq = s.host.sq := by obtain ⟨_, _, _, h⟩ := hostWriteData_eq s a b; rw [h]
@[simp] theorem hostWriteData_host_cq (s : State) (a : Nat) (b : List Byte) : (Machine.hostWriteData s a b).host.cq = s.host.cq := by obtain ⟨_, _, _, h⟩ := hostWriteData_eq s a b; rw [h]
@[simp] theorem hostWriteData_host_rr (s : State) (a : Nat) (b : List Byte) : (Machine.hostWriteData s a b).host.rr = s.host.rr := by obtain ⟨_, _, _, h⟩ := hostWriteData_eq s a b; rw [h]
@[simp] theorem hostWriteData_host_flights (s : State) (a : Nat) (b : List Byte) : (Machine.hostWriteData s a b).host.flights = s.host.flights := by obtain ⟨_, _, _, h⟩ := hostWriteData_eq s a b; rw [h]
@[simp] theorem hostWriteData_host_pushBuf (s : State) (a : Nat) (b : List Byte) : (Machine.hostWriteData s a b).host.pushBuf = s.host.pushBuf := by obtain ⟨_, _, _, h⟩ := hostWriteData_eq s a b; rw [h]
@[simp] theorem hostWriteData_host_admQ (s : State) (a : Nat) (b : List Byte) : (Machine.hostWriteData s a b).host.admQ = s.host.admQ := by obtain ⟨_, _, _, h⟩ := hostWriteData_eq s a b; rw [h]
@[simp] theorem hostWriteData_host_jrnl (s : State) (a : Nat) (b : List Byte) : (Machine.hostWriteData s a b).host.jrnl = s.host.jrnl := by obtain ⟨_, _, _, h⟩ := hostWriteData_eq s a b; rw [h]
@[simp] theorem hostWriteData_host_deliv (s : State) (a : Nat) (b : List Byte) : (Machine.hostWriteData s a b).host.deliv = s.host.deliv := by obtain ⟨_, _, _, h⟩ := hostWriteData_eq s a b; rw [h]
@[simp] theorem hostWriteData_host_peak (s : State) (a : Nat) (b : List Byte) : (Machine.hostWriteData s a b).host.peak = s.host.peak := by obtain ⟨_, _, _, h⟩ := hostWriteData_eq s a b; rw [h]
@[simp] theorem hostWriteData_host_dbDrop (s : State) (a : Nat) (b : List Byte) : (Machine.hostWriteData s a b).host.dbDrop = s.host.dbDrop := by obtain ⟨_, _, _, h⟩ := hostWriteData_eq s a b; rw [h]
@[simp] theorem hostWriteData_host_pushDrop (s : State) (a : Nat) (b : List Byte) : (Machine.hostWriteData s a b).host.pushDrop = s.host.pushDrop := by obtain ⟨_, _, _, h⟩ := hostWriteData_eq s a b; rw [h]
@[simp] theorem hostWriteData_host_pushOvf (s : State) (a : Nat) (b : List Byte) : (Machine.hostWriteData s a b).host.pushOvf = s.host.pushOvf := by obtain ⟨_, _, _, h⟩ := hostWriteData_eq s a b; rw [h]
@[simp] theorem hostWriteData_host_unsolCnt (s : State) (a : Nat) (b : List Byte) : (Machine.hostWriteData s a b).host.unsolCnt = s.host.unsolCnt := by obtain ⟨_, _, _, h⟩ := hostWriteData_eq s a b; rw [h]
@[simp] theorem hostWriteData_host_msixMask (s : State) (a : Nat) (b : List Byte) : (Machine.hostWriteData s a b).host.msixMask = s.host.msixMask := by obtain ⟨_, _, _, h⟩ := hostWriteData_eq s a b; rw [h]
@[simp] theorem hostWriteData_host_msixPend (s : State) (a : Nat) (b : List Byte) : (Machine.hostWriteData s a b).host.msixPend = s.host.msixPend := by obtain ⟨_, _, _, h⟩ := hostWriteData_eq s a b; rw [h]
@[simp] theorem hostWriteData_host_uidNext (s : State) (a : Nat) (b : List Byte) : (Machine.hostWriteData s a b).host.uidNext = s.host.uidNext := by obtain ⟨_, _, _, h⟩ := hostWriteData_eq s a b; rw [h]
@[simp] theorem hostWriteData_host_delivNext (s : State) (a : Nat) (b : List Byte) : (Machine.hostWriteData s a b).host.delivNext = s.host.delivNext := by obtain ⟨_, _, _, h⟩ := hostWriteData_eq s a b; rw [h]
@[simp] theorem hostWriteData_host_lastRead (s : State) (a : Nat) (b : List Byte) : (Machine.hostWriteData s a b).host.lastRead = s.host.lastRead := by obtain ⟨_, _, _, h⟩ := hostWriteData_eq s a b; rw [h]
@[simp] theorem hostWriteData_host_linkDown (s : State) (a : Nat) (b : List Byte) : (Machine.hostWriteData s a b).host.linkDown = s.host.linkDown := by obtain ⟨_, _, _, h⟩ := hostWriteData_eq s a b; rw [h]
@[simp] theorem hostWriteData_host_pcie (s : State) (a : Nat) (b : List Byte) : (Machine.hostWriteData s a b).host.pcie = s.host.pcie := by obtain ⟨_, _, _, h⟩ := hostWriteData_eq s a b; rw [h]
@[simp] theorem hostWriteData_log (s : State) (a : Nat) (b : List Byte) : (Machine.hostWriteData s a b).log = s.log := by obtain ⟨_, _, _, h⟩ := hostWriteData_eq s a b; rw [h]
@[simp] theorem hostWriteData_flt (s : State) (a : Nat) (b : List Byte) : (Machine.hostWriteData s a b).flt = s.flt := by obtain ⟨_, _, _, h⟩ := hostWriteData_eq s a b; rw [h]
@[simp] theorem hostWriteData_recs (s : State) (a : Nat) (b : List Byte) : (Machine.hostWriteData s a b).recs = s.recs := by obtain ⟨_, _, _, h⟩ := hostWriteData_eq s a b; rw [h]
@[simp] theorem hostWriteData_upd (s : State) (a : Nat) (b : List Byte) : (Machine.hostWriteData s a b).upd = s.upd := by obtain ⟨_, _, _, h⟩ := hostWriteData_eq s a b; rw [h]
@[simp] theorem hostWriteData_boot (s : State) (a : Nat) (b : List Byte) : (Machine.hostWriteData s a b).boot = s.boot := by obtain ⟨_, _, _, h⟩ := hostWriteData_eq s a b; rw [h]
@[simp] theorem hostWriteData_time (s : State) (a : Nat) (b : List Byte) : (Machine.hostWriteData s a b).time = s.time := by obtain ⟨_, _, _, h⟩ := hostWriteData_eq s a b; rw [h]
@[simp] theorem hostWriteData_harn (s : State) (a : Nat) (b : List Byte) : (Machine.hostWriteData s a b).harn = s.harn := by obtain ⟨_, _, _, h⟩ := hostWriteData_eq s a b; rw [h]
@[simp] theorem hostWriteData_rp (s : State) (a : Nat) (b : List Byte) : (Machine.hostWriteData s a b).rp = s.rp := by obtain ⟨_, _, _, h⟩ := hostWriteData_eq s a b; rw [h]
@[simp] theorem hostWriteData_keys (s : State) (a : Nat) (b : List Byte) : (Machine.hostWriteData s a b).keys = s.keys := by obtain ⟨_, _, _, h⟩ := hostWriteData_eq s a b; rw [h]
@[simp] theorem hostWriteData_sealU (s : State) (a : Nat) (b : List Byte) : (Machine.hostWriteData s a b).sealU = s.sealU := by obtain ⟨_, _, _, h⟩ := hostWriteData_eq s a b; rw [h]
@[simp] theorem hostWriteData_ce (s : State) (a : Nat) (b : List Byte) : (Machine.hostWriteData s a b).ce = s.ce := by obtain ⟨_, _, _, h⟩ := hostWriteData_eq s a b; rw [h]
@[simp] theorem hostWriteData_bill (s : State) (a : Nat) (b : List Byte) : (Machine.hostWriteData s a b).bill = s.bill := by obtain ⟨_, _, _, h⟩ := hostWriteData_eq s a b; rw [h]
@[simp] theorem hostWriteData_chan (s : State) (a : Nat) (b : List Byte) : (Machine.hostWriteData s a b).chan = s.chan := by obtain ⟨_, _, _, h⟩ := hostWriteData_eq s a b; rw [h]
@[simp] theorem hostWriteData_cmd (s : State) (a : Nat) (b : List Byte) : (Machine.hostWriteData s a b).cmd = s.cmd := by obtain ⟨_, _, _, h⟩ := hostWriteData_eq s a b; rw [h]
@[simp] theorem hostWriteData_air (s : State) (a : Nat) (b : List Byte) : (Machine.hostWriteData s a b).air = s.air := by obtain ⟨_, _, _, h⟩ := hostWriteData_eq s a b; rw [h]
@[simp] theorem hostWriteData_store (s : State) (a : Nat) (b : List Byte) : (Machine.hostWriteData s a b).store = s.store := by obtain ⟨_, _, _, h⟩ := hostWriteData_eq s a b; rw [h]
@[simp] theorem hostWriteData_met (s : State) (a : Nat) (b : List Byte) : (Machine.hostWriteData s a b).met = s.met := by obtain ⟨_, _, _, h⟩ := hostWriteData_eq s a b; rw [h]
@[simp] theorem hostWriteData_tcxo (s : State) (a : Nat) (b : List Byte) : (Machine.hostWriteData s a b).tcxo = s.tcxo := by obtain ⟨_, _, _, h⟩ := hostWriteData_eq s a b; rw [h]
@[simp] theorem hostWriteData_free (s : State) (a : Nat) (b : List Byte) : (Machine.hostWriteData s a b).free = s.free := by obtain ⟨_, _, _, h⟩ := hostWriteData_eq s a b; rw [h]
@[simp] theorem hostWriteData_pending (s : State) (a : Nat) (b : List Byte) : (Machine.hostWriteData s a b).pending = s.pending := by obtain ⟨_, _, _, h⟩ := hostWriteData_eq s a b; rw [h]

/-! ## regWrite -/

@[simp] theorem regWrite_glob (s : State) (o : Nat) (w : Word) : (Machine.regWrite s o w).glob = s.glob := by obtain ⟨_, _, _, _, _, h⟩ := regWrite_eq s o w; rw [h]
@[simp] theorem regWrite_pins (s : State) (o : Nat) (w : Word) : (Machine.regWrite s o w).pins = s.pins := by obtain ⟨_, _, _, _, _, h⟩ := regWrite_eq s o w; rw [h]
@[simp] theorem regWrite_funcs (s : State) (o : Nat) (w : Word) : (Machine.regWrite s o w).funcs = s.funcs := by obtain ⟨_, _, _, _, _, h⟩ := regWrite_eq s o w; rw [h]
@[simp] theorem regWrite_host_sq (s : State) (o : Nat) (w : Word) : (Machine.regWrite s o w).host.sq = s.host.sq := by obtain ⟨_, _, _, _, _, h⟩ := regWrite_eq s o w; rw [h]
@[simp] theorem regWrite_host_cq (s : State) (o : Nat) (w : Word) : (Machine.regWrite s o w).host.cq = s.host.cq := by obtain ⟨_, _, _, _, _, h⟩ := regWrite_eq s o w; rw [h]
@[simp] theorem regWrite_host_rr (s : State) (o : Nat) (w : Word) : (Machine.regWrite s o w).host.rr = s.host.rr := by obtain ⟨_, _, _, _, _, h⟩ := regWrite_eq s o w; rw [h]
@[simp] theorem regWrite_host_flights (s : State) (o : Nat) (w : Word) : (Machine.regWrite s o w).host.flights = s.host.flights := by obtain ⟨_, _, _, _, _, h⟩ := regWrite_eq s o w; rw [h]
@[simp] theorem regWrite_host_pushBuf (s : State) (o : Nat) (w : Word) : (Machine.regWrite s o w).host.pushBuf = s.host.pushBuf := by obtain ⟨_, _, _, _, _, h⟩ := regWrite_eq s o w; rw [h]
@[simp] theorem regWrite_host_admQ (s : State) (o : Nat) (w : Word) : (Machine.regWrite s o w).host.admQ = s.host.admQ := by obtain ⟨_, _, _, _, _, h⟩ := regWrite_eq s o w; rw [h]
@[simp] theorem regWrite_host_jrnl (s : State) (o : Nat) (w : Word) : (Machine.regWrite s o w).host.jrnl = s.host.jrnl := by obtain ⟨_, _, _, _, _, h⟩ := regWrite_eq s o w; rw [h]
@[simp] theorem regWrite_host_deliv (s : State) (o : Nat) (w : Word) : (Machine.regWrite s o w).host.deliv = s.host.deliv := by obtain ⟨_, _, _, _, _, h⟩ := regWrite_eq s o w; rw [h]
@[simp] theorem regWrite_host_peak (s : State) (o : Nat) (w : Word) : (Machine.regWrite s o w).host.peak = s.host.peak := by obtain ⟨_, _, _, _, _, h⟩ := regWrite_eq s o w; rw [h]
@[simp] theorem regWrite_host_dbDrop (s : State) (o : Nat) (w : Word) : (Machine.regWrite s o w).host.dbDrop = s.host.dbDrop := by obtain ⟨_, _, _, _, _, h⟩ := regWrite_eq s o w; rw [h]
@[simp] theorem regWrite_host_pushDrop (s : State) (o : Nat) (w : Word) : (Machine.regWrite s o w).host.pushDrop = s.host.pushDrop := by obtain ⟨_, _, _, _, _, h⟩ := regWrite_eq s o w; rw [h]
@[simp] theorem regWrite_host_pushOvf (s : State) (o : Nat) (w : Word) : (Machine.regWrite s o w).host.pushOvf = s.host.pushOvf := by obtain ⟨_, _, _, _, _, h⟩ := regWrite_eq s o w; rw [h]
@[simp] theorem regWrite_host_unsolCnt (s : State) (o : Nat) (w : Word) : (Machine.regWrite s o w).host.unsolCnt = s.host.unsolCnt := by obtain ⟨_, _, _, _, _, h⟩ := regWrite_eq s o w; rw [h]
@[simp] theorem regWrite_host_msixMask (s : State) (o : Nat) (w : Word) : (Machine.regWrite s o w).host.msixMask = s.host.msixMask := by obtain ⟨_, _, _, _, _, h⟩ := regWrite_eq s o w; rw [h]
@[simp] theorem regWrite_host_uidNext (s : State) (o : Nat) (w : Word) : (Machine.regWrite s o w).host.uidNext = s.host.uidNext := by obtain ⟨_, _, _, _, _, h⟩ := regWrite_eq s o w; rw [h]
@[simp] theorem regWrite_host_delivNext (s : State) (o : Nat) (w : Word) : (Machine.regWrite s o w).host.delivNext = s.host.delivNext := by obtain ⟨_, _, _, _, _, h⟩ := regWrite_eq s o w; rw [h]
@[simp] theorem regWrite_host_lastRead (s : State) (o : Nat) (w : Word) : (Machine.regWrite s o w).host.lastRead = s.host.lastRead := by obtain ⟨_, _, _, _, _, h⟩ := regWrite_eq s o w; rw [h]
@[simp] theorem regWrite_host_linkDown (s : State) (o : Nat) (w : Word) : (Machine.regWrite s o w).host.linkDown = s.host.linkDown := by obtain ⟨_, _, _, _, _, h⟩ := regWrite_eq s o w; rw [h]
@[simp] theorem regWrite_host_posted (s : State) (o : Nat) (w : Word) : (Machine.regWrite s o w).host.posted = s.host.posted := by obtain ⟨_, _, _, _, _, h⟩ := regWrite_eq s o w; rw [h]
@[simp] theorem regWrite_host_pcie (s : State) (o : Nat) (w : Word) : (Machine.regWrite s o w).host.pcie = s.host.pcie := by obtain ⟨_, _, _, _, _, h⟩ := regWrite_eq s o w; rw [h]
@[simp] theorem regWrite_flt (s : State) (o : Nat) (w : Word) : (Machine.regWrite s o w).flt = s.flt := by obtain ⟨_, _, _, _, _, h⟩ := regWrite_eq s o w; rw [h]
@[simp] theorem regWrite_recs (s : State) (o : Nat) (w : Word) : (Machine.regWrite s o w).recs = s.recs := by obtain ⟨_, _, _, _, _, h⟩ := regWrite_eq s o w; rw [h]
@[simp] theorem regWrite_upd (s : State) (o : Nat) (w : Word) : (Machine.regWrite s o w).upd = s.upd := by obtain ⟨_, _, _, _, _, h⟩ := regWrite_eq s o w; rw [h]
@[simp] theorem regWrite_boot (s : State) (o : Nat) (w : Word) : (Machine.regWrite s o w).boot = s.boot := by obtain ⟨_, _, _, _, _, h⟩ := regWrite_eq s o w; rw [h]
@[simp] theorem regWrite_time (s : State) (o : Nat) (w : Word) : (Machine.regWrite s o w).time = s.time := by obtain ⟨_, _, _, _, _, h⟩ := regWrite_eq s o w; rw [h]
@[simp] theorem regWrite_harn (s : State) (o : Nat) (w : Word) : (Machine.regWrite s o w).harn = s.harn := by obtain ⟨_, _, _, _, _, h⟩ := regWrite_eq s o w; rw [h]
@[simp] theorem regWrite_rp (s : State) (o : Nat) (w : Word) : (Machine.regWrite s o w).rp = s.rp := by obtain ⟨_, _, _, _, _, h⟩ := regWrite_eq s o w; rw [h]
@[simp] theorem regWrite_keys (s : State) (o : Nat) (w : Word) : (Machine.regWrite s o w).keys = s.keys := by obtain ⟨_, _, _, _, _, h⟩ := regWrite_eq s o w; rw [h]
@[simp] theorem regWrite_sealU (s : State) (o : Nat) (w : Word) : (Machine.regWrite s o w).sealU = s.sealU := by obtain ⟨_, _, _, _, _, h⟩ := regWrite_eq s o w; rw [h]
@[simp] theorem regWrite_ce (s : State) (o : Nat) (w : Word) : (Machine.regWrite s o w).ce = s.ce := by obtain ⟨_, _, _, _, _, h⟩ := regWrite_eq s o w; rw [h]
@[simp] theorem regWrite_bill (s : State) (o : Nat) (w : Word) : (Machine.regWrite s o w).bill = s.bill := by obtain ⟨_, _, _, _, _, h⟩ := regWrite_eq s o w; rw [h]
@[simp] theorem regWrite_chan (s : State) (o : Nat) (w : Word) : (Machine.regWrite s o w).chan = s.chan := by obtain ⟨_, _, _, _, _, h⟩ := regWrite_eq s o w; rw [h]
@[simp] theorem regWrite_cmd (s : State) (o : Nat) (w : Word) : (Machine.regWrite s o w).cmd = s.cmd := by obtain ⟨_, _, _, _, _, h⟩ := regWrite_eq s o w; rw [h]
@[simp] theorem regWrite_air (s : State) (o : Nat) (w : Word) : (Machine.regWrite s o w).air = s.air := by obtain ⟨_, _, _, _, _, h⟩ := regWrite_eq s o w; rw [h]
@[simp] theorem regWrite_store (s : State) (o : Nat) (w : Word) : (Machine.regWrite s o w).store = s.store := by obtain ⟨_, _, _, _, _, h⟩ := regWrite_eq s o w; rw [h]
@[simp] theorem regWrite_met (s : State) (o : Nat) (w : Word) : (Machine.regWrite s o w).met = s.met := by obtain ⟨_, _, _, _, _, h⟩ := regWrite_eq s o w; rw [h]
@[simp] theorem regWrite_hostMem (s : State) (o : Nat) (w : Word) : (Machine.regWrite s o w).hostMem = s.hostMem := by obtain ⟨_, _, _, _, _, h⟩ := regWrite_eq s o w; rw [h]
@[simp] theorem regWrite_tcxo (s : State) (o : Nat) (w : Word) : (Machine.regWrite s o w).tcxo = s.tcxo := by obtain ⟨_, _, _, _, _, h⟩ := regWrite_eq s o w; rw [h]
@[simp] theorem regWrite_free (s : State) (o : Nat) (w : Word) : (Machine.regWrite s o w).free = s.free := by obtain ⟨_, _, _, _, _, h⟩ := regWrite_eq s o w; rw [h]
@[simp] theorem regWrite_pending (s : State) (o : Nat) (w : Word) : (Machine.regWrite s o w).pending = s.pending := by obtain ⟨_, _, _, _, _, h⟩ := regWrite_eq s o w; rw [h]

/-! ## ringSend -/

@[simp] theorem ringSend_regs (s : State) (p k : Nat) (l : List Nat) : (Machine.ringSend s p k l).regs = s.regs := by obtain ⟨_, _, _, _, h⟩ := ringSend_eq s p k l; rw [h]
@[simp] theorem ringSend_glob (s : State) (p k : Nat) (l : List Nat) : (Machine.ringSend s p k l).glob = s.glob := by obtain ⟨_, _, _, _, h⟩ := ringSend_eq s p k l; rw [h]
@[simp] theorem ringSend_pins (s : State) (p k : Nat) (l : List Nat) : (Machine.ringSend s p k l).pins = s.pins := by obtain ⟨_, _, _, _, h⟩ := ringSend_eq s p k l; rw [h]
@[simp] theorem ringSend_funcs (s : State) (p k : Nat) (l : List Nat) : (Machine.ringSend s p k l).funcs = s.funcs := by obtain ⟨_, _, _, _, h⟩ := ringSend_eq s p k l; rw [h]
@[simp] theorem ringSend_host_sq (s : State) (p k : Nat) (l : List Nat) : (Machine.ringSend s p k l).host.sq = s.host.sq := by obtain ⟨_, _, _, _, h⟩ := ringSend_eq s p k l; rw [h]
@[simp] theorem ringSend_host_cq (s : State) (p k : Nat) (l : List Nat) : (Machine.ringSend s p k l).host.cq = s.host.cq := by obtain ⟨_, _, _, _, h⟩ := ringSend_eq s p k l; rw [h]
@[simp] theorem ringSend_host_rr (s : State) (p k : Nat) (l : List Nat) : (Machine.ringSend s p k l).host.rr = s.host.rr := by obtain ⟨_, _, _, _, h⟩ := ringSend_eq s p k l; rw [h]
@[simp] theorem ringSend_host_flights (s : State) (p k : Nat) (l : List Nat) : (Machine.ringSend s p k l).host.flights = s.host.flights := by obtain ⟨_, _, _, _, h⟩ := ringSend_eq s p k l; rw [h]
@[simp] theorem ringSend_host_pushBuf (s : State) (p k : Nat) (l : List Nat) : (Machine.ringSend s p k l).host.pushBuf = s.host.pushBuf := by obtain ⟨_, _, _, _, h⟩ := ringSend_eq s p k l; rw [h]
@[simp] theorem ringSend_host_admQ (s : State) (p k : Nat) (l : List Nat) : (Machine.ringSend s p k l).host.admQ = s.host.admQ := by obtain ⟨_, _, _, _, h⟩ := ringSend_eq s p k l; rw [h]
@[simp] theorem ringSend_host_jrnl (s : State) (p k : Nat) (l : List Nat) : (Machine.ringSend s p k l).host.jrnl = s.host.jrnl := by obtain ⟨_, _, _, _, h⟩ := ringSend_eq s p k l; rw [h]
@[simp] theorem ringSend_host_deliv (s : State) (p k : Nat) (l : List Nat) : (Machine.ringSend s p k l).host.deliv = s.host.deliv := by obtain ⟨_, _, _, _, h⟩ := ringSend_eq s p k l; rw [h]
@[simp] theorem ringSend_host_peak (s : State) (p k : Nat) (l : List Nat) : (Machine.ringSend s p k l).host.peak = s.host.peak := by obtain ⟨_, _, _, _, h⟩ := ringSend_eq s p k l; rw [h]
@[simp] theorem ringSend_host_dbDrop (s : State) (p k : Nat) (l : List Nat) : (Machine.ringSend s p k l).host.dbDrop = s.host.dbDrop := by obtain ⟨_, _, _, _, h⟩ := ringSend_eq s p k l; rw [h]
@[simp] theorem ringSend_host_pushDrop (s : State) (p k : Nat) (l : List Nat) : (Machine.ringSend s p k l).host.pushDrop = s.host.pushDrop := by obtain ⟨_, _, _, _, h⟩ := ringSend_eq s p k l; rw [h]
@[simp] theorem ringSend_host_pushOvf (s : State) (p k : Nat) (l : List Nat) : (Machine.ringSend s p k l).host.pushOvf = s.host.pushOvf := by obtain ⟨_, _, _, _, h⟩ := ringSend_eq s p k l; rw [h]
@[simp] theorem ringSend_host_unsolCnt (s : State) (p k : Nat) (l : List Nat) : (Machine.ringSend s p k l).host.unsolCnt = s.host.unsolCnt := by obtain ⟨_, _, _, _, h⟩ := ringSend_eq s p k l; rw [h]
@[simp] theorem ringSend_host_msixMask (s : State) (p k : Nat) (l : List Nat) : (Machine.ringSend s p k l).host.msixMask = s.host.msixMask := by obtain ⟨_, _, _, _, h⟩ := ringSend_eq s p k l; rw [h]
@[simp] theorem ringSend_host_uidNext (s : State) (p k : Nat) (l : List Nat) : (Machine.ringSend s p k l).host.uidNext = s.host.uidNext := by obtain ⟨_, _, _, _, h⟩ := ringSend_eq s p k l; rw [h]
@[simp] theorem ringSend_host_delivNext (s : State) (p k : Nat) (l : List Nat) : (Machine.ringSend s p k l).host.delivNext = s.host.delivNext := by obtain ⟨_, _, _, _, h⟩ := ringSend_eq s p k l; rw [h]
@[simp] theorem ringSend_host_lastRead (s : State) (p k : Nat) (l : List Nat) : (Machine.ringSend s p k l).host.lastRead = s.host.lastRead := by obtain ⟨_, _, _, _, h⟩ := ringSend_eq s p k l; rw [h]
@[simp] theorem ringSend_host_linkDown (s : State) (p k : Nat) (l : List Nat) : (Machine.ringSend s p k l).host.linkDown = s.host.linkDown := by obtain ⟨_, _, _, _, h⟩ := ringSend_eq s p k l; rw [h]
@[simp] theorem ringSend_host_posted (s : State) (p k : Nat) (l : List Nat) : (Machine.ringSend s p k l).host.posted = s.host.posted := by obtain ⟨_, _, _, _, h⟩ := ringSend_eq s p k l; rw [h]
@[simp] theorem ringSend_host_pcie (s : State) (p k : Nat) (l : List Nat) : (Machine.ringSend s p k l).host.pcie = s.host.pcie := by obtain ⟨_, _, _, _, h⟩ := ringSend_eq s p k l; rw [h]
@[simp] theorem ringSend_log (s : State) (p k : Nat) (l : List Nat) : (Machine.ringSend s p k l).log = s.log := by obtain ⟨_, _, _, _, h⟩ := ringSend_eq s p k l; rw [h]
@[simp] theorem ringSend_flt (s : State) (p k : Nat) (l : List Nat) : (Machine.ringSend s p k l).flt = s.flt := by obtain ⟨_, _, _, _, h⟩ := ringSend_eq s p k l; rw [h]
@[simp] theorem ringSend_recs (s : State) (p k : Nat) (l : List Nat) : (Machine.ringSend s p k l).recs = s.recs := by obtain ⟨_, _, _, _, h⟩ := ringSend_eq s p k l; rw [h]
@[simp] theorem ringSend_upd (s : State) (p k : Nat) (l : List Nat) : (Machine.ringSend s p k l).upd = s.upd := by obtain ⟨_, _, _, _, h⟩ := ringSend_eq s p k l; rw [h]
@[simp] theorem ringSend_boot (s : State) (p k : Nat) (l : List Nat) : (Machine.ringSend s p k l).boot = s.boot := by obtain ⟨_, _, _, _, h⟩ := ringSend_eq s p k l; rw [h]
@[simp] theorem ringSend_time (s : State) (p k : Nat) (l : List Nat) : (Machine.ringSend s p k l).time = s.time := by obtain ⟨_, _, _, _, h⟩ := ringSend_eq s p k l; rw [h]
@[simp] theorem ringSend_harn_pos (s : State) (p k : Nat) (l : List Nat) : (Machine.ringSend s p k l).harn.pos = s.harn.pos := by obtain ⟨_, _, _, _, h⟩ := ringSend_eq s p k l; rw [h]
@[simp] theorem ringSend_harn_joined (s : State) (p k : Nat) (l : List Nat) : (Machine.ringSend s p k l).harn.joined = s.harn.joined := by obtain ⟨_, _, _, _, h⟩ := ringSend_eq s p k l; rw [h]
@[simp] theorem ringSend_harn_fenced (s : State) (p k : Nat) (l : List Nat) : (Machine.ringSend s p k l).harn.fenced = s.harn.fenced := by obtain ⟨_, _, _, _, h⟩ := ringSend_eq s p k l; rw [h]
@[simp] theorem ringSend_harn_caps (s : State) (p k : Nat) (l : List Nat) : (Machine.ringSend s p k l).harn.caps = s.harn.caps := by obtain ⟨_, _, _, _, h⟩ := ringSend_eq s p k l; rw [h]
@[simp] theorem ringSend_harn_gates (s : State) (p k : Nat) (l : List Nat) : (Machine.ringSend s p k l).harn.gates = s.harn.gates := by obtain ⟨_, _, _, _, h⟩ := ringSend_eq s p k l; rw [h]
@[simp] theorem ringSend_harn_outState (s : State) (p k : Nat) (l : List Nat) : (Machine.ringSend s p k l).harn.outState = s.harn.outState := by obtain ⟨_, _, _, _, h⟩ := ringSend_eq s p k l; rw [h]
@[simp] theorem ringSend_harn_outReason (s : State) (p k : Nat) (l : List Nat) : (Machine.ringSend s p k l).harn.outReason = s.harn.outReason := by obtain ⟨_, _, _, _, h⟩ := ringSend_eq s p k l; rw [h]
@[simp] theorem ringSend_harn_phase (s : State) (p k : Nat) (l : List Nat) : (Machine.ringSend s p k l).harn.phase = s.harn.phase := by obtain ⟨_, _, _, _, h⟩ := ringSend_eq s p k l; rw [h]
@[simp] theorem ringSend_harn_joinErr (s : State) (p k : Nat) (l : List Nat) : (Machine.ringSend s p k l).harn.joinErr = s.harn.joinErr := by obtain ⟨_, _, _, _, h⟩ := ringSend_eq s p k l; rw [h]
@[simp] theorem ringSend_harn_ringId (s : State) (p k : Nat) (l : List Nat) : (Machine.ringSend s p k l).harn.ringId = s.harn.ringId := by obtain ⟨_, _, _, _, h⟩ := ringSend_eq s p k l; rw [h]
@[simp] theorem ringSend_harn_nvPos (s : State) (p k : Nat) (l : List Nat) : (Machine.ringSend s p k l).harn.nvPos = s.harn.nvPos := by obtain ⟨_, _, _, _, h⟩ := ringSend_eq s p k l; rw [h]
@[simp] theorem ringSend_harn_joinedM (s : State) (p k : Nat) (l : List Nat) : (Machine.ringSend s p k l).harn.joinedM = s.harn.joinedM := by obtain ⟨_, _, _, _, h⟩ := ringSend_eq s p k l; rw [h]
@[simp] theorem ringSend_harn_silentM (s : State) (p k : Nat) (l : List Nat) : (Machine.ringSend s p k l).harn.silentM = s.harn.silentM := by obtain ⟨_, _, _, _, h⟩ := ringSend_eq s p k l; rw [h]
@[simp] theorem ringSend_harn_beats (s : State) (p k : Nat) (l : List Nat) : (Machine.ringSend s p k l).harn.beats = s.harn.beats := by obtain ⟨_, _, _, _, h⟩ := ringSend_eq s p k l; rw [h]
@[simp] theorem ringSend_harn_tickAt (s : State) (p k : Nat) (l : List Nat) : (Machine.ringSend s p k l).harn.tickAt = s.harn.tickAt := by obtain ⟨_, _, _, _, h⟩ := ringSend_eq s p k l; rw [h]
@[simp] theorem ringSend_harn_leadReb (s : State) (p k : Nat) (l : List Nat) : (Machine.ringSend s p k l).harn.leadReb = s.harn.leadReb := by obtain ⟨_, _, _, _, h⟩ := ringSend_eq s p k l; rw [h]
@[simp] theorem ringSend_harn_ofsNs (s : State) (p k : Nat) (l : List Nat) : (Machine.ringSend s p k l).harn.ofsNs = s.harn.ofsNs := by obtain ⟨_, _, _, _, h⟩ := ringSend_eq s p k l; rw [h]
@[simp] theorem ringSend_harn_wrapped (s : State) (p k : Nat) (l : List Nat) : (Machine.ringSend s p k l).harn.wrapped = s.harn.wrapped := by obtain ⟨_, _, _, _, h⟩ := ringSend_eq s p k l; rw [h]
@[simp] theorem ringSend_harn_acting (s : State) (p k : Nat) (l : List Nat) : (Machine.ringSend s p k l).harn.acting = s.harn.acting := by obtain ⟨_, _, _, _, h⟩ := ringSend_eq s p k l; rw [h]
@[simp] theorem ringSend_harn_beatsOff (s : State) (p k : Nat) (l : List Nat) : (Machine.ringSend s p k l).harn.beatsOff = s.harn.beatsOff := by obtain ⟨_, _, _, _, h⟩ := ringSend_eq s p k l; rw [h]
@[simp] theorem ringSend_harn_reqs (s : State) (p k : Nat) (l : List Nat) : (Machine.ringSend s p k l).harn.reqs = s.harn.reqs := by obtain ⟨_, _, _, _, h⟩ := ringSend_eq s p k l; rw [h]
@[simp] theorem ringSend_harn_peers (s : State) (p k : Nat) (l : List Nat) : (Machine.ringSend s p k l).harn.peers = s.harn.peers := by obtain ⟨_, _, _, _, h⟩ := ringSend_eq s p k l; rw [h]
@[simp] theorem ringSend_harn_stat (s : State) (p k : Nat) (l : List Nat) : (Machine.ringSend s p k l).harn.stat = s.harn.stat := by obtain ⟨_, _, _, _, h⟩ := ringSend_eq s p k l; rw [h]
@[simp] theorem ringSend_harn_inState (s : State) (p k : Nat) (l : List Nat) : (Machine.ringSend s p k l).harn.inState = s.harn.inState := by obtain ⟨_, _, _, _, h⟩ := ringSend_eq s p k l; rw [h]
@[simp] theorem ringSend_harn_inPos (s : State) (p k : Nat) (l : List Nat) : (Machine.ringSend s p k l).harn.inPos = s.harn.inPos := by obtain ⟨_, _, _, _, h⟩ := ringSend_eq s p k l; rw [h]
@[simp] theorem ringSend_harn_holdRaw (s : State) (p k : Nat) (l : List Nat) : (Machine.ringSend s p k l).harn.holdRaw = s.harn.holdRaw := by obtain ⟨_, _, _, _, h⟩ := ringSend_eq s p k l; rw [h]
@[simp] theorem ringSend_harn_holdRd (s : State) (p k : Nat) (l : List Nat) : (Machine.ringSend s p k l).harn.holdRd = s.harn.holdRd := by obtain ⟨_, _, _, _, h⟩ := ringSend_eq s p k l; rw [h]
@[simp] theorem ringSend_harn_holdCmd (s : State) (p k : Nat) (l : List Nat) : (Machine.ringSend s p k l).harn.holdCmd = s.harn.holdCmd := by obtain ⟨_, _, _, _, h⟩ := ringSend_eq s p k l; rw [h]
@[simp] theorem ringSend_harn_mRecs (s : State) (p k : Nat) (l : List Nat) : (Machine.ringSend s p k l).harn.mRecs = s.harn.mRecs := by obtain ⟨_, _, _, _, h⟩ := ringSend_eq s p k l; rw [h]
@[simp] theorem ringSend_harn_mEnts (s : State) (p k : Nat) (l : List Nat) : (Machine.ringSend s p k l).harn.mEnts = s.harn.mEnts := by obtain ⟨_, _, _, _, h⟩ := ringSend_eq s p k l; rw [h]
@[simp] theorem ringSend_harn_served (s : State) (p k : Nat) (l : List Nat) : (Machine.ringSend s p k l).harn.served = s.harn.served := by obtain ⟨_, _, _, _, h⟩ := ringSend_eq s p k l; rw [h]
@[simp] theorem ringSend_harn_tkoCnt (s : State) (p k : Nat) (l : List Nat) : (Machine.ringSend s p k l).harn.tkoCnt = s.harn.tkoCnt := by obtain ⟨_, _, _, _, h⟩ := ringSend_eq s p k l; rw [h]
@[simp] theorem ringSend_harn_tko (s : State) (p k : Nat) (l : List Nat) : (Machine.ringSend s p k l).harn.tko = s.harn.tko := by obtain ⟨_, _, _, _, h⟩ := ringSend_eq s p k l; rw [h]
@[simp] theorem ringSend_harn_syncLeft (s : State) (p k : Nat) (l : List Nat) : (Machine.ringSend s p k l).harn.syncLeft = s.harn.syncLeft := by obtain ⟨_, _, _, _, h⟩ := ringSend_eq s p k l; rw [h]
@[simp] theorem ringSend_harn_syncPos (s : State) (p k : Nat) (l : List Nat) : (Machine.ringSend s p k l).harn.syncPos = s.harn.syncPos := by obtain ⟨_, _, _, _, h⟩ := ringSend_eq s p k l; rw [h]
@[simp] theorem ringSend_harn_shadow (s : State) (p k : Nat) (l : List Nat) : (Machine.ringSend s p k l).harn.shadow = s.harn.shadow := by obtain ⟨_, _, _, _, h⟩ := ringSend_eq s p k l; rw [h]
@[simp] theorem ringSend_rp (s : State) (p k : Nat) (l : List Nat) : (Machine.ringSend s p k l).rp = s.rp := by obtain ⟨_, _, _, _, h⟩ := ringSend_eq s p k l; rw [h]
@[simp] theorem ringSend_keys (s : State) (p k : Nat) (l : List Nat) : (Machine.ringSend s p k l).keys = s.keys := by obtain ⟨_, _, _, _, h⟩ := ringSend_eq s p k l; rw [h]
@[simp] theorem ringSend_sealU (s : State) (p k : Nat) (l : List Nat) : (Machine.ringSend s p k l).sealU = s.sealU := by obtain ⟨_, _, _, _, h⟩ := ringSend_eq s p k l; rw [h]
@[simp] theorem ringSend_ce (s : State) (p k : Nat) (l : List Nat) : (Machine.ringSend s p k l).ce = s.ce := by obtain ⟨_, _, _, _, h⟩ := ringSend_eq s p k l; rw [h]
@[simp] theorem ringSend_bill (s : State) (p k : Nat) (l : List Nat) : (Machine.ringSend s p k l).bill = s.bill := by obtain ⟨_, _, _, _, h⟩ := ringSend_eq s p k l; rw [h]
@[simp] theorem ringSend_chan (s : State) (p k : Nat) (l : List Nat) : (Machine.ringSend s p k l).chan = s.chan := by obtain ⟨_, _, _, _, h⟩ := ringSend_eq s p k l; rw [h]
@[simp] theorem ringSend_cmd (s : State) (p k : Nat) (l : List Nat) : (Machine.ringSend s p k l).cmd = s.cmd := by obtain ⟨_, _, _, _, h⟩ := ringSend_eq s p k l; rw [h]
@[simp] theorem ringSend_air (s : State) (p k : Nat) (l : List Nat) : (Machine.ringSend s p k l).air = s.air := by obtain ⟨_, _, _, _, h⟩ := ringSend_eq s p k l; rw [h]
@[simp] theorem ringSend_store (s : State) (p k : Nat) (l : List Nat) : (Machine.ringSend s p k l).store = s.store := by obtain ⟨_, _, _, _, h⟩ := ringSend_eq s p k l; rw [h]
@[simp] theorem ringSend_met (s : State) (p k : Nat) (l : List Nat) : (Machine.ringSend s p k l).met = s.met := by obtain ⟨_, _, _, _, h⟩ := ringSend_eq s p k l; rw [h]
@[simp] theorem ringSend_hostMem (s : State) (p k : Nat) (l : List Nat) : (Machine.ringSend s p k l).hostMem = s.hostMem := by obtain ⟨_, _, _, _, h⟩ := ringSend_eq s p k l; rw [h]
@[simp] theorem ringSend_tcxo (s : State) (p k : Nat) (l : List Nat) : (Machine.ringSend s p k l).tcxo = s.tcxo := by obtain ⟨_, _, _, _, h⟩ := ringSend_eq s p k l; rw [h]
@[simp] theorem ringSend_free (s : State) (p k : Nat) (l : List Nat) : (Machine.ringSend s p k l).free = s.free := by obtain ⟨_, _, _, _, h⟩ := ringSend_eq s p k l; rw [h]
@[simp] theorem ringSend_pending (s : State) (p k : Nat) (l : List Nat) : (Machine.ringSend s p k l).pending = s.pending := by obtain ⟨_, _, _, _, h⟩ := ringSend_eq s p k l; rw [h]

/-! ## mirrorSend -/

@[simp] theorem mirrorSend_regs (s : State) (k : Nat) (l : List Nat) : (Machine.mirrorSend s k l).regs = s.regs := by obtain ⟨_, _, _, _, h⟩ := mirrorSend_eq s k l; rw [h]
@[simp] theorem mirrorSend_glob (s : State) (k : Nat) (l : List Nat) : (Machine.mirrorSend s k l).glob = s.glob := by obtain ⟨_, _, _, _, h⟩ := mirrorSend_eq s k l; rw [h]
@[simp] theorem mirrorSend_pins (s : State) (k : Nat) (l : List Nat) : (Machine.mirrorSend s k l).pins = s.pins := by obtain ⟨_, _, _, _, h⟩ := mirrorSend_eq s k l; rw [h]
@[simp] theorem mirrorSend_funcs (s : State) (k : Nat) (l : List Nat) : (Machine.mirrorSend s k l).funcs = s.funcs := by obtain ⟨_, _, _, _, h⟩ := mirrorSend_eq s k l; rw [h]
@[simp] theorem mirrorSend_host_sq (s : State) (k : Nat) (l : List Nat) : (Machine.mirrorSend s k l).host.sq = s.host.sq := by obtain ⟨_, _, _, _, h⟩ := mirrorSend_eq s k l; rw [h]
@[simp] theorem mirrorSend_host_cq (s : State) (k : Nat) (l : List Nat) : (Machine.mirrorSend s k l).host.cq = s.host.cq := by obtain ⟨_, _, _, _, h⟩ := mirrorSend_eq s k l; rw [h]
@[simp] theorem mirrorSend_host_rr (s : State) (k : Nat) (l : List Nat) : (Machine.mirrorSend s k l).host.rr = s.host.rr := by obtain ⟨_, _, _, _, h⟩ := mirrorSend_eq s k l; rw [h]
@[simp] theorem mirrorSend_host_flights (s : State) (k : Nat) (l : List Nat) : (Machine.mirrorSend s k l).host.flights = s.host.flights := by obtain ⟨_, _, _, _, h⟩ := mirrorSend_eq s k l; rw [h]
@[simp] theorem mirrorSend_host_pushBuf (s : State) (k : Nat) (l : List Nat) : (Machine.mirrorSend s k l).host.pushBuf = s.host.pushBuf := by obtain ⟨_, _, _, _, h⟩ := mirrorSend_eq s k l; rw [h]
@[simp] theorem mirrorSend_host_admQ (s : State) (k : Nat) (l : List Nat) : (Machine.mirrorSend s k l).host.admQ = s.host.admQ := by obtain ⟨_, _, _, _, h⟩ := mirrorSend_eq s k l; rw [h]
@[simp] theorem mirrorSend_host_jrnl (s : State) (k : Nat) (l : List Nat) : (Machine.mirrorSend s k l).host.jrnl = s.host.jrnl := by obtain ⟨_, _, _, _, h⟩ := mirrorSend_eq s k l; rw [h]
@[simp] theorem mirrorSend_host_deliv (s : State) (k : Nat) (l : List Nat) : (Machine.mirrorSend s k l).host.deliv = s.host.deliv := by obtain ⟨_, _, _, _, h⟩ := mirrorSend_eq s k l; rw [h]
@[simp] theorem mirrorSend_host_peak (s : State) (k : Nat) (l : List Nat) : (Machine.mirrorSend s k l).host.peak = s.host.peak := by obtain ⟨_, _, _, _, h⟩ := mirrorSend_eq s k l; rw [h]
@[simp] theorem mirrorSend_host_dbDrop (s : State) (k : Nat) (l : List Nat) : (Machine.mirrorSend s k l).host.dbDrop = s.host.dbDrop := by obtain ⟨_, _, _, _, h⟩ := mirrorSend_eq s k l; rw [h]
@[simp] theorem mirrorSend_host_pushDrop (s : State) (k : Nat) (l : List Nat) : (Machine.mirrorSend s k l).host.pushDrop = s.host.pushDrop := by obtain ⟨_, _, _, _, h⟩ := mirrorSend_eq s k l; rw [h]
@[simp] theorem mirrorSend_host_pushOvf (s : State) (k : Nat) (l : List Nat) : (Machine.mirrorSend s k l).host.pushOvf = s.host.pushOvf := by obtain ⟨_, _, _, _, h⟩ := mirrorSend_eq s k l; rw [h]
@[simp] theorem mirrorSend_host_unsolCnt (s : State) (k : Nat) (l : List Nat) : (Machine.mirrorSend s k l).host.unsolCnt = s.host.unsolCnt := by obtain ⟨_, _, _, _, h⟩ := mirrorSend_eq s k l; rw [h]
@[simp] theorem mirrorSend_host_msixMask (s : State) (k : Nat) (l : List Nat) : (Machine.mirrorSend s k l).host.msixMask = s.host.msixMask := by obtain ⟨_, _, _, _, h⟩ := mirrorSend_eq s k l; rw [h]
@[simp] theorem mirrorSend_host_uidNext (s : State) (k : Nat) (l : List Nat) : (Machine.mirrorSend s k l).host.uidNext = s.host.uidNext := by obtain ⟨_, _, _, _, h⟩ := mirrorSend_eq s k l; rw [h]
@[simp] theorem mirrorSend_host_delivNext (s : State) (k : Nat) (l : List Nat) : (Machine.mirrorSend s k l).host.delivNext = s.host.delivNext := by obtain ⟨_, _, _, _, h⟩ := mirrorSend_eq s k l; rw [h]
@[simp] theorem mirrorSend_host_lastRead (s : State) (k : Nat) (l : List Nat) : (Machine.mirrorSend s k l).host.lastRead = s.host.lastRead := by obtain ⟨_, _, _, _, h⟩ := mirrorSend_eq s k l; rw [h]
@[simp] theorem mirrorSend_host_linkDown (s : State) (k : Nat) (l : List Nat) : (Machine.mirrorSend s k l).host.linkDown = s.host.linkDown := by obtain ⟨_, _, _, _, h⟩ := mirrorSend_eq s k l; rw [h]
@[simp] theorem mirrorSend_host_posted (s : State) (k : Nat) (l : List Nat) : (Machine.mirrorSend s k l).host.posted = s.host.posted := by obtain ⟨_, _, _, _, h⟩ := mirrorSend_eq s k l; rw [h]
@[simp] theorem mirrorSend_host_pcie (s : State) (k : Nat) (l : List Nat) : (Machine.mirrorSend s k l).host.pcie = s.host.pcie := by obtain ⟨_, _, _, _, h⟩ := mirrorSend_eq s k l; rw [h]
@[simp] theorem mirrorSend_log (s : State) (k : Nat) (l : List Nat) : (Machine.mirrorSend s k l).log = s.log := by obtain ⟨_, _, _, _, h⟩ := mirrorSend_eq s k l; rw [h]
@[simp] theorem mirrorSend_flt (s : State) (k : Nat) (l : List Nat) : (Machine.mirrorSend s k l).flt = s.flt := by obtain ⟨_, _, _, _, h⟩ := mirrorSend_eq s k l; rw [h]
@[simp] theorem mirrorSend_recs (s : State) (k : Nat) (l : List Nat) : (Machine.mirrorSend s k l).recs = s.recs := by obtain ⟨_, _, _, _, h⟩ := mirrorSend_eq s k l; rw [h]
@[simp] theorem mirrorSend_upd (s : State) (k : Nat) (l : List Nat) : (Machine.mirrorSend s k l).upd = s.upd := by obtain ⟨_, _, _, _, h⟩ := mirrorSend_eq s k l; rw [h]
@[simp] theorem mirrorSend_boot (s : State) (k : Nat) (l : List Nat) : (Machine.mirrorSend s k l).boot = s.boot := by obtain ⟨_, _, _, _, h⟩ := mirrorSend_eq s k l; rw [h]
@[simp] theorem mirrorSend_time (s : State) (k : Nat) (l : List Nat) : (Machine.mirrorSend s k l).time = s.time := by obtain ⟨_, _, _, _, h⟩ := mirrorSend_eq s k l; rw [h]
@[simp] theorem mirrorSend_harn_pos (s : State) (k : Nat) (l : List Nat) : (Machine.mirrorSend s k l).harn.pos = s.harn.pos := by obtain ⟨_, _, _, _, h⟩ := mirrorSend_eq s k l; rw [h]
@[simp] theorem mirrorSend_harn_joined (s : State) (k : Nat) (l : List Nat) : (Machine.mirrorSend s k l).harn.joined = s.harn.joined := by obtain ⟨_, _, _, _, h⟩ := mirrorSend_eq s k l; rw [h]
@[simp] theorem mirrorSend_harn_fenced (s : State) (k : Nat) (l : List Nat) : (Machine.mirrorSend s k l).harn.fenced = s.harn.fenced := by obtain ⟨_, _, _, _, h⟩ := mirrorSend_eq s k l; rw [h]
@[simp] theorem mirrorSend_harn_caps (s : State) (k : Nat) (l : List Nat) : (Machine.mirrorSend s k l).harn.caps = s.harn.caps := by obtain ⟨_, _, _, _, h⟩ := mirrorSend_eq s k l; rw [h]
@[simp] theorem mirrorSend_harn_gates (s : State) (k : Nat) (l : List Nat) : (Machine.mirrorSend s k l).harn.gates = s.harn.gates := by obtain ⟨_, _, _, _, h⟩ := mirrorSend_eq s k l; rw [h]
@[simp] theorem mirrorSend_harn_outState (s : State) (k : Nat) (l : List Nat) : (Machine.mirrorSend s k l).harn.outState = s.harn.outState := by obtain ⟨_, _, _, _, h⟩ := mirrorSend_eq s k l; rw [h]
@[simp] theorem mirrorSend_harn_outReason (s : State) (k : Nat) (l : List Nat) : (Machine.mirrorSend s k l).harn.outReason = s.harn.outReason := by obtain ⟨_, _, _, _, h⟩ := mirrorSend_eq s k l; rw [h]
@[simp] theorem mirrorSend_harn_phase (s : State) (k : Nat) (l : List Nat) : (Machine.mirrorSend s k l).harn.phase = s.harn.phase := by obtain ⟨_, _, _, _, h⟩ := mirrorSend_eq s k l; rw [h]
@[simp] theorem mirrorSend_harn_joinErr (s : State) (k : Nat) (l : List Nat) : (Machine.mirrorSend s k l).harn.joinErr = s.harn.joinErr := by obtain ⟨_, _, _, _, h⟩ := mirrorSend_eq s k l; rw [h]
@[simp] theorem mirrorSend_harn_ringId (s : State) (k : Nat) (l : List Nat) : (Machine.mirrorSend s k l).harn.ringId = s.harn.ringId := by obtain ⟨_, _, _, _, h⟩ := mirrorSend_eq s k l; rw [h]
@[simp] theorem mirrorSend_harn_nvPos (s : State) (k : Nat) (l : List Nat) : (Machine.mirrorSend s k l).harn.nvPos = s.harn.nvPos := by obtain ⟨_, _, _, _, h⟩ := mirrorSend_eq s k l; rw [h]
@[simp] theorem mirrorSend_harn_joinedM (s : State) (k : Nat) (l : List Nat) : (Machine.mirrorSend s k l).harn.joinedM = s.harn.joinedM := by obtain ⟨_, _, _, _, h⟩ := mirrorSend_eq s k l; rw [h]
@[simp] theorem mirrorSend_harn_silentM (s : State) (k : Nat) (l : List Nat) : (Machine.mirrorSend s k l).harn.silentM = s.harn.silentM := by obtain ⟨_, _, _, _, h⟩ := mirrorSend_eq s k l; rw [h]
@[simp] theorem mirrorSend_harn_beats (s : State) (k : Nat) (l : List Nat) : (Machine.mirrorSend s k l).harn.beats = s.harn.beats := by obtain ⟨_, _, _, _, h⟩ := mirrorSend_eq s k l; rw [h]
@[simp] theorem mirrorSend_harn_tickAt (s : State) (k : Nat) (l : List Nat) : (Machine.mirrorSend s k l).harn.tickAt = s.harn.tickAt := by obtain ⟨_, _, _, _, h⟩ := mirrorSend_eq s k l; rw [h]
@[simp] theorem mirrorSend_harn_leadReb (s : State) (k : Nat) (l : List Nat) : (Machine.mirrorSend s k l).harn.leadReb = s.harn.leadReb := by obtain ⟨_, _, _, _, h⟩ := mirrorSend_eq s k l; rw [h]
@[simp] theorem mirrorSend_harn_ofsNs (s : State) (k : Nat) (l : List Nat) : (Machine.mirrorSend s k l).harn.ofsNs = s.harn.ofsNs := by obtain ⟨_, _, _, _, h⟩ := mirrorSend_eq s k l; rw [h]
@[simp] theorem mirrorSend_harn_wrapped (s : State) (k : Nat) (l : List Nat) : (Machine.mirrorSend s k l).harn.wrapped = s.harn.wrapped := by obtain ⟨_, _, _, _, h⟩ := mirrorSend_eq s k l; rw [h]
@[simp] theorem mirrorSend_harn_acting (s : State) (k : Nat) (l : List Nat) : (Machine.mirrorSend s k l).harn.acting = s.harn.acting := by obtain ⟨_, _, _, _, h⟩ := mirrorSend_eq s k l; rw [h]
@[simp] theorem mirrorSend_harn_beatsOff (s : State) (k : Nat) (l : List Nat) : (Machine.mirrorSend s k l).harn.beatsOff = s.harn.beatsOff := by obtain ⟨_, _, _, _, h⟩ := mirrorSend_eq s k l; rw [h]
@[simp] theorem mirrorSend_harn_reqs (s : State) (k : Nat) (l : List Nat) : (Machine.mirrorSend s k l).harn.reqs = s.harn.reqs := by obtain ⟨_, _, _, _, h⟩ := mirrorSend_eq s k l; rw [h]
@[simp] theorem mirrorSend_harn_peers (s : State) (k : Nat) (l : List Nat) : (Machine.mirrorSend s k l).harn.peers = s.harn.peers := by obtain ⟨_, _, _, _, h⟩ := mirrorSend_eq s k l; rw [h]
@[simp] theorem mirrorSend_harn_stat (s : State) (k : Nat) (l : List Nat) : (Machine.mirrorSend s k l).harn.stat = s.harn.stat := by obtain ⟨_, _, _, _, h⟩ := mirrorSend_eq s k l; rw [h]
@[simp] theorem mirrorSend_harn_inState (s : State) (k : Nat) (l : List Nat) : (Machine.mirrorSend s k l).harn.inState = s.harn.inState := by obtain ⟨_, _, _, _, h⟩ := mirrorSend_eq s k l; rw [h]
@[simp] theorem mirrorSend_harn_inPos (s : State) (k : Nat) (l : List Nat) : (Machine.mirrorSend s k l).harn.inPos = s.harn.inPos := by obtain ⟨_, _, _, _, h⟩ := mirrorSend_eq s k l; rw [h]
@[simp] theorem mirrorSend_harn_holdRaw (s : State) (k : Nat) (l : List Nat) : (Machine.mirrorSend s k l).harn.holdRaw = s.harn.holdRaw := by obtain ⟨_, _, _, _, h⟩ := mirrorSend_eq s k l; rw [h]
@[simp] theorem mirrorSend_harn_holdRd (s : State) (k : Nat) (l : List Nat) : (Machine.mirrorSend s k l).harn.holdRd = s.harn.holdRd := by obtain ⟨_, _, _, _, h⟩ := mirrorSend_eq s k l; rw [h]
@[simp] theorem mirrorSend_harn_holdCmd (s : State) (k : Nat) (l : List Nat) : (Machine.mirrorSend s k l).harn.holdCmd = s.harn.holdCmd := by obtain ⟨_, _, _, _, h⟩ := mirrorSend_eq s k l; rw [h]
@[simp] theorem mirrorSend_harn_mRecs (s : State) (k : Nat) (l : List Nat) : (Machine.mirrorSend s k l).harn.mRecs = s.harn.mRecs := by obtain ⟨_, _, _, _, h⟩ := mirrorSend_eq s k l; rw [h]
@[simp] theorem mirrorSend_harn_mEnts (s : State) (k : Nat) (l : List Nat) : (Machine.mirrorSend s k l).harn.mEnts = s.harn.mEnts := by obtain ⟨_, _, _, _, h⟩ := mirrorSend_eq s k l; rw [h]
@[simp] theorem mirrorSend_harn_served (s : State) (k : Nat) (l : List Nat) : (Machine.mirrorSend s k l).harn.served = s.harn.served := by obtain ⟨_, _, _, _, h⟩ := mirrorSend_eq s k l; rw [h]
@[simp] theorem mirrorSend_harn_tkoCnt (s : State) (k : Nat) (l : List Nat) : (Machine.mirrorSend s k l).harn.tkoCnt = s.harn.tkoCnt := by obtain ⟨_, _, _, _, h⟩ := mirrorSend_eq s k l; rw [h]
@[simp] theorem mirrorSend_harn_tko (s : State) (k : Nat) (l : List Nat) : (Machine.mirrorSend s k l).harn.tko = s.harn.tko := by obtain ⟨_, _, _, _, h⟩ := mirrorSend_eq s k l; rw [h]
@[simp] theorem mirrorSend_harn_syncLeft (s : State) (k : Nat) (l : List Nat) : (Machine.mirrorSend s k l).harn.syncLeft = s.harn.syncLeft := by obtain ⟨_, _, _, _, h⟩ := mirrorSend_eq s k l; rw [h]
@[simp] theorem mirrorSend_harn_syncPos (s : State) (k : Nat) (l : List Nat) : (Machine.mirrorSend s k l).harn.syncPos = s.harn.syncPos := by obtain ⟨_, _, _, _, h⟩ := mirrorSend_eq s k l; rw [h]
@[simp] theorem mirrorSend_harn_shadow (s : State) (k : Nat) (l : List Nat) : (Machine.mirrorSend s k l).harn.shadow = s.harn.shadow := by obtain ⟨_, _, _, _, h⟩ := mirrorSend_eq s k l; rw [h]
@[simp] theorem mirrorSend_rp (s : State) (k : Nat) (l : List Nat) : (Machine.mirrorSend s k l).rp = s.rp := by obtain ⟨_, _, _, _, h⟩ := mirrorSend_eq s k l; rw [h]
@[simp] theorem mirrorSend_keys (s : State) (k : Nat) (l : List Nat) : (Machine.mirrorSend s k l).keys = s.keys := by obtain ⟨_, _, _, _, h⟩ := mirrorSend_eq s k l; rw [h]
@[simp] theorem mirrorSend_sealU (s : State) (k : Nat) (l : List Nat) : (Machine.mirrorSend s k l).sealU = s.sealU := by obtain ⟨_, _, _, _, h⟩ := mirrorSend_eq s k l; rw [h]
@[simp] theorem mirrorSend_ce (s : State) (k : Nat) (l : List Nat) : (Machine.mirrorSend s k l).ce = s.ce := by obtain ⟨_, _, _, _, h⟩ := mirrorSend_eq s k l; rw [h]
@[simp] theorem mirrorSend_bill (s : State) (k : Nat) (l : List Nat) : (Machine.mirrorSend s k l).bill = s.bill := by obtain ⟨_, _, _, _, h⟩ := mirrorSend_eq s k l; rw [h]
@[simp] theorem mirrorSend_chan (s : State) (k : Nat) (l : List Nat) : (Machine.mirrorSend s k l).chan = s.chan := by obtain ⟨_, _, _, _, h⟩ := mirrorSend_eq s k l; rw [h]
@[simp] theorem mirrorSend_cmd (s : State) (k : Nat) (l : List Nat) : (Machine.mirrorSend s k l).cmd = s.cmd := by obtain ⟨_, _, _, _, h⟩ := mirrorSend_eq s k l; rw [h]
@[simp] theorem mirrorSend_air (s : State) (k : Nat) (l : List Nat) : (Machine.mirrorSend s k l).air = s.air := by obtain ⟨_, _, _, _, h⟩ := mirrorSend_eq s k l; rw [h]
@[simp] theorem mirrorSend_store (s : State) (k : Nat) (l : List Nat) : (Machine.mirrorSend s k l).store = s.store := by obtain ⟨_, _, _, _, h⟩ := mirrorSend_eq s k l; rw [h]
@[simp] theorem mirrorSend_met (s : State) (k : Nat) (l : List Nat) : (Machine.mirrorSend s k l).met = s.met := by obtain ⟨_, _, _, _, h⟩ := mirrorSend_eq s k l; rw [h]
@[simp] theorem mirrorSend_hostMem (s : State) (k : Nat) (l : List Nat) : (Machine.mirrorSend s k l).hostMem = s.hostMem := by obtain ⟨_, _, _, _, h⟩ := mirrorSend_eq s k l; rw [h]
@[simp] theorem mirrorSend_tcxo (s : State) (k : Nat) (l : List Nat) : (Machine.mirrorSend s k l).tcxo = s.tcxo := by obtain ⟨_, _, _, _, h⟩ := mirrorSend_eq s k l; rw [h]
@[simp] theorem mirrorSend_free (s : State) (k : Nat) (l : List Nat) : (Machine.mirrorSend s k l).free = s.free := by obtain ⟨_, _, _, _, h⟩ := mirrorSend_eq s k l; rw [h]
@[simp] theorem mirrorSend_pending (s : State) (k : Nat) (l : List Nat) : (Machine.mirrorSend s k l).pending = s.pending := by obtain ⟨_, _, _, _, h⟩ := mirrorSend_eq s k l; rw [h]

/-! ## jrnlMod -/

@[simp] theorem jrnlMod_regs (s : State) (u : Nat) (g : JrnlEnt → JrnlEnt) : (Machine.jrnlMod s u g).regs = s.regs := by obtain ⟨_, _, _, _, _, _, _, _, h⟩ := jrnlMod_eq s u g; rw [h]; rfl
@[simp] theorem jrnlMod_glob (s : State) (u : Nat) (g : JrnlEnt → JrnlEnt) : (Machine.jrnlMod s u g).glob = s.glob := by obtain ⟨_, _, _, _, _, _, _, _, h⟩ := jrnlMod_eq s u g; rw [h]; rfl
@[simp] theorem jrnlMod_pins (s : State) (u : Nat) (g : JrnlEnt → JrnlEnt) : (Machine.jrnlMod s u g).pins = s.pins := by obtain ⟨_, _, _, _, _, _, _, _, h⟩ := jrnlMod_eq s u g; rw [h]; rfl
@[simp] theorem jrnlMod_funcs (s : State) (u : Nat) (g : JrnlEnt → JrnlEnt) : (Machine.jrnlMod s u g).funcs = s.funcs := by obtain ⟨_, _, _, _, _, _, _, _, h⟩ := jrnlMod_eq s u g; rw [h]; rfl
@[simp] theorem jrnlMod_host_sq (s : State) (u : Nat) (g : JrnlEnt → JrnlEnt) : (Machine.jrnlMod s u g).host.sq = s.host.sq := by obtain ⟨_, _, _, _, _, _, _, _, h⟩ := jrnlMod_eq s u g; rw [h]; rfl
@[simp] theorem jrnlMod_host_cq (s : State) (u : Nat) (g : JrnlEnt → JrnlEnt) : (Machine.jrnlMod s u g).host.cq = s.host.cq := by obtain ⟨_, _, _, _, _, _, _, _, h⟩ := jrnlMod_eq s u g; rw [h]; rfl
@[simp] theorem jrnlMod_host_rr (s : State) (u : Nat) (g : JrnlEnt → JrnlEnt) : (Machine.jrnlMod s u g).host.rr = s.host.rr := by obtain ⟨_, _, _, _, _, _, _, _, h⟩ := jrnlMod_eq s u g; rw [h]; rfl
@[simp] theorem jrnlMod_host_flights (s : State) (u : Nat) (g : JrnlEnt → JrnlEnt) : (Machine.jrnlMod s u g).host.flights = s.host.flights := by obtain ⟨_, _, _, _, _, _, _, _, h⟩ := jrnlMod_eq s u g; rw [h]; rfl
@[simp] theorem jrnlMod_host_pushBuf (s : State) (u : Nat) (g : JrnlEnt → JrnlEnt) : (Machine.jrnlMod s u g).host.pushBuf = s.host.pushBuf := by obtain ⟨_, _, _, _, _, _, _, _, h⟩ := jrnlMod_eq s u g; rw [h]; rfl
@[simp] theorem jrnlMod_host_admQ (s : State) (u : Nat) (g : JrnlEnt → JrnlEnt) : (Machine.jrnlMod s u g).host.admQ = s.host.admQ := by obtain ⟨_, _, _, _, _, _, _, _, h⟩ := jrnlMod_eq s u g; rw [h]; rfl
@[simp] theorem jrnlMod_host_deliv (s : State) (u : Nat) (g : JrnlEnt → JrnlEnt) : (Machine.jrnlMod s u g).host.deliv = s.host.deliv := by obtain ⟨_, _, _, _, _, _, _, _, h⟩ := jrnlMod_eq s u g; rw [h]; rfl
@[simp] theorem jrnlMod_host_peak (s : State) (u : Nat) (g : JrnlEnt → JrnlEnt) : (Machine.jrnlMod s u g).host.peak = s.host.peak := by obtain ⟨_, _, _, _, _, _, _, _, h⟩ := jrnlMod_eq s u g; rw [h]; rfl
@[simp] theorem jrnlMod_host_dbDrop (s : State) (u : Nat) (g : JrnlEnt → JrnlEnt) : (Machine.jrnlMod s u g).host.dbDrop = s.host.dbDrop := by obtain ⟨_, _, _, _, _, _, _, _, h⟩ := jrnlMod_eq s u g; rw [h]; rfl
@[simp] theorem jrnlMod_host_pushDrop (s : State) (u : Nat) (g : JrnlEnt → JrnlEnt) : (Machine.jrnlMod s u g).host.pushDrop = s.host.pushDrop := by obtain ⟨_, _, _, _, _, _, _, _, h⟩ := jrnlMod_eq s u g; rw [h]; rfl
@[simp] theorem jrnlMod_host_pushOvf (s : State) (u : Nat) (g : JrnlEnt → JrnlEnt) : (Machine.jrnlMod s u g).host.pushOvf = s.host.pushOvf := by obtain ⟨_, _, _, _, _, _, _, _, h⟩ := jrnlMod_eq s u g; rw [h]; rfl
@[simp] theorem jrnlMod_host_unsolCnt (s : State) (u : Nat) (g : JrnlEnt → JrnlEnt) : (Machine.jrnlMod s u g).host.unsolCnt = s.host.unsolCnt := by obtain ⟨_, _, _, _, _, _, _, _, h⟩ := jrnlMod_eq s u g; rw [h]; rfl
@[simp] theorem jrnlMod_host_msixMask (s : State) (u : Nat) (g : JrnlEnt → JrnlEnt) : (Machine.jrnlMod s u g).host.msixMask = s.host.msixMask := by obtain ⟨_, _, _, _, _, _, _, _, h⟩ := jrnlMod_eq s u g; rw [h]; rfl
@[simp] theorem jrnlMod_host_uidNext (s : State) (u : Nat) (g : JrnlEnt → JrnlEnt) : (Machine.jrnlMod s u g).host.uidNext = s.host.uidNext := by obtain ⟨_, _, _, _, _, _, _, _, h⟩ := jrnlMod_eq s u g; rw [h]; rfl
@[simp] theorem jrnlMod_host_delivNext (s : State) (u : Nat) (g : JrnlEnt → JrnlEnt) : (Machine.jrnlMod s u g).host.delivNext = s.host.delivNext := by obtain ⟨_, _, _, _, _, _, _, _, h⟩ := jrnlMod_eq s u g; rw [h]; rfl
@[simp] theorem jrnlMod_host_lastRead (s : State) (u : Nat) (g : JrnlEnt → JrnlEnt) : (Machine.jrnlMod s u g).host.lastRead = s.host.lastRead := by obtain ⟨_, _, _, _, _, _, _, _, h⟩ := jrnlMod_eq s u g; rw [h]; rfl
@[simp] theorem jrnlMod_host_linkDown (s : State) (u : Nat) (g : JrnlEnt → JrnlEnt) : (Machine.jrnlMod s u g).host.linkDown = s.host.linkDown := by obtain ⟨_, _, _, _, _, _, _, _, h⟩ := jrnlMod_eq s u g; rw [h]; rfl
@[simp] theorem jrnlMod_host_posted (s : State) (u : Nat) (g : JrnlEnt → JrnlEnt) : (Machine.jrnlMod s u g).host.posted = s.host.posted := by obtain ⟨_, _, _, _, _, _, _, _, h⟩ := jrnlMod_eq s u g; rw [h]; rfl
@[simp] theorem jrnlMod_host_pcie (s : State) (u : Nat) (g : JrnlEnt → JrnlEnt) : (Machine.jrnlMod s u g).host.pcie = s.host.pcie := by obtain ⟨_, _, _, _, _, _, _, _, h⟩ := jrnlMod_eq s u g; rw [h]; rfl
@[simp] theorem jrnlMod_log (s : State) (u : Nat) (g : JrnlEnt → JrnlEnt) : (Machine.jrnlMod s u g).log = s.log := by obtain ⟨_, _, _, _, _, _, _, _, h⟩ := jrnlMod_eq s u g; rw [h]; rfl
@[simp] theorem jrnlMod_flt (s : State) (u : Nat) (g : JrnlEnt → JrnlEnt) : (Machine.jrnlMod s u g).flt = s.flt := by obtain ⟨_, _, _, _, _, _, _, _, h⟩ := jrnlMod_eq s u g; rw [h]; rfl
@[simp] theorem jrnlMod_recs_tab (s : State) (u : Nat) (g : JrnlEnt → JrnlEnt) : (Machine.jrnlMod s u g).recs.tab = s.recs.tab := by obtain ⟨_, _, _, _, _, _, _, _, h⟩ := jrnlMod_eq s u g; rw [h]; rfl
@[simp] theorem jrnlMod_recs_pins (s : State) (u : Nat) (g : JrnlEnt → JrnlEnt) : (Machine.jrnlMod s u g).recs.pins = s.recs.pins := by obtain ⟨_, _, _, _, _, _, _, _, h⟩ := jrnlMod_eq s u g; rw [h]; rfl
@[simp] theorem jrnlMod_recs_retire (s : State) (u : Nat) (g : JrnlEnt → JrnlEnt) : (Machine.jrnlMod s u g).recs.retire = s.recs.retire := by obtain ⟨_, _, _, _, _, _, _, _, h⟩ := jrnlMod_eq s u g; rw [h]; rfl
@[simp] theorem jrnlMod_recs_dramMib (s : State) (u : Nat) (g : JrnlEnt → JrnlEnt) : (Machine.jrnlMod s u g).recs.dramMib = s.recs.dramMib := by obtain ⟨_, _, _, _, _, _, _, _, h⟩ := jrnlMod_eq s u g; rw [h]; rfl
@[simp] theorem jrnlMod_recs_owner (s : State) (u : Nat) (g : JrnlEnt → JrnlEnt) : (Machine.jrnlMod s u g).recs.owner = s.recs.owner := by obtain ⟨_, _, _, _, _, _, _, _, h⟩ := jrnlMod_eq s u g; rw [h]; rfl
@[simp] theorem jrnlMod_recs_epoch (s : State) (u : Nat) (g : JrnlEnt → JrnlEnt) : (Machine.jrnlMod s u g).recs.epoch = s.recs.epoch := by obtain ⟨_, _, _, _, _, _, _, _, h⟩ := jrnlMod_eq s u g; rw [h]; rfl
@[simp] theorem jrnlMod_recs_fmt (s : State) (u : Nat) (g : JrnlEnt → JrnlEnt) : (Machine.jrnlMod s u g).recs.fmt = s.recs.fmt := by obtain ⟨_, _, _, _, _, _, _, _, h⟩ := jrnlMod_eq s u g; rw [h]; rfl
@[simp] theorem jrnlMod_recs_migrate (s : State) (u : Nat) (g : JrnlEnt → JrnlEnt) : (Machine.jrnlMod s u g).recs.migrate = s.recs.migrate := by obtain ⟨_, _, _, _, _, _, _, _, h⟩ := jrnlMod_eq s u g; rw [h]; rfl
@[simp] theorem jrnlMod_recs_durable (s : State) (u : Nat) (g : JrnlEnt → JrnlEnt) : (Machine.jrnlMod s u g).recs.durable = s.recs.durable := by obtain ⟨_, _, _, _, _, _, _, _, h⟩ := jrnlMod_eq s u g; rw [h]; rfl
@[simp] theorem jrnlMod_recs_ckptCnt (s : State) (u : Nat) (g : JrnlEnt → JrnlEnt) : (Machine.jrnlMod s u g).recs.ckptCnt = s.recs.ckptCnt := by obtain ⟨_, _, _, _, _, _, _, _, h⟩ := jrnlMod_eq s u g; rw [h]; rfl
@[simp] theorem jrnlMod_recs_ckptAct (s : State) (u : Nat) (g : JrnlEnt → JrnlEnt) : (Machine.jrnlMod s u g).recs.ckptAct = s.recs.ckptAct := by obtain ⟨_, _, _, _, _, _, _, _, h⟩ := jrnlMod_eq s u g; rw [h]; rfl
@[simp] theorem jrnlMod_recs_ckptAt (s : State) (u : Nat) (g : JrnlEnt → JrnlEnt) : (Machine.jrnlMod s u g).recs.ckptAt = s.recs.ckptAt := by obtain ⟨_, _, _, _, _, _, _, _, h⟩ := jrnlMod_eq s u g; rw [h]; rfl
@[simp] theorem jrnlMod_recs_ckpt (s : State) (u : Nat) (g : JrnlEnt → JrnlEnt) : (Machine.jrnlMod s u g).recs.ckpt = s.recs.ckpt := by obtain ⟨_, _, _, _, _, _, _, _, h⟩ := jrnlMod_eq s u g; rw [h]; rfl
@[simp] theorem jrnlMod_recs_ckptEnts (s : State) (u : Nat) (g : JrnlEnt → JrnlEnt) : (Machine.jrnlMod s u g).recs.ckptEnts = s.recs.ckptEnts := by obtain ⟨_, _, _, _, _, _, _, _, h⟩ := jrnlMod_eq s u g; rw [h]; rfl
@[simp] theorem jrnlMod_recs_jnand (s : State) (u : Nat) (g : JrnlEnt → JrnlEnt) : (Machine.jrnlMod s u g).recs.jnand = s.recs.jnand := by obtain ⟨_, _, _, _, _, _, _, _, h⟩ := jrnlMod_eq s u g; rw [h]; rfl
@[simp] theorem jrnlMod_upd (s : State) (u : Nat) (g : JrnlEnt → JrnlEnt) : (Machine.jrnlMod s u g).upd = s.upd := by obtain ⟨_, _, _, _, _, _, _, _, h⟩ := jrnlMod_eq s u g; rw [h]; rfl
@[simp] theorem jrnlMod_boot (s : State) (u : Nat) (g : JrnlEnt → JrnlEnt) : (Machine.jrnlMod s u g).boot = s.boot := by obtain ⟨_, _, _, _, _, _, _, _, h⟩ := jrnlMod_eq s u g; rw [h]; rfl
@[simp] theorem jrnlMod_time (s : State) (u : Nat) (g : JrnlEnt → JrnlEnt) : (Machine.jrnlMod s u g).time = s.time := by obtain ⟨_, _, _, _, _, _, _, _, h⟩ := jrnlMod_eq s u g; rw [h]; rfl
@[simp] theorem jrnlMod_harn_pos (s : State) (u : Nat) (g : JrnlEnt → JrnlEnt) : (Machine.jrnlMod s u g).harn.pos = s.harn.pos := by obtain ⟨_, _, _, _, _, _, _, _, h⟩ := jrnlMod_eq s u g; rw [h]; rfl
@[simp] theorem jrnlMod_harn_joined (s : State) (u : Nat) (g : JrnlEnt → JrnlEnt) : (Machine.jrnlMod s u g).harn.joined = s.harn.joined := by obtain ⟨_, _, _, _, _, _, _, _, h⟩ := jrnlMod_eq s u g; rw [h]; rfl
@[simp] theorem jrnlMod_harn_fenced (s : State) (u : Nat) (g : JrnlEnt → JrnlEnt) : (Machine.jrnlMod s u g).harn.fenced = s.harn.fenced := by obtain ⟨_, _, _, _, _, _, _, _, h⟩ := jrnlMod_eq s u g; rw [h]; rfl
@[simp] theorem jrnlMod_harn_caps (s : State) (u : Nat) (g : JrnlEnt → JrnlEnt) : (Machine.jrnlMod s u g).harn.caps = s.harn.caps := by obtain ⟨_, _, _, _, _, _, _, _, h⟩ := jrnlMod_eq s u g; rw [h]; rfl
@[simp] theorem jrnlMod_harn_gates (s : State) (u : Nat) (g : JrnlEnt → JrnlEnt) : (Machine.jrnlMod s u g).harn.gates = s.harn.gates := by obtain ⟨_, _, _, _, _, _, _, _, h⟩ := jrnlMod_eq s u g; rw [h]; rfl
@[simp] theorem jrnlMod_harn_outState (s : State) (u : Nat) (g : JrnlEnt → JrnlEnt) : (Machine.jrnlMod s u g).harn.outState = s.harn.outState := by obtain ⟨_, _, _, _, _, _, _, _, h⟩ := jrnlMod_eq s u g; rw [h]; rfl
@[simp] theorem jrnlMod_harn_outReason (s : State) (u : Nat) (g : JrnlEnt → JrnlEnt) : (Machine.jrnlMod s u g).harn.outReason = s.harn.outReason := by obtain ⟨_, _, _, _, _, _, _, _, h⟩ := jrnlMod_eq s u g; rw [h]; rfl
@[simp] theorem jrnlMod_harn_phase (s : State) (u : Nat) (g : JrnlEnt → JrnlEnt) : (Machine.jrnlMod s u g).harn.phase = s.harn.phase := by obtain ⟨_, _, _, _, _, _, _, _, h⟩ := jrnlMod_eq s u g; rw [h]; rfl
@[simp] theorem jrnlMod_harn_joinErr (s : State) (u : Nat) (g : JrnlEnt → JrnlEnt) : (Machine.jrnlMod s u g).harn.joinErr = s.harn.joinErr := by obtain ⟨_, _, _, _, _, _, _, _, h⟩ := jrnlMod_eq s u g; rw [h]; rfl
@[simp] theorem jrnlMod_harn_ringId (s : State) (u : Nat) (g : JrnlEnt → JrnlEnt) : (Machine.jrnlMod s u g).harn.ringId = s.harn.ringId := by obtain ⟨_, _, _, _, _, _, _, _, h⟩ := jrnlMod_eq s u g; rw [h]; rfl
@[simp] theorem jrnlMod_harn_nvPos (s : State) (u : Nat) (g : JrnlEnt → JrnlEnt) : (Machine.jrnlMod s u g).harn.nvPos = s.harn.nvPos := by obtain ⟨_, _, _, _, _, _, _, _, h⟩ := jrnlMod_eq s u g; rw [h]; rfl
@[simp] theorem jrnlMod_harn_joinedM (s : State) (u : Nat) (g : JrnlEnt → JrnlEnt) : (Machine.jrnlMod s u g).harn.joinedM = s.harn.joinedM := by obtain ⟨_, _, _, _, _, _, _, _, h⟩ := jrnlMod_eq s u g; rw [h]; rfl
@[simp] theorem jrnlMod_harn_silentM (s : State) (u : Nat) (g : JrnlEnt → JrnlEnt) : (Machine.jrnlMod s u g).harn.silentM = s.harn.silentM := by obtain ⟨_, _, _, _, _, _, _, _, h⟩ := jrnlMod_eq s u g; rw [h]; rfl
@[simp] theorem jrnlMod_harn_beats (s : State) (u : Nat) (g : JrnlEnt → JrnlEnt) : (Machine.jrnlMod s u g).harn.beats = s.harn.beats := by obtain ⟨_, _, _, _, _, _, _, _, h⟩ := jrnlMod_eq s u g; rw [h]; rfl
@[simp] theorem jrnlMod_harn_tickAt (s : State) (u : Nat) (g : JrnlEnt → JrnlEnt) : (Machine.jrnlMod s u g).harn.tickAt = s.harn.tickAt := by obtain ⟨_, _, _, _, _, _, _, _, h⟩ := jrnlMod_eq s u g; rw [h]; rfl
@[simp] theorem jrnlMod_harn_leadReb (s : State) (u : Nat) (g : JrnlEnt → JrnlEnt) : (Machine.jrnlMod s u g).harn.leadReb = s.harn.leadReb := by obtain ⟨_, _, _, _, _, _, _, _, h⟩ := jrnlMod_eq s u g; rw [h]; rfl
@[simp] theorem jrnlMod_harn_ofsNs (s : State) (u : Nat) (g : JrnlEnt → JrnlEnt) : (Machine.jrnlMod s u g).harn.ofsNs = s.harn.ofsNs := by obtain ⟨_, _, _, _, _, _, _, _, h⟩ := jrnlMod_eq s u g; rw [h]; rfl
@[simp] theorem jrnlMod_harn_wrapped (s : State) (u : Nat) (g : JrnlEnt → JrnlEnt) : (Machine.jrnlMod s u g).harn.wrapped = s.harn.wrapped := by obtain ⟨_, _, _, _, _, _, _, _, h⟩ := jrnlMod_eq s u g; rw [h]; rfl
@[simp] theorem jrnlMod_harn_acting (s : State) (u : Nat) (g : JrnlEnt → JrnlEnt) : (Machine.jrnlMod s u g).harn.acting = s.harn.acting := by obtain ⟨_, _, _, _, _, _, _, _, h⟩ := jrnlMod_eq s u g; rw [h]; rfl
@[simp] theorem jrnlMod_harn_beatsOff (s : State) (u : Nat) (g : JrnlEnt → JrnlEnt) : (Machine.jrnlMod s u g).harn.beatsOff = s.harn.beatsOff := by obtain ⟨_, _, _, _, _, _, _, _, h⟩ := jrnlMod_eq s u g; rw [h]; rfl
@[simp] theorem jrnlMod_harn_reqs (s : State) (u : Nat) (g : JrnlEnt → JrnlEnt) : (Machine.jrnlMod s u g).harn.reqs = s.harn.reqs := by obtain ⟨_, _, _, _, _, _, _, _, h⟩ := jrnlMod_eq s u g; rw [h]; rfl
@[simp] theorem jrnlMod_harn_peers (s : State) (u : Nat) (g : JrnlEnt → JrnlEnt) : (Machine.jrnlMod s u g).harn.peers = s.harn.peers := by obtain ⟨_, _, _, _, _, _, _, _, h⟩ := jrnlMod_eq s u g; rw [h]; rfl
@[simp] theorem jrnlMod_harn_stat (s : State) (u : Nat) (g : JrnlEnt → JrnlEnt) : (Machine.jrnlMod s u g).harn.stat = s.harn.stat := by obtain ⟨_, _, _, _, _, _, _, _, h⟩ := jrnlMod_eq s u g; rw [h]; rfl
@[simp] theorem jrnlMod_harn_inState (s : State) (u : Nat) (g : JrnlEnt → JrnlEnt) : (Machine.jrnlMod s u g).harn.inState = s.harn.inState := by obtain ⟨_, _, _, _, _, _, _, _, h⟩ := jrnlMod_eq s u g; rw [h]; rfl
@[simp] theorem jrnlMod_harn_inPos (s : State) (u : Nat) (g : JrnlEnt → JrnlEnt) : (Machine.jrnlMod s u g).harn.inPos = s.harn.inPos := by obtain ⟨_, _, _, _, _, _, _, _, h⟩ := jrnlMod_eq s u g; rw [h]; rfl
@[simp] theorem jrnlMod_harn_holdRaw (s : State) (u : Nat) (g : JrnlEnt → JrnlEnt) : (Machine.jrnlMod s u g).harn.holdRaw = s.harn.holdRaw := by obtain ⟨_, _, _, _, _, _, _, _, h⟩ := jrnlMod_eq s u g; rw [h]; rfl
@[simp] theorem jrnlMod_harn_holdRd (s : State) (u : Nat) (g : JrnlEnt → JrnlEnt) : (Machine.jrnlMod s u g).harn.holdRd = s.harn.holdRd := by obtain ⟨_, _, _, _, _, _, _, _, h⟩ := jrnlMod_eq s u g; rw [h]; rfl
@[simp] theorem jrnlMod_harn_holdCmd (s : State) (u : Nat) (g : JrnlEnt → JrnlEnt) : (Machine.jrnlMod s u g).harn.holdCmd = s.harn.holdCmd := by obtain ⟨_, _, _, _, _, _, _, _, h⟩ := jrnlMod_eq s u g; rw [h]; rfl
@[simp] theorem jrnlMod_harn_mRecs (s : State) (u : Nat) (g : JrnlEnt → JrnlEnt) : (Machine.jrnlMod s u g).harn.mRecs = s.harn.mRecs := by obtain ⟨_, _, _, _, _, _, _, _, h⟩ := jrnlMod_eq s u g; rw [h]; rfl
@[simp] theorem jrnlMod_harn_mEnts (s : State) (u : Nat) (g : JrnlEnt → JrnlEnt) : (Machine.jrnlMod s u g).harn.mEnts = s.harn.mEnts := by obtain ⟨_, _, _, _, _, _, _, _, h⟩ := jrnlMod_eq s u g; rw [h]; rfl
@[simp] theorem jrnlMod_harn_served (s : State) (u : Nat) (g : JrnlEnt → JrnlEnt) : (Machine.jrnlMod s u g).harn.served = s.harn.served := by obtain ⟨_, _, _, _, _, _, _, _, h⟩ := jrnlMod_eq s u g; rw [h]; rfl
@[simp] theorem jrnlMod_harn_tkoCnt (s : State) (u : Nat) (g : JrnlEnt → JrnlEnt) : (Machine.jrnlMod s u g).harn.tkoCnt = s.harn.tkoCnt := by obtain ⟨_, _, _, _, _, _, _, _, h⟩ := jrnlMod_eq s u g; rw [h]; rfl
@[simp] theorem jrnlMod_harn_tko (s : State) (u : Nat) (g : JrnlEnt → JrnlEnt) : (Machine.jrnlMod s u g).harn.tko = s.harn.tko := by obtain ⟨_, _, _, _, _, _, _, _, h⟩ := jrnlMod_eq s u g; rw [h]; rfl
@[simp] theorem jrnlMod_harn_syncLeft (s : State) (u : Nat) (g : JrnlEnt → JrnlEnt) : (Machine.jrnlMod s u g).harn.syncLeft = s.harn.syncLeft := by obtain ⟨_, _, _, _, _, _, _, _, h⟩ := jrnlMod_eq s u g; rw [h]; rfl
@[simp] theorem jrnlMod_harn_syncPos (s : State) (u : Nat) (g : JrnlEnt → JrnlEnt) : (Machine.jrnlMod s u g).harn.syncPos = s.harn.syncPos := by obtain ⟨_, _, _, _, _, _, _, _, h⟩ := jrnlMod_eq s u g; rw [h]; rfl
@[simp] theorem jrnlMod_harn_shadow (s : State) (u : Nat) (g : JrnlEnt → JrnlEnt) : (Machine.jrnlMod s u g).harn.shadow = s.harn.shadow := by obtain ⟨_, _, _, _, _, _, _, _, h⟩ := jrnlMod_eq s u g; rw [h]; rfl
@[simp] theorem jrnlMod_rp (s : State) (u : Nat) (g : JrnlEnt → JrnlEnt) : (Machine.jrnlMod s u g).rp = s.rp := by obtain ⟨_, _, _, _, _, _, _, _, h⟩ := jrnlMod_eq s u g; rw [h]; rfl
@[simp] theorem jrnlMod_keys (s : State) (u : Nat) (g : JrnlEnt → JrnlEnt) : (Machine.jrnlMod s u g).keys = s.keys := by obtain ⟨_, _, _, _, _, _, _, _, h⟩ := jrnlMod_eq s u g; rw [h]; rfl
@[simp] theorem jrnlMod_sealU (s : State) (u : Nat) (g : JrnlEnt → JrnlEnt) : (Machine.jrnlMod s u g).sealU = s.sealU := by obtain ⟨_, _, _, _, _, _, _, _, h⟩ := jrnlMod_eq s u g; rw [h]; rfl
@[simp] theorem jrnlMod_ce (s : State) (u : Nat) (g : JrnlEnt → JrnlEnt) : (Machine.jrnlMod s u g).ce = s.ce := by obtain ⟨_, _, _, _, _, _, _, _, h⟩ := jrnlMod_eq s u g; rw [h]; rfl
@[simp] theorem jrnlMod_bill (s : State) (u : Nat) (g : JrnlEnt → JrnlEnt) : (Machine.jrnlMod s u g).bill = s.bill := by obtain ⟨_, _, _, _, _, _, _, _, h⟩ := jrnlMod_eq s u g; rw [h]; rfl
@[simp] theorem jrnlMod_chan (s : State) (u : Nat) (g : JrnlEnt → JrnlEnt) : (Machine.jrnlMod s u g).chan = s.chan := by obtain ⟨_, _, _, _, _, _, _, _, h⟩ := jrnlMod_eq s u g; rw [h]; rfl
@[simp] theorem jrnlMod_cmd (s : State) (u : Nat) (g : JrnlEnt → JrnlEnt) : (Machine.jrnlMod s u g).cmd = s.cmd := by obtain ⟨_, _, _, _, _, _, _, _, h⟩ := jrnlMod_eq s u g; rw [h]; rfl
@[simp] theorem jrnlMod_air (s : State) (u : Nat) (g : JrnlEnt → JrnlEnt) : (Machine.jrnlMod s u g).air = s.air := by obtain ⟨_, _, _, _, _, _, _, _, h⟩ := jrnlMod_eq s u g; rw [h]; rfl
@[simp] theorem jrnlMod_store (s : State) (u : Nat) (g : JrnlEnt → JrnlEnt) : (Machine.jrnlMod s u g).store = s.store := by obtain ⟨_, _, _, _, _, _, _, _, h⟩ := jrnlMod_eq s u g; rw [h]; rfl
@[simp] theorem jrnlMod_met (s : State) (u : Nat) (g : JrnlEnt → JrnlEnt) : (Machine.jrnlMod s u g).met = s.met := by obtain ⟨_, _, _, _, _, _, _, _, h⟩ := jrnlMod_eq s u g; rw [h]; rfl
@[simp] theorem jrnlMod_hostMem (s : State) (u : Nat) (g : JrnlEnt → JrnlEnt) : (Machine.jrnlMod s u g).hostMem = s.hostMem := by obtain ⟨_, _, _, _, _, _, _, _, h⟩ := jrnlMod_eq s u g; rw [h]; rfl
@[simp] theorem jrnlMod_tcxo (s : State) (u : Nat) (g : JrnlEnt → JrnlEnt) : (Machine.jrnlMod s u g).tcxo = s.tcxo := by obtain ⟨_, _, _, _, _, _, _, _, h⟩ := jrnlMod_eq s u g; rw [h]; rfl
@[simp] theorem jrnlMod_free (s : State) (u : Nat) (g : JrnlEnt → JrnlEnt) : (Machine.jrnlMod s u g).free = s.free := by obtain ⟨_, _, _, _, _, _, _, _, h⟩ := jrnlMod_eq s u g; rw [h]; rfl
@[simp] theorem jrnlMod_pending (s : State) (u : Nat) (g : JrnlEnt → JrnlEnt) : (Machine.jrnlMod s u g).pending = s.pending := by obtain ⟨_, _, _, _, _, _, _, _, h⟩ := jrnlMod_eq s u g; rw [h]; rfl

/-! ## completeAfter -/

@[simp] theorem completeAfter_regs (s : State) (f : Flight) (st p u : Nat) (r : BitVec 128) (a : Option Nat) : (Machine.completeAfter s f st p u r a).regs = s.regs := by obtain ⟨_, _, _, _, _, _, _, _, _, _, h⟩ := completeAfter_eq s f st p u r a; rw [h]
@[simp] theorem completeAfter_glob (s : State) (f : Flight) (st p u : Nat) (r : BitVec 128) (a : Option Nat) : (Machine.completeAfter s f st p u r a).glob = s.glob := by obtain ⟨_, _, _, _, _, _, _, _, _, _, h⟩ := completeAfter_eq s f st p u r a; rw [h]
@[simp] theorem completeAfter_pins (s : State) (f : Flight) (st p u : Nat) (r : BitVec 128) (a : Option Nat) : (Machine.completeAfter s f st p u r a).pins = s.pins := by obtain ⟨_, _, _, _, _, _, _, _, _, _, h⟩ := completeAfter_eq s f st p u r a; rw [h]
@[simp] theorem completeAfter_funcs (s : State) (f : Flight) (st p u : Nat) (r : BitVec 128) (a : Option Nat) : (Machine.completeAfter s f st p u r a).funcs = s.funcs := by obtain ⟨_, _, _, _, _, _, _, _, _, _, h⟩ := completeAfter_eq s f st p u r a; rw [h]
@[simp] theorem completeAfter_host_sq (s : State) (f : Flight) (st p u : Nat) (r : BitVec 128) (a : Option Nat) : (Machine.completeAfter s f st p u r a).host.sq = s.host.sq := by obtain ⟨_, _, _, _, _, _, _, _, _, _, h⟩ := completeAfter_eq s f st p u r a; rw [h]
@[simp] theorem completeAfter_host_rr (s : State) (f : Flight) (st p u : Nat) (r : BitVec 128) (a : Option Nat) : (Machine.completeAfter s f st p u r a).host.rr = s.host.rr := by obtain ⟨_, _, _, _, _, _, _, _, _, _, h⟩ := completeAfter_eq s f st p u r a; rw [h]
@[simp] theorem completeAfter_host_pushBuf (s : State) (f : Flight) (st p u : Nat) (r : BitVec 128) (a : Option Nat) : (Machine.completeAfter s f st p u r a).host.pushBuf = s.host.pushBuf := by obtain ⟨_, _, _, _, _, _, _, _, _, _, h⟩ := completeAfter_eq s f st p u r a; rw [h]
@[simp] theorem completeAfter_host_admQ (s : State) (f : Flight) (st p u : Nat) (r : BitVec 128) (a : Option Nat) : (Machine.completeAfter s f st p u r a).host.admQ = s.host.admQ := by obtain ⟨_, _, _, _, _, _, _, _, _, _, h⟩ := completeAfter_eq s f st p u r a; rw [h]
@[simp] theorem completeAfter_host_deliv (s : State) (f : Flight) (st p u : Nat) (r : BitVec 128) (a : Option Nat) : (Machine.completeAfter s f st p u r a).host.deliv = s.host.deliv := by obtain ⟨_, _, _, _, _, _, _, _, _, _, h⟩ := completeAfter_eq s f st p u r a; rw [h]
@[simp] theorem completeAfter_host_peak (s : State) (f : Flight) (st p u : Nat) (r : BitVec 128) (a : Option Nat) : (Machine.completeAfter s f st p u r a).host.peak = s.host.peak := by obtain ⟨_, _, _, _, _, _, _, _, _, _, h⟩ := completeAfter_eq s f st p u r a; rw [h]
@[simp] theorem completeAfter_host_dbDrop (s : State) (f : Flight) (st p u : Nat) (r : BitVec 128) (a : Option Nat) : (Machine.completeAfter s f st p u r a).host.dbDrop = s.host.dbDrop := by obtain ⟨_, _, _, _, _, _, _, _, _, _, h⟩ := completeAfter_eq s f st p u r a; rw [h]
@[simp] theorem completeAfter_host_pushDrop (s : State) (f : Flight) (st p u : Nat) (r : BitVec 128) (a : Option Nat) : (Machine.completeAfter s f st p u r a).host.pushDrop = s.host.pushDrop := by obtain ⟨_, _, _, _, _, _, _, _, _, _, h⟩ := completeAfter_eq s f st p u r a; rw [h]
@[simp] theorem completeAfter_host_pushOvf (s : State) (f : Flight) (st p u : Nat) (r : BitVec 128) (a : Option Nat) : (Machine.completeAfter s f st p u r a).host.pushOvf = s.host.pushOvf := by obtain ⟨_, _, _, _, _, _, _, _, _, _, h⟩ := completeAfter_eq s f st p u r a; rw [h]
@[simp] theorem completeAfter_host_unsolCnt (s : State) (f : Flight) (st p u : Nat) (r : BitVec 128) (a : Option Nat) : (Machine.completeAfter s f st p u r a).host.unsolCnt = s.host.unsolCnt := by obtain ⟨_, _, _, _, _, _, _, _, _, _, h⟩ := completeAfter_eq s f st p u r a; rw [h]
@[simp] theorem completeAfter_host_msixMask (s : State) (f : Flight) (st p u : Nat) (r : BitVec 128) (a : Option Nat) : (Machine.completeAfter s f st p u r a).host.msixMask = s.host.msixMask := by obtain ⟨_, _, _, _, _, _, _, _, _, _, h⟩ := completeAfter_eq s f st p u r a; rw [h]
@[simp] theorem completeAfter_host_uidNext (s : State) (f : Flight) (st p u : Nat) (r : BitVec 128) (a : Option Nat) : (Machine.completeAfter s f st p u r a).host.uidNext = s.host.uidNext := by obtain ⟨_, _, _, _, _, _, _, _, _, _, h⟩ := completeAfter_eq s f st p u r a; rw [h]
@[simp] theorem completeAfter_host_delivNext (s : State) (f : Flight) (st p u : Nat) (r : BitVec 128) (a : Option Nat) : (Machine.completeAfter s f st p u r a).host.delivNext = s.host.delivNext := by obtain ⟨_, _, _, _, _, _, _, _, _, _, h⟩ := completeAfter_eq s f st p u r a; rw [h]
@[simp] theorem completeAfter_host_lastRead (s : State) (f : Flight) (st p u : Nat) (r : BitVec 128) (a : Option Nat) : (Machine.completeAfter s f st p u r a).host.lastRead = s.host.lastRead := by obtain ⟨_, _, _, _, _, _, _, _, _, _, h⟩ := completeAfter_eq s f st p u r a; rw [h]
@[simp] theorem completeAfter_host_linkDown (s : State) (f : Flight) (st p u : Nat) (r : BitVec 128) (a : Option Nat) : (Machine.completeAfter s f st p u r a).host.linkDown = s.host.linkDown := by obtain ⟨_, _, _, _, _, _, _, _, _, _, h⟩ := completeAfter_eq s f st p u r a; rw [h]
@[simp] theorem completeAfter_host_posted (s : State) (f : Flight) (st p u : Nat) (r : BitVec 128) (a : Option Nat) : (Machine.completeAfter s f st p u r a).host.posted = s.host.posted := by obtain ⟨_, _, _, _, _, _, _, _, _, _, h⟩ := completeAfter_eq s f st p u r a; rw [h]
@[simp] theorem completeAfter_host_pcie (s : State) (f : Flight) (st p u : Nat) (r : BitVec 128) (a : Option Nat) : (Machine.completeAfter s f st p u r a).host.pcie = s.host.pcie := by obtain ⟨_, _, _, _, _, _, _, _, _, _, h⟩ := completeAfter_eq s f st p u r a; rw [h]
@[simp] theorem completeAfter_log (s : State) (f : Flight) (st p u : Nat) (r : BitVec 128) (a : Option Nat) : (Machine.completeAfter s f st p u r a).log = s.log := by obtain ⟨_, _, _, _, _, _, _, _, _, _, h⟩ := completeAfter_eq s f st p u r a; rw [h]
@[simp] theorem completeAfter_flt (s : State) (f : Flight) (st p u : Nat) (r : BitVec 128) (a : Option Nat) : (Machine.completeAfter s f st p u r a).flt = s.flt := by obtain ⟨_, _, _, _, _, _, _, _, _, _, h⟩ := completeAfter_eq s f st p u r a; rw [h]
@[simp] theorem completeAfter_recs_tab (s : State) (f : Flight) (st p u : Nat) (r : BitVec 128) (a : Option Nat) : (Machine.completeAfter s f st p u r a).recs.tab = s.recs.tab := by obtain ⟨_, _, _, _, _, _, _, _, _, _, h⟩ := completeAfter_eq s f st p u r a; rw [h]
@[simp] theorem completeAfter_recs_pins (s : State) (f : Flight) (st p u : Nat) (r : BitVec 128) (a : Option Nat) : (Machine.completeAfter s f st p u r a).recs.pins = s.recs.pins := by obtain ⟨_, _, _, _, _, _, _, _, _, _, h⟩ := completeAfter_eq s f st p u r a; rw [h]
@[simp] theorem completeAfter_recs_retire (s : State) (f : Flight) (st p u : Nat) (r : BitVec 128) (a : Option Nat) : (Machine.completeAfter s f st p u r a).recs.retire = s.recs.retire := by obtain ⟨_, _, _, _, _, _, _, _, _, _, h⟩ := completeAfter_eq s f st p u r a; rw [h]
@[simp] theorem completeAfter_recs_dramMib (s : State) (f : Flight) (st p u : Nat) (r : BitVec 128) (a : Option Nat) : (Machine.completeAfter s f st p u r a).recs.dramMib = s.recs.dramMib := by obtain ⟨_, _, _, _, _, _, _, _, _, _, h⟩ := completeAfter_eq s f st p u r a; rw [h]
@[simp] theorem completeAfter_recs_owner (s : State) (f : Flight) (st p u : Nat) (r : BitVec 128) (a : Option Nat) : (Machine.completeAfter s f st p u r a).recs.owner = s.recs.owner := by obtain ⟨_, _, _, _, _, _, _, _, _, _, h⟩ := completeAfter_eq s f st p u r a; rw [h]
@[simp] theorem completeAfter_recs_epoch (s : State) (f : Flight) (st p u : Nat) (r : BitVec 128) (a : Option Nat) : (Machine.completeAfter s f st p u r a).recs.epoch = s.recs.epoch := by obtain ⟨_, _, _, _, _, _, _, _, _, _, h⟩ := completeAfter_eq s f st p u r a; rw [h]
@[simp] theorem completeAfter_recs_fmt (s : State) (f : Flight) (st p u : Nat) (r : BitVec 128) (a : Option Nat) : (Machine.completeAfter s f st p u r a).recs.fmt = s.recs.fmt := by obtain ⟨_, _, _, _, _, _, _, _, _, _, h⟩ := completeAfter_eq s f st p u r a; rw [h]
@[simp] theorem completeAfter_recs_migrate (s : State) (f : Flight) (st p u : Nat) (r : BitVec 128) (a : Option Nat) : (Machine.completeAfter s f st p u r a).recs.migrate = s.recs.migrate := by obtain ⟨_, _, _, _, _, _, _, _, _, _, h⟩ := completeAfter_eq s f st p u r a; rw [h]
@[simp] theorem completeAfter_recs_durable (s : State) (f : Flight) (st p u : Nat) (r : BitVec 128) (a : Option Nat) : (Machine.completeAfter s f st p u r a).recs.durable = s.recs.durable := by obtain ⟨_, _, _, _, _, _, _, _, _, _, h⟩ := completeAfter_eq s f st p u r a; rw [h]
@[simp] theorem completeAfter_recs_ckptCnt (s : State) (f : Flight) (st p u : Nat) (r : BitVec 128) (a : Option Nat) : (Machine.completeAfter s f st p u r a).recs.ckptCnt = s.recs.ckptCnt := by obtain ⟨_, _, _, _, _, _, _, _, _, _, h⟩ := completeAfter_eq s f st p u r a; rw [h]
@[simp] theorem completeAfter_recs_ckptAct (s : State) (f : Flight) (st p u : Nat) (r : BitVec 128) (a : Option Nat) : (Machine.completeAfter s f st p u r a).recs.ckptAct = s.recs.ckptAct := by obtain ⟨_, _, _, _, _, _, _, _, _, _, h⟩ := completeAfter_eq s f st p u r a; rw [h]
@[simp] theorem completeAfter_recs_ckptAt (s : State) (f : Flight) (st p u : Nat) (r : BitVec 128) (a : Option Nat) : (Machine.completeAfter s f st p u r a).recs.ckptAt = s.recs.ckptAt := by obtain ⟨_, _, _, _, _, _, _, _, _, _, h⟩ := completeAfter_eq s f st p u r a; rw [h]
@[simp] theorem completeAfter_recs_ckpt (s : State) (f : Flight) (st p u : Nat) (r : BitVec 128) (a : Option Nat) : (Machine.completeAfter s f st p u r a).recs.ckpt = s.recs.ckpt := by obtain ⟨_, _, _, _, _, _, _, _, _, _, h⟩ := completeAfter_eq s f st p u r a; rw [h]
@[simp] theorem completeAfter_recs_ckptEnts (s : State) (f : Flight) (st p u : Nat) (r : BitVec 128) (a : Option Nat) : (Machine.completeAfter s f st p u r a).recs.ckptEnts = s.recs.ckptEnts := by obtain ⟨_, _, _, _, _, _, _, _, _, _, h⟩ := completeAfter_eq s f st p u r a; rw [h]
@[simp] theorem completeAfter_recs_jnand (s : State) (f : Flight) (st p u : Nat) (r : BitVec 128) (a : Option Nat) : (Machine.completeAfter s f st p u r a).recs.jnand = s.recs.jnand := by obtain ⟨_, _, _, _, _, _, _, _, _, _, h⟩ := completeAfter_eq s f st p u r a; rw [h]
@[simp] theorem completeAfter_upd (s : State) (f : Flight) (st p u : Nat) (r : BitVec 128) (a : Option Nat) : (Machine.completeAfter s f st p u r a).upd = s.upd := by obtain ⟨_, _, _, _, _, _, _, _, _, _, h⟩ := completeAfter_eq s f st p u r a; rw [h]
@[simp] theorem completeAfter_boot (s : State) (f : Flight) (st p u : Nat) (r : BitVec 128) (a : Option Nat) : (Machine.completeAfter s f st p u r a).boot = s.boot := by obtain ⟨_, _, _, _, _, _, _, _, _, _, h⟩ := completeAfter_eq s f st p u r a; rw [h]
@[simp] theorem completeAfter_time (s : State) (f : Flight) (st p u : Nat) (r : BitVec 128) (a : Option Nat) : (Machine.completeAfter s f st p u r a).time = s.time := by obtain ⟨_, _, _, _, _, _, _, _, _, _, h⟩ := completeAfter_eq s f st p u r a; rw [h]
@[simp] theorem completeAfter_harn_pos (s : State) (f : Flight) (st p u : Nat) (r : BitVec 128) (a : Option Nat) : (Machine.completeAfter s f st p u r a).harn.pos = s.harn.pos := by obtain ⟨_, _, _, _, _, _, _, _, _, _, h⟩ := completeAfter_eq s f st p u r a; rw [h]
@[simp] theorem completeAfter_harn_joined (s : State) (f : Flight) (st p u : Nat) (r : BitVec 128) (a : Option Nat) : (Machine.completeAfter s f st p u r a).harn.joined = s.harn.joined := by obtain ⟨_, _, _, _, _, _, _, _, _, _, h⟩ := completeAfter_eq s f st p u r a; rw [h]
@[simp] theorem completeAfter_harn_fenced (s : State) (f : Flight) (st p u : Nat) (r : BitVec 128) (a : Option Nat) : (Machine.completeAfter s f st p u r a).harn.fenced = s.harn.fenced := by obtain ⟨_, _, _, _, _, _, _, _, _, _, h⟩ := completeAfter_eq s f st p u r a; rw [h]
@[simp] theorem completeAfter_harn_caps (s : State) (f : Flight) (st p u : Nat) (r : BitVec 128) (a : Option Nat) : (Machine.completeAfter s f st p u r a).harn.caps = s.harn.caps := by obtain ⟨_, _, _, _, _, _, _, _, _, _, h⟩ := completeAfter_eq s f st p u r a; rw [h]
@[simp] theorem completeAfter_harn_gates (s : State) (f : Flight) (st p u : Nat) (r : BitVec 128) (a : Option Nat) : (Machine.completeAfter s f st p u r a).harn.gates = s.harn.gates := by obtain ⟨_, _, _, _, _, _, _, _, _, _, h⟩ := completeAfter_eq s f st p u r a; rw [h]
@[simp] theorem completeAfter_harn_outState (s : State) (f : Flight) (st p u : Nat) (r : BitVec 128) (a : Option Nat) : (Machine.completeAfter s f st p u r a).harn.outState = s.harn.outState := by obtain ⟨_, _, _, _, _, _, _, _, _, _, h⟩ := completeAfter_eq s f st p u r a; rw [h]
@[simp] theorem completeAfter_harn_outReason (s : State) (f : Flight) (st p u : Nat) (r : BitVec 128) (a : Option Nat) : (Machine.completeAfter s f st p u r a).harn.outReason = s.harn.outReason := by obtain ⟨_, _, _, _, _, _, _, _, _, _, h⟩ := completeAfter_eq s f st p u r a; rw [h]
@[simp] theorem completeAfter_harn_phase (s : State) (f : Flight) (st p u : Nat) (r : BitVec 128) (a : Option Nat) : (Machine.completeAfter s f st p u r a).harn.phase = s.harn.phase := by obtain ⟨_, _, _, _, _, _, _, _, _, _, h⟩ := completeAfter_eq s f st p u r a; rw [h]
@[simp] theorem completeAfter_harn_joinErr (s : State) (f : Flight) (st p u : Nat) (r : BitVec 128) (a : Option Nat) : (Machine.completeAfter s f st p u r a).harn.joinErr = s.harn.joinErr := by obtain ⟨_, _, _, _, _, _, _, _, _, _, h⟩ := completeAfter_eq s f st p u r a; rw [h]
@[simp] theorem completeAfter_harn_ringId (s : State) (f : Flight) (st p u : Nat) (r : BitVec 128) (a : Option Nat) : (Machine.completeAfter s f st p u r a).harn.ringId = s.harn.ringId := by obtain ⟨_, _, _, _, _, _, _, _, _, _, h⟩ := completeAfter_eq s f st p u r a; rw [h]
@[simp] theorem completeAfter_harn_nvPos (s : State) (f : Flight) (st p u : Nat) (r : BitVec 128) (a : Option Nat) : (Machine.completeAfter s f st p u r a).harn.nvPos = s.harn.nvPos := by obtain ⟨_, _, _, _, _, _, _, _, _, _, h⟩ := completeAfter_eq s f st p u r a; rw [h]
@[simp] theorem completeAfter_harn_joinedM (s : State) (f : Flight) (st p u : Nat) (r : BitVec 128) (a : Option Nat) : (Machine.completeAfter s f st p u r a).harn.joinedM = s.harn.joinedM := by obtain ⟨_, _, _, _, _, _, _, _, _, _, h⟩ := completeAfter_eq s f st p u r a; rw [h]
@[simp] theorem completeAfter_harn_silentM (s : State) (f : Flight) (st p u : Nat) (r : BitVec 128) (a : Option Nat) : (Machine.completeAfter s f st p u r a).harn.silentM = s.harn.silentM := by obtain ⟨_, _, _, _, _, _, _, _, _, _, h⟩ := completeAfter_eq s f st p u r a; rw [h]
@[simp] theorem completeAfter_harn_beats (s : State) (f : Flight) (st p u : Nat) (r : BitVec 128) (a : Option Nat) : (Machine.completeAfter s f st p u r a).harn.beats = s.harn.beats := by obtain ⟨_, _, _, _, _, _, _, _, _, _, h⟩ := completeAfter_eq s f st p u r a; rw [h]
@[simp] theorem completeAfter_harn_tickAt (s : State) (f : Flight) (st p u : Nat) (r : BitVec 128) (a : Option Nat) : (Machine.completeAfter s f st p u r a).harn.tickAt = s.harn.tickAt := by obtain ⟨_, _, _, _, _, _, _, _, _, _, h⟩ := completeAfter_eq s f st p u r a; rw [h]
@[simp] theorem completeAfter_harn_leadReb (s : State) (f : Flight) (st p u : Nat) (r : BitVec 128) (a : Option Nat) : (Machine.completeAfter s f st p u r a).harn.leadReb = s.harn.leadReb := by obtain ⟨_, _, _, _, _, _, _, _, _, _, h⟩ := completeAfter_eq s f st p u r a; rw [h]
@[simp] theorem completeAfter_harn_ofsNs (s : State) (f : Flight) (st p u : Nat) (r : BitVec 128) (a : Option Nat) : (Machine.completeAfter s f st p u r a).harn.ofsNs = s.harn.ofsNs := by obtain ⟨_, _, _, _, _, _, _, _, _, _, h⟩ := completeAfter_eq s f st p u r a; rw [h]
@[simp] theorem completeAfter_harn_wrapped (s : State) (f : Flight) (st p u : Nat) (r : BitVec 128) (a : Option Nat) : (Machine.completeAfter s f st p u r a).harn.wrapped = s.harn.wrapped := by obtain ⟨_, _, _, _, _, _, _, _, _, _, h⟩ := completeAfter_eq s f st p u r a; rw [h]
@[simp] theorem completeAfter_harn_acting (s : State) (f : Flight) (st p u : Nat) (r : BitVec 128) (a : Option Nat) : (Machine.completeAfter s f st p u r a).harn.acting = s.harn.acting := by obtain ⟨_, _, _, _, _, _, _, _, _, _, h⟩ := completeAfter_eq s f st p u r a; rw [h]
@[simp] theorem completeAfter_harn_beatsOff (s : State) (f : Flight) (st p u : Nat) (r : BitVec 128) (a : Option Nat) : (Machine.completeAfter s f st p u r a).harn.beatsOff = s.harn.beatsOff := by obtain ⟨_, _, _, _, _, _, _, _, _, _, h⟩ := completeAfter_eq s f st p u r a; rw [h]
@[simp] theorem completeAfter_harn_reqs (s : State) (f : Flight) (st p u : Nat) (r : BitVec 128) (a : Option Nat) : (Machine.completeAfter s f st p u r a).harn.reqs = s.harn.reqs := by obtain ⟨_, _, _, _, _, _, _, _, _, _, h⟩ := completeAfter_eq s f st p u r a; rw [h]
@[simp] theorem completeAfter_harn_peers (s : State) (f : Flight) (st p u : Nat) (r : BitVec 128) (a : Option Nat) : (Machine.completeAfter s f st p u r a).harn.peers = s.harn.peers := by obtain ⟨_, _, _, _, _, _, _, _, _, _, h⟩ := completeAfter_eq s f st p u r a; rw [h]
@[simp] theorem completeAfter_harn_stat (s : State) (f : Flight) (st p u : Nat) (r : BitVec 128) (a : Option Nat) : (Machine.completeAfter s f st p u r a).harn.stat = s.harn.stat := by obtain ⟨_, _, _, _, _, _, _, _, _, _, h⟩ := completeAfter_eq s f st p u r a; rw [h]
@[simp] theorem completeAfter_harn_inState (s : State) (f : Flight) (st p u : Nat) (r : BitVec 128) (a : Option Nat) : (Machine.completeAfter s f st p u r a).harn.inState = s.harn.inState := by obtain ⟨_, _, _, _, _, _, _, _, _, _, h⟩ := completeAfter_eq s f st p u r a; rw [h]
@[simp] theorem completeAfter_harn_inPos (s : State) (f : Flight) (st p u : Nat) (r : BitVec 128) (a : Option Nat) : (Machine.completeAfter s f st p u r a).harn.inPos = s.harn.inPos := by obtain ⟨_, _, _, _, _, _, _, _, _, _, h⟩ := completeAfter_eq s f st p u r a; rw [h]
@[simp] theorem completeAfter_harn_holdRaw (s : State) (f : Flight) (st p u : Nat) (r : BitVec 128) (a : Option Nat) : (Machine.completeAfter s f st p u r a).harn.holdRaw = s.harn.holdRaw := by obtain ⟨_, _, _, _, _, _, _, _, _, _, h⟩ := completeAfter_eq s f st p u r a; rw [h]
@[simp] theorem completeAfter_harn_holdRd (s : State) (f : Flight) (st p u : Nat) (r : BitVec 128) (a : Option Nat) : (Machine.completeAfter s f st p u r a).harn.holdRd = s.harn.holdRd := by obtain ⟨_, _, _, _, _, _, _, _, _, _, h⟩ := completeAfter_eq s f st p u r a; rw [h]
@[simp] theorem completeAfter_harn_holdCmd (s : State) (f : Flight) (st p u : Nat) (r : BitVec 128) (a : Option Nat) : (Machine.completeAfter s f st p u r a).harn.holdCmd = s.harn.holdCmd := by obtain ⟨_, _, _, _, _, _, _, _, _, _, h⟩ := completeAfter_eq s f st p u r a; rw [h]
@[simp] theorem completeAfter_harn_mRecs (s : State) (f : Flight) (st p u : Nat) (r : BitVec 128) (a : Option Nat) : (Machine.completeAfter s f st p u r a).harn.mRecs = s.harn.mRecs := by obtain ⟨_, _, _, _, _, _, _, _, _, _, h⟩ := completeAfter_eq s f st p u r a; rw [h]
@[simp] theorem completeAfter_harn_mEnts (s : State) (f : Flight) (st p u : Nat) (r : BitVec 128) (a : Option Nat) : (Machine.completeAfter s f st p u r a).harn.mEnts = s.harn.mEnts := by obtain ⟨_, _, _, _, _, _, _, _, _, _, h⟩ := completeAfter_eq s f st p u r a; rw [h]
@[simp] theorem completeAfter_harn_served (s : State) (f : Flight) (st p u : Nat) (r : BitVec 128) (a : Option Nat) : (Machine.completeAfter s f st p u r a).harn.served = s.harn.served := by obtain ⟨_, _, _, _, _, _, _, _, _, _, h⟩ := completeAfter_eq s f st p u r a; rw [h]
@[simp] theorem completeAfter_harn_tkoCnt (s : State) (f : Flight) (st p u : Nat) (r : BitVec 128) (a : Option Nat) : (Machine.completeAfter s f st p u r a).harn.tkoCnt = s.harn.tkoCnt := by obtain ⟨_, _, _, _, _, _, _, _, _, _, h⟩ := completeAfter_eq s f st p u r a; rw [h]
@[simp] theorem completeAfter_harn_tko (s : State) (f : Flight) (st p u : Nat) (r : BitVec 128) (a : Option Nat) : (Machine.completeAfter s f st p u r a).harn.tko = s.harn.tko := by obtain ⟨_, _, _, _, _, _, _, _, _, _, h⟩ := completeAfter_eq s f st p u r a; rw [h]
@[simp] theorem completeAfter_harn_syncLeft (s : State) (f : Flight) (st p u : Nat) (r : BitVec 128) (a : Option Nat) : (Machine.completeAfter s f st p u r a).harn.syncLeft = s.harn.syncLeft := by obtain ⟨_, _, _, _, _, _, _, _, _, _, h⟩ := completeAfter_eq s f st p u r a; rw [h]
@[simp] theorem completeAfter_harn_syncPos (s : State) (f : Flight) (st p u : Nat) (r : BitVec 128) (a : Option Nat) : (Machine.completeAfter s f st p u r a).harn.syncPos = s.harn.syncPos := by obtain ⟨_, _, _, _, _, _, _, _, _, _, h⟩ := completeAfter_eq s f st p u r a; rw [h]
@[simp] theorem completeAfter_harn_shadow (s : State) (f : Flight) (st p u : Nat) (r : BitVec 128) (a : Option Nat) : (Machine.completeAfter s f st p u r a).harn.shadow = s.harn.shadow := by obtain ⟨_, _, _, _, _, _, _, _, _, _, h⟩ := completeAfter_eq s f st p u r a; rw [h]
@[simp] theorem completeAfter_rp (s : State) (f : Flight) (st p u : Nat) (r : BitVec 128) (a : Option Nat) : (Machine.completeAfter s f st p u r a).rp = s.rp := by obtain ⟨_, _, _, _, _, _, _, _, _, _, h⟩ := completeAfter_eq s f st p u r a; rw [h]
@[simp] theorem completeAfter_keys (s : State) (f : Flight) (st p u : Nat) (r : BitVec 128) (a : Option Nat) : (Machine.completeAfter s f st p u r a).keys = s.keys := by obtain ⟨_, _, _, _, _, _, _, _, _, _, h⟩ := completeAfter_eq s f st p u r a; rw [h]
@[simp] theorem completeAfter_sealU (s : State) (f : Flight) (st p u : Nat) (r : BitVec 128) (a : Option Nat) : (Machine.completeAfter s f st p u r a).sealU = s.sealU := by obtain ⟨_, _, _, _, _, _, _, _, _, _, h⟩ := completeAfter_eq s f st p u r a; rw [h]
@[simp] theorem completeAfter_ce (s : State) (f : Flight) (st p u : Nat) (r : BitVec 128) (a : Option Nat) : (Machine.completeAfter s f st p u r a).ce = s.ce := by obtain ⟨_, _, _, _, _, _, _, _, _, _, h⟩ := completeAfter_eq s f st p u r a; rw [h]
@[simp] theorem completeAfter_bill (s : State) (f : Flight) (st p u : Nat) (r : BitVec 128) (a : Option Nat) : (Machine.completeAfter s f st p u r a).bill = s.bill := by obtain ⟨_, _, _, _, _, _, _, _, _, _, h⟩ := completeAfter_eq s f st p u r a; rw [h]
@[simp] theorem completeAfter_chan (s : State) (f : Flight) (st p u : Nat) (r : BitVec 128) (a : Option Nat) : (Machine.completeAfter s f st p u r a).chan = s.chan := by obtain ⟨_, _, _, _, _, _, _, _, _, _, h⟩ := completeAfter_eq s f st p u r a; rw [h]
@[simp] theorem completeAfter_cmd (s : State) (f : Flight) (st p u : Nat) (r : BitVec 128) (a : Option Nat) : (Machine.completeAfter s f st p u r a).cmd = s.cmd := by obtain ⟨_, _, _, _, _, _, _, _, _, _, h⟩ := completeAfter_eq s f st p u r a; rw [h]
@[simp] theorem completeAfter_air (s : State) (f : Flight) (st p u : Nat) (r : BitVec 128) (a : Option Nat) : (Machine.completeAfter s f st p u r a).air = s.air := by obtain ⟨_, _, _, _, _, _, _, _, _, _, h⟩ := completeAfter_eq s f st p u r a; rw [h]
@[simp] theorem completeAfter_store (s : State) (f : Flight) (st p u : Nat) (r : BitVec 128) (a : Option Nat) : (Machine.completeAfter s f st p u r a).store = s.store := by obtain ⟨_, _, _, _, _, _, _, _, _, _, h⟩ := completeAfter_eq s f st p u r a; rw [h]
@[simp] theorem completeAfter_met (s : State) (f : Flight) (st p u : Nat) (r : BitVec 128) (a : Option Nat) : (Machine.completeAfter s f st p u r a).met = s.met := by obtain ⟨_, _, _, _, _, _, _, _, _, _, h⟩ := completeAfter_eq s f st p u r a; rw [h]
@[simp] theorem completeAfter_hostMem (s : State) (f : Flight) (st p u : Nat) (r : BitVec 128) (a : Option Nat) : (Machine.completeAfter s f st p u r a).hostMem = s.hostMem := by obtain ⟨_, _, _, _, _, _, _, _, _, _, h⟩ := completeAfter_eq s f st p u r a; rw [h]
@[simp] theorem completeAfter_tcxo (s : State) (f : Flight) (st p u : Nat) (r : BitVec 128) (a : Option Nat) : (Machine.completeAfter s f st p u r a).tcxo = s.tcxo := by obtain ⟨_, _, _, _, _, _, _, _, _, _, h⟩ := completeAfter_eq s f st p u r a; rw [h]
@[simp] theorem completeAfter_free (s : State) (f : Flight) (st p u : Nat) (r : BitVec 128) (a : Option Nat) : (Machine.completeAfter s f st p u r a).free = s.free := by obtain ⟨_, _, _, _, _, _, _, _, _, _, h⟩ := completeAfter_eq s f st p u r a; rw [h]
@[simp] theorem completeAfter_pending (s : State) (f : Flight) (st p u : Nat) (r : BitVec 128) (a : Option Nat) : (Machine.completeAfter s f st p u r a).pending = s.pending := by obtain ⟨_, _, _, _, _, _, _, _, _, _, h⟩ := completeAfter_eq s f st p u r a; rw [h]

/-! ## complete -/

@[simp] theorem complete_regs (s : State) (f : Flight) (st p u : Nat) (r : BitVec 128) : (Machine.complete s f st p u r).regs = s.regs := by obtain ⟨_, _, _, _, _, _, _, _, _, _, h⟩ := complete_eq s f st p u r; rw [h]
@[simp] theorem complete_glob (s : State) (f : Flight) (st p u : Nat) (r : BitVec 128) : (Machine.complete s f st p u r).glob = s.glob := by obtain ⟨_, _, _, _, _, _, _, _, _, _, h⟩ := complete_eq s f st p u r; rw [h]
@[simp] theorem complete_pins (s : State) (f : Flight) (st p u : Nat) (r : BitVec 128) : (Machine.complete s f st p u r).pins = s.pins := by obtain ⟨_, _, _, _, _, _, _, _, _, _, h⟩ := complete_eq s f st p u r; rw [h]
@[simp] theorem complete_funcs (s : State) (f : Flight) (st p u : Nat) (r : BitVec 128) : (Machine.complete s f st p u r).funcs = s.funcs := by obtain ⟨_, _, _, _, _, _, _, _, _, _, h⟩ := complete_eq s f st p u r; rw [h]
@[simp] theorem complete_host_sq (s : State) (f : Flight) (st p u : Nat) (r : BitVec 128) : (Machine.complete s f st p u r).host.sq = s.host.sq := by obtain ⟨_, _, _, _, _, _, _, _, _, _, h⟩ := complete_eq s f st p u r; rw [h]
@[simp] theorem complete_host_rr (s : State) (f : Flight) (st p u : Nat) (r : BitVec 128) : (Machine.complete s f st p u r).host.rr = s.host.rr := by obtain ⟨_, _, _, _, _, _, _, _, _, _, h⟩ := complete_eq s f st p u r; rw [h]
@[simp] theorem complete_host_pushBuf (s : State) (f : Flight) (st p u : Nat) (r : BitVec 128) : (Machine.complete s f st p u r).host.pushBuf = s.host.pushBuf := by obtain ⟨_, _, _, _, _, _, _, _, _, _, h⟩ := complete_eq s f st p u r; rw [h]
@[simp] theorem complete_host_admQ (s : State) (f : Flight) (st p u : Nat) (r : BitVec 128) : (Machine.complete s f st p u r).host.admQ = s.host.admQ := by obtain ⟨_, _, _, _, _, _, _, _, _, _, h⟩ := complete_eq s f st p u r; rw [h]
@[simp] theorem complete_host_deliv (s : State) (f : Flight) (st p u : Nat) (r : BitVec 128) : (Machine.complete s f st p u r).host.deliv = s.host.deliv := by obtain ⟨_, _, _, _, _, _, _, _, _, _, h⟩ := complete_eq s f st p u r; rw [h]
@[simp] theorem complete_host_peak (s : State) (f : Flight) (st p u : Nat) (r : BitVec 128) : (Machine.complete s f st p u r).host.peak = s.host.peak := by obtain ⟨_, _, _, _, _, _, _, _, _, _, h⟩ := complete_eq s f st p u r; rw [h]
@[simp] theorem complete_host_dbDrop (s : State) (f : Flight) (st p u : Nat) (r : BitVec 128) : (Machine.complete s f st p u r).host.dbDrop = s.host.dbDrop := by obtain ⟨_, _, _, _, _, _, _, _, _, _, h⟩ := complete_eq s f st p u r; rw [h]
@[simp] theorem complete_host_pushDrop (s : State) (f : Flight) (st p u : Nat) (r : BitVec 128) : (Machine.complete s f st p u r).host.pushDrop = s.host.pushDrop := by obtain ⟨_, _, _, _, _, _, _, _, _, _, h⟩ := complete_eq s f st p u r; rw [h]
@[simp] theorem complete_host_pushOvf (s : State) (f : Flight) (st p u : Nat) (r : BitVec 128) : (Machine.complete s f st p u r).host.pushOvf = s.host.pushOvf := by obtain ⟨_, _, _, _, _, _, _, _, _, _, h⟩ := complete_eq s f st p u r; rw [h]
@[simp] theorem complete_host_unsolCnt (s : State) (f : Flight) (st p u : Nat) (r : BitVec 128) : (Machine.complete s f st p u r).host.unsolCnt = s.host.unsolCnt := by obtain ⟨_, _, _, _, _, _, _, _, _, _, h⟩ := complete_eq s f st p u r; rw [h]
@[simp] theorem complete_host_msixMask (s : State) (f : Flight) (st p u : Nat) (r : BitVec 128) : (Machine.complete s f st p u r).host.msixMask = s.host.msixMask := by obtain ⟨_, _, _, _, _, _, _, _, _, _, h⟩ := complete_eq s f st p u r; rw [h]
@[simp] theorem complete_host_uidNext (s : State) (f : Flight) (st p u : Nat) (r : BitVec 128) : (Machine.complete s f st p u r).host.uidNext = s.host.uidNext := by obtain ⟨_, _, _, _, _, _, _, _, _, _, h⟩ := complete_eq s f st p u r; rw [h]
@[simp] theorem complete_host_delivNext (s : State) (f : Flight) (st p u : Nat) (r : BitVec 128) : (Machine.complete s f st p u r).host.delivNext = s.host.delivNext := by obtain ⟨_, _, _, _, _, _, _, _, _, _, h⟩ := complete_eq s f st p u r; rw [h]
@[simp] theorem complete_host_lastRead (s : State) (f : Flight) (st p u : Nat) (r : BitVec 128) : (Machine.complete s f st p u r).host.lastRead = s.host.lastRead := by obtain ⟨_, _, _, _, _, _, _, _, _, _, h⟩ := complete_eq s f st p u r; rw [h]
@[simp] theorem complete_host_linkDown (s : State) (f : Flight) (st p u : Nat) (r : BitVec 128) : (Machine.complete s f st p u r).host.linkDown = s.host.linkDown := by obtain ⟨_, _, _, _, _, _, _, _, _, _, h⟩ := complete_eq s f st p u r; rw [h]
@[simp] theorem complete_host_posted (s : State) (f : Flight) (st p u : Nat) (r : BitVec 128) : (Machine.complete s f st p u r).host.posted = s.host.posted := by obtain ⟨_, _, _, _, _, _, _, _, _, _, h⟩ := complete_eq s f st p u r; rw [h]
@[simp] theorem complete_host_pcie (s : State) (f : Flight) (st p u : Nat) (r : BitVec 128) : (Machine.complete s f st p u r).host.pcie = s.host.pcie := by obtain ⟨_, _, _, _, _, _, _, _, _, _, h⟩ := complete_eq s f st p u r; rw [h]
@[simp] theorem complete_log (s : State) (f : Flight) (st p u : Nat) (r : BitVec 128) : (Machine.complete s f st p u r).log = s.log := by obtain ⟨_, _, _, _, _, _, _, _, _, _, h⟩ := complete_eq s f st p u r; rw [h]
@[simp] theorem complete_flt (s : State) (f : Flight) (st p u : Nat) (r : BitVec 128) : (Machine.complete s f st p u r).flt = s.flt := by obtain ⟨_, _, _, _, _, _, _, _, _, _, h⟩ := complete_eq s f st p u r; rw [h]
@[simp] theorem complete_recs_tab (s : State) (f : Flight) (st p u : Nat) (r : BitVec 128) : (Machine.complete s f st p u r).recs.tab = s.recs.tab := by obtain ⟨_, _, _, _, _, _, _, _, _, _, h⟩ := complete_eq s f st p u r; rw [h]
@[simp] theorem complete_recs_pins (s : State) (f : Flight) (st p u : Nat) (r : BitVec 128) : (Machine.complete s f st p u r).recs.pins = s.recs.pins := by obtain ⟨_, _, _, _, _, _, _, _, _, _, h⟩ := complete_eq s f st p u r; rw [h]
@[simp] theorem complete_recs_retire (s : State) (f : Flight) (st p u : Nat) (r : BitVec 128) : (Machine.complete s f st p u r).recs.retire = s.recs.retire := by obtain ⟨_, _, _, _, _, _, _, _, _, _, h⟩ := complete_eq s f st p u r; rw [h]
@[simp] theorem complete_recs_dramMib (s : State) (f : Flight) (st p u : Nat) (r : BitVec 128) : (Machine.complete s f st p u r).recs.dramMib = s.recs.dramMib := by obtain ⟨_, _, _, _, _, _, _, _, _, _, h⟩ := complete_eq s f st p u r; rw [h]
@[simp] theorem complete_recs_owner (s : State) (f : Flight) (st p u : Nat) (r : BitVec 128) : (Machine.complete s f st p u r).recs.owner = s.recs.owner := by obtain ⟨_, _, _, _, _, _, _, _, _, _, h⟩ := complete_eq s f st p u r; rw [h]
@[simp] theorem complete_recs_epoch (s : State) (f : Flight) (st p u : Nat) (r : BitVec 128) : (Machine.complete s f st p u r).recs.epoch = s.recs.epoch := by obtain ⟨_, _, _, _, _, _, _, _, _, _, h⟩ := complete_eq s f st p u r; rw [h]
@[simp] theorem complete_recs_fmt (s : State) (f : Flight) (st p u : Nat) (r : BitVec 128) : (Machine.complete s f st p u r).recs.fmt = s.recs.fmt := by obtain ⟨_, _, _, _, _, _, _, _, _, _, h⟩ := complete_eq s f st p u r; rw [h]
@[simp] theorem complete_recs_migrate (s : State) (f : Flight) (st p u : Nat) (r : BitVec 128) : (Machine.complete s f st p u r).recs.migrate = s.recs.migrate := by obtain ⟨_, _, _, _, _, _, _, _, _, _, h⟩ := complete_eq s f st p u r; rw [h]
@[simp] theorem complete_recs_durable (s : State) (f : Flight) (st p u : Nat) (r : BitVec 128) : (Machine.complete s f st p u r).recs.durable = s.recs.durable := by obtain ⟨_, _, _, _, _, _, _, _, _, _, h⟩ := complete_eq s f st p u r; rw [h]
@[simp] theorem complete_recs_ckptCnt (s : State) (f : Flight) (st p u : Nat) (r : BitVec 128) : (Machine.complete s f st p u r).recs.ckptCnt = s.recs.ckptCnt := by obtain ⟨_, _, _, _, _, _, _, _, _, _, h⟩ := complete_eq s f st p u r; rw [h]
@[simp] theorem complete_recs_ckptAct (s : State) (f : Flight) (st p u : Nat) (r : BitVec 128) : (Machine.complete s f st p u r).recs.ckptAct = s.recs.ckptAct := by obtain ⟨_, _, _, _, _, _, _, _, _, _, h⟩ := complete_eq s f st p u r; rw [h]
@[simp] theorem complete_recs_ckptAt (s : State) (f : Flight) (st p u : Nat) (r : BitVec 128) : (Machine.complete s f st p u r).recs.ckptAt = s.recs.ckptAt := by obtain ⟨_, _, _, _, _, _, _, _, _, _, h⟩ := complete_eq s f st p u r; rw [h]
@[simp] theorem complete_recs_ckpt (s : State) (f : Flight) (st p u : Nat) (r : BitVec 128) : (Machine.complete s f st p u r).recs.ckpt = s.recs.ckpt := by obtain ⟨_, _, _, _, _, _, _, _, _, _, h⟩ := complete_eq s f st p u r; rw [h]
@[simp] theorem complete_recs_ckptEnts (s : State) (f : Flight) (st p u : Nat) (r : BitVec 128) : (Machine.complete s f st p u r).recs.ckptEnts = s.recs.ckptEnts := by obtain ⟨_, _, _, _, _, _, _, _, _, _, h⟩ := complete_eq s f st p u r; rw [h]
@[simp] theorem complete_recs_jnand (s : State) (f : Flight) (st p u : Nat) (r : BitVec 128) : (Machine.complete s f st p u r).recs.jnand = s.recs.jnand := by obtain ⟨_, _, _, _, _, _, _, _, _, _, h⟩ := complete_eq s f st p u r; rw [h]
@[simp] theorem complete_upd (s : State) (f : Flight) (st p u : Nat) (r : BitVec 128) : (Machine.complete s f st p u r).upd = s.upd := by obtain ⟨_, _, _, _, _, _, _, _, _, _, h⟩ := complete_eq s f st p u r; rw [h]
@[simp] theorem complete_boot (s : State) (f : Flight) (st p u : Nat) (r : BitVec 128) : (Machine.complete s f st p u r).boot = s.boot := by obtain ⟨_, _, _, _, _, _, _, _, _, _, h⟩ := complete_eq s f st p u r; rw [h]
@[simp] theorem complete_time (s : State) (f : Flight) (st p u : Nat) (r : BitVec 128) : (Machine.complete s f st p u r).time = s.time := by obtain ⟨_, _, _, _, _, _, _, _, _, _, h⟩ := complete_eq s f st p u r; rw [h]
@[simp] theorem complete_harn_pos (s : State) (f : Flight) (st p u : Nat) (r : BitVec 128) : (Machine.complete s f st p u r).harn.pos = s.harn.pos := by obtain ⟨_, _, _, _, _, _, _, _, _, _, h⟩ := complete_eq s f st p u r; rw [h]
@[simp] theorem complete_harn_joined (s : State) (f : Flight) (st p u : Nat) (r : BitVec 128) : (Machine.complete s f st p u r).harn.joined = s.harn.joined := by obtain ⟨_, _, _, _, _, _, _, _, _, _, h⟩ := complete_eq s f st p u r; rw [h]
@[simp] theorem complete_harn_fenced (s : State) (f : Flight) (st p u : Nat) (r : BitVec 128) : (Machine.complete s f st p u r).harn.fenced = s.harn.fenced := by obtain ⟨_, _, _, _, _, _, _, _, _, _, h⟩ := complete_eq s f st p u r; rw [h]
@[simp] theorem complete_harn_caps (s : State) (f : Flight) (st p u : Nat) (r : BitVec 128) : (Machine.complete s f st p u r).harn.caps = s.harn.caps := by obtain ⟨_, _, _, _, _, _, _, _, _, _, h⟩ := complete_eq s f st p u r; rw [h]
@[simp] theorem complete_harn_gates (s : State) (f : Flight) (st p u : Nat) (r : BitVec 128) : (Machine.complete s f st p u r).harn.gates = s.harn.gates := by obtain ⟨_, _, _, _, _, _, _, _, _, _, h⟩ := complete_eq s f st p u r; rw [h]
@[simp] theorem complete_harn_outState (s : State) (f : Flight) (st p u : Nat) (r : BitVec 128) : (Machine.complete s f st p u r).harn.outState = s.harn.outState := by obtain ⟨_, _, _, _, _, _, _, _, _, _, h⟩ := complete_eq s f st p u r; rw [h]
@[simp] theorem complete_harn_outReason (s : State) (f : Flight) (st p u : Nat) (r : BitVec 128) : (Machine.complete s f st p u r).harn.outReason = s.harn.outReason := by obtain ⟨_, _, _, _, _, _, _, _, _, _, h⟩ := complete_eq s f st p u r; rw [h]
@[simp] theorem complete_harn_phase (s : State) (f : Flight) (st p u : Nat) (r : BitVec 128) : (Machine.complete s f st p u r).harn.phase = s.harn.phase := by obtain ⟨_, _, _, _, _, _, _, _, _, _, h⟩ := complete_eq s f st p u r; rw [h]
@[simp] theorem complete_harn_joinErr (s : State) (f : Flight) (st p u : Nat) (r : BitVec 128) : (Machine.complete s f st p u r).harn.joinErr = s.harn.joinErr := by obtain ⟨_, _, _, _, _, _, _, _, _, _, h⟩ := complete_eq s f st p u r; rw [h]
@[simp] theorem complete_harn_ringId (s : State) (f : Flight) (st p u : Nat) (r : BitVec 128) : (Machine.complete s f st p u r).harn.ringId = s.harn.ringId := by obtain ⟨_, _, _, _, _, _, _, _, _, _, h⟩ := complete_eq s f st p u r; rw [h]
@[simp] theorem complete_harn_nvPos (s : State) (f : Flight) (st p u : Nat) (r : BitVec 128) : (Machine.complete s f st p u r).harn.nvPos = s.harn.nvPos := by obtain ⟨_, _, _, _, _, _, _, _, _, _, h⟩ := complete_eq s f st p u r; rw [h]
@[simp] theorem complete_harn_joinedM (s : State) (f : Flight) (st p u : Nat) (r : BitVec 128) : (Machine.complete s f st p u r).harn.joinedM = s.harn.joinedM := by obtain ⟨_, _, _, _, _, _, _, _, _, _, h⟩ := complete_eq s f st p u r; rw [h]
@[simp] theorem complete_harn_silentM (s : State) (f : Flight) (st p u : Nat) (r : BitVec 128) : (Machine.complete s f st p u r).harn.silentM = s.harn.silentM := by obtain ⟨_, _, _, _, _, _, _, _, _, _, h⟩ := complete_eq s f st p u r; rw [h]
@[simp] theorem complete_harn_beats (s : State) (f : Flight) (st p u : Nat) (r : BitVec 128) : (Machine.complete s f st p u r).harn.beats = s.harn.beats := by obtain ⟨_, _, _, _, _, _, _, _, _, _, h⟩ := complete_eq s f st p u r; rw [h]
@[simp] theorem complete_harn_tickAt (s : State) (f : Flight) (st p u : Nat) (r : BitVec 128) : (Machine.complete s f st p u r).harn.tickAt = s.harn.tickAt := by obtain ⟨_, _, _, _, _, _, _, _, _, _, h⟩ := complete_eq s f st p u r; rw [h]
@[simp] theorem complete_harn_leadReb (s : State) (f : Flight) (st p u : Nat) (r : BitVec 128) : (Machine.complete s f st p u r).harn.leadReb = s.harn.leadReb := by obtain ⟨_, _, _, _, _, _, _, _, _, _, h⟩ := complete_eq s f st p u r; rw [h]
@[simp] theorem complete_harn_ofsNs (s : State) (f : Flight) (st p u : Nat) (r : BitVec 128) : (Machine.complete s f st p u r).harn.ofsNs = s.harn.ofsNs := by obtain ⟨_, _, _, _, _, _, _, _, _, _, h⟩ := complete_eq s f st p u r; rw [h]
@[simp] theorem complete_harn_wrapped (s : State) (f : Flight) (st p u : Nat) (r : BitVec 128) : (Machine.complete s f st p u r).harn.wrapped = s.harn.wrapped := by obtain ⟨_, _, _, _, _, _, _, _, _, _, h⟩ := complete_eq s f st p u r; rw [h]
@[simp] theorem complete_harn_acting (s : State) (f : Flight) (st p u : Nat) (r : BitVec 128) : (Machine.complete s f st p u r).harn.acting = s.harn.acting := by obtain ⟨_, _, _, _, _, _, _, _, _, _, h⟩ := complete_eq s f st p u r; rw [h]
@[simp] theorem complete_harn_beatsOff (s : State) (f : Flight) (st p u : Nat) (r : BitVec 128) : (Machine.complete s f st p u r).harn.beatsOff = s.harn.beatsOff := by obtain ⟨_, _, _, _, _, _, _, _, _, _, h⟩ := complete_eq s f st p u r; rw [h]
@[simp] theorem complete_harn_reqs (s : State) (f : Flight) (st p u : Nat) (r : BitVec 128) : (Machine.complete s f st p u r).harn.reqs = s.harn.reqs := by obtain ⟨_, _, _, _, _, _, _, _, _, _, h⟩ := complete_eq s f st p u r; rw [h]
@[simp] theorem complete_harn_peers (s : State) (f : Flight) (st p u : Nat) (r : BitVec 128) : (Machine.complete s f st p u r).harn.peers = s.harn.peers := by obtain ⟨_, _, _, _, _, _, _, _, _, _, h⟩ := complete_eq s f st p u r; rw [h]
@[simp] theorem complete_harn_stat (s : State) (f : Flight) (st p u : Nat) (r : BitVec 128) : (Machine.complete s f st p u r).harn.stat = s.harn.stat := by obtain ⟨_, _, _, _, _, _, _, _, _, _, h⟩ := complete_eq s f st p u r; rw [h]
@[simp] theorem complete_harn_inState (s : State) (f : Flight) (st p u : Nat) (r : BitVec 128) : (Machine.complete s f st p u r).harn.inState = s.harn.inState := by obtain ⟨_, _, _, _, _, _, _, _, _, _, h⟩ := complete_eq s f st p u r; rw [h]
@[simp] theorem complete_harn_inPos (s : State) (f : Flight) (st p u : Nat) (r : BitVec 128) : (Machine.complete s f st p u r).harn.inPos = s.harn.inPos := by obtain ⟨_, _, _, _, _, _, _, _, _, _, h⟩ := complete_eq s f st p u r; rw [h]
@[simp] theorem complete_harn_holdRaw (s : State) (f : Flight) (st p u : Nat) (r : BitVec 128) : (Machine.complete s f st p u r).harn.holdRaw = s.harn.holdRaw := by obtain ⟨_, _, _, _, _, _, _, _, _, _, h⟩ := complete_eq s f st p u r; rw [h]
@[simp] theorem complete_harn_holdRd (s : State) (f : Flight) (st p u : Nat) (r : BitVec 128) : (Machine.complete s f st p u r).harn.holdRd = s.harn.holdRd := by obtain ⟨_, _, _, _, _, _, _, _, _, _, h⟩ := complete_eq s f st p u r; rw [h]
@[simp] theorem complete_harn_holdCmd (s : State) (f : Flight) (st p u : Nat) (r : BitVec 128) : (Machine.complete s f st p u r).harn.holdCmd = s.harn.holdCmd := by obtain ⟨_, _, _, _, _, _, _, _, _, _, h⟩ := complete_eq s f st p u r; rw [h]
@[simp] theorem complete_harn_mRecs (s : State) (f : Flight) (st p u : Nat) (r : BitVec 128) : (Machine.complete s f st p u r).harn.mRecs = s.harn.mRecs := by obtain ⟨_, _, _, _, _, _, _, _, _, _, h⟩ := complete_eq s f st p u r; rw [h]
@[simp] theorem complete_harn_mEnts (s : State) (f : Flight) (st p u : Nat) (r : BitVec 128) : (Machine.complete s f st p u r).harn.mEnts = s.harn.mEnts := by obtain ⟨_, _, _, _, _, _, _, _, _, _, h⟩ := complete_eq s f st p u r; rw [h]
@[simp] theorem complete_harn_served (s : State) (f : Flight) (st p u : Nat) (r : BitVec 128) : (Machine.complete s f st p u r).harn.served = s.harn.served := by obtain ⟨_, _, _, _, _, _, _, _, _, _, h⟩ := complete_eq s f st p u r; rw [h]
@[simp] theorem complete_harn_tkoCnt (s : State) (f : Flight) (st p u : Nat) (r : BitVec 128) : (Machine.complete s f st p u r).harn.tkoCnt = s.harn.tkoCnt := by obtain ⟨_, _, _, _, _, _, _, _, _, _, h⟩ := complete_eq s f st p u r; rw [h]
@[simp] theorem complete_harn_tko (s : State) (f : Flight) (st p u : Nat) (r : BitVec 128) : (Machine.complete s f st p u r).harn.tko = s.harn.tko := by obtain ⟨_, _, _, _, _, _, _, _, _, _, h⟩ := complete_eq s f st p u r; rw [h]
@[simp] theorem complete_harn_syncLeft (s : State) (f : Flight) (st p u : Nat) (r : BitVec 128) : (Machine.complete s f st p u r).harn.syncLeft = s.harn.syncLeft := by obtain ⟨_, _, _, _, _, _, _, _, _, _, h⟩ := complete_eq s f st p u r; rw [h]
@[simp] theorem complete_harn_syncPos (s : State) (f : Flight) (st p u : Nat) (r : BitVec 128) : (Machine.complete s f st p u r).harn.syncPos = s.harn.syncPos := by obtain ⟨_, _, _, _, _, _, _, _, _, _, h⟩ := complete_eq s f st p u r; rw [h]
@[simp] theorem complete_harn_shadow (s : State) (f : Flight) (st p u : Nat) (r : BitVec 128) : (Machine.complete s f st p u r).harn.shadow = s.harn.shadow := by obtain ⟨_, _, _, _, _, _, _, _, _, _, h⟩ := complete_eq s f st p u r; rw [h]
@[simp] theorem complete_rp (s : State) (f : Flight) (st p u : Nat) (r : BitVec 128) : (Machine.complete s f st p u r).rp = s.rp := by obtain ⟨_, _, _, _, _, _, _, _, _, _, h⟩ := complete_eq s f st p u r; rw [h]
@[simp] theorem complete_keys (s : State) (f : Flight) (st p u : Nat) (r : BitVec 128) : (Machine.complete s f st p u r).keys = s.keys := by obtain ⟨_, _, _, _, _, _, _, _, _, _, h⟩ := complete_eq s f st p u r; rw [h]
@[simp] theorem complete_sealU (s : State) (f : Flight) (st p u : Nat) (r : BitVec 128) : (Machine.complete s f st p u r).sealU = s.sealU := by obtain ⟨_, _, _, _, _, _, _, _, _, _, h⟩ := complete_eq s f st p u r; rw [h]
@[simp] theorem complete_ce (s : State) (f : Flight) (st p u : Nat) (r : BitVec 128) : (Machine.complete s f st p u r).ce = s.ce := by obtain ⟨_, _, _, _, _, _, _, _, _, _, h⟩ := complete_eq s f st p u r; rw [h]
@[simp] theorem complete_bill (s : State) (f : Flight) (st p u : Nat) (r : BitVec 128) : (Machine.complete s f st p u r).bill = s.bill := by obtain ⟨_, _, _, _, _, _, _, _, _, _, h⟩ := complete_eq s f st p u r; rw [h]
@[simp] theorem complete_chan (s : State) (f : Flight) (st p u : Nat) (r : BitVec 128) : (Machine.complete s f st p u r).chan = s.chan := by obtain ⟨_, _, _, _, _, _, _, _, _, _, h⟩ := complete_eq s f st p u r; rw [h]
@[simp] theorem complete_cmd (s : State) (f : Flight) (st p u : Nat) (r : BitVec 128) : (Machine.complete s f st p u r).cmd = s.cmd := by obtain ⟨_, _, _, _, _, _, _, _, _, _, h⟩ := complete_eq s f st p u r; rw [h]
@[simp] theorem complete_air (s : State) (f : Flight) (st p u : Nat) (r : BitVec 128) : (Machine.complete s f st p u r).air = s.air := by obtain ⟨_, _, _, _, _, _, _, _, _, _, h⟩ := complete_eq s f st p u r; rw [h]
@[simp] theorem complete_store (s : State) (f : Flight) (st p u : Nat) (r : BitVec 128) : (Machine.complete s f st p u r).store = s.store := by obtain ⟨_, _, _, _, _, _, _, _, _, _, h⟩ := complete_eq s f st p u r; rw [h]
@[simp] theorem complete_met (s : State) (f : Flight) (st p u : Nat) (r : BitVec 128) : (Machine.complete s f st p u r).met = s.met := by obtain ⟨_, _, _, _, _, _, _, _, _, _, h⟩ := complete_eq s f st p u r; rw [h]
@[simp] theorem complete_hostMem (s : State) (f : Flight) (st p u : Nat) (r : BitVec 128) : (Machine.complete s f st p u r).hostMem = s.hostMem := by obtain ⟨_, _, _, _, _, _, _, _, _, _, h⟩ := complete_eq s f st p u r; rw [h]
@[simp] theorem complete_tcxo (s : State) (f : Flight) (st p u : Nat) (r : BitVec 128) : (Machine.complete s f st p u r).tcxo = s.tcxo := by obtain ⟨_, _, _, _, _, _, _, _, _, _, h⟩ := complete_eq s f st p u r; rw [h]
@[simp] theorem complete_free (s : State) (f : Flight) (st p u : Nat) (r : BitVec 128) : (Machine.complete s f st p u r).free = s.free := by obtain ⟨_, _, _, _, _, _, _, _, _, _, h⟩ := complete_eq s f st p u r; rw [h]
@[simp] theorem complete_pending (s : State) (f : Flight) (st p u : Nat) (r : BitVec 128) : (Machine.complete s f st p u r).pending = s.pending := by obtain ⟨_, _, _, _, _, _, _, _, _, _, h⟩ := complete_eq s f st p u r; rw [h]

/-! ## Getters over them -/

@[simp] theorem cnt_regGet (s : State) (i : Nat) (x : Nat) : regGet (Machine.cnt s i) x = regGet s x := by simp [regGet]
@[simp] theorem cnt_sqGet (s : State) (i : Nat) (x : Nat) : sqGet (Machine.cnt s i) x = sqGet s x := by simp [sqGet]
@[simp] theorem cnt_cqGet (s : State) (i : Nat) (x : Nat) : cqGet (Machine.cnt s i) x = cqGet s x := by simp [cqGet]
@[simp] theorem cnt_rrGet (s : State) (i : Nat) (x : Nat) : rrGet (Machine.cnt s i) x = rrGet s x := by simp [rrGet]
@[simp] theorem cnt_fnGet (s : State) (i : Nat) (x : Nat) : fnGet (Machine.cnt s i) x = fnGet s x := by simp [fnGet]
@[simp] theorem cnt_recGet (s : State) (i : Nat) (x : Nat) : recGet (Machine.cnt s i) x = recGet s x := by simp [recGet]
@[simp] theorem cnt_dtOf (s : State) (i : Nat) : dtOf (Machine.cnt s i) = dtOf s := by simp [dtOf]
@[simp] theorem cntAdd_regGet (s : State) (i k : Nat) (e : Word) (x : Nat) : regGet (Machine.cntAdd s i k e) x = regGet s x := by simp [regGet]
@[simp] theorem cntAdd_sqGet (s : State) (i k : Nat) (e : Word) (x : Nat) : sqGet (Machine.cntAdd s i k e) x = sqGet s x := by simp [sqGet]
@[simp] theorem cntAdd_cqGet (s : State) (i k : Nat) (e : Word) (x : Nat) : cqGet (Machine.cntAdd s i k e) x = cqGet s x := by simp [cqGet]
@[simp] theorem cntAdd_rrGet (s : State) (i k : Nat) (e : Word) (x : Nat) : rrGet (Machine.cntAdd s i k e) x = rrGet s x := by simp [rrGet]
@[simp] theorem cntAdd_fnGet (s : State) (i k : Nat) (e : Word) (x : Nat) : fnGet (Machine.cntAdd s i k e) x = fnGet s x := by simp [fnGet]
@[simp] theorem cntAdd_recGet (s : State) (i k : Nat) (e : Word) (x : Nat) : recGet (Machine.cntAdd s i k e) x = recGet s x := by simp [recGet]
@[simp] theorem cntAdd_dtOf (s : State) (i k : Nat) (e : Word) : dtOf (Machine.cntAdd s i k e) = dtOf s := by simp [dtOf]
@[simp] theorem msix_regGet (s : State) (v : Nat) (x : Nat) : regGet (Machine.msix s v) x = regGet s x := by simp [regGet]
@[simp] theorem msix_sqGet (s : State) (v : Nat) (x : Nat) : sqGet (Machine.msix s v) x = sqGet s x := by simp [sqGet]
@[simp] theorem msix_cqGet (s : State) (v : Nat) (x : Nat) : cqGet (Machine.msix s v) x = cqGet s x := by simp [cqGet]
@[simp] theorem msix_rrGet (s : State) (v : Nat) (x : Nat) : rrGet (Machine.msix s v) x = rrGet s x := by simp [rrGet]
@[simp] theorem msix_fnGet (s : State) (v : Nat) (x : Nat) : fnGet (Machine.msix s v) x = fnGet s x := by simp [fnGet]
@[simp] theorem msix_recGet (s : State) (v : Nat) (x : Nat) : recGet (Machine.msix s v) x = recGet s x := by simp [recGet]
@[simp] theorem msix_dtOf (s : State) (v : Nat) : dtOf (Machine.msix s v) = dtOf s := by simp [dtOf]
@[simp] theorem logEvent_regGet (c d : Nat) (s : State) (x : Nat) : regGet (Machine.logEvent c d s) x = regGet s x := by simp [regGet]
@[simp] theorem logEvent_sqGet (c d : Nat) (s : State) (x : Nat) : sqGet (Machine.logEvent c d s) x = sqGet s x := by simp [sqGet]
@[simp] theorem logEvent_cqGet (c d : Nat) (s : State) (x : Nat) : cqGet (Machine.logEvent c d s) x = cqGet s x := by simp [cqGet]
@[simp] theorem logEvent_rrGet (c d : Nat) (s : State) (x : Nat) : rrGet (Machine.logEvent c d s) x = rrGet s x := by simp [rrGet]
@[simp] theorem logEvent_fnGet (c d : Nat) (s : State) (x : Nat) : fnGet (Machine.logEvent c d s) x = fnGet s x := by simp [fnGet]
@[simp] theorem logEvent_recGet (c d : Nat) (s : State) (x : Nat) : recGet (Machine.logEvent c d s) x = recGet s x := by simp [recGet]
@[simp] theorem logEvent_dtOf (c d : Nat) (s : State) : dtOf (Machine.logEvent c d s) = dtOf s := by simp [dtOf]
@[simp] theorem hostWriteMem_regGet (s : State) (a : Nat) (b : List Byte) (x : Nat) : regGet (Machine.hostWriteMem s a b) x = regGet s x := by simp [regGet]
@[simp] theorem hostWriteMem_sqGet (s : State) (a : Nat) (b : List Byte) (x : Nat) : sqGet (Machine.hostWriteMem s a b) x = sqGet s x := by simp [sqGet]
@[simp] theorem hostWriteMem_cqGet (s : State) (a : Nat) (b : List Byte) (x : Nat) : cqGet (Machine.hostWriteMem s a b) x = cqGet s x := by simp [cqGet]
@[simp] theorem hostWriteMem_rrGet (s : State) (a : Nat) (b : List Byte) (x : Nat) : rrGet (Machine.hostWriteMem s a b) x = rrGet s x := by simp [rrGet]
@[simp] theorem hostWriteMem_fnGet (s : State) (a : Nat) (b : List Byte) (x : Nat) : fnGet (Machine.hostWriteMem s a b) x = fnGet s x := by simp [fnGet]
@[simp] theorem hostWriteMem_recGet (s : State) (a : Nat) (b : List Byte) (x : Nat) : recGet (Machine.hostWriteMem s a b) x = recGet s x := by simp [recGet]
@[simp] theorem hostWriteMem_dtOf (s : State) (a : Nat) (b : List Byte) : dtOf (Machine.hostWriteMem s a b) = dtOf s := by simp [dtOf]
@[simp] theorem hostWriteData_regGet (s : State) (a : Nat) (b : List Byte) (x : Nat) : regGet (Machine.hostWriteData s a b) x = regGet s x := by simp [regGet]
@[simp] theorem hostWriteData_sqGet (s : State) (a : Nat) (b : List Byte) (x : Nat) : sqGet (Machine.hostWriteData s a b) x = sqGet s x := by simp [sqGet]
@[simp] theorem hostWriteData_cqGet (s : State) (a : Nat) (b : List Byte) (x : Nat) : cqGet (Machine.hostWriteData s a b) x = cqGet s x := by simp [cqGet]
@[simp] theorem hostWriteData_rrGet (s : State) (a : Nat) (b : List Byte) (x : Nat) : rrGet (Machine.hostWriteData s a b) x = rrGet s x := by simp [rrGet]
@[simp] theorem hostWriteData_fnGet (s : State) (a : Nat) (b : List Byte) (x : Nat) : fnGet (Machine.hostWriteData s a b) x = fnGet s x := by simp [fnGet]
@[simp] theorem hostWriteData_recGet (s : State) (a : Nat) (b : List Byte) (x : Nat) : recGet (Machine.hostWriteData s a b) x = recGet s x := by simp [recGet]
@[simp] theorem hostWriteData_dtOf (s : State) (a : Nat) (b : List Byte) : dtOf (Machine.hostWriteData s a b) = dtOf s := by simp [dtOf]
@[simp] theorem regWrite_sqGet (s : State) (o : Nat) (w : Word) (x : Nat) : sqGet (Machine.regWrite s o w) x = sqGet s x := by simp [sqGet]
@[simp] theorem regWrite_cqGet (s : State) (o : Nat) (w : Word) (x : Nat) : cqGet (Machine.regWrite s o w) x = cqGet s x := by simp [cqGet]
@[simp] theorem regWrite_rrGet (s : State) (o : Nat) (w : Word) (x : Nat) : rrGet (Machine.regWrite s o w) x = rrGet s x := by simp [rrGet]
@[simp] theorem regWrite_fnGet (s : State) (o : Nat) (w : Word) (x : Nat) : fnGet (Machine.regWrite s o w) x = fnGet s x := by simp [fnGet]
@[simp] theorem regWrite_recGet (s : State) (o : Nat) (w : Word) (x : Nat) : recGet (Machine.regWrite s o w) x = recGet s x := by simp [recGet]
@[simp] theorem regWrite_dtOf (s : State) (o : Nat) (w : Word) : dtOf (Machine.regWrite s o w) = dtOf s := by simp [dtOf]
@[simp] theorem ringSend_regGet (s : State) (p k : Nat) (l : List Nat) (x : Nat) : regGet (Machine.ringSend s p k l) x = regGet s x := by simp [regGet]
@[simp] theorem ringSend_sqGet (s : State) (p k : Nat) (l : List Nat) (x : Nat) : sqGet (Machine.ringSend s p k l) x = sqGet s x := by simp [sqGet]
@[simp] theorem ringSend_cqGet (s : State) (p k : Nat) (l : List Nat) (x : Nat) : cqGet (Machine.ringSend s p k l) x = cqGet s x := by simp [cqGet]
@[simp] theorem ringSend_rrGet (s : State) (p k : Nat) (l : List Nat) (x : Nat) : rrGet (Machine.ringSend s p k l) x = rrGet s x := by simp [rrGet]
@[simp] theorem ringSend_fnGet (s : State) (p k : Nat) (l : List Nat) (x : Nat) : fnGet (Machine.ringSend s p k l) x = fnGet s x := by simp [fnGet]
@[simp] theorem ringSend_recGet (s : State) (p k : Nat) (l : List Nat) (x : Nat) : recGet (Machine.ringSend s p k l) x = recGet s x := by simp [recGet]
@[simp] theorem ringSend_dtOf (s : State) (p k : Nat) (l : List Nat) : dtOf (Machine.ringSend s p k l) = dtOf s := by simp [dtOf]
@[simp] theorem mirrorSend_regGet (s : State) (k : Nat) (l : List Nat) (x : Nat) : regGet (Machine.mirrorSend s k l) x = regGet s x := by simp [regGet]
@[simp] theorem mirrorSend_sqGet (s : State) (k : Nat) (l : List Nat) (x : Nat) : sqGet (Machine.mirrorSend s k l) x = sqGet s x := by simp [sqGet]
@[simp] theorem mirrorSend_cqGet (s : State) (k : Nat) (l : List Nat) (x : Nat) : cqGet (Machine.mirrorSend s k l) x = cqGet s x := by simp [cqGet]
@[simp] theorem mirrorSend_rrGet (s : State) (k : Nat) (l : List Nat) (x : Nat) : rrGet (Machine.mirrorSend s k l) x = rrGet s x := by simp [rrGet]
@[simp] theorem mirrorSend_fnGet (s : State) (k : Nat) (l : List Nat) (x : Nat) : fnGet (Machine.mirrorSend s k l) x = fnGet s x := by simp [fnGet]
@[simp] theorem mirrorSend_recGet (s : State) (k : Nat) (l : List Nat) (x : Nat) : recGet (Machine.mirrorSend s k l) x = recGet s x := by simp [recGet]
@[simp] theorem mirrorSend_dtOf (s : State) (k : Nat) (l : List Nat) : dtOf (Machine.mirrorSend s k l) = dtOf s := by simp [dtOf]
@[simp] theorem jrnlMod_regGet (s : State) (u : Nat) (g : JrnlEnt → JrnlEnt) (x : Nat) : regGet (Machine.jrnlMod s u g) x = regGet s x := by simp [regGet]
@[simp] theorem jrnlMod_sqGet (s : State) (u : Nat) (g : JrnlEnt → JrnlEnt) (x : Nat) : sqGet (Machine.jrnlMod s u g) x = sqGet s x := by simp [sqGet]
@[simp] theorem jrnlMod_cqGet (s : State) (u : Nat) (g : JrnlEnt → JrnlEnt) (x : Nat) : cqGet (Machine.jrnlMod s u g) x = cqGet s x := by simp [cqGet]
@[simp] theorem jrnlMod_rrGet (s : State) (u : Nat) (g : JrnlEnt → JrnlEnt) (x : Nat) : rrGet (Machine.jrnlMod s u g) x = rrGet s x := by simp [rrGet]
@[simp] theorem jrnlMod_fnGet (s : State) (u : Nat) (g : JrnlEnt → JrnlEnt) (x : Nat) : fnGet (Machine.jrnlMod s u g) x = fnGet s x := by simp [fnGet]
@[simp] theorem jrnlMod_recGet (s : State) (u : Nat) (g : JrnlEnt → JrnlEnt) (x : Nat) : recGet (Machine.jrnlMod s u g) x = recGet s x := by simp [recGet]
@[simp] theorem jrnlMod_dtOf (s : State) (u : Nat) (g : JrnlEnt → JrnlEnt) : dtOf (Machine.jrnlMod s u g) = dtOf s := by simp [dtOf]
@[simp] theorem completeAfter_regGet (s : State) (f : Flight) (st p u : Nat) (r : BitVec 128) (a : Option Nat) (x : Nat) : regGet (Machine.completeAfter s f st p u r a) x = regGet s x := by simp [regGet]
@[simp] theorem completeAfter_sqGet (s : State) (f : Flight) (st p u : Nat) (r : BitVec 128) (a : Option Nat) (x : Nat) : sqGet (Machine.completeAfter s f st p u r a) x = sqGet s x := by simp [sqGet]
@[simp] theorem completeAfter_rrGet (s : State) (f : Flight) (st p u : Nat) (r : BitVec 128) (a : Option Nat) (x : Nat) : rrGet (Machine.completeAfter s f st p u r a) x = rrGet s x := by simp [rrGet]
@[simp] theorem completeAfter_fnGet (s : State) (f : Flight) (st p u : Nat) (r : BitVec 128) (a : Option Nat) (x : Nat) : fnGet (Machine.completeAfter s f st p u r a) x = fnGet s x := by simp [fnGet]
@[simp] theorem completeAfter_recGet (s : State) (f : Flight) (st p u : Nat) (r : BitVec 128) (a : Option Nat) (x : Nat) : recGet (Machine.completeAfter s f st p u r a) x = recGet s x := by simp [recGet]
@[simp] theorem completeAfter_dtOf (s : State) (f : Flight) (st p u : Nat) (r : BitVec 128) (a : Option Nat) : dtOf (Machine.completeAfter s f st p u r a) = dtOf s := by simp [dtOf]
@[simp] theorem complete_regGet (s : State) (f : Flight) (st p u : Nat) (r : BitVec 128) (x : Nat) : regGet (Machine.complete s f st p u r) x = regGet s x := by simp [regGet]
@[simp] theorem complete_sqGet (s : State) (f : Flight) (st p u : Nat) (r : BitVec 128) (x : Nat) : sqGet (Machine.complete s f st p u r) x = sqGet s x := by simp [sqGet]
@[simp] theorem complete_rrGet (s : State) (f : Flight) (st p u : Nat) (r : BitVec 128) (x : Nat) : rrGet (Machine.complete s f st p u r) x = rrGet s x := by simp [rrGet]
@[simp] theorem complete_fnGet (s : State) (f : Flight) (st p u : Nat) (r : BitVec 128) (x : Nat) : fnGet (Machine.complete s f st p u r) x = fnGet s x := by simp [fnGet]
@[simp] theorem complete_recGet (s : State) (f : Flight) (st p u : Nat) (r : BitVec 128) (x : Nat) : recGet (Machine.complete s f st p u r) x = recGet s x := by simp [recGet]
@[simp] theorem complete_dtOf (s : State) (f : Flight) (st p u : Nat) (r : BitVec 128) : dtOf (Machine.complete s f st p u r) = dtOf s := by simp [dtOf]

end Sys2Proof.Machine
end

