-- ==== Sys2Proof/Laws/Rows.lean ====
section
/-!
SUPPORT. What every row is run under: a device that acts, and the watermarks that follow.
-/
namespace Sys2Proof.Machine
open Sys2Proof

@[simp] theorem wmUpdate_regs (s : State) : (wmUpdate s).regs = s.regs := rfl
@[simp] theorem wmUpdate_pins (s : State) : (wmUpdate s).pins = s.pins := rfl
@[simp] theorem wmUpdate_funcs (s : State) : (wmUpdate s).funcs = s.funcs := rfl
@[simp] theorem wmUpdate_host (s : State) : (wmUpdate s).host = s.host := rfl
@[simp] theorem wmUpdate_log (s : State) : (wmUpdate s).log = s.log := rfl
@[simp] theorem wmUpdate_cnt (s : State) : (wmUpdate s).cnt = s.cnt := rfl
@[simp] theorem wmUpdate_flt (s : State) : (wmUpdate s).flt = s.flt := rfl
@[simp] theorem wmUpdate_recs (s : State) : (wmUpdate s).recs = s.recs := rfl
@[simp] theorem wmUpdate_upd (s : State) : (wmUpdate s).upd = s.upd := rfl
@[simp] theorem wmUpdate_boot (s : State) : (wmUpdate s).boot = s.boot := rfl
@[simp] theorem wmUpdate_time (s : State) : (wmUpdate s).time = s.time := rfl
@[simp] theorem wmUpdate_harn (s : State) : (wmUpdate s).harn = s.harn := rfl
@[simp] theorem wmUpdate_rp (s : State) : (wmUpdate s).rp = s.rp := rfl
@[simp] theorem wmUpdate_keys (s : State) : (wmUpdate s).keys = s.keys := rfl
@[simp] theorem wmUpdate_sealU (s : State) : (wmUpdate s).sealU = s.sealU := rfl
@[simp] theorem wmUpdate_ce (s : State) : (wmUpdate s).ce = s.ce := rfl
@[simp] theorem wmUpdate_bill (s : State) : (wmUpdate s).bill = s.bill := rfl
@[simp] theorem wmUpdate_chan (s : State) : (wmUpdate s).chan = s.chan := rfl
@[simp] theorem wmUpdate_cmd (s : State) : (wmUpdate s).cmd = s.cmd := rfl
@[simp] theorem wmUpdate_air (s : State) : (wmUpdate s).air = s.air := rfl
@[simp] theorem wmUpdate_store (s : State) : (wmUpdate s).store = s.store := rfl
@[simp] theorem wmUpdate_met (s : State) : (wmUpdate s).met = s.met := rfl
@[simp] theorem wmUpdate_hostMem (s : State) : (wmUpdate s).hostMem = s.hostMem := rfl
@[simp] theorem wmUpdate_wire (s : State) : (wmUpdate s).wire = s.wire := rfl
@[simp] theorem wmUpdate_tcxo (s : State) : (wmUpdate s).tcxo = s.tcxo := rfl
@[simp] theorem wmUpdate_free (s : State) : (wmUpdate s).free = s.free := rfl
@[simp] theorem wmUpdate_pending (s : State) : (wmUpdate s).pending = s.pending := rfl
@[simp] theorem wmUpdate_glob_stPs (s : State) : (wmUpdate s).glob.stPs = s.glob.stPs := rfl
@[simp] theorem wmUpdate_glob_valid (s : State) : (wmUpdate s).glob.valid = s.glob.valid := rfl
@[simp] theorem wmUpdate_glob_peak (s : State) : (wmUpdate s).glob.peak = s.glob.peak := rfl
@[simp] theorem wmUpdate_glob_code (s : State) : (wmUpdate s).glob.code = s.glob.code := rfl
@[simp] theorem wmUpdate_glob_below (s : State) : (wmUpdate s).glob.below = s.glob.below := rfl
@[simp] theorem wmUpdate_glob_arb (s : State) : (wmUpdate s).glob.arb = s.glob.arb := rfl
@[simp] theorem wmUpdate_glob_cores (s : State) : (wmUpdate s).glob.cores = s.glob.cores := rfl
@[simp] theorem wmUpdate_regGet (s : State) (o : Nat) : regGet (wmUpdate s) o = regGet s o := rfl
@[simp] theorem wmUpdate_sqGet (s : State) (q : Nat) : sqGet (wmUpdate s) q = sqGet s q := rfl
@[simp] theorem wmUpdate_cqGet (s : State) (c : Nat) : cqGet (wmUpdate s) c = cqGet s c := rfl
@[simp] theorem wmUpdate_rrGet (s : State) (r : Nat) : rrGet (wmUpdate s) r = rrGet s r := rfl
@[simp] theorem wmUpdate_fnGet (s : State) (i : Nat) : fnGet (wmUpdate s) i = fnGet s i := rfl
@[simp] theorem wmUpdate_recGet (s : State) (e : Nat) : recGet (wmUpdate s) e = recGet s e := rfl
@[simp] theorem wmUpdate_cntGet (s : State) (i : Nat) : cntGet (wmUpdate s) i = cntGet s i := rfl
@[simp] theorem wmUpdate_smpGet (s : State) (n : Nat) : smpGet (wmUpdate s) n = smpGet s n := rfl
@[simp] theorem wmUpdate_bwGet (s : State) (p : Nat) : bwGet (wmUpdate s) p = bwGet s p := rfl
@[simp] theorem wmUpdate_chGet (s : State) (c : Nat) : chGet (wmUpdate s) c = chGet s c := rfl
@[simp] theorem wmUpdate_macGet (s : State) (c : Nat) : macGet (wmUpdate s) c = macGet s c := rfl
@[simp] theorem wmUpdate_portGet (s : State) (p : Nat) : portGet (wmUpdate s) p = portGet s p := rfl
@[simp] theorem wmUpdate_fdrGet (s : State) (n : Nat) : fdrGet (wmUpdate s) n = fdrGet s n := rfl
@[simp] theorem wmUpdate_dtOf (s : State) : dtOf (wmUpdate s) = dtOf s := rfl

/-- A row of a device that acts. -/
theorem run_awake (s : State) (g : State → State) (h : awake s = true) : run s g = .next (wmUpdate (g s)) := by
  simp [run, h]

/-- A row of a device that does not act changes nothing. -/
theorem run_asleep (s : State) (g : State → State) (h : awake s = false) : run s g = .next s := by simp [run, h]

theorem hostRun_awake (s : State) (g : State → State) (h : awake s = true) :
    hostRun s g = .next (wmUpdate (g (linkUp s))) := by
  simp only [hostRun]; exact run_awake s _ h

theorem tailRun_awake (s : State) (g : State → State) (h : awake s = true) (ht : tailOpen s = true) :
    tailRun s g = .next (wmUpdate (g s)) := by
  simp [tailRun, run, h, ht]

theorem tailRunTc_awake (s : State) (tc : Nat) (g : State → State) (h : awake s = true) (ht : tailOpenTc s tc = true) :
    tailRunTc s tc g = .next (wmUpdate (g s)) := by
  simp [tailRunTc, run, h, ht]

theorem sweepRun_awake (s : State) (g : State → State) (h : awake s = true) (ht : tailOpen s = true)
    (hr : storeRoom s = true) : sweepRun s g = .next (wmUpdate (g s)) := by
  simp [sweepRun, tailRun, run, h, ht, hr]

theorem hostRun_asleep (s : State) (g : State → State) (h : awake s = false) : hostRun s g = .next s := by
  simp [hostRun, run, h]

/-- Every row answers a next state that is the state it ran on, or one whose watermarks have just followed their
queues. -/
def Settled (s : State) (r : Res) : Prop := ∀ t, r = .next t → t = s ∨ ∃ u, t = wmUpdate u

theorem run_settled (s : State) (g : State → State) : Settled s (run s g) := by
  intro t h
  unfold run at h
  cases h
  split
  · exact .inr ⟨_, rfl⟩
  · exact .inl rfl

theorem tailRun_settled (s : State) (g : State → State) : Settled s (tailRun s g) := run_settled s _

theorem tailRunTc_settled (s : State) (tc : Nat) (g : State → State) : Settled s (tailRunTc s tc g) := run_settled s _

theorem sweepRun_settled (s : State) (g : State → State) : Settled s (sweepRun s g) := by
  unfold sweepRun
  with_reducible exact tailRun_settled s _

theorem hostRun_settled (s : State) (g : State → State) : Settled s (hostRun s g) := run_settled s _

theorem anyRun_settled (s t : State) : Settled s (anyRun t) := by
  intro u h
  cases h
  exact .inr ⟨t, rfl⟩

end Sys2Proof.Machine
end

