-- ==== Sys2Proof/Laws/Complete.lean ====
section
/-!
SUPPORT. Completions as statements speak of them: what `complete` leaves, once and for all.
-/
namespace Sys2Proof.Machine
open Sys2Proof Sys2Proof.Safety

theorem cplOf_is (s t : State) (f : Flight) (st p u : Nat) (r : BitVec 128) (a : Option Nat) (h : dtOf t = dtOf s) :
    CplIs t f st p u r (cplOf s f st p u r a) := ⟨rfl, rfl, rfl, rfl, rfl, rfl, h.symm, rfl, rfl⟩

/-- A meaning that ends in `complete` from a state with the same completion ring. -/
theorem completed_of (s u : State) (f : Flight) (st p n : Nat) (r : BitVec 128) (hd : f.discard = false)
    (hc : (cqGet u f.cq).waiting = (cqGet s f.cq).waiting) :
    Completed s (wmUpdate (complete u f st p n r)) f st p n r := by
  refine ⟨cplOf u f st p n r none, ?_, cplOf_is _ _ _ _ _ _ _ _ (by simp)⟩
  rw [wmUpdate_cqGet, complete_cq u f st p n r hd, ← hc]

theorem completed_self (s : State) (f : Flight) (st p n : Nat) (r : BitVec 128) (hd : f.discard = false) :
    Completed s (wmUpdate (complete s f st p n r)) f st p n r := completed_of s s f st p n r hd rfl

theorem formed_of_completed {s t : State} {f : Flight} {st p n : Nat} {r : BitVec 128} (h : Completed s t f st p n r) :
    Formed t f st p n r := by
  obtain ⟨e, he, hi⟩ := h
  exact ⟨e, by simp [he], hi⟩

/-- A completion changes nothing but a descriptor's bookkeeping. -/
@[simp] theorem rest_complete (s : State) (f : Flight) (st p n : Nat) (r : BitVec 128) :
    rest (complete s f st p n r) = rest s := by
  obtain ⟨l, j, jw, q, h, c, pe, w, fl, cq, e⟩ := complete_eq s f st p n r
  rw [e]; rfl

@[simp] theorem rest_completeAfter (s : State) (f : Flight) (st p n : Nat) (r : BitVec 128) (a : Option Nat) :
    rest (completeAfter s f st p n r a) = rest s := by
  obtain ⟨l, j, jw, q, h, c, pe, w, fl, cq, e⟩ := completeAfter_eq s f st p n r a
  rw [e]; rfl

@[simp] theorem rest_wmUpdate (s : State) : rest (wmUpdate s) = rest s := rfl

@[simp] theorem rest_cnt (s : State) (i : Nat) : rest (Machine.cnt s i) = rest s := by
  obtain ⟨c, p, w, e⟩ := cnt_eq s i
  rw [e]; rfl

@[simp] theorem rest_mirrorSend (s : State) (k : Nat) (l : List Nat) : rest (mirrorSend s k l) = rest s := by
  obtain ⟨h, c, p, w, e⟩ := mirrorSend_eq s k l
  rw [e]; rfl

@[simp] theorem rest_jrnlMod (s : State) (u : Nat) (g : JrnlEnt → JrnlEnt) : rest (jrnlMod s u g) = rest s := by
  obtain ⟨l, j, jw, q, h, c, p, w, e⟩ := jrnlMod_eq s u g
  rw [e]; rfl

/-- The journal entry of a descriptor's completion ring is not another ring's. -/
theorem completeAfter_cq_ne (s : State) (f : Flight) (st p n : Nat) (r : BitVec 128) (a : Option Nat) (c : Nat)
    (h : c ≠ f.cq) : cqGet (completeAfter s f st p n r a) c = cqGet s c := by
  unfold completeAfter
  dsimp only
  split
  · simp [flightDrop, cqGet]
  · split <;> simp [flightPut, cqGet, cqPut, tget_tset_other _ _ _ _ _ h]

/-- Completions that wait stay. -/
theorem completeAfter_mem (s : State) (f : Flight) (st p n : Nat) (r : BitVec 128) (a : Option Nat) (c : Nat) (e : Cpl)
    (h : e ∈ (cqGet s c).waiting) : e ∈ (cqGet (completeAfter s f st p n r a) c).waiting := by
  by_cases hc : c = f.cq
  · subst hc
    cases hd : f.discard with
    | false => rw [completeAfter_cq s f st p n r a hd]; simp [h]
    | true =>
      unfold completeAfter
      simpa [hd, flightDrop, cqGet] using h
  · rw [completeAfter_cq_ne s f st p n r a c hc]; exact h

theorem formed_self (s : State) (f : Flight) (st p n : Nat) (r : BitVec 128) (a : Option Nat) (hd : f.discard = false) :
    Formed (wmUpdate (completeAfter s f st p n r a)) f st p n r := by
  refine ⟨cplOf s f st p n r a, ?_, cplOf_is _ _ _ _ _ _ _ _ (by simp)⟩
  rw [wmUpdate_cqGet, completeAfter_cq s f st p n r a hd]
  simp

end Sys2Proof.Machine
end

