-- ==== Sys2Proof/Laws/Exec.lean ====
section
/-!
SUPPORT. What each row answers on a device that acts, one equation a row.
-/
namespace Sys2Proof.Machine
open Sys2Proof

theorem exec_opNop (uid : Nat) (s : State) (h : awake s = true) :
    exec (.opNop uid) s = .next (wmUpdate (opNop s uid)) := by
  show execOpNop uid s = _
  exact run_awake s _ h
theorem exec_opStatus (uid : Nat) (s : State) (h : awake s = true) :
    exec (.opStatus uid) s = .next (wmUpdate (opStatus s uid)) := by
  show execOpStatus uid s = _
  exact run_awake s _ h
theorem exec_opAbort (uid : Nat) (s : State) (h : awake s = true) :
    exec (.opAbort uid) s = .next (wmUpdate (opAbort s uid)) := by
  show execOpAbort uid s = _
  exact run_awake s _ h
theorem exec_opFuncCtrlEnable (uid : Nat) (s : State) (h : awake s = true) :
    exec (.opFuncCtrlEnable uid) s = .next (wmUpdate (funcCtrl s uid 1)) := by
  show execOpFuncCtrlEnable uid s = _
  exact run_awake s _ h
theorem exec_opFuncCtrlDisable (uid : Nat) (s : State) (h : awake s = true) :
    exec (.opFuncCtrlDisable uid) s = .next (wmUpdate (funcCtrl s uid 0)) := by
  show execOpFuncCtrlDisable uid s = _
  exact run_awake s _ h
theorem exec_opFuncCtrlQuery (uid : Nat) (s : State) (h : awake s = true) :
    exec (.opFuncCtrlQuery uid) s = .next (wmUpdate (funcCtrl s uid 2)) := by
  show execOpFuncCtrlQuery uid s = _
  exact run_awake s _ h
theorem exec_opEpProvision (uid : Nat) (blob : Option Blob) (s : State) (h : awake s = true) :
    exec (.opEpProvision uid blob) s = .next (wmUpdate (epProvision s uid blob)) := by
  show execOpEpProvision uid blob s = _
  exact run_awake s _ h
theorem exec_opEpUpdate (uid : Nat) (s : State) (h : awake s = true) :
    exec (.opEpUpdate uid) s = .next (wmUpdate (epUpdate s uid)) := by
  show execOpEpUpdate uid s = _
  exact run_awake s _ h
theorem exec_opEpRetire (uid : Nat) (s : State) (h : awake s = true) :
    exec (.opEpRetire uid) s = .next (wmUpdate (epRetire s uid)) := by
  show execOpEpRetire uid s = _
  exact run_awake s _ h
theorem exec_retireDrainEnd (uid : Nat) (s : State) (h : awake s = true) :
    exec (.retireDrainEnd uid) s = .next (wmUpdate (retireDrainEnd s uid)) := by
  show execRetireDrainEnd uid s = _
  exact run_awake s _ h
theorem exec_opEpRead (uid : Nat) (s : State) (h : awake s = true) :
    exec (.opEpRead uid) s = .next (wmUpdate (epRead s uid)) := by
  show execOpEpRead uid s = _
  exact run_awake s _ h
theorem exec_opKeyInstall (uid : Nat) (blob : Option Blob) (s : State) (h : awake s = true) :
    exec (.opKeyInstall uid blob) s = .next (wmUpdate (keyInstallRow s uid blob)) := by
  show execOpKeyInstall uid blob s = _
  exact run_awake s _ h
theorem exec_opKeyErase (uid : Nat) (s : State) (h : awake s = true) :
    exec (.opKeyErase uid) s = .next (wmUpdate (keyEraseRow s uid)) := by
  show execOpKeyErase uid s = _
  exact run_awake s _ h
theorem exec_opKeyPin (uid : Nat) (s : State) (h : awake s = true) :
    exec (.opKeyPin uid) s = .next (wmUpdate (keyPinRow s uid)) := by
  show execOpKeyPin uid s = _
  exact run_awake s _ h
theorem exec_opKeyUnpin (uid : Nat) (s : State) (h : awake s = true) :
    exec (.opKeyUnpin uid) s = .next (wmUpdate (keyUnpinRow s uid)) := by
  show execOpKeyUnpin uid s = _
  exact run_awake s _ h
theorem exec_opKeyInvalidate (uid : Nat) (s : State) (h : awake s = true) :
    exec (.opKeyInvalidate uid) s = .next (wmUpdate (keyInvalidateRow s uid)) := by
  show execOpKeyInvalidate uid s = _
  exact run_awake s _ h
theorem exec_opBatchGetLog (uid : Nat) (s : State) (h : awake s = true) :
    exec (.opBatchGetLog uid) s = .next (wmUpdate (batchGetLog s uid)) := by
  show execOpBatchGetLog uid s = _
  exact run_awake s _ h
theorem exec_opBatchGetPath (uid : Nat) (s : State) (h : awake s = true) :
    exec (.opBatchGetPath uid) s = .next (wmUpdate (batchGetPath s uid)) := by
  show execOpBatchGetPath uid s = _
  exact run_awake s _ h
theorem exec_batchGetWaitExpiry (uid : Nat) (s : State) (h : awake s = true) :
    exec (.batchGetWaitExpiry uid) s = .next (wmUpdate (batchGetWaitExpiry s uid)) := by
  show execBatchGetWaitExpiry uid s = _
  exact run_awake s _ h
theorem exec_opSealKeySet (uid : Nat) (s : State) (h : awake s = true) :
    exec (.opSealKeySet uid) s = .next (wmUpdate (sealKeySet s uid)) := by
  show execOpSealKeySet uid s = _
  exact run_awake s _ h
theorem exec_opTunnelRx (uid : Nat) (entries : List TunnelEntry) (s : State) (h : awake s = true) :
    exec (.opTunnelRx uid entries) s = .next (wmUpdate (tunnelRx s uid entries)) := by
  show execOpTunnelRx uid entries s = _
  exact run_awake s _ h
theorem exec_opQuarantineRead (uid : Nat) (s : State) (h : awake s = true) :
    exec (.opQuarantineRead uid) s = .next (wmUpdate (quarantineRead s uid)) := by
  show execOpQuarantineRead uid s = _
  exact run_awake s _ h
theorem exec_opDisconnect (uid : Nat) (s : State) (h : awake s = true) :
    exec (.opDisconnect uid) s = .next (wmUpdate (opDisconnect s uid)) := by
  show execOpDisconnect uid s = _
  exact run_awake s _ h
theorem exec_opReconnect (uid : Nat) (s : State) (h : awake s = true) :
    exec (.opReconnect uid) s = .next (wmUpdate (opReconnect s uid)) := by
  show execOpReconnect uid s = _
  exact run_awake s _ h
theorem exec_opLoadLimit (uid : Nat) (s : State) (h : awake s = true) :
    exec (.opLoadLimit uid) s = .next (wmUpdate (opLoadLimit s uid)) := by
  show execOpLoadLimit uid s = _
  exact run_awake s _ h
theorem exec_opReadOnDemand (uid : Nat) (targets : List Word) (s : State) (h : awake s = true) :
    exec (.opReadOnDemand uid targets) s = .next (wmUpdate (readOnDemand s uid targets)) := by
  show execOpReadOnDemand uid targets s = _
  exact run_awake s _ h
theorem exec_opCreditPush (uid : Nat) (token : List Byte) (s : State) (h : awake s = true) :
    exec (.opCreditPush uid token) s = .next (wmUpdate (creditPush s uid token)) := by
  show execOpCreditPush uid token s = _
  exact run_awake s _ h
theorem exec_opTariffPush (uid : Nat) (targets : List Word) (s : State) (h : awake s = true) :
    exec (.opTariffPush uid targets) s = .next (wmUpdate (distRow s uid 0x45 targets [] [] [])) := by
  show execOpTariffPush uid targets s = _
  exact run_awake s _ h
theorem exec_opDistStart (uid : Nat) (buf : DistIn) (s : State) (h : awake s = true) :
    exec (.opDistStart uid buf) s = .next (wmUpdate (distRow s uid 0x46 buf.targets [] [] buf.image)) := by
  show execOpDistStart uid buf s = _
  exact run_awake s _ h
theorem exec_opDistResume (uid : Nat) (buf : DistIn) (held : List (List Nat)) (tstates : List Nat) (s : State) (h : awake s = true) :
    exec (.opDistResume uid buf held tstates) s = .next (wmUpdate (distRow s uid 0x47 buf.targets held tstates buf.image)) := by
  show execOpDistResume uid buf held tstates s = _
  exact run_awake s _ h
theorem exec_opCollectPlan (uid : Nat) (targets : List Word) (s : State) (h : awake s = true) :
    exec (.opCollectPlan uid targets) s = .next (wmUpdate (collectPlan s uid targets)) := by
  show execOpCollectPlan uid targets s = _
  exact run_awake s _ h
theorem exec_opTariffLoad (uid : Nat) (table : List Byte) (s : State) (h : awake s = true) :
    exec (.opTariffLoad uid table) s = .next (wmUpdate (tariffLoad s uid table)) := by
  show execOpTariffLoad uid table s = _
  exact run_awake s _ h
theorem exec_opCalendarLoad (uid : Nat) (cal : List Byte) (s : State) (h : awake s = true) :
    exec (.opCalendarLoad uid cal) s = .next (wmUpdate (calendarLoad s uid cal)) := by
  show execOpCalendarLoad uid cal s = _
  exact run_awake s _ h
theorem exec_opLedgerAdjustTopup (uid : Nat) (s : State) (h : awake s = true) :
    exec (.opLedgerAdjustTopup uid) s = .next (wmUpdate (ledgerAdjust s uid 0)) := by
  show execOpLedgerAdjustTopup uid s = _
  exact run_awake s _ h
theorem exec_opLedgerAdjustDebit (uid : Nat) (s : State) (h : awake s = true) :
    exec (.opLedgerAdjustDebit uid) s = .next (wmUpdate (ledgerAdjust s uid 1)) := by
  show execOpLedgerAdjustDebit uid s = _
  exact run_awake s _ h
theorem exec_opLedgerAdjustEmergSet (uid : Nat) (s : State) (h : awake s = true) :
    exec (.opLedgerAdjustEmergSet uid) s = .next (wmUpdate (ledgerAdjust s uid 2)) := by
  show execOpLedgerAdjustEmergSet uid s = _
  exact run_awake s _ h
theorem exec_opLedgerAdjustLowSet (uid : Nat) (s : State) (h : awake s = true) :
    exec (.opLedgerAdjustLowSet uid) s = .next (wmUpdate (ledgerAdjust s uid 3)) := by
  show execOpLedgerAdjustLowSet uid s = _
  exact run_awake s _ h
theorem exec_opLedgerAdjustAutoReconnect (uid : Nat) (s : State) (h : awake s = true) :
    exec (.opLedgerAdjustAutoReconnect uid) s = .next (wmUpdate (ledgerAdjust s uid 4)) := by
  show execOpLedgerAdjustAutoReconnect uid s = _
  exact run_awake s _ h
theorem exec_opLedgerAdjustRelease (uid : Nat) (s : State) (h : awake s = true) :
    exec (.opLedgerAdjustRelease uid) s = .next (wmUpdate (ledgerAdjust s uid 5)) := by
  show execOpLedgerAdjustRelease uid s = _
  exact run_awake s _ h
theorem exec_opRegSnapshot (uid : Nat) (targets : List Word) (s : State) (h : awake s = true) :
    exec (.opRegSnapshot uid targets) s = .next (wmUpdate (regSnapshot s uid targets)) := by
  show execOpRegSnapshot uid targets s = _
  exact run_awake s _ h
theorem exec_opCrevasseReportBalance (uid : Nat) (s : State) (h : awake s = true) :
    exec (.opCrevasseReportBalance uid) s = .next (wmUpdate (crvBalance s uid)) := by
  show execOpCrevasseReportBalance uid s = _
  exact run_awake s _ h
theorem exec_opCrevasseReportInference (uid : Nat) (s : State) (h : awake s = true) :
    exec (.opCrevasseReportInference uid) s = .next (wmUpdate (crvInference s uid)) := by
  show execOpCrevasseReportInference uid s = _
  exact run_awake s _ h
theorem exec_opCrevasseReportScores (uid : Nat) (s : State) (h : awake s = true) :
    exec (.opCrevasseReportScores uid) s = .next (wmUpdate (crvScores s uid)) := by
  show execOpCrevasseReportScores uid s = _
  exact run_awake s _ h
theorem exec_opCrevasseReportSnapshot (uid : Nat) (s : State) (h : awake s = true) :
    exec (.opCrevasseReportSnapshot uid) s = .next (wmUpdate (crvSnapshot s uid)) := by
  show execOpCrevasseReportSnapshot uid s = _
  exact run_awake s _ h
theorem exec_crevasseReportWaitExpiry (uid : Nat) (s : State) (h : awake s = true) :
    exec (.crevasseReportWaitExpiry uid) s = .next (wmUpdate (crvWaitExpiry s uid)) := by
  show execCrevasseReportWaitExpiry uid s = _
  exact run_awake s _ h
theorem exec_opFeederMap (uid : Nat) (s : State) (h : awake s = true) :
    exec (.opFeederMap uid) s = .next (wmUpdate (feederMap s uid)) := by
  show execOpFeederMap uid s = _
  exact run_awake s _ h
theorem exec_opCalReseal (uid : Nat) (block : List Byte) (authOk : Bool) (sigOk : Bool) (s : State) (h : awake s = true) :
    exec (.opCalReseal uid block authOk sigOk) s = .next (wmUpdate (calReseal s uid block authOk sigOk)) := by
  show execOpCalReseal uid block authOk sigOk s = _
  exact run_awake s _ h
theorem exec_opStoreQuery (uid : Nat) (s : State) (h : awake s = true) :
    exec (.opStoreQuery uid) s = .next (wmUpdate (storeQuery s uid)) := by
  show execOpStoreQuery uid s = _
  exact run_awake s _ h
theorem exec_opStoreDiscard (uid : Nat) (s : State) (h : awake s = true) :
    exec (.opStoreDiscard uid) s = .next (wmUpdate (storeDiscard s uid)) := by
  show execOpStoreDiscard uid s = _
  exact run_awake s _ h
theorem exec_opStoreReplay (uid : Nat) (s : State) (h : awake s = true) :
    exec (.opStoreReplay uid) s = .next (wmUpdate (storeReplay s uid)) := by
  show execOpStoreReplay uid s = _
  exact run_awake s _ h
theorem exec_opStoreHealth (uid : Nat) (s : State) (h : awake s = true) :
    exec (.opStoreHealth uid) s = .next (wmUpdate (storeHealth s uid)) := by
  show execOpStoreHealth uid s = _
  exact run_awake s _ h
theorem exec_opTimeMsg (uid : Nat) (s : State) (h : awake s = true) :
    exec (.opTimeMsg uid) s = .next (wmUpdate (timeMsg s uid)) := by
  show execOpTimeMsg uid s = _
  exact run_awake s _ h
theorem exec_opTimeRebase (uid : Nat) (s : State) (h : awake s = true) :
    exec (.opTimeRebase uid) s = .next (wmUpdate (timeRebase s uid)) := by
  show execOpTimeRebase uid s = _
  exact run_awake s _ h
theorem exec_opMeterTimeSet (uid : Nat) (targets : List Word) (s : State) (h : awake s = true) :
    exec (.opMeterTimeSet uid targets) s = .next (wmUpdate (meterTimeSet s uid targets)) := by
  show execOpMeterTimeSet uid targets s = _
  exact run_awake s _ h
theorem exec_opHarnStatusRing (uid : Nat) (s : State) (h : awake s = true) :
    exec (.opHarnStatusRing uid) s = .next (wmUpdate (harnStatusRing s uid)) := by
  show execOpHarnStatusRing uid s = _
  exact run_awake s _ h
theorem exec_opHarnStatusTakenOver (uid : Nat) (s : State) (h : awake s = true) :
    exec (.opHarnStatusTakenOver uid) s = .next (wmUpdate (harnStatusTaken s uid)) := by
  show execOpHarnStatusTakenOver uid s = _
  exact run_awake s _ h
theorem exec_opHarnReturn (uid : Nat) (s : State) (h : awake s = true) :
    exec (.opHarnReturn uid) s = .next (wmUpdate (harnReturn s uid)) := by
  show execOpHarnReturn uid s = _
  exact run_awake s _ h
theorem exec_opChLoopback (uid : Nat) (errors : List (Nat × Nat)) (s : State) (h : awake s = true) :
    exec (.opChLoopback uid errors) s = .next (wmUpdate (chLoopback s uid errors)) := by
  show execOpChLoopback uid errors s = _
  exact run_awake s _ h
theorem exec_opDutyTableLoad (uid : Nat) (plan : List Byte) (s : State) (h : awake s = true) :
    exec (.opDutyTableLoad uid plan) s = .next (wmUpdate (dutyTableLoad s uid plan)) := by
  show execOpDutyTableLoad uid plan s = _
  exact run_awake s _ h
theorem exec_opImgBlock (uid : Nat) (data : List Byte) (mismatch : Option Nat) (s : State) (h : awake s = true) :
    exec (.opImgBlock uid data mismatch) s = .next (wmUpdate (imgBlock s uid data mismatch)) := by
  show execOpImgBlock uid data mismatch s = _
  exact run_awake s _ h
theorem exec_opImgVerify (uid : Nat) (chk : ImgCheck) (s : State) (h : awake s = true) :
    exec (.opImgVerify uid chk) s = .next (wmUpdate (imgVerify s uid chk)) := by
  show execOpImgVerify uid chk s = _
  exact run_awake s _ h
theorem exec_opImgActivate (uid : Nat) (img : SlotIn) (s : State) (h : awake s = true) :
    exec (.opImgActivate uid img) s = .next (wmUpdate (imgActivate s uid img)) := by
  show execOpImgActivate uid img s = _
  exact run_awake s _ h
theorem exec_opImgConfirmAccept (uid : Nat) (s : State) (h : awake s = true) :
    exec (.opImgConfirmAccept uid) s = .next (wmUpdate (imgConfirmAccept s uid)) := by
  show execOpImgConfirmAccept uid s = _
  exact run_awake s _ h
theorem exec_opImgConfirmReject (uid : Nat) (s : State) (h : awake s = true) :
    exec (.opImgConfirmReject uid) s = .next (wmUpdate (imgConfirmReject s uid)) := by
  show execOpImgConfirmReject uid s = _
  exact run_awake s _ h
theorem exec_opConfigWrite (uid : Nat) (container : List Byte) (chk : ImgCheck) (s : State) (h : awake s = true) :
    exec (.opConfigWrite uid container chk) s = .next (wmUpdate (configWrite s uid container chk)) := by
  show execOpConfigWrite uid container chk s = _
  exact run_awake s _ h
theorem exec_opKat (uid : Nat) (failing : Option Nat) (s : State) (h : awake s = true) :
    exec (.opKat uid failing) s = .next (wmUpdate (opKat s uid failing)) := by
  show execOpKat uid failing s = _
  exact run_awake s _ h
theorem exec_opLogReadRead (uid : Nat) (s : State) (h : awake s = true) :
    exec (.opLogReadRead uid) s = .next (wmUpdate (logReadRead s uid)) := by
  show execOpLogReadRead uid s = _
  exact run_awake s _ h
theorem exec_opLogReadClear (uid : Nat) (verifyOk : Bool) (s : State) (h : awake s = true) :
    exec (.opLogReadClear uid verifyOk) s = .next (wmUpdate (logReadClear s uid verifyOk)) := by
  show execOpLogReadClear uid verifyOk s = _
  exact run_awake s _ h
theorem exec_opCounterPresetPreset (uid : Nat) (s : State) (h : awake s = true) :
    exec (.opCounterPresetPreset uid) s = .next (wmUpdate (counterPreset s uid 0)) := by
  show execOpCounterPresetPreset uid s = _
  exact run_awake s _ h
theorem exec_opCounterPresetReadAndPreset (uid : Nat) (s : State) (h : awake s = true) :
    exec (.opCounterPresetReadAndPreset uid) s = .next (wmUpdate (counterPreset s uid 1)) := by
  show execOpCounterPresetReadAndPreset uid s = _
  exact run_awake s _ h
theorem exec_opCounterPresetRead (uid : Nat) (s : State) (h : awake s = true) :
    exec (.opCounterPresetRead uid) s = .next (wmUpdate (counterPreset s uid 2)) := by
  show execOpCounterPresetRead uid s = _
  exact run_awake s _ h
theorem exec_sqTailDoorbell (q : Nat) (off : Nat) (size : Nat) (value : Word) (s : State) (h : awake s = true) :
    exec (.sqTailDoorbell q off size value) s = .next (wmUpdate (sqTailDoorbell (linkUp s) q off size value)) := by
  show execSqTailDoorbell q off size value s = _
  exact hostRun_awake s _ h
theorem exec_cqHeadDoorbell (c : Nat) (off : Nat) (size : Nat) (value : Word) (s : State) (h : awake s = true) :
    exec (.cqHeadDoorbell c off size value) s = .next (wmUpdate (cqHeadDoorbell (linkUp s) c off size value)) := by
  show execCqHeadDoorbell c off size value s = _
  exact hostRun_awake s _ h
theorem exec_rrGrantDoorbell (r : Nat) (off : Nat) (size : Nat) (value : Word) (s : State) (h : awake s = true) :
    exec (.rrGrantDoorbell r off size value) s = .next (wmUpdate (rrGrantDoorbell (linkUp s) r off size value)) := by
  show execRrGrantDoorbell r off size value s = _
  exact hostRun_awake s _ h
theorem exec_pushWrite (page : Nat) (off : Nat) (len : Nat) (raw : BitVec 512) (s : State) (h : awake s = true) :
    exec (.pushWrite page off len raw) s = .next (wmUpdate (Machine.pushWrite (linkUp s) page off len raw)) := by
  show execPushWrite page off len raw s = _
  exact hostRun_awake s _ h
theorem exec_ringEnable (kind : Nat) (n : Nat) (value : Word) (s : State) (h : awake s = true) :
    exec (.ringEnable kind n value) s = .next (wmUpdate (ringCfgWrite (linkUp s) kind n value)) := by
  show execRingEnable kind n value s = _
  exact hostRun_awake s _ h
theorem exec_ringDisable (kind : Nat) (n : Nat) (value : Word) (s : State) (h : awake s = true) :
    exec (.ringDisable kind n value) s = .next (wmUpdate (ringCfgWrite (linkUp s) kind n value)) := by
  show execRingDisable kind n value s = _
  exact hostRun_awake s _ h
theorem exec_descriptorFetch (q : Nat) (raws : List (BitVec 512)) (s : State) (h : awake s = true) :
    exec (.descriptorFetch q raws) s = .next (wmUpdate (Machine.descriptorFetch s q raws)) := by
  show execDescriptorFetch q raws s = _
  exact run_awake s _ h
theorem exec_tc0Admission (s : State) (h : awake s = true) :
    exec (.tc0Admission) s = .next (wmUpdate (Machine.tc0Admission s)) := by
  show execTc0Admission s = _
  exact run_awake s _ h
theorem exec_pushAdmission (s : State) (h : awake s = true) :
    exec (.pushAdmission) s = .next (wmUpdate (Machine.pushAdmission s)) := by
  show execPushAdmission s = _
  exact run_awake s _ h
theorem exec_completionWrite (c : Nat) (s : State) (h : awake s = true) :
    exec (.completionWrite c) s = .next (wmUpdate (Machine.completionWrite s c)) := by
  show execCompletionWrite c s = _
  exact run_awake s _ h
theorem exec_completionInterruptTimer (c : Nat) (s : State) (h : awake s = true) :
    exec (.completionInterruptTimer c) s = .next (wmUpdate (completionTimer s c)) := by
  show execCompletionInterruptTimer c s = _
  exact run_awake s _ h
theorem exec_irqEnWrite (c : Nat) (value : Word) (s : State) (h : awake s = true) :
    exec (.irqEnWrite c value) s = .next (wmUpdate (hostWrite (linkUp s) (0x1C0C + 0x20 * c) 4 value)) := by
  show execIrqEnWrite c value s = _
  exact hostRun_awake s _ h
theorem exec_msixVectorUnmask (v : Nat) (s : State) (h : awake s = true) :
    exec (.msixVectorUnmask v) s = .next (wmUpdate (vectorUnmask (linkUp s) v)) := by
  show execMsixVectorUnmask v s = _
  exact hostRun_awake s _ h
theorem exec_readingDelivery (r : Nat) (s : State) (h : awake s = true) :
    exec (.readingDelivery r) s = .next (wmUpdate (tkoRefill (Machine.readingDelivery s r))) := by
  show execReadingDelivery r s = _
  exact run_awake s _ h
theorem exec_functionLevelReset (s : State) (h : awake s = true) :
    exec (.functionLevelReset) s = .next (wmUpdate (Machine.functionLevelReset (linkUp s))) := by
  show execFunctionLevelReset s = _
  exact hostRun_awake s _ h
theorem exec_registerWrite (off : Nat) (size : Nat) (value : Word) (s : State) (h : awake s = true) :
    exec (.registerWrite off size value) s = .next (wmUpdate (hostWrite (linkUp s) off size value)) := by
  show execRegisterWrite off size value s = _
  exact hostRun_awake s _ h
theorem exec_wmCfgWrite (n : Nat) (value : Word) (s : State) (h : awake s = true) :
    exec (.wmCfgWrite n value) s = .next (wmUpdate (hostWrite (linkUp s) (0x20 + 4 * n) 4 value)) := by
  show execWmCfgWrite n value s = _
  exact hostRun_awake s _ h
theorem exec_klCtrlClear (value : Word) (s : State) (h : awake s = true) :
    exec (.klCtrlClear value) s = .next (wmUpdate (hostWrite (linkUp s) 0x4020 4 value)) := by
  show execKlCtrlClear value s = _
  exact hostRun_awake s _ h
theorem exec_pacePeakClear (value : Word) (s : State) (h : awake s = true) :
    exec (.pacePeakClear value) s = .next (wmUpdate (hostWrite (linkUp s) 0x14 4 value)) := by
  show execPacePeakClear value s = _
  exact hostRun_awake s _ h
theorem exec_inflightPeakClear (value : Word) (s : State) (h : awake s = true) :
    exec (.inflightPeakClear value) s = .next (wmUpdate (hostWrite (linkUp s) 0x1004 4 value)) := by
  show execInflightPeakClear value s = _
  exact hostRun_awake s _ h
theorem exec_holdPeakClear (value : Word) (s : State) (h : awake s = true) :
    exec (.holdPeakClear value) s = .next (wmUpdate (hostWrite (linkUp s) 0x30C 4 value)) := by
  show execHoldPeakClear value s = _
  exact hostRun_awake s _ h
theorem exec_chgRoleWrite (g : Nat) (value : Word) (s : State) (h : awake s = true) :
    exec (.chgRoleWrite g value) s = .next (wmUpdate (hostWrite (linkUp s) (0x6400 + 4 * g) 4 value)) := by
  show execChgRoleWrite g value s = _
  exact hostRun_awake s _ h
theorem exec_cntLoRead (k : Nat) (s : State) (h : awake s = true) :
    exec (.cntLoRead k) s = .next (wmUpdate (Machine.cntLoRead (linkUp s) k)) := by
  show execCntLoRead k s = _
  exact hostRun_awake s _ h
theorem exec_dtLoRead (s : State) (h : awake s = true) :
    exec (.dtLoRead) s = .next (wmUpdate (Machine.dtLoRead (linkUp s))) := by
  show execDtLoRead s = _
  exact hostRun_awake s _ h
theorem exec_bwSelWrite (value : Word) (s : State) (h : awake s = true) :
    exec (.bwSelWrite value) s = .next (wmUpdate (hostWrite (linkUp s) 0x904 4 value)) := by
  show execBwSelWrite value s = _
  exact hostRun_awake s _ h
theorem exec_bwWindowMsWrite (value : Word) (s : State) (h : awake s = true) :
    exec (.bwWindowMsWrite value) s = .next (wmUpdate (hostWrite (linkUp s) 0x900 4 value)) := by
  show execBwWindowMsWrite value s = _
  exact hostRun_awake s _ h
theorem exec_samplerArm (n : Nat) (value : Word) (s : State) (h : awake s = true) :
    exec (.samplerArm n value) s = .next (wmUpdate (hostWrite (linkUp s) (0x800 + 0x20 * n) 4 value)) := by
  show execSamplerArm n value s = _
  exact hostRun_awake s _ h
theorem exec_channelFrameReceive (ch : Nat) (f : Frame) (lk : LinkIn) (s : State) (h : awake s = true) :
    exec (.channelFrameReceive ch f lk) s = .next (wmUpdate (frameReceive s ch f lk)) := by
  show execChannelFrameReceive ch f lk s = _
  exact run_awake s _ h
theorem exec_interCharacterGap (ch : Nat) (gapChars : Nat) (s : State) (h : awake s = true) :
    exec (.interCharacterGap ch gapChars) s = .next (wmUpdate (characterGap s ch gapChars)) := by
  show execInterCharacterGap ch gapChars s = _
  exact run_awake s _ h
theorem exec_modemReadyTimeout (ch : Nat) (s : State) (h : awake s = true) :
    exec (.modemReadyTimeout ch) s = .next (wmUpdate (modemTimeout s ch)) := by
  show execModemReadyTimeout ch s = _
  exact run_awake s _ h
theorem exec_channelFrameTransmit (chan : ChReady) (s : State) (h : awake s = true) :
    exec (.channelFrameTransmit chan) s = .next (wmUpdate (frameTransmit s chan.ch chan.pinC)) := by
  show execChannelFrameTransmit chan s = _
  exact run_awake s _ h
theorem exec_dutyBucketRollover (s : State) (h : awake s = true) :
    exec (.dutyBucketRollover) s = .next (wmUpdate (dutyRollover s)) := by
  show execDutyBucketRollover s = _
  exact run_awake s _ h
theorem exec_dutyWaitTimeout (ch : Nat) (uid : Nat) (s : State) (h : awake s = true) :
    exec (.dutyWaitTimeout ch uid) s = .next (wmUpdate (Machine.dutyWaitTimeout s ch uid)) := by
  show execDutyWaitTimeout ch uid s = _
  exact run_awake s _ h
theorem exec_beaconTransmit (ch : Nat) (s : State) (h : awake s = true) :
    exec (.beaconTransmit ch) s = .next (wmUpdate (Machine.beaconTransmit s ch)) := by
  show execBeaconTransmit ch s = _
  exact run_awake s _ h
theorem exec_beaconReceive (ch : Nat) (panId : Nat) (addr : Nat) (sfNum : Nat) (s : State) (h : awake s = true) :
    exec (.beaconReceive ch panId addr sfNum) s = .next (wmUpdate (Machine.beaconReceive s ch panId addr sfNum)) := by
  show execBeaconReceive ch panId addr sfNum s = _
  exact run_awake s _ h
theorem exec_beaconMissed (ch : Nat) (s : State) (h : awake s = true) :
    exec (.beaconMissed ch) s = .next (wmUpdate (Machine.beaconMissed s ch)) := by
  show execBeaconMissed ch s = _
  exact run_awake s _ h
theorem exec_memberSupervisionTimeout (ch : Nat) (s : State) (h : awake s = true) :
    exec (.memberSupervisionTimeout ch) s = .next (wmUpdate (memberTimeout s ch)) := by
  show execMemberSupervisionTimeout ch s = _
  exact run_awake s _ h
theorem exec_enhancedAcknowledgement (ch : Nat) (eid : Nat) (lk : LinkIn) (timeCorrUs : Int) (tc0 : Bool) (deferred : Bool) (s : State) (h : awake s = true) :
    exec (.enhancedAcknowledgement ch eid lk timeCorrUs tc0 deferred) s = .next (wmUpdate (enhancedAck s ch eid lk timeCorrUs tc0 deferred)) := by
  show execEnhancedAcknowledgement ch eid lk timeCorrUs tc0 deferred s = _
  exact run_awake s _ h
theorem exec_linkEvent (eid : Nat) (s : State) (h : awake s = true) :
    exec (.linkEvent eid) s = .next (wmUpdate (Machine.linkEvent s eid)) := by
  show execLinkEvent eid s = _
  exact run_awake s _ h
theorem exec_linkEventMissed (eid : Nat) (s : State) (h : awake s = true) :
    exec (.linkEventMissed eid) s = .next (wmUpdate (Machine.linkEventMissed s eid)) := by
  show execLinkEventMissed eid s = _
  exact run_awake s _ h
theorem exec_linkDrop (eid : Nat) (s : State) (h : awake s = true) (ht : tailOpen s = true) :
    exec (.linkDrop eid) s = .next (wmUpdate (Machine.linkDrop s eid)) := by
  show execLinkDrop eid s = _
  exact tailRun_awake s _ h ht
theorem exec_lbtBackoff (ch : Nat) (idle : Bool) (s : State) (h : awake s = true) :
    exec (.lbtBackoff ch idle) s = .next (wmUpdate (Machine.lbtBackoff s ch idle)) := by
  show execLbtBackoff ch idle s = _
  exact run_awake s _ h
theorem exec_ackWaitExpiry (ch : Nat) (s : State) (h : awake s = true) :
    exec (.ackWaitExpiry ch) s = .next (wmUpdate (Machine.ackWaitExpiry s ch)) := by
  show execAckWaitExpiry ch s = _
  exact run_awake s _ h
theorem exec_linkAcknowledgement (ch : Nat) (eid : Nat) (s : State) (h : awake s = true) :
    exec (.linkAcknowledgement ch eid) s = .next (wmUpdate (linkAcked s ch eid)) := by
  show execLinkAcknowledgement ch eid s = _
  exact run_awake s _ h
theorem exec_responseTimeout (txn : Nat) (s : State) (h : awake s = true) :
    exec (.responseTimeout txn) s = .next (wmUpdate (Machine.responseTimeout s txn)) := by
  show execResponseTimeout txn s = _
  exact run_awake s _ h
theorem exec_commandWaitTimeout (uid : Nat) (s : State) (h : awake s = true) :
    exec (.commandWaitTimeout uid) s = .next (wmUpdate (Machine.commandWaitTimeout s uid)) := by
  show execCommandWaitTimeout uid s = _
  exact run_awake s _ h
theorem exec_collectionInstant (eid : Nat) (s : State) (h : awake s = true) (ht : tailOpen s = true) :
    exec (.collectionInstant eid) s = .next (wmUpdate (Machine.collectionInstant s eid)) := by
  show execCollectionInstant eid s = _
  exact tailRun_awake s _ h ht
theorem exec_relayConfirmationTimeout (eid : Nat) (s : State) (h : awake s = true) (ht : tailOpen s = true) :
    exec (.relayConfirmationTimeout eid) s = .next (wmUpdate (relayTimeout s eid)) := by
  show execRelayConfirmationTimeout eid s = _
  exact tailRun_awake s _ h ht
theorem exec_parseAndClassify (tunnel : Bool) (src : Nat) (s : State) (h : awake s = true) :
    exec (.parseAndClassify tunnel src) s = .next (wmUpdate (tkoRefill (Machine.parseAndClassify s tunnel src))) := by
  show execParseAndClassify tunnel src s = _
  exact run_awake s _ h
theorem exec_keyUnwrap (s : State) (h : awake s = true) :
    exec (.keyUnwrap) s = .next (wmUpdate (Machine.keyUnwrap s)) := by
  show execKeyUnwrap s = _
  exact run_awake s _ h
theorem exec_holdReservation (s : State) (h : awake s = true) :
    exec (.holdReservation) s = .next (wmUpdate (Machine.holdReservation s)) := by
  show execHoldReservation s = _
  exact run_awake s _ h
theorem exec_decryptAndVerify (pipe : Nat) (faultFlag : Bool) (secondOk : Bool) (s : State) (h : awake s = true) :
    exec (.decryptAndVerify pipe faultFlag secondOk) s = .next (wmUpdate (decryptVerify s pipe faultFlag secondOk)) := by
  show execDecryptAndVerify pipe faultFlag secondOk s = _
  exact run_awake s _ h
theorem exec_validation (s : State) (h : awake s = true) :
    exec (.validation) s = .next (wmUpdate (validationRow s)) := by
  show execValidation s = _
  exact run_awake s _ h
theorem exec_posting (s : State) (h : awake s = true)
    (ht : tailOpenTc s (match postFront s with | some it => it.cls | none => 1) = true) :
    exec (.posting) s = .next (wmUpdate (postingRow s)) := by
  show execPosting s = _
  exact tailRunTc_awake s _ _ h ht
theorem exec_storeAppend (s : State) (h : awake s = true) :
    exec (.storeAppend) s = .next (wmUpdate (Machine.storeAppend s)) := by
  show execStoreAppend s = _
  exact run_awake s _ h
theorem exec_sealLeaf (s : State) (h : awake s = true) :
    exec (.sealLeaf) s = .next (wmUpdate (sealStep s)) := by
  show execSealLeaf s = _
  exact run_awake s _ h
theorem exec_batchCloseTimer (s : State) (h : awake s = true) :
    exec (.batchCloseTimer) s = .next (wmUpdate (Machine.batchCloseTimer s)) := by
  show execBatchCloseTimer s = _
  exact run_awake s _ h
theorem exec_batchSign (s : State) (h : awake s = true) :
    exec (.batchSign) s = .next (wmUpdate (Machine.batchSign s)) := by
  show execBatchSign s = _
  exact run_awake s _ h
theorem exec_filterEntryEviction (s : State) (h : awake s = true) :
    exec (.filterEntryEviction) s = .next (wmUpdate (filterEvict s)) := by
  show execFilterEntryEviction s = _
  exact run_awake s _ h
theorem exec_slotZeroize (slot : Nat) (s : State) (h : awake s = true) :
    exec (.slotZeroize slot) s = .next (wmUpdate (slotZeroizeRow s slot)) := by
  show execSlotZeroize slot s = _
  exact run_awake s _ h
theorem exec_keySlotBusyTimeout (uid : Nat) (s : State) (h : awake s = true) :
    exec (.keySlotBusyTimeout uid) s = .next (wmUpdate (Machine.keySlotBusyTimeout s uid)) := by
  show execKeySlotBusyTimeout uid s = _
  exact run_awake s _ h
theorem exec_shareRerandomise (s : State) (h : awake s = true) :
    exec (.shareRerandomise) s = .next (wmUpdate (Machine.shareRerandomise s)) := by
  show execShareRerandomise s = _
  exact run_awake s _ h
theorem exec_maskSetRefill (pipe : Nat) (s : State) (h : awake s = true) :
    exec (.maskSetRefill pipe) s = .next (wmUpdate (maskRefill s pipe)) := by
  show execMaskSetRefill pipe s = _
  exact run_awake s _ h
theorem exec_noiseSourceFail (source : Nat) (s : State) (h : awake s = true) :
    exec (.noiseSourceFail source) s = .next (wmUpdate (noiseFail s source)) := by
  show execNoiseSourceFail source s = _
  exact run_awake s _ h
theorem exec_noiseSourceReturn (source : Nat) (s : State) (h : awake s = true) :
    exec (.noiseSourceReturn source) s = .next (wmUpdate (noiseReturn s source)) := by
  show execNoiseSourceReturn source s = _
  exact run_awake s _ h
theorem exec_drbgReseed (s : State) (h : awake s = true) :
    exec (.drbgReseed) s = .next (wmUpdate (Machine.drbgReseed s)) := by
  show execDrbgReseed s = _
  exact run_awake s _ h
theorem exec_maskExpanderReseed (pipe : Nat) (s : State) (h : awake s = true) :
    exec (.maskExpanderReseed pipe) s = .next (wmUpdate (maskReseed s pipe)) := by
  show execMaskExpanderReseed pipe s = _
  exact run_awake s _ h
theorem exec_intervalEnd (s : State) (h : awake s = true) :
    exec (.intervalEnd) s = .next (wmUpdate (boundaryPass s 1)) := by
  show execIntervalEnd s = _
  exact run_awake s _ h
theorem exec_demandEnd (s : State) (h : awake s = true) :
    exec (.demandEnd) s = .next (wmUpdate (boundaryPass s 2)) := by
  show execDemandEnd s = _
  exact run_awake s _ h
theorem exec_tariffSwitch (s : State) (h : awake s = true) :
    exec (.tariffSwitch) s = .next (wmUpdate (boundaryPass s 5)) := by
  show execTariffSwitch s = _
  exact run_awake s _ h
theorem exec_tariffActivate (s : State) (h : awake s = true) (ht : tailOpen s = true) :
    exec (.tariffActivate) s = .next (wmUpdate (Machine.tariffActivate s)) := by
  show execTariffActivate s = _
  exact tailRun_awake s _ h ht
theorem exec_periodClose (s : State) (h : awake s = true) (ht : tailOpen s = true) :
    exec (.periodClose) s = .next (wmUpdate (Machine.periodClose s)) := by
  show execPeriodClose s = _
  exact tailRun_awake s _ h ht
theorem exec_friendlyEnd (s : State) (h : awake s = true) :
    exec (.friendlyEnd) s = .next (wmUpdate (Machine.friendlyEnd s)) := by
  show execFriendlyEnd s = _
  exact run_awake s _ h
theorem exec_closeSweep (s : State) (h : awake s = true) (ht : tailOpen s = true) (hr : storeRoom s = true) :
    exec (.closeSweep) s = .next (wmUpdate (Machine.closeSweep s)) := by
  show execCloseSweep s = _
  exact sweepRun_awake s _ h ht hr
theorem exec_friendlyEvaluationSweep (s : State) (h : awake s = true) (ht : tailOpen s = true) :
    exec (.friendlyEvaluationSweep) s = .next (wmUpdate (friendlySweep s)) := by
  show execFriendlyEvaluationSweep s = _
  exact tailRun_awake s _ h ht
theorem exec_bwWindowEnd (s : State) (h : awake s = true) :
    exec (.bwWindowEnd) s = .next (wmUpdate (Machine.bwWindowEnd s)) := by
  show execBwWindowEnd s = _
  exact run_awake s _ h
theorem exec_resetAssert (lowNs : Nat) (s : State) :
    exec (.resetAssert lowNs) s = .next (wmUpdate (Machine.resetAssert s lowNs)) := rfl
theorem exec_resetRelease (inp : BootIn) (s : State) (h : (s.pins.resetLow && inp.testEn) = false) :
    exec (.resetRelease inp) s = .next (wmUpdate (resetRelease s inp)) := by
  show execResetRelease inp s = _
  simp [execResetRelease, h, anyRun]
theorem exec_bootReady (s : State) (h : awake s = true) :
    exec (.bootReady) s = .next (wmUpdate (Machine.bootReady s)) := by
  show execBootReady s = _
  exact run_awake s _ h
theorem exec_pfailAssert (lowNs : Nat) (s : State) (h : awake s = true) :
    exec (.pfailAssert lowNs) s = .next (wmUpdate (Machine.pfailAssert s lowNs)) := by
  show execPfailAssert lowNs s = _
  exact run_awake s _ h
theorem exec_pfailDeassert (s : State) :
    exec (.pfailDeassert) s = .next (wmUpdate (Machine.pfailDeassert s)) := rfl
theorem exec_bankLevelChange (g : Nat) (mv : Nat) (heldUs : Nat) (s : State) :
    exec (.bankLevelChange g mv heldUs) s = .next (wmUpdate (bankChange s g mv heldUs)) := rfl
theorem exec_vbatLow (mv : Nat) (s : State) :
    exec (.vbatLow mv) s = .next (wmUpdate (Machine.vbatLow s mv)) := rfl
theorem exec_paceMeasurement (ps : Nat) (s : State) (h : awake s = true) :
    exec (.paceMeasurement ps) s = .next (wmUpdate (paceMeasure s ps)) := by
  show execPaceMeasurement ps s = _
  exact run_awake s _ h
theorem exec_vreqAdjust (s : State) (h : awake s = true) :
    exec (.vreqAdjust) s = .next (wmUpdate (Machine.vreqAdjust s)) := by
  show execVreqAdjust s = _
  exact run_awake s _ h
theorem exec_functionStartComplete (f : FuncRef) (checkOk : Bool) (s : State) (h : awake s = true) :
    exec (.functionStartComplete f checkOk) s = .next (wmUpdate (startComplete s f checkOk)) := by
  show execFunctionStartComplete f checkOk s = _
  exact run_awake s _ h
theorem exec_functionStopComplete (f : FuncRef) (s : State) (h : awake s = true) :
    exec (.functionStopComplete f) s = .next (wmUpdate (stopComplete s f)) := by
  show execFunctionStopComplete f s = _
  exact run_awake s _ h
theorem exec_leapChange (s : State) (h : awake s = true) :
    exec (.leapChange) s = .next (wmUpdate (Machine.leapChange s)) := by
  show execLeapChange s = _
  exact run_awake s _ h
theorem exec_holdoverEntry (s : State) (h : awake s = true) :
    exec (.holdoverEntry) s = .next (wmUpdate (Machine.holdoverEntry s)) := by
  show execHoldoverEntry s = _
  exact run_awake s _ h
theorem exec_batteryCounterSync (s : State) (h : awake s = true) :
    exec (.batteryCounterSync) s = .next (wmUpdate (bbcSync s)) := by
  show execBatteryCounterSync s = _
  exact run_awake s _ h
theorem exec_rateCorrSave (s : State) (h : awake s = true) :
    exec (.rateCorrSave) s = .next (wmUpdate (rateSave s)) := by
  show execRateCorrSave s = _
  exact run_awake s _ h
theorem exec_ringTick (leadDt : BitVec 64) (correctionNs : Nat) (hops : Nat) (rebaseCnt : Nat) (shiftNs : Int) (s : State) (h : awake s = true) :
    exec (.ringTick leadDt correctionNs hops rebaseCnt shiftNs) s = .next (wmUpdate (Machine.ringTick s leadDt correctionNs hops rebaseCnt shiftNs)) := by
  show execRingTick leadDt correctionNs hops rebaseCnt shiftNs s = _
  exact run_awake s _ h
theorem exec_garbageCollection (die : Nat) (s : State) (h : awake s = true) :
    exec (.garbageCollection die) s = .next (wmUpdate (garbageCollect s die)) := by
  show execGarbageCollection die s = _
  exact run_awake s _ h
theorem exec_nandProgramFailure (die : Nat) (s : State) (h : awake s = true) :
    exec (.nandProgramFailure die) s = .next (wmUpdate (programFailure s die)) := by
  show execNandProgramFailure die s = _
  exact run_awake s _ h
theorem exec_nandEraseFailure (die : Nat) (s : State) (h : awake s = true) :
    exec (.nandEraseFailure die) s = .next (wmUpdate (eraseFailure s die)) := by
  show execNandEraseFailure die s = _
  exact run_awake s _ h
theorem exec_dieTimeout (die : Nat) (s : State) (h : awake s = true) :
    exec (.dieTimeout die) s = .next (wmUpdate (Machine.dieTimeout s die)) := by
  show execDieTimeout die s = _
  exact run_awake s _ h
theorem exec_patrolRead (die : Nat) (corrections : Nat) (eccFail : Bool) (retryOk : Bool) (rebuildOk : Bool) (s : State) (h : awake s = true) :
    exec (.patrolRead die corrections eccFail retryOk rebuildOk) s = .next (wmUpdate (Machine.patrolRead s die corrections eccFail retryOk rebuildOk)) := by
  show execPatrolRead die corrections eccFail retryOk rebuildOk s = _
  exact run_awake s _ h
theorem exec_journalProgram (s : State) (h : awake s = true) :
    exec (.journalProgram) s = .next (wmUpdate (Machine.journalProgram s)) := by
  show execJournalProgram s = _
  exact run_awake s _ h
theorem exec_checkpoint (s : State) (h : awake s = true) :
    exec (.checkpoint) s = .next (wmUpdate (Machine.checkpoint s)) := by
  show execCheckpoint s = _
  exact run_awake s _ h
theorem exec_nandTemperatureRead (temps : List Int) (s : State) (h : awake s = true) :
    exec (.nandTemperatureRead temps) s = .next (wmUpdate (temperatureRead s temps)) := by
  show execNandTemperatureRead temps s = _
  exact run_awake s _ h
theorem exec_scrubPass (rank : Nat) (r : CwRead) (s : State) (h : awake s = true) :
    exec (.scrubPass rank r) s = .next (wmUpdate (Machine.scrubPass s rank r)) := by
  show execScrubPass rank r s = _
  exact run_awake s _ h
theorem exec_controlCoreRestart (core : Nat) (cause : Nat) (s : State) (h : awake s = true) :
    exec (.controlCoreRestart core cause) s = .next (wmUpdate (coreRestart s core cause)) := by
  show execControlCoreRestart core cause s = _
  exact run_awake s _ h
theorem exec_coreRestartComplete (core : Nat) (s : State) (h : awake s = true) :
    exec (.coreRestartComplete core) s = .next (wmUpdate (coreReturn s core)) := by
  show execCoreRestartComplete core s = _
  exact run_awake s _ h
theorem exec_metrologySecond (m : MetSecond) (s : State) (h : awake s = true) :
    exec (.metrologySecond m) s = .next (wmUpdate (Machine.metrologySecond s m)) := by
  show execMetrologySecond m s = _
  exact run_awake s _ h
theorem exec_sealLoopCheck (matched : Bool) (s : State) (h : awake s = true) :
    exec (.sealLoopCheck matched) s = .next (wmUpdate (Machine.sealLoopCheck s matched)) := by
  show execSealLoopCheck matched s = _
  exact run_awake s _ h
theorem exec_sealLoopPulse (ok : Bool) (s : State) :
    exec (.sealLoopPulse ok) s = .next (wmUpdate (Machine.sealLoopPulse s ok)) := rfl
theorem exec_inferenceIntervalEnd (s : State) (h : awake s = true) :
    exec (.inferenceIntervalEnd) s = .next (wmUpdate (Machine.inferenceIntervalEnd s)) := by
  show execInferenceIntervalEnd s = _
  exact run_awake s _ h
theorem exec_inferenceWindowEnd (s : State) (h : awake s = true) (ht : tailOpen s = true) :
    exec (.inferenceWindowEnd) s = .next (wmUpdate (Machine.inferenceWindowEnd s)) := by
  show execInferenceWindowEnd s = _
  exact tailRun_awake s _ h ht
theorem exec_balanceEvaluation (feeder : Nat) (s : State) (h : awake s = true) :
    exec (.balanceEvaluation feeder) s = .next (wmUpdate (Machine.balanceEvaluation s feeder)) := by
  show execBalanceEvaluation feeder s = _
  exact run_awake s _ h
theorem exec_logRecordWrite (readBackOk : Bool) (s : State) (h : awake s = true) :
    exec (.logRecordWrite readBackOk) s = .next (wmUpdate (Machine.logRecordWrite s readBackOk)) := by
  show execLogRecordWrite readBackOk s = _
  exact run_awake s _ h
theorem exec_flurryToken (code : Nat) (s : State) (h : awake s = true) :
    exec (.flurryToken code) s = .next (wmUpdate (Machine.flurryToken s code)) := by
  show execFlurryToken code s = _
  exact run_awake s _ h
theorem exec_trialWindowExpiry (s : State) (h : awake s = true) :
    exec (.trialWindowExpiry) s = .next (wmUpdate (trialExpiry s)) := by
  show execTrialWindowExpiry s = _
  exact run_awake s _ h
theorem exec_backgroundMigration (s : State) (h : awake s = true) (ht : tailOpen s = true) :
    exec (.backgroundMigration) s = .next (wmUpdate (Machine.backgroundMigration s)) := by
  show execBackgroundMigration s = _
  exact tailRun_awake s _ h ht
theorem exec_pcieLinkDown (s : State) (h : awake s = true) :
    exec (.pcieLinkDown) s = .next (wmUpdate (linkDown s)) := by
  show execPcieLinkDown s = _
  exact run_awake s _ h
theorem exec_nandPageProgrammed (die : Nat) (s : State) (h : awake s = true) :
    exec (.nandPageProgrammed die) s = .next (wmUpdate (pageProgrammed s die)) := by
  show execNandPageProgrammed die s = _
  exact run_awake s _ h
theorem exec_boundaryScanInstruction (instr : Nat) (s : State) :
    exec (.boundaryScanInstruction instr) s = .next (wmUpdate (scanInstr s instr)) := rfl
theorem exec_heartbeatTransmit (s : State) (h : awake s = true) :
    exec (.heartbeatTransmit) s = .next (wmUpdate (Machine.heartbeatTransmit s)) := by
  show execHeartbeatTransmit s = _
  exact run_awake s _ h
theorem exec_heartbeat (port : Nat) (origin : Nat) (hops : Nat) (epoch : Nat) (s : State) (h : awake s = true) :
    exec (.heartbeat port origin hops epoch) s = .next (wmUpdate (Machine.heartbeat s port origin hops epoch)) := by
  show execHeartbeat port origin hops epoch s = _
  exact run_awake s _ h
theorem exec_ringTickTransmit (s : State) (h : awake s = true) :
    exec (.ringTickTransmit) s = .next (wmUpdate (Machine.ringTickTransmit s)) := by
  show execRingTickTransmit s = _
  exact run_awake s _ h
theorem exec_statusFrameTransmit (s : State) (h : awake s = true) :
    exec (.statusFrameTransmit) s = .next (wmUpdate (statusTransmit s)) := by
  show execStatusFrameTransmit s = _
  exact run_awake s _ h
theorem exec_status (pos : Nat) (ent : HarnEnt) (s : State) (h : awake s = true) :
    exec (.status pos ent) s = .next (wmUpdate (statusRx s pos ent)) := by
  show execStatus pos ent s = _
  exact run_awake s _ h
theorem exec_linkAck (port : Nat) (lseq : Nat) (s : State) (h : awake s = true) :
    exec (.linkAck port lseq) s = .next (wmUpdate (Machine.linkAck s port lseq)) := by
  show execLinkAck port lseq s = _
  exact run_awake s _ h
theorem exec_replayResend (port : Nat) (s : State) (h : awake s = true) :
    exec (.replayResend port) s = .next (wmUpdate (Machine.replayResend s port)) := by
  show execReplayResend port s = _
  exact run_awake s _ h
theorem exec_laneFailure (lane : Nat) (s : State) (h : awake s = true) :
    exec (.laneFailure lane) s = .next (wmUpdate (Machine.laneFailure s lane)) := by
  show execLaneFailure lane s = _
  exact run_awake s _ h
theorem exec_portBroken (port : Nat) (s : State) (h : awake s = true) :
    exec (.portBroken port) s = .next (wmUpdate (Machine.portBroken s port)) := by
  show execPortBroken port s = _
  exact run_awake s _ h
theorem exec_portRetrain (port : Nat) (s : State) (h : awake s = true) :
    exec (.portRetrain port) s = .next (wmUpdate (Machine.portRetrain s port)) := by
  show execPortRetrain port s = _
  exact run_awake s _ h
theorem exec_mirrorRaw (src : Nat) (id : Nat) (epoch : Nat) (f : Frame) (s : State) (h : awake s = true) :
    exec (.mirrorRaw src id epoch f) s = .next (wmUpdate (Machine.mirrorRaw s src id epoch f)) := by
  show execMirrorRaw src id epoch f s = _
  exact run_awake s _ h
theorem exec_mirrorState (src : Nat) (epoch : Nat) (e : JEnt) (s : State) (h : awake s = true) :
    exec (.mirrorState src epoch e) s = .next (wmUpdate (Machine.mirrorState s src epoch e)) := by
  show execMirrorState src epoch e s = _
  exact run_awake s _ h
theorem exec_mirrorReading (src : Nat) (id : Nat) (epoch : Nat) (rd : ReadRec) (post : Option EpRec) (s : State) (h : awake s = true) :
    exec (.mirrorReading src id epoch rd post) s = .next (wmUpdate (Machine.mirrorReading s src id epoch rd post)) := by
  show execMirrorReading src id epoch rd post s = _
  exact run_awake s _ h
theorem exec_mirrorCmd (src : Nat) (epoch : Nat) (c : MCmd) (s : State) (h : awake s = true) :
    exec (.mirrorCmd src epoch c) s = .next (wmUpdate (Machine.mirrorCmd s src epoch c)) := by
  show execMirrorCmd src epoch c s = _
  exact run_awake s _ h
theorem exec_release (src : Nat) (epoch : Nat) (kind : Nat) (id : Nat) (s : State) (h : awake s = true) :
    exec (.release src epoch kind id) s = .next (wmUpdate (releaseRx s src epoch kind id)) := by
  show execRelease src epoch kind id s = _
  exact run_awake s _ h
theorem exec_syncCopy (src : Nat) (e : JEnt) (s : State) (h : awake s = true) :
    exec (.syncCopy src e) s = .next (wmUpdate (Machine.syncCopy s src e)) := by
  show execSyncCopy src e s = _
  exact run_awake s _ h
theorem exec_mirrorSyncComplete (s : State) (h : awake s = true) :
    exec (.mirrorSyncComplete) s = .next (wmUpdate (Machine.mirrorSyncComplete s)) := by
  show execMirrorSyncComplete s = _
  exact run_awake s _ h
theorem exec_mirrorGateTimeout (s : State) (h : awake s = true) :
    exec (.mirrorGateTimeout) s = .next (wmUpdate (Machine.mirrorGateTimeout s)) := by
  show execMirrorGateTimeout s = _
  exact run_awake s _ h
theorem exec_silenceDeclared (pos : Nat) (lowReturned : Bool) (s : State) (h : awake s = true) :
    exec (.silenceDeclared pos lowReturned) s = .next (wmUpdate (Machine.silenceDeclared s pos lowReturned)) := by
  show execSilenceDeclared pos lowReturned s = _
  exact run_awake s _ h
theorem exec_tc0StageHang (s : State) (h : awake s = true) :
    exec (.tc0StageHang) s = .next (wmUpdate (Machine.tc0StageHang s)) := by
  show execTc0StageHang s = _
  exact run_awake s _ h
theorem exec_joinRequest (side : Nat) (lowUs : Nat) (s : State) (h : awake s = true) :
    exec (.joinRequest side lowUs) s = .next (wmUpdate (Machine.joinRequest s side lowUs)) := by
  show execJoinRequest side lowUs s = _
  exact run_awake s _ h
theorem exec_join (req : JoinReq) (s : State) (h : awake s = true) :
    exec (.join req) s = .next (wmUpdate (joinRx s req)) := by
  show execJoin req s = _
  exact run_awake s _ h
theorem exec_joinGrant (pos : Nat) (server : Nat) (served : Bool) (ringId : BitVec 64) (s : State) (h : awake s = true) :
    exec (.joinGrant pos server served ringId) s = .next (wmUpdate (Machine.joinGrant s pos server served ringId)) := by
  show execJoinGrant pos server served ringId s = _
  exact run_awake s _ h
theorem exec_joinRefuse (err : Nat) (s : State) (h : awake s = true) :
    exec (.joinRefuse err) s = .next (wmUpdate (Machine.joinRefuse s err)) := by
  show execJoinRefuse err s = _
  exact run_awake s _ h
theorem exec_harnessLinkTrained (s : State) (h : awake s = true) :
    exec (.harnessLinkTrained) s = .next (wmUpdate (harnessTrained s)) := by
  show execHarnessLinkTrained s = _
  exact run_awake s _ h
theorem exec_owner (pos : Nat) (server : Nat) (valid : Bool) (epoch : Nat) (s : State) (h : awake s = true) :
    exec (.owner pos server valid epoch) s = .next (wmUpdate (ownerRx s pos server valid epoch)) := by
  show execOwner pos server valid epoch s = _
  exact run_awake s _ h

/-- Whatever the command: the answer is the state it ran on, or one whose watermarks have just followed their queues. -/
theorem exec_settled (c : Instr) (s : State) : Settled s (exec c s) := by
  cases c
  case resetRelease i =>
    intro t h
    by_cases h2 : (s.pins.resetLow && i.testEn) = true
    · simp [exec, execResetRelease, h2] at h
    · rw [exec_resetRelease _ _ (by simpa using h2)] at h
      cases h
      exact .inr ⟨_, rfl⟩
  all_goals (simp only [exec, execLinkDrop, execCollectionInstant, execRelayConfirmationTimeout, execPosting, execTariffActivate, execPeriodClose, execCloseSweep, execFriendlyEvaluationSweep, execInferenceWindowEnd, execBackgroundMigration]; first
    | with_reducible exact tailRun_settled s _
    | with_reducible exact sweepRun_settled s _
    | with_reducible exact tailRunTc_settled s _ _
    | exact run_settled s _ | exact hostRun_settled s _ | exact anyRun_settled s _)

/-- The queues do not see the clocks. -/
theorem queueUsed_tick (s : State) (n : Nat) (b : BootSt) (t : TimeSt) (q : Nat) :
    queueUsed { s with tcxo := n, boot := b, time := t } q = queueUsed s q := rfl
theorem queueDepth_tick (s : State) (n : Nat) (b : BootSt) (t : TimeSt) (q : Nat) :
    queueDepth { s with tcxo := n, boot := b, time := t } q = queueDepth s q := rfl

end Sys2Proof.Machine
end

