-- ==== Sys2Proof/Laws/State.lean ====
section
/-!
SUPPORT. One equation a field for every update of State, so that no proof unfolds a record.
-/
namespace Sys2Proof.Machine
open Sys2Proof

@[simp] theorem fnPut_regs (s : State) (i : Nat) (f : Fn) : (Machine.fnPut s i f).regs = s.regs := rfl
@[simp] theorem fnPut_glob (s : State) (i : Nat) (f : Fn) : (Machine.fnPut s i f).glob = s.glob := rfl
@[simp] theorem fnPut_pins (s : State) (i : Nat) (f : Fn) : (Machine.fnPut s i f).pins = s.pins := rfl
@[simp] theorem fnPut_host (s : State) (i : Nat) (f : Fn) : (Machine.fnPut s i f).host = s.host := rfl
@[simp] theorem fnPut_log (s : State) (i : Nat) (f : Fn) : (Machine.fnPut s i f).log = s.log := rfl
@[simp] theorem fnPut_cnt (s : State) (i : Nat) (f : Fn) : (Machine.fnPut s i f).cnt = s.cnt := rfl
@[simp] theorem fnPut_flt (s : State) (i : Nat) (f : Fn) : (Machine.fnPut s i f).flt = s.flt := rfl
@[simp] theorem fnPut_recs (s : State) (i : Nat) (f : Fn) : (Machine.fnPut s i f).recs = s.recs := rfl
@[simp] theorem fnPut_upd (s : State) (i : Nat) (f : Fn) : (Machine.fnPut s i f).upd = s.upd := rfl
@[simp] theorem fnPut_boot (s : State) (i : Nat) (f : Fn) : (Machine.fnPut s i f).boot = s.boot := rfl
@[simp] theorem fnPut_time (s : State) (i : Nat) (f : Fn) : (Machine.fnPut s i f).time = s.time := rfl
@[simp] theorem fnPut_harn (s : State) (i : Nat) (f : Fn) : (Machine.fnPut s i f).harn = s.harn := rfl
@[simp] theorem fnPut_rp (s : State) (i : Nat) (f : Fn) : (Machine.fnPut s i f).rp = s.rp := rfl
@[simp] theorem fnPut_keys (s : State) (i : Nat) (f : Fn) : (Machine.fnPut s i f).keys = s.keys := rfl
@[simp] theorem fnPut_sealU (s : State) (i : Nat) (f : Fn) : (Machine.fnPut s i f).sealU = s.sealU := rfl
@[simp] theorem fnPut_ce (s : State) (i : Nat) (f : Fn) : (Machine.fnPut s i f).ce = s.ce := rfl
@[simp] theorem fnPut_bill (s : State) (i : Nat) (f : Fn) : (Machine.fnPut s i f).bill = s.bill := rfl
@[simp] theorem fnPut_chan (s : State) (i : Nat) (f : Fn) : (Machine.fnPut s i f).chan = s.chan := rfl
@[simp] theorem fnPut_cmd (s : State) (i : Nat) (f : Fn) : (Machine.fnPut s i f).cmd = s.cmd := rfl
@[simp] theorem fnPut_air (s : State) (i : Nat) (f : Fn) : (Machine.fnPut s i f).air = s.air := rfl
@[simp] theorem fnPut_store (s : State) (i : Nat) (f : Fn) : (Machine.fnPut s i f).store = s.store := rfl
@[simp] theorem fnPut_met (s : State) (i : Nat) (f : Fn) : (Machine.fnPut s i f).met = s.met := rfl
@[simp] theorem fnPut_hostMem (s : State) (i : Nat) (f : Fn) : (Machine.fnPut s i f).hostMem = s.hostMem := rfl
@[simp] theorem fnPut_wire (s : State) (i : Nat) (f : Fn) : (Machine.fnPut s i f).wire = s.wire := rfl
@[simp] theorem fnPut_tcxo (s : State) (i : Nat) (f : Fn) : (Machine.fnPut s i f).tcxo = s.tcxo := rfl
@[simp] theorem fnPut_free (s : State) (i : Nat) (f : Fn) : (Machine.fnPut s i f).free = s.free := rfl
@[simp] theorem fnPut_pending (s : State) (i : Nat) (f : Fn) : (Machine.fnPut s i f).pending = s.pending := rfl
@[simp] theorem fnPut_regGet (s : State) (i : Nat) (f : Fn) (kk : Nat) : regGet (Machine.fnPut s i f) kk = regGet s kk := rfl
@[simp] theorem fnPut_sqGet (s : State) (i : Nat) (f : Fn) (kk : Nat) : sqGet (Machine.fnPut s i f) kk = sqGet s kk := rfl
@[simp] theorem fnPut_cqGet (s : State) (i : Nat) (f : Fn) (kk : Nat) : cqGet (Machine.fnPut s i f) kk = cqGet s kk := rfl
@[simp] theorem fnPut_rrGet (s : State) (i : Nat) (f : Fn) (kk : Nat) : rrGet (Machine.fnPut s i f) kk = rrGet s kk := rfl
@[simp] theorem fnPut_recGet (s : State) (i : Nat) (f : Fn) (kk : Nat) : recGet (Machine.fnPut s i f) kk = recGet s kk := rfl
@[simp] theorem fnPut_pinGet (s : State) (i : Nat) (f : Fn) (kk : Nat) : pinGet (Machine.fnPut s i f) kk = pinGet s kk := rfl
@[simp] theorem fnPut_cntGet (s : State) (i : Nat) (f : Fn) (kk : Nat) : cntGet (Machine.fnPut s i f) kk = cntGet s kk := rfl
@[simp] theorem fnPut_chGet (s : State) (i : Nat) (f : Fn) (kk : Nat) : chGet (Machine.fnPut s i f) kk = chGet s kk := rfl
@[simp] theorem fnPut_macGet (s : State) (i : Nat) (f : Fn) (kk : Nat) : macGet (Machine.fnPut s i f) kk = macGet s kk := rfl
@[simp] theorem fnPut_linkGet (s : State) (i : Nat) (f : Fn) (kk : Nat) : linkGet (Machine.fnPut s i f) kk = linkGet s kk := rfl
@[simp] theorem fnPut_dirGet (s : State) (i : Nat) (f : Fn) (kk : Nat) : dirGet (Machine.fnPut s i f) kk = dirGet s kk := rfl
@[simp] theorem fnPut_slotGet (s : State) (i : Nat) (f : Fn) (kk : Nat) : slotGet (Machine.fnPut s i f) kk = slotGet s kk := rfl
@[simp] theorem fnPut_bwGet (s : State) (i : Nat) (f : Fn) (kk : Nat) : bwGet (Machine.fnPut s i f) kk = bwGet s kk := rfl
@[simp] theorem fnPut_smpGet (s : State) (i : Nat) (f : Fn) (kk : Nat) : smpGet (Machine.fnPut s i f) kk = smpGet s kk := rfl
@[simp] theorem fnPut_dtOf (s : State) (i : Nat) (f : Fn) : dtOf (Machine.fnPut s i f) = dtOf s := rfl
@[simp] theorem sqPut_regs (s : State) (q : Nat) (x : Sq) : (Machine.sqPut s q x).regs = s.regs := rfl
@[simp] theorem sqPut_glob (s : State) (q : Nat) (x : Sq) : (Machine.sqPut s q x).glob = s.glob := rfl
@[simp] theorem sqPut_pins (s : State) (q : Nat) (x : Sq) : (Machine.sqPut s q x).pins = s.pins := rfl
@[simp] theorem sqPut_funcs (s : State) (q : Nat) (x : Sq) : (Machine.sqPut s q x).funcs = s.funcs := rfl
@[simp] theorem sqPut_log (s : State) (q : Nat) (x : Sq) : (Machine.sqPut s q x).log = s.log := rfl
@[simp] theorem sqPut_cnt (s : State) (q : Nat) (x : Sq) : (Machine.sqPut s q x).cnt = s.cnt := rfl
@[simp] theorem sqPut_flt (s : State) (q : Nat) (x : Sq) : (Machine.sqPut s q x).flt = s.flt := rfl
@[simp] theorem sqPut_recs (s : State) (q : Nat) (x : Sq) : (Machine.sqPut s q x).recs = s.recs := rfl
@[simp] theorem sqPut_upd (s : State) (q : Nat) (x : Sq) : (Machine.sqPut s q x).upd = s.upd := rfl
@[simp] theorem sqPut_boot (s : State) (q : Nat) (x : Sq) : (Machine.sqPut s q x).boot = s.boot := rfl
@[simp] theorem sqPut_time (s : State) (q : Nat) (x : Sq) : (Machine.sqPut s q x).time = s.time := rfl
@[simp] theorem sqPut_harn (s : State) (q : Nat) (x : Sq) : (Machine.sqPut s q x).harn = s.harn := rfl
@[simp] theorem sqPut_rp (s : State) (q : Nat) (x : Sq) : (Machine.sqPut s q x).rp = s.rp := rfl
@[simp] theorem sqPut_keys (s : State) (q : Nat) (x : Sq) : (Machine.sqPut s q x).keys = s.keys := rfl
@[simp] theorem sqPut_sealU (s : State) (q : Nat) (x : Sq) : (Machine.sqPut s q x).sealU = s.sealU := rfl
@[simp] theorem sqPut_ce (s : State) (q : Nat) (x : Sq) : (Machine.sqPut s q x).ce = s.ce := rfl
@[simp] theorem sqPut_bill (s : State) (q : Nat) (x : Sq) : (Machine.sqPut s q x).bill = s.bill := rfl
@[simp] theorem sqPut_chan (s : State) (q : Nat) (x : Sq) : (Machine.sqPut s q x).chan = s.chan := rfl
@[simp] theorem sqPut_cmd (s : State) (q : Nat) (x : Sq) : (Machine.sqPut s q x).cmd = s.cmd := rfl
@[simp] theorem sqPut_air (s : State) (q : Nat) (x : Sq) : (Machine.sqPut s q x).air = s.air := rfl
@[simp] theorem sqPut_store (s : State) (q : Nat) (x : Sq) : (Machine.sqPut s q x).store = s.store := rfl
@[simp] theorem sqPut_met (s : State) (q : Nat) (x : Sq) : (Machine.sqPut s q x).met = s.met := rfl
@[simp] theorem sqPut_hostMem (s : State) (q : Nat) (x : Sq) : (Machine.sqPut s q x).hostMem = s.hostMem := rfl
@[simp] theorem sqPut_wire (s : State) (q : Nat) (x : Sq) : (Machine.sqPut s q x).wire = s.wire := rfl
@[simp] theorem sqPut_tcxo (s : State) (q : Nat) (x : Sq) : (Machine.sqPut s q x).tcxo = s.tcxo := rfl
@[simp] theorem sqPut_free (s : State) (q : Nat) (x : Sq) : (Machine.sqPut s q x).free = s.free := rfl
@[simp] theorem sqPut_pending (s : State) (q : Nat) (x : Sq) : (Machine.sqPut s q x).pending = s.pending := rfl
@[simp] theorem sqPut_host_cq (s : State) (q : Nat) (x : Sq) : (Machine.sqPut s q x).host.cq = s.host.cq := rfl
@[simp] theorem sqPut_host_rr (s : State) (q : Nat) (x : Sq) : (Machine.sqPut s q x).host.rr = s.host.rr := rfl
@[simp] theorem sqPut_host_flights (s : State) (q : Nat) (x : Sq) : (Machine.sqPut s q x).host.flights = s.host.flights := rfl
@[simp] theorem sqPut_host_pushBuf (s : State) (q : Nat) (x : Sq) : (Machine.sqPut s q x).host.pushBuf = s.host.pushBuf := rfl
@[simp] theorem sqPut_host_admQ (s : State) (q : Nat) (x : Sq) : (Machine.sqPut s q x).host.admQ = s.host.admQ := rfl
@[simp] theorem sqPut_host_jrnl (s : State) (q : Nat) (x : Sq) : (Machine.sqPut s q x).host.jrnl = s.host.jrnl := rfl
@[simp] theorem sqPut_host_deliv (s : State) (q : Nat) (x : Sq) : (Machine.sqPut s q x).host.deliv = s.host.deliv := rfl
@[simp] theorem sqPut_host_peak (s : State) (q : Nat) (x : Sq) : (Machine.sqPut s q x).host.peak = s.host.peak := rfl
@[simp] theorem sqPut_host_dbDrop (s : State) (q : Nat) (x : Sq) : (Machine.sqPut s q x).host.dbDrop = s.host.dbDrop := rfl
@[simp] theorem sqPut_host_pushDrop (s : State) (q : Nat) (x : Sq) : (Machine.sqPut s q x).host.pushDrop = s.host.pushDrop := rfl
@[simp] theorem sqPut_host_pushOvf (s : State) (q : Nat) (x : Sq) : (Machine.sqPut s q x).host.pushOvf = s.host.pushOvf := rfl
@[simp] theorem sqPut_host_unsolCnt (s : State) (q : Nat) (x : Sq) : (Machine.sqPut s q x).host.unsolCnt = s.host.unsolCnt := rfl
@[simp] theorem sqPut_host_msixMask (s : State) (q : Nat) (x : Sq) : (Machine.sqPut s q x).host.msixMask = s.host.msixMask := rfl
@[simp] theorem sqPut_host_msixPend (s : State) (q : Nat) (x : Sq) : (Machine.sqPut s q x).host.msixPend = s.host.msixPend := rfl
@[simp] theorem sqPut_host_uidNext (s : State) (q : Nat) (x : Sq) : (Machine.sqPut s q x).host.uidNext = s.host.uidNext := rfl
@[simp] theorem sqPut_host_delivNext (s : State) (q : Nat) (x : Sq) : (Machine.sqPut s q x).host.delivNext = s.host.delivNext := rfl
@[simp] theorem sqPut_host_lastRead (s : State) (q : Nat) (x : Sq) : (Machine.sqPut s q x).host.lastRead = s.host.lastRead := rfl
@[simp] theorem sqPut_host_linkDown (s : State) (q : Nat) (x : Sq) : (Machine.sqPut s q x).host.linkDown = s.host.linkDown := rfl
@[simp] theorem sqPut_host_posted (s : State) (q : Nat) (x : Sq) : (Machine.sqPut s q x).host.posted = s.host.posted := rfl
@[simp] theorem sqPut_host_pcie (s : State) (q : Nat) (x : Sq) : (Machine.sqPut s q x).host.pcie = s.host.pcie := rfl
@[simp] theorem sqPut_regGet (s : State) (q : Nat) (x : Sq) (kk : Nat) : regGet (Machine.sqPut s q x) kk = regGet s kk := rfl
@[simp] theorem sqPut_cqGet (s : State) (q : Nat) (x : Sq) (kk : Nat) : cqGet (Machine.sqPut s q x) kk = cqGet s kk := rfl
@[simp] theorem sqPut_rrGet (s : State) (q : Nat) (x : Sq) (kk : Nat) : rrGet (Machine.sqPut s q x) kk = rrGet s kk := rfl
@[simp] theorem sqPut_fnGet (s : State) (q : Nat) (x : Sq) (kk : Nat) : fnGet (Machine.sqPut s q x) kk = fnGet s kk := rfl
@[simp] theorem sqPut_recGet (s : State) (q : Nat) (x : Sq) (kk : Nat) : recGet (Machine.sqPut s q x) kk = recGet s kk := rfl
@[simp] theorem sqPut_pinGet (s : State) (q : Nat) (x : Sq) (kk : Nat) : pinGet (Machine.sqPut s q x) kk = pinGet s kk := rfl
@[simp] theorem sqPut_cntGet (s : State) (q : Nat) (x : Sq) (kk : Nat) : cntGet (Machine.sqPut s q x) kk = cntGet s kk := rfl
@[simp] theorem sqPut_chGet (s : State) (q : Nat) (x : Sq) (kk : Nat) : chGet (Machine.sqPut s q x) kk = chGet s kk := rfl
@[simp] theorem sqPut_macGet (s : State) (q : Nat) (x : Sq) (kk : Nat) : macGet (Machine.sqPut s q x) kk = macGet s kk := rfl
@[simp] theorem sqPut_linkGet (s : State) (q : Nat) (x : Sq) (kk : Nat) : linkGet (Machine.sqPut s q x) kk = linkGet s kk := rfl
@[simp] theorem sqPut_dirGet (s : State) (q : Nat) (x : Sq) (kk : Nat) : dirGet (Machine.sqPut s q x) kk = dirGet s kk := rfl
@[simp] theorem sqPut_slotGet (s : State) (q : Nat) (x : Sq) (kk : Nat) : slotGet (Machine.sqPut s q x) kk = slotGet s kk := rfl
@[simp] theorem sqPut_bwGet (s : State) (q : Nat) (x : Sq) (kk : Nat) : bwGet (Machine.sqPut s q x) kk = bwGet s kk := rfl
@[simp] theorem sqPut_smpGet (s : State) (q : Nat) (x : Sq) (kk : Nat) : smpGet (Machine.sqPut s q x) kk = smpGet s kk := rfl
@[simp] theorem sqPut_dtOf (s : State) (q : Nat) (x : Sq) : dtOf (Machine.sqPut s q x) = dtOf s := rfl
@[simp] theorem cqPut_regs (s : State) (q : Nat) (x : Cq) : (Machine.cqPut s q x).regs = s.regs := rfl
@[simp] theorem cqPut_glob (s : State) (q : Nat) (x : Cq) : (Machine.cqPut s q x).glob = s.glob := rfl
@[simp] theorem cqPut_pins (s : State) (q : Nat) (x : Cq) : (Machine.cqPut s q x).pins = s.pins := rfl
@[simp] theorem cqPut_funcs (s : State) (q : Nat) (x : Cq) : (Machine.cqPut s q x).funcs = s.funcs := rfl
@[simp] theorem cqPut_log (s : State) (q : Nat) (x : Cq) : (Machine.cqPut s q x).log = s.log := rfl
@[simp] theorem cqPut_cnt (s : State) (q : Nat) (x : Cq) : (Machine.cqPut s q x).cnt = s.cnt := rfl
@[simp] theorem cqPut_flt (s : State) (q : Nat) (x : Cq) : (Machine.cqPut s q x).flt = s.flt := rfl
@[simp] theorem cqPut_recs (s : State) (q : Nat) (x : Cq) : (Machine.cqPut s q x).recs = s.recs := rfl
@[simp] theorem cqPut_upd (s : State) (q : Nat) (x : Cq) : (Machine.cqPut s q x).upd = s.upd := rfl
@[simp] theorem cqPut_boot (s : State) (q : Nat) (x : Cq) : (Machine.cqPut s q x).boot = s.boot := rfl
@[simp] theorem cqPut_time (s : State) (q : Nat) (x : Cq) : (Machine.cqPut s q x).time = s.time := rfl
@[simp] theorem cqPut_harn (s : State) (q : Nat) (x : Cq) : (Machine.cqPut s q x).harn = s.harn := rfl
@[simp] theorem cqPut_rp (s : State) (q : Nat) (x : Cq) : (Machine.cqPut s q x).rp = s.rp := rfl
@[simp] theorem cqPut_keys (s : State) (q : Nat) (x : Cq) : (Machine.cqPut s q x).keys = s.keys := rfl
@[simp] theorem cqPut_sealU (s : State) (q : Nat) (x : Cq) : (Machine.cqPut s q x).sealU = s.sealU := rfl
@[simp] theorem cqPut_ce (s : State) (q : Nat) (x : Cq) : (Machine.cqPut s q x).ce = s.ce := rfl
@[simp] theorem cqPut_bill (s : State) (q : Nat) (x : Cq) : (Machine.cqPut s q x).bill = s.bill := rfl
@[simp] theorem cqPut_chan (s : State) (q : Nat) (x : Cq) : (Machine.cqPut s q x).chan = s.chan := rfl
@[simp] theorem cqPut_cmd (s : State) (q : Nat) (x : Cq) : (Machine.cqPut s q x).cmd = s.cmd := rfl
@[simp] theorem cqPut_air (s : State) (q : Nat) (x : Cq) : (Machine.cqPut s q x).air = s.air := rfl
@[simp] theorem cqPut_store (s : State) (q : Nat) (x : Cq) : (Machine.cqPut s q x).store = s.store := rfl
@[simp] theorem cqPut_met (s : State) (q : Nat) (x : Cq) : (Machine.cqPut s q x).met = s.met := rfl
@[simp] theorem cqPut_hostMem (s : State) (q : Nat) (x : Cq) : (Machine.cqPut s q x).hostMem = s.hostMem := rfl
@[simp] theorem cqPut_wire (s : State) (q : Nat) (x : Cq) : (Machine.cqPut s q x).wire = s.wire := rfl
@[simp] theorem cqPut_tcxo (s : State) (q : Nat) (x : Cq) : (Machine.cqPut s q x).tcxo = s.tcxo := rfl
@[simp] theorem cqPut_free (s : State) (q : Nat) (x : Cq) : (Machine.cqPut s q x).free = s.free := rfl
@[simp] theorem cqPut_pending (s : State) (q : Nat) (x : Cq) : (Machine.cqPut s q x).pending = s.pending := rfl
@[simp] theorem cqPut_host_sq (s : State) (q : Nat) (x : Cq) : (Machine.cqPut s q x).host.sq = s.host.sq := rfl
@[simp] theorem cqPut_host_rr (s : State) (q : Nat) (x : Cq) : (Machine.cqPut s q x).host.rr = s.host.rr := rfl
@[simp] theorem cqPut_host_flights (s : State) (q : Nat) (x : Cq) : (Machine.cqPut s q x).host.flights = s.host.flights := rfl
@[simp] theorem cqPut_host_pushBuf (s : State) (q : Nat) (x : Cq) : (Machine.cqPut s q x).host.pushBuf = s.host.pushBuf := rfl
@[simp] theorem cqPut_host_admQ (s : State) (q : Nat) (x : Cq) : (Machine.cqPut s q x).host.admQ = s.host.admQ := rfl
@[simp] theorem cqPut_host_jrnl (s : State) (q : Nat) (x : Cq) : (Machine.cqPut s q x).host.jrnl = s.host.jrnl := rfl
@[simp] theorem cqPut_host_deliv (s : State) (q : Nat) (x : Cq) : (Machine.cqPut s q x).host.deliv = s.host.deliv := rfl
@[simp] theorem cqPut_host_peak (s : State) (q : Nat) (x : Cq) : (Machine.cqPut s q x).host.peak = s.host.peak := rfl
@[simp] theorem cqPut_host_dbDrop (s : State) (q : Nat) (x : Cq) : (Machine.cqPut s q x).host.dbDrop = s.host.dbDrop := rfl
@[simp] theorem cqPut_host_pushDrop (s : State) (q : Nat) (x : Cq) : (Machine.cqPut s q x).host.pushDrop = s.host.pushDrop := rfl
@[simp] theorem cqPut_host_pushOvf (s : State) (q : Nat) (x : Cq) : (Machine.cqPut s q x).host.pushOvf = s.host.pushOvf := rfl
@[simp] theorem cqPut_host_unsolCnt (s : State) (q : Nat) (x : Cq) : (Machine.cqPut s q x).host.unsolCnt = s.host.unsolCnt := rfl
@[simp] theorem cqPut_host_msixMask (s : State) (q : Nat) (x : Cq) : (Machine.cqPut s q x).host.msixMask = s.host.msixMask := rfl
@[simp] theorem cqPut_host_msixPend (s : State) (q : Nat) (x : Cq) : (Machine.cqPut s q x).host.msixPend = s.host.msixPend := rfl
@[simp] theorem cqPut_host_uidNext (s : State) (q : Nat) (x : Cq) : (Machine.cqPut s q x).host.uidNext = s.host.uidNext := rfl
@[simp] theorem cqPut_host_delivNext (s : State) (q : Nat) (x : Cq) : (Machine.cqPut s q x).host.delivNext = s.host.delivNext := rfl
@[simp] theorem cqPut_host_lastRead (s : State) (q : Nat) (x : Cq) : (Machine.cqPut s q x).host.lastRead = s.host.lastRead := rfl
@[simp] theorem cqPut_host_linkDown (s : State) (q : Nat) (x : Cq) : (Machine.cqPut s q x).host.linkDown = s.host.linkDown := rfl
@[simp] theorem cqPut_host_posted (s : State) (q : Nat) (x : Cq) : (Machine.cqPut s q x).host.posted = s.host.posted := rfl
@[simp] theorem cqPut_host_pcie (s : State) (q : Nat) (x : Cq) : (Machine.cqPut s q x).host.pcie = s.host.pcie := rfl
@[simp] theorem cqPut_regGet (s : State) (q : Nat) (x : Cq) (kk : Nat) : regGet (Machine.cqPut s q x) kk = regGet s kk := rfl
@[simp] theorem cqPut_sqGet (s : State) (q : Nat) (x : Cq) (kk : Nat) : sqGet (Machine.cqPut s q x) kk = sqGet s kk := rfl
@[simp] theorem cqPut_rrGet (s : State) (q : Nat) (x : Cq) (kk : Nat) : rrGet (Machine.cqPut s q x) kk = rrGet s kk := rfl
@[simp] theorem cqPut_fnGet (s : State) (q : Nat) (x : Cq) (kk : Nat) : fnGet (Machine.cqPut s q x) kk = fnGet s kk := rfl
@[simp] theorem cqPut_recGet (s : State) (q : Nat) (x : Cq) (kk : Nat) : recGet (Machine.cqPut s q x) kk = recGet s kk := rfl
@[simp] theorem cqPut_pinGet (s : State) (q : Nat) (x : Cq) (kk : Nat) : pinGet (Machine.cqPut s q x) kk = pinGet s kk := rfl
@[simp] theorem cqPut_cntGet (s : State) (q : Nat) (x : Cq) (kk : Nat) : cntGet (Machine.cqPut s q x) kk = cntGet s kk := rfl
@[simp] theorem cqPut_chGet (s : State) (q : Nat) (x : Cq) (kk : Nat) : chGet (Machine.cqPut s q x) kk = chGet s kk := rfl
@[simp] theorem cqPut_macGet (s : State) (q : Nat) (x : Cq) (kk : Nat) : macGet (Machine.cqPut s q x) kk = macGet s kk := rfl
@[simp] theorem cqPut_linkGet (s : State) (q : Nat) (x : Cq) (kk : Nat) : linkGet (Machine.cqPut s q x) kk = linkGet s kk := rfl
@[simp] theorem cqPut_dirGet (s : State) (q : Nat) (x : Cq) (kk : Nat) : dirGet (Machine.cqPut s q x) kk = dirGet s kk := rfl
@[simp] theorem cqPut_slotGet (s : State) (q : Nat) (x : Cq) (kk : Nat) : slotGet (Machine.cqPut s q x) kk = slotGet s kk := rfl
@[simp] theorem cqPut_bwGet (s : State) (q : Nat) (x : Cq) (kk : Nat) : bwGet (Machine.cqPut s q x) kk = bwGet s kk := rfl
@[simp] theorem cqPut_smpGet (s : State) (q : Nat) (x : Cq) (kk : Nat) : smpGet (Machine.cqPut s q x) kk = smpGet s kk := rfl
@[simp] theorem cqPut_dtOf (s : State) (q : Nat) (x : Cq) : dtOf (Machine.cqPut s q x) = dtOf s := rfl
@[simp] theorem rrPut_regs (s : State) (q : Nat) (x : Rr) : (Machine.rrPut s q x).regs = s.regs := rfl
@[simp] theorem rrPut_glob (s : State) (q : Nat) (x : Rr) : (Machine.rrPut s q x).glob = s.glob := rfl
@[simp] theorem rrPut_pins (s : State) (q : Nat) (x : Rr) : (Machine.rrPut s q x).pins = s.pins := rfl
@[simp] theorem rrPut_funcs (s : State) (q : Nat) (x : Rr) : (Machine.rrPut s q x).funcs = s.funcs := rfl
@[simp] theorem rrPut_log (s : State) (q : Nat) (x : Rr) : (Machine.rrPut s q x).log = s.log := rfl
@[simp] theorem rrPut_cnt (s : State) (q : Nat) (x : Rr) : (Machine.rrPut s q x).cnt = s.cnt := rfl
@[simp] theorem rrPut_flt (s : State) (q : Nat) (x : Rr) : (Machine.rrPut s q x).flt = s.flt := rfl
@[simp] theorem rrPut_recs (s : State) (q : Nat) (x : Rr) : (Machine.rrPut s q x).recs = s.recs := rfl
@[simp] theorem rrPut_upd (s : State) (q : Nat) (x : Rr) : (Machine.rrPut s q x).upd = s.upd := rfl
@[simp] theorem rrPut_boot (s : State) (q : Nat) (x : Rr) : (Machine.rrPut s q x).boot = s.boot := rfl
@[simp] theorem rrPut_time (s : State) (q : Nat) (x : Rr) : (Machine.rrPut s q x).time = s.time := rfl
@[simp] theorem rrPut_harn (s : State) (q : Nat) (x : Rr) : (Machine.rrPut s q x).harn = s.harn := rfl
@[simp] theorem rrPut_rp (s : State) (q : Nat) (x : Rr) : (Machine.rrPut s q x).rp = s.rp := rfl
@[simp] theorem rrPut_keys (s : State) (q : Nat) (x : Rr) : (Machine.rrPut s q x).keys = s.keys := rfl
@[simp] theorem rrPut_sealU (s : State) (q : Nat) (x : Rr) : (Machine.rrPut s q x).sealU = s.sealU := rfl
@[simp] theorem rrPut_ce (s : State) (q : Nat) (x : Rr) : (Machine.rrPut s q x).ce = s.ce := rfl
@[simp] theorem rrPut_bill (s : State) (q : Nat) (x : Rr) : (Machine.rrPut s q x).bill = s.bill := rfl
@[simp] theorem rrPut_chan (s : State) (q : Nat) (x : Rr) : (Machine.rrPut s q x).chan = s.chan := rfl
@[simp] theorem rrPut_cmd (s : State) (q : Nat) (x : Rr) : (Machine.rrPut s q x).cmd = s.cmd := rfl
@[simp] theorem rrPut_air (s : State) (q : Nat) (x : Rr) : (Machine.rrPut s q x).air = s.air := rfl
@[simp] theorem rrPut_store (s : State) (q : Nat) (x : Rr) : (Machine.rrPut s q x).store = s.store := rfl
@[simp] theorem rrPut_met (s : State) (q : Nat) (x : Rr) : (Machine.rrPut s q x).met = s.met := rfl
@[simp] theorem rrPut_hostMem (s : State) (q : Nat) (x : Rr) : (Machine.rrPut s q x).hostMem = s.hostMem := rfl
@[simp] theorem rrPut_wire (s : State) (q : Nat) (x : Rr) : (Machine.rrPut s q x).wire = s.wire := rfl
@[simp] theorem rrPut_tcxo (s : State) (q : Nat) (x : Rr) : (Machine.rrPut s q x).tcxo = s.tcxo := rfl
@[simp] theorem rrPut_free (s : State) (q : Nat) (x : Rr) : (Machine.rrPut s q x).free = s.free := rfl
@[simp] theorem rrPut_pending (s : State) (q : Nat) (x : Rr) : (Machine.rrPut s q x).pending = s.pending := rfl
@[simp] theorem rrPut_host_sq (s : State) (q : Nat) (x : Rr) : (Machine.rrPut s q x).host.sq = s.host.sq := rfl
@[simp] theorem rrPut_host_cq (s : State) (q : Nat) (x : Rr) : (Machine.rrPut s q x).host.cq = s.host.cq := rfl
@[simp] theorem rrPut_host_flights (s : State) (q : Nat) (x : Rr) : (Machine.rrPut s q x).host.flights = s.host.flights := rfl
@[simp] theorem rrPut_host_pushBuf (s : State) (q : Nat) (x : Rr) : (Machine.rrPut s q x).host.pushBuf = s.host.pushBuf := rfl
@[simp] theorem rrPut_host_admQ (s : State) (q : Nat) (x : Rr) : (Machine.rrPut s q x).host.admQ = s.host.admQ := rfl
@[simp] theorem rrPut_host_jrnl (s : State) (q : Nat) (x : Rr) : (Machine.rrPut s q x).host.jrnl = s.host.jrnl := rfl
@[simp] theorem rrPut_host_deliv (s : State) (q : Nat) (x : Rr) : (Machine.rrPut s q x).host.deliv = s.host.deliv := rfl
@[simp] theorem rrPut_host_peak (s : State) (q : Nat) (x : Rr) : (Machine.rrPut s q x).host.peak = s.host.peak := rfl
@[simp] theorem rrPut_host_dbDrop (s : State) (q : Nat) (x : Rr) : (Machine.rrPut s q x).host.dbDrop = s.host.dbDrop := rfl
@[simp] theorem rrPut_host_pushDrop (s : State) (q : Nat) (x : Rr) : (Machine.rrPut s q x).host.pushDrop = s.host.pushDrop := rfl
@[simp] theorem rrPut_host_pushOvf (s : State) (q : Nat) (x : Rr) : (Machine.rrPut s q x).host.pushOvf = s.host.pushOvf := rfl
@[simp] theorem rrPut_host_unsolCnt (s : State) (q : Nat) (x : Rr) : (Machine.rrPut s q x).host.unsolCnt = s.host.unsolCnt := rfl
@[simp] theorem rrPut_host_msixMask (s : State) (q : Nat) (x : Rr) : (Machine.rrPut s q x).host.msixMask = s.host.msixMask := rfl
@[simp] theorem rrPut_host_msixPend (s : State) (q : Nat) (x : Rr) : (Machine.rrPut s q x).host.msixPend = s.host.msixPend := rfl
@[simp] theorem rrPut_host_uidNext (s : State) (q : Nat) (x : Rr) : (Machine.rrPut s q x).host.uidNext = s.host.uidNext := rfl
@[simp] theorem rrPut_host_delivNext (s : State) (q : Nat) (x : Rr) : (Machine.rrPut s q x).host.delivNext = s.host.delivNext := rfl
@[simp] theorem rrPut_host_lastRead (s : State) (q : Nat) (x : Rr) : (Machine.rrPut s q x).host.lastRead = s.host.lastRead := rfl
@[simp] theorem rrPut_host_linkDown (s : State) (q : Nat) (x : Rr) : (Machine.rrPut s q x).host.linkDown = s.host.linkDown := rfl
@[simp] theorem rrPut_host_posted (s : State) (q : Nat) (x : Rr) : (Machine.rrPut s q x).host.posted = s.host.posted := rfl
@[simp] theorem rrPut_host_pcie (s : State) (q : Nat) (x : Rr) : (Machine.rrPut s q x).host.pcie = s.host.pcie := rfl
@[simp] theorem rrPut_regGet (s : State) (q : Nat) (x : Rr) (kk : Nat) : regGet (Machine.rrPut s q x) kk = regGet s kk := rfl
@[simp] theorem rrPut_sqGet (s : State) (q : Nat) (x : Rr) (kk : Nat) : sqGet (Machine.rrPut s q x) kk = sqGet s kk := rfl
@[simp] theorem rrPut_cqGet (s : State) (q : Nat) (x : Rr) (kk : Nat) : cqGet (Machine.rrPut s q x) kk = cqGet s kk := rfl
@[simp] theorem rrPut_fnGet (s : State) (q : Nat) (x : Rr) (kk : Nat) : fnGet (Machine.rrPut s q x) kk = fnGet s kk := rfl
@[simp] theorem rrPut_recGet (s : State) (q : Nat) (x : Rr) (kk : Nat) : recGet (Machine.rrPut s q x) kk = recGet s kk := rfl
@[simp] theorem rrPut_pinGet (s : State) (q : Nat) (x : Rr) (kk : Nat) : pinGet (Machine.rrPut s q x) kk = pinGet s kk := rfl
@[simp] theorem rrPut_cntGet (s : State) (q : Nat) (x : Rr) (kk : Nat) : cntGet (Machine.rrPut s q x) kk = cntGet s kk := rfl
@[simp] theorem rrPut_chGet (s : State) (q : Nat) (x : Rr) (kk : Nat) : chGet (Machine.rrPut s q x) kk = chGet s kk := rfl
@[simp] theorem rrPut_macGet (s : State) (q : Nat) (x : Rr) (kk : Nat) : macGet (Machine.rrPut s q x) kk = macGet s kk := rfl
@[simp] theorem rrPut_linkGet (s : State) (q : Nat) (x : Rr) (kk : Nat) : linkGet (Machine.rrPut s q x) kk = linkGet s kk := rfl
@[simp] theorem rrPut_dirGet (s : State) (q : Nat) (x : Rr) (kk : Nat) : dirGet (Machine.rrPut s q x) kk = dirGet s kk := rfl
@[simp] theorem rrPut_slotGet (s : State) (q : Nat) (x : Rr) (kk : Nat) : slotGet (Machine.rrPut s q x) kk = slotGet s kk := rfl
@[simp] theorem rrPut_bwGet (s : State) (q : Nat) (x : Rr) (kk : Nat) : bwGet (Machine.rrPut s q x) kk = bwGet s kk := rfl
@[simp] theorem rrPut_smpGet (s : State) (q : Nat) (x : Rr) (kk : Nat) : smpGet (Machine.rrPut s q x) kk = smpGet s kk := rfl
@[simp] theorem rrPut_dtOf (s : State) (q : Nat) (x : Rr) : dtOf (Machine.rrPut s q x) = dtOf s := rfl
@[simp] theorem flightPut_regs (s : State) (f : Flight) : (Machine.flightPut s f).regs = s.regs := rfl
@[simp] theorem flightPut_glob (s : State) (f : Flight) : (Machine.flightPut s f).glob = s.glob := rfl
@[simp] theorem flightPut_pins (s : State) (f : Flight) : (Machine.flightPut s f).pins = s.pins := rfl
@[simp] theorem flightPut_funcs (s : State) (f : Flight) : (Machine.flightPut s f).funcs = s.funcs := rfl
@[simp] theorem flightPut_log (s : State) (f : Flight) : (Machine.flightPut s f).log = s.log := rfl
@[simp] theorem flightPut_cnt (s : State) (f : Flight) : (Machine.flightPut s f).cnt = s.cnt := rfl
@[simp] theorem flightPut_flt (s : State) (f : Flight) : (Machine.flightPut s f).flt = s.flt := rfl
@[simp] theorem flightPut_recs (s : State) (f : Flight) : (Machine.flightPut s f).recs = s.recs := rfl
@[simp] theorem flightPut_upd (s : State) (f : Flight) : (Machine.flightPut s f).upd = s.upd := rfl
@[simp] theorem flightPut_boot (s : State) (f : Flight) : (Machine.flightPut s f).boot = s.boot := rfl
@[simp] theorem flightPut_time (s : State) (f : Flight) : (Machine.flightPut s f).time = s.time := rfl
@[simp] theorem flightPut_harn (s : State) (f : Flight) : (Machine.flightPut s f).harn = s.harn := rfl
@[simp] theorem flightPut_rp (s : State) (f : Flight) : (Machine.flightPut s f).rp = s.rp := rfl
@[simp] theorem flightPut_keys (s : State) (f : Flight) : (Machine.flightPut s f).keys = s.keys := rfl
@[simp] theorem flightPut_sealU (s : State) (f : Flight) : (Machine.flightPut s f).sealU = s.sealU := rfl
@[simp] theorem flightPut_ce (s : State) (f : Flight) : (Machine.flightPut s f).ce = s.ce := rfl
@[simp] theorem flightPut_bill (s : State) (f : Flight) : (Machine.flightPut s f).bill = s.bill := rfl
@[simp] theorem flightPut_chan (s : State) (f : Flight) : (Machine.flightPut s f).chan = s.chan := rfl
@[simp] theorem flightPut_cmd (s : State) (f : Flight) : (Machine.flightPut s f).cmd = s.cmd := rfl
@[simp] theorem flightPut_air (s : State) (f : Flight) : (Machine.flightPut s f).air = s.air := rfl
@[simp] theorem flightPut_store (s : State) (f : Flight) : (Machine.flightPut s f).store = s.store := rfl
@[simp] theorem flightPut_met (s : State) (f : Flight) : (Machine.flightPut s f).met = s.met := rfl
@[simp] theorem flightPut_hostMem (s : State) (f : Flight) : (Machine.flightPut s f).hostMem = s.hostMem := rfl
@[simp] theorem flightPut_wire (s : State) (f : Flight) : (Machine.flightPut s f).wire = s.wire := rfl
@[simp] theorem flightPut_tcxo (s : State) (f : Flight) : (Machine.flightPut s f).tcxo = s.tcxo := rfl
@[simp] theorem flightPut_free (s : State) (f : Flight) : (Machine.flightPut s f).free = s.free := rfl
@[simp] theorem flightPut_pending (s : State) (f : Flight) : (Machine.flightPut s f).pending = s.pending := rfl
@[simp] theorem flightPut_host_sq (s : State) (f : Flight) : (Machine.flightPut s f).host.sq = s.host.sq := rfl
@[simp] theorem flightPut_host_cq (s : State) (f : Flight) : (Machine.flightPut s f).host.cq = s.host.cq := rfl
@[simp] theorem flightPut_host_rr (s : State) (f : Flight) : (Machine.flightPut s f).host.rr = s.host.rr := rfl
@[simp] theorem flightPut_host_pushBuf (s : State) (f : Flight) : (Machine.flightPut s f).host.pushBuf = s.host.pushBuf := rfl
@[simp] theorem flightPut_host_admQ (s : State) (f : Flight) : (Machine.flightPut s f).host.admQ = s.host.admQ := rfl
@[simp] theorem flightPut_host_jrnl (s : State) (f : Flight) : (Machine.flightPut s f).host.jrnl = s.host.jrnl := rfl
@[simp] theorem flightPut_host_deliv (s : State) (f : Flight) : (Machine.flightPut s f).host.deliv = s.host.deliv := rfl
@[simp] theorem flightPut_host_peak (s : State) (f : Flight) : (Machine.flightPut s f).host.peak = s.host.peak := rfl
@[simp] theorem flightPut_host_dbDrop (s : State) (f : Flight) : (Machine.flightPut s f).host.dbDrop = s.host.dbDrop := rfl
@[simp] theorem flightPut_host_pushDrop (s : State) (f : Flight) : (Machine.flightPut s f).host.pushDrop = s.host.pushDrop := rfl
@[simp] theorem flightPut_host_pushOvf (s : State) (f : Flight) : (Machine.flightPut s f).host.pushOvf = s.host.pushOvf := rfl
@[simp] theorem flightPut_host_unsolCnt (s : State) (f : Flight) : (Machine.flightPut s f).host.unsolCnt = s.host.unsolCnt := rfl
@[simp] theorem flightPut_host_msixMask (s : State) (f : Flight) : (Machine.flightPut s f).host.msixMask = s.host.msixMask := rfl
@[simp] theorem flightPut_host_msixPend (s : State) (f : Flight) : (Machine.flightPut s f).host.msixPend = s.host.msixPend := rfl
@[simp] theorem flightPut_host_uidNext (s : State) (f : Flight) : (Machine.flightPut s f).host.uidNext = s.host.uidNext := rfl
@[simp] theorem flightPut_host_delivNext (s : State) (f : Flight) : (Machine.flightPut s f).host.delivNext = s.host.delivNext := rfl
@[simp] theorem flightPut_host_lastRead (s : State) (f : Flight) : (Machine.flightPut s f).host.lastRead = s.host.lastRead := rfl
@[simp] theorem flightPut_host_linkDown (s : State) (f : Flight) : (Machine.flightPut s f).host.linkDown = s.host.linkDown := rfl
@[simp] theorem flightPut_host_posted (s : State) (f : Flight) : (Machine.flightPut s f).host.posted = s.host.posted := rfl
@[simp] theorem flightPut_host_pcie (s : State) (f : Flight) : (Machine.flightPut s f).host.pcie = s.host.pcie := rfl
@[simp] theorem flightPut_regGet (s : State) (f : Flight) (kk : Nat) : regGet (Machine.flightPut s f) kk = regGet s kk := rfl
@[simp] theorem flightPut_sqGet (s : State) (f : Flight) (kk : Nat) : sqGet (Machine.flightPut s f) kk = sqGet s kk := rfl
@[simp] theorem flightPut_cqGet (s : State) (f : Flight) (kk : Nat) : cqGet (Machine.flightPut s f) kk = cqGet s kk := rfl
@[simp] theorem flightPut_rrGet (s : State) (f : Flight) (kk : Nat) : rrGet (Machine.flightPut s f) kk = rrGet s kk := rfl
@[simp] theorem flightPut_fnGet (s : State) (f : Flight) (kk : Nat) : fnGet (Machine.flightPut s f) kk = fnGet s kk := rfl
@[simp] theorem flightPut_recGet (s : State) (f : Flight) (kk : Nat) : recGet (Machine.flightPut s f) kk = recGet s kk := rfl
@[simp] theorem flightPut_pinGet (s : State) (f : Flight) (kk : Nat) : pinGet (Machine.flightPut s f) kk = pinGet s kk := rfl
@[simp] theorem flightPut_cntGet (s : State) (f : Flight) (kk : Nat) : cntGet (Machine.flightPut s f) kk = cntGet s kk := rfl
@[simp] theorem flightPut_chGet (s : State) (f : Flight) (kk : Nat) : chGet (Machine.flightPut s f) kk = chGet s kk := rfl
@[simp] theorem flightPut_macGet (s : State) (f : Flight) (kk : Nat) : macGet (Machine.flightPut s f) kk = macGet s kk := rfl
@[simp] theorem flightPut_linkGet (s : State) (f : Flight) (kk : Nat) : linkGet (Machine.flightPut s f) kk = linkGet s kk := rfl
@[simp] theorem flightPut_dirGet (s : State) (f : Flight) (kk : Nat) : dirGet (Machine.flightPut s f) kk = dirGet s kk := rfl
@[simp] theorem flightPut_slotGet (s : State) (f : Flight) (kk : Nat) : slotGet (Machine.flightPut s f) kk = slotGet s kk := rfl
@[simp] theorem flightPut_bwGet (s : State) (f : Flight) (kk : Nat) : bwGet (Machine.flightPut s f) kk = bwGet s kk := rfl
@[simp] theorem flightPut_smpGet (s : State) (f : Flight) (kk : Nat) : smpGet (Machine.flightPut s f) kk = smpGet s kk := rfl
@[simp] theorem flightPut_dtOf (s : State) (f : Flight) : dtOf (Machine.flightPut s f) = dtOf s := rfl
@[simp] theorem flightDrop_regs (s : State) (u : Nat) : (Machine.flightDrop s u).regs = s.regs := rfl
@[simp] theorem flightDrop_glob (s : State) (u : Nat) : (Machine.flightDrop s u).glob = s.glob := rfl
@[simp] theorem flightDrop_pins (s : State) (u : Nat) : (Machine.flightDrop s u).pins = s.pins := rfl
@[simp] theorem flightDrop_funcs (s : State) (u : Nat) : (Machine.flightDrop s u).funcs = s.funcs := rfl
@[simp] theorem flightDrop_log (s : State) (u : Nat) : (Machine.flightDrop s u).log = s.log := rfl
@[simp] theorem flightDrop_cnt (s : State) (u : Nat) : (Machine.flightDrop s u).cnt = s.cnt := rfl
@[simp] theorem flightDrop_flt (s : State) (u : Nat) : (Machine.flightDrop s u).flt = s.flt := rfl
@[simp] theorem flightDrop_recs (s : State) (u : Nat) : (Machine.flightDrop s u).recs = s.recs := rfl
@[simp] theorem flightDrop_upd (s : State) (u : Nat) : (Machine.flightDrop s u).upd = s.upd := rfl
@[simp] theorem flightDrop_boot (s : State) (u : Nat) : (Machine.flightDrop s u).boot = s.boot := rfl
@[simp] theorem flightDrop_time (s : State) (u : Nat) : (Machine.flightDrop s u).time = s.time := rfl
@[simp] theorem flightDrop_harn (s : State) (u : Nat) : (Machine.flightDrop s u).harn = s.harn := rfl
@[simp] theorem flightDrop_rp (s : State) (u : Nat) : (Machine.flightDrop s u).rp = s.rp := rfl
@[simp] theorem flightDrop_keys (s : State) (u : Nat) : (Machine.flightDrop s u).keys = s.keys := rfl
@[simp] theorem flightDrop_sealU (s : State) (u : Nat) : (Machine.flightDrop s u).sealU = s.sealU := rfl
@[simp] theorem flightDrop_ce (s : State) (u : Nat) : (Machine.flightDrop s u).ce = s.ce := rfl
@[simp] theorem flightDrop_bill (s : State) (u : Nat) : (Machine.flightDrop s u).bill = s.bill := rfl
@[simp] theorem flightDrop_chan (s : State) (u : Nat) : (Machine.flightDrop s u).chan = s.chan := rfl
@[simp] theorem flightDrop_cmd (s : State) (u : Nat) : (Machine.flightDrop s u).cmd = s.cmd := rfl
@[simp] theorem flightDrop_air (s : State) (u : Nat) : (Machine.flightDrop s u).air = s.air := rfl
@[simp] theorem flightDrop_store (s : State) (u : Nat) : (Machine.flightDrop s u).store = s.store := rfl
@[simp] theorem flightDrop_met (s : State) (u : Nat) : (Machine.flightDrop s u).met = s.met := rfl
@[simp] theorem flightDrop_hostMem (s : State) (u : Nat) : (Machine.flightDrop s u).hostMem = s.hostMem := rfl
@[simp] theorem flightDrop_wire (s : State) (u : Nat) : (Machine.flightDrop s u).wire = s.wire := rfl
@[simp] theorem flightDrop_tcxo (s : State) (u : Nat) : (Machine.flightDrop s u).tcxo = s.tcxo := rfl
@[simp] theorem flightDrop_free (s : State) (u : Nat) : (Machine.flightDrop s u).free = s.free := rfl
@[simp] theorem flightDrop_pending (s : State) (u : Nat) : (Machine.flightDrop s u).pending = s.pending := rfl
@[simp] theorem flightDrop_host_sq (s : State) (u : Nat) : (Machine.flightDrop s u).host.sq = s.host.sq := rfl
@[simp] theorem flightDrop_host_cq (s : State) (u : Nat) : (Machine.flightDrop s u).host.cq = s.host.cq := rfl
@[simp] theorem flightDrop_host_rr (s : State) (u : Nat) : (Machine.flightDrop s u).host.rr = s.host.rr := rfl
@[simp] theorem flightDrop_host_pushBuf (s : State) (u : Nat) : (Machine.flightDrop s u).host.pushBuf = s.host.pushBuf := rfl
@[simp] theorem flightDrop_host_admQ (s : State) (u : Nat) : (Machine.flightDrop s u).host.admQ = s.host.admQ := rfl
@[simp] theorem flightDrop_host_jrnl (s : State) (u : Nat) : (Machine.flightDrop s u).host.jrnl = s.host.jrnl := rfl
@[simp] theorem flightDrop_host_deliv (s : State) (u : Nat) : (Machine.flightDrop s u).host.deliv = s.host.deliv := rfl
@[simp] theorem flightDrop_host_peak (s : State) (u : Nat) : (Machine.flightDrop s u).host.peak = s.host.peak := rfl
@[simp] theorem flightDrop_host_dbDrop (s : State) (u : Nat) : (Machine.flightDrop s u).host.dbDrop = s.host.dbDrop := rfl
@[simp] theorem flightDrop_host_pushDrop (s : State) (u : Nat) : (Machine.flightDrop s u).host.pushDrop = s.host.pushDrop := rfl
@[simp] theorem flightDrop_host_pushOvf (s : State) (u : Nat) : (Machine.flightDrop s u).host.pushOvf = s.host.pushOvf := rfl
@[simp] theorem flightDrop_host_unsolCnt (s : State) (u : Nat) : (Machine.flightDrop s u).host.unsolCnt = s.host.unsolCnt := rfl
@[simp] theorem flightDrop_host_msixMask (s : State) (u : Nat) : (Machine.flightDrop s u).host.msixMask = s.host.msixMask := rfl
@[simp] theorem flightDrop_host_msixPend (s : State) (u : Nat) : (Machine.flightDrop s u).host.msixPend = s.host.msixPend := rfl
@[simp] theorem flightDrop_host_uidNext (s : State) (u : Nat) : (Machine.flightDrop s u).host.uidNext = s.host.uidNext := rfl
@[simp] theorem flightDrop_host_delivNext (s : State) (u : Nat) : (Machine.flightDrop s u).host.delivNext = s.host.delivNext := rfl
@[simp] theorem flightDrop_host_lastRead (s : State) (u : Nat) : (Machine.flightDrop s u).host.lastRead = s.host.lastRead := rfl
@[simp] theorem flightDrop_host_linkDown (s : State) (u : Nat) : (Machine.flightDrop s u).host.linkDown = s.host.linkDown := rfl
@[simp] theorem flightDrop_host_posted (s : State) (u : Nat) : (Machine.flightDrop s u).host.posted = s.host.posted := rfl
@[simp] theorem flightDrop_host_pcie (s : State) (u : Nat) : (Machine.flightDrop s u).host.pcie = s.host.pcie := rfl
@[simp] theorem flightDrop_regGet (s : State) (u : Nat) (kk : Nat) : regGet (Machine.flightDrop s u) kk = regGet s kk := rfl
@[simp] theorem flightDrop_sqGet (s : State) (u : Nat) (kk : Nat) : sqGet (Machine.flightDrop s u) kk = sqGet s kk := rfl
@[simp] theorem flightDrop_cqGet (s : State) (u : Nat) (kk : Nat) : cqGet (Machine.flightDrop s u) kk = cqGet s kk := rfl
@[simp] theorem flightDrop_rrGet (s : State) (u : Nat) (kk : Nat) : rrGet (Machine.flightDrop s u) kk = rrGet s kk := rfl
@[simp] theorem flightDrop_fnGet (s : State) (u : Nat) (kk : Nat) : fnGet (Machine.flightDrop s u) kk = fnGet s kk := rfl
@[simp] theorem flightDrop_recGet (s : State) (u : Nat) (kk : Nat) : recGet (Machine.flightDrop s u) kk = recGet s kk := rfl
@[simp] theorem flightDrop_pinGet (s : State) (u : Nat) (kk : Nat) : pinGet (Machine.flightDrop s u) kk = pinGet s kk := rfl
@[simp] theorem flightDrop_cntGet (s : State) (u : Nat) (kk : Nat) : cntGet (Machine.flightDrop s u) kk = cntGet s kk := rfl
@[simp] theorem flightDrop_chGet (s : State) (u : Nat) (kk : Nat) : chGet (Machine.flightDrop s u) kk = chGet s kk := rfl
@[simp] theorem flightDrop_macGet (s : State) (u : Nat) (kk : Nat) : macGet (Machine.flightDrop s u) kk = macGet s kk := rfl
@[simp] theorem flightDrop_linkGet (s : State) (u : Nat) (kk : Nat) : linkGet (Machine.flightDrop s u) kk = linkGet s kk := rfl
@[simp] theorem flightDrop_dirGet (s : State) (u : Nat) (kk : Nat) : dirGet (Machine.flightDrop s u) kk = dirGet s kk := rfl
@[simp] theorem flightDrop_slotGet (s : State) (u : Nat) (kk : Nat) : slotGet (Machine.flightDrop s u) kk = slotGet s kk := rfl
@[simp] theorem flightDrop_bwGet (s : State) (u : Nat) (kk : Nat) : bwGet (Machine.flightDrop s u) kk = bwGet s kk := rfl
@[simp] theorem flightDrop_smpGet (s : State) (u : Nat) (kk : Nat) : smpGet (Machine.flightDrop s u) kk = smpGet s kk := rfl
@[simp] theorem flightDrop_dtOf (s : State) (u : Nat) : dtOf (Machine.flightDrop s u) = dtOf s := rfl
@[simp] theorem cntPut_regs (s : State) (i : Nat) (v : BitVec 56) : (Machine.cntPut s i v).regs = s.regs := rfl
@[simp] theorem cntPut_glob (s : State) (i : Nat) (v : BitVec 56) : (Machine.cntPut s i v).glob = s.glob := rfl
@[simp] theorem cntPut_pins (s : State) (i : Nat) (v : BitVec 56) : (Machine.cntPut s i v).pins = s.pins := rfl
@[simp] theorem cntPut_funcs (s : State) (i : Nat) (v : BitVec 56) : (Machine.cntPut s i v).funcs = s.funcs := rfl
@[simp] theorem cntPut_host (s : State) (i : Nat) (v : BitVec 56) : (Machine.cntPut s i v).host = s.host := rfl
@[simp] theorem cntPut_log (s : State) (i : Nat) (v : BitVec 56) : (Machine.cntPut s i v).log = s.log := rfl
@[simp] theorem cntPut_flt (s : State) (i : Nat) (v : BitVec 56) : (Machine.cntPut s i v).flt = s.flt := rfl
@[simp] theorem cntPut_recs (s : State) (i : Nat) (v : BitVec 56) : (Machine.cntPut s i v).recs = s.recs := rfl
@[simp] theorem cntPut_upd (s : State) (i : Nat) (v : BitVec 56) : (Machine.cntPut s i v).upd = s.upd := rfl
@[simp] theorem cntPut_boot (s : State) (i : Nat) (v : BitVec 56) : (Machine.cntPut s i v).boot = s.boot := rfl
@[simp] theorem cntPut_time (s : State) (i : Nat) (v : BitVec 56) : (Machine.cntPut s i v).time = s.time := rfl
@[simp] theorem cntPut_harn (s : State) (i : Nat) (v : BitVec 56) : (Machine.cntPut s i v).harn = s.harn := rfl
@[simp] theorem cntPut_rp (s : State) (i : Nat) (v : BitVec 56) : (Machine.cntPut s i v).rp = s.rp := rfl
@[simp] theorem cntPut_keys (s : State) (i : Nat) (v : BitVec 56) : (Machine.cntPut s i v).keys = s.keys := rfl
@[simp] theorem cntPut_sealU (s : State) (i : Nat) (v : BitVec 56) : (Machine.cntPut s i v).sealU = s.sealU := rfl
@[simp] theorem cntPut_ce (s : State) (i : Nat) (v : BitVec 56) : (Machine.cntPut s i v).ce = s.ce := rfl
@[simp] theorem cntPut_bill (s : State) (i : Nat) (v : BitVec 56) : (Machine.cntPut s i v).bill = s.bill := rfl
@[simp] theorem cntPut_chan (s : State) (i : Nat) (v : BitVec 56) : (Machine.cntPut s i v).chan = s.chan := rfl
@[simp] theorem cntPut_cmd (s : State) (i : Nat) (v : BitVec 56) : (Machine.cntPut s i v).cmd = s.cmd := rfl
@[simp] theorem cntPut_air (s : State) (i : Nat) (v : BitVec 56) : (Machine.cntPut s i v).air = s.air := rfl
@[simp] theorem cntPut_store (s : State) (i : Nat) (v : BitVec 56) : (Machine.cntPut s i v).store = s.store := rfl
@[simp] theorem cntPut_met (s : State) (i : Nat) (v : BitVec 56) : (Machine.cntPut s i v).met = s.met := rfl
@[simp] theorem cntPut_hostMem (s : State) (i : Nat) (v : BitVec 56) : (Machine.cntPut s i v).hostMem = s.hostMem := rfl
@[simp] theorem cntPut_wire (s : State) (i : Nat) (v : BitVec 56) : (Machine.cntPut s i v).wire = s.wire := rfl
@[simp] theorem cntPut_tcxo (s : State) (i : Nat) (v : BitVec 56) : (Machine.cntPut s i v).tcxo = s.tcxo := rfl
@[simp] theorem cntPut_free (s : State) (i : Nat) (v : BitVec 56) : (Machine.cntPut s i v).free = s.free := rfl
@[simp] theorem cntPut_pending (s : State) (i : Nat) (v : BitVec 56) : (Machine.cntPut s i v).pending = s.pending := rfl
@[simp] theorem cntPut_cnt_latch (s : State) (i : Nat) (v : BitVec 56) : (Machine.cntPut s i v).cnt.latch = s.cnt.latch := rfl
@[simp] theorem cntPut_cnt_ltag (s : State) (i : Nat) (v : BitVec 56) : (Machine.cntPut s i v).cnt.ltag = s.cnt.ltag := rfl
@[simp] theorem cntPut_cnt_smp (s : State) (i : Nat) (v : BitVec 56) : (Machine.cntPut s i v).cnt.smp = s.cnt.smp := rfl
@[simp] theorem cntPut_cnt_bw (s : State) (i : Nat) (v : BitVec 56) : (Machine.cntPut s i v).cnt.bw = s.cnt.bw := rfl
@[simp] theorem cntPut_cnt_copy (s : State) (i : Nat) (v : BitVec 56) : (Machine.cntPut s i v).cnt.copy = s.cnt.copy := rfl
@[simp] theorem cntPut_cnt_bwStart (s : State) (i : Nat) (v : BitVec 56) : (Machine.cntPut s i v).cnt.bwStart = s.cnt.bwStart := rfl
@[simp] theorem cntPut_regGet (s : State) (i : Nat) (v : BitVec 56) (kk : Nat) : regGet (Machine.cntPut s i v) kk = regGet s kk := rfl
@[simp] theorem cntPut_sqGet (s : State) (i : Nat) (v : BitVec 56) (kk : Nat) : sqGet (Machine.cntPut s i v) kk = sqGet s kk := rfl
@[simp] theorem cntPut_cqGet (s : State) (i : Nat) (v : BitVec 56) (kk : Nat) : cqGet (Machine.cntPut s i v) kk = cqGet s kk := rfl
@[simp] theorem cntPut_rrGet (s : State) (i : Nat) (v : BitVec 56) (kk : Nat) : rrGet (Machine.cntPut s i v) kk = rrGet s kk := rfl
@[simp] theorem cntPut_fnGet (s : State) (i : Nat) (v : BitVec 56) (kk : Nat) : fnGet (Machine.cntPut s i v) kk = fnGet s kk := rfl
@[simp] theorem cntPut_recGet (s : State) (i : Nat) (v : BitVec 56) (kk : Nat) : recGet (Machine.cntPut s i v) kk = recGet s kk := rfl
@[simp] theorem cntPut_pinGet (s : State) (i : Nat) (v : BitVec 56) (kk : Nat) : pinGet (Machine.cntPut s i v) kk = pinGet s kk := rfl
@[simp] theorem cntPut_chGet (s : State) (i : Nat) (v : BitVec 56) (kk : Nat) : chGet (Machine.cntPut s i v) kk = chGet s kk := rfl
@[simp] theorem cntPut_macGet (s : State) (i : Nat) (v : BitVec 56) (kk : Nat) : macGet (Machine.cntPut s i v) kk = macGet s kk := rfl
@[simp] theorem cntPut_linkGet (s : State) (i : Nat) (v : BitVec 56) (kk : Nat) : linkGet (Machine.cntPut s i v) kk = linkGet s kk := rfl
@[simp] theorem cntPut_dirGet (s : State) (i : Nat) (v : BitVec 56) (kk : Nat) : dirGet (Machine.cntPut s i v) kk = dirGet s kk := rfl
@[simp] theorem cntPut_slotGet (s : State) (i : Nat) (v : BitVec 56) (kk : Nat) : slotGet (Machine.cntPut s i v) kk = slotGet s kk := rfl
@[simp] theorem cntPut_bwGet (s : State) (i : Nat) (v : BitVec 56) (kk : Nat) : bwGet (Machine.cntPut s i v) kk = bwGet s kk := rfl
@[simp] theorem cntPut_smpGet (s : State) (i : Nat) (v : BitVec 56) (kk : Nat) : smpGet (Machine.cntPut s i v) kk = smpGet s kk := rfl
@[simp] theorem cntPut_dtOf (s : State) (i : Nat) (v : BitVec 56) : dtOf (Machine.cntPut s i v) = dtOf s := rfl
@[simp] theorem smpPut_regs (s : State) (n : Nat) (x : Smp) : (Machine.smpPut s n x).regs = s.regs := rfl
@[simp] theorem smpPut_glob (s : State) (n : Nat) (x : Smp) : (Machine.smpPut s n x).glob = s.glob := rfl
@[simp] theorem smpPut_pins (s : State) (n : Nat) (x : Smp) : (Machine.smpPut s n x).pins = s.pins := rfl
@[simp] theorem smpPut_funcs (s : State) (n : Nat) (x : Smp) : (Machine.smpPut s n x).funcs = s.funcs := rfl
@[simp] theorem smpPut_host (s : State) (n : Nat) (x : Smp) : (Machine.smpPut s n x).host = s.host := rfl
@[simp] theorem smpPut_log (s : State) (n : Nat) (x : Smp) : (Machine.smpPut s n x).log = s.log := rfl
@[simp] theorem smpPut_flt (s : State) (n : Nat) (x : Smp) : (Machine.smpPut s n x).flt = s.flt := rfl
@[simp] theorem smpPut_recs (s : State) (n : Nat) (x : Smp) : (Machine.smpPut s n x).recs = s.recs := rfl
@[simp] theorem smpPut_upd (s : State) (n : Nat) (x : Smp) : (Machine.smpPut s n x).upd = s.upd := rfl
@[simp] theorem smpPut_boot (s : State) (n : Nat) (x : Smp) : (Machine.smpPut s n x).boot = s.boot := rfl
@[simp] theorem smpPut_time (s : State) (n : Nat) (x : Smp) : (Machine.smpPut s n x).time = s.time := rfl
@[simp] theorem smpPut_harn (s : State) (n : Nat) (x : Smp) : (Machine.smpPut s n x).harn = s.harn := rfl
@[simp] theorem smpPut_rp (s : State) (n : Nat) (x : Smp) : (Machine.smpPut s n x).rp = s.rp := rfl
@[simp] theorem smpPut_keys (s : State) (n : Nat) (x : Smp) : (Machine.smpPut s n x).keys = s.keys := rfl
@[simp] theorem smpPut_sealU (s : State) (n : Nat) (x : Smp) : (Machine.smpPut s n x).sealU = s.sealU := rfl
@[simp] theorem smpPut_ce (s : State) (n : Nat) (x : Smp) : (Machine.smpPut s n x).ce = s.ce := rfl
@[simp] theorem smpPut_bill (s : State) (n : Nat) (x : Smp) : (Machine.smpPut s n x).bill = s.bill := rfl
@[simp] theorem smpPut_chan (s : State) (n : Nat) (x : Smp) : (Machine.smpPut s n x).chan = s.chan := rfl
@[simp] theorem smpPut_cmd (s : State) (n : Nat) (x : Smp) : (Machine.smpPut s n x).cmd = s.cmd := rfl
@[simp] theorem smpPut_air (s : State) (n : Nat) (x : Smp) : (Machine.smpPut s n x).air = s.air := rfl
@[simp] theorem smpPut_store (s : State) (n : Nat) (x : Smp) : (Machine.smpPut s n x).store = s.store := rfl
@[simp] theorem smpPut_met (s : State) (n : Nat) (x : Smp) : (Machine.smpPut s n x).met = s.met := rfl
@[simp] theorem smpPut_hostMem (s : State) (n : Nat) (x : Smp) : (Machine.smpPut s n x).hostMem = s.hostMem := rfl
@[simp] theorem smpPut_wire (s : State) (n : Nat) (x : Smp) : (Machine.smpPut s n x).wire = s.wire := rfl
@[simp] theorem smpPut_tcxo (s : State) (n : Nat) (x : Smp) : (Machine.smpPut s n x).tcxo = s.tcxo := rfl
@[simp] theorem smpPut_free (s : State) (n : Nat) (x : Smp) : (Machine.smpPut s n x).free = s.free := rfl
@[simp] theorem smpPut_pending (s : State) (n : Nat) (x : Smp) : (Machine.smpPut s n x).pending = s.pending := rfl
@[simp] theorem smpPut_cnt_val (s : State) (n : Nat) (x : Smp) : (Machine.smpPut s n x).cnt.val = s.cnt.val := rfl
@[simp] theorem smpPut_cnt_latch (s : State) (n : Nat) (x : Smp) : (Machine.smpPut s n x).cnt.latch = s.cnt.latch := rfl
@[simp] theorem smpPut_cnt_ltag (s : State) (n : Nat) (x : Smp) : (Machine.smpPut s n x).cnt.ltag = s.cnt.ltag := rfl
@[simp] theorem smpPut_cnt_bw (s : State) (n : Nat) (x : Smp) : (Machine.smpPut s n x).cnt.bw = s.cnt.bw := rfl
@[simp] theorem smpPut_cnt_copy (s : State) (n : Nat) (x : Smp) : (Machine.smpPut s n x).cnt.copy = s.cnt.copy := rfl
@[simp] theorem smpPut_cnt_bwStart (s : State) (n : Nat) (x : Smp) : (Machine.smpPut s n x).cnt.bwStart = s.cnt.bwStart := rfl
@[simp] theorem smpPut_regGet (s : State) (n : Nat) (x : Smp) (kk : Nat) : regGet (Machine.smpPut s n x) kk = regGet s kk := rfl
@[simp] theorem smpPut_sqGet (s : State) (n : Nat) (x : Smp) (kk : Nat) : sqGet (Machine.smpPut s n x) kk = sqGet s kk := rfl
@[simp] theorem smpPut_cqGet (s : State) (n : Nat) (x : Smp) (kk : Nat) : cqGet (Machine.smpPut s n x) kk = cqGet s kk := rfl
@[simp] theorem smpPut_rrGet (s : State) (n : Nat) (x : Smp) (kk : Nat) : rrGet (Machine.smpPut s n x) kk = rrGet s kk := rfl
@[simp] theorem smpPut_fnGet (s : State) (n : Nat) (x : Smp) (kk : Nat) : fnGet (Machine.smpPut s n x) kk = fnGet s kk := rfl
@[simp] theorem smpPut_recGet (s : State) (n : Nat) (x : Smp) (kk : Nat) : recGet (Machine.smpPut s n x) kk = recGet s kk := rfl
@[simp] theorem smpPut_pinGet (s : State) (n : Nat) (x : Smp) (kk : Nat) : pinGet (Machine.smpPut s n x) kk = pinGet s kk := rfl
@[simp] theorem smpPut_cntGet (s : State) (n : Nat) (x : Smp) (kk : Nat) : cntGet (Machine.smpPut s n x) kk = cntGet s kk := rfl
@[simp] theorem smpPut_chGet (s : State) (n : Nat) (x : Smp) (kk : Nat) : chGet (Machine.smpPut s n x) kk = chGet s kk := rfl
@[simp] theorem smpPut_macGet (s : State) (n : Nat) (x : Smp) (kk : Nat) : macGet (Machine.smpPut s n x) kk = macGet s kk := rfl
@[simp] theorem smpPut_linkGet (s : State) (n : Nat) (x : Smp) (kk : Nat) : linkGet (Machine.smpPut s n x) kk = linkGet s kk := rfl
@[simp] theorem smpPut_dirGet (s : State) (n : Nat) (x : Smp) (kk : Nat) : dirGet (Machine.smpPut s n x) kk = dirGet s kk := rfl
@[simp] theorem smpPut_slotGet (s : State) (n : Nat) (x : Smp) (kk : Nat) : slotGet (Machine.smpPut s n x) kk = slotGet s kk := rfl
@[simp] theorem smpPut_bwGet (s : State) (n : Nat) (x : Smp) (kk : Nat) : bwGet (Machine.smpPut s n x) kk = bwGet s kk := rfl
@[simp] theorem smpPut_dtOf (s : State) (n : Nat) (x : Smp) : dtOf (Machine.smpPut s n x) = dtOf s := rfl
@[simp] theorem bwPut_regs (s : State) (p : Nat) (x : BwPort) : (Machine.bwPut s p x).regs = s.regs := rfl
@[simp] theorem bwPut_glob (s : State) (p : Nat) (x : BwPort) : (Machine.bwPut s p x).glob = s.glob := rfl
@[simp] theorem bwPut_pins (s : State) (p : Nat) (x : BwPort) : (Machine.bwPut s p x).pins = s.pins := rfl
@[simp] theorem bwPut_funcs (s : State) (p : Nat) (x : BwPort) : (Machine.bwPut s p x).funcs = s.funcs := rfl
@[simp] theorem bwPut_host (s : State) (p : Nat) (x : BwPort) : (Machine.bwPut s p x).host = s.host := rfl
@[simp] theorem bwPut_log (s : State) (p : Nat) (x : BwPort) : (Machine.bwPut s p x).log = s.log := rfl
@[simp] theorem bwPut_flt (s : State) (p : Nat) (x : BwPort) : (Machine.bwPut s p x).flt = s.flt := rfl
@[simp] theorem bwPut_recs (s : State) (p : Nat) (x : BwPort) : (Machine.bwPut s p x).recs = s.recs := rfl
@[simp] theorem bwPut_upd (s : State) (p : Nat) (x : BwPort) : (Machine.bwPut s p x).upd = s.upd := rfl
@[simp] theorem bwPut_boot (s : State) (p : Nat) (x : BwPort) : (Machine.bwPut s p x).boot = s.boot := rfl
@[simp] theorem bwPut_time (s : State) (p : Nat) (x : BwPort) : (Machine.bwPut s p x).time = s.time := rfl
@[simp] theorem bwPut_harn (s : State) (p : Nat) (x : BwPort) : (Machine.bwPut s p x).harn = s.harn := rfl
@[simp] theorem bwPut_rp (s : State) (p : Nat) (x : BwPort) : (Machine.bwPut s p x).rp = s.rp := rfl
@[simp] theorem bwPut_keys (s : State) (p : Nat) (x : BwPort) : (Machine.bwPut s p x).keys = s.keys := rfl
@[simp] theorem bwPut_sealU (s : State) (p : Nat) (x : BwPort) : (Machine.bwPut s p x).sealU = s.sealU := rfl
@[simp] theorem bwPut_ce (s : State) (p : Nat) (x : BwPort) : (Machine.bwPut s p x).ce = s.ce := rfl
@[simp] theorem bwPut_bill (s : State) (p : Nat) (x : BwPort) : (Machine.bwPut s p x).bill = s.bill := rfl
@[simp] theorem bwPut_chan (s : State) (p : Nat) (x : BwPort) : (Machine.bwPut s p x).chan = s.chan := rfl
@[simp] theorem bwPut_cmd (s : State) (p : Nat) (x : BwPort) : (Machine.bwPut s p x).cmd = s.cmd := rfl
@[simp] theorem bwPut_air (s : State) (p : Nat) (x : BwPort) : (Machine.bwPut s p x).air = s.air := rfl
@[simp] theorem bwPut_store (s : State) (p : Nat) (x : BwPort) : (Machine.bwPut s p x).store = s.store := rfl
@[simp] theorem bwPut_met (s : State) (p : Nat) (x : BwPort) : (Machine.bwPut s p x).met = s.met := rfl
@[simp] theorem bwPut_hostMem (s : State) (p : Nat) (x : BwPort) : (Machine.bwPut s p x).hostMem = s.hostMem := rfl
@[simp] theorem bwPut_wire (s : State) (p : Nat) (x : BwPort) : (Machine.bwPut s p x).wire = s.wire := rfl
@[simp] theorem bwPut_tcxo (s : State) (p : Nat) (x : BwPort) : (Machine.bwPut s p x).tcxo = s.tcxo := rfl
@[simp] theorem bwPut_free (s : State) (p : Nat) (x : BwPort) : (Machine.bwPut s p x).free = s.free := rfl
@[simp] theorem bwPut_pending (s : State) (p : Nat) (x : BwPort) : (Machine.bwPut s p x).pending = s.pending := rfl
@[simp] theorem bwPut_cnt_val (s : State) (p : Nat) (x : BwPort) : (Machine.bwPut s p x).cnt.val = s.cnt.val := rfl
@[simp] theorem bwPut_cnt_latch (s : State) (p : Nat) (x : BwPort) : (Machine.bwPut s p x).cnt.latch = s.cnt.latch := rfl
@[simp] theorem bwPut_cnt_ltag (s : State) (p : Nat) (x : BwPort) : (Machine.bwPut s p x).cnt.ltag = s.cnt.ltag := rfl
@[simp] theorem bwPut_cnt_smp (s : State) (p : Nat) (x : BwPort) : (Machine.bwPut s p x).cnt.smp = s.cnt.smp := rfl
@[simp] theorem bwPut_cnt_copy (s : State) (p : Nat) (x : BwPort) : (Machine.bwPut s p x).cnt.copy = s.cnt.copy := rfl
@[simp] theorem bwPut_cnt_bwStart (s : State) (p : Nat) (x : BwPort) : (Machine.bwPut s p x).cnt.bwStart = s.cnt.bwStart := rfl
@[simp] theorem bwPut_regGet (s : State) (p : Nat) (x : BwPort) (kk : Nat) : regGet (Machine.bwPut s p x) kk = regGet s kk := rfl
@[simp] theorem bwPut_sqGet (s : State) (p : Nat) (x : BwPort) (kk : Nat) : sqGet (Machine.bwPut s p x) kk = sqGet s kk := rfl
@[simp] theorem bwPut_cqGet (s : State) (p : Nat) (x : BwPort) (kk : Nat) : cqGet (Machine.bwPut s p x) kk = cqGet s kk := rfl
@[simp] theorem bwPut_rrGet (s : State) (p : Nat) (x : BwPort) (kk : Nat) : rrGet (Machine.bwPut s p x) kk = rrGet s kk := rfl
@[simp] theorem bwPut_fnGet (s : State) (p : Nat) (x : BwPort) (kk : Nat) : fnGet (Machine.bwPut s p x) kk = fnGet s kk := rfl
@[simp] theorem bwPut_recGet (s : State) (p : Nat) (x : BwPort) (kk : Nat) : recGet (Machine.bwPut s p x) kk = recGet s kk := rfl
@[simp] theorem bwPut_pinGet (s : State) (p : Nat) (x : BwPort) (kk : Nat) : pinGet (Machine.bwPut s p x) kk = pinGet s kk := rfl
@[simp] theorem bwPut_cntGet (s : State) (p : Nat) (x : BwPort) (kk : Nat) : cntGet (Machine.bwPut s p x) kk = cntGet s kk := rfl
@[simp] theorem bwPut_chGet (s : State) (p : Nat) (x : BwPort) (kk : Nat) : chGet (Machine.bwPut s p x) kk = chGet s kk := rfl
@[simp] theorem bwPut_macGet (s : State) (p : Nat) (x : BwPort) (kk : Nat) : macGet (Machine.bwPut s p x) kk = macGet s kk := rfl
@[simp] theorem bwPut_linkGet (s : State) (p : Nat) (x : BwPort) (kk : Nat) : linkGet (Machine.bwPut s p x) kk = linkGet s kk := rfl
@[simp] theorem bwPut_dirGet (s : State) (p : Nat) (x : BwPort) (kk : Nat) : dirGet (Machine.bwPut s p x) kk = dirGet s kk := rfl
@[simp] theorem bwPut_slotGet (s : State) (p : Nat) (x : BwPort) (kk : Nat) : slotGet (Machine.bwPut s p x) kk = slotGet s kk := rfl
@[simp] theorem bwPut_smpGet (s : State) (p : Nat) (x : BwPort) (kk : Nat) : smpGet (Machine.bwPut s p x) kk = smpGet s kk := rfl
@[simp] theorem bwPut_dtOf (s : State) (p : Nat) (x : BwPort) : dtOf (Machine.bwPut s p x) = dtOf s := rfl
@[simp] theorem bwRx_regs (s : State) (p n : Nat) : (Machine.bwRx s p n).regs = s.regs := rfl
@[simp] theorem bwRx_glob (s : State) (p n : Nat) : (Machine.bwRx s p n).glob = s.glob := rfl
@[simp] theorem bwRx_pins (s : State) (p n : Nat) : (Machine.bwRx s p n).pins = s.pins := rfl
@[simp] theorem bwRx_funcs (s : State) (p n : Nat) : (Machine.bwRx s p n).funcs = s.funcs := rfl
@[simp] theorem bwRx_host (s : State) (p n : Nat) : (Machine.bwRx s p n).host = s.host := rfl
@[simp] theorem bwRx_log (s : State) (p n : Nat) : (Machine.bwRx s p n).log = s.log := rfl
@[simp] theorem bwRx_flt (s : State) (p n : Nat) : (Machine.bwRx s p n).flt = s.flt := rfl
@[simp] theorem bwRx_recs (s : State) (p n : Nat) : (Machine.bwRx s p n).recs = s.recs := rfl
@[simp] theorem bwRx_upd (s : State) (p n : Nat) : (Machine.bwRx s p n).upd = s.upd := rfl
@[simp] theorem bwRx_boot (s : State) (p n : Nat) : (Machine.bwRx s p n).boot = s.boot := rfl
@[simp] theorem bwRx_time (s : State) (p n : Nat) : (Machine.bwRx s p n).time = s.time := rfl
@[simp] theorem bwRx_harn (s : State) (p n : Nat) : (Machine.bwRx s p n).harn = s.harn := rfl
@[simp] theorem bwRx_rp (s : State) (p n : Nat) : (Machine.bwRx s p n).rp = s.rp := rfl
@[simp] theorem bwRx_keys (s : State) (p n : Nat) : (Machine.bwRx s p n).keys = s.keys := rfl
@[simp] theorem bwRx_sealU (s : State) (p n : Nat) : (Machine.bwRx s p n).sealU = s.sealU := rfl
@[simp] theorem bwRx_ce (s : State) (p n : Nat) : (Machine.bwRx s p n).ce = s.ce := rfl
@[simp] theorem bwRx_bill (s : State) (p n : Nat) : (Machine.bwRx s p n).bill = s.bill := rfl
@[simp] theorem bwRx_chan (s : State) (p n : Nat) : (Machine.bwRx s p n).chan = s.chan := rfl
@[simp] theorem bwRx_cmd (s : State) (p n : Nat) : (Machine.bwRx s p n).cmd = s.cmd := rfl
@[simp] theorem bwRx_air (s : State) (p n : Nat) : (Machine.bwRx s p n).air = s.air := rfl
@[simp] theorem bwRx_store (s : State) (p n : Nat) : (Machine.bwRx s p n).store = s.store := rfl
@[simp] theorem bwRx_met (s : State) (p n : Nat) : (Machine.bwRx s p n).met = s.met := rfl
@[simp] theorem bwRx_hostMem (s : State) (p n : Nat) : (Machine.bwRx s p n).hostMem = s.hostMem := rfl
@[simp] theorem bwRx_wire (s : State) (p n : Nat) : (Machine.bwRx s p n).wire = s.wire := rfl
@[simp] theorem bwRx_tcxo (s : State) (p n : Nat) : (Machine.bwRx s p n).tcxo = s.tcxo := rfl
@[simp] theorem bwRx_free (s : State) (p n : Nat) : (Machine.bwRx s p n).free = s.free := rfl
@[simp] theorem bwRx_pending (s : State) (p n : Nat) : (Machine.bwRx s p n).pending = s.pending := rfl
@[simp] theorem bwRx_cnt_val (s : State) (p n : Nat) : (Machine.bwRx s p n).cnt.val = s.cnt.val := rfl
@[simp] theorem bwRx_cnt_latch (s : State) (p n : Nat) : (Machine.bwRx s p n).cnt.latch = s.cnt.latch := rfl
@[simp] theorem bwRx_cnt_ltag (s : State) (p n : Nat) : (Machine.bwRx s p n).cnt.ltag = s.cnt.ltag := rfl
@[simp] theorem bwRx_cnt_smp (s : State) (p n : Nat) : (Machine.bwRx s p n).cnt.smp = s.cnt.smp := rfl
@[simp] theorem bwRx_cnt_copy (s : State) (p n : Nat) : (Machine.bwRx s p n).cnt.copy = s.cnt.copy := rfl
@[simp] theorem bwRx_cnt_bwStart (s : State) (p n : Nat) : (Machine.bwRx s p n).cnt.bwStart = s.cnt.bwStart := rfl
@[simp] theorem bwRx_regGet (s : State) (p n : Nat) (kk : Nat) : regGet (Machine.bwRx s p n) kk = regGet s kk := rfl
@[simp] theorem bwRx_sqGet (s : State) (p n : Nat) (kk : Nat) : sqGet (Machine.bwRx s p n) kk = sqGet s kk := rfl
@[simp] theorem bwRx_cqGet (s : State) (p n : Nat) (kk : Nat) : cqGet (Machine.bwRx s p n) kk = cqGet s kk := rfl
@[simp] theorem bwRx_rrGet (s : State) (p n : Nat) (kk : Nat) : rrGet (Machine.bwRx s p n) kk = rrGet s kk := rfl
@[simp] theorem bwRx_fnGet (s : State) (p n : Nat) (kk : Nat) : fnGet (Machine.bwRx s p n) kk = fnGet s kk := rfl
@[simp] theorem bwRx_recGet (s : State) (p n : Nat) (kk : Nat) : recGet (Machine.bwRx s p n) kk = recGet s kk := rfl
@[simp] theorem bwRx_pinGet (s : State) (p n : Nat) (kk : Nat) : pinGet (Machine.bwRx s p n) kk = pinGet s kk := rfl
@[simp] theorem bwRx_cntGet (s : State) (p n : Nat) (kk : Nat) : cntGet (Machine.bwRx s p n) kk = cntGet s kk := rfl
@[simp] theorem bwRx_chGet (s : State) (p n : Nat) (kk : Nat) : chGet (Machine.bwRx s p n) kk = chGet s kk := rfl
@[simp] theorem bwRx_macGet (s : State) (p n : Nat) (kk : Nat) : macGet (Machine.bwRx s p n) kk = macGet s kk := rfl
@[simp] theorem bwRx_linkGet (s : State) (p n : Nat) (kk : Nat) : linkGet (Machine.bwRx s p n) kk = linkGet s kk := rfl
@[simp] theorem bwRx_dirGet (s : State) (p n : Nat) (kk : Nat) : dirGet (Machine.bwRx s p n) kk = dirGet s kk := rfl
@[simp] theorem bwRx_slotGet (s : State) (p n : Nat) (kk : Nat) : slotGet (Machine.bwRx s p n) kk = slotGet s kk := rfl
@[simp] theorem bwRx_smpGet (s : State) (p n : Nat) (kk : Nat) : smpGet (Machine.bwRx s p n) kk = smpGet s kk := rfl
@[simp] theorem bwRx_dtOf (s : State) (p n : Nat) : dtOf (Machine.bwRx s p n) = dtOf s := rfl
@[simp] theorem bwTx_regs (s : State) (p n : Nat) : (Machine.bwTx s p n).regs = s.regs := rfl
@[simp] theorem bwTx_glob (s : State) (p n : Nat) : (Machine.bwTx s p n).glob = s.glob := rfl
@[simp] theorem bwTx_pins (s : State) (p n : Nat) : (Machine.bwTx s p n).pins = s.pins := rfl
@[simp] theorem bwTx_funcs (s : State) (p n : Nat) : (Machine.bwTx s p n).funcs = s.funcs := rfl
@[simp] theorem bwTx_host (s : State) (p n : Nat) : (Machine.bwTx s p n).host = s.host := rfl
@[simp] theorem bwTx_log (s : State) (p n : Nat) : (Machine.bwTx s p n).log = s.log := rfl
@[simp] theorem bwTx_flt (s : State) (p n : Nat) : (Machine.bwTx s p n).flt = s.flt := rfl
@[simp] theorem bwTx_recs (s : State) (p n : Nat) : (Machine.bwTx s p n).recs = s.recs := rfl
@[simp] theorem bwTx_upd (s : State) (p n : Nat) : (Machine.bwTx s p n).upd = s.upd := rfl
@[simp] theorem bwTx_boot (s : State) (p n : Nat) : (Machine.bwTx s p n).boot = s.boot := rfl
@[simp] theorem bwTx_time (s : State) (p n : Nat) : (Machine.bwTx s p n).time = s.time := rfl
@[simp] theorem bwTx_harn (s : State) (p n : Nat) : (Machine.bwTx s p n).harn = s.harn := rfl
@[simp] theorem bwTx_rp (s : State) (p n : Nat) : (Machine.bwTx s p n).rp = s.rp := rfl
@[simp] theorem bwTx_keys (s : State) (p n : Nat) : (Machine.bwTx s p n).keys = s.keys := rfl
@[simp] theorem bwTx_sealU (s : State) (p n : Nat) : (Machine.bwTx s p n).sealU = s.sealU := rfl
@[simp] theorem bwTx_ce (s : State) (p n : Nat) : (Machine.bwTx s p n).ce = s.ce := rfl
@[simp] theorem bwTx_bill (s : State) (p n : Nat) : (Machine.bwTx s p n).bill = s.bill := rfl
@[simp] theorem bwTx_chan (s : State) (p n : Nat) : (Machine.bwTx s p n).chan = s.chan := rfl
@[simp] theorem bwTx_cmd (s : State) (p n : Nat) : (Machine.bwTx s p n).cmd = s.cmd := rfl
@[simp] theorem bwTx_air (s : State) (p n : Nat) : (Machine.bwTx s p n).air = s.air := rfl
@[simp] theorem bwTx_store (s : State) (p n : Nat) : (Machine.bwTx s p n).store = s.store := rfl
@[simp] theorem bwTx_met (s : State) (p n : Nat) : (Machine.bwTx s p n).met = s.met := rfl
@[simp] theorem bwTx_hostMem (s : State) (p n : Nat) : (Machine.bwTx s p n).hostMem = s.hostMem := rfl
@[simp] theorem bwTx_wire (s : State) (p n : Nat) : (Machine.bwTx s p n).wire = s.wire := rfl
@[simp] theorem bwTx_tcxo (s : State) (p n : Nat) : (Machine.bwTx s p n).tcxo = s.tcxo := rfl
@[simp] theorem bwTx_free (s : State) (p n : Nat) : (Machine.bwTx s p n).free = s.free := rfl
@[simp] theorem bwTx_pending (s : State) (p n : Nat) : (Machine.bwTx s p n).pending = s.pending := rfl
@[simp] theorem bwTx_cnt_val (s : State) (p n : Nat) : (Machine.bwTx s p n).cnt.val = s.cnt.val := rfl
@[simp] theorem bwTx_cnt_latch (s : State) (p n : Nat) : (Machine.bwTx s p n).cnt.latch = s.cnt.latch := rfl
@[simp] theorem bwTx_cnt_ltag (s : State) (p n : Nat) : (Machine.bwTx s p n).cnt.ltag = s.cnt.ltag := rfl
@[simp] theorem bwTx_cnt_smp (s : State) (p n : Nat) : (Machine.bwTx s p n).cnt.smp = s.cnt.smp := rfl
@[simp] theorem bwTx_cnt_copy (s : State) (p n : Nat) : (Machine.bwTx s p n).cnt.copy = s.cnt.copy := rfl
@[simp] theorem bwTx_cnt_bwStart (s : State) (p n : Nat) : (Machine.bwTx s p n).cnt.bwStart = s.cnt.bwStart := rfl
@[simp] theorem bwTx_regGet (s : State) (p n : Nat) (kk : Nat) : regGet (Machine.bwTx s p n) kk = regGet s kk := rfl
@[simp] theorem bwTx_sqGet (s : State) (p n : Nat) (kk : Nat) : sqGet (Machine.bwTx s p n) kk = sqGet s kk := rfl
@[simp] theorem bwTx_cqGet (s : State) (p n : Nat) (kk : Nat) : cqGet (Machine.bwTx s p n) kk = cqGet s kk := rfl
@[simp] theorem bwTx_rrGet (s : State) (p n : Nat) (kk : Nat) : rrGet (Machine.bwTx s p n) kk = rrGet s kk := rfl
@[simp] theorem bwTx_fnGet (s : State) (p n : Nat) (kk : Nat) : fnGet (Machine.bwTx s p n) kk = fnGet s kk := rfl
@[simp] theorem bwTx_recGet (s : State) (p n : Nat) (kk : Nat) : recGet (Machine.bwTx s p n) kk = recGet s kk := rfl
@[simp] theorem bwTx_pinGet (s : State) (p n : Nat) (kk : Nat) : pinGet (Machine.bwTx s p n) kk = pinGet s kk := rfl
@[simp] theorem bwTx_cntGet (s : State) (p n : Nat) (kk : Nat) : cntGet (Machine.bwTx s p n) kk = cntGet s kk := rfl
@[simp] theorem bwTx_chGet (s : State) (p n : Nat) (kk : Nat) : chGet (Machine.bwTx s p n) kk = chGet s kk := rfl
@[simp] theorem bwTx_macGet (s : State) (p n : Nat) (kk : Nat) : macGet (Machine.bwTx s p n) kk = macGet s kk := rfl
@[simp] theorem bwTx_linkGet (s : State) (p n : Nat) (kk : Nat) : linkGet (Machine.bwTx s p n) kk = linkGet s kk := rfl
@[simp] theorem bwTx_dirGet (s : State) (p n : Nat) (kk : Nat) : dirGet (Machine.bwTx s p n) kk = dirGet s kk := rfl
@[simp] theorem bwTx_slotGet (s : State) (p n : Nat) (kk : Nat) : slotGet (Machine.bwTx s p n) kk = slotGet s kk := rfl
@[simp] theorem bwTx_smpGet (s : State) (p n : Nat) (kk : Nat) : smpGet (Machine.bwTx s p n) kk = smpGet s kk := rfl
@[simp] theorem bwTx_dtOf (s : State) (p n : Nat) : dtOf (Machine.bwTx s p n) = dtOf s := rfl
@[simp] theorem bucketPut_regs (s : State) (c : Nat) (b : Bucket) : (Machine.bucketPut s c b).regs = s.regs := rfl
@[simp] theorem bucketPut_glob (s : State) (c : Nat) (b : Bucket) : (Machine.bucketPut s c b).glob = s.glob := rfl
@[simp] theorem bucketPut_pins (s : State) (c : Nat) (b : Bucket) : (Machine.bucketPut s c b).pins = s.pins := rfl
@[simp] theorem bucketPut_funcs (s : State) (c : Nat) (b : Bucket) : (Machine.bucketPut s c b).funcs = s.funcs := rfl
@[simp] theorem bucketPut_host (s : State) (c : Nat) (b : Bucket) : (Machine.bucketPut s c b).host = s.host := rfl
@[simp] theorem bucketPut_cnt (s : State) (c : Nat) (b : Bucket) : (Machine.bucketPut s c b).cnt = s.cnt := rfl
@[simp] theorem bucketPut_flt (s : State) (c : Nat) (b : Bucket) : (Machine.bucketPut s c b).flt = s.flt := rfl
@[simp] theorem bucketPut_recs (s : State) (c : Nat) (b : Bucket) : (Machine.bucketPut s c b).recs = s.recs := rfl
@[simp] theorem bucketPut_upd (s : State) (c : Nat) (b : Bucket) : (Machine.bucketPut s c b).upd = s.upd := rfl
@[simp] theorem bucketPut_boot (s : State) (c : Nat) (b : Bucket) : (Machine.bucketPut s c b).boot = s.boot := rfl
@[simp] theorem bucketPut_time (s : State) (c : Nat) (b : Bucket) : (Machine.bucketPut s c b).time = s.time := rfl
@[simp] theorem bucketPut_harn (s : State) (c : Nat) (b : Bucket) : (Machine.bucketPut s c b).harn = s.harn := rfl
@[simp] theorem bucketPut_rp (s : State) (c : Nat) (b : Bucket) : (Machine.bucketPut s c b).rp = s.rp := rfl
@[simp] theorem bucketPut_keys (s : State) (c : Nat) (b : Bucket) : (Machine.bucketPut s c b).keys = s.keys := rfl
@[simp] theorem bucketPut_sealU (s : State) (c : Nat) (b : Bucket) : (Machine.bucketPut s c b).sealU = s.sealU := rfl
@[simp] theorem bucketPut_ce (s : State) (c : Nat) (b : Bucket) : (Machine.bucketPut s c b).ce = s.ce := rfl
@[simp] theorem bucketPut_bill (s : State) (c : Nat) (b : Bucket) : (Machine.bucketPut s c b).bill = s.bill := rfl
@[simp] theorem bucketPut_chan (s : State) (c : Nat) (b : Bucket) : (Machine.bucketPut s c b).chan = s.chan := rfl
@[simp] theorem bucketPut_cmd (s : State) (c : Nat) (b : Bucket) : (Machine.bucketPut s c b).cmd = s.cmd := rfl
@[simp] theorem bucketPut_air (s : State) (c : Nat) (b : Bucket) : (Machine.bucketPut s c b).air = s.air := rfl
@[simp] theorem bucketPut_store (s : State) (c : Nat) (b : Bucket) : (Machine.bucketPut s c b).store = s.store := rfl
@[simp] theorem bucketPut_met (s : State) (c : Nat) (b : Bucket) : (Machine.bucketPut s c b).met = s.met := rfl
@[simp] theorem bucketPut_hostMem (s : State) (c : Nat) (b : Bucket) : (Machine.bucketPut s c b).hostMem = s.hostMem := rfl
@[simp] theorem bucketPut_wire (s : State) (c : Nat) (b : Bucket) : (Machine.bucketPut s c b).wire = s.wire := rfl
@[simp] theorem bucketPut_tcxo (s : State) (c : Nat) (b : Bucket) : (Machine.bucketPut s c b).tcxo = s.tcxo := rfl
@[simp] theorem bucketPut_free (s : State) (c : Nat) (b : Bucket) : (Machine.bucketPut s c b).free = s.free := rfl
@[simp] theorem bucketPut_pending (s : State) (c : Nat) (b : Bucket) : (Machine.bucketPut s c b).pending = s.pending := rfl
@[simp] theorem bucketPut_log_recs (s : State) (c : Nat) (b : Bucket) : (Machine.bucketPut s c b).log.recs = s.log.recs := rfl
@[simp] theorem bucketPut_log_reserve (s : State) (c : Nat) (b : Bucket) : (Machine.bucketPut s c b).log.reserve = s.log.reserve := rfl
@[simp] theorem bucketPut_log_next (s : State) (c : Nat) (b : Bucket) : (Machine.bucketPut s c b).log.next = s.log.next := rfl
@[simp] theorem bucketPut_log_queue (s : State) (c : Nat) (b : Bucket) : (Machine.bucketPut s c b).log.queue = s.log.queue := rfl
@[simp] theorem bucketPut_log_full (s : State) (c : Nat) (b : Bucket) : (Machine.bucketPut s c b).log.full = s.log.full := rfl
@[simp] theorem bucketPut_log_mediaFault (s : State) (c : Nat) (b : Bucket) : (Machine.bucketPut s c b).log.mediaFault = s.log.mediaFault := rfl
@[simp] theorem bucketPut_log_held (s : State) (c : Nat) (b : Bucket) : (Machine.bucketPut s c b).log.held = s.log.held := rfl
@[simp] theorem bucketPut_log_dropped (s : State) (c : Nat) (b : Bucket) : (Machine.bucketPut s c b).log.dropped = s.log.dropped := rfl
@[simp] theorem bucketPut_log_suppressed (s : State) (c : Nat) (b : Bucket) : (Machine.bucketPut s c b).log.suppressed = s.log.suppressed := rfl
@[simp] theorem bucketPut_regGet (s : State) (c : Nat) (b : Bucket) (kk : Nat) : regGet (Machine.bucketPut s c b) kk = regGet s kk := rfl
@[simp] theorem bucketPut_sqGet (s : State) (c : Nat) (b : Bucket) (kk : Nat) : sqGet (Machine.bucketPut s c b) kk = sqGet s kk := rfl
@[simp] theorem bucketPut_cqGet (s : State) (c : Nat) (b : Bucket) (kk : Nat) : cqGet (Machine.bucketPut s c b) kk = cqGet s kk := rfl
@[simp] theorem bucketPut_rrGet (s : State) (c : Nat) (b : Bucket) (kk : Nat) : rrGet (Machine.bucketPut s c b) kk = rrGet s kk := rfl
@[simp] theorem bucketPut_fnGet (s : State) (c : Nat) (b : Bucket) (kk : Nat) : fnGet (Machine.bucketPut s c b) kk = fnGet s kk := rfl
@[simp] theorem bucketPut_recGet (s : State) (c : Nat) (b : Bucket) (kk : Nat) : recGet (Machine.bucketPut s c b) kk = recGet s kk := rfl
@[simp] theorem bucketPut_pinGet (s : State) (c : Nat) (b : Bucket) (kk : Nat) : pinGet (Machine.bucketPut s c b) kk = pinGet s kk := rfl
@[simp] theorem bucketPut_cntGet (s : State) (c : Nat) (b : Bucket) (kk : Nat) : cntGet (Machine.bucketPut s c b) kk = cntGet s kk := rfl
@[simp] theorem bucketPut_chGet (s : State) (c : Nat) (b : Bucket) (kk : Nat) : chGet (Machine.bucketPut s c b) kk = chGet s kk := rfl
@[simp] theorem bucketPut_macGet (s : State) (c : Nat) (b : Bucket) (kk : Nat) : macGet (Machine.bucketPut s c b) kk = macGet s kk := rfl
@[simp] theorem bucketPut_linkGet (s : State) (c : Nat) (b : Bucket) (kk : Nat) : linkGet (Machine.bucketPut s c b) kk = linkGet s kk := rfl
@[simp] theorem bucketPut_dirGet (s : State) (c : Nat) (b : Bucket) (kk : Nat) : dirGet (Machine.bucketPut s c b) kk = dirGet s kk := rfl
@[simp] theorem bucketPut_slotGet (s : State) (c : Nat) (b : Bucket) (kk : Nat) : slotGet (Machine.bucketPut s c b) kk = slotGet s kk := rfl
@[simp] theorem bucketPut_bwGet (s : State) (c : Nat) (b : Bucket) (kk : Nat) : bwGet (Machine.bucketPut s c b) kk = bwGet s kk := rfl
@[simp] theorem bucketPut_smpGet (s : State) (c : Nat) (b : Bucket) (kk : Nat) : smpGet (Machine.bucketPut s c b) kk = smpGet s kk := rfl
@[simp] theorem bucketPut_dtOf (s : State) (c : Nat) (b : Bucket) : dtOf (Machine.bucketPut s c b) = dtOf s := rfl
@[simp] theorem regPut_glob (s : State) (o : Nat) (w : Word) : (Machine.regPut s o w).glob = s.glob := rfl
@[simp] theorem regPut_pins (s : State) (o : Nat) (w : Word) : (Machine.regPut s o w).pins = s.pins := rfl
@[simp] theorem regPut_funcs (s : State) (o : Nat) (w : Word) : (Machine.regPut s o w).funcs = s.funcs := rfl
@[simp] theorem regPut_host (s : State) (o : Nat) (w : Word) : (Machine.regPut s o w).host = s.host := rfl
@[simp] theorem regPut_log (s : State) (o : Nat) (w : Word) : (Machine.regPut s o w).log = s.log := rfl
@[simp] theorem regPut_cnt (s : State) (o : Nat) (w : Word) : (Machine.regPut s o w).cnt = s.cnt := rfl
@[simp] theorem regPut_flt (s : State) (o : Nat) (w : Word) : (Machine.regPut s o w).flt = s.flt := rfl
@[simp] theorem regPut_recs (s : State) (o : Nat) (w : Word) : (Machine.regPut s o w).recs = s.recs := rfl
@[simp] theorem regPut_upd (s : State) (o : Nat) (w : Word) : (Machine.regPut s o w).upd = s.upd := rfl
@[simp] theorem regPut_boot (s : State) (o : Nat) (w : Word) : (Machine.regPut s o w).boot = s.boot := rfl
@[simp] theorem regPut_time (s : State) (o : Nat) (w : Word) : (Machine.regPut s o w).time = s.time := rfl
@[simp] theorem regPut_harn (s : State) (o : Nat) (w : Word) : (Machine.regPut s o w).harn = s.harn := rfl
@[simp] theorem regPut_rp (s : State) (o : Nat) (w : Word) : (Machine.regPut s o w).rp = s.rp := rfl
@[simp] theorem regPut_keys (s : State) (o : Nat) (w : Word) : (Machine.regPut s o w).keys = s.keys := rfl
@[simp] theorem regPut_sealU (s : State) (o : Nat) (w : Word) : (Machine.regPut s o w).sealU = s.sealU := rfl
@[simp] theorem regPut_ce (s : State) (o : Nat) (w : Word) : (Machine.regPut s o w).ce = s.ce := rfl
@[simp] theorem regPut_bill (s : State) (o : Nat) (w : Word) : (Machine.regPut s o w).bill = s.bill := rfl
@[simp] theorem regPut_chan (s : State) (o : Nat) (w : Word) : (Machine.regPut s o w).chan = s.chan := rfl
@[simp] theorem regPut_cmd (s : State) (o : Nat) (w : Word) : (Machine.regPut s o w).cmd = s.cmd := rfl
@[simp] theorem regPut_air (s : State) (o : Nat) (w : Word) : (Machine.regPut s o w).air = s.air := rfl
@[simp] theorem regPut_store (s : State) (o : Nat) (w : Word) : (Machine.regPut s o w).store = s.store := rfl
@[simp] theorem regPut_met (s : State) (o : Nat) (w : Word) : (Machine.regPut s o w).met = s.met := rfl
@[simp] theorem regPut_hostMem (s : State) (o : Nat) (w : Word) : (Machine.regPut s o w).hostMem = s.hostMem := rfl
@[simp] theorem regPut_wire (s : State) (o : Nat) (w : Word) : (Machine.regPut s o w).wire = s.wire := rfl
@[simp] theorem regPut_tcxo (s : State) (o : Nat) (w : Word) : (Machine.regPut s o w).tcxo = s.tcxo := rfl
@[simp] theorem regPut_free (s : State) (o : Nat) (w : Word) : (Machine.regPut s o w).free = s.free := rfl
@[simp] theorem regPut_pending (s : State) (o : Nat) (w : Word) : (Machine.regPut s o w).pending = s.pending := rfl
@[simp] theorem regPut_sqGet (s : State) (o : Nat) (w : Word) (kk : Nat) : sqGet (Machine.regPut s o w) kk = sqGet s kk := rfl
@[simp] theorem regPut_cqGet (s : State) (o : Nat) (w : Word) (kk : Nat) : cqGet (Machine.regPut s o w) kk = cqGet s kk := rfl
@[simp] theorem regPut_rrGet (s : State) (o : Nat) (w : Word) (kk : Nat) : rrGet (Machine.regPut s o w) kk = rrGet s kk := rfl
@[simp] theorem regPut_fnGet (s : State) (o : Nat) (w : Word) (kk : Nat) : fnGet (Machine.regPut s o w) kk = fnGet s kk := rfl
@[simp] theorem regPut_recGet (s : State) (o : Nat) (w : Word) (kk : Nat) : recGet (Machine.regPut s o w) kk = recGet s kk := rfl
@[simp] theorem regPut_pinGet (s : State) (o : Nat) (w : Word) (kk : Nat) : pinGet (Machine.regPut s o w) kk = pinGet s kk := rfl
@[simp] theorem regPut_cntGet (s : State) (o : Nat) (w : Word) (kk : Nat) : cntGet (Machine.regPut s o w) kk = cntGet s kk := rfl
@[simp] theorem regPut_chGet (s : State) (o : Nat) (w : Word) (kk : Nat) : chGet (Machine.regPut s o w) kk = chGet s kk := rfl
@[simp] theorem regPut_macGet (s : State) (o : Nat) (w : Word) (kk : Nat) : macGet (Machine.regPut s o w) kk = macGet s kk := rfl
@[simp] theorem regPut_linkGet (s : State) (o : Nat) (w : Word) (kk : Nat) : linkGet (Machine.regPut s o w) kk = linkGet s kk := rfl
@[simp] theorem regPut_dirGet (s : State) (o : Nat) (w : Word) (kk : Nat) : dirGet (Machine.regPut s o w) kk = dirGet s kk := rfl
@[simp] theorem regPut_slotGet (s : State) (o : Nat) (w : Word) (kk : Nat) : slotGet (Machine.regPut s o w) kk = slotGet s kk := rfl
@[simp] theorem regPut_bwGet (s : State) (o : Nat) (w : Word) (kk : Nat) : bwGet (Machine.regPut s o w) kk = bwGet s kk := rfl
@[simp] theorem regPut_smpGet (s : State) (o : Nat) (w : Word) (kk : Nat) : smpGet (Machine.regPut s o w) kk = smpGet s kk := rfl
@[simp] theorem regPut_dtOf (s : State) (o : Nat) (w : Word) : dtOf (Machine.regPut s o w) = dtOf s := rfl
@[simp] theorem portPut_regs (s : State) (p : Nat) (x : HPort) : (Machine.portPut s p x).regs = s.regs := rfl
@[simp] theorem portPut_glob (s : State) (p : Nat) (x : HPort) : (Machine.portPut s p x).glob = s.glob := rfl
@[simp] theorem portPut_pins (s : State) (p : Nat) (x : HPort) : (Machine.portPut s p x).pins = s.pins := rfl
@[simp] theorem portPut_funcs (s : State) (p : Nat) (x : HPort) : (Machine.portPut s p x).funcs = s.funcs := rfl
@[simp] theorem portPut_host (s : State) (p : Nat) (x : HPort) : (Machine.portPut s p x).host = s.host := rfl
@[simp] theorem portPut_log (s : State) (p : Nat) (x : HPort) : (Machine.portPut s p x).log = s.log := rfl
@[simp] theorem portPut_cnt (s : State) (p : Nat) (x : HPort) : (Machine.portPut s p x).cnt = s.cnt := rfl
@[simp] theorem portPut_flt (s : State) (p : Nat) (x : HPort) : (Machine.portPut s p x).flt = s.flt := rfl
@[simp] theorem portPut_recs (s : State) (p : Nat) (x : HPort) : (Machine.portPut s p x).recs = s.recs := rfl
@[simp] theorem portPut_upd (s : State) (p : Nat) (x : HPort) : (Machine.portPut s p x).upd = s.upd := rfl
@[simp] theorem portPut_boot (s : State) (p : Nat) (x : HPort) : (Machine.portPut s p x).boot = s.boot := rfl
@[simp] theorem portPut_time (s : State) (p : Nat) (x : HPort) : (Machine.portPut s p x).time = s.time := rfl
@[simp] theorem portPut_rp (s : State) (p : Nat) (x : HPort) : (Machine.portPut s p x).rp = s.rp := rfl
@[simp] theorem portPut_keys (s : State) (p : Nat) (x : HPort) : (Machine.portPut s p x).keys = s.keys := rfl
@[simp] theorem portPut_sealU (s : State) (p : Nat) (x : HPort) : (Machine.portPut s p x).sealU = s.sealU := rfl
@[simp] theorem portPut_ce (s : State) (p : Nat) (x : HPort) : (Machine.portPut s p x).ce = s.ce := rfl
@[simp] theorem portPut_bill (s : State) (p : Nat) (x : HPort) : (Machine.portPut s p x).bill = s.bill := rfl
@[simp] theorem portPut_chan (s : State) (p : Nat) (x : HPort) : (Machine.portPut s p x).chan = s.chan := rfl
@[simp] theorem portPut_cmd (s : State) (p : Nat) (x : HPort) : (Machine.portPut s p x).cmd = s.cmd := rfl
@[simp] theorem portPut_air (s : State) (p : Nat) (x : HPort) : (Machine.portPut s p x).air = s.air := rfl
@[simp] theorem portPut_store (s : State) (p : Nat) (x : HPort) : (Machine.portPut s p x).store = s.store := rfl
@[simp] theorem portPut_met (s : State) (p : Nat) (x : HPort) : (Machine.portPut s p x).met = s.met := rfl
@[simp] theorem portPut_hostMem (s : State) (p : Nat) (x : HPort) : (Machine.portPut s p x).hostMem = s.hostMem := rfl
@[simp] theorem portPut_wire (s : State) (p : Nat) (x : HPort) : (Machine.portPut s p x).wire = s.wire := rfl
@[simp] theorem portPut_tcxo (s : State) (p : Nat) (x : HPort) : (Machine.portPut s p x).tcxo = s.tcxo := rfl
@[simp] theorem portPut_free (s : State) (p : Nat) (x : HPort) : (Machine.portPut s p x).free = s.free := rfl
@[simp] theorem portPut_pending (s : State) (p : Nat) (x : HPort) : (Machine.portPut s p x).pending = s.pending := rfl
@[simp] theorem portPut_harn_pos (s : State) (p : Nat) (x : HPort) : (Machine.portPut s p x).harn.pos = s.harn.pos := rfl
@[simp] theorem portPut_harn_joined (s : State) (p : Nat) (x : HPort) : (Machine.portPut s p x).harn.joined = s.harn.joined := rfl
@[simp] theorem portPut_harn_fenced (s : State) (p : Nat) (x : HPort) : (Machine.portPut s p x).harn.fenced = s.harn.fenced := rfl
@[simp] theorem portPut_harn_caps (s : State) (p : Nat) (x : HPort) : (Machine.portPut s p x).harn.caps = s.harn.caps := rfl
@[simp] theorem portPut_harn_gates (s : State) (p : Nat) (x : HPort) : (Machine.portPut s p x).harn.gates = s.harn.gates := rfl
@[simp] theorem portPut_harn_outState (s : State) (p : Nat) (x : HPort) : (Machine.portPut s p x).harn.outState = s.harn.outState := rfl
@[simp] theorem portPut_harn_outReason (s : State) (p : Nat) (x : HPort) : (Machine.portPut s p x).harn.outReason = s.harn.outReason := rfl
@[simp] theorem portPut_harn_phase (s : State) (p : Nat) (x : HPort) : (Machine.portPut s p x).harn.phase = s.harn.phase := rfl
@[simp] theorem portPut_harn_joinErr (s : State) (p : Nat) (x : HPort) : (Machine.portPut s p x).harn.joinErr = s.harn.joinErr := rfl
@[simp] theorem portPut_harn_ringId (s : State) (p : Nat) (x : HPort) : (Machine.portPut s p x).harn.ringId = s.harn.ringId := rfl
@[simp] theorem portPut_harn_nvPos (s : State) (p : Nat) (x : HPort) : (Machine.portPut s p x).harn.nvPos = s.harn.nvPos := rfl
@[simp] theorem portPut_harn_joinedM (s : State) (p : Nat) (x : HPort) : (Machine.portPut s p x).harn.joinedM = s.harn.joinedM := rfl
@[simp] theorem portPut_harn_silentM (s : State) (p : Nat) (x : HPort) : (Machine.portPut s p x).harn.silentM = s.harn.silentM := rfl
@[simp] theorem portPut_harn_beats (s : State) (p : Nat) (x : HPort) : (Machine.portPut s p x).harn.beats = s.harn.beats := rfl
@[simp] theorem portPut_harn_tickAt (s : State) (p : Nat) (x : HPort) : (Machine.portPut s p x).harn.tickAt = s.harn.tickAt := rfl
@[simp] theorem portPut_harn_leadReb (s : State) (p : Nat) (x : HPort) : (Machine.portPut s p x).harn.leadReb = s.harn.leadReb := rfl
@[simp] theorem portPut_harn_ofsNs (s : State) (p : Nat) (x : HPort) : (Machine.portPut s p x).harn.ofsNs = s.harn.ofsNs := rfl
@[simp] theorem portPut_harn_wrapped (s : State) (p : Nat) (x : HPort) : (Machine.portPut s p x).harn.wrapped = s.harn.wrapped := rfl
@[simp] theorem portPut_harn_acting (s : State) (p : Nat) (x : HPort) : (Machine.portPut s p x).harn.acting = s.harn.acting := rfl
@[simp] theorem portPut_harn_beatsOff (s : State) (p : Nat) (x : HPort) : (Machine.portPut s p x).harn.beatsOff = s.harn.beatsOff := rfl
@[simp] theorem portPut_harn_reqs (s : State) (p : Nat) (x : HPort) : (Machine.portPut s p x).harn.reqs = s.harn.reqs := rfl
@[simp] theorem portPut_harn_peers (s : State) (p : Nat) (x : HPort) : (Machine.portPut s p x).harn.peers = s.harn.peers := rfl
@[simp] theorem portPut_harn_stat (s : State) (p : Nat) (x : HPort) : (Machine.portPut s p x).harn.stat = s.harn.stat := rfl
@[simp] theorem portPut_harn_inState (s : State) (p : Nat) (x : HPort) : (Machine.portPut s p x).harn.inState = s.harn.inState := rfl
@[simp] theorem portPut_harn_inPos (s : State) (p : Nat) (x : HPort) : (Machine.portPut s p x).harn.inPos = s.harn.inPos := rfl
@[simp] theorem portPut_harn_holdRaw (s : State) (p : Nat) (x : HPort) : (Machine.portPut s p x).harn.holdRaw = s.harn.holdRaw := rfl
@[simp] theorem portPut_harn_holdRd (s : State) (p : Nat) (x : HPort) : (Machine.portPut s p x).harn.holdRd = s.harn.holdRd := rfl
@[simp] theorem portPut_harn_holdCmd (s : State) (p : Nat) (x : HPort) : (Machine.portPut s p x).harn.holdCmd = s.harn.holdCmd := rfl
@[simp] theorem portPut_harn_mRecs (s : State) (p : Nat) (x : HPort) : (Machine.portPut s p x).harn.mRecs = s.harn.mRecs := rfl
@[simp] theorem portPut_harn_mEnts (s : State) (p : Nat) (x : HPort) : (Machine.portPut s p x).harn.mEnts = s.harn.mEnts := rfl
@[simp] theorem portPut_harn_served (s : State) (p : Nat) (x : HPort) : (Machine.portPut s p x).harn.served = s.harn.served := rfl
@[simp] theorem portPut_harn_tkoCnt (s : State) (p : Nat) (x : HPort) : (Machine.portPut s p x).harn.tkoCnt = s.harn.tkoCnt := rfl
@[simp] theorem portPut_harn_tko (s : State) (p : Nat) (x : HPort) : (Machine.portPut s p x).harn.tko = s.harn.tko := rfl
@[simp] theorem portPut_harn_syncLeft (s : State) (p : Nat) (x : HPort) : (Machine.portPut s p x).harn.syncLeft = s.harn.syncLeft := rfl
@[simp] theorem portPut_harn_syncPos (s : State) (p : Nat) (x : HPort) : (Machine.portPut s p x).harn.syncPos = s.harn.syncPos := rfl
@[simp] theorem portPut_harn_shadow (s : State) (p : Nat) (x : HPort) : (Machine.portPut s p x).harn.shadow = s.harn.shadow := rfl
@[simp] theorem portPut_regGet (s : State) (p : Nat) (x : HPort) (kk : Nat) : regGet (Machine.portPut s p x) kk = regGet s kk := rfl
@[simp] theorem portPut_sqGet (s : State) (p : Nat) (x : HPort) (kk : Nat) : sqGet (Machine.portPut s p x) kk = sqGet s kk := rfl
@[simp] theorem portPut_cqGet (s : State) (p : Nat) (x : HPort) (kk : Nat) : cqGet (Machine.portPut s p x) kk = cqGet s kk := rfl
@[simp] theorem portPut_rrGet (s : State) (p : Nat) (x : HPort) (kk : Nat) : rrGet (Machine.portPut s p x) kk = rrGet s kk := rfl
@[simp] theorem portPut_fnGet (s : State) (p : Nat) (x : HPort) (kk : Nat) : fnGet (Machine.portPut s p x) kk = fnGet s kk := rfl
@[simp] theorem portPut_recGet (s : State) (p : Nat) (x : HPort) (kk : Nat) : recGet (Machine.portPut s p x) kk = recGet s kk := rfl
@[simp] theorem portPut_pinGet (s : State) (p : Nat) (x : HPort) (kk : Nat) : pinGet (Machine.portPut s p x) kk = pinGet s kk := rfl
@[simp] theorem portPut_cntGet (s : State) (p : Nat) (x : HPort) (kk : Nat) : cntGet (Machine.portPut s p x) kk = cntGet s kk := rfl
@[simp] theorem portPut_chGet (s : State) (p : Nat) (x : HPort) (kk : Nat) : chGet (Machine.portPut s p x) kk = chGet s kk := rfl
@[simp] theorem portPut_macGet (s : State) (p : Nat) (x : HPort) (kk : Nat) : macGet (Machine.portPut s p x) kk = macGet s kk := rfl
@[simp] theorem portPut_linkGet (s : State) (p : Nat) (x : HPort) (kk : Nat) : linkGet (Machine.portPut s p x) kk = linkGet s kk := rfl
@[simp] theorem portPut_dirGet (s : State) (p : Nat) (x : HPort) (kk : Nat) : dirGet (Machine.portPut s p x) kk = dirGet s kk := rfl
@[simp] theorem portPut_slotGet (s : State) (p : Nat) (x : HPort) (kk : Nat) : slotGet (Machine.portPut s p x) kk = slotGet s kk := rfl
@[simp] theorem portPut_bwGet (s : State) (p : Nat) (x : HPort) (kk : Nat) : bwGet (Machine.portPut s p x) kk = bwGet s kk := rfl
@[simp] theorem portPut_smpGet (s : State) (p : Nat) (x : HPort) (kk : Nat) : smpGet (Machine.portPut s p x) kk = smpGet s kk := rfl
@[simp] theorem portPut_dtOf (s : State) (p : Nat) (x : HPort) : dtOf (Machine.portPut s p x) = dtOf s := rfl
@[simp] theorem recPut_regs (s : State) (e : Nat) (r : EpRec) : (Machine.recPut s e r).regs = s.regs := rfl
@[simp] theorem recPut_glob (s : State) (e : Nat) (r : EpRec) : (Machine.recPut s e r).glob = s.glob := rfl
@[simp] theorem recPut_pins (s : State) (e : Nat) (r : EpRec) : (Machine.recPut s e r).pins = s.pins := rfl
@[simp] theorem recPut_funcs (s : State) (e : Nat) (r : EpRec) : (Machine.recPut s e r).funcs = s.funcs := rfl
@[simp] theorem recPut_host (s : State) (e : Nat) (r : EpRec) : (Machine.recPut s e r).host = s.host := rfl
@[simp] theorem recPut_log (s : State) (e : Nat) (r : EpRec) : (Machine.recPut s e r).log = s.log := rfl
@[simp] theorem recPut_cnt (s : State) (e : Nat) (r : EpRec) : (Machine.recPut s e r).cnt = s.cnt := rfl
@[simp] theorem recPut_flt (s : State) (e : Nat) (r : EpRec) : (Machine.recPut s e r).flt = s.flt := rfl
@[simp] theorem recPut_upd (s : State) (e : Nat) (r : EpRec) : (Machine.recPut s e r).upd = s.upd := rfl
@[simp] theorem recPut_boot (s : State) (e : Nat) (r : EpRec) : (Machine.recPut s e r).boot = s.boot := rfl
@[simp] theorem recPut_time (s : State) (e : Nat) (r : EpRec) : (Machine.recPut s e r).time = s.time := rfl
@[simp] theorem recPut_harn (s : State) (e : Nat) (r : EpRec) : (Machine.recPut s e r).harn = s.harn := rfl
@[simp] theorem recPut_rp (s : State) (e : Nat) (r : EpRec) : (Machine.recPut s e r).rp = s.rp := rfl
@[simp] theorem recPut_keys (s : State) (e : Nat) (r : EpRec) : (Machine.recPut s e r).keys = s.keys := rfl
@[simp] theorem recPut_sealU (s : State) (e : Nat) (r : EpRec) : (Machine.recPut s e r).sealU = s.sealU := rfl
@[simp] theorem recPut_ce (s : State) (e : Nat) (r : EpRec) : (Machine.recPut s e r).ce = s.ce := rfl
@[simp] theorem recPut_bill (s : State) (e : Nat) (r : EpRec) : (Machine.recPut s e r).bill = s.bill := rfl
@[simp] theorem recPut_chan (s : State) (e : Nat) (r : EpRec) : (Machine.recPut s e r).chan = s.chan := rfl
@[simp] theorem recPut_cmd (s : State) (e : Nat) (r : EpRec) : (Machine.recPut s e r).cmd = s.cmd := rfl
@[simp] theorem recPut_air (s : State) (e : Nat) (r : EpRec) : (Machine.recPut s e r).air = s.air := rfl
@[simp] theorem recPut_store (s : State) (e : Nat) (r : EpRec) : (Machine.recPut s e r).store = s.store := rfl
@[simp] theorem recPut_met (s : State) (e : Nat) (r : EpRec) : (Machine.recPut s e r).met = s.met := rfl
@[simp] theorem recPut_hostMem (s : State) (e : Nat) (r : EpRec) : (Machine.recPut s e r).hostMem = s.hostMem := rfl
@[simp] theorem recPut_wire (s : State) (e : Nat) (r : EpRec) : (Machine.recPut s e r).wire = s.wire := rfl
@[simp] theorem recPut_tcxo (s : State) (e : Nat) (r : EpRec) : (Machine.recPut s e r).tcxo = s.tcxo := rfl
@[simp] theorem recPut_free (s : State) (e : Nat) (r : EpRec) : (Machine.recPut s e r).free = s.free := rfl
@[simp] theorem recPut_pending (s : State) (e : Nat) (r : EpRec) : (Machine.recPut s e r).pending = s.pending := rfl
@[simp] theorem recPut_recs_pins (s : State) (e : Nat) (r : EpRec) : (Machine.recPut s e r).recs.pins = s.recs.pins := rfl
@[simp] theorem recPut_recs_retire (s : State) (e : Nat) (r : EpRec) : (Machine.recPut s e r).recs.retire = s.recs.retire := rfl
@[simp] theorem recPut_recs_dramMib (s : State) (e : Nat) (r : EpRec) : (Machine.recPut s e r).recs.dramMib = s.recs.dramMib := rfl
@[simp] theorem recPut_recs_owner (s : State) (e : Nat) (r : EpRec) : (Machine.recPut s e r).recs.owner = s.recs.owner := rfl
@[simp] theorem recPut_recs_epoch (s : State) (e : Nat) (r : EpRec) : (Machine.recPut s e r).recs.epoch = s.recs.epoch := rfl
@[simp] theorem recPut_recs_fmt (s : State) (e : Nat) (r : EpRec) : (Machine.recPut s e r).recs.fmt = s.recs.fmt := rfl
@[simp] theorem recPut_recs_migrate (s : State) (e : Nat) (r : EpRec) : (Machine.recPut s e r).recs.migrate = s.recs.migrate := rfl
@[simp] theorem recPut_recs_jtail (s : State) (e : Nat) (r : EpRec) : (Machine.recPut s e r).recs.jtail = s.recs.jtail := rfl
@[simp] theorem recPut_recs_jwait (s : State) (e : Nat) (r : EpRec) : (Machine.recPut s e r).recs.jwait = s.recs.jwait := rfl
@[simp] theorem recPut_recs_jseq (s : State) (e : Nat) (r : EpRec) : (Machine.recPut s e r).recs.jseq = s.recs.jseq := rfl
@[simp] theorem recPut_recs_durable (s : State) (e : Nat) (r : EpRec) : (Machine.recPut s e r).recs.durable = s.recs.durable := rfl
@[simp] theorem recPut_recs_ckptCnt (s : State) (e : Nat) (r : EpRec) : (Machine.recPut s e r).recs.ckptCnt = s.recs.ckptCnt := rfl
@[simp] theorem recPut_recs_ckptAct (s : State) (e : Nat) (r : EpRec) : (Machine.recPut s e r).recs.ckptAct = s.recs.ckptAct := rfl
@[simp] theorem recPut_recs_ckptAt (s : State) (e : Nat) (r : EpRec) : (Machine.recPut s e r).recs.ckptAt = s.recs.ckptAt := rfl
@[simp] theorem recPut_recs_ckpt (s : State) (e : Nat) (r : EpRec) : (Machine.recPut s e r).recs.ckpt = s.recs.ckpt := rfl
@[simp] theorem recPut_recs_ckptEnts (s : State) (e : Nat) (r : EpRec) : (Machine.recPut s e r).recs.ckptEnts = s.recs.ckptEnts := rfl
@[simp] theorem recPut_recs_jnand (s : State) (e : Nat) (r : EpRec) : (Machine.recPut s e r).recs.jnand = s.recs.jnand := rfl
@[simp] theorem recPut_regGet (s : State) (e : Nat) (r : EpRec) (kk : Nat) : regGet (Machine.recPut s e r) kk = regGet s kk := rfl
@[simp] theorem recPut_sqGet (s : State) (e : Nat) (r : EpRec) (kk : Nat) : sqGet (Machine.recPut s e r) kk = sqGet s kk := rfl
@[simp] theorem recPut_cqGet (s : State) (e : Nat) (r : EpRec) (kk : Nat) : cqGet (Machine.recPut s e r) kk = cqGet s kk := rfl
@[simp] theorem recPut_rrGet (s : State) (e : Nat) (r : EpRec) (kk : Nat) : rrGet (Machine.recPut s e r) kk = rrGet s kk := rfl
@[simp] theorem recPut_fnGet (s : State) (e : Nat) (r : EpRec) (kk : Nat) : fnGet (Machine.recPut s e r) kk = fnGet s kk := rfl
@[simp] theorem recPut_pinGet (s : State) (e : Nat) (r : EpRec) (kk : Nat) : pinGet (Machine.recPut s e r) kk = pinGet s kk := rfl
@[simp] theorem recPut_cntGet (s : State) (e : Nat) (r : EpRec) (kk : Nat) : cntGet (Machine.recPut s e r) kk = cntGet s kk := rfl
@[simp] theorem recPut_chGet (s : State) (e : Nat) (r : EpRec) (kk : Nat) : chGet (Machine.recPut s e r) kk = chGet s kk := rfl
@[simp] theorem recPut_macGet (s : State) (e : Nat) (r : EpRec) (kk : Nat) : macGet (Machine.recPut s e r) kk = macGet s kk := rfl
@[simp] theorem recPut_linkGet (s : State) (e : Nat) (r : EpRec) (kk : Nat) : linkGet (Machine.recPut s e r) kk = linkGet s kk := rfl
@[simp] theorem recPut_dirGet (s : State) (e : Nat) (r : EpRec) (kk : Nat) : dirGet (Machine.recPut s e r) kk = dirGet s kk := rfl
@[simp] theorem recPut_slotGet (s : State) (e : Nat) (r : EpRec) (kk : Nat) : slotGet (Machine.recPut s e r) kk = slotGet s kk := rfl
@[simp] theorem recPut_bwGet (s : State) (e : Nat) (r : EpRec) (kk : Nat) : bwGet (Machine.recPut s e r) kk = bwGet s kk := rfl
@[simp] theorem recPut_smpGet (s : State) (e : Nat) (r : EpRec) (kk : Nat) : smpGet (Machine.recPut s e r) kk = smpGet s kk := rfl
@[simp] theorem recPut_dtOf (s : State) (e : Nat) (r : EpRec) : dtOf (Machine.recPut s e r) = dtOf s := rfl
@[simp] theorem pinPut_regs (s : State) (e : Nat) (p : PinEnt) : (Machine.pinPut s e p).regs = s.regs := rfl
@[simp] theorem pinPut_glob (s : State) (e : Nat) (p : PinEnt) : (Machine.pinPut s e p).glob = s.glob := rfl
@[simp] theorem pinPut_pins (s : State) (e : Nat) (p : PinEnt) : (Machine.pinPut s e p).pins = s.pins := rfl
@[simp] theorem pinPut_funcs (s : State) (e : Nat) (p : PinEnt) : (Machine.pinPut s e p).funcs = s.funcs := rfl
@[simp] theorem pinPut_host (s : State) (e : Nat) (p : PinEnt) : (Machine.pinPut s e p).host = s.host := rfl
@[simp] theorem pinPut_log (s : State) (e : Nat) (p : PinEnt) : (Machine.pinPut s e p).log = s.log := rfl
@[simp] theorem pinPut_cnt (s : State) (e : Nat) (p : PinEnt) : (Machine.pinPut s e p).cnt = s.cnt := rfl
@[simp] theorem pinPut_flt (s : State) (e : Nat) (p : PinEnt) : (Machine.pinPut s e p).flt = s.flt := rfl
@[simp] theorem pinPut_upd (s : State) (e : Nat) (p : PinEnt) : (Machine.pinPut s e p).upd = s.upd := rfl
@[simp] theorem pinPut_boot (s : State) (e : Nat) (p : PinEnt) : (Machine.pinPut s e p).boot = s.boot := rfl
@[simp] theorem pinPut_time (s : State) (e : Nat) (p : PinEnt) : (Machine.pinPut s e p).time = s.time := rfl
@[simp] theorem pinPut_harn (s : State) (e : Nat) (p : PinEnt) : (Machine.pinPut s e p).harn = s.harn := rfl
@[simp] theorem pinPut_rp (s : State) (e : Nat) (p : PinEnt) : (Machine.pinPut s e p).rp = s.rp := rfl
@[simp] theorem pinPut_keys (s : State) (e : Nat) (p : PinEnt) : (Machine.pinPut s e p).keys = s.keys := rfl
@[simp] theorem pinPut_sealU (s : State) (e : Nat) (p : PinEnt) : (Machine.pinPut s e p).sealU = s.sealU := rfl
@[simp] theorem pinPut_ce (s : State) (e : Nat) (p : PinEnt) : (Machine.pinPut s e p).ce = s.ce := rfl
@[simp] theorem pinPut_bill (s : State) (e : Nat) (p : PinEnt) : (Machine.pinPut s e p).bill = s.bill := rfl
@[simp] theorem pinPut_chan (s : State) (e : Nat) (p : PinEnt) : (Machine.pinPut s e p).chan = s.chan := rfl
@[simp] theorem pinPut_cmd (s : State) (e : Nat) (p : PinEnt) : (Machine.pinPut s e p).cmd = s.cmd := rfl
@[simp] theorem pinPut_air (s : State) (e : Nat) (p : PinEnt) : (Machine.pinPut s e p).air = s.air := rfl
@[simp] theorem pinPut_store (s : State) (e : Nat) (p : PinEnt) : (Machine.pinPut s e p).store = s.store := rfl
@[simp] theorem pinPut_met (s : State) (e : Nat) (p : PinEnt) : (Machine.pinPut s e p).met = s.met := rfl
@[simp] theorem pinPut_hostMem (s : State) (e : Nat) (p : PinEnt) : (Machine.pinPut s e p).hostMem = s.hostMem := rfl
@[simp] theorem pinPut_wire (s : State) (e : Nat) (p : PinEnt) : (Machine.pinPut s e p).wire = s.wire := rfl
@[simp] theorem pinPut_tcxo (s : State) (e : Nat) (p : PinEnt) : (Machine.pinPut s e p).tcxo = s.tcxo := rfl
@[simp] theorem pinPut_free (s : State) (e : Nat) (p : PinEnt) : (Machine.pinPut s e p).free = s.free := rfl
@[simp] theorem pinPut_pending (s : State) (e : Nat) (p : PinEnt) : (Machine.pinPut s e p).pending = s.pending := rfl
@[simp] theorem pinPut_recs_tab (s : State) (e : Nat) (p : PinEnt) : (Machine.pinPut s e p).recs.tab = s.recs.tab := rfl
@[simp] theorem pinPut_recs_retire (s : State) (e : Nat) (p : PinEnt) : (Machine.pinPut s e p).recs.retire = s.recs.retire := rfl
@[simp] theorem pinPut_recs_dramMib (s : State) (e : Nat) (p : PinEnt) : (Machine.pinPut s e p).recs.dramMib = s.recs.dramMib := rfl
@[simp] theorem pinPut_recs_owner (s : State) (e : Nat) (p : PinEnt) : (Machine.pinPut s e p).recs.owner = s.recs.owner := rfl
@[simp] theorem pinPut_recs_epoch (s : State) (e : Nat) (p : PinEnt) : (Machine.pinPut s e p).recs.epoch = s.recs.epoch := rfl
@[simp] theorem pinPut_recs_fmt (s : State) (e : Nat) (p : PinEnt) : (Machine.pinPut s e p).recs.fmt = s.recs.fmt := rfl
@[simp] theorem pinPut_recs_migrate (s : State) (e : Nat) (p : PinEnt) : (Machine.pinPut s e p).recs.migrate = s.recs.migrate := rfl
@[simp] theorem pinPut_recs_jtail (s : State) (e : Nat) (p : PinEnt) : (Machine.pinPut s e p).recs.jtail = s.recs.jtail := rfl
@[simp] theorem pinPut_recs_jwait (s : State) (e : Nat) (p : PinEnt) : (Machine.pinPut s e p).recs.jwait = s.recs.jwait := rfl
@[simp] theorem pinPut_recs_jseq (s : State) (e : Nat) (p : PinEnt) : (Machine.pinPut s e p).recs.jseq = s.recs.jseq := rfl
@[simp] theorem pinPut_recs_durable (s : State) (e : Nat) (p : PinEnt) : (Machine.pinPut s e p).recs.durable = s.recs.durable := rfl
@[simp] theorem pinPut_recs_ckptCnt (s : State) (e : Nat) (p : PinEnt) : (Machine.pinPut s e p).recs.ckptCnt = s.recs.ckptCnt := rfl
@[simp] theorem pinPut_recs_ckptAct (s : State) (e : Nat) (p : PinEnt) : (Machine.pinPut s e p).recs.ckptAct = s.recs.ckptAct := rfl
@[simp] theorem pinPut_recs_ckptAt (s : State) (e : Nat) (p : PinEnt) : (Machine.pinPut s e p).recs.ckptAt = s.recs.ckptAt := rfl
@[simp] theorem pinPut_recs_ckpt (s : State) (e : Nat) (p : PinEnt) : (Machine.pinPut s e p).recs.ckpt = s.recs.ckpt := rfl
@[simp] theorem pinPut_recs_ckptEnts (s : State) (e : Nat) (p : PinEnt) : (Machine.pinPut s e p).recs.ckptEnts = s.recs.ckptEnts := rfl
@[simp] theorem pinPut_recs_jnand (s : State) (e : Nat) (p : PinEnt) : (Machine.pinPut s e p).recs.jnand = s.recs.jnand := rfl
@[simp] theorem pinPut_regGet (s : State) (e : Nat) (p : PinEnt) (kk : Nat) : regGet (Machine.pinPut s e p) kk = regGet s kk := rfl
@[simp] theorem pinPut_sqGet (s : State) (e : Nat) (p : PinEnt) (kk : Nat) : sqGet (Machine.pinPut s e p) kk = sqGet s kk := rfl
@[simp] theorem pinPut_cqGet (s : State) (e : Nat) (p : PinEnt) (kk : Nat) : cqGet (Machine.pinPut s e p) kk = cqGet s kk := rfl
@[simp] theorem pinPut_rrGet (s : State) (e : Nat) (p : PinEnt) (kk : Nat) : rrGet (Machine.pinPut s e p) kk = rrGet s kk := rfl
@[simp] theorem pinPut_fnGet (s : State) (e : Nat) (p : PinEnt) (kk : Nat) : fnGet (Machine.pinPut s e p) kk = fnGet s kk := rfl
@[simp] theorem pinPut_recGet (s : State) (e : Nat) (p : PinEnt) (kk : Nat) : recGet (Machine.pinPut s e p) kk = recGet s kk := rfl
@[simp] theorem pinPut_cntGet (s : State) (e : Nat) (p : PinEnt) (kk : Nat) : cntGet (Machine.pinPut s e p) kk = cntGet s kk := rfl
@[simp] theorem pinPut_chGet (s : State) (e : Nat) (p : PinEnt) (kk : Nat) : chGet (Machine.pinPut s e p) kk = chGet s kk := rfl
@[simp] theorem pinPut_macGet (s : State) (e : Nat) (p : PinEnt) (kk : Nat) : macGet (Machine.pinPut s e p) kk = macGet s kk := rfl
@[simp] theorem pinPut_linkGet (s : State) (e : Nat) (p : PinEnt) (kk : Nat) : linkGet (Machine.pinPut s e p) kk = linkGet s kk := rfl
@[simp] theorem pinPut_dirGet (s : State) (e : Nat) (p : PinEnt) (kk : Nat) : dirGet (Machine.pinPut s e p) kk = dirGet s kk := rfl
@[simp] theorem pinPut_slotGet (s : State) (e : Nat) (p : PinEnt) (kk : Nat) : slotGet (Machine.pinPut s e p) kk = slotGet s kk := rfl
@[simp] theorem pinPut_bwGet (s : State) (e : Nat) (p : PinEnt) (kk : Nat) : bwGet (Machine.pinPut s e p) kk = bwGet s kk := rfl
@[simp] theorem pinPut_smpGet (s : State) (e : Nat) (p : PinEnt) (kk : Nat) : smpGet (Machine.pinPut s e p) kk = smpGet s kk := rfl
@[simp] theorem pinPut_dtOf (s : State) (e : Nat) (p : PinEnt) : dtOf (Machine.pinPut s e p) = dtOf s := rfl
@[simp] theorem dirPut_regs (s : State) (h : Nat) (d : DirEnt) : (Machine.dirPut s h d).regs = s.regs := rfl
@[simp] theorem dirPut_glob (s : State) (h : Nat) (d : DirEnt) : (Machine.dirPut s h d).glob = s.glob := rfl
@[simp] theorem dirPut_pins (s : State) (h : Nat) (d : DirEnt) : (Machine.dirPut s h d).pins = s.pins := rfl
@[simp] theorem dirPut_funcs (s : State) (h : Nat) (d : DirEnt) : (Machine.dirPut s h d).funcs = s.funcs := rfl
@[simp] theorem dirPut_host (s : State) (h : Nat) (d : DirEnt) : (Machine.dirPut s h d).host = s.host := rfl
@[simp] theorem dirPut_log (s : State) (h : Nat) (d : DirEnt) : (Machine.dirPut s h d).log = s.log := rfl
@[simp] theorem dirPut_cnt (s : State) (h : Nat) (d : DirEnt) : (Machine.dirPut s h d).cnt = s.cnt := rfl
@[simp] theorem dirPut_flt (s : State) (h : Nat) (d : DirEnt) : (Machine.dirPut s h d).flt = s.flt := rfl
@[simp] theorem dirPut_recs (s : State) (h : Nat) (d : DirEnt) : (Machine.dirPut s h d).recs = s.recs := rfl
@[simp] theorem dirPut_upd (s : State) (h : Nat) (d : DirEnt) : (Machine.dirPut s h d).upd = s.upd := rfl
@[simp] theorem dirPut_boot (s : State) (h : Nat) (d : DirEnt) : (Machine.dirPut s h d).boot = s.boot := rfl
@[simp] theorem dirPut_time (s : State) (h : Nat) (d : DirEnt) : (Machine.dirPut s h d).time = s.time := rfl
@[simp] theorem dirPut_harn (s : State) (h : Nat) (d : DirEnt) : (Machine.dirPut s h d).harn = s.harn := rfl
@[simp] theorem dirPut_rp (s : State) (h : Nat) (d : DirEnt) : (Machine.dirPut s h d).rp = s.rp := rfl
@[simp] theorem dirPut_sealU (s : State) (h : Nat) (d : DirEnt) : (Machine.dirPut s h d).sealU = s.sealU := rfl
@[simp] theorem dirPut_ce (s : State) (h : Nat) (d : DirEnt) : (Machine.dirPut s h d).ce = s.ce := rfl
@[simp] theorem dirPut_bill (s : State) (h : Nat) (d : DirEnt) : (Machine.dirPut s h d).bill = s.bill := rfl
@[simp] theorem dirPut_chan (s : State) (h : Nat) (d : DirEnt) : (Machine.dirPut s h d).chan = s.chan := rfl
@[simp] theorem dirPut_cmd (s : State) (h : Nat) (d : DirEnt) : (Machine.dirPut s h d).cmd = s.cmd := rfl
@[simp] theorem dirPut_air (s : State) (h : Nat) (d : DirEnt) : (Machine.dirPut s h d).air = s.air := rfl
@[simp] theorem dirPut_store (s : State) (h : Nat) (d : DirEnt) : (Machine.dirPut s h d).store = s.store := rfl
@[simp] theorem dirPut_met (s : State) (h : Nat) (d : DirEnt) : (Machine.dirPut s h d).met = s.met := rfl
@[simp] theorem dirPut_hostMem (s : State) (h : Nat) (d : DirEnt) : (Machine.dirPut s h d).hostMem = s.hostMem := rfl
@[simp] theorem dirPut_wire (s : State) (h : Nat) (d : DirEnt) : (Machine.dirPut s h d).wire = s.wire := rfl
@[simp] theorem dirPut_tcxo (s : State) (h : Nat) (d : DirEnt) : (Machine.dirPut s h d).tcxo = s.tcxo := rfl
@[simp] theorem dirPut_free (s : State) (h : Nat) (d : DirEnt) : (Machine.dirPut s h d).free = s.free := rfl
@[simp] theorem dirPut_pending (s : State) (h : Nat) (d : DirEnt) : (Machine.dirPut s h d).pending = s.pending := rfl
@[simp] theorem dirPut_keys_roots (s : State) (h : Nat) (d : DirEnt) : (Machine.dirPut s h d).keys.roots = s.keys.roots := rfl
@[simp] theorem dirPut_keys_slots (s : State) (h : Nat) (d : DirEnt) : (Machine.dirPut s h d).keys.slots = s.keys.slots := rfl
@[simp] theorem dirPut_keys_missQ (s : State) (h : Nat) (d : DirEnt) : (Machine.dirPut s h d).keys.missQ = s.keys.missQ := rfl
@[simp] theorem dirPut_keys_klData (s : State) (h : Nat) (d : DirEnt) : (Machine.dirPut s h d).keys.klData = s.keys.klData := rfl
@[simp] theorem dirPut_keys_srValid (s : State) (h : Nat) (d : DirEnt) : (Machine.dirPut s h d).keys.srValid = s.keys.srValid := rfl
@[simp] theorem dirPut_keys_fwdValid (s : State) (h : Nat) (d : DirEnt) : (Machine.dirPut s h d).keys.fwdValid = s.keys.fwdValid := rfl
@[simp] theorem dirPut_keys_rootLost (s : State) (h : Nat) (d : DirEnt) : (Machine.dirPut s h d).keys.rootLost = s.keys.rootLost := rfl
@[simp] theorem dirPut_keys_srCur (s : State) (h : Nat) (d : DirEnt) : (Machine.dirPut s h d).keys.srCur = s.keys.srCur := rfl
@[simp] theorem dirPut_keys_srFwd (s : State) (h : Nat) (d : DirEnt) : (Machine.dirPut s h d).keys.srFwd = s.keys.srFwd := rfl
@[simp] theorem dirPut_keys_useNext (s : State) (h : Nat) (d : DirEnt) : (Machine.dirPut s h d).keys.useNext = s.keys.useNext := rfl
@[simp] theorem dirPut_keys_seqs (s : State) (h : Nat) (d : DirEnt) : (Machine.dirPut s h d).keys.seqs = s.keys.seqs := rfl
@[simp] theorem dirPut_regGet (s : State) (h : Nat) (d : DirEnt) (kk : Nat) : regGet (Machine.dirPut s h d) kk = regGet s kk := rfl
@[simp] theorem dirPut_sqGet (s : State) (h : Nat) (d : DirEnt) (kk : Nat) : sqGet (Machine.dirPut s h d) kk = sqGet s kk := rfl
@[simp] theorem dirPut_cqGet (s : State) (h : Nat) (d : DirEnt) (kk : Nat) : cqGet (Machine.dirPut s h d) kk = cqGet s kk := rfl
@[simp] theorem dirPut_rrGet (s : State) (h : Nat) (d : DirEnt) (kk : Nat) : rrGet (Machine.dirPut s h d) kk = rrGet s kk := rfl
@[simp] theorem dirPut_fnGet (s : State) (h : Nat) (d : DirEnt) (kk : Nat) : fnGet (Machine.dirPut s h d) kk = fnGet s kk := rfl
@[simp] theorem dirPut_recGet (s : State) (h : Nat) (d : DirEnt) (kk : Nat) : recGet (Machine.dirPut s h d) kk = recGet s kk := rfl
@[simp] theorem dirPut_pinGet (s : State) (h : Nat) (d : DirEnt) (kk : Nat) : pinGet (Machine.dirPut s h d) kk = pinGet s kk := rfl
@[simp] theorem dirPut_cntGet (s : State) (h : Nat) (d : DirEnt) (kk : Nat) : cntGet (Machine.dirPut s h d) kk = cntGet s kk := rfl
@[simp] theorem dirPut_chGet (s : State) (h : Nat) (d : DirEnt) (kk : Nat) : chGet (Machine.dirPut s h d) kk = chGet s kk := rfl
@[simp] theorem dirPut_macGet (s : State) (h : Nat) (d : DirEnt) (kk : Nat) : macGet (Machine.dirPut s h d) kk = macGet s kk := rfl
@[simp] theorem dirPut_linkGet (s : State) (h : Nat) (d : DirEnt) (kk : Nat) : linkGet (Machine.dirPut s h d) kk = linkGet s kk := rfl
@[simp] theorem dirPut_slotGet (s : State) (h : Nat) (d : DirEnt) (kk : Nat) : slotGet (Machine.dirPut s h d) kk = slotGet s kk := rfl
@[simp] theorem dirPut_bwGet (s : State) (h : Nat) (d : DirEnt) (kk : Nat) : bwGet (Machine.dirPut s h d) kk = bwGet s kk := rfl
@[simp] theorem dirPut_smpGet (s : State) (h : Nat) (d : DirEnt) (kk : Nat) : smpGet (Machine.dirPut s h d) kk = smpGet s kk := rfl
@[simp] theorem dirPut_dtOf (s : State) (h : Nat) (d : DirEnt) : dtOf (Machine.dirPut s h d) = dtOf s := rfl
@[simp] theorem slotPut_regs (s : State) (i : Nat) (x : Slot) : (Machine.slotPut s i x).regs = s.regs := rfl
@[simp] theorem slotPut_glob (s : State) (i : Nat) (x : Slot) : (Machine.slotPut s i x).glob = s.glob := rfl
@[simp] theorem slotPut_pins (s : State) (i : Nat) (x : Slot) : (Machine.slotPut s i x).pins = s.pins := rfl
@[simp] theorem slotPut_funcs (s : State) (i : Nat) (x : Slot) : (Machine.slotPut s i x).funcs = s.funcs := rfl
@[simp] theorem slotPut_host (s : State) (i : Nat) (x : Slot) : (Machine.slotPut s i x).host = s.host := rfl
@[simp] theorem slotPut_log (s : State) (i : Nat) (x : Slot) : (Machine.slotPut s i x).log = s.log := rfl
@[simp] theorem slotPut_cnt (s : State) (i : Nat) (x : Slot) : (Machine.slotPut s i x).cnt = s.cnt := rfl
@[simp] theorem slotPut_flt (s : State) (i : Nat) (x : Slot) : (Machine.slotPut s i x).flt = s.flt := rfl
@[simp] theorem slotPut_recs (s : State) (i : Nat) (x : Slot) : (Machine.slotPut s i x).recs = s.recs := rfl
@[simp] theorem slotPut_upd (s : State) (i : Nat) (x : Slot) : (Machine.slotPut s i x).upd = s.upd := rfl
@[simp] theorem slotPut_boot (s : State) (i : Nat) (x : Slot) : (Machine.slotPut s i x).boot = s.boot := rfl
@[simp] theorem slotPut_time (s : State) (i : Nat) (x : Slot) : (Machine.slotPut s i x).time = s.time := rfl
@[simp] theorem slotPut_harn (s : State) (i : Nat) (x : Slot) : (Machine.slotPut s i x).harn = s.harn := rfl
@[simp] theorem slotPut_rp (s : State) (i : Nat) (x : Slot) : (Machine.slotPut s i x).rp = s.rp := rfl
@[simp] theorem slotPut_sealU (s : State) (i : Nat) (x : Slot) : (Machine.slotPut s i x).sealU = s.sealU := rfl
@[simp] theorem slotPut_ce (s : State) (i : Nat) (x : Slot) : (Machine.slotPut s i x).ce = s.ce := rfl
@[simp] theorem slotPut_bill (s : State) (i : Nat) (x : Slot) : (Machine.slotPut s i x).bill = s.bill := rfl
@[simp] theorem slotPut_chan (s : State) (i : Nat) (x : Slot) : (Machine.slotPut s i x).chan = s.chan := rfl
@[simp] theorem slotPut_cmd (s : State) (i : Nat) (x : Slot) : (Machine.slotPut s i x).cmd = s.cmd := rfl
@[simp] theorem slotPut_air (s : State) (i : Nat) (x : Slot) : (Machine.slotPut s i x).air = s.air := rfl
@[simp] theorem slotPut_store (s : State) (i : Nat) (x : Slot) : (Machine.slotPut s i x).store = s.store := rfl
@[simp] theorem slotPut_met (s : State) (i : Nat) (x : Slot) : (Machine.slotPut s i x).met = s.met := rfl
@[simp] theorem slotPut_hostMem (s : State) (i : Nat) (x : Slot) : (Machine.slotPut s i x).hostMem = s.hostMem := rfl
@[simp] theorem slotPut_wire (s : State) (i : Nat) (x : Slot) : (Machine.slotPut s i x).wire = s.wire := rfl
@[simp] theorem slotPut_tcxo (s : State) (i : Nat) (x : Slot) : (Machine.slotPut s i x).tcxo = s.tcxo := rfl
@[simp] theorem slotPut_free (s : State) (i : Nat) (x : Slot) : (Machine.slotPut s i x).free = s.free := rfl
@[simp] theorem slotPut_pending (s : State) (i : Nat) (x : Slot) : (Machine.slotPut s i x).pending = s.pending := rfl
@[simp] theorem slotPut_keys_roots (s : State) (i : Nat) (x : Slot) : (Machine.slotPut s i x).keys.roots = s.keys.roots := rfl
@[simp] theorem slotPut_keys_dir (s : State) (i : Nat) (x : Slot) : (Machine.slotPut s i x).keys.dir = s.keys.dir := rfl
@[simp] theorem slotPut_keys_missQ (s : State) (i : Nat) (x : Slot) : (Machine.slotPut s i x).keys.missQ = s.keys.missQ := rfl
@[simp] theorem slotPut_keys_klData (s : State) (i : Nat) (x : Slot) : (Machine.slotPut s i x).keys.klData = s.keys.klData := rfl
@[simp] theorem slotPut_keys_srValid (s : State) (i : Nat) (x : Slot) : (Machine.slotPut s i x).keys.srValid = s.keys.srValid := rfl
@[simp] theorem slotPut_keys_fwdValid (s : State) (i : Nat) (x : Slot) : (Machine.slotPut s i x).keys.fwdValid = s.keys.fwdValid := rfl
@[simp] theorem slotPut_keys_rootLost (s : State) (i : Nat) (x : Slot) : (Machine.slotPut s i x).keys.rootLost = s.keys.rootLost := rfl
@[simp] theorem slotPut_keys_srCur (s : State) (i : Nat) (x : Slot) : (Machine.slotPut s i x).keys.srCur = s.keys.srCur := rfl
@[simp] theorem slotPut_keys_srFwd (s : State) (i : Nat) (x : Slot) : (Machine.slotPut s i x).keys.srFwd = s.keys.srFwd := rfl
@[simp] theorem slotPut_keys_useNext (s : State) (i : Nat) (x : Slot) : (Machine.slotPut s i x).keys.useNext = s.keys.useNext := rfl
@[simp] theorem slotPut_keys_seqs (s : State) (i : Nat) (x : Slot) : (Machine.slotPut s i x).keys.seqs = s.keys.seqs := rfl
@[simp] theorem slotPut_regGet (s : State) (i : Nat) (x : Slot) (kk : Nat) : regGet (Machine.slotPut s i x) kk = regGet s kk := rfl
@[simp] theorem slotPut_sqGet (s : State) (i : Nat) (x : Slot) (kk : Nat) : sqGet (Machine.slotPut s i x) kk = sqGet s kk := rfl
@[simp] theorem slotPut_cqGet (s : State) (i : Nat) (x : Slot) (kk : Nat) : cqGet (Machine.slotPut s i x) kk = cqGet s kk := rfl
@[simp] theorem slotPut_rrGet (s : State) (i : Nat) (x : Slot) (kk : Nat) : rrGet (Machine.slotPut s i x) kk = rrGet s kk := rfl
@[simp] theorem slotPut_fnGet (s : State) (i : Nat) (x : Slot) (kk : Nat) : fnGet (Machine.slotPut s i x) kk = fnGet s kk := rfl
@[simp] theorem slotPut_recGet (s : State) (i : Nat) (x : Slot) (kk : Nat) : recGet (Machine.slotPut s i x) kk = recGet s kk := rfl
@[simp] theorem slotPut_pinGet (s : State) (i : Nat) (x : Slot) (kk : Nat) : pinGet (Machine.slotPut s i x) kk = pinGet s kk := rfl
@[simp] theorem slotPut_cntGet (s : State) (i : Nat) (x : Slot) (kk : Nat) : cntGet (Machine.slotPut s i x) kk = cntGet s kk := rfl
@[simp] theorem slotPut_chGet (s : State) (i : Nat) (x : Slot) (kk : Nat) : chGet (Machine.slotPut s i x) kk = chGet s kk := rfl
@[simp] theorem slotPut_macGet (s : State) (i : Nat) (x : Slot) (kk : Nat) : macGet (Machine.slotPut s i x) kk = macGet s kk := rfl
@[simp] theorem slotPut_linkGet (s : State) (i : Nat) (x : Slot) (kk : Nat) : linkGet (Machine.slotPut s i x) kk = linkGet s kk := rfl
@[simp] theorem slotPut_dirGet (s : State) (i : Nat) (x : Slot) (kk : Nat) : dirGet (Machine.slotPut s i x) kk = dirGet s kk := rfl
@[simp] theorem slotPut_bwGet (s : State) (i : Nat) (x : Slot) (kk : Nat) : bwGet (Machine.slotPut s i x) kk = bwGet s kk := rfl
@[simp] theorem slotPut_smpGet (s : State) (i : Nat) (x : Slot) (kk : Nat) : smpGet (Machine.slotPut s i x) kk = smpGet s kk := rfl
@[simp] theorem slotPut_dtOf (s : State) (i : Nat) (x : Slot) : dtOf (Machine.slotPut s i x) = dtOf s := rfl
@[simp] theorem chPut_regs (s : State) (n : Nat) (c : Chan) : (Machine.chPut s n c).regs = s.regs := rfl
@[simp] theorem chPut_glob (s : State) (n : Nat) (c : Chan) : (Machine.chPut s n c).glob = s.glob := rfl
@[simp] theorem chPut_pins (s : State) (n : Nat) (c : Chan) : (Machine.chPut s n c).pins = s.pins := rfl
@[simp] theorem chPut_funcs (s : State) (n : Nat) (c : Chan) : (Machine.chPut s n c).funcs = s.funcs := rfl
@[simp] theorem chPut_host (s : State) (n : Nat) (c : Chan) : (Machine.chPut s n c).host = s.host := rfl
@[simp] theorem chPut_log (s : State) (n : Nat) (c : Chan) : (Machine.chPut s n c).log = s.log := rfl
@[simp] theorem chPut_cnt (s : State) (n : Nat) (c : Chan) : (Machine.chPut s n c).cnt = s.cnt := rfl
@[simp] theorem chPut_flt (s : State) (n : Nat) (c : Chan) : (Machine.chPut s n c).flt = s.flt := rfl
@[simp] theorem chPut_recs (s : State) (n : Nat) (c : Chan) : (Machine.chPut s n c).recs = s.recs := rfl
@[simp] theorem chPut_upd (s : State) (n : Nat) (c : Chan) : (Machine.chPut s n c).upd = s.upd := rfl
@[simp] theorem chPut_boot (s : State) (n : Nat) (c : Chan) : (Machine.chPut s n c).boot = s.boot := rfl
@[simp] theorem chPut_time (s : State) (n : Nat) (c : Chan) : (Machine.chPut s n c).time = s.time := rfl
@[simp] theorem chPut_harn (s : State) (n : Nat) (c : Chan) : (Machine.chPut s n c).harn = s.harn := rfl
@[simp] theorem chPut_rp (s : State) (n : Nat) (c : Chan) : (Machine.chPut s n c).rp = s.rp := rfl
@[simp] theorem chPut_keys (s : State) (n : Nat) (c : Chan) : (Machine.chPut s n c).keys = s.keys := rfl
@[simp] theorem chPut_sealU (s : State) (n : Nat) (c : Chan) : (Machine.chPut s n c).sealU = s.sealU := rfl
@[simp] theorem chPut_ce (s : State) (n : Nat) (c : Chan) : (Machine.chPut s n c).ce = s.ce := rfl
@[simp] theorem chPut_bill (s : State) (n : Nat) (c : Chan) : (Machine.chPut s n c).bill = s.bill := rfl
@[simp] theorem chPut_cmd (s : State) (n : Nat) (c : Chan) : (Machine.chPut s n c).cmd = s.cmd := rfl
@[simp] theorem chPut_air (s : State) (n : Nat) (c : Chan) : (Machine.chPut s n c).air = s.air := rfl
@[simp] theorem chPut_store (s : State) (n : Nat) (c : Chan) : (Machine.chPut s n c).store = s.store := rfl
@[simp] theorem chPut_met (s : State) (n : Nat) (c : Chan) : (Machine.chPut s n c).met = s.met := rfl
@[simp] theorem chPut_hostMem (s : State) (n : Nat) (c : Chan) : (Machine.chPut s n c).hostMem = s.hostMem := rfl
@[simp] theorem chPut_wire (s : State) (n : Nat) (c : Chan) : (Machine.chPut s n c).wire = s.wire := rfl
@[simp] theorem chPut_tcxo (s : State) (n : Nat) (c : Chan) : (Machine.chPut s n c).tcxo = s.tcxo := rfl
@[simp] theorem chPut_free (s : State) (n : Nat) (c : Chan) : (Machine.chPut s n c).free = s.free := rfl
@[simp] theorem chPut_pending (s : State) (n : Nat) (c : Chan) : (Machine.chPut s n c).pending = s.pending := rfl
@[simp] theorem chPut_chan_banks (s : State) (n : Nat) (c : Chan) : (Machine.chPut s n c).chan.banks = s.chan.banks := rfl
@[simp] theorem chPut_chan_frNext (s : State) (n : Nat) (c : Chan) : (Machine.chPut s n c).chan.frNext = s.chan.frNext := rfl
@[simp] theorem chPut_chan_draws (s : State) (n : Nat) (c : Chan) : (Machine.chPut s n c).chan.draws = s.chan.draws := rfl
@[simp] theorem chPut_regGet (s : State) (n : Nat) (c : Chan) (kk : Nat) : regGet (Machine.chPut s n c) kk = regGet s kk := rfl
@[simp] theorem chPut_sqGet (s : State) (n : Nat) (c : Chan) (kk : Nat) : sqGet (Machine.chPut s n c) kk = sqGet s kk := rfl
@[simp] theorem chPut_cqGet (s : State) (n : Nat) (c : Chan) (kk : Nat) : cqGet (Machine.chPut s n c) kk = cqGet s kk := rfl
@[simp] theorem chPut_rrGet (s : State) (n : Nat) (c : Chan) (kk : Nat) : rrGet (Machine.chPut s n c) kk = rrGet s kk := rfl
@[simp] theorem chPut_fnGet (s : State) (n : Nat) (c : Chan) (kk : Nat) : fnGet (Machine.chPut s n c) kk = fnGet s kk := rfl
@[simp] theorem chPut_recGet (s : State) (n : Nat) (c : Chan) (kk : Nat) : recGet (Machine.chPut s n c) kk = recGet s kk := rfl
@[simp] theorem chPut_pinGet (s : State) (n : Nat) (c : Chan) (kk : Nat) : pinGet (Machine.chPut s n c) kk = pinGet s kk := rfl
@[simp] theorem chPut_cntGet (s : State) (n : Nat) (c : Chan) (kk : Nat) : cntGet (Machine.chPut s n c) kk = cntGet s kk := rfl
@[simp] theorem chPut_macGet (s : State) (n : Nat) (c : Chan) (kk : Nat) : macGet (Machine.chPut s n c) kk = macGet s kk := rfl
@[simp] theorem chPut_linkGet (s : State) (n : Nat) (c : Chan) (kk : Nat) : linkGet (Machine.chPut s n c) kk = linkGet s kk := rfl
@[simp] theorem chPut_dirGet (s : State) (n : Nat) (c : Chan) (kk : Nat) : dirGet (Machine.chPut s n c) kk = dirGet s kk := rfl
@[simp] theorem chPut_slotGet (s : State) (n : Nat) (c : Chan) (kk : Nat) : slotGet (Machine.chPut s n c) kk = slotGet s kk := rfl
@[simp] theorem chPut_bwGet (s : State) (n : Nat) (c : Chan) (kk : Nat) : bwGet (Machine.chPut s n c) kk = bwGet s kk := rfl
@[simp] theorem chPut_smpGet (s : State) (n : Nat) (c : Chan) (kk : Nat) : smpGet (Machine.chPut s n c) kk = smpGet s kk := rfl
@[simp] theorem chPut_dtOf (s : State) (n : Nat) (c : Chan) : dtOf (Machine.chPut s n c) = dtOf s := rfl
@[simp] theorem linkPut_regs (s : State) (e : Nat) (l : MLink) : (Machine.linkPut s e l).regs = s.regs := rfl
@[simp] theorem linkPut_glob (s : State) (e : Nat) (l : MLink) : (Machine.linkPut s e l).glob = s.glob := rfl
@[simp] theorem linkPut_pins (s : State) (e : Nat) (l : MLink) : (Machine.linkPut s e l).pins = s.pins := rfl
@[simp] theorem linkPut_funcs (s : State) (e : Nat) (l : MLink) : (Machine.linkPut s e l).funcs = s.funcs := rfl
@[simp] theorem linkPut_host (s : State) (e : Nat) (l : MLink) : (Machine.linkPut s e l).host = s.host := rfl
@[simp] theorem linkPut_log (s : State) (e : Nat) (l : MLink) : (Machine.linkPut s e l).log = s.log := rfl
@[simp] theorem linkPut_cnt (s : State) (e : Nat) (l : MLink) : (Machine.linkPut s e l).cnt = s.cnt := rfl
@[simp] theorem linkPut_flt (s : State) (e : Nat) (l : MLink) : (Machine.linkPut s e l).flt = s.flt := rfl
@[simp] theorem linkPut_recs (s : State) (e : Nat) (l : MLink) : (Machine.linkPut s e l).recs = s.recs := rfl
@[simp] theorem linkPut_upd (s : State) (e : Nat) (l : MLink) : (Machine.linkPut s e l).upd = s.upd := rfl
@[simp] theorem linkPut_boot (s : State) (e : Nat) (l : MLink) : (Machine.linkPut s e l).boot = s.boot := rfl
@[simp] theorem linkPut_time (s : State) (e : Nat) (l : MLink) : (Machine.linkPut s e l).time = s.time := rfl
@[simp] theorem linkPut_harn (s : State) (e : Nat) (l : MLink) : (Machine.linkPut s e l).harn = s.harn := rfl
@[simp] theorem linkPut_rp (s : State) (e : Nat) (l : MLink) : (Machine.linkPut s e l).rp = s.rp := rfl
@[simp] theorem linkPut_keys (s : State) (e : Nat) (l : MLink) : (Machine.linkPut s e l).keys = s.keys := rfl
@[simp] theorem linkPut_sealU (s : State) (e : Nat) (l : MLink) : (Machine.linkPut s e l).sealU = s.sealU := rfl
@[simp] theorem linkPut_ce (s : State) (e : Nat) (l : MLink) : (Machine.linkPut s e l).ce = s.ce := rfl
@[simp] theorem linkPut_bill (s : State) (e : Nat) (l : MLink) : (Machine.linkPut s e l).bill = s.bill := rfl
@[simp] theorem linkPut_chan (s : State) (e : Nat) (l : MLink) : (Machine.linkPut s e l).chan = s.chan := rfl
@[simp] theorem linkPut_cmd (s : State) (e : Nat) (l : MLink) : (Machine.linkPut s e l).cmd = s.cmd := rfl
@[simp] theorem linkPut_store (s : State) (e : Nat) (l : MLink) : (Machine.linkPut s e l).store = s.store := rfl
@[simp] theorem linkPut_met (s : State) (e : Nat) (l : MLink) : (Machine.linkPut s e l).met = s.met := rfl
@[simp] theorem linkPut_hostMem (s : State) (e : Nat) (l : MLink) : (Machine.linkPut s e l).hostMem = s.hostMem := rfl
@[simp] theorem linkPut_wire (s : State) (e : Nat) (l : MLink) : (Machine.linkPut s e l).wire = s.wire := rfl
@[simp] theorem linkPut_tcxo (s : State) (e : Nat) (l : MLink) : (Machine.linkPut s e l).tcxo = s.tcxo := rfl
@[simp] theorem linkPut_free (s : State) (e : Nat) (l : MLink) : (Machine.linkPut s e l).free = s.free := rfl
@[simp] theorem linkPut_pending (s : State) (e : Nat) (l : MLink) : (Machine.linkPut s e l).pending = s.pending := rfl
@[simp] theorem linkPut_air_plan (s : State) (e : Nat) (l : MLink) : (Machine.linkPut s e l).air.plan = s.air.plan := rfl
@[simp] theorem linkPut_air_sfOffset (s : State) (e : Nat) (l : MLink) : (Machine.linkPut s e l).air.sfOffset = s.air.sfOffset := rfl
@[simp] theorem linkPut_air_mac (s : State) (e : Nat) (l : MLink) : (Machine.linkPut s e l).air.mac = s.air.mac := rfl
@[simp] theorem linkPut_air_duty (s : State) (e : Nat) (l : MLink) : (Machine.linkPut s e l).air.duty = s.air.duty := rfl
@[simp] theorem linkPut_air_grants (s : State) (e : Nat) (l : MLink) : (Machine.linkPut s e l).air.grants = s.air.grants := rfl
@[simp] theorem linkPut_regGet (s : State) (e : Nat) (l : MLink) (kk : Nat) : regGet (Machine.linkPut s e l) kk = regGet s kk := rfl
@[simp] theorem linkPut_sqGet (s : State) (e : Nat) (l : MLink) (kk : Nat) : sqGet (Machine.linkPut s e l) kk = sqGet s kk := rfl
@[simp] theorem linkPut_cqGet (s : State) (e : Nat) (l : MLink) (kk : Nat) : cqGet (Machine.linkPut s e l) kk = cqGet s kk := rfl
@[simp] theorem linkPut_rrGet (s : State) (e : Nat) (l : MLink) (kk : Nat) : rrGet (Machine.linkPut s e l) kk = rrGet s kk := rfl
@[simp] theorem linkPut_fnGet (s : State) (e : Nat) (l : MLink) (kk : Nat) : fnGet (Machine.linkPut s e l) kk = fnGet s kk := rfl
@[simp] theorem linkPut_recGet (s : State) (e : Nat) (l : MLink) (kk : Nat) : recGet (Machine.linkPut s e l) kk = recGet s kk := rfl
@[simp] theorem linkPut_pinGet (s : State) (e : Nat) (l : MLink) (kk : Nat) : pinGet (Machine.linkPut s e l) kk = pinGet s kk := rfl
@[simp] theorem linkPut_cntGet (s : State) (e : Nat) (l : MLink) (kk : Nat) : cntGet (Machine.linkPut s e l) kk = cntGet s kk := rfl
@[simp] theorem linkPut_chGet (s : State) (e : Nat) (l : MLink) (kk : Nat) : chGet (Machine.linkPut s e l) kk = chGet s kk := rfl
@[simp] theorem linkPut_macGet (s : State) (e : Nat) (l : MLink) (kk : Nat) : macGet (Machine.linkPut s e l) kk = macGet s kk := rfl
@[simp] theorem linkPut_dirGet (s : State) (e : Nat) (l : MLink) (kk : Nat) : dirGet (Machine.linkPut s e l) kk = dirGet s kk := rfl
@[simp] theorem linkPut_slotGet (s : State) (e : Nat) (l : MLink) (kk : Nat) : slotGet (Machine.linkPut s e l) kk = slotGet s kk := rfl
@[simp] theorem linkPut_bwGet (s : State) (e : Nat) (l : MLink) (kk : Nat) : bwGet (Machine.linkPut s e l) kk = bwGet s kk := rfl
@[simp] theorem linkPut_smpGet (s : State) (e : Nat) (l : MLink) (kk : Nat) : smpGet (Machine.linkPut s e l) kk = smpGet s kk := rfl
@[simp] theorem linkPut_dtOf (s : State) (e : Nat) (l : MLink) : dtOf (Machine.linkPut s e l) = dtOf s := rfl
@[simp] theorem macPut_regs (s : State) (c : Nat) (m : MacCh) : (Machine.macPut s c m).regs = s.regs := rfl
@[simp] theorem macPut_glob (s : State) (c : Nat) (m : MacCh) : (Machine.macPut s c m).glob = s.glob := rfl
@[simp] theorem macPut_pins (s : State) (c : Nat) (m : MacCh) : (Machine.macPut s c m).pins = s.pins := rfl
@[simp] theorem macPut_funcs (s : State) (c : Nat) (m : MacCh) : (Machine.macPut s c m).funcs = s.funcs := rfl
@[simp] theorem macPut_host (s : State) (c : Nat) (m : MacCh) : (Machine.macPut s c m).host = s.host := rfl
@[simp] theorem macPut_log (s : State) (c : Nat) (m : MacCh) : (Machine.macPut s c m).log = s.log := rfl
@[simp] theorem macPut_cnt (s : State) (c : Nat) (m : MacCh) : (Machine.macPut s c m).cnt = s.cnt := rfl
@[simp] theorem macPut_flt (s : State) (c : Nat) (m : MacCh) : (Machine.macPut s c m).flt = s.flt := rfl
@[simp] theorem macPut_recs (s : State) (c : Nat) (m : MacCh) : (Machine.macPut s c m).recs = s.recs := rfl
@[simp] theorem macPut_upd (s : State) (c : Nat) (m : MacCh) : (Machine.macPut s c m).upd = s.upd := rfl
@[simp] theorem macPut_boot (s : State) (c : Nat) (m : MacCh) : (Machine.macPut s c m).boot = s.boot := rfl
@[simp] theorem macPut_time (s : State) (c : Nat) (m : MacCh) : (Machine.macPut s c m).time = s.time := rfl
@[simp] theorem macPut_harn (s : State) (c : Nat) (m : MacCh) : (Machine.macPut s c m).harn = s.harn := rfl
@[simp] theorem macPut_rp (s : State) (c : Nat) (m : MacCh) : (Machine.macPut s c m).rp = s.rp := rfl
@[simp] theorem macPut_keys (s : State) (c : Nat) (m : MacCh) : (Machine.macPut s c m).keys = s.keys := rfl
@[simp] theorem macPut_sealU (s : State) (c : Nat) (m : MacCh) : (Machine.macPut s c m).sealU = s.sealU := rfl
@[simp] theorem macPut_ce (s : State) (c : Nat) (m : MacCh) : (Machine.macPut s c m).ce = s.ce := rfl
@[simp] theorem macPut_bill (s : State) (c : Nat) (m : MacCh) : (Machine.macPut s c m).bill = s.bill := rfl
@[simp] theorem macPut_chan (s : State) (c : Nat) (m : MacCh) : (Machine.macPut s c m).chan = s.chan := rfl
@[simp] theorem macPut_cmd (s : State) (c : Nat) (m : MacCh) : (Machine.macPut s c m).cmd = s.cmd := rfl
@[simp] theorem macPut_store (s : State) (c : Nat) (m : MacCh) : (Machine.macPut s c m).store = s.store := rfl
@[simp] theorem macPut_met (s : State) (c : Nat) (m : MacCh) : (Machine.macPut s c m).met = s.met := rfl
@[simp] theorem macPut_hostMem (s : State) (c : Nat) (m : MacCh) : (Machine.macPut s c m).hostMem = s.hostMem := rfl
@[simp] theorem macPut_wire (s : State) (c : Nat) (m : MacCh) : (Machine.macPut s c m).wire = s.wire := rfl
@[simp] theorem macPut_tcxo (s : State) (c : Nat) (m : MacCh) : (Machine.macPut s c m).tcxo = s.tcxo := rfl
@[simp] theorem macPut_free (s : State) (c : Nat) (m : MacCh) : (Machine.macPut s c m).free = s.free := rfl
@[simp] theorem macPut_pending (s : State) (c : Nat) (m : MacCh) : (Machine.macPut s c m).pending = s.pending := rfl
@[simp] theorem macPut_air_plan (s : State) (c : Nat) (m : MacCh) : (Machine.macPut s c m).air.plan = s.air.plan := rfl
@[simp] theorem macPut_air_sfOffset (s : State) (c : Nat) (m : MacCh) : (Machine.macPut s c m).air.sfOffset = s.air.sfOffset := rfl
@[simp] theorem macPut_air_links (s : State) (c : Nat) (m : MacCh) : (Machine.macPut s c m).air.links = s.air.links := rfl
@[simp] theorem macPut_air_duty (s : State) (c : Nat) (m : MacCh) : (Machine.macPut s c m).air.duty = s.air.duty := rfl
@[simp] theorem macPut_air_grants (s : State) (c : Nat) (m : MacCh) : (Machine.macPut s c m).air.grants = s.air.grants := rfl
@[simp] theorem macPut_regGet (s : State) (c : Nat) (m : MacCh) (kk : Nat) : regGet (Machine.macPut s c m) kk = regGet s kk := rfl
@[simp] theorem macPut_sqGet (s : State) (c : Nat) (m : MacCh) (kk : Nat) : sqGet (Machine.macPut s c m) kk = sqGet s kk := rfl
@[simp] theorem macPut_cqGet (s : State) (c : Nat) (m : MacCh) (kk : Nat) : cqGet (Machine.macPut s c m) kk = cqGet s kk := rfl
@[simp] theorem macPut_rrGet (s : State) (c : Nat) (m : MacCh) (kk : Nat) : rrGet (Machine.macPut s c m) kk = rrGet s kk := rfl
@[simp] theorem macPut_fnGet (s : State) (c : Nat) (m : MacCh) (kk : Nat) : fnGet (Machine.macPut s c m) kk = fnGet s kk := rfl
@[simp] theorem macPut_recGet (s : State) (c : Nat) (m : MacCh) (kk : Nat) : recGet (Machine.macPut s c m) kk = recGet s kk := rfl
@[simp] theorem macPut_pinGet (s : State) (c : Nat) (m : MacCh) (kk : Nat) : pinGet (Machine.macPut s c m) kk = pinGet s kk := rfl
@[simp] theorem macPut_cntGet (s : State) (c : Nat) (m : MacCh) (kk : Nat) : cntGet (Machine.macPut s c m) kk = cntGet s kk := rfl
@[simp] theorem macPut_chGet (s : State) (c : Nat) (m : MacCh) (kk : Nat) : chGet (Machine.macPut s c m) kk = chGet s kk := rfl
@[simp] theorem macPut_linkGet (s : State) (c : Nat) (m : MacCh) (kk : Nat) : linkGet (Machine.macPut s c m) kk = linkGet s kk := rfl
@[simp] theorem macPut_dirGet (s : State) (c : Nat) (m : MacCh) (kk : Nat) : dirGet (Machine.macPut s c m) kk = dirGet s kk := rfl
@[simp] theorem macPut_slotGet (s : State) (c : Nat) (m : MacCh) (kk : Nat) : slotGet (Machine.macPut s c m) kk = slotGet s kk := rfl
@[simp] theorem macPut_bwGet (s : State) (c : Nat) (m : MacCh) (kk : Nat) : bwGet (Machine.macPut s c m) kk = bwGet s kk := rfl
@[simp] theorem macPut_smpGet (s : State) (c : Nat) (m : MacCh) (kk : Nat) : smpGet (Machine.macPut s c m) kk = smpGet s kk := rfl
@[simp] theorem macPut_dtOf (s : State) (c : Nat) (m : MacCh) : dtOf (Machine.macPut s c m) = dtOf s := rfl
@[simp] theorem txnsSet_regs (s : State) (l : List Txn) : (Machine.txnsSet s l).regs = s.regs := rfl
@[simp] theorem txnsSet_glob (s : State) (l : List Txn) : (Machine.txnsSet s l).glob = s.glob := rfl
@[simp] theorem txnsSet_pins (s : State) (l : List Txn) : (Machine.txnsSet s l).pins = s.pins := rfl
@[simp] theorem txnsSet_funcs (s : State) (l : List Txn) : (Machine.txnsSet s l).funcs = s.funcs := rfl
@[simp] theorem txnsSet_host (s : State) (l : List Txn) : (Machine.txnsSet s l).host = s.host := rfl
@[simp] theorem txnsSet_log (s : State) (l : List Txn) : (Machine.txnsSet s l).log = s.log := rfl
@[simp] theorem txnsSet_cnt (s : State) (l : List Txn) : (Machine.txnsSet s l).cnt = s.cnt := rfl
@[simp] theorem txnsSet_flt (s : State) (l : List Txn) : (Machine.txnsSet s l).flt = s.flt := rfl
@[simp] theorem txnsSet_recs (s : State) (l : List Txn) : (Machine.txnsSet s l).recs = s.recs := rfl
@[simp] theorem txnsSet_upd (s : State) (l : List Txn) : (Machine.txnsSet s l).upd = s.upd := rfl
@[simp] theorem txnsSet_boot (s : State) (l : List Txn) : (Machine.txnsSet s l).boot = s.boot := rfl
@[simp] theorem txnsSet_time (s : State) (l : List Txn) : (Machine.txnsSet s l).time = s.time := rfl
@[simp] theorem txnsSet_harn (s : State) (l : List Txn) : (Machine.txnsSet s l).harn = s.harn := rfl
@[simp] theorem txnsSet_rp (s : State) (l : List Txn) : (Machine.txnsSet s l).rp = s.rp := rfl
@[simp] theorem txnsSet_keys (s : State) (l : List Txn) : (Machine.txnsSet s l).keys = s.keys := rfl
@[simp] theorem txnsSet_sealU (s : State) (l : List Txn) : (Machine.txnsSet s l).sealU = s.sealU := rfl
@[simp] theorem txnsSet_ce (s : State) (l : List Txn) : (Machine.txnsSet s l).ce = s.ce := rfl
@[simp] theorem txnsSet_bill (s : State) (l : List Txn) : (Machine.txnsSet s l).bill = s.bill := rfl
@[simp] theorem txnsSet_chan (s : State) (l : List Txn) : (Machine.txnsSet s l).chan = s.chan := rfl
@[simp] theorem txnsSet_air (s : State) (l : List Txn) : (Machine.txnsSet s l).air = s.air := rfl
@[simp] theorem txnsSet_store (s : State) (l : List Txn) : (Machine.txnsSet s l).store = s.store := rfl
@[simp] theorem txnsSet_met (s : State) (l : List Txn) : (Machine.txnsSet s l).met = s.met := rfl
@[simp] theorem txnsSet_hostMem (s : State) (l : List Txn) : (Machine.txnsSet s l).hostMem = s.hostMem := rfl
@[simp] theorem txnsSet_wire (s : State) (l : List Txn) : (Machine.txnsSet s l).wire = s.wire := rfl
@[simp] theorem txnsSet_tcxo (s : State) (l : List Txn) : (Machine.txnsSet s l).tcxo = s.tcxo := rfl
@[simp] theorem txnsSet_free (s : State) (l : List Txn) : (Machine.txnsSet s l).free = s.free := rfl
@[simp] theorem txnsSet_pending (s : State) (l : List Txn) : (Machine.txnsSet s l).pending = s.pending := rfl
@[simp] theorem txnsSet_cmd_txnNext (s : State) (l : List Txn) : (Machine.txnsSet s l).cmd.txnNext = s.cmd.txnNext := rfl
@[simp] theorem txnsSet_cmd_relays (s : State) (l : List Txn) : (Machine.txnsSet s l).cmd.relays = s.cmd.relays := rfl
@[simp] theorem txnsSet_cmd_plans (s : State) (l : List Txn) : (Machine.txnsSet s l).cmd.plans = s.cmd.plans := rfl
@[simp] theorem txnsSet_cmd_binds (s : State) (l : List Txn) : (Machine.txnsSet s l).cmd.binds = s.cmd.binds := rfl
@[simp] theorem txnsSet_cmd_dists (s : State) (l : List Txn) : (Machine.txnsSet s l).cmd.dists = s.cmd.dists := rfl
@[simp] theorem txnsSet_regGet (s : State) (l : List Txn) (kk : Nat) : regGet (Machine.txnsSet s l) kk = regGet s kk := rfl
@[simp] theorem txnsSet_sqGet (s : State) (l : List Txn) (kk : Nat) : sqGet (Machine.txnsSet s l) kk = sqGet s kk := rfl
@[simp] theorem txnsSet_cqGet (s : State) (l : List Txn) (kk : Nat) : cqGet (Machine.txnsSet s l) kk = cqGet s kk := rfl
@[simp] theorem txnsSet_rrGet (s : State) (l : List Txn) (kk : Nat) : rrGet (Machine.txnsSet s l) kk = rrGet s kk := rfl
@[simp] theorem txnsSet_fnGet (s : State) (l : List Txn) (kk : Nat) : fnGet (Machine.txnsSet s l) kk = fnGet s kk := rfl
@[simp] theorem txnsSet_recGet (s : State) (l : List Txn) (kk : Nat) : recGet (Machine.txnsSet s l) kk = recGet s kk := rfl
@[simp] theorem txnsSet_pinGet (s : State) (l : List Txn) (kk : Nat) : pinGet (Machine.txnsSet s l) kk = pinGet s kk := rfl
@[simp] theorem txnsSet_cntGet (s : State) (l : List Txn) (kk : Nat) : cntGet (Machine.txnsSet s l) kk = cntGet s kk := rfl
@[simp] theorem txnsSet_chGet (s : State) (l : List Txn) (kk : Nat) : chGet (Machine.txnsSet s l) kk = chGet s kk := rfl
@[simp] theorem txnsSet_macGet (s : State) (l : List Txn) (kk : Nat) : macGet (Machine.txnsSet s l) kk = macGet s kk := rfl
@[simp] theorem txnsSet_linkGet (s : State) (l : List Txn) (kk : Nat) : linkGet (Machine.txnsSet s l) kk = linkGet s kk := rfl
@[simp] theorem txnsSet_dirGet (s : State) (l : List Txn) (kk : Nat) : dirGet (Machine.txnsSet s l) kk = dirGet s kk := rfl
@[simp] theorem txnsSet_slotGet (s : State) (l : List Txn) (kk : Nat) : slotGet (Machine.txnsSet s l) kk = slotGet s kk := rfl
@[simp] theorem txnsSet_bwGet (s : State) (l : List Txn) (kk : Nat) : bwGet (Machine.txnsSet s l) kk = bwGet s kk := rfl
@[simp] theorem txnsSet_smpGet (s : State) (l : List Txn) (kk : Nat) : smpGet (Machine.txnsSet s l) kk = smpGet s kk := rfl
@[simp] theorem txnsSet_dtOf (s : State) (l : List Txn) : dtOf (Machine.txnsSet s l) = dtOf s := rfl
@[simp] theorem linkUp_regs (s : State) : (Machine.linkUp s).regs = s.regs := rfl
@[simp] theorem linkUp_glob (s : State) : (Machine.linkUp s).glob = s.glob := rfl
@[simp] theorem linkUp_pins (s : State) : (Machine.linkUp s).pins = s.pins := rfl
@[simp] theorem linkUp_funcs (s : State) : (Machine.linkUp s).funcs = s.funcs := rfl
@[simp] theorem linkUp_host_sq (s : State) : (Machine.linkUp s).host.sq = s.host.sq := rfl
@[simp] theorem linkUp_host_cq (s : State) : (Machine.linkUp s).host.cq = s.host.cq := rfl
@[simp] theorem linkUp_host_rr (s : State) : (Machine.linkUp s).host.rr = s.host.rr := rfl
@[simp] theorem linkUp_host_flights (s : State) : (Machine.linkUp s).host.flights = s.host.flights := rfl
@[simp] theorem linkUp_host_pushBuf (s : State) : (Machine.linkUp s).host.pushBuf = s.host.pushBuf := rfl
@[simp] theorem linkUp_host_admQ (s : State) : (Machine.linkUp s).host.admQ = s.host.admQ := rfl
@[simp] theorem linkUp_host_jrnl (s : State) : (Machine.linkUp s).host.jrnl = s.host.jrnl := rfl
@[simp] theorem linkUp_host_deliv (s : State) : (Machine.linkUp s).host.deliv = s.host.deliv := rfl
@[simp] theorem linkUp_host_peak (s : State) : (Machine.linkUp s).host.peak = s.host.peak := rfl
@[simp] theorem linkUp_host_dbDrop (s : State) : (Machine.linkUp s).host.dbDrop = s.host.dbDrop := rfl
@[simp] theorem linkUp_host_pushDrop (s : State) : (Machine.linkUp s).host.pushDrop = s.host.pushDrop := rfl
@[simp] theorem linkUp_host_pushOvf (s : State) : (Machine.linkUp s).host.pushOvf = s.host.pushOvf := rfl
@[simp] theorem linkUp_host_unsolCnt (s : State) : (Machine.linkUp s).host.unsolCnt = s.host.unsolCnt := rfl
@[simp] theorem linkUp_host_msixMask (s : State) : (Machine.linkUp s).host.msixMask = s.host.msixMask := rfl
@[simp] theorem linkUp_host_msixPend (s : State) : (Machine.linkUp s).host.msixPend = s.host.msixPend := rfl
@[simp] theorem linkUp_host_uidNext (s : State) : (Machine.linkUp s).host.uidNext = s.host.uidNext := rfl
@[simp] theorem linkUp_host_delivNext (s : State) : (Machine.linkUp s).host.delivNext = s.host.delivNext := rfl
@[simp] theorem linkUp_host_lastRead (s : State) : (Machine.linkUp s).host.lastRead = s.host.lastRead := rfl
@[simp] theorem linkUp_host_pcie (s : State) : (Machine.linkUp s).host.pcie = s.host.pcie := rfl
@[simp] theorem linkUp_log (s : State) : (Machine.linkUp s).log = s.log := rfl
@[simp] theorem linkUp_cnt_val (s : State) : (Machine.linkUp s).cnt.val = s.cnt.val := rfl
@[simp] theorem linkUp_cnt_latch (s : State) : (Machine.linkUp s).cnt.latch = s.cnt.latch := rfl
@[simp] theorem linkUp_cnt_ltag (s : State) : (Machine.linkUp s).cnt.ltag = s.cnt.ltag := rfl
@[simp] theorem linkUp_cnt_smp (s : State) : (Machine.linkUp s).cnt.smp = s.cnt.smp := rfl
@[simp] theorem linkUp_cnt_copy (s : State) : (Machine.linkUp s).cnt.copy = s.cnt.copy := rfl
@[simp] theorem linkUp_cnt_bwStart (s : State) : (Machine.linkUp s).cnt.bwStart = s.cnt.bwStart := rfl
@[simp] theorem linkUp_flt (s : State) : (Machine.linkUp s).flt = s.flt := rfl
@[simp] theorem linkUp_recs (s : State) : (Machine.linkUp s).recs = s.recs := rfl
@[simp] theorem linkUp_upd (s : State) : (Machine.linkUp s).upd = s.upd := rfl
@[simp] theorem linkUp_boot (s : State) : (Machine.linkUp s).boot = s.boot := rfl
@[simp] theorem linkUp_time (s : State) : (Machine.linkUp s).time = s.time := rfl
@[simp] theorem linkUp_harn (s : State) : (Machine.linkUp s).harn = s.harn := rfl
@[simp] theorem linkUp_rp (s : State) : (Machine.linkUp s).rp = s.rp := rfl
@[simp] theorem linkUp_keys (s : State) : (Machine.linkUp s).keys = s.keys := rfl
@[simp] theorem linkUp_sealU (s : State) : (Machine.linkUp s).sealU = s.sealU := rfl
@[simp] theorem linkUp_ce (s : State) : (Machine.linkUp s).ce = s.ce := rfl
@[simp] theorem linkUp_bill (s : State) : (Machine.linkUp s).bill = s.bill := rfl
@[simp] theorem linkUp_chan (s : State) : (Machine.linkUp s).chan = s.chan := rfl
@[simp] theorem linkUp_cmd (s : State) : (Machine.linkUp s).cmd = s.cmd := rfl
@[simp] theorem linkUp_air (s : State) : (Machine.linkUp s).air = s.air := rfl
@[simp] theorem linkUp_store (s : State) : (Machine.linkUp s).store = s.store := rfl
@[simp] theorem linkUp_met (s : State) : (Machine.linkUp s).met = s.met := rfl
@[simp] theorem linkUp_tcxo (s : State) : (Machine.linkUp s).tcxo = s.tcxo := rfl
@[simp] theorem linkUp_free (s : State) : (Machine.linkUp s).free = s.free := rfl
@[simp] theorem linkUp_pending (s : State) : (Machine.linkUp s).pending = s.pending := rfl
@[simp] theorem linkUp_regGet (s : State) (kk : Nat) : regGet (Machine.linkUp s) kk = regGet s kk := rfl
@[simp] theorem linkUp_sqGet (s : State) (kk : Nat) : sqGet (Machine.linkUp s) kk = sqGet s kk := rfl
@[simp] theorem linkUp_cqGet (s : State) (kk : Nat) : cqGet (Machine.linkUp s) kk = cqGet s kk := rfl
@[simp] theorem linkUp_rrGet (s : State) (kk : Nat) : rrGet (Machine.linkUp s) kk = rrGet s kk := rfl
@[simp] theorem linkUp_fnGet (s : State) (kk : Nat) : fnGet (Machine.linkUp s) kk = fnGet s kk := rfl
@[simp] theorem linkUp_recGet (s : State) (kk : Nat) : recGet (Machine.linkUp s) kk = recGet s kk := rfl
@[simp] theorem linkUp_pinGet (s : State) (kk : Nat) : pinGet (Machine.linkUp s) kk = pinGet s kk := rfl
@[simp] theorem linkUp_cntGet (s : State) (kk : Nat) : cntGet (Machine.linkUp s) kk = cntGet s kk := rfl
@[simp] theorem linkUp_chGet (s : State) (kk : Nat) : chGet (Machine.linkUp s) kk = chGet s kk := rfl
@[simp] theorem linkUp_macGet (s : State) (kk : Nat) : macGet (Machine.linkUp s) kk = macGet s kk := rfl
@[simp] theorem linkUp_linkGet (s : State) (kk : Nat) : linkGet (Machine.linkUp s) kk = linkGet s kk := rfl
@[simp] theorem linkUp_dirGet (s : State) (kk : Nat) : dirGet (Machine.linkUp s) kk = dirGet s kk := rfl
@[simp] theorem linkUp_slotGet (s : State) (kk : Nat) : slotGet (Machine.linkUp s) kk = slotGet s kk := rfl
@[simp] theorem linkUp_smpGet (s : State) (kk : Nat) : smpGet (Machine.linkUp s) kk = smpGet s kk := rfl
@[simp] theorem linkUp_dtOf (s : State) : dtOf (Machine.linkUp s) = dtOf s := rfl

/-! ## Reads after writes of further tables -/

@[simp] theorem recGet_recPut (s : State) (i : Nat) (r : EpRec) : recGet (recPut s i r) i = r := by simp [recGet, recPut]
theorem recGet_recPut_ne (s : State) (i : Nat) (r : EpRec) (j : Nat) (h : j ≠ i) : recGet (recPut s i r) j = recGet s j := by
  simp [recGet, recPut, tget_tset_other _ _ _ _ _ h]
@[simp] theorem pinGet_pinPut (s : State) (i : Nat) (r : PinEnt) : pinGet (pinPut s i r) i = r := by simp [pinGet, pinPut]
theorem pinGet_pinPut_ne (s : State) (i : Nat) (r : PinEnt) (j : Nat) (h : j ≠ i) : pinGet (pinPut s i r) j = pinGet s j := by
  simp [pinGet, pinPut, tget_tset_other _ _ _ _ _ h]
@[simp] theorem dirGet_dirPut (s : State) (i : Nat) (r : DirEnt) : dirGet (dirPut s i r) i = r := by simp [dirGet, dirPut]
theorem dirGet_dirPut_ne (s : State) (i : Nat) (r : DirEnt) (j : Nat) (h : j ≠ i) : dirGet (dirPut s i r) j = dirGet s j := by
  simp [dirGet, dirPut, tget_tset_other _ _ _ _ _ h]
@[simp] theorem slotGet_slotPut (s : State) (i : Nat) (r : Slot) : slotGet (slotPut s i r) i = r := by simp [slotGet, slotPut]
theorem slotGet_slotPut_ne (s : State) (i : Nat) (r : Slot) (j : Nat) (h : j ≠ i) : slotGet (slotPut s i r) j = slotGet s j := by
  simp [slotGet, slotPut, tget_tset_other _ _ _ _ _ h]
@[simp] theorem chGet_chPut (s : State) (i : Nat) (r : Chan) : chGet (chPut s i r) i = r := by simp [chGet, chPut]
theorem chGet_chPut_ne (s : State) (i : Nat) (r : Chan) (j : Nat) (h : j ≠ i) : chGet (chPut s i r) j = chGet s j := by
  simp [chGet, chPut, tget_tset_other _ _ _ _ _ h]
@[simp] theorem linkGet_linkPut (s : State) (i : Nat) (r : MLink) : linkGet (linkPut s i r) i = r := by simp [linkGet, linkPut]
theorem linkGet_linkPut_ne (s : State) (i : Nat) (r : MLink) (j : Nat) (h : j ≠ i) : linkGet (linkPut s i r) j = linkGet s j := by
  simp [linkGet, linkPut, tget_tset_other _ _ _ _ _ h]
@[simp] theorem macGet_macPut (s : State) (i : Nat) (r : MacCh) : macGet (macPut s i r) i = r := by simp [macGet, macPut]
theorem macGet_macPut_ne (s : State) (i : Nat) (r : MacCh) (j : Nat) (h : j ≠ i) : macGet (macPut s i r) j = macGet s j := by
  simp [macGet, macPut, tget_tset_other _ _ _ _ _ h]
@[simp] theorem portGet_portPut (s : State) (i : Nat) (r : HPort) : portGet (portPut s i r) i = r := by simp [portGet, portPut]
theorem portGet_portPut_ne (s : State) (i : Nat) (r : HPort) (j : Nat) (h : j ≠ i) : portGet (portPut s i r) j = portGet s j := by
  simp [portGet, portPut, tget_tset_other _ _ _ _ _ h]

end Sys2Proof.Machine
end

