-- ==== Sys2Proof/Laws/Recs.lean ====
section
/-!
SUPPORT. What a state entry and a change of a record can do, each said once.
-/
namespace Sys2Proof.Machine
open Sys2Proof Sys2Proof.Safety

/-- A state entry goes to the journal tail, the shadow and a counter. -/
theorem appendState_eq (s : State) (w : Word) (e : JEnt) :
    ∃ j jw q h c p wi, appendState s w e =
      { s with recs := { s.recs with jtail := j, jwait := jw, jseq := q }, harn := { s.harn with ports := h }, cnt := c,
               host := { s.host with msixPend := p }, wire := wi } := by
  unfold appendState
  dsimp only
  by_cases hf : entForeign s e = true
  · simp only [hf, if_true]
    obtain ⟨c, p, wi, h⟩ := cnt_eq _ 361
    exact ⟨_, _, _, s.harn.ports, c, p, wi, by rw [h]; rfl⟩
  · simp only [hf]
    obtain ⟨hh, c, p, wi, h⟩ := mirrorSend_eq s 0x11 [entKind e, w.toNat]
    generalize mirrorSend s 0x11 [entKind e, w.toNat] = u at h ⊢
    subst h
    obtain ⟨c', p', w', h'⟩ := cnt_eq _ 361
    exact ⟨_, _, _, hh, c', p', w', by simp only [Bool.false_eq_true, if_false]; rw [h']; rfl⟩

/-- A change of a record changes the record and what a state entry changes. -/
theorem recChange_eq (s : State) (eid : Nat) (r : EpRec) :
    ∃ j jw q h c p wi, recChange s eid r =
      { s with recs := { s.recs with jtail := j, jwait := jw, jseq := q, tab := tset EpRec.free s.recs.tab eid (stamped s r) }
               harn := { s.harn with ports := h }
               cnt := c
               host := { s.host with msixPend := p }
               wire := wi } := by
  unfold recChange
  obtain ⟨j, jw, q, h, c, p, wi, e⟩ := appendState_eq s (stamped s r).writeSeq (.epRec eid (stamped s r))
  exact ⟨j, jw, q, h, c, p, wi, by dsimp only; rw [e]; rfl⟩

/-- The record changed reads back stamped. -/
@[simp] theorem recGet_recChange (s : State) (eid : Nat) (r : EpRec) : recGet (recChange s eid r) eid = stamped s r := by
  simp [recChange]

@[simp] theorem rest_appendState (s : State) (w : Word) (e : JEnt) : rest (appendState s w e) = rest s := by
  obtain ⟨j, jw, q, h, c, p, wi, hh⟩ := appendState_eq s w e
  rw [hh]; rfl

/-- The new journal entry stands last, in the tail or among those that wait for room in it. -/
theorem appendState_jtail (s : State) (w : Word) (e : JEnt) :
    (appendState s w e).recs.jtail ++ (appendState s w e).recs.jwait =
      s.recs.jtail ++ s.recs.jwait ++ [⟨s.recs.jseq, w, e⟩] := by
  have h : ∀ u : State, u.recs = s.recs → (cnt (tailAdd u w e) 361).recs.jtail ++ (cnt (tailAdd u w e) 361).recs.jwait =
      s.recs.jtail ++ s.recs.jwait ++ [⟨s.recs.jseq, w, e⟩] := by
    intro u hu
    simp only [cnt_recs, tailAdd, hu]
    by_cases hf : tailRoom u e = true
    · have : s.recs.jwait = [] := by
        simp only [tailRoom, Bool.and_eq_true, List.isEmpty_iff, hu] at hf
        exact hf.1
      simp [hf, this]
    · simp [hf]
  unfold appendState
  dsimp only
  split
  · exact h s rfl
  · exact h _ (mirrorSend_recs s _ _)

end Sys2Proof.Machine
end

