-- ==== Sys2Proof/Laws/RecFrames.lean ====
section
/-!
SUPPORT. The frames of a state entry and of a change of a record, one equation a field.
-/
namespace Sys2Proof.Machine
open Sys2Proof

/-! ## appendState -/

@[simp] theorem appendState_regs (s : State) (w : Word) (j : JEnt) : (Machine.appendState s w j).regs = s.regs := by obtain ⟨_, _, _, _, _, _, _, h⟩ := appendState_eq s w j; rw [h]
@[simp] theorem appendState_glob (s : State) (w : Word) (j : JEnt) : (Machine.appendState s w j).glob = s.glob := by obtain ⟨_, _, _, _, _, _, _, h⟩ := appendState_eq s w j; rw [h]
@[simp] theorem appendState_pins (s : State) (w : Word) (j : JEnt) : (Machine.appendState s w j).pins = s.pins := by obtain ⟨_, _, _, _, _, _, _, h⟩ := appendState_eq s w j; rw [h]
@[simp] theorem appendState_funcs (s : State) (w : Word) (j : JEnt) : (Machine.appendState s w j).funcs = s.funcs := by obtain ⟨_, _, _, _, _, _, _, h⟩ := appendState_eq s w j; rw [h]
@[simp] theorem appendState_host_sq (s : State) (w : Word) (j : JEnt) : (Machine.appendState s w j).host.sq = s.host.sq := by obtain ⟨_, _, _, _, _, _, _, h⟩ := appendState_eq s w j; rw [h]
@[simp] theorem appendState_host_cq (s : State) (w : Word) (j : JEnt) : (Machine.appendState s w j).host.cq = s.host.cq := by obtain ⟨_, _, _, _, _, _, _, h⟩ := appendState_eq s w j; rw [h]
@[simp] theorem appendState_host_rr (s : State) (w : Word) (j : JEnt) : (Machine.appendState s w j).host.rr = s.host.rr := by obtain ⟨_, _, _, _, _, _, _, h⟩ := appendState_eq s w j; rw [h]
@[simp] theorem appendState_host_flights (s : State) (w : Word) (j : JEnt) : (Machine.appendState s w j).host.flights = s.host.flights := by obtain ⟨_, _, _, _, _, _, _, h⟩ := appendState_eq s w j; rw [h]
@[simp] theorem appendState_host_pushBuf (s : State) (w : Word) (j : JEnt) : (Machine.appendState s w j).host.pushBuf = s.host.pushBuf := by obtain ⟨_, _, _, _, _, _, _, h⟩ := appendState_eq s w j; rw [h]
@[simp] theorem appendState_host_admQ (s : State) (w : Word) (j : JEnt) : (Machine.appendState s w j).host.admQ = s.host.admQ := by obtain ⟨_, _, _, _, _, _, _, h⟩ := appendState_eq s w j; rw [h]
@[simp] theorem appendState_host_jrnl (s : State) (w : Word) (j : JEnt) : (Machine.appendState s w j).host.jrnl = s.host.jrnl := by obtain ⟨_, _, _, _, _, _, _, h⟩ := appendState_eq s w j; rw [h]
@[simp] theorem appendState_host_deliv (s : State) (w : Word) (j : JEnt) : (Machine.appendState s w j).host.deliv = s.host.deliv := by obtain ⟨_, _, _, _, _, _, _, h⟩ := appendState_eq s w j; rw [h]
@[simp] theorem appendState_host_peak (s : State) (w : Word) (j : JEnt) : (Machine.appendState s w j).host.peak = s.host.peak := by obtain ⟨_, _, _, _, _, _, _, h⟩ := appendState_eq s w j; rw [h]
@[simp] theorem appendState_host_dbDrop (s : State) (w : Word) (j : JEnt) : (Machine.appendState s w j).host.dbDrop = s.host.dbDrop := by obtain ⟨_, _, _, _, _, _, _, h⟩ := appendState_eq s w j; rw [h]
@[simp] theorem appendState_host_pushDrop (s : State) (w : Word) (j : JEnt) : (Machine.appendState s w j).host.pushDrop = s.host.pushDrop := by obtain ⟨_, _, _, _, _, _, _, h⟩ := appendState_eq s w j; rw [h]
@[simp] theorem appendState_host_pushOvf (s : State) (w : Word) (j : JEnt) : (Machine.appendState s w j).host.pushOvf = s.host.pushOvf := by obtain ⟨_, _, _, _, _, _, _, h⟩ := appendState_eq s w j; rw [h]
@[simp] theorem appendState_host_unsolCnt (s : State) (w : Word) (j : JEnt) : (Machine.appendState s w j).host.unsolCnt = s.host.unsolCnt := by obtain ⟨_, _, _, _, _, _, _, h⟩ := appendState_eq s w j; rw [h]
@[simp] theorem appendState_host_msixMask (s : State) (w : Word) (j : JEnt) : (Machine.appendState s w j).host.msixMask = s.host.msixMask := by obtain ⟨_, _, _, _, _, _, _, h⟩ := appendState_eq s w j; rw [h]
@[simp] theorem appendState_host_uidNext (s : State) (w : Word) (j : JEnt) : (Machine.appendState s w j).host.uidNext = s.host.uidNext := by obtain ⟨_, _, _, _, _, _, _, h⟩ := appendState_eq s w j; rw [h]
@[simp] theorem appendState_host_delivNext (s : State) (w : Word) (j : JEnt) : (Machine.appendState s w j).host.delivNext = s.host.delivNext := by obtain ⟨_, _, _, _, _, _, _, h⟩ := appendState_eq s w j; rw [h]
@[simp] theorem appendState_host_lastRead (s : State) (w : Word) (j : JEnt) : (Machine.appendState s w j).host.lastRead = s.host.lastRead := by obtain ⟨_, _, _, _, _, _, _, h⟩ := appendState_eq s w j; rw [h]
@[simp] theorem appendState_host_linkDown (s : State) (w : Word) (j : JEnt) : (Machine.appendState s w j).host.linkDown = s.host.linkDown := by obtain ⟨_, _, _, _, _, _, _, h⟩ := appendState_eq s w j; rw [h]
@[simp] theorem appendState_host_posted (s : State) (w : Word) (j : JEnt) : (Machine.appendState s w j).host.posted = s.host.posted := by obtain ⟨_, _, _, _, _, _, _, h⟩ := appendState_eq s w j; rw [h]
@[simp] theorem appendState_host_pcie (s : State) (w : Word) (j : JEnt) : (Machine.appendState s w j).host.pcie = s.host.pcie := by obtain ⟨_, _, _, _, _, _, _, h⟩ := appendState_eq s w j; rw [h]
@[simp] theorem appendState_log (s : State) (w : Word) (j : JEnt) : (Machine.appendState s w j).log = s.log := by obtain ⟨_, _, _, _, _, _, _, h⟩ := appendState_eq s w j; rw [h]
@[simp] theorem appendState_flt (s : State) (w : Word) (j : JEnt) : (Machine.appendState s w j).flt = s.flt := by obtain ⟨_, _, _, _, _, _, _, h⟩ := appendState_eq s w j; rw [h]
@[simp] theorem appendState_recs_tab (s : State) (w : Word) (j : JEnt) : (Machine.appendState s w j).recs.tab = s.recs.tab := by obtain ⟨_, _, _, _, _, _, _, h⟩ := appendState_eq s w j; rw [h]
@[simp] theorem appendState_recs_pins (s : State) (w : Word) (j : JEnt) : (Machine.appendState s w j).recs.pins = s.recs.pins := by obtain ⟨_, _, _, _, _, _, _, h⟩ := appendState_eq s w j; rw [h]
@[simp] theorem appendState_recs_retire (s : State) (w : Word) (j : JEnt) : (Machine.appendState s w j).recs.retire = s.recs.retire := by obtain ⟨_, _, _, _, _, _, _, h⟩ := appendState_eq s w j; rw [h]
@[simp] theorem appendState_recs_dramMib (s : State) (w : Word) (j : JEnt) : (Machine.appendState s w j).recs.dramMib = s.recs.dramMib := by obtain ⟨_, _, _, _, _, _, _, h⟩ := appendState_eq s w j; rw [h]
@[simp] theorem appendState_recs_owner (s : State) (w : Word) (j : JEnt) : (Machine.appendState s w j).recs.owner = s.recs.owner := by obtain ⟨_, _, _, _, _, _, _, h⟩ := appendState_eq s w j; rw [h]
@[simp] theorem appendState_recs_epoch (s : State) (w : Word) (j : JEnt) : (Machine.appendState s w j).recs.epoch = s.recs.epoch := by obtain ⟨_, _, _, _, _, _, _, h⟩ := appendState_eq s w j; rw [h]
@[simp] theorem appendState_recs_fmt (s : State) (w : Word) (j : JEnt) : (Machine.appendState s w j).recs.fmt = s.recs.fmt := by obtain ⟨_, _, _, _, _, _, _, h⟩ := appendState_eq s w j; rw [h]
@[simp] theorem appendState_recs_migrate (s : State) (w : Word) (j : JEnt) : (Machine.appendState s w j).recs.migrate = s.recs.migrate := by obtain ⟨_, _, _, _, _, _, _, h⟩ := appendState_eq s w j; rw [h]
@[simp] theorem appendState_recs_durable (s : State) (w : Word) (j : JEnt) : (Machine.appendState s w j).recs.durable = s.recs.durable := by obtain ⟨_, _, _, _, _, _, _, h⟩ := appendState_eq s w j; rw [h]
@[simp] theorem appendState_recs_ckptCnt (s : State) (w : Word) (j : JEnt) : (Machine.appendState s w j).recs.ckptCnt = s.recs.ckptCnt := by obtain ⟨_, _, _, _, _, _, _, h⟩ := appendState_eq s w j; rw [h]
@[simp] theorem appendState_recs_ckptAct (s : State) (w : Word) (j : JEnt) : (Machine.appendState s w j).recs.ckptAct = s.recs.ckptAct := by obtain ⟨_, _, _, _, _, _, _, h⟩ := appendState_eq s w j; rw [h]
@[simp] theorem appendState_recs_ckptAt (s : State) (w : Word) (j : JEnt) : (Machine.appendState s w j).recs.ckptAt = s.recs.ckptAt := by obtain ⟨_, _, _, _, _, _, _, h⟩ := appendState_eq s w j; rw [h]
@[simp] theorem appendState_recs_ckpt (s : State) (w : Word) (j : JEnt) : (Machine.appendState s w j).recs.ckpt = s.recs.ckpt := by obtain ⟨_, _, _, _, _, _, _, h⟩ := appendState_eq s w j; rw [h]
@[simp] theorem appendState_recs_ckptEnts (s : State) (w : Word) (j : JEnt) : (Machine.appendState s w j).recs.ckptEnts = s.recs.ckptEnts := by obtain ⟨_, _, _, _, _, _, _, h⟩ := appendState_eq s w j; rw [h]
@[simp] theorem appendState_recs_jnand (s : State) (w : Word) (j : JEnt) : (Machine.appendState s w j).recs.jnand = s.recs.jnand := by obtain ⟨_, _, _, _, _, _, _, h⟩ := appendState_eq s w j; rw [h]
@[simp] theorem appendState_upd (s : State) (w : Word) (j : JEnt) : (Machine.appendState s w j).upd = s.upd := by obtain ⟨_, _, _, _, _, _, _, h⟩ := appendState_eq s w j; rw [h]
@[simp] theorem appendState_boot (s : State) (w : Word) (j : JEnt) : (Machine.appendState s w j).boot = s.boot := by obtain ⟨_, _, _, _, _, _, _, h⟩ := appendState_eq s w j; rw [h]
@[simp] theorem appendState_time (s : State) (w : Word) (j : JEnt) : (Machine.appendState s w j).time = s.time := by obtain ⟨_, _, _, _, _, _, _, h⟩ := appendState_eq s w j; rw [h]
@[simp] theorem appendState_harn_pos (s : State) (w : Word) (j : JEnt) : (Machine.appendState s w j).harn.pos = s.harn.pos := by obtain ⟨_, _, _, _, _, _, _, h⟩ := appendState_eq s w j; rw [h]
@[simp] theorem appendState_harn_joined (s : State) (w : Word) (j : JEnt) : (Machine.appendState s w j).harn.joined = s.harn.joined := by obtain ⟨_, _, _, _, _, _, _, h⟩ := appendState_eq s w j; rw [h]
@[simp] theorem appendState_harn_fenced (s : State) (w : Word) (j : JEnt) : (Machine.appendState s w j).harn.fenced = s.harn.fenced := by obtain ⟨_, _, _, _, _, _, _, h⟩ := appendState_eq s w j; rw [h]
@[simp] theorem appendState_harn_caps (s : State) (w : Word) (j : JEnt) : (Machine.appendState s w j).harn.caps = s.harn.caps := by obtain ⟨_, _, _, _, _, _, _, h⟩ := appendState_eq s w j; rw [h]
@[simp] theorem appendState_harn_gates (s : State) (w : Word) (j : JEnt) : (Machine.appendState s w j).harn.gates = s.harn.gates := by obtain ⟨_, _, _, _, _, _, _, h⟩ := appendState_eq s w j; rw [h]
@[simp] theorem appendState_harn_outState (s : State) (w : Word) (j : JEnt) : (Machine.appendState s w j).harn.outState = s.harn.outState := by obtain ⟨_, _, _, _, _, _, _, h⟩ := appendState_eq s w j; rw [h]
@[simp] theorem appendState_harn_outReason (s : State) (w : Word) (j : JEnt) : (Machine.appendState s w j).harn.outReason = s.harn.outReason := by obtain ⟨_, _, _, _, _, _, _, h⟩ := appendState_eq s w j; rw [h]
@[simp] theorem appendState_harn_phase (s : State) (w : Word) (j : JEnt) : (Machine.appendState s w j).harn.phase = s.harn.phase := by obtain ⟨_, _, _, _, _, _, _, h⟩ := appendState_eq s w j; rw [h]
@[simp] theorem appendState_harn_joinErr (s : State) (w : Word) (j : JEnt) : (Machine.appendState s w j).harn.joinErr = s.harn.joinErr := by obtain ⟨_, _, _, _, _, _, _, h⟩ := appendState_eq s w j; rw [h]
@[simp] theorem appendState_harn_ringId (s : State) (w : Word) (j : JEnt) : (Machine.appendState s w j).harn.ringId = s.harn.ringId := by obtain ⟨_, _, _, _, _, _, _, h⟩ := appendState_eq s w j; rw [h]
@[simp] theorem appendState_harn_nvPos (s : State) (w : Word) (j : JEnt) : (Machine.appendState s w j).harn.nvPos = s.harn.nvPos := by obtain ⟨_, _, _, _, _, _, _, h⟩ := appendState_eq s w j; rw [h]
@[simp] theorem appendState_harn_joinedM (s : State) (w : Word) (j : JEnt) : (Machine.appendState s w j).harn.joinedM = s.harn.joinedM := by obtain ⟨_, _, _, _, _, _, _, h⟩ := appendState_eq s w j; rw [h]
@[simp] theorem appendState_harn_silentM (s : State) (w : Word) (j : JEnt) : (Machine.appendState s w j).harn.silentM = s.harn.silentM := by obtain ⟨_, _, _, _, _, _, _, h⟩ := appendState_eq s w j; rw [h]
@[simp] theorem appendState_harn_beats (s : State) (w : Word) (j : JEnt) : (Machine.appendState s w j).harn.beats = s.harn.beats := by obtain ⟨_, _, _, _, _, _, _, h⟩ := appendState_eq s w j; rw [h]
@[simp] theorem appendState_harn_tickAt (s : State) (w : Word) (j : JEnt) : (Machine.appendState s w j).harn.tickAt = s.harn.tickAt := by obtain ⟨_, _, _, _, _, _, _, h⟩ := appendState_eq s w j; rw [h]
@[simp] theorem appendState_harn_leadReb (s : State) (w : Word) (j : JEnt) : (Machine.appendState s w j).harn.leadReb = s.harn.leadReb := by obtain ⟨_, _, _, _, _, _, _, h⟩ := appendState_eq s w j; rw [h]
@[simp] theorem appendState_harn_ofsNs (s : State) (w : Word) (j : JEnt) : (Machine.appendState s w j).harn.ofsNs = s.harn.ofsNs := by obtain ⟨_, _, _, _, _, _, _, h⟩ := appendState_eq s w j; rw [h]
@[simp] theorem appendState_harn_wrapped (s : State) (w : Word) (j : JEnt) : (Machine.appendState s w j).harn.wrapped = s.harn.wrapped := by obtain ⟨_, _, _, _, _, _, _, h⟩ := appendState_eq s w j; rw [h]
@[simp] theorem appendState_harn_acting (s : State) (w : Word) (j : JEnt) : (Machine.appendState s w j).harn.acting = s.harn.acting := by obtain ⟨_, _, _, _, _, _, _, h⟩ := appendState_eq s w j; rw [h]
@[simp] theorem appendState_harn_beatsOff (s : State) (w : Word) (j : JEnt) : (Machine.appendState s w j).harn.beatsOff = s.harn.beatsOff := by obtain ⟨_, _, _, _, _, _, _, h⟩ := appendState_eq s w j; rw [h]
@[simp] theorem appendState_harn_reqs (s : State) (w : Word) (j : JEnt) : (Machine.appendState s w j).harn.reqs = s.harn.reqs := by obtain ⟨_, _, _, _, _, _, _, h⟩ := appendState_eq s w j; rw [h]
@[simp] theorem appendState_harn_peers (s : State) (w : Word) (j : JEnt) : (Machine.appendState s w j).harn.peers = s.harn.peers := by obtain ⟨_, _, _, _, _, _, _, h⟩ := appendState_eq s w j; rw [h]
@[simp] theorem appendState_harn_stat (s : State) (w : Word) (j : JEnt) : (Machine.appendState s w j).harn.stat = s.harn.stat := by obtain ⟨_, _, _, _, _, _, _, h⟩ := appendState_eq s w j; rw [h]
@[simp] theorem appendState_harn_inState (s : State) (w : Word) (j : JEnt) : (Machine.appendState s w j).harn.inState = s.harn.inState := by obtain ⟨_, _, _, _, _, _, _, h⟩ := appendState_eq s w j; rw [h]
@[simp] theorem appendState_harn_inPos (s : State) (w : Word) (j : JEnt) : (Machine.appendState s w j).harn.inPos = s.harn.inPos := by obtain ⟨_, _, _, _, _, _, _, h⟩ := appendState_eq s w j; rw [h]
@[simp] theorem appendState_harn_holdRaw (s : State) (w : Word) (j : JEnt) : (Machine.appendState s w j).harn.holdRaw = s.harn.holdRaw := by obtain ⟨_, _, _, _, _, _, _, h⟩ := appendState_eq s w j; rw [h]
@[simp] theorem appendState_harn_holdRd (s : State) (w : Word) (j : JEnt) : (Machine.appendState s w j).harn.holdRd = s.harn.holdRd := by obtain ⟨_, _, _, _, _, _, _, h⟩ := appendState_eq s w j; rw [h]
@[simp] theorem appendState_harn_holdCmd (s : State) (w : Word) (j : JEnt) : (Machine.appendState s w j).harn.holdCmd = s.harn.holdCmd := by obtain ⟨_, _, _, _, _, _, _, h⟩ := appendState_eq s w j; rw [h]
@[simp] theorem appendState_harn_mRecs (s : State) (w : Word) (j : JEnt) : (Machine.appendState s w j).harn.mRecs = s.harn.mRecs := by obtain ⟨_, _, _, _, _, _, _, h⟩ := appendState_eq s w j; rw [h]
@[simp] theorem appendState_harn_mEnts (s : State) (w : Word) (j : JEnt) : (Machine.appendState s w j).harn.mEnts = s.harn.mEnts := by obtain ⟨_, _, _, _, _, _, _, h⟩ := appendState_eq s w j; rw [h]
@[simp] theorem appendState_harn_served (s : State) (w : Word) (j : JEnt) : (Machine.appendState s w j).harn.served = s.harn.served := by obtain ⟨_, _, _, _, _, _, _, h⟩ := appendState_eq s w j; rw [h]
@[simp] theorem appendState_harn_tkoCnt (s : State) (w : Word) (j : JEnt) : (Machine.appendState s w j).harn.tkoCnt = s.harn.tkoCnt := by obtain ⟨_, _, _, _, _, _, _, h⟩ := appendState_eq s w j; rw [h]
@[simp] theorem appendState_harn_tko (s : State) (w : Word) (j : JEnt) : (Machine.appendState s w j).harn.tko = s.harn.tko := by obtain ⟨_, _, _, _, _, _, _, h⟩ := appendState_eq s w j; rw [h]
@[simp] theorem appendState_harn_syncLeft (s : State) (w : Word) (j : JEnt) : (Machine.appendState s w j).harn.syncLeft = s.harn.syncLeft := by obtain ⟨_, _, _, _, _, _, _, h⟩ := appendState_eq s w j; rw [h]
@[simp] theorem appendState_harn_syncPos (s : State) (w : Word) (j : JEnt) : (Machine.appendState s w j).harn.syncPos = s.harn.syncPos := by obtain ⟨_, _, _, _, _, _, _, h⟩ := appendState_eq s w j; rw [h]
@[simp] theorem appendState_harn_shadow (s : State) (w : Word) (j : JEnt) : (Machine.appendState s w j).harn.shadow = s.harn.shadow := by obtain ⟨_, _, _, _, _, _, _, h⟩ := appendState_eq s w j; rw [h]
@[simp] theorem appendState_rp (s : State) (w : Word) (j : JEnt) : (Machine.appendState s w j).rp = s.rp := by obtain ⟨_, _, _, _, _, _, _, h⟩ := appendState_eq s w j; rw [h]
@[simp] theorem appendState_keys (s : State) (w : Word) (j : JEnt) : (Machine.appendState s w j).keys = s.keys := by obtain ⟨_, _, _, _, _, _, _, h⟩ := appendState_eq s w j; rw [h]
@[simp] theorem appendState_sealU (s : State) (w : Word) (j : JEnt) : (Machine.appendState s w j).sealU = s.sealU := by obtain ⟨_, _, _, _, _, _, _, h⟩ := appendState_eq s w j; rw [h]
@[simp] theorem appendState_ce (s : State) (w : Word) (j : JEnt) : (Machine.appendState s w j).ce = s.ce := by obtain ⟨_, _, _, _, _, _, _, h⟩ := appendState_eq s w j; rw [h]
@[simp] theorem appendState_bill (s : State) (w : Word) (j : JEnt) : (Machine.appendState s w j).bill = s.bill := by obtain ⟨_, _, _, _, _, _, _, h⟩ := appendState_eq s w j; rw [h]
@[simp] theorem appendState_chan (s : State) (w : Word) (j : JEnt) : (Machine.appendState s w j).chan = s.chan := by obtain ⟨_, _, _, _, _, _, _, h⟩ := appendState_eq s w j; rw [h]
@[simp] theorem appendState_cmd (s : State) (w : Word) (j : JEnt) : (Machine.appendState s w j).cmd = s.cmd := by obtain ⟨_, _, _, _, _, _, _, h⟩ := appendState_eq s w j; rw [h]
@[simp] theorem appendState_air (s : State) (w : Word) (j : JEnt) : (Machine.appendState s w j).air = s.air := by obtain ⟨_, _, _, _, _, _, _, h⟩ := appendState_eq s w j; rw [h]
@[simp] theorem appendState_store (s : State) (w : Word) (j : JEnt) : (Machine.appendState s w j).store = s.store := by obtain ⟨_, _, _, _, _, _, _, h⟩ := appendState_eq s w j; rw [h]
@[simp] theorem appendState_met (s : State) (w : Word) (j : JEnt) : (Machine.appendState s w j).met = s.met := by obtain ⟨_, _, _, _, _, _, _, h⟩ := appendState_eq s w j; rw [h]
@[simp] theorem appendState_hostMem (s : State) (w : Word) (j : JEnt) : (Machine.appendState s w j).hostMem = s.hostMem := by obtain ⟨_, _, _, _, _, _, _, h⟩ := appendState_eq s w j; rw [h]
@[simp] theorem appendState_tcxo (s : State) (w : Word) (j : JEnt) : (Machine.appendState s w j).tcxo = s.tcxo := by obtain ⟨_, _, _, _, _, _, _, h⟩ := appendState_eq s w j; rw [h]
@[simp] theorem appendState_free (s : State) (w : Word) (j : JEnt) : (Machine.appendState s w j).free = s.free := by obtain ⟨_, _, _, _, _, _, _, h⟩ := appendState_eq s w j; rw [h]
@[simp] theorem appendState_pending (s : State) (w : Word) (j : JEnt) : (Machine.appendState s w j).pending = s.pending := by obtain ⟨_, _, _, _, _, _, _, h⟩ := appendState_eq s w j; rw [h]

/-! ## recChange -/

@[simp] theorem recChange_regs (s : State) (e : Nat) (r : EpRec) : (Machine.recChange s e r).regs = s.regs := by obtain ⟨_, _, _, _, _, _, _, h⟩ := recChange_eq s e r; rw [h]
@[simp] theorem recChange_glob (s : State) (e : Nat) (r : EpRec) : (Machine.recChange s e r).glob = s.glob := by obtain ⟨_, _, _, _, _, _, _, h⟩ := recChange_eq s e r; rw [h]
@[simp] theorem recChange_pins (s : State) (e : Nat) (r : EpRec) : (Machine.recChange s e r).pins = s.pins := by obtain ⟨_, _, _, _, _, _, _, h⟩ := recChange_eq s e r; rw [h]
@[simp] theorem recChange_funcs (s : State) (e : Nat) (r : EpRec) : (Machine.recChange s e r).funcs = s.funcs := by obtain ⟨_, _, _, _, _, _, _, h⟩ := recChange_eq s e r; rw [h]
@[simp] theorem recChange_host_sq (s : State) (e : Nat) (r : EpRec) : (Machine.recChange s e r).host.sq = s.host.sq := by obtain ⟨_, _, _, _, _, _, _, h⟩ := recChange_eq s e r; rw [h]
@[simp] theorem recChange_host_cq (s : State) (e : Nat) (r : EpRec) : (Machine.recChange s e r).host.cq = s.host.cq := by obtain ⟨_, _, _, _, _, _, _, h⟩ := recChange_eq s e r; rw [h]
@[simp] theorem recChange_host_rr (s : State) (e : Nat) (r : EpRec) : (Machine.recChange s e r).host.rr = s.host.rr := by obtain ⟨_, _, _, _, _, _, _, h⟩ := recChange_eq s e r; rw [h]
@[simp] theorem recChange_host_flights (s : State) (e : Nat) (r : EpRec) : (Machine.recChange s e r).host.flights = s.host.flights := by obtain ⟨_, _, _, _, _, _, _, h⟩ := recChange_eq s e r; rw [h]
@[simp] theorem recChange_host_pushBuf (s : State) (e : Nat) (r : EpRec) : (Machine.recChange s e r).host.pushBuf = s.host.pushBuf := by obtain ⟨_, _, _, _, _, _, _, h⟩ := recChange_eq s e r; rw [h]
@[simp] theorem recChange_host_admQ (s : State) (e : Nat) (r : EpRec) : (Machine.recChange s e r).host.admQ = s.host.admQ := by obtain ⟨_, _, _, _, _, _, _, h⟩ := recChange_eq s e r; rw [h]
@[simp] theorem recChange_host_jrnl (s : State) (e : Nat) (r : EpRec) : (Machine.recChange s e r).host.jrnl = s.host.jrnl := by obtain ⟨_, _, _, _, _, _, _, h⟩ := recChange_eq s e r; rw [h]
@[simp] theorem recChange_host_deliv (s : State) (e : Nat) (r : EpRec) : (Machine.recChange s e r).host.deliv = s.host.deliv := by obtain ⟨_, _, _, _, _, _, _, h⟩ := recChange_eq s e r; rw [h]
@[simp] theorem recChange_host_peak (s : State) (e : Nat) (r : EpRec) : (Machine.recChange s e r).host.peak = s.host.peak := by obtain ⟨_, _, _, _, _, _, _, h⟩ := recChange_eq s e r; rw [h]
@[simp] theorem recChange_host_dbDrop (s : State) (e : Nat) (r : EpRec) : (Machine.recChange s e r).host.dbDrop = s.host.dbDrop := by obtain ⟨_, _, _, _, _, _, _, h⟩ := recChange_eq s e r; rw [h]
@[simp] theorem recChange_host_pushDrop (s : State) (e : Nat) (r : EpRec) : (Machine.recChange s e r).host.pushDrop = s.host.pushDrop := by obtain ⟨_, _, _, _, _, _, _, h⟩ := recChange_eq s e r; rw [h]
@[simp] theorem recChange_host_pushOvf (s : State) (e : Nat) (r : EpRec) : (Machine.recChange s e r).host.pushOvf = s.host.pushOvf := by obtain ⟨_, _, _, _, _, _, _, h⟩ := recChange_eq s e r; rw [h]
@[simp] theorem recChange_host_unsolCnt (s : State) (e : Nat) (r : EpRec) : (Machine.recChange s e r).host.unsolCnt = s.host.unsolCnt := by obtain ⟨_, _, _, _, _, _, _, h⟩ := recChange_eq s e r; rw [h]
@[simp] theorem recChange_host_msixMask (s : State) (e : Nat) (r : EpRec) : (Machine.recChange s e r).host.msixMask = s.host.msixMask := by obtain ⟨_, _, _, _, _, _, _, h⟩ := recChange_eq s e r; rw [h]
@[simp] theorem recChange_host_uidNext (s : State) (e : Nat) (r : EpRec) : (Machine.recChange s e r).host.uidNext = s.host.uidNext := by obtain ⟨_, _, _, _, _, _, _, h⟩ := recChange_eq s e r; rw [h]
@[simp] theorem recChange_host_delivNext (s : State) (e : Nat) (r : EpRec) : (Machine.recChange s e r).host.delivNext = s.host.delivNext := by obtain ⟨_, _, _, _, _, _, _, h⟩ := recChange_eq s e r; rw [h]
@[simp] theorem recChange_host_lastRead (s : State) (e : Nat) (r : EpRec) : (Machine.recChange s e r).host.lastRead = s.host.lastRead := by obtain ⟨_, _, _, _, _, _, _, h⟩ := recChange_eq s e r; rw [h]
@[simp] theorem recChange_host_linkDown (s : State) (e : Nat) (r : EpRec) : (Machine.recChange s e r).host.linkDown = s.host.linkDown := by obtain ⟨_, _, _, _, _, _, _, h⟩ := recChange_eq s e r; rw [h]
@[simp] theorem recChange_host_posted (s : State) (e : Nat) (r : EpRec) : (Machine.recChange s e r).host.posted = s.host.posted := by obtain ⟨_, _, _, _, _, _, _, h⟩ := recChange_eq s e r; rw [h]
@[simp] theorem recChange_host_pcie (s : State) (e : Nat) (r : EpRec) : (Machine.recChange s e r).host.pcie = s.host.pcie := by obtain ⟨_, _, _, _, _, _, _, h⟩ := recChange_eq s e r; rw [h]
@[simp] theorem recChange_log (s : State) (e : Nat) (r : EpRec) : (Machine.recChange s e r).log = s.log := by obtain ⟨_, _, _, _, _, _, _, h⟩ := recChange_eq s e r; rw [h]
@[simp] theorem recChange_flt (s : State) (e : Nat) (r : EpRec) : (Machine.recChange s e r).flt = s.flt := by obtain ⟨_, _, _, _, _, _, _, h⟩ := recChange_eq s e r; rw [h]
@[simp] theorem recChange_recs_pins (s : State) (e : Nat) (r : EpRec) : (Machine.recChange s e r).recs.pins = s.recs.pins := by obtain ⟨_, _, _, _, _, _, _, h⟩ := recChange_eq s e r; rw [h]
@[simp] theorem recChange_recs_retire (s : State) (e : Nat) (r : EpRec) : (Machine.recChange s e r).recs.retire = s.recs.retire := by obtain ⟨_, _, _, _, _, _, _, h⟩ := recChange_eq s e r; rw [h]
@[simp] theorem recChange_recs_dramMib (s : State) (e : Nat) (r : EpRec) : (Machine.recChange s e r).recs.dramMib = s.recs.dramMib := by obtain ⟨_, _, _, _, _, _, _, h⟩ := recChange_eq s e r; rw [h]
@[simp] theorem recChange_recs_owner (s : State) (e : Nat) (r : EpRec) : (Machine.recChange s e r).recs.owner = s.recs.owner := by obtain ⟨_, _, _, _, _, _, _, h⟩ := recChange_eq s e r; rw [h]
@[simp] theorem recChange_recs_epoch (s : State) (e : Nat) (r : EpRec) : (Machine.recChange s e r).recs.epoch = s.recs.epoch := by obtain ⟨_, _, _, _, _, _, _, h⟩ := recChange_eq s e r; rw [h]
@[simp] theorem recChange_recs_fmt (s : State) (e : Nat) (r : EpRec) : (Machine.recChange s e r).recs.fmt = s.recs.fmt := by obtain ⟨_, _, _, _, _, _, _, h⟩ := recChange_eq s e r; rw [h]
@[simp] theorem recChange_recs_migrate (s : State) (e : Nat) (r : EpRec) : (Machine.recChange s e r).recs.migrate = s.recs.migrate := by obtain ⟨_, _, _, _, _, _, _, h⟩ := recChange_eq s e r; rw [h]
@[simp] theorem recChange_recs_durable (s : State) (e : Nat) (r : EpRec) : (Machine.recChange s e r).recs.durable = s.recs.durable := by obtain ⟨_, _, _, _, _, _, _, h⟩ := recChange_eq s e r; rw [h]
@[simp] theorem recChange_recs_ckptCnt (s : State) (e : Nat) (r : EpRec) : (Machine.recChange s e r).recs.ckptCnt = s.recs.ckptCnt := by obtain ⟨_, _, _, _, _, _, _, h⟩ := recChange_eq s e r; rw [h]
@[simp] theorem recChange_recs_ckptAct (s : State) (e : Nat) (r : EpRec) : (Machine.recChange s e r).recs.ckptAct = s.recs.ckptAct := by obtain ⟨_, _, _, _, _, _, _, h⟩ := recChange_eq s e r; rw [h]
@[simp] theorem recChange_recs_ckptAt (s : State) (e : Nat) (r : EpRec) : (Machine.recChange s e r).recs.ckptAt = s.recs.ckptAt := by obtain ⟨_, _, _, _, _, _, _, h⟩ := recChange_eq s e r; rw [h]
@[simp] theorem recChange_recs_ckpt (s : State) (e : Nat) (r : EpRec) : (Machine.recChange s e r).recs.ckpt = s.recs.ckpt := by obtain ⟨_, _, _, _, _, _, _, h⟩ := recChange_eq s e r; rw [h]
@[simp] theorem recChange_recs_ckptEnts (s : State) (e : Nat) (r : EpRec) : (Machine.recChange s e r).recs.ckptEnts = s.recs.ckptEnts := by obtain ⟨_, _, _, _, _, _, _, h⟩ := recChange_eq s e r; rw [h]
@[simp] theorem recChange_recs_jnand (s : State) (e : Nat) (r : EpRec) : (Machine.recChange s e r).recs.jnand = s.recs.jnand := by obtain ⟨_, _, _, _, _, _, _, h⟩ := recChange_eq s e r; rw [h]
@[simp] theorem recChange_upd (s : State) (e : Nat) (r : EpRec) : (Machine.recChange s e r).upd = s.upd := by obtain ⟨_, _, _, _, _, _, _, h⟩ := recChange_eq s e r; rw [h]
@[simp] theorem recChange_boot (s : State) (e : Nat) (r : EpRec) : (Machine.recChange s e r).boot = s.boot := by obtain ⟨_, _, _, _, _, _, _, h⟩ := recChange_eq s e r; rw [h]
@[simp] theorem recChange_time (s : State) (e : Nat) (r : EpRec) : (Machine.recChange s e r).time = s.time := by obtain ⟨_, _, _, _, _, _, _, h⟩ := recChange_eq s e r; rw [h]
@[simp] theorem recChange_harn_pos (s : State) (e : Nat) (r : EpRec) : (Machine.recChange s e r).harn.pos = s.harn.pos := by obtain ⟨_, _, _, _, _, _, _, h⟩ := recChange_eq s e r; rw [h]
@[simp] theorem recChange_harn_joined (s : State) (e : Nat) (r : EpRec) : (Machine.recChange s e r).harn.joined = s.harn.joined := by obtain ⟨_, _, _, _, _, _, _, h⟩ := recChange_eq s e r; rw [h]
@[simp] theorem recChange_harn_fenced (s : State) (e : Nat) (r : EpRec) : (Machine.recChange s e r).harn.fenced = s.harn.fenced := by obtain ⟨_, _, _, _, _, _, _, h⟩ := recChange_eq s e r; rw [h]
@[simp] theorem recChange_harn_caps (s : State) (e : Nat) (r : EpRec) : (Machine.recChange s e r).harn.caps = s.harn.caps := by obtain ⟨_, _, _, _, _, _, _, h⟩ := recChange_eq s e r; rw [h]
@[simp] theorem recChange_harn_gates (s : State) (e : Nat) (r : EpRec) : (Machine.recChange s e r).harn.gates = s.harn.gates := by obtain ⟨_, _, _, _, _, _, _, h⟩ := recChange_eq s e r; rw [h]
@[simp] theorem recChange_harn_outState (s : State) (e : Nat) (r : EpRec) : (Machine.recChange s e r).harn.outState = s.harn.outState := by obtain ⟨_, _, _, _, _, _, _, h⟩ := recChange_eq s e r; rw [h]
@[simp] theorem recChange_harn_outReason (s : State) (e : Nat) (r : EpRec) : (Machine.recChange s e r).harn.outReason = s.harn.outReason := by obtain ⟨_, _, _, _, _, _, _, h⟩ := recChange_eq s e r; rw [h]
@[simp] theorem recChange_harn_phase (s : State) (e : Nat) (r : EpRec) : (Machine.recChange s e r).harn.phase = s.harn.phase := by obtain ⟨_, _, _, _, _, _, _, h⟩ := recChange_eq s e r; rw [h]
@[simp] theorem recChange_harn_joinErr (s : State) (e : Nat) (r : EpRec) : (Machine.recChange s e r).harn.joinErr = s.harn.joinErr := by obtain ⟨_, _, _, _, _, _, _, h⟩ := recChange_eq s e r; rw [h]
@[simp] theorem recChange_harn_ringId (s : State) (e : Nat) (r : EpRec) : (Machine.recChange s e r).harn.ringId = s.harn.ringId := by obtain ⟨_, _, _, _, _, _, _, h⟩ := recChange_eq s e r; rw [h]
@[simp] theorem recChange_harn_nvPos (s : State) (e : Nat) (r : EpRec) : (Machine.recChange s e r).harn.nvPos = s.harn.nvPos := by obtain ⟨_, _, _, _, _, _, _, h⟩ := recChange_eq s e r; rw [h]
@[simp] theorem recChange_harn_joinedM (s : State) (e : Nat) (r : EpRec) : (Machine.recChange s e r).harn.joinedM = s.harn.joinedM := by obtain ⟨_, _, _, _, _, _, _, h⟩ := recChange_eq s e r; rw [h]
@[simp] theorem recChange_harn_silentM (s : State) (e : Nat) (r : EpRec) : (Machine.recChange s e r).harn.silentM = s.harn.silentM := by obtain ⟨_, _, _, _, _, _, _, h⟩ := recChange_eq s e r; rw [h]
@[simp] theorem recChange_harn_beats (s : State) (e : Nat) (r : EpRec) : (Machine.recChange s e r).harn.beats = s.harn.beats := by obtain ⟨_, _, _, _, _, _, _, h⟩ := recChange_eq s e r; rw [h]
@[simp] theorem recChange_harn_tickAt (s : State) (e : Nat) (r : EpRec) : (Machine.recChange s e r).harn.tickAt = s.harn.tickAt := by obtain ⟨_, _, _, _, _, _, _, h⟩ := recChange_eq s e r; rw [h]
@[simp] theorem recChange_harn_leadReb (s : State) (e : Nat) (r : EpRec) : (Machine.recChange s e r).harn.leadReb = s.harn.leadReb := by obtain ⟨_, _, _, _, _, _, _, h⟩ := recChange_eq s e r; rw [h]
@[simp] theorem recChange_harn_ofsNs (s : State) (e : Nat) (r : EpRec) : (Machine.recChange s e r).harn.ofsNs = s.harn.ofsNs := by obtain ⟨_, _, _, _, _, _, _, h⟩ := recChange_eq s e r; rw [h]
@[simp] theorem recChange_harn_wrapped (s : State) (e : Nat) (r : EpRec) : (Machine.recChange s e r).harn.wrapped = s.harn.wrapped := by obtain ⟨_, _, _, _, _, _, _, h⟩ := recChange_eq s e r; rw [h]
@[simp] theorem recChange_harn_acting (s : State) (e : Nat) (r : EpRec) : (Machine.recChange s e r).harn.acting = s.harn.acting := by obtain ⟨_, _, _, _, _, _, _, h⟩ := recChange_eq s e r; rw [h]
@[simp] theorem recChange_harn_beatsOff (s : State) (e : Nat) (r : EpRec) : (Machine.recChange s e r).harn.beatsOff = s.harn.beatsOff := by obtain ⟨_, _, _, _, _, _, _, h⟩ := recChange_eq s e r; rw [h]
@[simp] theorem recChange_harn_reqs (s : State) (e : Nat) (r : EpRec) : (Machine.recChange s e r).harn.reqs = s.harn.reqs := by obtain ⟨_, _, _, _, _, _, _, h⟩ := recChange_eq s e r; rw [h]
@[simp] theorem recChange_harn_peers (s : State) (e : Nat) (r : EpRec) : (Machine.recChange s e r).harn.peers = s.harn.peers := by obtain ⟨_, _, _, _, _, _, _, h⟩ := recChange_eq s e r; rw [h]
@[simp] theorem recChange_harn_stat (s : State) (e : Nat) (r : EpRec) : (Machine.recChange s e r).harn.stat = s.harn.stat := by obtain ⟨_, _, _, _, _, _, _, h⟩ := recChange_eq s e r; rw [h]
@[simp] theorem recChange_harn_inState (s : State) (e : Nat) (r : EpRec) : (Machine.recChange s e r).harn.inState = s.harn.inState := by obtain ⟨_, _, _, _, _, _, _, h⟩ := recChange_eq s e r; rw [h]
@[simp] theorem recChange_harn_inPos (s : State) (e : Nat) (r : EpRec) : (Machine.recChange s e r).harn.inPos = s.harn.inPos := by obtain ⟨_, _, _, _, _, _, _, h⟩ := recChange_eq s e r; rw [h]
@[simp] theorem recChange_harn_holdRaw (s : State) (e : Nat) (r : EpRec) : (Machine.recChange s e r).harn.holdRaw = s.harn.holdRaw := by obtain ⟨_, _, _, _, _, _, _, h⟩ := recChange_eq s e r; rw [h]
@[simp] theorem recChange_harn_holdRd (s : State) (e : Nat) (r : EpRec) : (Machine.recChange s e r).harn.holdRd = s.harn.holdRd := by obtain ⟨_, _, _, _, _, _, _, h⟩ := recChange_eq s e r; rw [h]
@[simp] theorem recChange_harn_holdCmd (s : State) (e : Nat) (r : EpRec) : (Machine.recChange s e r).harn.holdCmd = s.harn.holdCmd := by obtain ⟨_, _, _, _, _, _, _, h⟩ := recChange_eq s e r; rw [h]
@[simp] theorem recChange_harn_mRecs (s : State) (e : Nat) (r : EpRec) : (Machine.recChange s e r).harn.mRecs = s.harn.mRecs := by obtain ⟨_, _, _, _, _, _, _, h⟩ := recChange_eq s e r; rw [h]
@[simp] theorem recChange_harn_mEnts (s : State) (e : Nat) (r : EpRec) : (Machine.recChange s e r).harn.mEnts = s.harn.mEnts := by obtain ⟨_, _, _, _, _, _, _, h⟩ := recChange_eq s e r; rw [h]
@[simp] theorem recChange_harn_served (s : State) (e : Nat) (r : EpRec) : (Machine.recChange s e r).harn.served = s.harn.served := by obtain ⟨_, _, _, _, _, _, _, h⟩ := recChange_eq s e r; rw [h]
@[simp] theorem recChange_harn_tkoCnt (s : State) (e : Nat) (r : EpRec) : (Machine.recChange s e r).harn.tkoCnt = s.harn.tkoCnt := by obtain ⟨_, _, _, _, _, _, _, h⟩ := recChange_eq s e r; rw [h]
@[simp] theorem recChange_harn_tko (s : State) (e : Nat) (r : EpRec) : (Machine.recChange s e r).harn.tko = s.harn.tko := by obtain ⟨_, _, _, _, _, _, _, h⟩ := recChange_eq s e r; rw [h]
@[simp] theorem recChange_harn_syncLeft (s : State) (e : Nat) (r : EpRec) : (Machine.recChange s e r).harn.syncLeft = s.harn.syncLeft := by obtain ⟨_, _, _, _, _, _, _, h⟩ := recChange_eq s e r; rw [h]
@[simp] theorem recChange_harn_syncPos (s : State) (e : Nat) (r : EpRec) : (Machine.recChange s e r).harn.syncPos = s.harn.syncPos := by obtain ⟨_, _, _, _, _, _, _, h⟩ := recChange_eq s e r; rw [h]
@[simp] theorem recChange_harn_shadow (s : State) (e : Nat) (r : EpRec) : (Machine.recChange s e r).harn.shadow = s.harn.shadow := by obtain ⟨_, _, _, _, _, _, _, h⟩ := recChange_eq s e r; rw [h]
@[simp] theorem recChange_rp (s : State) (e : Nat) (r : EpRec) : (Machine.recChange s e r).rp = s.rp := by obtain ⟨_, _, _, _, _, _, _, h⟩ := recChange_eq s e r; rw [h]
@[simp] theorem recChange_keys (s : State) (e : Nat) (r : EpRec) : (Machine.recChange s e r).keys = s.keys := by obtain ⟨_, _, _, _, _, _, _, h⟩ := recChange_eq s e r; rw [h]
@[simp] theorem recChange_sealU (s : State) (e : Nat) (r : EpRec) : (Machine.recChange s e r).sealU = s.sealU := by obtain ⟨_, _, _, _, _, _, _, h⟩ := recChange_eq s e r; rw [h]
@[simp] theorem recChange_ce (s : State) (e : Nat) (r : EpRec) : (Machine.recChange s e r).ce = s.ce := by obtain ⟨_, _, _, _, _, _, _, h⟩ := recChange_eq s e r; rw [h]
@[simp] theorem recChange_bill (s : State) (e : Nat) (r : EpRec) : (Machine.recChange s e r).bill = s.bill := by obtain ⟨_, _, _, _, _, _, _, h⟩ := recChange_eq s e r; rw [h]
@[simp] theorem recChange_chan (s : State) (e : Nat) (r : EpRec) : (Machine.recChange s e r).chan = s.chan := by obtain ⟨_, _, _, _, _, _, _, h⟩ := recChange_eq s e r; rw [h]
@[simp] theorem recChange_cmd (s : State) (e : Nat) (r : EpRec) : (Machine.recChange s e r).cmd = s.cmd := by obtain ⟨_, _, _, _, _, _, _, h⟩ := recChange_eq s e r; rw [h]
@[simp] theorem recChange_air (s : State) (e : Nat) (r : EpRec) : (Machine.recChange s e r).air = s.air := by obtain ⟨_, _, _, _, _, _, _, h⟩ := recChange_eq s e r; rw [h]
@[simp] theorem recChange_store (s : State) (e : Nat) (r : EpRec) : (Machine.recChange s e r).store = s.store := by obtain ⟨_, _, _, _, _, _, _, h⟩ := recChange_eq s e r; rw [h]
@[simp] theorem recChange_met (s : State) (e : Nat) (r : EpRec) : (Machine.recChange s e r).met = s.met := by obtain ⟨_, _, _, _, _, _, _, h⟩ := recChange_eq s e r; rw [h]
@[simp] theorem recChange_hostMem (s : State) (e : Nat) (r : EpRec) : (Machine.recChange s e r).hostMem = s.hostMem := by obtain ⟨_, _, _, _, _, _, _, h⟩ := recChange_eq s e r; rw [h]
@[simp] theorem recChange_tcxo (s : State) (e : Nat) (r : EpRec) : (Machine.recChange s e r).tcxo = s.tcxo := by obtain ⟨_, _, _, _, _, _, _, h⟩ := recChange_eq s e r; rw [h]
@[simp] theorem recChange_free (s : State) (e : Nat) (r : EpRec) : (Machine.recChange s e r).free = s.free := by obtain ⟨_, _, _, _, _, _, _, h⟩ := recChange_eq s e r; rw [h]
@[simp] theorem recChange_pending (s : State) (e : Nat) (r : EpRec) : (Machine.recChange s e r).pending = s.pending := by obtain ⟨_, _, _, _, _, _, _, h⟩ := recChange_eq s e r; rw [h]

/-! ## Getters over them -/

@[simp] theorem appendState_regGet (s : State) (w : Word) (j : JEnt) (x : Nat) : regGet (Machine.appendState s w j) x = regGet s x := by simp [regGet]
@[simp] theorem appendState_sqGet (s : State) (w : Word) (j : JEnt) (x : Nat) : sqGet (Machine.appendState s w j) x = sqGet s x := by simp [sqGet]
@[simp] theorem appendState_cqGet (s : State) (w : Word) (j : JEnt) (x : Nat) : cqGet (Machine.appendState s w j) x = cqGet s x := by simp [cqGet]
@[simp] theorem appendState_rrGet (s : State) (w : Word) (j : JEnt) (x : Nat) : rrGet (Machine.appendState s w j) x = rrGet s x := by simp [rrGet]
@[simp] theorem appendState_fnGet (s : State) (w : Word) (j : JEnt) (x : Nat) : fnGet (Machine.appendState s w j) x = fnGet s x := by simp [fnGet]
@[simp] theorem appendState_recGet (s : State) (w : Word) (j : JEnt) (x : Nat) : recGet (Machine.appendState s w j) x = recGet s x := by simp [recGet]
@[simp] theorem appendState_dtOf (s : State) (w : Word) (j : JEnt) : dtOf (Machine.appendState s w j) = dtOf s := by simp [dtOf]
@[simp] theorem recChange_regGet (s : State) (e : Nat) (r : EpRec) (x : Nat) : regGet (Machine.recChange s e r) x = regGet s x := by simp [regGet]
@[simp] theorem recChange_sqGet (s : State) (e : Nat) (r : EpRec) (x : Nat) : sqGet (Machine.recChange s e r) x = sqGet s x := by simp [sqGet]
@[simp] theorem recChange_cqGet (s : State) (e : Nat) (r : EpRec) (x : Nat) : cqGet (Machine.recChange s e r) x = cqGet s x := by simp [cqGet]
@[simp] theorem recChange_rrGet (s : State) (e : Nat) (r : EpRec) (x : Nat) : rrGet (Machine.recChange s e r) x = rrGet s x := by simp [rrGet]
@[simp] theorem recChange_fnGet (s : State) (e : Nat) (r : EpRec) (x : Nat) : fnGet (Machine.recChange s e r) x = fnGet s x := by simp [fnGet]
@[simp] theorem recChange_dtOf (s : State) (e : Nat) (r : EpRec) : dtOf (Machine.recChange s e r) = dtOf s := by simp [dtOf]

end Sys2Proof.Machine
end

