-- ==== Sys2Proof/Laws/Wire.lean ====
section
/-!
SUPPORT. What sending can change. Transmission, mirroring and logging change channels, air time, the harness, the log, the
counters with what they signal, the free-value counter and the pins; each such operation has one equation over a state
without those parts, which a proof cites in place of unfolding it.
-/
namespace Sys2Proof.Machine
open Sys2Proof

/-- A state without what sending, mirroring and logging change. -/
def wireRest (s : State) : State :=
  { s with
    glob := { s.glob with wm := [] }
    chan := State.reset.chan
    air := State.reset.air
    harn := State.reset.harn
    cnt := State.reset.cnt
    log := State.reset.log
    host := { s.host with msixPend := [] }
    wire := []
    free := 0 }

theorem foldl_wireRest {α : Type} (g : State → α → State) (l : List α) (s : State)
    (h : ∀ u a, wireRest (g u a) = wireRest u) : wireRest (l.foldl g s) = wireRest s := by
  induction l generalizing s with
  | nil => rfl
  | cons a l ih => rw [List.foldl_cons, ih, h]

theorem wireRest_regs {s t : State} (h : wireRest t = wireRest s) : t.regs = s.regs := congrArg (·.regs) h
theorem wireRest_keys {s t : State} (h : wireRest t = wireRest s) : t.keys = s.keys := congrArg (·.keys) h
theorem wireRest_recs {s t : State} (h : wireRest t = wireRest s) : t.recs = s.recs := congrArg (·.recs) h
theorem wireRest_funcs {s t : State} (h : wireRest t = wireRest s) : t.funcs = s.funcs := congrArg (·.funcs) h
theorem wireRest_time {s t : State} (h : wireRest t = wireRest s) : t.time = s.time := congrArg (·.time) h
theorem wireRest_cmd {s t : State} (h : wireRest t = wireRest s) : t.cmd = s.cmd := congrArg (·.cmd) h
theorem wireRest_rp {s t : State} (h : wireRest t = wireRest s) : t.rp = s.rp := congrArg (·.rp) h
theorem wireRest_cq {s t : State} (h : wireRest t = wireRest s) : t.host.cq = s.host.cq := congrArg (·.host.cq) h
theorem wireRest_flights {s t : State} (h : wireRest t = wireRest s) : t.host.flights = s.host.flights :=
  congrArg (·.host.flights) h
theorem wireRest_deliv {s t : State} (h : wireRest t = wireRest s) : t.host.deliv = s.host.deliv :=
  congrArg (·.host.deliv) h

@[simp] theorem wireRest_chan_set (s : State) (c : ChSt) : wireRest { s with chan := c } = wireRest s := rfl
@[simp] theorem wireRest_air_set (s : State) (a : AirSt) : wireRest { s with air := a } = wireRest s := rfl
@[simp] theorem wireRest_harn_set (s : State) (h : HarnSt) : wireRest { s with harn := h } = wireRest s := rfl
@[simp] theorem wireRest_wire_set (s : State) (w : List WireEv) : wireRest { s with wire := w } = wireRest s := rfl
@[simp] theorem wireRest_free_set (s : State) (n : Nat) : wireRest { s with free := n } = wireRest s := rfl
@[simp] theorem wireRest_cnt_set (s : State) (c : CntSt) : wireRest { s with cnt := c } = wireRest s := rfl
@[simp] theorem wireRest_log_set (s : State) (l : LogSt) : wireRest { s with log := l } = wireRest s := rfl
@[simp] theorem wireRest_chPut (s : State) (n : Nat) (c : Chan) : wireRest (chPut s n c) = wireRest s := rfl
@[simp] theorem wireRest_macPut (s : State) (n : Nat) (m : MacCh) : wireRest (macPut s n m) = wireRest s := rfl
@[simp] theorem wireRest_linkPut (s : State) (n : Nat) (m : MLink) : wireRest (linkPut s n m) = wireRest s := rfl
@[simp] theorem wireRest_portPut (s : State) (n : Nat) (m : HPort) : wireRest (portPut s n m) = wireRest s := rfl
@[simp] theorem wireRest_harnSet (s : State) (g : HarnSt → HarnSt) : wireRest (harnSet s g) = wireRest s := rfl
@[simp] theorem wireRest_bwTx (s : State) (p n : Nat) : wireRest (bwTx s p n) = wireRest s := rfl
@[simp] theorem wireRest_bwRx (s : State) (p n : Nat) : wireRest (bwRx s p n) = wireRest s := rfl
@[simp] theorem wireRest_wmUpdate (s : State) : wireRest (wmUpdate s) = wireRest s := rfl
@[simp] theorem wireRest_takeFree (s : State) : wireRest (takeFree s).2 = wireRest s := rfl

@[simp] theorem wireRest_cnt (s : State) (i : Nat) : wireRest (Machine.cnt s i) = wireRest s := by
  obtain ⟨c, p, w, h⟩ := cnt_eq s i
  rw [h]; rfl
@[simp] theorem wireRest_cntAdd (s : State) (i k : Nat) (e : Word) : wireRest (cntAdd s i k e) = wireRest s := by
  obtain ⟨c, p, w, h⟩ := cntAdd_eq s i k e
  rw [h]; rfl
@[simp] theorem wireRest_msix (s : State) (v : Nat) : wireRest (msix s v) = wireRest s := by
  obtain ⟨c, p, w, h⟩ := msix_eq s v
  rw [h]; rfl
@[simp] theorem wireRest_logEvent (c d : Nat) (s : State) : wireRest (logEvent c d s) = wireRest s := by
  obtain ⟨l, c, p, w, h⟩ := logEvent_eq c d s
  rw [h]; rfl
@[simp] theorem wireRest_ringLog (s : State) (i n : Nat) : wireRest (ringLog s i n) = wireRest s := by simp [ringLog]
@[simp] theorem wireRest_ringSend (s : State) (p k : Nat) (l : List Nat) : wireRest (ringSend s p k l) = wireRest s := by
  obtain ⟨h, c, q, w, e⟩ := ringSend_eq s p k l
  rw [e]; rfl
@[simp] theorem wireRest_mirrorSend (s : State) (k : Nat) (l : List Nat) : wireRest (mirrorSend s k l) = wireRest s := by
  obtain ⟨h, c, q, w, e⟩ := mirrorSend_eq s k l
  rw [e]; rfl
@[simp] theorem wireRest_mirrorGated (s : State) (k : Nat) (l : List Nat) (g i : Nat) :
    wireRest (mirrorGated s k l g i) = wireRest s := by
  unfold mirrorGated
  split
  · exact (wireRest_harn_set _ _).trans (by rw [wireRest_cnt, wireRest_ringSend])
  · simp
@[simp] theorem wireRest_txQueue (s : State) (c : Nat) (f : TxF) : wireRest (txQueue s c f) = wireRest s := rfl
@[simp] theorem wireRest_txMap (s : State) (c : Nat) (g : TxF → Option TxF) : wireRest (txMap s c g) = wireRest s := rfl
@[simp] theorem wireRest_txDropAll (s : State) (g : TxF → Bool) : wireRest (txDropAll s g) = wireRest s := rfl

theorem wireRest_dutyAdmit {s t : State} {ch b d : Nat} {x y : Bool} (h : dutyAdmit s ch b d x y = some t) :
    wireRest t = wireRest s := by
  unfold dutyAdmit at h
  by_cases hc : dutyUsed s ch b + d ≤ (if x then dutyBudget s b else if y then
      (dutyBudget s b - tb4 (plan s) (bandAt b + 12)) * regFld s 0x700 24 6 / 64
      else dutyBudget s b - tb4 (plan s) (bandAt b + 12))
  · simp only [hc, if_true, Option.some.injEq] at h
    subst h; rfl
  · simp [hc] at h

theorem wireRest_radioAdmit {s t : State} {ch i n : Nat} {x y : Bool} (h : radioAdmit s ch i n x y = some t) :
    wireRest t = wireRest s := by
  unfold radioAdmit at h
  split at h
  · cases h
  · exact wireRest_dutyAdmit h

@[simp] theorem wireRest_tuneTo (s : State) (c i : Nat) : wireRest (tuneTo s c i) = wireRest s := by
  unfold tuneTo
  split <;> rfl
@[simp] theorem wireRest_radioSend (s : State) (c i : Nat) (b : List Byte) : wireRest (radioSend s c i b) = wireRest s := by
  unfold radioSend
  dsimp only
  rw [wireRest_cnt, wireRest_bwTx]
  exact (wireRest_wire_set _ _).trans ((wireRest_chPut _ _ _).trans (wireRest_tuneTo s c i))
@[simp] theorem wireRest_ackSend (s : State) (c : Nat) (b : Bool) : wireRest (ackSend s c b) = wireRest s := by
  unfold ackSend
  dsimp only
  split
  · simp
  · split
    · rename_i h; simp [wireRest_radioAdmit h]
    · simp
@[simp] theorem wireRest_ackRelease (s : State) (c : Nat) : wireRest (ackRelease s c) = wireRest s := by
  unfold ackRelease
  split
  · split <;> simp
  · rfl
@[simp] theorem wireRest_acksFree (s : State) : wireRest (acksFree s) = wireRest s :=
  foldl_wireRest _ _ _ fun u a => wireRest_ackRelease u a
@[simp] theorem wireRest_gatesOff (s : State) : wireRest (gatesOff s) = wireRest s := by simp [gatesOff]
@[simp] theorem wireRest_syncSend (s : State) : wireRest (syncSend s) = wireRest s := by
  unfold syncSend
  split
  · rfl
  · split
    · rfl
    · dsimp only
      split
      · rw [foldl_wireRest _ _ _ (fun u a => wireRest_ringSend u _ _ _)]; simp
      · simp
@[simp] theorem wireRest_syncStart (s : State) (n : Nat) : wireRest (syncStart s n) = wireRest s := by
  unfold syncStart
  dsimp only
  split
  · rw [foldl_wireRest _ _ _ (fun u a => wireRest_ringSend u _ _ _)]; simp
  · simp
@[simp] theorem wireRest_mirrorOff (s : State) (r : Nat) : wireRest (mirrorOff s r) = wireRest s := by
  unfold mirrorOff
  split
  · rfl
  · simp
@[simp] theorem wireRest_pinReason (s : State) : wireRest (pinReason s).2 = wireRest s := rfl
@[simp] theorem wireRest_peerReason (s : State) (n : Nat) : wireRest (peerReason s n).2 = wireRest s := by
  unfold peerReason
  split
  · split
    · rfl
    · split
      · rfl
      · exact wireRest_pinReason s
  · dsimp only
    split
    · rfl
    · exact (wireRest_pinReason _).trans rfl
@[simp] theorem wireRest_mirrorReason (s : State) : wireRest (mirrorReason s).2 = wireRest s := by
  unfold mirrorReason
  split
  · rfl
  · split
    · rfl
    · dsimp only
      split
      · exact wireRest_peerReason _ _
      · split <;> exact wireRest_peerReason _ _
@[simp] theorem wireRest_mirrorEval (s : State) : wireRest (mirrorEval s) = wireRest s := by
  unfold mirrorEval
  have hm := wireRest_mirrorReason s
  generalize mirrorReason s = p at hm ⊢
  obtain ⟨r, u⟩ := p
  dsimp only at hm ⊢
  split
  · simpa using hm
  · split
    · exact hm
    · split
      · exact hm
      · simpa using hm

end Sys2Proof.Machine
end

