-- ==== Sys2Proof/Laws/Kennel.lean ====
section
/-!
SUPPORT. What the kennel's operations can change: slots, the use stamp, counters with what they signal.
-/
namespace Sys2Proof.Machine
open Sys2Proof

/-- A state without what loading a key can change: slots, the use stamp, what the unwrap's pipeline leaves behind it, free
values, counters with what they signal, the log. -/
def keyRest (s : State) : State :=
  { s with
    keys := { s.keys with slots := [], useNext := 0 }
    ce := State.reset.ce
    funcs := []
    free := 0
    log := State.reset.log
    cnt := State.reset.cnt
    host := { s.host with msixPend := [] }
    wire := [] }

theorem keyRest_recs {s t : State} (h : keyRest t = keyRest s) : t.recs = s.recs := congrArg (·.recs) h
theorem keyRest_dir {s t : State} (h : keyRest t = keyRest s) : t.keys.dir = s.keys.dir := congrArg (·.keys.dir) h
theorem keyRest_roots {s t : State} (h : keyRest t = keyRest s) : t.keys.roots = s.keys.roots :=
  congrArg (·.keys.roots) h
theorem keyRest_cq {s t : State} (h : keyRest t = keyRest s) : t.host.cq = s.host.cq := congrArg (·.host.cq) h
theorem keyRest_time {s t : State} (h : keyRest t = keyRest s) : t.time = s.time := congrArg (·.time) h
theorem keyRest_seal {s t : State} (h : keyRest t = keyRest s) : t.sealU = s.sealU := congrArg (·.sealU) h

@[simp] theorem keyRest_cntAdd (s : State) (i k : Nat) (e : Word) : keyRest (Machine.cntAdd s i k e) = keyRest s := by
  obtain ⟨c, p, w, h⟩ := cntAdd_eq s i k e
  rw [h]; rfl
@[simp] theorem keyRest_cnt (s : State) (i : Nat) : keyRest (Machine.cnt s i) = keyRest s := keyRest_cntAdd s i 1 _
@[simp] theorem keyRest_logEvent (c d : Nat) (s : State) : keyRest (Machine.logEvent c d s) = keyRest s := by
  obtain ⟨l, c, p, w, h⟩ := logEvent_eq c d s
  rw [h]; rfl
@[simp] theorem keyRest_free (s : State) (n : Nat) : keyRest { s with free := n } = keyRest s := rfl
@[simp] theorem keyRest_ce (s : State) (n : CeSt) : keyRest { s with ce := n } = keyRest s := rfl
@[simp] theorem keyRest_fnPut (s : State) (i : Nat) (f : Fn) : keyRest (Machine.fnPut s i f) = keyRest s := rfl
@[simp] theorem keyRest_slotPut (s : State) (i : Nat) (x : Slot) : keyRest (slotPut s i x) = keyRest s := rfl
@[simp] theorem keyRest_slotMap (s : State) (g : Slot → Slot) : keyRest (slotMap s g) = keyRest s := rfl
@[simp] theorem keyRest_slotRetire (s : State) (g : Slot → Bool) : keyRest (slotRetire s g) = keyRest s := rfl
@[simp] theorem keyRest_retireEp (s : State) (e : Nat) (g : BitVec 8) : keyRest (retireEp s e g) = keyRest s := rfl
@[simp] theorem keyRest_useStamp (s : State) : keyRest (useStamp s) = keyRest s := rfl
@[simp] theorem keyRest_slotTouch (s : State) (i : Nat) (p : Bool) : keyRest (slotTouch s i p) = keyRest s := rfl
@[simp] theorem keyRest_logBlob (s : State) (h c : Nat) : keyRest (logBlob s h c) = keyRest s := by simp [logBlob]

/-! ## What a run on a pipeline can change -/

@[simp] theorem keyRest_pipeLoad (s : State) (p : Nat) (k : Shares 256) : keyRest (pipeLoad s p k) = keyRest s := rfl
@[simp] theorem keyRest_stageSet (s : State) (p : Nat) (v : Bool) : keyRest (stageSet s p v) = keyRest s := rfl
@[simp] theorem keyRest_ceFault (s : State) (b : Nat) : keyRest (ceFault s b) = keyRest s := rfl
@[simp] theorem keyRest_setPool (s : State) (p n : Nat) : keyRest (setPool s p n) = keyRest s := rfl
@[simp] theorem keyRest_setSets (s : State) (p n : Nat) : keyRest (setSets s p n) = keyRest s := rfl
@[simp] theorem keyRest_drbgUse (s : State) : keyRest (drbgUse s) = keyRest s := by
  unfold drbgUse drbgJudge
  dsimp only
  split
  · exact (keyRest_ce _ _).trans ((keyRest_cnt _ _).trans rfl)
  · exact (keyRest_cnt _ _).trans rfl
@[simp] theorem keyRest_faultDisable (s : State) (i : Nat) : keyRest (faultDisable s i) = keyRest s := by
  unfold faultDisable
  dsimp only
  rw [keyRest_logEvent]
  split <;> rfl
@[simp] theorem keyRest_pipeFault (s : State) (p : Nat) : keyRest (pipeFault s p) = keyRest s := by
  unfold pipeFault
  dsimp only
  rw [keyRest_faultDisable, keyRest_cnt, keyRest_ce, keyRest_ceFault]

theorem keyRest_maskDraw {s t : State} {p n : Nat} (h : maskDraw s p n = some t) : keyRest t = keyRest s := by
  unfold maskDraw at h
  dsimp only at h
  split at h
  · cases h; rfl
  · split at h
    · cases h; simp
    · cases h

theorem keyRest_blocksPass {s t : State} {p b : Nat} (h : blocksPass s p b = some t) : keyRest t = keyRest s := by
  unfold blocksPass at h
  split at h
  · cases h
  · cases hm : maskDraw s p (b - pool s p) <;> simp only [hm, Option.map_none, Option.map_some, Option.some.injEq] at h
    · cases h
    · subst h
      rw [keyRest_cntAdd, keyRest_setPool, keyRest_maskDraw hm]

/-- A run changes pipelines only, whether it ends, waits or is retried. -/
theorem keyRest_pipeRun (pick : State → Option Nat) (k : Shares 256) (b n : Nat) (s : State) :
    keyRest (pipeRun pick k b n s).1 = keyRest s := by
  induction n generalizing s with
  | zero => rfl
  | succ n ih =>
    simp only [pipeRun]
    cases pick s with
    | none => rfl
    | some p =>
      dsimp only
      cases hb : blocksPass s p b with
      | none => simp
      | some t =>
        dsimp only
        split
        · rw [ih, keyRest_pipeFault, keyRest_stageSet, keyRest_pipeLoad, keyRest_blocksPass hb]
        · simp [keyRest_blocksPass hb]

@[simp] theorem keyRest_wrapRun (s : State) (k : BitVec 256) : keyRest (wrapRun s k).1 = keyRest s :=
  keyRest_pipeRun _ _ _ _ _
@[simp] theorem keyRest_cipherRun (s : State) (c : Nat) (k : Shares 256) (b : Nat) :
    keyRest (cipherRun s c k b).1 = keyRest s := keyRest_pipeRun _ _ _ _ _

/-! ## Slots -/

@[simp] theorem keyRest_slotLoad (s : State) (i h : Nat) (b : Blob) (p q : Bool) :
    keyRest (slotLoad s i h b p q) = keyRest s := by
  unfold slotLoad
  dsimp only
  rw [keyRest_useStamp, keyRest_slotPut, keyRest_free, keyRest_cnt]

theorem keyRest_slotAlloc {s : State} {p : Nat × State} (h : slotAlloc s = some p) : keyRest p.2 = keyRest s := by
  unfold slotAlloc at h
  dsimp only at h
  split at h
  · cases h; rfl
  · cases hv : victim s.keys.slots <;> simp [hv] at h
    subst h; rfl

theorem keyRest_blobLoad {s t : State} {h : Nat} {b : Blob} {kek : BitVec 256} {g pg : BitVec 8} {p : Bool}
    (e : blobLoad s h b kek g pg p = some t) : keyRest t = keyRest s := by
  have hw := keyRest_wrapRun s kek
  unfold blobLoad at e
  split at e
  · rename_i u _ hr
    rw [hr] at hw
    split at e
    · cases e; simpa using hw
    · cases ha : slotAlloc u <;> simp only [ha, Option.map_none, Option.map_some, Option.some.injEq] at e
      · cases e
      · subst e
        rw [keyRest_slotLoad, keyRest_slotAlloc ha]; exact hw
  · cases e

theorem keyRest_ensureDir {s t : State} {h : Nat} {p : Bool} (e : ensureDir s h p = some t) : keyRest t = keyRest s := by
  unfold ensureDir at e
  dsimp only at e
  split at e
  · cases e; rfl
  · split at e
    · cases e; rfl
    · exact keyRest_blobLoad e
    · cases e; rfl

theorem keyRest_ensureEp {s t : State} {eid : Nat} {b : Option Blob} {p : Bool} (e : ensureEp s eid b p = some t) :
    keyRest t = keyRest s := by
  unfold ensureEp at e
  split at e
  · cases e; rfl
  · dsimp only at e
    split at e
    · cases e; rfl
    · split at e
      · rename_i hu _
        rw [keyRest_blobLoad e, keyRest_ensureDir hu]
      · rename_i hu _
        cases e
        exact keyRest_ensureDir hu
      · cases e

theorem keyRest_ensureDir_getD (s : State) (h : Nat) (p : Bool) : keyRest ((ensureDir s h p).getD s) = keyRest s := by
  cases e : ensureDir s h p with
  | none => rfl
  | some t => exact keyRest_ensureDir e

theorem keyRest_ensureEp_getD (s : State) (eid : Nat) (b : Option Blob) (p : Bool) :
    keyRest ((ensureEp s eid b p).getD s) = keyRest s := by
  cases e : ensureEp s eid b p with
  | none => rfl
  | some t => exact keyRest_ensureEp e

theorem keyRest_pinEpAll {s t : State} {eid : Nat} {l : List Blob} (e : pinEpAll s eid l = some t) :
    keyRest t = keyRest s := by
  induction l generalizing s with
  | nil => cases e; rfl
  | cons b l ih =>
    simp only [pinEpAll] at e
    split at e
    · rename_i u hu
      rw [ih e, keyRest_ensureEp hu]
    · cases e

/-- A slot a test picks is neither READY nor LOADING after it retires. -/
theorem slotRetire_gone (s : State) (g : Slot → Bool) (p : Nat × Slot) (hp : p ∈ (slotRetire s g).keys.slots) (h : g p.2 = true) : p.2.st ≠ 2 ∧ p.2.st ≠ 1 := by
  unfold slotRetire slotMap at hp
  simp only [List.mem_map] at hp
  obtain ⟨q, _, rfl⟩ := hp
  dsimp only at h ⊢
  split
  · unfold retiredSlot
    split <;> simp
  · rename_i hn
    split at h
    · contradiction
    · simp [h] at hn; exact hn

end Sys2Proof.Machine
end

