-- ==== Sys2Proof/WellFormed.lean ====
section
/-!
DEFINITION. Which commands can arrive at the device at all: ring, vector, channel, group, feeder and position numbers
within what the part has. A command that is not well formed names something the part does not have.
-/
namespace Sys2Proof

/-- A ring kind with a number of its range: 64 submission, 64 completion, 16 reading rings (02 R47 on). -/
def ringRef (kind n : Nat) : Bool :=
  match kind with
  | 0 => decide (n < 64)
  | 1 => decide (n < 64)
  | 2 => decide (n < 16)
  | _ => false

/-- What FUNCTION_START_COMPLETE and FUNCTION_STOP_COMPLETE may name. -/
def funcRef (f : FuncRef) : Bool :=
  match f with
  | .func id => decide (id < 65536)
  | .ring kind n => ringRef kind n

/-- The check of a command's operands, one arm per row. -/
def Instr.wf (i : Instr) : Bool :=
  match i with
  | .opNop _ => true
  | .opStatus _ => true
  | .opAbort _ => true
  | .opFuncCtrlEnable _ => true
  | .opFuncCtrlDisable _ => true
  | .opFuncCtrlQuery _ => true
  | .opEpProvision _ _ => true
  | .opEpUpdate _ => true
  | .opEpRetire _ => true
  | .retireDrainEnd _ => true
  | .opEpRead _ => true
  | .opKeyInstall _ _ => true
  | .opKeyErase _ => true
  | .opKeyPin _ => true
  | .opKeyUnpin _ => true
  | .opKeyInvalidate _ => true
  | .opBatchGetLog _ => true
  | .opBatchGetPath _ => true
  | .batchGetWaitExpiry _ => true
  | .opSealKeySet _ => true
  | .opTunnelRx _ _ => true
  | .opQuarantineRead _ => true
  | .opDisconnect _ => true
  | .opReconnect _ => true
  | .opLoadLimit _ => true
  | .opReadOnDemand _ _ => true
  | .opCreditPush _ _ => true
  | .opTariffPush _ _ => true
  | .opDistStart _ _ => true
  | .opDistResume _ _ _ _ => true
  | .opCollectPlan _ _ => true
  | .opTariffLoad _ _ => true
  | .opCalendarLoad _ _ => true
  | .opLedgerAdjustTopup _ => true
  | .opLedgerAdjustDebit _ => true
  | .opLedgerAdjustEmergSet _ => true
  | .opLedgerAdjustLowSet _ => true
  | .opLedgerAdjustAutoReconnect _ => true
  | .opLedgerAdjustRelease _ => true
  | .opRegSnapshot _ _ => true
  | .opCrevasseReportBalance _ => true
  | .opCrevasseReportInference _ => true
  | .opCrevasseReportScores _ => true
  | .opCrevasseReportSnapshot _ => true
  | .crevasseReportWaitExpiry _ => true
  | .opFeederMap _ => true
  | .opCalReseal _ _ _ _ => true
  | .opStoreQuery _ => true
  | .opStoreDiscard _ => true
  | .opStoreReplay _ => true
  | .opStoreHealth _ => true
  | .opTimeMsg _ => true
  | .opTimeRebase _ => true
  | .opMeterTimeSet _ _ => true
  | .opHarnStatusRing _ => true
  | .opHarnStatusTakenOver _ => true
  | .opHarnReturn _ => true
  | .opChLoopback _ _ => true
  | .opDutyTableLoad _ _ => true
  | .opImgBlock _ _ _ => true
  | .opImgVerify _ _ => true
  | .opImgActivate _ _ => true
  | .opImgConfirmAccept _ => true
  | .opImgConfirmReject _ => true
  | .opConfigWrite _ _ _ => true
  | .opKat _ _ => true
  | .opLogReadRead _ => true
  | .opLogReadClear _ _ => true
  | .opCounterPresetPreset _ => true
  | .opCounterPresetReadAndPreset _ => true
  | .opCounterPresetRead _ => true
  | .sqTailDoorbell q off _ _ => decide (q < 64 ∧ off < 4096)
  | .cqHeadDoorbell c off _ _ => decide (c < 64 ∧ off < 4096)
  | .rrGrantDoorbell r off _ _ => decide (r < 16 ∧ off < 4096)
  | .pushWrite page off _ _ => decide (page < 16 ∧ off < 4096)
  | .ringEnable kind n _ => ringRef kind n
  | .ringDisable kind n _ => ringRef kind n
  | .descriptorFetch q raws => decide (q < 64 ∧ raws.length ≤ 8)
  | .tc0Admission => true
  | .pushAdmission => true
  | .completionWrite c => decide (c < 64)
  | .completionInterruptTimer c => decide (c < 64)
  | .irqEnWrite c _ => decide (c < 64)
  | .msixVectorUnmask v => decide (v < 128)
  | .readingDelivery r => decide (r < 16)
  | .functionLevelReset => true
  | .registerWrite off _ _ => decide (off < 65536)
  | .wmCfgWrite n _ => decide (n < 4)
  | .klCtrlClear _ => true
  | .pacePeakClear _ => true
  | .inflightPeakClear _ => true
  | .holdPeakClear _ => true
  | .chgRoleWrite g _ => decide (g < 4)
  | .cntLoRead i => decide (i < 512)
  | .dtLoRead => true
  | .bwSelWrite _ => true
  | .bwWindowMsWrite _ => true
  | .bwWindowEnd => true
  | .samplerArm n _ => decide (n < 8)
  | .resetAssert _ => true
  | .resetRelease _ => true
  | .bootReady => true
  | .pfailAssert _ => true
  | .pfailDeassert => true
  | .bankLevelChange g _ _ => decide (g < 4)
  | .vbatLow _ => true
  | .paceMeasurement _ => true
  | .vreqAdjust => true
  | .functionStartComplete f _ => funcRef f
  | .functionStopComplete f => funcRef f
  | .channelFrameReceive ch _ _ => decide (ch < 64)
  | .interCharacterGap ch _ => decide (ch < 64)
  | .modemReadyTimeout ch => decide (ch < 64)
  | .channelFrameTransmit x => decide (x.ch < 64)
  | .dutyBucketRollover => true
  | .dutyWaitTimeout ch _ => decide (ch < 64)
  | .beaconTransmit ch => decide (ch < 64)
  | .beaconReceive ch _ _ _ => decide (ch < 64)
  | .beaconMissed ch => decide (ch < 64)
  | .memberSupervisionTimeout ch => decide (ch < 64)
  | .enhancedAcknowledgement ch _ _ _ _ _ => decide (ch < 64)
  | .linkEvent _ => true
  | .linkEventMissed _ => true
  | .linkDrop _ => true
  | .lbtBackoff ch _ => decide (ch < 64)
  | .ackWaitExpiry ch => decide (ch < 64)
  | .linkAcknowledgement ch _ => decide (ch < 64)
  | .responseTimeout _ => true
  | .commandWaitTimeout _ => true
  | .collectionInstant _ => true
  | .relayConfirmationTimeout _ => true
  | .parseAndClassify tunnel src => decide (src < if tunnel then 4 else 64)
  | .keyUnwrap => true
  | .holdReservation => true
  | .decryptAndVerify pipe _ _ => decide (pipe < 6)
  | .validation => true
  | .posting => true
  | .storeAppend => true
  | .sealLeaf => true
  | .batchCloseTimer => true
  | .batchSign => true
  | .filterEntryEviction => true
  | .slotZeroize slot => decide (slot < 8192)
  | .keySlotBusyTimeout _ => true
  | .shareRerandomise => true
  | .maskSetRefill pipe => decide (pipe < 6)
  | .noiseSourceFail source => decide (source < 2)
  | .noiseSourceReturn source => decide (source < 2)
  | .drbgReseed => true
  | .maskExpanderReseed pipe => decide (pipe < 6)
  | .intervalEnd => true
  | .demandEnd => true
  | .tariffSwitch => true
  | .tariffActivate => true
  | .periodClose => true
  | .friendlyEnd => true
  | .closeSweep => true
  | .friendlyEvaluationSweep => true
  | .leapChange => true
  | .holdoverEntry => true
  | .batteryCounterSync => true
  | .rateCorrSave => true
  | .heartbeatTransmit => true
  | .heartbeat port origin _ _ => decide (port < 2 ∧ origin < 8)
  | .ringTickTransmit => true
  | .ringTick _ _ _ _ _ => true
  | .statusFrameTransmit => true
  | .status pos _ => decide (pos < 8)
  | .linkAck port _ => decide (port < 2)
  | .replayResend port => decide (port < 2)
  | .laneFailure lane => decide (lane < 4)
  | .portBroken port => decide (port < 2)
  | .portRetrain port => decide (port < 2)
  | .mirrorRaw src _ _ _ => decide (src < 8)
  | .mirrorState src _ _ => decide (src < 8)
  | .mirrorReading src _ _ _ _ => decide (src < 8)
  | .mirrorCmd src _ _ => decide (src < 8)
  | .release src _ _ _ => decide (src < 8)
  | .syncCopy src _ => decide (src < 8)
  | .mirrorSyncComplete => true
  | .mirrorGateTimeout => true
  | .silenceDeclared pos _ => decide (pos < 8)
  | .tc0StageHang => true
  | .joinRequest side _ => decide (side < 2)
  | .join _ => true
  | .joinGrant pos server _ _ => decide (pos < 8 ∧ server < 8)
  | .joinRefuse _ => true
  | .harnessLinkTrained => true
  | .owner pos server _ _ => decide (pos < 8 ∧ server < 8)
  | .garbageCollection _ => true
  | .nandProgramFailure _ => true
  | .nandEraseFailure _ => true
  | .dieTimeout _ => true
  | .patrolRead _ _ _ _ _ => true
  | .journalProgram => true
  | .checkpoint => true
  | .nandTemperatureRead _ => true
  | .scrubPass rank _ => decide (rank < 2)
  | .controlCoreRestart core _ => decide (core < 4)
  | .coreRestartComplete core => decide (core < 4)
  | .metrologySecond m => decide (m.rms.length = 16 ∧ m.ener.length = 12)
  | .sealLoopCheck _ => true
  | .sealLoopPulse _ => true
  | .inferenceIntervalEnd => true
  | .inferenceWindowEnd => true
  | .balanceEvaluation feeder => decide (feeder < 4)
  | .logRecordWrite _ => true
  | .flurryToken _ => true
  | .trialWindowExpiry => true
  | .backgroundMigration => true
  | .pcieLinkDown => true
  | .nandPageProgrammed _ => true
  | .boundaryScanInstruction _ => true

/-- A command the device can be sent. -/
abbrev WellFormed (i : Instr) : Prop := i.wf = true

end Sys2Proof
end

