-- ==== Sys2Proof/Tests/Slice0.lean ====
section
/-!
SUPPORT. The model's own tests: for each statement with hypotheses a state that meets them (test_wit_…), values of the
spec's worked examples, and a command that each well-formedness check refuses.
-/
namespace Sys2Proof.Tests
set_option linter.unusedVariables false
set_option Elab.async false
open Sys2Proof Sys2Proof.Machine Sys2Proof.Safety

/-! ## Builders -/

/-- A part that has started: RESET_n high, phase 0xF, the cores running, some time on the TCXO. -/
def live : State :=
  { State.reset with
    pins := { State.reset.pins with resetLow := false }
    boot := { State.reset.boot with phase := 15, ready := true }
    glob := { State.reset.glob with cores := [0, 0, 0, 0] }
    tcxo := 10000000000 }

/-- Descriptor bytes: first byte, number of bytes, value. -/
def mkDesc (l : List (Nat × Nat × Nat)) : BitVec 512 :=
  BitVec.ofNat 512 ((l.map fun p => p.2.2 % 2 ^ (8 * p.2.1) * 2 ^ (8 * p.1)).sum)

/-- A descriptor in flight as number 1, from ring 0. -/
def flightAs (st : Stage) (raw : BitVec 512) : Flight :=
  { uid := 1, sq := 0, cq := 0, idx := some 0, raw := raw, seq := 0, admWait := false, inPush := false, started := true,
    ended := false, discard := false, step := 0, units := 0, stage := st, adm := 0 }

/-- That descriptor in flight on a state. -/
def withFlight (f : Flight) (s : State) : State := { s with host := { s.host with flights := [f], uidNext := 2 } }

/-- The descriptor alone on a started part. -/
def runs (l : List (Nat × Nat × Nat)) (s : State) : State := withFlight (flightAs .none (mkDesc l)) s
def fl (l : List (Nat × Nat × Nat)) : Flight := flightAs .none (mkDesc l)

/-- The AES pipelines ON, their pools full. -/
def withPipes (s : State) : State :=
  { s with
    funcs := (List.range 6).foldl (fun t p => tset Fn.idle t (0x0300 + p) ⟨.on, false, false, []⟩) s.funcs
    ce := { s.ce with pools := [64, 64, 64, 64, 512, 0] } }

/-! ## The queue, whole-machine rules, the device's own descriptors -/

theorem test_wit_StepRunsFrontCommand : ({ live with pending := [.opNop 1] } : State).pending = .opNop 1 :: [] := rfl
theorem test_wit_IdleStepOnlyAdvancesClocks : live.pending = [] ∧ live.pins.resetLow = false := by decide +kernel
theorem test_wit_WatermarksAgreeKept : WmInv live ∧ ∃ t, step live = .next t := by
  refine ⟨?_, _, rfl⟩
  unfold WmInv WmAgrees
  decide +kernel
theorem test_wit_HeldDeviceIgnoresCommands : awake State.reset = false ∧ (∀ n ∈ [0, 1], Instr.opNop 1 ≠ .resetAssert n) ∧
    Instr.opNop 1 ≠ .pfailDeassert := by decide +kernel

def dNop : List (Nat × Nat × Nat) := [(0, 1, 1), (1, 1, 8), (2, 2, 5)]
def dStatus : List (Nat × Nat × Nat) := [(0, 1, 2), (24, 2, 5), (26, 2, 7), (28, 4, 0xFFFFFFFF)]
def dAbort : List (Nat × Nat × Nat) := [(0, 1, 3), (2, 2, 9), (24, 2, 0), (26, 2, 5)]
def jrnlOne : JrnlEnt :=
  { uid := 9, sq := 5, tag := 7, seq := 3, pwr := 2, opcode := 0x10, progress := 77, status := 0, jstate := 2 }
def withJrnl (s : State) : State := { s with host := { s.host with jrnl := [jrnlOne] } }
/-- A second descriptor in flight, number 7 of ring 0 with tag 5. -/
def target (e : Bool) (st : Stage) (op : Nat) : Flight :=
  { flightAs st (mkDesc [(0, 1, op), (2, 2, 5)]) with uid := 7, ended := e, step := 2, units := 3 }
def addFlight (f : Flight) (s : State) : State :=
  { s with host := { s.host with flights := s.host.flights ++ [f], uidNext := 9 } }

theorem test_wit_NopCompletes : Runs (runs dNop live) 1 0x01 (fl dNop) := by decide +kernel
theorem test_wit_StatusFinds : Runs (runs dStatus (withJrnl live)) 1 0x02 (fl dStatus) ∧
    jrnlFind (runs dStatus (withJrnl live)) (dByte (fl dStatus).raw 24 2) (dByte (fl dStatus).raw 26 2)
      (dByte (fl dStatus).raw 28 4) = some jrnlOne := by decide +kernel
theorem test_wit_StatusNone : Runs (runs dStatus live) 1 0x02 (fl dStatus) ∧
    jrnlFind (runs dStatus live) (dByte (fl dStatus).raw 24 2) (dByte (fl dStatus).raw 26 2)
      (dByte (fl dStatus).raw 28 4) = none := by decide +kernel
def wAbort0 : State := addFlight (target false .none 0x13) (runs dAbort live)
def wAbort1 : State := addFlight (target true .none 0x13) (runs dAbort live)
def wAbort3 : State := addFlight (target false (.relay 0 0 true 1) 0x40) (runs dAbort live)
def wAbortMid : State := addFlight (target false (.wait 0 1 0) 0x30) (runs dAbort live)
def wAbortDrain : State := addFlight (target false (.drain 0 4 0) 0x13) (runs dAbort live)
theorem test_wit_Abort0 : Runs wAbort0 1 0x03 (fl dAbort) ∧ abortTarget wAbort0 (fl dAbort) = some (target false .none 0x13) ∧
    stepsDone (target false .none 0x13) = false ∧ pastMirror (target false .none 0x13) = false ∧
    midStep wAbort0 (target false .none 0x13) = false ∧ recordsOut wAbort0 (target false .none 0x13).uid = false ∧
    (target false .none 0x13).discard = false := by decide +kernel
theorem test_wit_AbortMid : Runs wAbortMid 1 0x03 (fl dAbort) ∧
    abortTarget wAbortMid (fl dAbort) = some (target false (.wait 0 1 0) 0x30) ∧
    stepsDone (target false (.wait 0 1 0) 0x30) = false ∧ pastMirror (target false (.wait 0 1 0) 0x30) = false ∧
    midStep wAbortMid (target false (.wait 0 1 0) 0x30) = true := by decide +kernel
theorem test_wit_Abort1 : Runs wAbort1 1 0x03 (fl dAbort) ∧ abortTarget wAbort1 (fl dAbort) = some (target true .none 0x13) ∧
    stepsDone (target true .none 0x13) = true := by decide +kernel
theorem test_wit_Abort3 : Runs wAbort3 1 0x03 (fl dAbort) ∧
    abortTarget wAbort3 (fl dAbort) = some (target false (.relay 0 0 true 1) 0x40) ∧
    stepsDone (target false (.relay 0 0 true 1) 0x40) = false ∧
    pastMirror (target false (.relay 0 0 true 1) 0x40) = true := by decide +kernel
theorem test_wit_Abort2 : Runs (runs dAbort live) 1 0x03 (fl dAbort) ∧ abortTarget (runs dAbort live) (fl dAbort) = none ∧
    abortDone (runs dAbort live) (fl dAbort) = false := by decide +kernel

/-! ## Functions, endpoint records -/

def dFunc (act id : Nat) : List (Nat × Nat × Nat) := [(0, 1, 4), (24, 2, id), (26, 1, act)]
def withFn (id : Nat) (st : FnSt) (s : State) : State := fnPut s id ⟨st, false, false, []⟩
def wFunc (act id : Nat) (st : FnSt) : State := runs (dFunc act id) (withFn id st live)
def wChan (bank : Nat) : State :=
  runs (dFunc 1 0x0100) { live with chan := { live.chan with banks := [bank, 0, 0, 0] } }

theorem test_wit_FuncQuery : Runs (wFunc 2 0x0B00 .on) 1 0x04 (fl (dFunc 2 0x0B00)) ∧ dByte (fl (dFunc 2 0x0B00)).raw 24 2 = 0x0B00 ∧
    (fl (dFunc 2 0x0B00)).stage = .none ∧ funcKnown 0x0B00 = true ∧ dByte (fl (dFunc 2 0x0B00)).raw 26 1 = 2 := by decide +kernel
theorem test_wit_FuncEnable : ∀ st ∈ [FnSt.off, .starting, .on, .stopping], ∀ id ∈ [0x0200, 0x0300],
    Runs (wFunc 1 id st) 1 0x04 (fl (dFunc 1 id)) ∧ dByte (fl (dFunc 1 id)).raw 24 2 = id ∧ funcKnown id = true ∧
    dByte (fl (dFunc 1 id)).raw 26 1 = 1 ∧ harnessOnly id = false ∧ (fnGet (wFunc 1 id st) id).st = st := by decide +kernel
theorem test_wit_FuncEnableChannel : Runs (wChan 1) 1 0x04 (fl (dFunc 1 0x0100)) ∧ chStartBad (wChan 1) 0 = 0 ∧
    (chGet (wChan 1) 0).loop = false ∧ (fnGet (wChan 1) 0x0100).st = .off ∧ chStartBad (wChan 0) 0 = 2 ∧
    Runs (wChan 0) 1 0x04 (fl (dFunc 1 0x0100)) ∧ (chGet (wChan 0) 0).loop = false ∧ (fnGet (wChan 0) 0x0100).st = .off := by
  decide +kernel
/-- Channel 0 in loopback. -/
def wLoop (act : Nat) : State := chPut (wFunc act 0x0100 .off) 0 { chGet live 0 with loop := true }
theorem test_wit_FuncLoopback : ∀ act ∈ [0, 1], Runs (wLoop act) 1 0x04 (fl (dFunc act 0x0100)) ∧
    dByte (fl (dFunc act 0x0100)).raw 26 1 = act ∧ (chGet (wLoop act) 0).loop = true := by decide +kernel
theorem test_wit_FuncStandalone : Runs (wFunc 1 0x0400 .off) 1 0x04 (fl (dFunc 1 0x0400)) ∧ harnessOnly 0x0400 = true ∧
    inHarness (wFunc 1 0x0400 .off) = false ∧ funcKnown 0x0400 = true := by decide +kernel
theorem test_wit_FuncDisable : ∀ st ∈ [FnSt.off, .starting, .on, .stopping], Runs (wFunc 0 0x0200 st) 1 0x04 (fl (dFunc 0 0x0200)) ∧
    dByte (fl (dFunc 0 0x0200)).raw 24 2 = 0x0200 ∧ dByte (fl (dFunc 0 0x0200)).raw 26 1 = 0 ∧ funcKnown 0x0200 = true ∧
    limitBroken (wFunc 0 0x0200 st) 0x0200 = false ∧ (fnGet (wFunc 0 0x0200 st) 0x0200).st = st := by decide +kernel
theorem test_wit_FuncLimit : Runs (wFunc 0 0x0300 .on) 1 0x04 (fl (dFunc 0 0x0300)) ∧
    limitBroken (wFunc 0 0x0300 .on) 0x0300 = true ∧ (fnGet (wFunc 0 0x0300 .on) 0x0300).st = .on := by decide +kernel
theorem test_wit_FuncRefused : Runs (wFunc 3 0x0300 .on) 1 0x04 (fl (dFunc 3 0x0300)) ∧ funcKnown 0x0300 = true ∧
    2 < dByte (fl (dFunc 3 0x0300)).raw 26 1 ∧ Runs (wFunc 1 0x0C00 .off) 1 0x04 (fl (dFunc 1 0x0C00)) ∧
    funcKnown 0x0C00 = false := by decide +kernel

/-- An ACTIVE record of home position 0. -/
def recActive : EpRec := { EpRec.free with state := 1, version := 2, meterAddr := 0xAA, attach := 0 }
def withRec (eid : Nat) (r : EpRec) (s : State) : State := recPut s eid r
def withPin (eid : Nat) (s : State) : State :=
  { s with recs := { s.recs with pins := tset PinEnt.none s.recs.pins eid { PinEnt.none with on := true, rxIc := 5, txIc := 6 } } }

def dProv : List (Nat × Nat × Nat) := [(0, 1, 0x10), (4, 4, 3), (24, 8, 0xAA)]
theorem test_wit_ProvisionNew : Runs (runs dProv live) 1 0x10 (fl dProv) ∧ dBufLen (fl dProv).raw = 0 ∧ dAux (fl dProv).raw = 0 ∧
    pvProto (fl dProv).raw ≤ 2 ∧ (recGet (runs dProv live) (dEid (fl dProv).raw)).state = 0 ∧
    addrLookup (runs dProv live) (pvAddr (fl dProv).raw) (pvProto (fl dProv).raw) = none := by decide +kernel
theorem test_wit_ProvisionSame : Runs (runs dProv (withRec 3 recActive live)) 1 0x10 (fl dProv) ∧
    provSame (recGet (runs dProv (withRec 3 recActive live)) (dEid (fl dProv).raw)) (fl dProv).raw = true := by decide +kernel

/-- Root 0, generation 1, available; domain 0 under it; the AES pipelines ON. -/
def setKeys (g : KeySt → KeySt) (s : State) : State := { s with keys := g s.keys }
def withRoot (s : State) : State :=
  setKeys (fun k => { k with roots := [(0, { RootEnt.none with empty := false, gen := 1, key := some 0x77 })] }) (withPipes s)
/-- A blob wrapped by a parent of generation 1. -/
def blobOf (kek : BitVec 256) (h p g typ usage : Nat) : Blob :=
  { kek := kek, intact := true, material := 0x55, handle := BitVec.ofNat 32 h, parent := BitVec.ofNat 32 p,
    gen := BitVec.ofNat 8 g, typ := BitVec.ofNat 8 typ, usage := BitVec.ofNat 16 usage, parentGen := 1, reserved := 0 }
def domBlob : Blob := blobOf 0x77 0x30000000 0x20000000 1 2 4
def sessBlob : Blob := blobOf 0x77 0x44000000 0x20000000 1 2 8
def dirAt (b : Blob) : DirEnt := { DirEnt.empty with cur := some b, parent := b.parent, curGen := b.gen, st := 1 }
def withDomain (s : State) : State := setKeys (fun k => { k with dir := [(0x30000000, dirAt domBlob)] }) (withRoot s)
def epBlob (g : Nat) : Blob := blobOf 0x55 (0x40000000 + 3) 0x30000000 g 2 3

def dProvKey : List (Nat × Nat × Nat) :=
  [(0, 1, 0x10), (4, 4, 3), (8, 8, 64), (16, 4, 64), (20, 4, 0x30000000), (24, 8, 0xAA)]
theorem test_wit_ProvisionKeyed : Runs (runs dProvKey (withDomain live)) 1 0x10 (fl dProvKey) ∧ dBufLen (fl dProvKey).raw = 64 ∧
    pvProto (fl dProvKey).raw ≤ 2 ∧ (recGet (runs dProvKey (withDomain live)) (dEid (fl dProvKey).raw)).state = 0 ∧
    addrLookup (runs dProvKey (withDomain live)) (pvAddr (fl dProvKey).raw) (pvProto (fl dProvKey).raw) = none ∧
    parentUse (runs dProvKey (withDomain live)) (.ep (dEid (fl dProvKey).raw)) (dAux (fl dProvKey).raw) = .ok 0x55 1 ∧
    blobCheck (some (epBlob 1)) 0x55 (epHandle (dEid (fl dProvKey).raw)) (dAux (fl dProvKey).raw) 1 1 = none ∧
    blobCheck none 0x55 (epHandle (dEid (fl dProvKey).raw)) (dAux (fl dProvKey).raw) 1 1 = some 1 ∧
    (pinGet (runs dProvKey (withDomain live)) (dEid (fl dProvKey).raw)).on = false ∧
    (ensureDir (runs dProvKey (withDomain live)) (dAux (fl dProvKey).raw) false).isSome = true ∧
    parentUse (runs dProvKey live) (.ep (dEid (fl dProvKey).raw)) (dAux (fl dProvKey).raw) = .empty ∧
    Runs (runs dProvKey live) 1 0x10 (fl dProvKey) := by decide +kernel
/-- A record in use otherwise, an address bound elsewhere, and a BUF_LEN and a PROTO out of range. -/
def dProvBad (len proto : Nat) : List (Nat × Nat × Nat) := [(0, 1, 0x10), (4, 4, 3), (8, 8, 64), (16, 4, len), (24, 8, 0xAA), (48, 1, 2 * proto)]
theorem test_wit_ProvisionRefused : Runs (runs (dProvBad 32 0) live) 1 0x10 (fl (dProvBad 32 0)) ∧
    dBufLen (fl (dProvBad 32 0)).raw = 32 ∧ Runs (runs (dProvBad 64 3) live) 1 0x10 (fl (dProvBad 64 3)) ∧
    2 < pvProto (fl (dProvBad 64 3)).raw ∧ Runs (runs dProv (withRec 3 { recActive with attach := 1 } live)) 1 0x10 (fl dProv) ∧
    provSame { recActive with attach := 1 } (fl dProv).raw = false ∧
    addrLookup (runs dProv (withRec 5 recActive live)) (pvAddr (fl dProv).raw) (pvProto (fl dProv).raw) = some 5 := by
  decide +kernel

def dUpd (m : Nat) : List (Nat × Nat × Nat) := [(0, 1, 0x11), (1, 1, 1), (4, 4, 3), (20, 4, m), (24, 8, 0xBB), (32, 4, 7), (49, 1, 2)]
theorem test_wit_Update : ∀ m ∈ [0x7F, 0], Runs (runs (dUpd m) (withRec 3 recActive live)) 1 0x11 (fl (dUpd m)) ∧
    stateRuns (recView (runs (dUpd m) (withRec 3 recActive live)) (dEid (fl (dUpd m)).raw)).state.toNat 0x11 (dTc (fl (dUpd m)).raw) = true ∧
    pvProto (fl (dUpd m)).raw ≤ 2 ∧ (pvState (fl (dUpd m)).raw = 2) ∧
    updHolder (runs (dUpd m) (withRec 3 recActive live)) (dEid (fl (dUpd m)).raw) (fl (dUpd m)).raw = none := by decide +kernel

def dRead : List (Nat × Nat × Nat) := [(0, 1, 0x13), (4, 4, 3), (8, 8, 0x1000), (16, 4, 512)]
theorem test_wit_EpRead : Runs (runs dRead live) 1 0x13 (fl dRead) ∧ (runs dRead live).host.linkDown = false ∧
    (recGet (runs dRead live) (dEid (fl dRead).raw)).state = 0 ∧
    Runs (runs dRead (withPin 3 (withRec 3 recActive live))) 1 0x13 (fl dRead) ∧
    (pinGet (runs dRead (withPin 3 (withRec 3 recActive live))) (dEid (fl dRead).raw)).on = true := by decide +kernel

/-! ## Keys -/

/-- An ACTIVE record 3 with a current key of generation 1 in domain 0. -/
def recKeyed : EpRec := { recActive with keyCur := some (epBlob 1), keyCtl := BitVec.ofNat 32 (1 + 2 ^ 28) }

def dInstEp : List (Nat × Nat × Nat) := [(0, 1, 0x20), (4, 4, 3), (8, 8, 64), (16, 4, 64), (29, 1, 1), (32, 4, 0x30000000)]
def wInstEp : State := runs dInstEp (withRec 3 recActive (withDomain live))
theorem test_wit_InstallEp : Runs wInstEp 1 0x20 (fl dInstEp) ∧ keyTgt (fl dInstEp).raw = .ep 3 ∧
    installBad wInstEp (fl dInstEp).raw (.ep 3) = none ∧ kiSource (fl dInstEp).raw = 0 ∧
    kcRevoked (recGet wInstEp 3) = false ∧ kiGen (fl dInstEp).raw = nextGen (recGet wInstEp 3) ∧
    kiGen (fl dInstEp).raw ≠ kcCur (recGet wInstEp 3) ∧ (recGet wInstEp 3).keyCur = none ∧ (recGet wInstEp 3).keyPend = none ∧
    (pinGet wInstEp 3).on = false ∧ parentUse wInstEp (.ep 3) (kiParent (fl dInstEp).raw) = .ok 0x55 1 ∧
    blobCheck (some (epBlob 1)) 0x55 (epHandle 3) (kiParent (fl dInstEp).raw) (kiGen (fl dInstEp).raw) 1 = none ∧
    kiKcvPresent (fl dInstEp).raw = false ∧ keyBehind wInstEp (fl dInstEp) = false ∧
    (installPins wInstEp (fl dInstEp) 3 (recGet wInstEp 3)).1 = false ∧ (wrapRun wInstEp 0x55).2 = some 5 ∧
    kcPendValid (recGet wInstEp 3) = false ∧
    (ensureDir (wrapRun wInstEp 0x55).1 (kiParent (fl dInstEp).raw) false).isSome = true := by decide +kernel

def dInstRoot : List (Nat × Nat × Nat) := [(0, 1, 0x20), (24, 4, 0x20000000), (28, 1, 1), (30, 1, 2), (40, 2, 4)]
def wInstRoot : State := runs dInstRoot (withPipes live)
theorem test_wit_InstallRoot : Runs wInstRoot 1 0x20 (fl dInstRoot) ∧ keyTgt (fl dInstRoot).raw = .root 0 ∧
    installBad wInstRoot (fl dInstRoot).raw (.root 0) = none ∧ kiSource (fl dInstRoot).raw = 1 ∧
    rootChangeOpen wInstRoot = true ∧ (rootGet wInstRoot 0).revoked = false ∧ (rootGet wInstRoot 0).empty = true ∧
    kiKcvPresent (fl dInstRoot).raw = false ∧ keyBehind wInstRoot (fl dInstRoot) = false ∧
    (wrapRun wInstRoot wInstRoot.keys.srCur).2 = some 5 := by decide +kernel

def dInstDir : List (Nat × Nat × Nat) :=
  [(0, 1, 0x20), (8, 8, 64), (16, 4, 64), (24, 4, 0x30000000), (29, 1, 1), (32, 4, 0x20000000)]
def wInstDir : State := runs dInstDir (withRoot live)
theorem test_wit_InstallDir : Runs wInstDir 1 0x20 (fl dInstDir) ∧ keyTgt (fl dInstDir).raw = .dir 0x30000000 ∧
    installBad wInstDir (fl dInstDir).raw (.dir 0x30000000) = none ∧ kiSource (fl dInstDir).raw = 0 ∧
    (dirGet wInstDir 0x30000000).st ≠ 2 ∧
    parentUse wInstDir (.dir 0x30000000) (kiParent (fl dInstDir).raw) = .ok 0x77 1 ∧
    blobCheck (some domBlob) 0x77 0x30000000 (kiParent (fl dInstDir).raw) (kiGen (fl dInstDir).raw) 1 = none ∧
    dirVerified wInstDir (fl dInstDir).raw 0x30000000 domBlob = true ∧ keyBehind wInstDir (fl dInstDir) = false ∧
    (wrapRun wInstDir 0x77).2 = some 5 := by decide +kernel
/-- A session key, whose KCV must be given. -/
def dInstSess : List (Nat × Nat × Nat) :=
  [(0, 1, 0x20), (8, 8, 64), (16, 4, 64), (24, 4, 0x44000000), (29, 1, 1), (32, 4, 0x20000000)]
theorem test_wit_InstallUnverified : Runs (runs dInstSess (withRoot live)) 1 0x20 (fl dInstSess) ∧
    keyTgt (fl dInstSess).raw = .dir 0x44000000 ∧
    installBad (runs dInstSess (withRoot live)) (fl dInstSess).raw (.dir 0x44000000) = none ∧
    blobCheck (some sessBlob) 0x77 0x44000000 (kiParent (fl dInstSess).raw) (kiGen (fl dInstSess).raw) 1 = none ∧
    kiKcvPresent (fl dInstSess).raw = false ∧ hLevel 0x44000000 ≠ 3 ∧
    (wrapRun (runs dInstSess (withRoot live)) 0x77).2 = some 5 := by decide +kernel

def dInstGen : List (Nat × Nat × Nat) :=
  [(0, 1, 0x20), (8, 8, 64), (16, 4, 64), (24, 4, 0x44000000), (28, 1, 2), (30, 1, 2), (32, 4, 0x20000000), (40, 2, 8)]
def wInstGen : State := runs dInstGen (withRoot live)
/-- The same with a key check value, which the spec leaves to the cipher: the value of the key that will be generated. -/
def genBase : Nat := (mkDesc (dInstGen ++ [(31, 1, 1)])).toNat
def genRaw (v : Word) : BitVec 512 := BitVec.ofNat 512 (genBase + v.toNat * 2 ^ 288)
def genKcv : Word := blobKcv (genBlob (withRoot live) (genRaw 0) 0x44000000 6 0x77 1)
def wGenKcv : State := withFlight (flightAs .none (genRaw genKcv)) (withRoot live)
theorem genBase_parts : genBase = 8 * 2 ^ 320 + genBase % 2 ^ 288 ∧ genBase % 2 ^ 288 < 2 ^ 288 := by decide +kernel
theorem genRaw_toNat (v : Word) : (genRaw v).toNat = genBase + v.toNat * 2 ^ 288 := by
  have := v.isLt
  have := genBase_parts
  simp only [genRaw, BitVec.toNat_ofNat]
  apply Nat.mod_eq_of_lt
  omega
theorem genRaw_field (v : Word) (lo n : Nat) (h : lo + n ≤ 36 ∨ 40 ≤ lo) : dByte (genRaw v) lo n = dByte (genRaw 0) lo n := by
  have hv := v.isLt
  have := genBase_parts
  have z0 : (0 : Word).toNat = 0 := rfl
  unfold dByte
  rw [genRaw_toNat, genRaw_toNat, z0]
  rcases h with h | h
  · have e : v.toNat * 2 ^ 288 = 2 ^ (8 * lo) * (2 ^ (8 * n) * (v.toNat * 2 ^ (288 - 8 * lo - 8 * n))) := by
      rw [Nat.mul_left_comm (2 ^ (8 * n)), Nat.mul_left_comm (2 ^ (8 * lo)), ← Nat.pow_add, ← Nat.pow_add]
      congr 2; omega
    rw [e, Nat.add_mul_div_left _ _ (Nat.two_pow_pos _), Nat.add_mul_mod_self_left]
    simp
  · have e : 2 ^ (8 * lo) = 2 ^ 320 * 2 ^ (8 * lo - 320) := by
      rw [← Nat.pow_add, show 320 + (8 * lo - 320) = 8 * lo from by omega]
    have z : ∀ a : Nat, a < 4294967296 → (genBase + a * 2 ^ 288) / 2 ^ 320 = 8 := by
      intro a ha
      omega
    rw [e, ← Nat.div_div_eq_div_mul, ← Nat.div_div_eq_div_mul, z _ (by omega), z 0 (by decide)]
theorem genRaw_kcv (v : Word) : kiKcv (genRaw v) = v := by
  have hv := v.isLt
  have := genBase_parts
  have e : dByte (genRaw v) 36 4 = v.toNat := by
    unfold dByte
    rw [genRaw_toNat]
    show (genBase + v.toNat * 2 ^ 288) / 2 ^ 288 % 2 ^ 32 = v.toNat
    omega
  rw [kiKcv, e, BitVec.ofNat_toNat, BitVec.setWidth_eq]
theorem test_wit_InstallGenerated : Runs wGenKcv 1 0x20 (flightAs .none (genRaw genKcv)) ∧
    keyTgt (genRaw genKcv) = .dir 0x44000000 ∧ keyBehind wGenKcv (flightAs .none (genRaw genKcv)) = false ∧
    installBad wGenKcv (genRaw genKcv) (.dir 0x44000000) = none ∧ kiSource (genRaw genKcv) = 2 ∧
    (dirGet wGenKcv 0x44000000).st ≠ 2 ∧ drbgOpen wGenKcv = true ∧ wGenKcv.host.linkDown = false ∧
    parentUse wGenKcv (.dir 0x44000000) (kiParent (genRaw genKcv)) = .ok 0x77 1 ∧ (wrapRun wGenKcv 0x77).2 = some 5 ∧
    (drbgUse (wrapRun wGenKcv 0x77).1).free = 6 ∧
    dirVerified wGenKcv (genRaw genKcv) 0x44000000 (genBlob wGenKcv (genRaw genKcv) 0x44000000 6 0x77 1) = true := by
  have fd := fun lo n h => genRaw_field genKcv lo n h
  have hb : genBlob wGenKcv (genRaw genKcv) 0x44000000 6 0x77 1 = genBlob (withRoot live) (genRaw 0) 0x44000000 6 0x77 1 := by
    simp only [genBlob, kiType, kiParent, kiUsage, fd 30 1 (by omega), fd 32 4 (by omega), fd 40 2 (by omega)]
    rfl
  refine ⟨⟨by decide +kernel, ?_, ?_, rfl⟩, ?_, ?_, ?_, ?_, by decide +kernel, by decide +kernel, rfl, ?_, by decide +kernel,
    by decide +kernel, ?_⟩
  · have h1 := fd 0 1 (by omega)
    have h2 := fd 1 1 (by omega)
    have e1 : dOpcode (genRaw genKcv) = 0x20 := by rw [dOpcode, h1]; decide +kernel
    have e2 : dFence (genRaw genKcv) = false := by rw [dFence, h2]; decide +kernel
    have e3 : dTc (genRaw genKcv) = 0 := by rw [dTc, h2]; decide +kernel
    simp [runnable, flightOf, wGenKcv, withFlight, flightAs, fenceOpen, e1, e2, e3]
    decide +kernel
  · simp [stateShut, flightOf, wGenKcv, withFlight, flightAs]
  · simp only [keyTgt, dEid, fd 24 4 (by omega), fd 4 4 (by omega)]; decide +kernel
  · simp [keyBehind, wGenKcv, withFlight, flightAs]
  · simp only [installBad, kiSource, kiType, kiUsage, kiGen, kiParent, kiKcvPresent, dBufAddr, dBufLen, fd 28 1 (by omega),
      fd 30 1 (by omega), fd 40 2 (by omega), fd 29 1 (by omega), fd 31 1 (by omega), fd 8 8 (by omega), fd 16 4 (by omega),
      fd 32 4 (by omega)]
    decide +kernel
  · rw [kiSource, fd 28 1 (by omega)]; decide +kernel
  · rw [kiParent, fd 32 4 (by omega)]; decide +kernel
  · rw [hb, dirVerified, genRaw_kcv, kiKcvPresent, fd 31 1 (by omega)]
    show (if hLevel 0x44000000 = 3 then _ else _ && (genKcv == genKcv)) = true
    simp only [beq_self_eq_true, Bool.and_true]
    decide +kernel

def dRehome : List (Nat × Nat × Nat) :=
  [(0, 1, 0x20), (4, 4, 3), (8, 8, 64), (16, 4, 64), (28, 1, 3), (29, 1, 1), (32, 4, 0x30000000)]
def wRehome : State := runs dRehome (withRec 3 recKeyed (withDomain live))
theorem test_wit_Rehome : Runs wRehome 1 0x20 (fl dRehome) ∧ keyTgt (fl dRehome).raw = .ep 3 ∧
    installBad wRehome (fl dRehome).raw (.ep 3) = none ∧ kiSource (fl dRehome).raw = 3 ∧ kcRevoked (recGet wRehome 3) = false ∧
    parentUse wRehome (.ep 3) (kiParent (fl dRehome).raw) = .ok 0x55 1 ∧ (recGet wRehome 3).keyCur = some (epBlob 1) ∧
    kcCurValid (recGet wRehome 3) = true ∧ (epBlob 1).kek = 0x55 ∧ (epBlob 1).gen = kcCur (recGet wRehome 3) ∧
    blobCheck (some (epBlob 1)) 0x55 (epHandle 3) (kiParent (fl dRehome).raw) (kiGen (fl dRehome).raw) 1 = none ∧
    keyBehind wRehome (fl dRehome) = false ∧ (wrapRun wRehome 0x55).2 = some 5 := by decide +kernel
def dInstBad (h src : Nat) : List (Nat × Nat × Nat) := [(0, 1, 0x20), (24, 4, h), (28, 1, src)]
theorem test_wit_InstallRefused : Runs (runs (dInstBad 0x70000000 0) live) 1 0x20 (fl (dInstBad 0x70000000 0)) ∧
    keyTgt (fl (dInstBad 0x70000000 0)).raw = .badHandle ∧
    keyTgt (fl (dInstBad 0x30000000 3)).raw = .dir 0x30000000 ∧
    installBad (runs (dInstBad 0x30000000 3) live) (fl (dInstBad 0x30000000 3)).raw (.dir 0x30000000) = some (9, 28) ∧
    keyBehind (runs (dInstBad 0x30000000 3) live) (fl (dInstBad 0x30000000 3)) = false ∧
    parentUse (runs dInstDir live) (.dir 0x30000000) (kiParent (fl dInstDir).raw) = .empty ∧
    installBad (runs dInstDir live) (fl dInstDir).raw (.dir 0x30000000) = none := by decide +kernel

def slotReady : Slot := { Slot.free with st := 2, handle := epHandle 3, gen := 1, parent := 0x30000000 }
def withSlot (x : Slot) (s : State) : State := setKeys (fun k => { k with slots := [(0, x)] }) s
def runsAs (st : Stage) (l : List (Nat × Nat × Nat)) (s : State) : State := withFlight { fl l with stage := st } s
def dEraseEp (w : Nat) : List (Nat × Nat × Nat) := [(0, 1, 0x21), (4, 4, 3), (42, 1, w)]
def dEraseDir : List (Nat × Nat × Nat) := [(0, 1, 0x21), (24, 4, 0x30000000)]
def dEraseRoot : List (Nat × Nat × Nat) := [(0, 1, 0x21), (24, 4, 0x20000000)]
theorem test_wit_EraseEp : ∀ w ∈ [0, 1, 2], Runs (runs (dEraseEp w) (withRec 3 recKeyed live)) 1 0x21 (fl (dEraseEp w)) ∧
    keyTgt (fl (dEraseEp w)).raw = .ep 3 ∧ (fl (dEraseEp w)).stage = .none ∧ dByte (fl (dEraseEp w)).raw 42 1 ≤ 2 ∧
    keyBehind (runs (dEraseEp w) (withRec 3 recKeyed live)) (fl (dEraseEp w)) = false := by decide +kernel
/-- An erase whose key a slot still holds, before and after it has begun to wait. -/
def wEraseHeld (st : Stage) : State :=
  withFlight { fl (dEraseEp 1) with stage := st } (withSlot { slotReady with refs := 1 } (withRec 3 recKeyed live))
theorem test_wit_EraseHeld : Runs (wEraseHeld .none) 1 0x21 (fl (dEraseEp 1)) ∧
    (∃ p ∈ (wEraseHeld .none).keys.slots, p.2.handle = epHandle 3 ∧ p.2.st ≠ 0 ∧
      p.2.gen ∈ eraseGens (recGet (wEraseHeld .none) 3) (dByte (fl (dEraseEp 1)).raw 42 1)) ∧
    Runs (runsAs (.wait 0 1 0) (dEraseEp 1) (withRec 3 recKeyed live)) 1 0x21 { fl (dEraseEp 1) with stage := .wait 0 1 0 } ∧
    slotHolds (runsAs (.wait 0 1 0) (dEraseEp 1) (withRec 3 recKeyed live)) (epHandle 3)
      (eraseGens (recGet (withRec 3 recKeyed live) 3) (dByte (fl (dEraseEp 1)).raw 42 1)) = false := by decide +kernel
theorem test_wit_EraseInUse :
    childCount (runs dEraseDir (withRec 3 recKeyed (withDomain live))) 0x30000000 ≠ 0 ∧
    (dirGet (runs dEraseDir (withRec 3 recKeyed (withDomain live))) 0x30000000).st ≠ 2 ∧
    childCount (runs dEraseRoot (withDomain live)) 0x20000000 ≠ 0 ∧
    (rootGet (runs dEraseRoot (withDomain live)) 0).revoked = false := by decide +kernel
theorem test_wit_EraseDir : Runs (runs dEraseDir (withDomain live)) 1 0x21 (fl dEraseDir) ∧
    keyTgt (fl dEraseDir).raw = .dir 0x30000000 ∧ dByte (fl dEraseDir).raw 42 1 = 0 ∧
    (dirGet (runs dEraseDir (withDomain live)) 0x30000000).st ≠ 0 ∧
    childCount (runs dEraseDir (withDomain live)) 0x30000000 = 0 := by decide +kernel
theorem test_wit_EraseRoot : Runs (runs dEraseRoot (withRoot live)) 1 0x21 (fl dEraseRoot) ∧
    keyTgt (fl dEraseRoot).raw = .root 0 ∧ (rootGet (runs dEraseRoot (withRoot live)) 0).empty = false ∧
    childCount (runs dEraseRoot (withRoot live)) 0x20000000 = 0 ∧ rootChangeOpen (runs dEraseRoot (withRoot live)) = true := by
  decide +kernel

def dPinEp : List (Nat × Nat × Nat) := [(0, 1, 0x22), (4, 4, 3)]
def dPinDir : List (Nat × Nat × Nat) := [(0, 1, 0x22), (24, 4, 0x30000000)]
def dUnpin : List (Nat × Nat × Nat) := [(0, 1, 0x23), (4, 4, 3)]
def wPinEp : State := runs dPinEp (withRec 3 recKeyed (withDomain live))
def wPinDir : State := runs dPinDir (withDomain live)
def wUnpin : State := runs dUnpin (withPin 3 (withRec 3 recKeyed (withDomain live)))
theorem test_wit_PinEp : Runs wPinEp 1 0x22 (fl dPinEp) ∧ keyTgt (fl dPinEp).raw = .ep 3 ∧ kcRevoked (recGet wPinEp 3) = false ∧
    keyBehind wPinEp (fl dPinEp) = false ∧ pinBlobs (recGet wPinEp 3) = [epBlob 1] ∧
    dirUse wPinEp (0x30000000 + kcDomain (recGet wPinEp 3)) = .ok 0x55 1 ∧
    (pinsExceed wPinEp ((pinBlobs (recGet wPinEp 3)).length - pinsOf wPinEp (epHandle 3))).1 = false ∧
    (pinEpAll wPinEp 3 (pinBlobs (recGet wPinEp 3))).isSome = true := by decide +kernel
/-- Without a pipeline that unwraps the pin waits; without its domain the key is as one revoked. -/
def wPinWait : State := { wPinEp with funcs := [] }
def wPinRevoked : State := runs dPinEp (withRec 3 recKeyed live)
/-- 2,048 keys pinned already. -/
def manyPins (s : State) : State :=
  setKeys (fun k => { k with slots := (List.range 2048).map fun i => (i, { slotReady with handle := 0x40001000 + i, pin := true }) }) s
theorem test_wit_PinEpEnds : pinEpAll wPinWait 3 (pinBlobs (recGet wPinWait 3)) = none ∧ Runs wPinWait 1 0x22 (fl dPinEp) ∧
    pinBlobs (recGet wPinRevoked 3) ≠ [] ∧ dirUse wPinRevoked (0x30000000 + kcDomain (recGet wPinRevoked 3)) = .empty ∧
    (pinsExceed (manyPins wPinEp) ((pinBlobs (recGet (manyPins wPinEp) 3)).length - pinsOf (manyPins wPinEp) (epHandle 3))).1 =
      true := by decide +kernel
theorem test_wit_PinDir : Runs wPinDir 1 0x22 (fl dPinDir) ∧ keyTgt (fl dPinDir).raw = .dir 0x30000000 ∧
    keyBehind wPinDir (fl dPinDir) = false ∧ dirUse wPinDir 0x30000000 = .ok 0x55 1 ∧ (pinsExceed wPinDir 1).1 = false ∧
    (ensureDir wPinDir 0x30000000 true).isSome = true ∧ (pinsExceed (manyPins wPinDir) 1).1 = true ∧
    dirUse (runs dPinDir live) 0x30000000 = .empty ∧ dirUse (setKeys (fun k => { k with roots := [] }) wPinDir) 0x30000000 =
      .revoked := by decide +kernel
def dPinRoot (op : Nat) : List (Nat × Nat × Nat) := [(0, 1, op), (24, 4, 0x20000000)]
theorem test_wit_PinRoot : ∀ op ∈ [0x22, 0x23], Runs (runs (dPinRoot op) (withRoot live)) 1 op (fl (dPinRoot op)) ∧
    keyTgt (fl (dPinRoot op)).raw = .root 0 ∧ (rootGet (runs (dPinRoot op) (withRoot live)) 0).empty = false ∧
    (rootGet (runs (dPinRoot op) live) 0).empty = true ∧ Runs (runs (dPinRoot op) live) 1 op (fl (dPinRoot op)) := by
  decide +kernel
def dUnpinDir : List (Nat × Nat × Nat) := [(0, 1, 0x23), (24, 4, 0x30000000)]
theorem test_wit_Unpin : Runs wUnpin 1 0x23 (fl dUnpin) ∧ keyTgt (fl dUnpin).raw = .ep 3 ∧ (pinGet wUnpin 3).on = true ∧
    keyBehind wUnpin (fl dUnpin) = false ∧ (pinGet (runs dUnpin live) 3).on = false ∧
    Runs (runs dUnpinDir (setKeys (fun k => { k with dir := [(0x30000000, { dirAt domBlob with pinned := true })] }) live)) 1 0x23
      (fl dUnpinDir) ∧ keyTgt (fl dUnpinDir).raw = .dir 0x30000000 ∧ (dirGet live 0x30000000).pinned = false := by decide +kernel

def dInvEp : List (Nat × Nat × Nat) := [(0, 1, 0x24), (4, 4, 3)]
def dInvDir : List (Nat × Nat × Nat) := [(0, 1, 0x24), (24, 4, 0x30000000)]
def dInvRoot : List (Nat × Nat × Nat) := [(0, 1, 0x24), (24, 4, 0x20000000)]
def wInv (d : List (Nat × Nat × Nat)) : State := runs d (withSlot slotReady (withRec 3 recKeyed (withDomain live)))
theorem test_wit_Invalidate : Runs (wInv dInvEp) 1 0x24 (fl dInvEp) ∧ keyTgt (fl dInvEp).raw = .ep 3 ∧
    Runs (wInv dInvDir) 1 0x24 (fl dInvDir) ∧ keyTgt (fl dInvDir).raw = .dir 0x30000000 ∧
    (dirGet (wInv dInvDir) 0x30000000).st ≠ 0 ∧ Runs (wInv dInvRoot) 1 0x24 (fl dInvRoot) ∧
    keyTgt (fl dInvRoot).raw = .root 0 ∧ (rootGet (wInv dInvRoot) 0).empty = false ∧
    rootChangeOpen (wInv dInvRoot) = true ∧ keyBehind (wInv dInvEp) (fl dInvEp) = false ∧
    slotUnder (wInv dInvEp) (epHandle 3) slotReady = true ∧ slotUnder (wInv dInvDir) 0x30000000 slotReady = true ∧
    slotUnder (wInv dInvRoot) 0x20000000 slotReady = true := by decide +kernel
theorem test_wit_InvalidateRefused : (dirGet (runs dInvDir live) 0x30000000).st = 0 ∧ (rootGet (runs dInvRoot live) 0).empty = true ∧
    rootChangeOpen { wInv dInvRoot with upd := { (wInv dInvRoot).upd with state := 2 } } = false ∧
    (∀ op ∈ [0x21, 0x22, 0x23, 0x24], keyTgt (fl [(0, 1, op), (24, 4, 0x70000000)]).raw = .badHandle ∧
      Runs (runs [(0, 1, op), (24, 4, 0x70000000)] live) 1 op (fl [(0, 1, op), (24, 4, 0x70000000)])) := by decide +kernel

def wZeroize (st : Nat) : State := withSlot { slotReady with st := st } live
def busyFlight : Flight := flightAs (.wait 0 0 0) (mkDesc [(0, 1, 0x29)])
theorem test_wit_SlotZeroize : ∀ st ∈ [3, 4], awake (wZeroize st) = true ∧ (slotGet (wZeroize st) 0).st = st ∧
    (∀ f ∈ (wZeroize st).host.flights, dOpcode f.raw ≠ 0x21 ∧ dOpcode f.raw ≠ 0x12) := by decide +kernel
/-- An erase that waits for the slot that is being zeroed. -/
def wZeroErase : State := runsAs (.wait 0 1 0) (dEraseEp 1) (withSlot { slotReady with st := 4 } (withRec 3 recKeyed live))
theorem test_wit_ZeroErase : wZeroErase.host.flights = [{ fl (dEraseEp 1) with stage := .wait 0 1 0 }] ∧
    (slotGet wZeroErase 0).st = 4 ∧ keyTgt (fl (dEraseEp 1)).raw = .ep 3 ∧ dOpcode (fl (dEraseEp 1)).raw = 0x21 ∧
    slotHolds (slotPut wZeroErase 0 Slot.free) (epHandle 3)
      (eraseGens (recGet wZeroErase 3) (dByte (fl (dEraseEp 1)).raw 42 1)) = false := by decide +kernel
/-- Every slot held by work. -/
def wSlotsFull : State :=
  setKeys (fun k => { k with slots := (List.range 8192).map fun i => (i, { slotReady with refs := 1 }) }) (withFlight busyFlight live)
theorem test_wit_SlotBusy : awake wSlotsFull = true ∧ flightOf wSlotsFull 1 = some busyFlight ∧
    busyFlight.discard = false ∧ busyFlight.stage = .wait 0 0 0 ∧ msPassed wSlotsFull 0 1 = true ∧
    busyFlight.ended = false ∧ dOpcode busyFlight.raw ∈ slotOps ∧ slotAlloc wSlotsFull = none ∧
    slotAlloc (withFlight busyFlight live) ≠ none := by decide +kernel

/-! ## Doorbells, rings, registers -/

def withReg (off : Nat) (w : Word) (s : State) : State := regPut s off w
def fnAt (st : FnSt) : Fn := ⟨st, false, false, []⟩
def withCq (c : Nat) (x : Cq) (s : State) : State := cqPut s c x
def withSq (q : Nat) (x : Sq) (s : State) : State := sqPut s q x
def withRr (r : Nat) (x : Rr) (s : State) : State := rrPut s r x
/-- Completion, submission and reading ring 0 ON. -/
def ringsOn : State :=
  withRr 0 { Rr.idle with fn := fnAt .on, g := 4 } (withSq 0 { Sq.idle with fn := fnAt .on, tail := 1 }
    (withCq 0 { Cq.idle with fn := fnAt .on } live))

theorem test_wit_DoorbellsAccept : awake ringsOn = true ∧ (1 : Word).toNat < sqSize ringsOn 0 ∧
    (0 : Word).toNat < cqSize ringsOn 0 ∧ ((0 : Word).toNat + cqSize ringsOn 0 - (cqGet ringsOn 0).head) % cqSize ringsOn 0 ≤
      ((cqGet ringsOn 0).tail + cqSize ringsOn 0 - (cqGet ringsOn 0).head) % cqSize ringsOn 0 ∧
    ((16 : Word) - (rrGet ringsOn 0).g).toNat ≤ rrSize ringsOn 0 ∧ ((16 : Word) - (rrGet ringsOn 0).w).toNat ≤ rrSize ringsOn 0 := by
  decide +kernel
theorem test_wit_DoorbellsRefuse : sqSize ringsOn 0 ≤ (16 : Word).toNat ∧ cqSize ringsOn 0 ≤ (16 : Word).toNat ∧
    rrSize ringsOn 0 < ((21 : Word) - (rrGet ringsOn 0).g).toNat ∧ ¬ (4 = 0 ∧ 4 = 4) := by decide +kernel

def pushLive (n : Nat) : State :=
  let s := withReg 0x1040 0x80000000 ringsOn
  { s with host := { s.host with pushBuf := (List.range n).map (· + 100) } }
theorem test_wit_PushAccepted : awake (pushLive 63) = true ∧ wbit (regGet (pushLive 63) 0x1040) 31 = true ∧
    (sqGet (pushLive 63) (fld (regGet (pushLive 63) 0x1040) 0 6)).fn.st = .on ∧ (pushLive 63).host.pushBuf.length < 64 := by
  decide +kernel
theorem test_wit_PushFull : wbit (regGet (pushLive 64) 0x1040) 31 = true ∧
    (sqGet (pushLive 64) (fld (regGet (pushLive 64) 0x1040) 0 6)).fn.st = .on ∧ 64 ≤ (pushLive 64).host.pushBuf.length ∧
    63 ≠ 64 := by decide +kernel
def pushed : State :=
  let s := withFlight { flightAs .none (mkDesc dNop) with inPush := true, idx := none } ringsOn
  { s with host := { s.host with pushBuf := [1] } }
theorem test_wit_PushAdmission : awake pushed = true ∧ pushed.host.pushBuf = [1] ∧ tc0Used pushed < 64 ∧ pushed.host.admQ = [] ∧
    placeFree pushed 0 = true ∧ (flightOf pushed 1).isSome = true ∧
    (∀ f ∈ pushed.host.flights, f.discard = false ∧ jrnlReady pushed f = true) := by decide +kernel

theorem test_wit_RingEnable : awake live = true ∧ wbit (0x80000004 : Word) 31 = true ∧ (cqGet live 0).fn.st = .off ∧
    sizeOk (regFld (regWrite (bwRx (linkUp live) 66 4) 0x1C08 0x80000004) 0x1C08 0 5) = true ∧
    sizeOk (regFld (regWrite (bwRx (linkUp live) 66 4) 0x1C08 0x80000003) 0x1C08 0 5) = false ∧
    sizeOk 3 = false ∧ (cqGet live (sqCqId (regWrite (bwRx (linkUp live) 66 4) 0x1410 0x80000004) 0)).fn.st = .off ∧
    (sqGet live 0).fn.st = .off ∧ (rrGet live 0).fn.st = .off ∧
    sizeOk (regFld (regWrite (bwRx (linkUp live) 66 4) 0x2410 0x80000004) 0x2410 0 5) = true := by decide +kernel
def cqLive : State := withCq 0 { Cq.idle with fn := fnAt .on } live
theorem test_wit_RingEnableSubmission : (sqGet cqLive 0).fn.st = .off ∧
    sizeOk (regFld (regWrite (bwRx (linkUp cqLive) 66 4) 0x1410 0x80000004) 0x1410 0 5) = true ∧
    (cqGet cqLive (sqCqId (regWrite (bwRx (linkUp cqLive) 66 4) 0x1410 0x80000004) 0)).fn.st = .on := by decide +kernel
theorem test_wit_RingDisable : awake ringsOn = true ∧ wbit (4 : Word) 31 = false ∧ (cqGet ringsOn 0).fn.st = .on ∧
    (sqGet ringsOn 0).fn.st = .on ∧ (rrGet ringsOn 0).fn.st = .on := by decide +kernel

theorem test_wit_Fetch : awake ringsOn = true ∧ (sqGet ringsOn 0).fn.st = .on ∧ ringsOn.host.linkDown = false ∧
    (sqGet ringsOn 0).head ≠ (sqGet ringsOn 0).tail ∧ placeFree ringsOn (dTc (mkDesc dNop)) = true ∧
    fenceStopped ringsOn 0 = false ∧ fetchGrant ringsOn 0 = true ∧ coresPaused ringsOn = false ∧
    journaled (dOpcode (mkDesc dNop)) = false := by decide +kernel
def admitting : State :=
  let s := withFlight { flightAs .none (mkDesc [(0, 1, 0x40), (4, 4, 3)]) with admWait := true } ringsOn
  { s with host := { s.host with admQ := [.desc 1] } }
theorem test_wit_Admission : awake admitting = true ∧ admitting.host.admQ = [.desc 1] ∧ tc0Used admitting < 64 ∧
    (flightOf admitting 1).isSome = true ∧ (∀ f ∈ admitting.host.flights, f.discard = false) := by decide +kernel

def cplOne (h : Option Nat) : Cpl :=
  { uid := 1, unsol := false, sq := 0, tag := 5, status := 0, progress := 0, dt := 9, result := 3, irqNow := true, headIdx := h,
    after := none, tc0 := false }
def completing (h : Option Nat) (tail : Nat) : State :=
  withReg 0x1C00 0x4000 (withFlight { flightAs .none (mkDesc dNop) with ended := true }
    (withCq 0 { Cq.idle with fn := fnAt .on, waiting := [cplOne h], tail := tail } ringsOn))
theorem test_wit_CompletionWrite : ∀ tail ∈ [0, 14], awake (completing none tail) = true ∧
    (cqGet (completing none tail) 0).waiting = cplOne none :: [] ∧ cplReady (completing none tail) 0 (cplOne none) = true := by
  decide +kernel
def timerUp : State :=
  withReg 0x1C0C 0x80000A05 (withCq 0 { Cq.idle with fn := fnAt .on, timer := some 5, unsig := 5 } live)
def irqOff : State := withReg 0x1C0C 0x00000A05 (withCq 0 { Cq.idle with fn := fnAt .on, timer := none, unsig := 5 } live)
theorem test_wit_Interrupts : cqTimeUp timerUp 0 = true ∧ cqIrqEn timerUp 0 = true ∧ cqIrqEn irqOff 0 = false ∧
    cqIrqEn (regWrite (bwRx (linkUp irqOff) 66 4) 0x1C0C 0x80000A05) 0 = true ∧
    cqCount (regWrite (bwRx (linkUp irqOff) 66 4) 0x1C0C 0x80000A05) 0 ≤ (cqGet irqOff 0).unsig ∧
    (cqGet irqOff 0).unsig < cqCount (regWrite (bwRx (linkUp irqOff) 66 4) 0x1C0C 0x80000A06) 0 ∧
    cqTimeUp (regWrite (bwRx (linkUp irqOff) 66 4) 0x1C0C 0x80000A06) 0 = false := by decide +kernel

def delivOne : Deliv := { id := 7, tc0 := false, rd := ownRecord live 3 1 0, group := 0, cls := 0, uid := none, ring := none }
def delivering : State :=
  let s := withReg 0x2400 0x8000 (withReg 0x2408 0x100 ringsOn)
  { s with host := { s.host with deliv := [delivOne] } }
theorem test_wit_Delivery : awake delivering = true ∧ rrNext delivering 0 = some delivOne ∧ delivering.harn.served = none ∧
    (regGet delivering 0x2408).toNat + 4 ≤ (regGet delivering 0x2400).toNat := by decide +kernel

theorem test_wit_Registers : awake live = true ∧ ¬ ((2 : Nat) = 4 ∧ 0x20 % 4 = 0) ∧ fld (0x1000 : Word) 0 6 = 0 ∧
    wbit (regGet (withReg 0x300 0x80000000 live) 0x300) 31 = true := by decide +kernel
theorem test_wit_Watermark : awake live = true ∧ live.glob.wm.length = 4 := by decide +kernel
theorem test_wit_ClearAndRole : awake live = true ∧ wbit (1 : Word) 0 = true ∧ wbit (0x80000000 : Word) 31 = true ∧
    gateHeld live .role 3 = false ∧ gateHeld (withFn 0x0203 .on live) .role 3 = true := by decide +kernel
theorem test_wit_Windows : 1 ≤ fld (1 : Word) 0 14 ∧ fld (10000 : Word) 0 14 ≤ 10000 ∧ fld (0x44 : Word) 0 7 ≤ 68 ∧
    68 < fld (0x45 : Word) 0 7 ∧ msPassed live live.cnt.bwStart (regFld live 0x900 0 14) = true ∧
    wbit (regGet live 0x8E0) 31 = false ∧ wbit (0x80000000 : Word) 31 = true := by decide +kernel

/-! ## Retiring, the journal, seals -/

def dRetire : List (Nat × Nat × Nat) := [(0, 1, 0x12), (1, 1, 1), (4, 4, 3)]
def wRetire : State := runs dRetire (withRec 3 recActive live)
def wRetireWait : State :=
  withFlight (flightAs (.wait 0 0 0) (mkDesc dRetire)) (withRec 3 { recActive with state := 3 } live)
theorem test_wit_Retire : Runs wRetire 1 0x12 (fl dRetire) ∧ (recGet wRetire (dEid (fl dRetire).raw)).state = 1 ∧
    (fl dRetire).stage = .none ∧ chRadio wRetire (chanOf wRetire 3) = false ∧ eidBusy wRetire 3 = false ∧
    eidReadings wRetire 3 = false ∧ wRetire.keys.slots = [] := by decide +kernel
theorem test_wit_RetireDrain : Runs wRetireWait 1 0x12 (flightAs (.wait 0 0 0) (mkDesc dRetire)) ∧
    (recGet wRetireWait 3).state = 3 ∧ eidBusy wRetireWait 3 = false ∧ eidReadings wRetireWait 3 = false ∧
    wRetireWait.keys.slots = [] := by decide +kernel
theorem test_wit_RetireFree : Runs (runs dRetire live) 1 0x12 (fl dRetire) ∧ (recGet (runs dRetire live) 3).state = 0 := by
  decide +kernel

/-- The interval store ON with two dies. -/
def withStore (s : State) : State := withFn 0x0801 .on (withFn 0x0800 .on (withFn 0x0A00 .on s))
def wJournal : State := let s := withStore (withRec 3 recActive live)
  { s with recs := { s.recs with jtail := [⟨5, 1, .epRec 3 recActive⟩], jseq := 6 } }
theorem test_wit_Journal : awake wJournal = true ∧ storeOn wJournal = true ∧ diesOn wJournal ≠ [] ∧ wJournal.recs.jtail ≠ [] ∧
    wJournal.recs.jwait = [] ∧ ckptDue wJournal = false ∧ ckptDue { wJournal with tcxo := 1000000000000 } = true := by
  decide +kernel
def wMigrate : State := withRec 3 { recActive with version := 1 } live
theorem test_wit_Migrate : awake wMigrate = true ∧ tailOpen wMigrate = true ∧ migrateLeft wMigrate = 3 :: [] := by decide +kernel

def signBlob : Blob := blobOf 0x77 0x48000000 0x20000000 1 4 16
/-- Session and signing key set and usable, both in the kennel. -/
def withSeals (s : State) : State :=
  let s := setKeys (fun k => { k with
    dir := [(0x44000000, dirAt sessBlob), (0x48000000, dirAt signBlob)]
    slots := [(0, { Slot.free with st := 2, handle := 0x44000000, gen := 1, sh := ⟨0x55, 0, 0⟩ }),
              (1, { Slot.free with st := 2, handle := 0x48000000, gen := 1, sh := ⟨0x55, 0, 0⟩ })] }) (withRoot s)
  { s with sealU := { s.sealU with set := true, session := 0x44000000, sign := 0x48000000 } }
def sealOne : SealItem := { rd := ownRecord live 3 1 0, group := 0, cls := 0, tc0 := false, rid := 0, uid := none }
def batchAt (n : Nat) (opened : Nat) : Batch :=
  { bid := 9, prev := 8, session := 0x44000000, sGen := 1, sign := 0x48000000, gGen := 1, dtOpen := 0, dtClose := 0, cause := 0,
    rebuilt := false, gaps := false, closeMs := 250, opened := opened, leaves := List.replicate n 7, recs := [] }
def wLeaf (b : Option Batch) : State := let s := withSeals live
  { s with sealU := { s.sealU with queue := [sealOne], batch := b } }
theorem test_wit_Leaf : awake (wLeaf none) = true ∧ (wLeaf none).sealU.queue = sealOne :: [] ∧
    sealKeys (wLeaf none) = some (0x55, 1, 0x55, 1, 4) ∧ sealHeld (wLeaf none) 0 = false ∧
    slotFind (wLeaf none) (wLeaf none).sealU.session 1 2 = some 0 ∧ batchMayOpen (wLeaf none) 0 = true ∧
    (cipherRun (slotHand (batchOpen (wLeaf none) 1 1) 0).1 1 (slotHand (batchOpen (wLeaf none) 1 1) 0).2 8).2 = some 0 ∧
    sealKeys { wLeaf none with sealU := { (wLeaf none).sealU with set := false } } = none := by decide +kernel
theorem test_wit_LeafOpen : (wLeaf (some (batchAt 2 9999999999))).sealU.batch = some (batchAt 2 9999999999) ∧
    batchDue (wLeaf (some (batchAt 2 9999999999))) (batchAt 2 9999999999) = false ∧ (batchAt 2 9999999999).sGen = 1 ∧
    (cipherRun (slotHand (wLeaf (some (batchAt 2 9999999999))) 0).1 1 (slotHand (wLeaf (some (batchAt 2 9999999999))) 0).2 8).2 =
      some 0 := by decide +kernel
theorem test_wit_LeafLast : (batchAt 4095 9999999999).leaves.length + 1 = 4096 ∧
    batchDue (wLeaf (some (batchAt 4095 9999999999))) (batchAt 4095 9999999999) = false := by decide +kernel
def wClose : State := wLeaf (some (batchAt 2 0))
def wSign : State := let s := withSeals live
  { s with sealU := { s.sealU with signQ := [batchAt 2 0] } }
theorem test_wit_BatchClose : awake wClose = true ∧ wClose.sealU.batch = some (batchAt 2 0) ∧ batchDue wClose (batchAt 2 0) = true := by
  decide +kernel
theorem test_wit_BatchSign : awake wSign = true ∧ wSign.sealU.signQ = batchAt 2 0 :: [] ∧
    dirUse wSign (batchAt 2 0).sign = .ok 0x55 1 ∧ (dirGet wSign (batchAt 2 0).sign).cur = some signBlob ∧
    slotFind wSign (batchAt 2 0).sign 1 2 = some 1 ∧ storeRoom wSign = true ∧ (signDraw wSign).isSome = true ∧
    signDraw { wSign with ce := { wSign.ce with exhausted := true } } = none := by decide +kernel

def dSealSet : List (Nat × Nat × Nat) := [(0, 1, 0x29), (24, 4, 0x44000000), (28, 4, 0x48000000), (32, 2, 7)]
def wSealSet : State := runs dSealSet (withSeals live)
def wSealSetBad : State := runs dSealSet live
theorem test_wit_SealKeySet : Runs wSealSet 1 0x29 (fl dSealSet) ∧
    (hIsDir (dByte (fl dSealSet).raw 24 4) && hIsSession (dByte (fl dSealSet).raw 24 4)) = true ∧
    (hIsDir (dByte (fl dSealSet).raw 28 4) && hIsSign (dByte (fl dSealSet).raw 28 4)) = true ∧
    sealKeyWrong wSealSet 0x44000000 = false ∧ sealKeyWrong wSealSet 0x48000000 = false ∧
    sealKeyBad wSealSet 0x44000000 = none ∧ sealKeyBad wSealSet 0x48000000 = none ∧
    (pinsExceed wSealSet (sealNewPins wSealSet 0x44000000 + sealNewPins wSealSet 0x48000000)).1 = false ∧
    (pinsExceed (manyPins wSealSet) 2).1 = true ∧
    ((sealPin wSealSet 0x44000000).bind fun x => sealPin x 0x48000000).isSome = true := by decide +kernel
def dSealSwap : List (Nat × Nat × Nat) := [(0, 1, 0x29), (24, 4, 0x48000000), (28, 4, 0x44000000)]
theorem test_wit_SealKeyRefused : Runs wSealSetBad 1 0x29 (fl dSealSet) ∧ sealKeyBad wSealSetBad 0x44000000 = some 0x13 ∧
    sealKeyWrong wSealSetBad 0x44000000 = false ∧ hIsSession (dByte (fl dSealSwap).raw 24 4) = false ∧
    hIsSign 0x44000000 = false ∧ Runs (runs dSealSwap live) 1 0x29 (fl dSealSwap) := by decide +kernel

def dBatchLog (wait : Nat) : List (Nat × Nat × Nat) := [(0, 1, 0x28), (8, 8, 0x4000), (16, 4, 512), (32, 2, wait)]
def dBatchPath : List (Nat × Nat × Nat) := [(0, 1, 0x28), (8, 8, 0x4000), (16, 4, 384), (24, 1, 1), (36, 8, 9), (44, 2, 1)]
def wBatchLog (wait : Nat) : State := runs (dBatchLog wait) live
def wBatchWait : State := withFlight (flightAs (.wait 0 10000 0) (mkDesc (dBatchLog 10000))) live
def wBatchPath (n : Nat) : State := let s := runs dBatchPath live
  { s with sealU := { s.sealU with recent := [batchAt n 0] } }
theorem test_wit_BatchGetLog : ∀ wait ∈ [0, 10000], Runs (wBatchLog wait) 1 0x28 (fl (dBatchLog wait)) ∧
    (wBatchLog wait).host.linkDown = false ∧ dByte (fl (dBatchLog wait)).raw 24 1 = 0 ∧
    spanSet (fl (dBatchLog wait)).raw 36 10 = none ∧ dByte (fl (dBatchLog wait)).raw 32 2 = wait ∧
    ((logVisible (wBatchLog wait)).any fun e => decide (dByte (fl (dBatchLog wait)).raw 28 4 ≤ e.lseq.toNat)) = false := by
  decide +kernel
theorem test_wit_BatchGetExpiry : Runs wBatchWait 1 0x28 (flightAs (.wait 0 10000 0) (mkDesc (dBatchLog 10000))) ∧
    msPassed wBatchWait 0 10000 = true := by decide +kernel
theorem test_wit_BatchGetPath : ∀ n ∈ [1, 2], Runs (wBatchPath n) 1 0x28 (fl dBatchPath) ∧ dByte (fl dBatchPath).raw 24 1 = 1 ∧
    spanSet (fl dBatchPath).raw 28 6 = none ∧ 384 ≤ dBufLen (fl dBatchPath).raw ∧
    (wBatchPath n).sealU.recent.find? (fun b => b.bid.toNat == dByte (fl dBatchPath).raw 36 8) = some (batchAt n 0) := by
  decide +kernel
theorem test_wit_BatchGetPathNone : Runs (runs dBatchPath live) 1 0x28 (fl dBatchPath) ∧
    (∀ b ∈ (runs dBatchPath live).sealU.recent, b.bid.toNat ≠ dByte (fl dBatchPath).raw 36 8) := by decide +kernel

theorem test_wit_BatchGetMode : 1 < dByte (fl [(0, 1, 0x28), (8, 8, 64), (16, 4, 384), (24, 1, 2)]).raw 24 1 ∧
    Runs (runs [(0, 1, 0x28), (8, 8, 64), (16, 4, 384), (24, 1, 2)] live) 1 0x28
      (fl [(0, 1, 0x28), (8, 8, 64), (16, 4, 384), (24, 1, 2)]) := by decide +kernel

/-! ## The store, time -/

def withStoreSt (g : StoreSt → StoreSt) (s : State) : State := { s with store := g s.store }
/-- An entry of a reading. -/
def entAt (n : Nat) : SEnt :=
  { ssn := n, typ := 1, quar := false, eid := 3, dt := BitVec.ofNat 64 (n * 2 ^ 24), rid := 0, post := none, pw := 0,
    rd := some (ownRecord live 3 1 0), body := List.replicate 192 1 }
def unitAt (num place left : Nat) (l : List SEnt) : SUnit :=
  { num := num, ents := l, die := 0, place := place, disc := false, unread := false, par := false, left := left, src := none }
/-- A store of two-unit blocks, block 0 of die 0 full, block 1 begun. -/
def stored : State :=
  let ds : List (Nat × Die) :=
    [(0, { Die.none with found := true, next := 3, eraseRow := 2, ppos := 5 }), (1, { Die.none with found := true })]
  withStoreSt (fun t =>
    { t with geom := [16, 4, 8, 20, 100, 0], next := 3, unitNext := 3, dies := ds,
             units := [unitAt 0 0 0 [entAt 0], unitAt 1 1 0 [entAt 1], unitAt 2 2 1 [entAt 2]] })
    (withStore (withRr 0 { Rr.idle with fn := fnAt .on, g := 8 } live))

def dQuery : List (Nat × Nat × Nat) :=
  [(0, 1, 0x60), (8, 8, 0x4000), (16, 4, 4096), (25, 1, 15), (28, 4, 0xFFFFFFFF), (40, 8, 3), (48, 4, 2)]
theorem test_wit_StoreQuery : Runs (runs dQuery stored) 1 0x60 (fl dQuery) ∧ queryBad (runs dQuery stored) (fl dQuery).raw false = none ∧
    (fnGet (runs dQuery stored) 0x0A00).st = .on ∧ (runs dQuery stored).host.linkDown = false ∧
    (fnGet (runs dQuery live) 0x0A00).st = .off ∧ Runs (runs dQuery live) 1 0x60 (fl dQuery) ∧
    queryBad (runs dQuery live) (fl dQuery).raw false = none := by decide +kernel
def dDiscard (m hi : Nat) : List (Nat × Nat × Nat) := [(0, 1, 0x61), (24, 1, m), (40, 8, hi)]
/-- An entry of any size fits an empty tail under the reset cap of 4 MiB, and a class's reserve beside it. -/
theorem tailHolds_of (s : State) (spare kind : Nat) (h : tailBytes s = 0) (hr : regFld s 0x9120 0 4 = 4) (hs : spare ≤ 4096) :
    tailHolds s spare kind = true := by
  have hl := (Config.entryLen kind).isLt
  have : tailBytes s + Config.entryBytes kind + spare ≤ regFld s 0x9120 0 4 * 1048576 := by
    rw [h, hr]; simp only [Config.entryBytes]; omega
  simp [tailHolds, this]
theorem tailRoom_of (s : State) (e : JEnt) (hj : s.recs.jwait = []) (h : tailBytes s = 0) (hr : regFld s 0x9120 0 4 = 4) :
    tailRoom s e = true := by
  simp [tailRoom, tailFits, hj, tailHolds_of s 0 (entKind e) h hr (by decide)]
theorem tailOpenTc_of (s : State) (tc : Nat) (hj : s.recs.jwait = []) (h : tailBytes s = 0) (hr : regFld s 0x9120 0 4 = 4) :
    tailOpenTc s tc = true := by
  have hs : (if tc = 0 then 0 else 4096) ≤ 4096 := by split <;> decide
  simp [tailOpenTc, hj, tailHolds_of s _ 0 h hr hs]
/-- A started descriptor the tail is open for runs. -/
theorem runs_of_open {s : State} {uid op : Nat} {f : Flight} (hf : flightOf s uid = some f)
    (h : (f.started && !f.admWait && !f.inPush && !f.ended && dOpcode f.raw == op && coreRuns s op && fenceOpen s f) = true)
    (ho : tailOpenTc s (dTc f.raw) = true) (ha : awake s = true ∧ f.discard = false) :
    Runs s uid op { f with started := true } := by
  simp only [Bool.and_eq_true] at h
  simp [Runs, runnable, stateShut, hf, ho, h, ha]
theorem stored_open (l : List (Nat × Nat × Nat)) (tc : Nat) : tailOpenTc (runs l stored) tc = true :=
  tailOpenTc_of _ tc rfl rfl (show regFld stored 0x9120 0 4 = 4 by decide +kernel)
theorem test_wit_StoreDiscard : ∀ m ∈ [0, 1], Runs (runs (dDiscard m 2) stored) 1 0x61 (fl (dDiscard m 2)) :=
  fun m _ => runs_of_open (f := fl (dDiscard m 2)) rfl
    (by revert m; decide +kernel) (stored_open _ _) (by revert m; decide +kernel)
theorem test_wit_StoreDiscardBytes : ∀ m ∈ [0, 1],
    dByte (fl (dDiscard m 2)).raw 24 1 ≤ 1 ∧ dByte (fl (dDiscard m 2)).raw 32 8 < dByte (fl (dDiscard m 2)).raw 40 8 ∧
    (fnGet (runs (dDiscard m 2) stored) 0x0A00).st = .on := by
  decide +kernel
theorem test_wit_StoreDiscardRoom : ∀ m ∈ [0, 1], tailRoom (runs (dDiscard m 2) stored) (.note 18 0) = true :=
  fun m _ => tailRoom_of _ _ rfl rfl (show regFld stored 0x9120 0 4 = 4 by decide +kernel)
def dHealth : List (Nat × Nat × Nat) := [(0, 1, 0x63), (8, 8, 0x4000), (16, 4, 512)]
theorem test_wit_StoreHealth : Runs (runs dHealth stored) 1 0x63 (fl dHealth) ∧ Runs (runs dHealth live) 1 0x63 (fl dHealth) ∧
    (fnGet (runs dHealth stored) 0x0A00).st = .on ∧ (fnGet (runs dHealth live) 0x0A00).st = .off := by decide +kernel
def dReplay : List (Nat × Nat × Nat) := [(0, 1, 0x62), (25, 1, 15), (28, 4, 0xFFFFFFFF), (40, 8, 3), (48, 4, 3)]
theorem test_wit_StoreReplay : Runs (runs dReplay stored) 1 0x62 (fl dReplay) :=
  runs_of_open (f := fl dReplay) rfl (by decide +kernel) (stored_open _ _) (by decide +kernel)
theorem test_wit_StoreReplayAnswer :
    queryBad (runs dReplay stored) (fl dReplay).raw true = none ∧ (fnGet (runs dReplay stored) 0x0A00).st = .on ∧
    (fl dReplay).stage = .none ∧ (fl dReplay).units = 0 ∧
    ((scanEnts (runs dReplay stored)).filter fun e => wanted (fl dReplay).raw e && e.typ == 1).length = dByte (fl dReplay).raw 48 4 ∧
    (runs dReplay stored).host.deliv.length + (runs dReplay stored).sealU.queue.length + 3 ≤ 16320 := by decide +kernel

/-- The four descriptors of the store, and the store in another state. -/
def storeDescs : List (Nat × List (Nat × Nat × Nat)) := [(0x60, dQuery), (0x61, dDiscard 0 2), (0x62, dReplay), (0x63, dHealth)]
def storeAs (st : FnSt) : State := withFn 0x0A00 st stored
theorem test_wit_StoreNotOn : ∀ p ∈ storeDescs, ∀ st ∈ [FnSt.off, .stopping, .starting],
    flightOf (runs p.2 (storeAs st)) 1 = some (fl p.2) ∧ (fnGet (runs p.2 (storeAs st)) 0x0A00).st = st ∧
    workKept (fnGet (runs p.2 (storeAs st)) 0x0A00) (fl p.2) = false ∧
    (p.1 = 0x60 → queryBad (runs p.2 (storeAs st)) (fl p.2).raw false = none) ∧
    (p.1 = 0x62 → queryBad (runs p.2 (storeAs st)) (fl p.2).raw true = none) := by decide +kernel
theorem test_wit_StoreNotOnRuns : ∀ p ∈ storeDescs, ∀ st ∈ [FnSt.off, .stopping, .starting],
    Runs (runs p.2 (storeAs st)) 1 p.1 (fl p.2) := by decide +kernel

def wAppend (n : Nat) : State := withStoreSt (fun t => { t with queue := [entAt 9], open_ := List.replicate n (entAt 5) }) stored
theorem test_wit_StoreAppend : awake (wAppend 0) = true ∧ (wAppend 0).store.queue = entAt 9 :: [] ∧ storeOn (wAppend 0) = true ∧
    diesOn (wAppend 0) ≠ [] ∧ ((wAppend 156).store.open_.map entSize).sum + entSize (entAt 9) ≤ 32704 ∧
    32704 < ((wAppend 157).store.open_.map entSize).sum + entSize (entAt 9) ∧
    progPages (wAppend 157) + 2 * unitPages (wAppend 157) ≤ 192 := by decide +kernel
theorem test_wit_PageProgrammed : dieOn stored 0 = true ∧
    stored.store.units.find? (fun u => u.die == 0 && u.left != 0) = some (unitAt 2 2 1 [entAt 2]) := by decide +kernel
theorem test_wit_GarbageCollection : awake stored = true ∧ storeWorks stored 0 = true ∧ gcVictim stored 0 = some 0 ∧
    gcRoom stored 0 0 = true := by decide +kernel
theorem test_wit_DieFailures : storeOn stored = true ∧ dieOn stored 0 = true ∧ (dieGet stored 0).next ≠ 0 ∧
    2 ≤ (dieGet stored 0).eraseRow ∧ regFld stored 0xA004 0 7 ≤ 60 := by decide +kernel

def dTime (seq t2 : Nat) : List (Nat × Nat × Nat) := [(0, 1, 0x68), (24, 8, 2 ^ 34), (32, 4, seq), (36, 8, t2), (48, 1, 0)]
def tmsg : TMsg := ⟨6, BitVec.ofNat 64 (2 ^ 33), BitVec.ofNat 64 (2 ^ 33 + 100), BitVec.ofNat 64 (2 ^ 33 + 200), false⟩
def timed (m : Option TMsg) : State := let s := withFn 0x0B00 .on live
  { s with time := { s.time with lastMsg := m, dtValid := true } }
theorem test_wit_TimeFirst : Runs (runs (dTime 7 0) (timed none)) 1 0x68 (fl (dTime 7 0)) ∧
    (fnGet (runs (dTime 7 0) (timed none)) 0x0B00).st = .on ∧ timeMember (runs (dTime 7 0) (timed none)) = false ∧
    dByte (fl (dTime 7 0)).raw 48 1 % 4 = 0 ∧ (runs (dTime 7 0) (timed none)).time.lastMsg = none := by decide +kernel
theorem test_wit_TimeExchange : Runs (runs (dTime 7 (2 ^ 33 + 300)) (timed (some tmsg))) 1 0x68 (fl (dTime 7 (2 ^ 33 + 300))) ∧
    dByte (fl (dTime 7 (2 ^ 33 + 300))).raw 36 8 ≠ 0 ∧
    (tmsg.seq.toNat + 1) % 2 ^ 32 = dByte (fl (dTime 7 (2 ^ 33 + 300))).raw 32 4 ∧
    (0 : Int) ≤ ((2 ^ 33 + 300 : Nat) - (tmsg.t1.toNat : Int)) - ((tmsg.t3.toNat : Int) - tmsg.t2.toNat) ∧
    (((2 ^ 33 + 300 : Nat) - (tmsg.t1.toNat : Int)) - ((tmsg.t3.toNat : Int) - tmsg.t2.toNat)) * 1000000 ≤
      ((regFld (timed (some tmsg)) 0x5004 0 16 * 2 ^ 24 : Nat) : Int) ∧
    (Int.tdiv ((((tmsg.t2.toNat : Int) - tmsg.t1.toNat) + ((tmsg.t3.toNat : Int) - (2 ^ 33 + 300 : Nat))) * 1000000000)
      (2 ^ 25 : Nat)).natAbs ≤ regFld (timed (some tmsg)) 0x5000 0 10 * 1000000 := by decide +kernel
/-- The peer's clock lies 600 ms and more away. -/
def tmsgFar : TMsg :=
  ⟨6, BitVec.ofNat 64 (2 ^ 33), BitVec.ofNat 64 (2 ^ 33 + 20000000), BitVec.ofNat 64 (2 ^ 33 + 20000100), false⟩
theorem test_wit_TimeRefused : (0 : Int) ≤ ((2 ^ 33 + 300 : Nat) - (tmsgFar.t1.toNat : Int)) - ((tmsgFar.t3.toNat : Int) - tmsgFar.t2.toNat) ∧
    regFld (timed (some tmsgFar)) 0x5000 0 10 * 1000000 <
    (Int.tdiv ((((tmsgFar.t2.toNat : Int) - tmsgFar.t1.toNat) + ((tmsgFar.t3.toNat : Int) - (2 ^ 33 + 300 : Nat))) * 1000000000)
      (2 ^ 25 : Nat)).natAbs := by decide +kernel
theorem test_wit_TimeDiscarded :
    ((2 ^ 33 + 50 : Nat) - (tmsg.t1.toNat : Int)) - ((tmsg.t3.toNat : Int) - tmsg.t2.toNat) < 0 := by decide +kernel

def wMember (st : FnSt) : State := let s := withFn 0x0B00 st live
  { s with pins := { s.pins with harnMode := 1 }, harn := { s.harn with joined := true, leadReb := some 0 } }
theorem test_wit_TimeNotOn : ∀ st ∈ [FnSt.off, .stopping],
    Runs (runs (dTime 7 0) (withFn 0x0B00 st live)) 1 0x68 (fl (dTime 7 0)) ∧
    (fnGet (runs (dTime 7 0) (withFn 0x0B00 st live)) 0x0B00).st = st := by decide +kernel
theorem test_wit_TimeMember : ∀ st ∈ [FnSt.on, .starting],
    Runs (runs (dTime 7 0) (wMember st)) 1 0x68 (fl (dTime 7 0)) ∧ timeMember (runs (dTime 7 0) (wMember st)) = true ∧
    (fnGet (runs (dTime 7 0) (wMember st)) 0x0B00).st = st := by decide +kernel
/-- A message whose flags bring an offset to UTC and a leap change. -/
def dFlags : List (Nat × Nat × Nat) :=
  [(0, 1, 0x68), (24, 8, 2 ^ 34), (32, 4, 7), (48, 1, 3), (50, 2, 37), (52, 2, 38), (56, 8, 2 ^ 35)]
theorem test_wit_TimeFlags : Runs (runs dFlags (timed none)) 1 0x68 (fl dFlags) ∧
    dByte (fl dFlags).raw 48 1 % 2 = 1 ∧ dByte (fl dFlags).raw 48 1 / 2 % 2 = 1 := by decide +kernel

def dRebase (nonce : Nat) : List (Nat × Nat × Nat) := [(0, 1, 0x69), (24, 4, 0x44000000), (28, 4, nonce), (32, 8, 1000000000)]
def wRebase (nonce : Nat) : State := runs (dRebase nonce) (withSeals live)
theorem test_wit_Rebase : Runs (wRebase 1) 1 0x69 (fl (dRebase 1)) ∧ timeMember (wRebase 1) = false ∧
    (hIsDir (dByte (fl (dRebase 1)).raw 24 4) && hIsSession (dByte (fl (dRebase 1)).raw 24 4) &&
      rebaseUsage (wRebase 1) (dByte (fl (dRebase 1)).raw 24 4)) = true ∧
    dirUse (wRebase 1) (dByte (fl (dRebase 1)).raw 24 4) = .ok 0x55 1 ∧
    dByte (fl (dRebase 1)).raw 28 4 ≠ (wRebase 1).time.nonce.toNat := by decide +kernel

/-- Who may not rebase, and which key is none for it. -/
def dRebaseKey (h : Nat) : List (Nat × Nat × Nat) := [(0, 1, 0x69), (24, 4, h), (32, 8, 1000000000)]
def wRebaseKey (h : Nat) (s : State) : State := runs (dRebaseKey h) s
theorem test_wit_RebaseRefused : Runs (wRebaseKey 0x44000000 (wMember .on)) 1 0x69 (fl (dRebaseKey 0x44000000)) ∧
    timeMember (wRebaseKey 0x44000000 (wMember .on)) = true ∧
    Runs (wRebaseKey 0x30000000 (withSeals live)) 1 0x69 (fl (dRebaseKey 0x30000000)) ∧
    (hIsDir 0x30000000 && hIsSession 0x30000000 && rebaseUsage (withSeals live) 0x30000000) = false ∧
    dirUse (setKeys (fun k => { k with roots := [] }) (wRebaseKey 0x44000000 (withSeals live))) 0x44000000 = .revoked := by
  decide +kernel
/-- A token for a shift whose tag is the one the key gives, which the spec leaves to the cipher. -/
def rebBase (sh : Nat) : Nat := (mkDesc [(0, 1, 0x69), (24, 4, 0x44000000), (32, 8, sh)]).toNat
def rebRaw (sh : Nat) (v : BitVec 128) : BitVec 512 := BitVec.ofNat 512 (rebBase sh + v.toNat * 2 ^ 320)
def rebTag (sh : Nat) : BitVec 128 := Config.gcmTag 0x55 (rebaseIv 0) (rebaseAad sh 0)
theorem rebRaw_toNat (sh : Nat) (h : rebBase sh < 2 ^ 320) (v : BitVec 128) : (rebRaw sh v).toNat = rebBase sh + v.toNat * 2 ^ 320 := by
  have := v.isLt
  simp only [rebRaw, BitVec.toNat_ofNat]
  apply Nat.mod_eq_of_lt
  omega
theorem field_below (b v lo n : Nat) (h : lo + n ≤ 40) :
    (b + v * 2 ^ 320) / 2 ^ (8 * lo) % 2 ^ (8 * n) = b / 2 ^ (8 * lo) % 2 ^ (8 * n) := by
  have e : v * 2 ^ 320 = 2 ^ (8 * lo) * (2 ^ (8 * n) * (v * 2 ^ (320 - 8 * lo - 8 * n))) := by
    rw [Nat.mul_left_comm (2 ^ (8 * n)), Nat.mul_left_comm (2 ^ (8 * lo)), ← Nat.pow_add, ← Nat.pow_add]
    congr 2; omega
  rw [e, Nat.add_mul_div_left _ _ (Nat.two_pow_pos _), Nat.add_mul_mod_self_left]
theorem rebRaw_field (sh : Nat) (hb : rebBase sh < 2 ^ 320) (v : BitVec 128) (lo n : Nat) (h : lo + n ≤ 40) :
    dByte (rebRaw sh v) lo n = dByte (rebRaw sh 0) lo n := by
  unfold dByte
  rw [rebRaw_toNat sh hb, rebRaw_toNat sh hb, field_below _ _ _ _ h, field_below _ _ _ _ h]
theorem rebRaw_tag (sh : Nat) (hb : rebBase sh < 2 ^ 320) (v : BitVec 128) : dByte (rebRaw sh v) 40 16 = v.toNat := by
  have := v.isLt
  unfold dByte
  rw [rebRaw_toNat sh hb]
  show (rebBase sh + v.toNat * 2 ^ 320) / 2 ^ 320 % 2 ^ 128 = v.toNat
  omega
def wToken (sh : Nat) : State := withFlight (flightAs .none (rebRaw sh (rebTag sh))) (withSeals live)
theorem rebZero : ∀ sh ∈ [1000000000, 2 ^ 64 - 1000000000], rebBase sh < 2 ^ 320 ∧ dByte (rebRaw sh 0) 24 4 = 0x44000000 ∧
    dByte (rebRaw sh 0) 28 4 = 0 ∧ dByte (rebRaw sh 0) 32 8 = sh ∧ dByte (rebRaw sh 0) 0 1 = 0x69 ∧ dByte (rebRaw sh 0) 1 1 = 0 := by
  decide +kernel
theorem withSeals_session : dirUse (withSeals live) 0x44000000 = .ok 0x55 1 ∧ drbgOpen (withSeals live) = true ∧
    coreRuns (withSeals live) 0x69 = true ∧ tailOpenTc (withSeals live) 0 = true := by decide +kernel
theorem withFlight_dirUse (f : Flight) (s : State) (h : Nat) : dirUse (withFlight f s) h = dirUse s h := rfl
/-- The descriptor runs, its key is usable and the DRBG open. -/
theorem test_wit_RebaseToken (sh : Nat) (hs : sh ∈ [1000000000, 2 ^ 64 - 1000000000]) :
    Runs (wToken sh) 1 0x69 (flightAs .none (rebRaw sh (rebTag sh))) ∧ dByte (rebRaw sh (rebTag sh)) 24 4 = 0x44000000 ∧
    dirUse (wToken sh) 0x44000000 = .ok 0x55 1 ∧ drbgOpen (wToken sh) = true := by
  obtain ⟨hb, z24, -, -, z0, z1⟩ := rebZero sh hs
  have fd := fun lo n h => rebRaw_field sh hb (rebTag sh) lo n h
  refine ⟨⟨rfl, ?_, ?_, rfl⟩, (fd 24 4 (by omega)).trans z24,
    (withFlight_dirUse _ _ _).trans withSeals_session.1, withSeals_session.2.1⟩
  · have e1 : dOpcode (rebRaw sh (rebTag sh)) = 0x69 := by rw [dOpcode, fd 0 1 (by omega), z0]
    have e2 : dFence (rebRaw sh (rebTag sh)) = false := by rw [dFence, fd 1 1 (by omega), z1]; rfl
    have e3 : dTc (rebRaw sh (rebTag sh)) = 0 := by rw [dTc, fd 1 1 (by omega), z1]
    simp [runnable, flightOf, wToken, withFlight, flightAs, fenceOpen, e1, e2, e3]
    exact ⟨withSeals_session.2.2.1, fun _ => withSeals_session.2.2.2⟩
  · simp [stateShut, flightOf, wToken, withFlight, flightAs]
/-- A shift of a second passes and moves DT; one of a second back from 0 does not fit. -/
theorem test_wit_RebaseShift : ∀ p ∈ [(1000000000, (none : Option Nat)), (2 ^ 64 - 1000000000, some 32)],
    rebaseBad (wToken p.1) (flightAs .none (rebRaw p.1 (rebTag p.1))) 0x55 = p.2 := by
  intro p hp
  have hz : p.1 ∈ [1000000000, 2 ^ 64 - 1000000000] := by simp at hp ⊢; rcases hp with rfl | rfl <;> simp
  obtain ⟨hb, -, z28, z32, -, -⟩ := rebZero p.1 hz
  have h28 := (rebRaw_field p.1 hb (rebTag p.1) 28 4 (by omega)).trans z28
  have h32 := (rebRaw_field p.1 hb (rebTag p.1) 32 8 (by omega)).trans z32
  have ht := rebRaw_tag p.1 hb (rebTag p.1)
  have e : (wToken p.1).time = live.time := rfl
  simp only [rebaseBad, flightAs, h28, h32, ht, e, BitVec.ofNat_toNat, BitVec.setWidth_eq]
  rw [if_neg (by decide), if_neg (by simp [rebTag])]
  clear e ht h28 h32 hb z28 z32 hz
  revert p; decide +kernel

def wClock : State := let s := withFn 0x0B00 .on live
  { s with time := { s.time with leapPend := true, leapDt := 0, bbcSec := 5, bbcFrac := 3 } }
theorem test_wit_Clock : awake wClock = true ∧ wClock.time.leapPend = true ∧ wClock.time.leapDt.toNat ≤ (dtOf wClock).toNat ∧
    live.time.leapPend = false ∧ (fnGet wClock 0x0B00).st = .on ∧
    msPassed wClock wClock.time.accAt (1000 * regFld wClock 0x5004 16 16) = false ∧
    wClock.time.dt.toNat / 2 ^ 41 + 2 < wClock.time.bbcSec.toNat * 32768 + wClock.time.bbcFrac.toNat := by decide +kernel
def wHoldover : State := { wClock with tcxo := 1000000000000 }
theorem test_wit_Holdover : msPassed wHoldover wHoldover.time.accAt (1000 * regFld wHoldover 0x5004 16 16) = true := by decide +kernel
theorem test_wit_RingTick : timeMember (wMember .on) = true ∧ (wMember .on).harn.joined = true ∧
    (fnGet (wMember .on) 0x0B00).st = .on ∧ (wMember .on).harn.leadReb = some (BitVec.ofNat 8 0) ∧
    (tickTheta (wMember .on) 0 0).natAbs ≤ regFld (wMember .on) 0x5000 0 10 * 1000000 ∧
    timeMember (wMember .off) = true ∧ (fnGet (wMember .off) 0x0B00).st = .off := by decide +kernel

/-! ## Reset, start, power, events, counters, tests, images -/

/-- RESET_n low, and what start-up finds on a sound board. -/
def low : State := { live with pins := { live.pins with resetLow := true } }
def bootGood : BootIn := { BootIn.none with slotA := ⟨0, 1, 2, 2, 1⟩, slotB := ⟨0, 1, 2, 2, 1⟩, dramMib := 4096, shaOk := true, entA := true }
def bootHeld : BootIn := { bootGood with pfailLow := true }
def phased (n : Nat) (pl : Bool) : State :=
  { live with boot := { live.boot with phase := n, ready := false }, pins := { live.pins with pfailLow := pl } }
theorem test_wit_Reset : live.pins.resetLow = false := by decide +kernel
theorem test_wit_Start : low.pins.resetLow = true ∧ bootGood.testEn = false ∧ low.upd.recovery = false ∧ bootGood.pfailLow = false ∧
    bootGood.slotA.reason = 0 ∧ bootGood.slotB.reason = 0 ∧ bootHeld.testEn = false ∧ bootHeld.pfailLow = true := by decide +kernel
theorem test_wit_Pfail : (phased 1 true).pins.pfailLow = true ∧ (phased 1 true).pins.resetLow = false ∧ (phased 1 true).boot.phase = 1 ∧
    (phased 1 true).rp.stopped = false ∧ (phased 15 false).boot.phase ≠ 1 ∧ awake (phased 15 false) = true ∧
    (phased 15 false).pins.pfailLow = false := by decide +kernel
def readying : State := withCq 3 { Cq.idle with fn := fnAt .starting } (phased 7 false)
theorem test_wit_Ready : awake readying = true ∧ readying.boot.phase = 7 ∧ (3 : Nat) < 64 ∧
    (cqGet readying 3).fn.st = .starting ∧ (cqGet readying 3).fn.disPend = false := by decide +kernel

def fnIs (id : Nat) (f : Fn) : State := fnPut live id f
theorem test_wit_Arrive : ∀ id ∈ [0x0200, 0x0302, 0x0500, 0x0700, 0x0901], ∀ d ∈ [false, true], ∀ e ∈ [false, true],
    awake (fnIs id ⟨.starting, e, d, []⟩) = true ∧ funcKnown id = true ∧ (fnIs id ⟨.starting, e, d, []⟩).boot.ready = true ∧
    fnGet (fnIs id ⟨.starting, e, d, []⟩) id = ⟨.starting, e, d, []⟩ ∧
    fnGet (fnIs id ⟨.stopping, e, d, []⟩) id = ⟨.stopping, e, d, []⟩ := by decide +kernel

def paced (st code : Nat) (below : Option Nat) (cfg : Word) : State := { withReg 0x18 cfg live with
  glob := { live.glob with stPs := BitVec.ofNat 16 st, code := BitVec.ofNat 8 code, below := below } }
/-- Where every queue is empty none is above its watermark, however deep each is. -/
theorem queues_low (s : State) (h : ∀ q ∈ List.range 0x50, q ≠ 0x4D → queueUsed s q = 0) (ht : s.chan.tab = []) :
    anyQueueHigh s = false := by
  have h' : ∀ q ∈ List.range 0x50, queueUsed s q = 0 := by
    intro q hq
    by_cases e : q = 0x4D
    · subst e; simp [queueUsed, ht]
    · exact h q hq e
  rw [anyQueueHigh, List.any_eq_false]
  intro q hq
  simp [queueHigh, h' q hq]
theorem test_wit_PaceQueues : anyQueueHigh (paced 94 250 (some 0) 0x640001) = false :=
  queues_low _ (by decide +kernel) rfl
theorem test_wit_Pace : vreqEn (paced 10 20 none 0) = false ∧ vreqEn (paced 101 249 none 0x640001) = true ∧
    vreqTarget (paced 101 249 none 0x640001) < (paced 101 249 none 0x640001).glob.stPs.toNat ∧
    vreqEn (paced 94 250 (some 0) 0x640001) = true ∧
    (paced 94 250 (some 0) 0x640001).glob.stPs.toNat ≤ vreqTarget (paced 94 250 (some 0) 0x640001) ∧
    paceStayed (paced 94 250 (some 0) 0x640001) = true ∧
    (paced 94 250 (some 0) 0x640001).glob.code.toNat ≤ 250 ∧ (paced 94 250 none 0x640001).glob.below = none ∧
    paceStayed (paced 96 250 (some 0) 0x640001) = false := by decide +kernel
def coreDown : State := { live with glob := { live.glob with cores := [0, 2, 0, 0] } }
theorem test_wit_Cores : awake live = true ∧ coreState live 1 = 0 ∧ live.upd.state ≠ 5 ∧ coreState coreDown 1 = 2 ∧
    coreDown.boot.phase = 15 := by decide +kernel
def scrubbing (n : Nat) : State := let s := withFn 0x0900 .on live
  { s with flt := { s.flt with ranks := [⟨0xFF, 0, [(7, n)], 5⟩, Rank.idle] }, recs := { s.recs with dramMib := 4096 } }
theorem test_wit_Scrub : (scrubbing 63).flt.ranks.length = 2 ∧ fnOn (scrubbing 63) (0x0900 + 0) = true ∧
    (rankGet (scrubbing 63) 0).words + 1 < rankWords (scrubbing 63) ∧ tget 0 (rankGet (scrubbing 63) 0).perPos 7 = 63 := by decide +kernel
theorem test_wit_Banks : (3 : Nat) < live.chan.banks.length ∧ lget 0 live.chan.banks 3 ≠ bankLevel 1800 := by decide +kernel

def evt : LogEv := ⟨0x0104, 1, 5, 6, 7⟩
def logging (full : Bool) : State := { live with log := { live.log with queue := [evt], full := full } }
theorem test_wit_Log : ∀ b ∈ [false, true], awake (logging b) = true ∧ (logging b).log.held = false ∧
    (logging b).log.queue = evt :: [] ∧ (logging b).log.mediaFault = false ∧ (logging b).log.full = b := by decide +kernel
def dLogRead : List (Nat × Nat × Nat) := [(0, 1, 0x91), (8, 8, 0x4000), (16, 4, 64), (28, 4, 1)]
def dLogClear : List (Nat × Nat × Nat) := [(0, 1, 0x91), (24, 1, 1), (28, 4, 2)]
def logged : State := { withReg 0xC000 0x1000000 live with log := { live.log with next := 3, recs :=
  [⟨0, evt, 0, false, false⟩, ⟨1, evt, 0, false, false⟩, ⟨2, evt, 0, false, false⟩] } }
/-- The log after a media fault, and a bucket a token is out of. -/
def faulted : State := { logging false with log := { (logging false).log with mediaFault := true } }
def bucketed (now : Nat) : State := { live with tcxo := now, log := { live.log with buckets := [(0x0104, ⟨3, 8, 100, 0, 0⟩)] } }
theorem test_wit_LogFault : awake faulted = true ∧ faulted.log.queue = evt :: [] ∧ faulted.log.mediaFault = true ∧
    faulted.log.reserve.length < 16 := by decide +kernel
theorem test_wit_Token : ∀ p ∈ [(3840000, true), (3839999, false)],
    (bucketGet (bucketed p.1) 0x0104).taken ≠ 0 ∧ awake (bucketed p.1) = true ∧
    msPassed (bucketed p.1) (bucketGet (bucketed p.1) 0x0104).since (bucketGet (bucketed p.1) 0x0104).ms = p.2 := by decide +kernel
theorem test_wit_LogRead : Runs (runs dLogRead logged) 1 0x91 (fl dLogRead) ∧ dByte (fl dLogRead).raw 24 1 = 0 ∧
    32 ≤ dBufLen (fl dLogRead).raw ∧ (runs dLogRead logged).host.linkDown = false := by decide +kernel
theorem test_wit_LogClear : Runs (runs dLogClear logged) 1 0x91 (fl dLogClear) ∧ dByte (fl dLogClear).raw 24 1 = 1 ∧
    dByte (fl dLogClear).raw 8 12 = 0 ∧ (fl dLogClear).stage = .none ∧ wbit (regGet (runs dLogClear logged) 0xC000) 24 = true ∧
    BitVec.ofNat 32 (dByte (fl dLogClear).raw 28 4) + 1 = (runs dLogClear logged).log.next ∧
    (∀ g ∈ (runs dLogClear logged).host.flights, dOpcode g.raw = 0x91 → 1 ≤ g.uid ∨ g.ended = true) := by decide +kernel

/-- A clear that CLEAR_EN does not allow, and one that names another SEQ. -/
theorem test_wit_LogClearBad : wbit (regGet (runs dLogClear (withReg 0xC000 0 live)) 0xC000) 24 = false ∧
    (∃ l, l = dLogClear.take 2 ++ [(28, 4, 7)] ∧ BitVec.ofNat 32 (dByte (fl l).raw 28 4) + 1 ≠ (runs l logged).log.next ∧
      dByte (fl l).raw 8 12 = 0) := ⟨by decide +kernel, _, rfl, by decide +kernel⟩

def dCnt (mode : Nat) : List (Nat × Nat × Nat) :=
  [(0, 1, 0x92), (24, 1, mode), (26, 2, 20), (28, 2, 8), (32, 7, if mode = 2 then 0 else 99),
   (8, 8, if mode = 0 then 0 else 0x4000), (16, 4, if mode = 0 then 0 else 64)]
theorem test_wit_Counters : ∀ m ∈ [0, 1, 2], Runs (runs (dCnt m) live) 1 0x92 (fl (dCnt m)) ∧ cntPresetBad (fl (dCnt m)).raw = none ∧
    (runs (dCnt m) live).host.linkDown = false ∧ dByte (fl (dCnt m)).raw 24 1 = m := by decide +kernel

def dKat (t : Nat) : List (Nat × Nat × Nat) := [(0, 1, 0x90), (24, 1, t)]
def pipesOn : State := [0, 1, 2, 3, 4, 5].foldl (fun s p => withFn (0x0300 + p) .on s) live
theorem test_wit_Kat : ∀ t ∈ [0, 5], Runs (runs (dKat t) pipesOn) 1 0x90 (fl (dKat t)) ∧ dByte (fl (dKat t)).raw 24 1 < 6 ∧
    (fl (dKat t)).stage = .none ∧ othersOn (runs (dKat t) pipesOn) (dByte (fl (dKat t)).raw 24 1) = true ∧
    othersOn (runs (dKat t) live) (dByte (fl (dKat t)).raw 24 1) = false := by decide +kernel
def katting (st : FnSt) (e d : Bool) : State :=
  withFlight (flightAs (.wait 0 0 0) (mkDesc (dKat 2))) (fnPut pipesOn 0x0302 ⟨st, e, d, []⟩)
theorem test_wit_KatWait : ∀ st ∈ [FnSt.off, .stopping],
    Runs (katting st false false) 1 0x90 (flightAs (.wait 0 0 0) (mkDesc (dKat 2))) ∧
    fnGet (katting st false false) (0x0300 + dByte (mkDesc (dKat 2)) 24 1) = ⟨st, false, false, []⟩ := by decide +kernel
theorem test_wit_KatEngine : Runs (runs (dKat 0x10) live) 1 0x90 (fl (dKat 0x10)) ∧
    Runs (runs (dKat 0x11) live) 1 0x90 (fl (dKat 0x11)) := by decide +kernel
/-- A pipeline that is OFF already. -/
def katOff : State := runs (dKat 2) (fnPut pipesOn 0x0302 Fn.idle)
theorem test_wit_KatOff : Runs katOff 1 0x90 (fl (dKat 2)) ∧ othersOn katOff (dByte (fl (dKat 2)).raw 24 1) = true ∧
    (fnGet katOff (0x0300 + dByte (fl (dKat 2)).raw 24 1)).st = .off := by decide +kernel

def dBlock : List (Nat × Nat × Nat) := [(0, 1, 0x80), (8, 8, 0x4000), (16, 4, 4096), (24, 4, 0x2000)]
def updAt (st : Nat) : State := { live with upd := { live.upd with state := st } }
theorem test_wit_Block : ∀ st ∈ [0, 1, 3], Runs (runs dBlock (updAt st)) 1 0x80 (fl dBlock) ∧ dBufLen (fl dBlock).raw % 4096 = 0 ∧
    4096 ≤ dBufLen (fl dBlock).raw ∧ dBufLen (fl dBlock).raw ≤ 65536 ∧ dByte (fl dBlock).raw 24 4 % 4096 = 0 ∧
    dByte (fl dBlock).raw 24 4 + dBufLen (fl dBlock).raw ≤ 8388608 ∧ (runs dBlock (updAt st)).upd.state = st ∧
    0 < dBufLen (fl dBlock).raw / 4096 := by decide +kernel

/-- A container: the bytes named, zeros elsewhere. -/
def boxBytes (n : Nat) (l : List (Nat × Byte)) : List Byte := (List.range n).map fun i => ((l.find? fun p => p.1 == i).map (·.2)).getD 0
def lumkar : List (Nat × Byte) := [(0, 0x4C), (1, 0x55), (2, 0x4D), (3, 0x4B), (4, 0x41), (5, 0x52), (6, 1)]
/-- An image of two 16-byte components; a configuration of one 16-byte body, an item of TYPE 3. -/
def imgBytes : List (Nat × Byte) := lumkar ++ [(7, 1), (8, 0x20), (9, 4), (16, 9), (20, 2), (32, 1), (37, 4), (40, 16),
  (96, 2), (100, 16), (101, 4), (104, 16)]
def cfgBytes : List (Nat × Byte) := lumkar ++ [(7, 2), (8, 0x10), (9, 4), (20, 1), (32, 3), (37, 4), (40, 16), (1024, 3), (1026, 12)]
def chkOk : ImgCheck := ⟨true, true, true, true, true, 5, 6⟩
def received : State := { updAt 1 with upd := { (updAt 1).upd with norB := imgBytes, sectors := [(0, true)] } }
def dVerify : List (Nat × Nat × Nat) := [(0, 1, 0x81)]
/-- Where every other check passes, the owner's signature held good passes too, whether or not a key is fused. -/
theorem cReason_zero (s : State) (g : Nat → Nat) (k : Nat) (h1 : cStructOk g = true) (h2 : cKind g = k)
    (h3 : s.upd.floor.toNat ≤ cSecVer g) (h4 : s.upd.secVerMin.toNat ≤ cSecVer g) : cReason s g true k chkOk = 0 := by
  have h5 : ¬ (cSecVer g < s.upd.floor.toNat ∨ cSecVer g < s.upd.secVerMin.toNat) := by omega
  simp [cReason, h1, h2, chkOk, h5]
theorem test_wit_Verify : Runs (runs dVerify received) 1 0x81 (fl dVerify) ∧ (runs dVerify received).upd.state = 1 ∧
    (runs dVerify received).upd.recovery = false ∧ sectorsGot (runs dVerify received) = true ∧
    cReason (runs dVerify (updAt 3)) (norByte (runs dVerify (updAt 3))) (sectorsGot (runs dVerify (updAt 3))) 1 chkOk = 1 := by
  decide +kernel
theorem test_wit_VerifyOk : cReason (runs dVerify received) (norByte (runs dVerify received)) true 1 chkOk = 0 :=
  cReason_zero _ _ _ (by decide +kernel) (by decide +kernel) (by decide +kernel) (by decide +kernel)
def dActivate : List (Nat × Nat × Nat) := [(0, 1, 0x82)]
theorem test_wit_Activate : Runs (runs dActivate (updAt 3)) 1 0x82 (fl dActivate) ∧ (runs dActivate (updAt 3)).upd.state = 3 ∧
    (runs dActivate (updAt 3)).upd.recovery = false ∧ forwardDone (cfgOther (runs dActivate (updAt 3))).roots = true ∧
    bootGood.slotA.reason = 0 := by decide +kernel
def dConfirm (a : Nat) : List (Nat × Nat × Nat) := [(0, 1, 0x83), (24, 1, a)]
theorem test_wit_Confirm : ∀ a ∈ [0, 1], Runs (runs (dConfirm a) (updAt 5)) 1 0x83 (fl (dConfirm a)) ∧
    dByte (fl (dConfirm a)).raw 24 1 = a ∧ healthItem (runs (dConfirm a) (updAt 5)) = 0 ∧
    Runs (runs (dConfirm a) (updAt 1)) 1 0x83 (fl (dConfirm a)) := by decide +kernel
theorem test_wit_UpdRefused : ∀ p ∈ [(0x81, dVerify), (0x82, dActivate)],
    Runs (runs p.2 (updAt 2)) 1 p.1 (fl p.2) ∧ (runs p.2 (updAt 2)).upd.state = 2 := by decide +kernel
/-- A trial in which an image has been restarted is not healthy. -/
def sick : State := { updAt 5 with upd := { (updAt 5).upd with restarted := true } }
theorem test_wit_Sick : Runs (runs (dConfirm 0) sick) 1 0x83 (fl (dConfirm 0)) ∧ healthItem (runs (dConfirm 0) sick) = 6 := by
  decide +kernel
def trial (sec : Nat) : State := { updAt 5 with boot := { (updAt 5).boot with opSec := sec } }
theorem test_wit_Trial : (trial 600).upd.state = 5 ∧ (trial 600).upd.trialStart + 60 * (trial 600).upd.trialWin ≤ (trial 600).boot.opSec ∧
    (trial 599).boot.opSec < (trial 599).upd.trialStart + 60 * (trial 599).upd.trialWin := by decide +kernel
def dConfig : List (Nat × Nat × Nat) := [(0, 1, 0x84), (8, 8, 0x4000), (16, 4, 1040), (24, 4, 1)]
def cfgBox : List Byte := boxBytes 1040 cfgBytes
def cfgG (a : Nat) : Nat := (lget 0 (cfgBox.take (dBufLen (fl dConfig).raw)) a).toNat
theorem test_wit_Config : Runs (runs dConfig (updAt 4)) 1 0x84 (fl dConfig) ∧ dBufLen (fl dConfig).raw ≤ 62464 ∧
    (runs dConfig (updAt 4)).upd.state = 4 ∧ cTotal cfgG ≤ (cfgBox.take (dBufLen (fl dConfig).raw)).length ∧
    bodyOk (containerBody cfgG (cfgBox.take (dBufLen (fl dConfig).raw))) = true ∧
    seqStale (runs dConfig (updAt 4)) (dByte (fl dConfig).raw 24 4) = false := by decide +kernel
theorem test_wit_ConfigApart : confirmedApart (runs dConfig (updAt 4)) = false ∧
    Runs (runs dConfig (updAt 5)) 1 0x84 (fl dConfig) ∧ (runs dConfig (updAt 5)).upd.state = 5 ∧
    cReason (runs dConfig (updAt 4)) (fun _ => 0) true 2 chkOk = 1 := by decide +kernel
/-- A valid copy with a higher SEQ makes the configuration stale. -/
def updStale : State := { updAt 4 with upd := { (updAt 4).upd with copyA := { (updAt 4).upd.copyA with ok := true, seq := 3, format := 1 }, cfgFmt := 1 } }
theorem test_wit_ConfigStale : seqStale (runs dConfig updStale) (dByte (fl dConfig).raw 24 4) = true := by decide +kernel
theorem test_wit_ConfigOk : cReason (runs dConfig (updAt 4)) cfgG true 2 chkOk = 0 :=
  cReason_zero _ _ _ (by decide +kernel) (by decide +kernel) (by decide +kernel) (by decide +kernel)
theorem test_wit_ConfigRoots (sr : BitVec 256) : forwardDone (rootsForward (runs dConfig (updAt 4)) sr) = true := by rfl

/-! ## Tables, ledger, boundaries, commands to meters -/

/-- A tariff table: one season, week and day, two rates; the day's first switch at 00:00, friendly, the second at 08:00 to rate
1. With demand intervals of 15 minutes where asked. -/
def tarHead (demand : Bool) : List Byte :=
  [1, 0, 1, 1, 1, 0, 2, 0] ++ (if demand then [1, 15, 1, 0, 3] else [0, 0, 0, 0, 0]) ++ [0, 0, 0, 1, 1] ++ List.replicate 97 0 ++
    [3, 0xE0, 1, 1, 1] ++ List.replicate 40 0
def tarBytes (demand : Bool) : List Byte := tarHead demand ++ List.replicate 864 0
/-- A calendar that closes on day 1 of each month at 00:00. -/
def calBytes : List Byte := boxBytes 64 [(0, 1), (16, 1), (17, 1), (24, 7)]
/-- Midnight of 15 January 2026. -/
def day0 : Nat := dayNumber 2026 1 15 * 86400
def atTime (sec : Nat) (s : State) : State :=
  { s with time := { s.time with dt := BitVec.ofNat 96 (sec * 2 ^ 56), dtValid := true } }
def dTariff (mode eff : Nat) : List (Nat × Nat × Nat) := [(0, 1, 0x50), (8, 8, 0x4000), (16, 4, 1024), (25, 1, mode), (32, 8, eff)]
theorem lget_pad : ∀ (l : List Byte) (n i : Nat), l.length ≤ i → lget 0 (l ++ List.replicate n 0) i = 0
  | [], 0, _, _ => rfl
  | [], _ + 1, 0, _ => rfl
  | [], n + 1, i + 1, _ => lget_pad [] n i (Nat.zero_le i)
  | _ :: _, _, 0, h => by simp at h
  | _ :: t, n, i + 1, h => lget_pad t n i (by simpa using h)
/-- Past its head every byte of the table is zero. -/
theorem zeroFrom_pad (a n : Nat) (h : 160 ≤ a) : ∀ p ∈ zeroFrom (tarBytes true) a n, p.2 = true := by
  intro p hp
  simp only [zeroFrom, List.mem_map, List.mem_range] at hp
  obtain ⟨i, -, rfl⟩ := hp
  have hl : (tarHead true).length = 160 := by decide +kernel
  have : lget (0 : Byte) (tarBytes true) (a + i) = 0 := lget_pad _ _ _ (by omega)
  simp only [tb, this]; decide
theorem tar_seasons : ∀ p ∈ seasonChecks (tarBytes true), p.2 = true := by decide +kernel
theorem tar_weeks : ∀ p ∈ weekChecks (tarBytes true), p.2 = true := by decide +kernel
theorem tar_day0 : ∀ i < 12, ∀ p ∈ switchChecks (tarBytes true) (112 + 48 * 0 + 4 * i) i, p.2 = true := by decide +kernel
theorem tar_days : ∀ p ∈ dayChecks (tarBytes true), p.2 = true := by
  intro p hp
  have h4 : tb (tarBytes true) 4 = 1 := by decide +kernel
  simp only [dayChecks, h4, List.mem_flatten, List.mem_map, List.mem_range] at hp
  obtain ⟨_, ⟨d, -, rfl⟩, hp⟩ := hp
  rcases Nat.eq_zero_or_pos d with rfl | h
  · simp only [Nat.zero_lt_one, if_true, List.mem_flatten, List.mem_map, List.mem_range] at hp
    obtain ⟨_, ⟨i, hi, rfl⟩, hp⟩ := hp
    exact tar_day0 i hi p hp
  · rw [if_neg (by omega)] at hp
    exact zeroFrom_pad _ _ (by omega) p hp
theorem tar_special : ∀ p ∈ specialChecks (tarBytes true), p.2 = true := by
  intro p hp
  have h5 : tb (tarBytes true) 5 = 0 := by decide +kernel
  simp only [specialChecks, h5, List.mem_flatten, List.mem_map, List.mem_range, Nat.not_lt_zero, if_false] at hp
  obtain ⟨_, ⟨i, -, rfl⟩, hp⟩ := hp
  exact zeroFrom_pad _ _ (by omega) p hp
theorem test_wit_TariffTable : tariffBad (tarBytes true) = none := by
  have hl : (tarBytes true).length = 1024 := by decide +kernel
  rw [tariffBad, if_neg (by simp [hl])]
  unfold firstBad
  rw [List.find?_eq_none.mpr, Option.map_none]
  intro p hp
  simp only [List.mem_append] at hp
  have : p.2 = true := by
    rcases hp with (((((hp | hp) | hp) | hp) | hp) | hp) | hp
    · revert p; decide +kernel
    · revert p; decide +kernel
    · exact tar_seasons p hp
    · exact tar_weeks p hp
    · exact tar_days p hp
    · exact tar_special p hp
    · exact zeroFrom_pad _ _ (by omega) p hp
  simp [this]
theorem test_wit_Tariff : ∀ p ∈ [(0, 0), (1, (day0 + 60) * 2 ^ 24)], Runs (runs (dTariff p.1 p.2) (atTime day0 live)) 1 0x50 (fl (dTariff p.1 p.2)) ∧
    dBufLen (fl (dTariff p.1 p.2)).raw = 1024 ∧ dByte (fl (dTariff p.1 p.2)).raw 24 1 = tb (tarBytes true) 1 ∧
    dByte (fl (dTariff p.1 p.2)).raw 25 1 = p.1 ∧ dByte (fl (dTariff p.1 p.2)).raw 32 8 = p.2 ∧ (dtOf (atTime day0 live)).toNat < (day0 + 60) * 2 ^ 24 := by decide +kernel
def dCal : List (Nat × Nat × Nat) := [(0, 1, 0x51), (8, 8, 0x4000), (16, 4, 64)]
def withBill (g : BillSt → BillSt) (s : State) : State := { s with bill := g s.bill }
def calHeld : State := withBill (fun b => { b with cals := [(0, ⟨calBytes, 9, 0, false⟩)] }) live
theorem test_wit_Calendar : Runs (runs dCal live) 1 0x51 (fl dCal) ∧ dBufLen (fl dCal).raw = 64 ∧
    dByte (fl dCal).raw 24 1 = tb calBytes 1 ∧ calendarBad calBytes = none ∧ calLoaded live 0 = false ∧ calLoaded calHeld 0 = true ∧
    Runs (runs dCal calHeld) 1 0x51 (fl dCal) ∧
    (BitVec.ofNat 32 (tb4 calBytes 24)).toNat < (calGet calHeld (dByte (fl dCal).raw 24 1)).openPer.toNat := by decide +kernel
def dSnap : List (Nat × Nat × Nat) := [(0, 1, 0x53), (4, 4, 3), (8, 8, 0x4000), (16, 4, 256)]
def wSnap : State := runs dSnap (withRec 3 recActive live)
theorem test_wit_Snapshot : Runs wSnap 1 0x53 (fl dSnap) ∧ dByte (fl dSnap).raw 24 1 = 0 ∧ dBitmap (fl dSnap).raw = 0 ∧
    spanSet (fl dSnap).raw 28 4 = none ∧ spanSet (fl dSnap).raw 32 8 = none ∧ spanSet (fl dSnap).raw 40 4 = none ∧
    256 ≤ dBufLen (fl dSnap).raw ∧ wSnap.host.linkDown = false := by decide +kernel

def dLedger (a ref amt : Nat) : List (Nat × Nat × Nat) := [(0, 1, 0x52), (4, 4, 3), (24, 1, a), (28, 4, ref), (32, 8, amt)]
def recPrepay : EpRec := { recActive with billing := true, prepay := { Prepay.zero with lastTopup := 7 } }
theorem test_wit_Ledger : ∀ p ∈ [(0, 8, 1), (0, 7, 1), (1, 0, 1), (2, 0, 4294967295), (3, 0, 0), (4, 0, 1), (5, 0, 0)],
    Runs (runs (dLedger p.1 p.2.1 p.2.2) (withRec 3 recPrepay live)) 1 0x52 (fl (dLedger p.1 p.2.1 p.2.2)) ∧
    dByte (fl (dLedger p.1 p.2.1 p.2.2)).raw 24 1 = p.1 ∧
    (∀ q ∈ laUnused p.1, spanSet (fl (dLedger p.1 p.2.1 p.2.2)).raw q.1 q.2 = none) ∧
    laRange p.1 (laAmount (fl (dLedger p.1 p.2.1 p.2.2)).raw) = true ∧ recPrepay.prepay.lastTopup = 7 ∧
    (recGet (runs (dLedger p.1 p.2.1 p.2.2) (withRec 3 recPrepay live)) 3).billing = true ∧
    (recGet (runs (dLedger p.1 p.2.1 p.2.2) (withRec 3 recActive live)) 3).billing = false := by decide +kernel

/-- BILL_POS at a second and step, DT at another, tariff 0 and calendar 0 in force, record 3 bound to them. -/
def billed (demand : Bool) (pos step now : Nat) (pend : Option TarVer) : State :=
  withBill (fun b => { b with
      posValid := true
      pos := BitVec.ofNat 64 (pos * 2 ^ 24)
      posStep := step
      tariffs := [(0, ⟨none, some ⟨tarBytes demand, 0⟩, pend⟩)]
      cals := [(0, ⟨calBytes, 7, BitVec.ofNat 64 (dayNumber 2026 1 1 * 86400 * 2 ^ 24), true⟩)] })
    (atTime now (withRec 3 { recPrepay with period := 7 } live))
theorem test_wit_IntervalEnd : dueEntry (billed true (day0 + 100) 7 (day0 + 950) none) 1 = some (day0 + 900) := by decide +kernel
theorem test_wit_DemandEnd : dueEntry (billed true (day0 + 900) 1 (day0 + 950) none) 2 = some (day0 + 900) := by decide +kernel
theorem test_wit_TariffSwitch : dueEntry (billed false (day0 + 100) 7 (day0 + 28850) none) 5 = some (day0 + 28800) := by decide +kernel
theorem test_wit_FriendlyEnd : dueEntry (billed false (day0 + 28800) 5 (day0 + 28850) none) 6 = some (day0 + 28800) := by decide +kernel
def pendVer : TarVer := ⟨tarBytes true, BitVec.ofNat 64 ((day0 + 60) * 2 ^ 24)⟩
def wActivate : State := billed false day0 7 (day0 + 70) (some pendVer)
theorem test_wit_TariffActivate : awake wActivate = true ∧ tailOpen wActivate = true ∧ dueEntry wActivate 4 = some (day0 + 60) ∧
    twf TarEnt.empty wActivate.bill.tariffs = true ∧ (tarGet wActivate 0).pend = some pendVer ∧
    pendVer.act.toNat / 2 ^ 24 = day0 + 60 := by decide +kernel
def feb1 : Nat := dayNumber 2026 2 1 * 86400
def wPeriod : State := billed true (feb1 - 1) 7 (feb1 + 5) none
theorem test_wit_PeriodClose : awake (billed true feb1 2 (feb1 + 5) none) = true ∧ dueEntry (billed true feb1 2 (feb1 + 5) none) 3 = some feb1 ∧
    twf CalEnt.empty (billed true feb1 2 (feb1 + 5) none).bill.cals = true ∧
    closeEntry (billed true feb1 2 (feb1 + 5) none) (calGet (billed true feb1 2 (feb1 + 5) none) 0) = some (feb1, feb1) := by
  decide +kernel
def swept (fr : Bool) (pos : Nat) : State :=
  withBill (fun b => { b with
      sweeps := [⟨fr, 0, 0, feb1, 7, pos⟩]
      cals := [(0, ⟨calBytes, 8, BitVec.ofNat 64 (feb1 * 2 ^ 24), true⟩)] })
    (let s := billed true feb1 3 (feb1 + 5) none
     { s with recs := { s.recs with tab := [(3, { recPrepay with period := 7, prepay := { recPrepay.prepay with lstate := 2 } })] } })
theorem test_wit_Sweeps : ∀ fr ∈ [false, true], awake (swept fr 0) = true ∧ tailOpen (swept fr 0) = true ∧ storeRoom (swept fr 0) = true ∧
    ((swept fr 0).bill.sweeps.find? fun x => x.friendly == fr) = some ⟨fr, 0, 0, feb1, 7, 0⟩ ∧
    (sweepNext (swept fr 0) ⟨fr, 0, 0, feb1, 7, 0⟩).isSome = true ∧ sweepNext (swept fr 4) ⟨fr, 0, 0, feb1, 7, 4⟩ = none := by
  decide +kernel

/-- A meter that can be spoken to: record 3 with its key, its domain, channel 0 ON. -/
def talking : State := let s := withPipes (withFn 0x0100 .on (withRec 3 recKeyed (withDomain live)))
  { s with recs := { s.recs with dramMib := 4096 } }
def dRelay (op lim : Nat) : List (Nat × Nat × Nat) := [(0, 1, op), (4, 4, 3), (24, 4, lim)]
theorem test_wit_Relay : ∀ p ∈ [(0x40, 0), (0x41, 0), (0x42, 0), (0x42, 5)], Runs (runs (dRelay p.1 p.2) talking) 1 p.1 (fl (dRelay p.1 p.2)) ∧
    (fl (dRelay p.1 p.2)).stage = .none ∧ outRefuse (runs (dRelay p.1 p.2) talking) (dEid (fl (dRelay p.1 p.2)).raw) true = none ∧
    chRefuse (runs (dRelay p.1 p.2) talking) (dEid (fl (dRelay p.1 p.2)).raw) 0 = none ∧
    (outSlot (runs (dRelay p.1 p.2) talking) (dEid (fl (dRelay p.1 p.2)).raw) true).isSome = true ∧
    (chRefuse (runs (dRelay p.1 p.2) (withRec 3 recKeyed (withDomain live))) 3 0).isSome = true ∧
    outRefuse (runs (dRelay p.1 p.2) (withRec 3 recKeyed (withDomain live))) 3 true = none ∧
    (recGet talking 3).proto = 0 := by decide +kernel
def wLimit : State := runs (dRelay 0x42 5) (withRec 3 { recKeyed with proto := 1 } (withDomain live))
theorem test_wit_LoadLimit : Runs wLimit 1 0x42 (fl (dRelay 0x42 5)) ∧ (recGet wLimit (dEid (fl (dRelay 0x42 5)).raw)).proto ≠ 0 := by
  decide +kernel
def sentF : TxF :=
  { id := 1, uid := some 1, txn := some 1, eid := 3, tc := 0, ic := 9, what := 0, arg := 0, bytes := [1, 2], admitted := 0,
    sent := 1, since := 0, retry := false, backoffs := 0, tries := 0, dutyWait := none, enc := true, queued := true }
def withTx (l : List TxF) (s : State) : State := chPut s 0 { chGet s 0 with tx := l }
def relayFl : Flight := flightAs (.relay 9 0 true 2) (mkDesc (dRelay 0x40 0))
def wAcked : State := withTx [sentF] (withFlight relayFl talking)
theorem test_wit_RelayAcked : awake wAcked = true ∧ ((chGet wAcked 0).tx.find? fun f => f.eid == 3 && f.sent != 0) = some sentF ∧
    sentF.what ≤ 2 ∧ sentF.uid = some relayFl.uid ∧ flightOf wAcked relayFl.uid = some relayFl ∧ relayFl.ended = false ∧
    relayFl.discard = false := by decide +kernel
def wUnacked : State := { withTx [{ sentF with sent := 1 }] (withFlight relayFl talking) with tcxo := 1000000000000 }
theorem test_wit_RelayUnacked : awake wUnacked = true ∧ flightOf wUnacked relayFl.uid = some relayFl ∧
    msPassed wUnacked 0 (1000 * cmdWaitOf wUnacked relayFl.uid) = true ∧ unacked wUnacked relayFl.uid = true ∧ onPins wUnacked relayFl.uid = false := by decide +kernel
def wUnconfirmed (b : Bool) : State := let s := withRec 3 { recKeyed with relay := 0x10, billing := b } live
  { relayPut s 3 { RelayT.none with since := 1, secs := 2 } with tcxo := 1000000000000 }
theorem test_wit_RelayTimeout : ∀ b ∈ [false, true], awake (wUnconfirmed b) = true ∧
    tget RelayT.none (wUnconfirmed b).cmd.relays 3 ≠ RelayT.none ∧ relayPend (recView (wUnconfirmed b) 3).relay = true ∧
    msPassed (wUnconfirmed b) (tget RelayT.none (wUnconfirmed b).cmd.relays 3).since
      (1000 * (tget RelayT.none (wUnconfirmed b).cmd.relays 3).secs) = true := by decide +kernel

def dRod : List (Nat × Nat × Nat) := [(0, 1, 0x43), (1, 1, 1), (4, 4, 3)]
theorem test_wit_ReadOnDemand : Runs (runs dRod talking) 1 0x43 (fl dRod) ∧ dBitmap (fl dRod).raw = 0 ∧ dByte (fl dRod).raw 24 1 = 0 ∧
    (∀ p ∈ readUnused 0 false, spanSet (fl dRod).raw p.1 p.2 = none) ∧ askRefuse (runs dRod talking) 3 1 = none ∧
    (outSlot (runs dRod talking) 3 false).isSome = true := by decide +kernel
/-- Without a pipeline the key is not loaded; without the key's domain it is as one revoked. -/
def quiet : State := { talking with funcs := fnPut live 0x0100 (fnAt .on) |>.funcs }
theorem test_wit_RelayWaits : outRefuse (runs (dRelay 0x40 0) quiet) 3 true = none ∧
    outSlot (runs (dRelay 0x40 0) quiet) 3 true = none ∧ Runs (runs (dRelay 0x40 0) quiet) 1 0x40 (fl (dRelay 0x40 0)) ∧
    (outRefuse (runs (dRelay 0x40 0) (withRec 3 recActive live)) 3 true).isSome = true ∧
    icExhausted (recView (runs (dRelay 0x40 0) (withRec 3 recActive live)) 3) = false := by decide +kernel
/-- A list of one meter, and an object: a profile, and one attribute. -/
def dRodList : List (Nat × Nat × Nat) := [(0, 1, 0x43), (1, 1, 1), (8, 8, 0x4000), (16, 4, 4), (56, 8, 0x8000)]
theorem test_wit_ReadList : Runs (runs dRodList talking) 1 0x43 (fl dRodList) ∧ dBitmap (fl dRodList).raw ≠ 0 ∧
    dByte (fl dRodList).raw 24 1 = 0 ∧ (∀ p ∈ readUnused 0 true, spanSet (fl dRodList).raw p.1 p.2 = none) ∧
    listOf (fl dRodList) [3] = [3] ∧ listBad (runs dRodList talking) [3] 0 = none ∧
    targetOk (runs dRodList talking) 3 0x43 1 = true ∧ askRefuse (runs dRodList talking) 3 1 = none := by decide +kernel
def dRodObj (kind : Nat) : List (Nat × Nat × Nat) :=
  [(0, 1, 0x43), (1, 1, 1), (4, 4, 3), (8, 8, 0x4000), (16, 4, 4096), (24, 1, kind)] ++ (if kind = 1 then [(44, 8, 60)] else [])
/-- The hold buffer full to its last unit. -/
def heldFull (s : State) : State := { s with ce := { s.ce with objs := [⟨9, 9, 3072, false, 4096, [], 0, 0⟩] } }
theorem test_wit_ReadObject : ∀ k ∈ [1, 2], Runs (runs (dRodObj k) talking) 1 0x43 (fl (dRodObj k)) ∧
    readBad (runs (dRodObj k) talking) (fl (dRodObj k)).raw = none ∧ dBitmap (fl (dRodObj k)).raw = 0 ∧
    (∀ p ∈ readUnused k false, spanSet (fl (dRodObj k)).raw p.1 p.2 = none) ∧
    holdUsed (runs (dRodObj k) talking) + objUnits (runs (dRodObj k) talking) (dBufLen (fl (dRodObj k)).raw) ≤ 3072 ∧
    3072 < holdUsed (heldFull (runs (dRodObj k) talking)) + objUnits talking (dBufLen (fl (dRodObj k)).raw) := by decide +kernel

def dPush : List (Nat × Nat × Nat) := [(0, 1, 0x44), (4, 4, 3), (8, 8, 0x4000), (16, 4, 20)]
theorem test_wit_CreditPush : Runs (runs dPush talking) 1 0x44 (fl dPush) ∧ (recGet (runs dPush talking) 3).proto = 0 ∧
    dBufLen (fl dPush).raw ≤ 64 ∧ outRefuse (runs dPush talking) 3 false = none ∧ chRefuse (runs dPush talking) 3 1 = none ∧
    (outSlot (runs dPush talking) 3 false).isSome = true := by decide +kernel
def dObj : List (Nat × Nat × Nat) := [(0, 1, 0x43), (4, 4, 3), (8, 8, 0x4000), (16, 4, 4096), (24, 1, 1)]
def wHold : State := let s := runs dObj talking
  { s with ce := { s.ce with objWait := [1], objs := [⟨1, 1, 0, false, 4096, [], 0, 0⟩] } }
def wResp (w : Nat) : State := let s := withFlight (flightAs (.wait 0 0 1) (mkDesc dRod)) talking
  { s with tcxo := 1000000000000, cmd := { s.cmd with txns := [⟨1, 3, 0, 1, w, some 1, 0, false, some 0, 0, false, 0, 30, 60⟩] } }
theorem test_wit_Response : ∀ w ∈ [3, 4], awake (wResp w) = true ∧ txnOf (wResp w) 1 = some ⟨1, 3, 0, 1, w, some 1, 0, false, some 0, 0, false, 0, 30, 60⟩ ∧
    msPassed (wResp w) 0 (1000 * 30) = true ∧
    flightOf (wResp w) 1 = some (flightAs (.wait 0 0 1) (mkDesc dRod)) := by decide +kernel

def dPlan (per off : Nat) : List (Nat × Nat × Nat) :=
  [(0, 1, 0x48), (8, 8, 0x4000), (16, 4, 8), (24, 1, 5), (28, 4, per), (32, 4, off), (36, 4, per)]
theorem test_wit_CollectPlan : ∀ p ∈ [(300, 299), (86400, 0)], Runs (runs (dPlan p.1 p.2) talking) 1 0x48 (fl (dPlan p.1 p.2)) ∧
    dByte (fl (dPlan p.1 p.2)).raw 24 1 ≤ 63 ∧ dByte (fl (dPlan p.1 p.2)).raw 25 1 ≤ 1 ∧ 300 ≤ dByte (fl (dPlan p.1 p.2)).raw 28 4 ∧
    dByte (fl (dPlan p.1 p.2)).raw 28 4 ≤ 86400 ∧ dByte (fl (dPlan p.1 p.2)).raw 32 4 < dByte (fl (dPlan p.1 p.2)).raw 28 4 ∧
    dByte (fl (dPlan p.1 p.2)).raw 36 4 ≤ dByte (fl (dPlan p.1 p.2)).raw 28 4 ∧
    listBad (runs (dPlan p.1 p.2) talking) ((listOf (fl (dPlan p.1 p.2)) [3, 4]).map (BitVec.ofNat 32)) 0 = none ∧
    targetOk (runs (dPlan p.1 p.2) talking) 3 0x48 2 = true := by decide +kernel
def collAt (l : List Txn) : State := let s := atTime 600 talking
  { s with cmd := { s.cmd with txns := l, plans := [(5, ⟨0, 300, 0, 0⟩)], binds := [(3, 6)] } }
def collTxn : Txn := ⟨1, 3, 0, 2, 3, none, 0, false, some 0, 6, false, 0, 30, 60⟩
theorem test_wit_Collection : awake (collAt []) = true ∧ bindGet (collAt []) 3 ≠ 0 ∧
    collDue (planGet (collAt []) (bindGet (collAt []) 3 - 1)) 3 (nowSec (collAt [])) = true ∧
    ((collAt []).cmd.txns.find? fun t => t.eid == 3 && t.coll == bindGet (collAt []) 3) = none ∧
    targetOk (collAt []) 3 0x48 2 = true ∧ outRefuse (collAt []) 3 false = none ∧ coreState (collAt []) 1 = 0 ∧ tailOpen (collAt []) = true ∧ chUp (collAt []) 3 = true ∧
    ((collAt [collTxn]).cmd.txns.find? fun t => t.eid == 3 && t.coll == bindGet (collAt [collTxn]) 3) = some collTxn := by decide +kernel
def dClock : List (Nat × Nat × Nat) := [(0, 1, 0x6A), (1, 1, 2), (8, 8, 0x4000), (16, 4, 4)]
theorem test_wit_MeterTime : Runs (runs dClock (withFn 0x0B00 .on talking)) 1 0x6A (fl dClock) ∧ dByte (fl dClock).raw 24 1 = 0 ∧
    spanSet (fl dClock).raw 28 4 = none ∧ dBufLen (fl dClock).raw = 4 ∧ targetOk (runs dClock (withFn 0x0B00 .on talking)) 3 0x6A 2 = true ∧
    askRefuse (runs dClock (withFn 0x0B00 .on talking)) 3 2 = none ∧ Runs (runs dClock talking) 1 0x6A (fl dClock) ∧
    (fnGet (runs dClock talking) 0x0B00).st = .off := by decide +kernel
def dDist (op : Nat) : List (Nat × Nat × Nat) := [(0, 1, op), (1, 1, 2), (8, 8, 0x4000), (16, 4, 8), (20, 1, 1), (38, 2, 5), (40, 8, 0x8000)] ++
  (if op = 0x45 then [(48, 8, 9)] else [(24, 8, 0x10000), (32, 4, 4096), (36, 2, 256)])
def wDist (op : Nat) : State := runs (dDist op) { talking with bill := (billed false 0 0 0 none).bill }
theorem test_wit_Distributions : ∀ op ∈ [0x45, 0x46, 0x47], Runs (wDist op) 1 op (fl (dDist op)) ∧ distOf (wDist op) 1 = none ∧
    (op = 0x45 → spanSet (fl (dDist op)).raw 25 7 = none ∧ spanSet (fl (dDist op)).raw 32 6 = none) ∧
    distBad (wDist op) (fl (dDist op)).raw (op == 0x45) = none ∧
    listBad (wDist op) ((listOf (fl (dDist op)) [3, 4]).map (BitVec.ofNat 32)) 0 = none ∧
    distBehind (wDist op) (fl (dDist op)) = false ∧ (wDist op).cmd.dists.length < 16 := by decide +kernel
/-- In HOLD with a limit below the buffer. -/
def wHoldShort : State := { wHold with regs := (withReg 0x300 0x100 wHold).regs }
theorem test_wit_HoldShort : earlyMode wHoldShort = false ∧ holdLimit wHoldShort < dBufLen (fl dObj).raw ∧
    wHoldShort.ce.objWait = 1 :: [] ∧ flightOf wHoldShort 1 = some (fl dObj) ∧ (fl dObj).discard = false ∧
    (earlyMode wHold = true ∨ dBufLen (fl dObj).raw ≤ holdLimit wHold) := by decide +kernel
theorem test_wit_Hold : awake wHold = true ∧ wHold.ce.objWait = 1 :: [] ∧ flightOf wHold 1 = some (fl dObj) ∧
    holdUsed wHold + objUnits wHold (dBufLen (fl dObj).raw) ≤ 3072 := by decide +kernel

/-! ## The reading path, kennel, entropy -/

/-- A DLMS frame of meter 0xAA under the key of record 3. -/
def frameOk (ic : Nat) : Frame :=
  { raw := List.replicate 60 1, framing := 0, proto := 0, addr := 0xAA, prot := .gcm, ctLen := 32, aadLen := 5,
    keyMat := some 0x55, ic := BitVec.ofNat 32 ic, tag4 := 9, parseOk := true, param := .gcm 96 12, time := some (.dt 77),
    regs := [(0, 1000)], volt := none, alarm := none, ci := 0, client := 0, response := false, invoke := 0, outState := none,
    limiter := none, result := 0, obj := none, imgHeld := none, ackReq := false, pending := false }
def tunOne : TunnelEntry := ⟨60, 0, 1, 0x77, 0, 0, 5, frameOk 9⟩
def dTunnel : List (Nat × Nat × Nat) := [(0, 1, 0x30), (1, 1, 2), (8, 8, 0x4000), (16, 4, 80), (20, 4, 1), (24, 4, 1)]
def heading : State := withReg 0x6404 0x1 (withFn 0x0201 .on live)
def itemAt (ic : Nat) (k : Option (BitVec 256)) : RpItem :=
  { id := 5, f := { frameOk ic with keyMat := k }, ch := 0, tunnel := false, rxDt := 100, rssi := 0, src := 0, cls := 2, tc0 := false,
    eid := some 3, flags := 0, txn := none, gen := 1, verdict := 0, qseq := 0, tried := 0, refs := [0], uid := none, tag := 0, what := 0,
    alarm := false, pipe := none }
def linkOk : LinkIn := ⟨true, true, false, 0, 0, 0, 0, 0, false⟩
def rxOne : RxF := ⟨5, frameOk 9, linkOk, 100, false⟩
def slotUsed : Slot := { slotReady with sh := ⟨0x55, 0, 0⟩, refs := 1 }
/-- A reading's way: record 3 keyed, its key in slot 0, the pipelines ON. -/
def pathOn : State := withSlot slotUsed (withRec 3 recKeyed (withDomain pipesOn))
def withRp (g : RpSt → RpSt) (s : State) : State := { s with rp := g s.rp }
/-- The same frame without protection. -/
def framePlain : Frame := { frameOk 9 with prot := .plain, keyMat := none, param := .none }
def wParseOf (f : Frame) : State := chPut pathOn 0 { chGet pathOn 0 with rx := [{ rxOne with f := f }] }
theorem test_wit_Parse : ∀ f ∈ [frameOk 9, framePlain], awake (wParseOf f) = true ∧
    (chGet (wParseOf f) 0).rx = { rxOne with f := f } :: [] ∧ parseRoom (wParseOf f) false = true ∧
    frameCls (wParseOf f) f rxOne.lk.slotKind ≠ 0 ∧
    arbGrants (wParseOf f) 1 (frameCls (wParseOf f) f rxOne.lk.slotKind) (parseWaiting (wParseOf f)) = true ∧
    (wParseOf f).host.admQ.contains (.frame false 0) = false ∧ (∀ y ∈ (wParseOf f).rp.parsed, y.id ≠ rxOne.id) ∧ f.proto = 0 := by
  decide +kernel
def key (n : Nat) : Option (BitVec 256) := some (BitVec.ofNat 256 n)
/-- The item under a key that verifies (0x55) or fails (0x66), with a fresh counter (9) or one seen before (0). -/
def wCipher (ic n : Nat) : State := withRp (fun r => { r with cipherQ := [itemAt ic (key n)] }) pathOn
theorem test_wit_Cipher : ∀ c ∈ [(9, 0x55), (0, 0x55), (9, 0x66)], awake (wCipher c.1 c.2) = true ∧
    cipherFront (wCipher c.1 c.2) 0 = some (itemAt c.1 (key c.2)) ∧
    itemPipe (wCipher c.1 c.2) (itemAt c.1 (key c.2)) = some 0 ∧
    (blocksPass (wCipher c.1 c.2) 0 (itemBlocks (itemAt c.1 (key c.2)))).isSome = true ∧ stageFlag (wCipher c.1 c.2) 0 = false ∧
    qRoom (wCipher c.1 c.2).rp.validQ.length 512 false = true ∧ (∀ y ∈ (wCipher c.1 c.2).rp.parsed, y.id ≠ 5) ∧
    (itemAt c.1 (key c.2)).eid = some 3 := by decide +kernel
theorem test_wit_CipherKey : verifyKey (wCipher 9 0x55) (itemAt 9 (key 0x55)) = some 0 ∧
    verifyKey (wCipher 0 0x55) (itemAt 0 (key 0x55)) = some 0 ∧ kcPendValid (recGet (wCipher 9 0x55) 3) = false ∧
    replayPasses (seenIc (wCipher 9 0x55) 3) (recGet (wCipher 9 0x55) 3).validCfg (frameOk 9) = true ∧
    hasCounter (frameOk 0) = true ∧
    replayPasses (seenIc (wCipher 0 0x55) 3) (recGet (wCipher 0 0x55) 3).validCfg (frameOk 0) = false ∧
    dupHit (wCipher 0 0x55) { itemAt 0 (key 0x55) with gen := (slotGet (wCipher 0 0x55) 0).gen } 3 = false := by decide +kernel
theorem test_wit_CipherSecond : verifyKey (wCipher 9 0x66) (itemAt 9 (key 0x66)) = none ∧
    secondPipe (wCipher 9 0x66) 0 = some 1 ∧ itemBlocks (itemAt 9 (key 0x66)) ≤ pool (wCipher 9 0x66) 1 ∧
    lget 0 (wCipher 9 0x66).ce.sets 1 ≤ 65536 ∧ keyOrder (wCipher 9 0x66) (itemAt 9 (key 0x66)) ≠ [] := by decide +kernel
/-- An item before validation, and an alarm of class 0. -/
def alarmAt : RpItem := { itemAt 9 (key 0x55) with cls := 0, tc0 := true, alarm := true }
def wValid (it : RpItem) : State := withRp (fun r => { r with validQ := [it] }) pathOn
theorem test_wit_Validation : ∀ it ∈ [itemAt 9 (key 0x55), alarmAt], awake (wValid it) = true ∧ validFront (wValid it) = some it ∧
    validRoom (wValid it) it = true ∧ it.txn = none ∧ contentDup (wValid it) (recView (wValid it) 3) it = false ∧
    (judged (wValid it) it).verdict ≤ 2 := by decide +kernel
def wPost (v : Nat) : State := withRp (fun r => { r with postQ := [{ itemAt 9 (key 0x55) with verdict := v }] }) pathOn
theorem test_wit_Posting : ∀ v ∈ [0, 1, 2], awake (wPost v) = true ∧
    postFront (wPost v) = some { itemAt 9 (key 0x55) with verdict := v } ∧ postRoom (wPost v) { itemAt 9 (key 0x55) with verdict := v } = true ∧
    bound (wPost v) (lastSeen (wPost v) { itemAt 9 (key 0x55) with verdict := v } (recView (wPost v) 3)) = false ∧
    icMoved { itemAt 9 (key 0x55) with verdict := v } = true := by decide +kernel
theorem test_wit_PostingTail : ∀ v ∈ [0, 1, 2], tailOpenTc (wPost v) 2 = true := fun v _ =>
  tailOpenTc_of _ _ rfl rfl (show regFld pathOn 0x9120 0 4 = 4 by decide +kernel)
theorem test_wit_Tunnel : Runs (runs dTunnel heading) 1 0x30 (fl dTunnel) ∧ dByte (fl dTunnel).raw 24 4 = 1 ∧
    tunnelBad (fl dTunnel).raw [tunOne] = none ∧ groupHead (runs dTunnel heading) (dAux (fl dTunnel).raw % 4) = true ∧
    (fnGet (runs dTunnel heading) (0x0200 + dAux (fl dTunnel).raw % 4)).st = .on ∧ (runs dTunnel heading).rp.stopped = false ∧
    (runs dTunnel heading).harn.outState ≠ 2 ∧ gateShut (runs dTunnel heading) 3 1 = false ∧
    (runs dTunnel heading).rp.tunnel.length = 4 ∧ (runs dTunnel heading).host.deliv.length < 16320 ∧
    tunnelUnits (lget [] (runs dTunnel heading).rp.tunnel (dAux (fl dTunnel).raw % 4)) + units tunOne.len ≤ 960 := by decide +kernel
def dQuar : List (Nat × Nat × Nat) := [(0, 1, 0x31), (8, 8, 0x4000), (16, 4, 4096), (28, 4, 5)]
theorem test_wit_Quarantine : Runs (runs dQuar live) 1 0x31 (fl dQuar) ∧ (runs dQuar live).host.linkDown = false := by decide +kernel

def domSlot : Slot := { Slot.free with st := 2, handle := 0x30000000, gen := 1, parent := 0x20000000, sh := ⟨0x55, 0, 0⟩, pin := true }
def missOne : Miss := ⟨5, epHandle 3, 1, false⟩
/-- A lookup whose parent's key is in slot 0. -/
def wMiss : State := setKeys (fun k => { k with missQ := [missOne], slots := [(0, domSlot)] }) (withRec 3 recKeyed (withDomain pipesOn))
theorem test_wit_Unwrap : awake wMiss = true ∧ missFront wMiss = some missOne ∧
    slotFind wMiss missOne.handle missOne.gen 2 = none ∧ missBlob wMiss missOne = some (epBlob 1) ∧
    dirUse wMiss (epBlob 1).parent.toNat = .ok 0x55 1 ∧
    (slotFind wMiss (epBlob 1).parent.toNat (dirGet wMiss (epBlob 1).parent.toNat).curGen 2).isSome = true ∧
    blobCheck (some (epBlob 1)) 0x55 missOne.handle (epBlob 1).parent.toNat missOne.gen 1 = none ∧
    (missSlot wMiss missOne).isSome = true ∧ ((missSlot wMiss missOne).map fun p => (wrapRun p.2 0x55).2.isSome) = some true := by
  decide +kernel
def masked (n m : Nat) : State := { pipesOn with ce := { pipesOn.ce with pools := [n, 64, 64, 64, 511], sets := [m, 0, 0, 0, 65535, 65536] } }
theorem test_wit_Masks : awake (masked 63 65535) = true ∧ (masked 63 65535).ce.pools.length = 5 ∧ (masked 63 65535).ce.sets.length = 6 ∧
    pool (masked 63 65535) 0 < poolDepth 0 ∧ lget 0 (masked 63 65535).ce.sets 0 < 65536 ∧
    pool (masked 63 65535) 4 < poolDepth 4 ∧ lget 0 (masked 63 65536).ce.sets 0 = 65536 ∧ drbgOpen (masked 63 65536) = true := by
  decide +kernel
def drbgAt (a b e : Bool) (n : Nat) : State := { live with ce := { live.ce with entA := a, entB := b, exhausted := e, reqs := n } }
theorem test_wit_Entropy : awake (drbgAt true false false 65536) = true ∧ drbgOpen (drbgAt true false false 65536) = false ∧
    drbgOpen (drbgAt false false true 0) = false ∧ (drbgAt false true true 0).ce.entA = false ∧
    (drbgAt true false true 0).ce.entB = false := by decide +kernel

/-! ## Channels and the air -/

/-- A radio plan: a band of 863 to 870 MHz at 10 permille, 36 s of it kept for class 0; an RF plan of 8 channels; one superframe
profile of 10 ms slots, class 0 in slot 1 and access in slot 2; no link profile. -/
def planSmall : List Byte :=
  [1, 1, 1, 1, 0, 0, 10, 20] ++ List.replicate 56 0 ++ [24, 43, 13, 0, 112, 70, 13, 0, 10, 0, 0, 0, 160, 140, 0, 0] ++
  List.replicate 240 0 ++ [100, 43, 13, 0, 64, 13, 3, 0, 8, 8, 0, 0, 80, 195, 0, 0] ++ List.replicate 112 0 ++
  [16, 39, 0, 0, 232, 3, 0, 0, 2, 0, 0, 0, 0, 0, 0, 0, 4, 0, 0, 0, 0, 0, 0, 0, 0, 0, 2, 10, 60, 0] ++
  [1, 1, 255, 0, 0, 0, 0, 0, 0, 0, 0, 0, 7, 0, 9, 0, 0, 0]
/-- The same with one link profile, of one event a superframe. -/
def planBytes : List Byte :=
  planSmall.set 4 1 ++ List.replicate 720 0 ++ [1, 0, 60, 0, 10, 0, 1, 1, 255, 0, 0, 0, 0, 0, 0, 0]
/-- Channel 0 with a CFG, ON, under that plan, DT at a second. -/
def chanAt (cfg : Word) (s : State) : State :=
  let s := withReg 0x6000 cfg (withFn 0x0100 .on s)
  { s with air := { s.air with plan := planBytes } }
def coord : State := atTime 1000 (chanAt 0x800029 talking)
def member (sync missed since : Nat) : State := let s := chanAt 0x800009 talking
  { s with tcxo := 1000000000000, air := { s.air with mac := [(0, ⟨sync, missed, 0, since, none⟩)] } }
def lbt : State := atTime 1000 (withReg 0x6804 0x5300 (chanAt 0x800011 talking))

def wiredRx : State := withReg 0x6004 0x20000000 (withReg 0x6000 0x800002 (withFn 0x0100 .on live))
theorem test_wit_FrameReceive : awake wiredRx = true ∧ (fnGet wiredRx (0x100 + 0)).st = .on ∧ groupHead wiredRx (0 / 16) = false ∧
    wiredRx.rp.stopped = false ∧ (chGet wiredRx 0).busy ≤ wiredRx.tcxo ∧ rxFault wiredRx 0 (frameOk 9) linkOk = none ∧
    frameCls wiredRx (frameOk 9) linkOk.slotKind ≠ 0 ∧ slottedCoord wiredRx 0 = false ∧
    bpDiscards wiredRx 0 (frameOk 9) linkOk = false ∧
    rxRoom wiredRx 0 (units (frameOk 9).raw.length) (ownReserve wiredRx 0 (frameOk 9) linkOk) false = true ∧
    rxFault wiredRx 0 (frameOk 9) { linkOk with crcOk := false } = some 0 ∧
    rxFault wiredRx 0 (frameOk 9) { linkOk with parityOk := false } = some 2 ∧
    rxFault wiredRx 0 (frameOk 9) { linkOk with gapChars := 2 } = some 4 := by decide +kernel
theorem test_wit_Gap : 2 ≤ chAttach wiredRx 0 ∧ regFld wiredRx (0x6004 + 0x10 * 0) 29 3 = 1 := by decide +kernel
/-- A coordinator in back-pressure discards what comes in an access slot. -/
def pressed : State := { coord with rp := { coord.rp with bp := [(0, true)] } }
theorem test_wit_FramePressed : awake pressed = true ∧ (fnGet pressed (0x100 + 0)).st = .on ∧ groupHead pressed 0 = false ∧
    chAttach pressed 0 ≠ 2 ∧ rxFault pressed 0 (frameOk 9) { linkOk with slotKind := 2 } = none ∧
    frameCls pressed (frameOk 9) 2 ≠ 0 ∧ bpDiscards pressed 0 (frameOk 9) { linkOk with slotKind := 2 } = true := by decide +kernel
def modem : State := let s := withTx [sentF, { sentF with id := 2, sent := 0, retry := true }] (withReg 0x6000 0x800004 talking)
  chPut s 0 { chGet s 0 with busy := 20000000000 }
theorem test_wit_Modem : awake modem = true ∧ chAttach modem 0 = 4 ∧ (fnGet modem (0x100 + 0)).st ≠ .off ∧
    modem.tcxo < (chGet modem 0).busy := by decide +kernel
def firstF : TxF := { sentF with id := 2, sent := 0, retry := true, txn := none }
def wTransmit : State := withTx [firstF] (withReg 0x6000 0x800002 talking)
theorem test_wit_Transmit : awake wTransmit = true ∧ chOn wTransmit 0 = true ∧ txStop wTransmit = false ∧
    (chGet wTransmit 0).busy ≤ wTransmit.tcxo ∧ chRadio wTransmit 0 = false ∧ (∀ b, pinCHolds wTransmit 0 b = false) ∧
    (txOrder (chGet wTransmit 0).tx).filter (fun g => txMay wTransmit 0 g && (g.tc == 0 || !spiWaits wTransmit 0)) = firstF :: [] ∧
    firstF.what ≠ 6 ∧ firstF.enc = true := by decide +kernel
def airSend (f : TxF) : State := { withTx [f] lbt with tcxo := 100000000000 }
theorem test_wit_TransmitAir : awake (airSend firstF) = true ∧ chOn (airSend firstF) 0 = true ∧ txStop (airSend firstF) = false ∧
    (chGet (airSend firstF) 0).busy ≤ (airSend firstF).tcxo ∧ pinCHolds (airSend firstF) 0 false = false ∧
    (txOrder (chGet (airSend firstF) 0).tx).filter (fun g => txMay (airSend firstF) 0 g && (g.tc == 0 || !spiWaits (airSend firstF) 0)) =
      firstF :: [] ∧ (radioAdmit (airSend firstF) 0 (txIndex (airSend firstF) 0 3) firstF.bytes.length true false).isSome = true := by
  decide +kernel
def dLoop : List (Nat × Nat × Nat) := [(0, 1, 0x78), (26, 2, 1024), (28, 2, 16)]
def looping (st : Stage) (l : Bool) : State :=
  let s := withFlight (flightAs st (mkDesc dLoop)) (withReg 0x6000 0x800002 live)
  chPut s 0 { chGet s 0 with loop := l }
theorem test_wit_Loopback : Runs (looping .none false) 1 0x78 (fl dLoop) ∧ loopBad (looping .none false) (fl dLoop).raw = none ∧
    (fnGet (looping .none false) (0x0100 + dByte (fl dLoop).raw 24 1)).st = .off ∧ (chGet (looping .none false) 0).loop = false ∧
    (∀ k ∈ [0, 1], Runs (looping (.wait 5 0 k) true) 1 0x78 (flightAs (.wait 5 0 k) (mkDesc dLoop)) ∧
      loopBad (looping (.wait 5 0 k) true) (fl dLoop).raw = none ∧ (fnGet (looping (.wait 5 0 k) true) 0x0100).st = .off) := by
  decide +kernel

def dDuty : List (Nat × Nat × Nat) := [(0, 1, 0x79), (8, 8, 0x4000), (16, 4, 5312)]
theorem lget_ge {α : Type} (d : α) : ∀ (l : List α) (n : Nat), l.length ≤ n → lget d l n = d
  | [], _, _ => rfl
  | _ :: _, 0, h => by simp at h
  | _ :: t, n + 1, h => lget_ge d t n (by simpa using h)
/-- Past the end of a plan every byte reads as zero. -/
theorem zeroBytes_end (t : List Byte) (a n : Nat) (h : t.length ≤ a) : ∀ p ∈ zeroBytes t a n, p.2 = false := by
  intro p hp
  simp only [zeroBytes, List.mem_map, List.mem_range] at hp
  obtain ⟨i, -, rfl⟩ := hp
  have : lget (0 : Byte) t (a + i) = 0 := lget_ge 0 t (a + i) (by omega)
  simp only [tb, this]; decide
theorem planBad_none (s : State) (t : List Byte) (h : ∀ p ∈ planChecks s t, p.2 = false) : planBad s t = none := by
  have : ∀ (l : List (Nat × Bool)) (a : Option Nat), (∀ p ∈ l, p.2 = false) → l.foldl (fun a p => if p.2 then
      (match a with | none => some p.1 | some o => some (min o p.1)) else a) a = a := by
    intro l
    induction l with
    | nil => intro a _; rfl
    | cons p l ih =>
      intro a hl
      have hp : p.2 = false := hl p (by simp)
      simp only [List.foldl_cons, hp, Bool.false_eq_true, if_false]
      exact ih a fun q hq => hl q (by simp [hq])
  exact this _ none h
theorem plan_bands : ∀ i < 16, ∀ p ∈ planBand planSmall i, p.2 = false := by decide +kernel
theorem plan_rf : ∀ i < 8, ∀ p ∈ planRf planSmall i, p.2 = false := by decide +kernel
theorem plan_sf0 : ∀ p ∈ planSf planSmall 0, p.2 = false := by decide +kernel
theorem plan_head : ∀ p ∈ planHead planSmall, p.2 = false := by decide +kernel
theorem test_wit_PlanBad : planBad (runs dDuty live) planSmall = none := by
  apply planBad_none
  have hl : planSmall.length = 496 := by decide +kernel
  have h3 : tb planSmall 3 = 1 := by decide +kernel
  have h4 : tb2 planSmall 4 = 0 := by decide +kernel
  have hb : planLbt (runs dDuty live) planSmall = [] := by decide +kernel
  have hk : planKeeps (runs dDuty live) planSmall = [] := by decide +kernel
  intro p hp
  simp only [planChecks, hb, hk, List.append_nil, List.mem_append, List.mem_flatten, List.mem_map, List.mem_range] at hp
  rcases hp with (((hp | ⟨_, ⟨i, hi, rfl⟩, hp⟩) | ⟨_, ⟨i, hi, rfl⟩, hp⟩) | ⟨_, ⟨i, hi, rfl⟩, hp⟩) | ⟨_, ⟨i, hi, rfl⟩, hp⟩
  · exact plan_head p hp
  · exact plan_bands i hi p hp
  · exact plan_rf i hi p hp
  · rcases Nat.eq_zero_or_pos i with rfl | h
    · exact plan_sf0 p hp
    · simp only [planSf, h3, if_pos (show 1 ≤ i from h)] at hp
      exact zeroBytes_end _ _ _ (by simp only [sfAt, hl]; omega) p hp
  · simp only [planLp, h4, if_pos (Nat.zero_le i)] at hp
    exact zeroBytes_end _ _ _ (by simp only [lpAt, hl]; omega) p hp
theorem live_tail : regFld live 0x9120 0 4 = 4 := by decide +kernel
theorem test_wit_Plan : Runs (runs dDuty live) 1 0x79 (fl dDuty) :=
  runs_of_open (f := fl dDuty) rfl (by decide +kernel) (tailOpenTc_of _ _ rfl rfl live_tail) (by decide +kernel)
theorem test_wit_PlanRoom : dBufLen (fl dDuty).raw = 5312 ∧ tailRoom (runs dDuty live) (.plan planSmall) = true :=
  ⟨by decide +kernel, tailRoom_of _ _ rfl rfl live_tail⟩
theorem test_wit_Rollover : awake coord = true ∧ coord.time.dtValid = true := by decide +kernel
def waiting : State := { withTx [{ sentF with dutyWait := some 5 }] coord with tcxo := 1000000000000000 }
theorem test_wit_DutyWait : awake waiting = true ∧
    ((chGet waiting 0).tx.find? fun f => f.uid == some 1 && f.dutyWait.isSome && !(f.what == 7 || f.what == 8)) = some { sentF with dutyWait := some 5 } ∧
    msPassed waiting ((some 5 : Option Nat).getD 0) (1000 * (if sentF.tc = 0 then regFld waiting 0x6C04 16 8 else regFld waiting 0x6C04 0 12)) = true := by
  decide +kernel
theorem test_wit_Beacon : chOn coord 0 = true ∧ slottedCoord coord 0 = true ∧ txStop coord = false ∧
    (radioAdmit coord 0 (bcnCh coord 0) (53 + 3 * (slotPlan (reserveUnits coord 0) (192 - rxOtherUnits (chGet coord 0)) (chBp coord 0)
      (eventSlots coord 0 (sfNow coord 0)) (scheduledSlots coord 0)
      (if coreState coord 2 = 0 then tget [] coord.air.grants 0 else []) (0, [], [])).2.1.length) true
      false).isSome = true := by decide +kernel
theorem test_wit_Member : awake (member 3 1 0) = true ∧ chOn (member 3 1 0) 0 = true ∧ slottedMember (member 3 1 0) 0 = true ∧
    (macGet (member 3 1 0) 0).sync = 3 ∧ (macGet (member 3 1 0) 0).missed < 2 ∧ (macGet (member 3 2 0) 0).missed = 2 ∧
    msPassed (member 5 3 0) (macGet (member 5 3 0) 0).since (1000 * superS (member 5 3 0) 0) = true := by decide +kernel
def linkAt (sync heard : Nat) : MLink :=
  { st := 1, channel := 0, anchorSf := 0, slot := 5, profile := 0, missed := 0, syncItc := sync, lastHeard := heard, events := 0, offT := 0 }
def linked (sync heard : Nat) : State := { coord with air := { coord.air with links := [(3, linkAt sync heard)] } }
theorem test_wit_Link : awake (linked (1000 * 2 ^ 24) 0) = true ∧ linkGet (linked (1000 * 2 ^ 24) 0) 3 = linkAt (1000 * 2 ^ 24) 0 ∧
    (linkAt 0 0).st = 1 ∧ chOn (linked 0 0) 0 = true ∧ slottedCoord (linked 0 0) 0 = true ∧
    eventIn (linked 0 0) (linkAt 0 0) (sfNow (linked 0 0) 0) = true ∧ tooWide (linked 0 0) (linkAt 0 0) (sfNow (linked 0 0) 0) = true ∧
    tooWide (linked (999 * 2 ^ 24) 0) (linkAt (999 * 2 ^ 24) 0) (sfNow (linked (999 * 2 ^ 24) 0) 0) = false ∧
    (linkAt 0 0).lastHeard + lpSuper (linked 0 0) 0 * 2 ^ 24 ≤ airNow (linked 0 0) := by decide +kernel
theorem talking_tail : regFld talking 0x9120 0 4 = 4 := by decide +kernel
theorem test_wit_LinkTail : tailOpen (linked 0 0) = true ∧ tailOpen coord = true :=
  ⟨tailOpenTc_of _ 1 rfl rfl talking_tail, tailOpenTc_of _ 1 rfl rfl talking_tail⟩
theorem test_wit_EnhancedAck : gateShut (linked 0 0) 0 (chGet (linked 0 0) 0).lastRx = false ∧ txStop (linked 0 0) = false ∧
    assignDue (linked 0 0) 3 { linkOk with slotKind := 3 } = false ∧ assignDue coord 3 { linkOk with slotKind := 2 } = true ∧
    coreState coord 2 = 0 ∧ (recGet coord 3).state = 1 ∧ linksOn coord 0 < 65535 ∧
    linkPlace coord 0 (lpInterval coord (epProfile (recGet coord 3))) (sfNow coord 0 + 2) = some (sfNow coord 0 + 2, 3) := by
  decide +kernel
def lbtTx (f : TxF) : State := airSend f
theorem test_wit_Lbt : awake (lbtTx firstF) = true ∧ chOn (lbtTx firstF) 0 = true ∧ chRadio (lbtTx firstF) 0 = true ∧
    (txOrder (chGet (lbtTx firstF) 0).tx).find? (txMay (lbtTx firstF) 0) = some firstF ∧
    firstF.backoffs < fld (regGet (lbtTx firstF) (0x6804 + 0x10 * 0)) 8 3 ∧ lget 0 (lbtTx firstF).chan.draws (0 / 16) + 1 ≠ 65536 ∧
    (txOrder (chGet (lbtTx { firstF with backoffs := 3 }) 0).tx).find? (txMay (lbtTx { firstF with backoffs := 3 }) 0) =
      some { firstF with backoffs := 3 } ∧ fld (regGet (lbtTx { firstF with backoffs := 3 }) (0x6804 + 0x10 * 0)) 8 3 ≤ 3 ∧
    ((chGet (lbtTx sentF) 0).tx.find? fun f => f.sent != 0 && !f.retry && decide (f.tries < triesOf (lbtTx sentF) 0 f) &&
        decide (f.since + regFld (lbtTx sentF) (0x6808 + 0x10 * 0) 16 8 * 3840 ≤ (lbtTx sentF).tcxo)) = some sentF := by decide +kernel

/-! ## The ring -/

def withHarn (g : HarnSt → HarnSt) (s : State) : State := { s with harn := g s.harn }
def frame0 : RFrame := ⟨4, 0x11, [1, 2]⟩
def frame1 : RFrame := ⟨6, 0x10, [3]⟩
/-- Position 0, the lead, of a ring with positions 1 and 2 joined; port 0 holds two frames unacknowledged. -/
def ring : State := withHarn (fun h => { h with
    joined := true
    phase := 4
    joinedM := 7
    ports := [(0, ⟨7, 3, [frame0, frame1], true, false⟩)]
    shadow := some 1
    outState := 2 })
  { live with pins := { live.pins with harnMode := 2 },
              recs := { live.recs with owner := [(0, true), (1, true), (2, true), (0, false), (0, false), (0, false), (0, false), (0, false)] } }
def ent0 : HarnEnt := ⟨1, 1, 0, 0, 5, 6⟩
theorem test_wit_Ring : awake ring = true ∧ onRing ring = true ∧ ring.harn.beatsOff = false ∧ isLead ring = true ∧
    staleEpoch ring 0 = false ∧ inMask ring.harn.silentM 2 = false ∧ inMask ring.harn.joinedM 2 = true ∧ 2 ≠ ring.harn.pos ∧
    ring.harn.reqs = [] ∧ ring.harn.outState ≠ 1 ∧ inHarness ring = true ∧ (portGet ring 0).broken = false := by decide +kernel
def laneUp : State := withFn 0x0502 .on ring
def ringBroken : State := withHarn (fun h => { h with ports := [(0, ⟨7, 3, [], true, true⟩), (1, ⟨7, 3, [frame0], true, false⟩)], wrapped := true }) ring
theorem test_wit_RingPorts : (fnGet laneUp (0x0500 + 2)).st ≠ .off ∧ inHarness laneUp = true ∧ awake ringBroken = true ∧
    onRing ringBroken = true ∧ (portGet ringBroken 0).broken = true := by decide +kernel

def askJoin (full : Bool) (lead : Bool) : JoinReq :=
  { ringId := 0, storedPos := none, posReq := some 7, dramSize := 4096, leadStrap := lead, holdsRecords := full, kcvs := [] }
theorem test_wit_Join : ring.harn.reqs.contains 1 = false ∧ (portGet ring 1).replay = [] ∧ joinAssign ring (askJoin false false) = .inr 7 ∧
    joinAssign ring (askJoin false true) = .inl 2 := by decide +kernel
def joining (ph : Nat) : State := withHarn (fun h => { h with phase := ph }) { live with pins := { live.pins with harnMode := 1 } }
theorem test_wit_Joining : awake (joining 1) = true ∧ (joining 1).pins.harnMode = 1 ∧ (joining 1).harn.phase = 1 ∧ (joining 3).harn.phase = 3 ∧
    (joining 3).recs.owner.length = 8 := by decide +kernel
def serving : State := withHarn (fun h => { h with pos := 1, served := some 2 }) ring
theorem test_wit_Owner : onRing serving = true ∧ staleEpoch serving 0 = false ∧ serving.recs.owner.length = 8 ∧
    serving.harn.served = some 2 ∧ ¬(serving.harn.served = some 7 ∧ 7 = 7 ∧ true = true) := by decide +kernel

/-- A ring chip that mirrors position 2. -/
def mirroring (inSt : Nat) : State := withHarn (fun h => { h with
    pos := 1
    inState := inSt
    inPos := 2
    mRecs := [(3, { recActive with writeSeq := 5 })]
    holdRaw := [(9, frameOk 9)]
    holdCmd := [⟨1, 2, 0x40, 3, 4, 0⟩] }) ring
theorem test_wit_Mirror : awake (mirroring 2) = true ∧ holdsFor (mirroring 2) 2 0 = true ∧
    (tget EpRec.free (mirroring 2).harn.mRecs 3).writeSeq.toNat = 5 ∧ (tget EpRec.free (mirroring 2).harn.mRecs 3).state ≠ 0 ∧
    mirrorFrom (mirroring 0) 2 (mirroring 0).recs.epoch.toNat = true ∧ returning (mirroring 0) = none ∧
    (mirroring 0).harn.served = none ∧ (mirroring 0).harn.inState = 0 := by decide +kernel
/-- The same where position 2's DRAM is known, and where record 3 is pinned. -/
def knows (mib : Nat) : State := withHarn (fun h => { h with peers := [(2, { askJoin false false with dramSize := mib })] }) (mirroring 0)
def pinMirror : State := withHarn (fun h => { h with mEnts := [.note 1 (epHandle 3)] }) (mirroring 2)
theorem test_wit_MirrorForms : (knows 4096).harn.peers.find? (fun p => p.1 == 2) = some (2, { askJoin false false with dramSize := 4096 }) ∧
    (knows 0).recs.dramMib = 0 ∧ mirrorFrom (knows 0) 2 (knows 0).recs.epoch.toNat = true ∧
    (mirrorRec (mirrorGot (mirroring 2)) 3 { recActive with writeSeq := 6 }).isSome = true ∧
    mirrorRec (mirrorGot pinMirror) 3 { recKeyed with writeSeq := 6 } ≠ none ∧
    (mirrorApply (mirrorGot (mirroring 2)) (.plan [1])).isSome = true := by decide +kernel
def syncing (out inn : Nat) : State := withHarn (fun h => { h with outState := out, inState := inn }) ring
def gated : State := withHarn (fun h => { h with silentM := 2, gates := [⟨0, 5, 0, 1⟩] }) ring
theorem test_wit_MirrorSync : returning (syncing 1 0) = none ∧ (syncing 1 0).harn.outState = 1 ∧ (syncing 1 0).harn.syncLeft = 0 ∧
    (syncing 2 1).harn.outState ≠ 1 ∧ (syncing 2 1).harn.inState = 1 ∧ awake gated = true ∧ gated.harn.gates ≠ [] ∧
    gated.harn.shadow = some 1 ∧ inMask gated.harn.silentM 1 = true ∧ gated.harn.outState ≠ 0 := by decide +kernel

def alone : State := withHarn (fun h => { h with joinedM := 3 }) ring
def shadowOf2 : State := withHarn (fun h => { h with holdRaw := [], holdCmd := [] }) (mirroring 2)
theorem test_wit_Silence : awake alone = true ∧ onRing alone = true ∧ 1 ≠ alone.harn.pos ∧ inMask alone.harn.joinedM 1 = true ∧
    beatLost alone 1 = true ∧ (∀ q, q < 8 → q ≠ alone.harn.pos → q ≠ 1 → inMask alone.harn.joinedM q = false) ∧
    onRing shadowOf2 = true ∧ inMask shadowOf2.harn.joinedM 2 = true ∧ beatLost shadowOf2 2 = true ∧ shadowOf2.harn.inState = 2 ∧
    shadowOf2.harn.inPos = 2 ∧ shadowOf2.pins.pfailLow = false ∧ shadowOf2.recs.owner.length = 8 := by decide +kernel
def dReturn : List (Nat × Nat × Nat) := [(0, 1, 0x71)]
def away : State := { ring with recs := { ring.recs with owner := [(1, true), (1, true), (2, true), (0, false), (0, false), (0, false), (0, false), (0, false)] } }
theorem test_wit_Return : Runs (runs dReturn live) 1 0x71 (fl dReturn) ∧ inHarness (runs dReturn live) = false ∧
    Runs (runs dReturn away) 1 0x71 (fl dReturn) ∧ inHarness (runs dReturn away) = true ∧ onRing (runs dReturn away) = true ∧
    serverOf (runs dReturn away) (runs dReturn away).harn.pos = some 1 ∧ (fl dReturn).stage = .none := by decide +kernel
def homing : Flight := flightAs (.wait 0 2 0) (mkDesc dReturn)
theorem test_wit_Returning : awake (withFlight homing away) = true ∧ returning (withFlight homing away) = some homing ∧
    homing.discard = false ∧ (withFlight homing away).harn.pos < 8 ∧ (withFlight homing away).recs.owner.length = 8 := by decide +kernel
def dHarn (mode : Nat) : List (Nat × Nat × Nat) := [(0, 1, 0x70), (8, 8, 0x4000), (16, 4, 128), (24, 1, mode)]
def tko0 : TkoEnt := ⟨2, 1, 5, 0x40, 0, some 0, 3, 4, 5, 6, 7, 8, 9⟩
def wHarn (mode : Nat) : State := runs (dHarn mode) (withHarn (fun h => { h with tko := [tko0], stat := [(2, ⟨ent0, live.tcxo⟩)] }) ring)
theorem test_wit_HarnStatus : ∀ m ∈ [0, 1], Runs (wHarn m) 1 0x70 (fl (dHarn m)) ∧ (wHarn m).host.linkDown = false ∧
    dByte (fl (dHarn m)).raw 24 1 = m ∧ 128 ≤ dBufLen (fl (dHarn m)).raw := by decide +kernel

/-! ## Check metering and the Crevasse detector -/

def withMet (g : MetSt → MetSt) (s : State) : State := { s with met := g s.met }
def metered : State := atTime 2000 (withFn 0x0600 .on (withFn 0x0700 .on live))
def second (bad : Option Nat) : MetSecond := ⟨[1, 2], [5, -7], [9], 50000, bad⟩
theorem test_wit_Metrology : awake metered = true ∧ feOn metered = true ∧ (second (some 3)).bad = some 3 ∧ (second none).bad = none := by
  decide +kernel
theorem test_wit_SealLoop : (withMet (fun m => { m with mis := 1 }) live).met.mis + 1 < 3 ∧
    3 ≤ (withMet (fun m => { m with mis := 2 }) live).met.mis + 1 ∧ low.pins.resetLow = true ∧ low.met.latched = false := by decide +kernel
def intervals : State := withMet (fun m => { m with ivK := 1, ivCnt := 10 }) metered
theorem test_wit_InferenceInterval : awake intervals = true ∧ intervals.met.ivK < infIdx intervals (nowSec intervals) ∧
    secondDue intervals = false ∧ drbgOpen live = true ∧ drbgOpen (drbgAt false false true 0) = false := by decide +kernel
def windows : State := withMet (fun m => { m with ivK := 5000, winK := 1 })
  (withRec 3 { recActive with gridLoc := 0x10 } (withRec 4 recActive metered))
theorem test_wit_WindowTail : tailOpen windows = true := tailOpenTc_of _ 1 rfl rfl (show regFld windows 0x9120 0 4 = 4 by decide +kernel)
theorem test_wit_InferenceWindow : awake windows = true ∧ crvOn windows = true ∧
    windows.met.winK + regFld windows 0xB020 0 16 ≤ windows.met.ivK := by decide +kernel
def fmap (en : Bool) : FeederMap := ⟨en, 1, 1, 0, 10, 0, 0, 1000⟩
def feeding (en : Bool) : State :=
  withMet (fun m => { m with feeders := [(0, { Fdr.idle with maps := [(0, fmap en)], st := 0 })] }) metered
theorem test_wit_Balance : ∀ en ∈ [false, true], awake (feeding en) = true ∧ crvOn (feeding en) = true ∧ (fdrGet (feeding en) 0).maps ≠ [] ∧
    balStart (feeding en) ((fdrGet (feeding en) 0).next + 1) ≤ nowSec (feeding en) ∧
    (mapAt (fdrGet (feeding en) 0) (fdrGet (feeding en) 0).next).en = en ∧
    secondDue (feeding en) = false ∧ storeRoom (feeding en) = true ∧
    (mappedOn (feeding en) 0).all (covers (feeding en) (fdrGet (feeding en) 0).next) = true := by decide +kernel
def dFeeder (n pers : Nat) : List (Nat × Nat × Nat) := [(0, 1, 0x59), (24, 1, n), (25, 1, 1), (26, 1, 15), (27, 1, pers), (30, 2, 1000), (40, 2, 500)]
theorem metered_tail : regFld metered 0x9120 0 4 = 4 := by decide +kernel
theorem test_wit_FeederRuns : ∀ p ∈ [(0, 1), (3, 96), (4, 1), (0, 97)], Runs (runs (dFeeder p.1 p.2) metered) 1 0x59 (fl (dFeeder p.1 p.2)) :=
  fun p _ => runs_of_open (f := fl (dFeeder p.1 p.2)) rfl (by revert p; decide +kernel) (tailOpenTc_of _ _ rfl rfl metered_tail)
    (by revert p; decide +kernel)
theorem test_wit_Feeder : (∀ p ∈ [(0, 1), (3, 96)], fmBad (fl (dFeeder p.1 p.2)).raw = none) ∧
    fmBad (fl (dFeeder 4 1)).raw = some 24 ∧ fmBad (fl (dFeeder 0 97)).raw = some 27 := by decide +kernel
def dReseal : List (Nat × Nat × Nat) := [(0, 1, 0x5A), (8, 8, 0x4000), (16, 4, 1248)]
def resealBytes : List Byte :=
  [0x43, 0x4C, 0x47, 0x52, 0x53, 0x45, 0x41, 0x4C, 1, 0, 0, 0, 0, 0, 0, 0, 2] ++ List.replicate 1231 0
def resealing : State := runs dReseal (withMet (fun m => { m with loopSince := some 0, latched := true })
  { live with tcxo := 1000000000000 })
theorem test_wit_Reseal : Runs resealing 1 0x5A (fl dReseal) ∧ resealBad resealing (fl dReseal) resealBytes true true = none ∧
    resealBad resealing (fl dReseal) [] true true = some 1 ∧ resealBad resealing (fl dReseal) resealBytes true false = some 5 := by
  decide +kernel
def dCrev (typ sub bsq wait thr : Nat) : List (Nat × Nat × Nat) :=
  [(0, 1, 0x58), (8, 8, 0x4000), (16, 4, 128), (24, 1, typ), (25, 1, sub), (28, 4, bsq), (32, 2, wait), (34, 2, thr)]
theorem test_wit_Crevasse : (∀ w ∈ [0, 10000], Runs (runs (dCrev 0 0 5 w 0) metered) 1 0x58 (fl (dCrev 0 0 5 w 0)) ∧
      dByte (fl (dCrev 0 0 5 w 0)).raw 24 1 = 0 ∧ spanSet (fl (dCrev 0 0 5 w 0)).raw 25 1 = none ∧
      spanSet (fl (dCrev 0 0 5 w 0)).raw 34 2 = none ∧ dByte (fl (dCrev 0 0 5 w 0)).raw 32 2 = w) ∧
    (∀ r ∈ (runs (dCrev 0 0 5 10000 0) metered).met.recs, r.bseq.toNat < 5) ∧ (runs (dCrev 1 0 0 0 0) metered).host.linkDown = false ∧
    Runs (runs (dCrev 1 0 0 0 0) metered) 1 0x58 (fl (dCrev 1 0 0 0 0)) ∧ spanSet (fl (dCrev 1 0 0 0 0)).raw 32 4 = none := by decide +kernel
def crevWait : State := withFlight (flightAs (.wait 0 100 0) (mkDesc (dCrev 0 0 5 100 0))) metered
theorem test_wit_CrevasseWait : Runs crevWait 1 0x58 (flightAs (.wait 0 100 0) (mkDesc (dCrev 0 0 5 100 0))) ∧
    msPassed crevWait 0 100 = true := by decide +kernel
theorem test_wit_CrevasseScores : ∀ n ∈ [16, 672], Runs (runs (dCrev 2 3 0 0 n) metered) 1 0x58 (fl (dCrev 2 3 0 0 n)) ∧
    spanSet (fl (dCrev 2 3 0 0 n)).raw 28 6 = none ∧ dByte (fl (dCrev 2 3 0 0 n)).raw 25 1 < 4 ∧ dByte (fl (dCrev 2 3 0 0 n)).raw 34 2 = n ∧
    storeOn (runs (dCrev 2 3 0 0 n) metered) = false ∧ storeOn (runs (dCrev 2 3 0 0 n) (withStore metered)) = true ∧
    Runs (runs (dCrev 2 3 0 0 n) (withStore metered)) 1 0x58 (fl (dCrev 2 3 0 0 n)) := by decide +kernel
theorem test_wit_CrevasseSnapshot : Runs (runs (dCrev 3 0 0 0 0) metered) 1 0x58 (fl (dCrev 3 0 0 0 0)) ∧
    spanSet (fl (dCrev 3 0 0 0 0)).raw 25 1 = none ∧ spanSet (fl (dCrev 3 0 0 0 0)).raw 28 8 = none ∧
    feOn (runs (dCrev 3 0 0 0 0) metered) = true ∧ 128 ≤ dBufLen (fl (dCrev 3 0 0 0 0)).raw ∧
    feOn (runs (dCrev 3 0 0 0 0) live) = false ∧ Runs (runs (dCrev 3 0 0 0 0) live) 1 0x58 (fl (dCrev 3 0 0 0 0)) := by decide +kernel

/-- CRC-32C's published check value, of the bytes "123456789". -/
theorem test_crc32c_check : crc32c [0x31, 0x32, 0x33, 0x34, 0x35, 0x36, 0x37, 0x38, 0x39] = 0xE3069283 := by decide +kernel

/-- R137: an unprotected frame of an unknown address is quarantined as UNKNOWN_ADDR alone. -/
theorem test_unknown_addr_plain : (judged live { itemAt 9 none with eid := none, flags := 0x21 }).flags = 1 ∧
    (judged live { itemAt 9 none with eid := none, flags := 0x21 }).verdict = 2 := by decide +kernel

/-- R135, R257: a frame waits at VALIDATION behind one of its EID that is still to be posted. -/
theorem test_validation_waits : validFront (withRp (fun r => { r with postQ := [itemAt 8 none] }) (wValid (itemAt 9 (key 0x55)))) = none := by decide +kernel

/-- R509: the first start commits code 0x0001 with SEQ 0. -/
theorem test_first_start_logs : (logFirstStart State.reset).log.recs.map (fun r => (r.seq, r.ev.code)) = [(0, 1)] ∧
    logFirstStart (logFirstStart State.reset) = logFirstStart State.reset := by decide +kernel

/-! ## Values the spec's worked examples give -/

/-- 00, "encoding a DT value": 757,382,400.5 s. -/
theorem test_dt_encoding :
    dtOf { live with time := { live.time with dt := BitVec.ofNat 96 (757382400 * 2 ^ 56 + 2 ^ 55) } } = 0x002D24BD00800000 := by
  decide +kernel
/-- 00, "forming an EID". -/
theorem test_eid_fields : eidHome 0xA0012345 = 5 ∧ eidIndex 0xA0012345 = 74565 ∧ eidMid 0xA0012345 = 0 := by decide +kernel
/-- 02, "granting credit": ring 3 of 1,024 records, G 1,024 and W 1,000, grants 1,624. -/
theorem test_grant_credit :
    let s := withReg (rrCfg 3) 10 (withRr 3 { Rr.idle with fn := fnAt .on, g := 1024, w := 1000 } live)
    (rrGet (rrGrantDoorbell s 3 0 4 1624) 3).g - (rrGet (rrGrantDoorbell s 3 0 4 1624) 3).w = 624 := by decide +kernel
/-- 08, "allocation across a switch". -/
theorem test_shares : shares 412 [(0, 600), (600, 900)] 900 = [275, 137] := by decide +kernel
/-- 08, "a sliding window": the third and fourth closes. -/
theorem test_sliding_window :
    let t : List Byte := [1, 0, 1, 1, 1, 0, 2, 0, 2, 15, 3]
    let close (d : Demand) (e : Nat) := subDemand t { d with curAcc := BitVec.ofNat 32 e }
    let d2 := (close (close Demand.zero 40).2 55).2
    (close (close Demand.zero 40).2 55).1 = none ∧ (close d2 70).1 = some 660 ∧ (close (close d2 70).2 30).1 = some 620 := by
  decide +kernel
/-- 09, "one scored interval": SUSPECT with RUN 3 and PERSIST 4 turns to ALARM. -/
theorem test_feeder_alarm :
    (fdrMove { Fdr.idle with st := 1, run := 3 } true 4).st = 2 ∧ (fdrMove { Fdr.idle with st := 1, run := 2 } true 4).st = 1 := by
  decide +kernel
/-- 10, "an RS-485 poll at 9,600 baud": 354 bit times, 36.875 ms of the TCXO. -/
theorem test_rs485_poll :
    wiredTime (withReg 0x6054 0x0A41A0AB (withReg 0x6050 0x00800002 live)) 5 32 = 1416005 := by decide +kernel
/-- 11, "three link events". -/
theorem test_hop : hop 100 5 7 0x3FF = 1 ∧ hop 101 5 7 0x3FF = 8 ∧ hop 102 5 7 0x3FF = 5 := by decide +kernel
/-- 11, "superframe figures": 100,000 bit/s with an overhead of 12 B. -/
theorem test_airtime :
    let t : List Byte := List.replicate 329 0 ++ [12, 0, 0, 0xA0, 0x86, 1, 0]
    airtime t 0 53 = 6 ∧ airtime t 0 60 = 6 ∧ airtime t 0 200 = 17 := by decide +kernel
/-- 11, "drift between sleeping partners": 900 s at 13 ppm. -/
theorem test_widening :
    let s := { live with air := { live.air with plan := [1, 0, 0, 0, 0, 0, 2, 0] }, time := { live.time with rate := 350 } }
    widening s (900 * 2 ^ 24) 0 10 = 11716 * 2 ^ 24 := by decide +kernel
/-- 15, "one exchange": F 350 ppb becomes 292 and RATE_CORR −645 ppb. -/
theorem test_slew : slewRates 350 60000 64 64 = (292, -645) := by decide +kernel
/-- The table gives no bits. -/
theorem test_no_words : decodeTableWord 8 0 = none ∧ State.reset.withFetchWord 8 0 = State.reset := by decide +kernel

/-! ## Well-formedness: an ill-formed command for each check -/

/-- Commands that name a ring, page or register the part does not have. -/
def illHost : List Instr :=
  [.sqTailDoorbell 64 0 4 0, .sqTailDoorbell 0 4096 4 0, .cqHeadDoorbell 64 0 4 0, .cqHeadDoorbell 0 4096 4 0,
   .rrGrantDoorbell 16 0 4 0, .rrGrantDoorbell 0 4096 4 0, .pushWrite 16 0 64 0, .pushWrite 0 4096 64 0,
   .ringEnable 0 64 1, .ringEnable 1 64 1, .ringEnable 2 16 1, .ringEnable 3 0 1, .ringDisable 0 64 0, .ringDisable 2 16 0,
   .descriptorFetch 64 [], .descriptorFetch 0 (List.replicate 9 0), .completionWrite 64, .completionInterruptTimer 64,
   .irqEnWrite 64 0, .msixVectorUnmask 128, .readingDelivery 16, .registerWrite 65536 4 0, .wmCfgWrite 4 0,
   .chgRoleWrite 4 0, .cntLoRead 512, .samplerArm 8 0]
/-- Commands that name a function, channel, pipeline or slot the part does not have. -/
def illPath : List Instr :=
  [.bankLevelChange 4 0 0, .functionStartComplete (.func 65536) true, .functionStartComplete (.ring 3 0) true,
   .functionStopComplete (.func 65536), .functionStopComplete (.ring 2 16), .channelFrameReceive 64 (frameOk 1) linkOk,
   .interCharacterGap 64 0, .modemReadyTimeout 64, .channelFrameTransmit ⟨64, false⟩, .dutyWaitTimeout 64 0, .beaconTransmit 64,
   .beaconReceive 64 0 0 0, .beaconMissed 64, .memberSupervisionTimeout 64, .enhancedAcknowledgement 64 0 linkOk 0 false false,
   .lbtBackoff 64 true, .ackWaitExpiry 64, .linkAcknowledgement 64 0, .parseAndClassify true 4, .parseAndClassify false 64,
   .decryptAndVerify 6 false true, .slotZeroize 8192, .maskSetRefill 6, .noiseSourceFail 2, .noiseSourceReturn 2,
   .maskExpanderReseed 6]
/-- Commands that name a position, lane, core or feeder the part does not have, or a short metrology second. -/
def illRing : List Instr :=
  [.heartbeat 2 0 0 0, .heartbeat 0 8 0 0, .status 8 ent0, .linkAck 2 0, .replayResend 2, .laneFailure 4, .portBroken 2,
   .portRetrain 2, .mirrorRaw 8 0 0 (frameOk 1), .mirrorState 8 0 (.note 18 0), .mirrorReading 8 0 0 (ownRecord live 3 1 0) none,
   .mirrorCmd 8 0 ⟨0, 0, 0, 0, 0, 0⟩, .release 8 0 0 0, .syncCopy 8 (.note 18 0), .silenceDeclared 8 true, .joinRequest 2 0,
   .joinGrant 8 0 false 0, .joinGrant 0 8 false 0, .owner 8 0 true 0, .owner 0 8 true 0, .scrubPass 2 .clean,
   .controlCoreRestart 4 0, .coreRestartComplete 4, .metrologySecond (second none), .balanceEvaluation 4]
theorem test_wf_refuses_host : illHost.all (fun c => !c.wf) = true := by decide +kernel
theorem test_wf_refuses_path : illPath.all (fun c => !c.wf) = true := by decide +kernel
theorem test_wf_refuses_ring : illRing.all (fun c => !c.wf) = true := by decide +kernel
/-- The largest numbers the part has are accepted. -/
theorem test_wf_accepts : ([.sqTailDoorbell 63 4095 4 0, .pushWrite 15 0 64 0, .ringEnable 2 15 1, .cntLoRead 511, .slotZeroize 8191,
    .functionStartComplete (.ring 1 63) true, .parseAndClassify true 3, .metrologySecond ⟨List.replicate 16 0, List.replicate 12 0, [], 0, none⟩] :
    List Instr).all (fun c => c.wf) = true := by decide +kernel

end Sys2Proof.Tests
end

section
/-!
# The push window (02 R69, R70, R72, R88)

A push is taken into the push buffer, completes PUSH_FULL or is dropped (PUSH_WRITE), and the oldest push leaves the buffer
(PUSH_ADMISSION). The shared operations under these rows come first, each with its frame said once.
-/
namespace Sys2Proof.Machine
open Sys2Proof Sys2Proof.Safety

/-! ## Places in flight -/

theorem notePeak_eq (s : State) : ∃ p, notePeak s = { s with host := { s.host with peak := p } } := by
  unfold notePeak
  split
  · exact ⟨inflight s, rfl⟩
  · exact ⟨s.host.peak, rfl⟩

@[simp] theorem notePeak_host_flights (s : State) : (notePeak s).host.flights = s.host.flights := by
  obtain ⟨_, h⟩ := notePeak_eq s; rw [h]
@[simp] theorem notePeak_host_pushBuf (s : State) : (notePeak s).host.pushBuf = s.host.pushBuf := by
  obtain ⟨_, h⟩ := notePeak_eq s; rw [h]
@[simp] theorem notePeak_host_pushOvf (s : State) : (notePeak s).host.pushOvf = s.host.pushOvf := by
  obtain ⟨_, h⟩ := notePeak_eq s; rw [h]
@[simp] theorem notePeak_host_uidNext (s : State) : (notePeak s).host.uidNext = s.host.uidNext := by
  obtain ⟨_, h⟩ := notePeak_eq s; rw [h]

/-- `flightOf` answers a descriptor in flight under the number asked for. -/
theorem flightOf_some {s : State} {uid : Nat} {f : Flight} (h : flightOf s uid = some f) :
    f ∈ s.host.flights ∧ f.uid = uid :=
  ⟨List.mem_of_find?_eq_some h, by simpa using List.find?_some h⟩

/-- A descriptor put in place of one in flight of the same number is in flight. -/
theorem mem_flightPut {s : State} {f : Flight} (h : ∃ g ∈ s.host.flights, g.uid = f.uid) :
    f ∈ (flightPut s f).host.flights := by
  obtain ⟨g, hg, hu⟩ := h
  exact List.mem_map.mpr ⟨g, hg, if_pos hu⟩

/-! ## The journal entry of a push (R89) -/

theorem jrnlOpen_eq (s : State) (f : Flight) :
    ∃ l j jw q h c p w, jrnlOpen s f = jState s l j jw q h c p w := by
  unfold jrnlOpen
  dsimp only
  obtain ⟨j, jw, q, h, c, p, w, e⟩ := jrnlMirror_eq _ f.uid
  exact ⟨_, j, jw, q, h, c, p, w, by rw [e]; rfl⟩

/-- Ensuring a push's journal entry changes what a journal entry's change may change. -/
theorem jrnlEnsure_eq (s : State) (f : Flight) :
    ∃ l j jw q h c p w, jrnlEnsure s f = jState s l j jw q h c p w := by
  unfold jrnlEnsure
  split
  · exact ⟨s.host.jrnl, s.recs.jtail, s.recs.jwait, s.recs.jseq, s.harn.ports, s.cnt, s.host.msixPend, s.wire, rfl⟩
  · exact jrnlOpen_eq s f

@[simp] theorem jrnlEnsure_host_flights (s : State) (f : Flight) : (jrnlEnsure s f).host.flights = s.host.flights := by
  obtain ⟨_, _, _, _, _, _, _, _, h⟩ := jrnlEnsure_eq s f; rw [h]; rfl
@[simp] theorem jrnlEnsure_host_pushBuf (s : State) (f : Flight) : (jrnlEnsure s f).host.pushBuf = s.host.pushBuf := by
  obtain ⟨_, _, _, _, _, _, _, _, h⟩ := jrnlEnsure_eq s f; rw [h]; rfl
@[simp] theorem jrnlEnsure_host_pushOvf (s : State) (f : Flight) : (jrnlEnsure s f).host.pushOvf = s.host.pushOvf := by
  obtain ⟨_, _, _, _, _, _, _, _, h⟩ := jrnlEnsure_eq s f; rw [h]; rfl
@[simp] theorem jrnlEnsure_host_uidNext (s : State) (f : Flight) : (jrnlEnsure s f).host.uidNext = s.host.uidNext := by
  obtain ⟨_, _, _, _, _, _, _, _, h⟩ := jrnlEnsure_eq s f; rw [h]; rfl

/-! ## The check of an admitted descriptor -/

/-- A descriptor as its formed completion leaves it in flight (R63, R88). -/
def endedFlight (f : Flight) (step units : Nat) : Flight :=
  { f with started := true, ended := true, step := step, units := units, stage := .none }

/-- A completion that is to be written changes no descriptor in flight but its own, which has ended. -/
theorem complete_flights (s : State) (f : Flight) (st step units : Nat) (r : BitVec 128) (hd : f.discard = false) :
    (complete s f st step units r).host.flights = (flightPut s (endedFlight f step units)).host.flights := by
  simp only [complete, completeAfter, endedFlight, hd, Bool.false_eq_true, if_false, flightPut, cqPut_host_flights]
  split <;> simp

@[simp] theorem klFail_host (s : State) (f : Flight) : (klFail s f).host = s.host := by
  unfold klFail
  split <;> rfl

/-- What the check of an admitted descriptor can do: let it stand, or complete it from a state whose host part is the
same. -/
theorem checkAdmitted_cases (s : State) (f : Flight) (pushed dup : Bool) :
    let g := { f with adm := s.tcxo }
    let u := cnt (flightPut s g) (289 + dTc f.raw)
    checkAdmitted s f pushed dup = u ∨ ∃ st r, checkAdmitted s f pushed dup = complete (klFail u g) g st 0 0 r := by
  dsimp only
  unfold checkAdmitted
  dsimp only
  split
  · exact .inl rfl
  · exact .inr ⟨_, _, rfl⟩
  · exact .inr ⟨_, _, rfl⟩

@[simp] theorem checkAdmitted_host_pushBuf (s : State) (f : Flight) (pushed dup : Bool) :
    (checkAdmitted s f pushed dup).host.pushBuf = s.host.pushBuf := by
  obtain h | ⟨st, r, h⟩ := checkAdmitted_cases s f pushed dup <;> rw [h] <;> simp

/-- A descriptor checked stays in flight, its bytes and its place as they were. -/
theorem checkAdmitted_keeps_flight {s : State} {f : Flight} (pushed dup : Bool)
    (h : ∃ g ∈ s.host.flights, g.uid = f.uid) (hd : f.discard = false) :
    ∃ g ∈ (checkAdmitted s f pushed dup).host.flights, g.uid = f.uid ∧ g.raw = f.raw ∧ g.inPush = f.inPush := by
  have hput : { f with adm := s.tcxo } ∈ (flightPut s { f with adm := s.tcxo }).host.flights := mem_flightPut h
  obtain e | ⟨st, r, e⟩ := checkAdmitted_cases s f pushed dup <;> rw [e]
  · exact ⟨{ f with adm := s.tcxo }, by simpa using hput, rfl, rfl, rfl⟩
  · rw [complete_flights _ { f with adm := s.tcxo } _ _ _ _ hd]
    exact ⟨_, mem_flightPut ⟨{ f with adm := s.tcxo }, by simpa using hput, rfl⟩, rfl, rfl, rfl⟩

/-! ## A push dropped (R69) -/

theorem unsolicitedTc_eq (s : State) (kind eid ring wr spec : Nat) (tc0 : Bool) :
    ∃ cq n, unsolicitedTc s kind eid ring wr spec tc0 = { s with host := { s.host with cq := cq, unsolCnt := n } } := by
  unfold unsolicitedTc
  dsimp only
  split
  · exact ⟨_, s.host.unsolCnt, rfl⟩
  · exact ⟨s.host.cq, _, rfl⟩

theorem unsolicited_eq (s : State) (kind eid ring wr spec : Nat) :
    ∃ cq n, unsolicited s kind eid ring wr spec = { s with host := { s.host with cq := cq, unsolCnt := n } } :=
  unsolicitedTc_eq s kind eid ring wr spec false

/-- Where a push is accepted: a 64-byte write, aligned, inside a mapped push page of an ON ring (R69). -/
def pushAccepted (s : State) (page off len : Nat) : Bool :=
  page < 16 && len == 64 && off % 64 == 0 && off < 4096 && wbit (regGet s (0x1040 + 4 * page)) 31 &&
    (sqGet s (fld (regGet s (0x1040 + 4 * page)) 0 6)).fn.st == .on

theorem pushAccepted_iff {s : State} {page off len : Nat} : pushAccepted s page off len = true ↔
    page < 16 ∧ len = 64 ∧ off % 64 = 0 ∧ off < 4096 ∧ wbit (regGet s (0x1040 + 4 * page)) 31 = true ∧
      (sqGet s (fld (regGet s (0x1040 + 4 * page)) 0 6)).fn.st = .on := by
  simp only [pushAccepted, Bool.and_eq_true, decide_eq_true_eq, beq_iff_eq, and_assoc]

theorem pushWrite_eq_pushTake {s : State} {page off len : Nat} (raw : BitVec 512)
    (h : pushAccepted s page off len = true) :
    pushWrite s page off len raw = pushTake (bwRx s 66 len) (fld (regGet s (0x1040 + 4 * page)) 0 6) raw :=
  if_pos h

/-- A push that is not accepted counts as dropped and changes no descriptor in flight and not the buffer. -/
theorem pushWrite_dropped {s : State} {page off len : Nat} (raw : BitVec 512) (h : pushAccepted s page off len = false) :
    (pushWrite s page off len raw).host.pushDrop = satInc s.host.pushDrop ∧
    (pushWrite s page off len raw).host.flights = s.host.flights ∧
    (pushWrite s page off len raw).host.pushBuf = s.host.pushBuf := by
  have e : pushWrite s page off len raw = errVector (unsolicited
      { bwRx s 66 len with host := { s.host with pushDrop := satInc s.host.pushDrop } } 0x21 0 0xFFFF 0xFFFFFFFF 0) :=
    if_neg (Bool.eq_false_iff.mp h)
  obtain ⟨cq, n, hu⟩ := unsolicited_eq
    { bwRx s 66 len with host := { s.host with pushDrop := satInc s.host.pushDrop } } 0x21 0 0xFFFF 0xFFFFFFFF 0
  rw [e, hu]
  simp [errVector]

/-! ## A push accepted (R70, R72) -/

/-- A pushed descriptor as it stands in flight. -/
def pushedFlight (s : State) (q : Nat) (raw : BitVec 512) : Flight :=
  { uid := s.host.uidNext, sq := q, cq := sqCqId s q, idx := none, raw := raw, seq := (sqGet s q).seq, admWait := false,
    inPush := true, started := false, ended := false, discard := false, step := 0, units := 0, stage := .none, adm := 0 }

/-- With room, a push takes a place of the buffer, a number, and its ring's SEQ. -/
theorem pushTake_enters {s : State} (q : Nat) (raw : BitVec 512) (h : s.host.pushBuf.length < 64) :
    (pushTake s q raw).host.pushBuf = s.host.pushBuf ++ [s.host.uidNext] ∧
    (pushTake s q raw).host.uidNext = s.host.uidNext + 1 ∧
    (pushTake s q raw).host.flights = s.host.flights ++ [pushedFlight s q raw] := by
  simp [pushTake, h, pushedFlight]

/-- With the buffer full, a push completes BAD_DESCRIPTOR, PUSH_FULL; the buffer stays and the overflow counts. -/
theorem pushTake_full {s : State} (q : Nat) (raw : BitVec 512) (h : 64 ≤ s.host.pushBuf.length) :
    ∃ u, pushTake s q raw = bad u (pushedFlight s q raw) rsPushFull 0 ∧ u.host.pushBuf = s.host.pushBuf ∧
      u.host.pushOvf = satInc s.host.pushOvf := by
  simp only [pushTake, Nat.not_lt.mpr h, decide_false, Bool.false_eq_true, if_false]
  exact ⟨_, rfl, by simp, by simp⟩

/-! ## A push that leaves the buffer (R72, R88) -/

/-- The oldest push, its place among the 1,024 and its TC0 place free and its journal entry ready, leaves the buffer and is
checked. -/
theorem pushAdmission_leaves {s : State} {uid : Nat} {l : List Nat} {f : Flight} (hb : s.host.pushBuf = uid :: l)
    (htc0 : tc0Used s < 64) (hq : s.host.admQ = []) (hp : placeFree s 0 = true) (hf : flightOf s uid = some f)
    (hj : jrnlReady s f = true) :
    ∃ u dup, pushAdmission s = checkAdmitted u { f with inPush := false } true dup ∧ u.host.pushBuf = l ∧
      { f with inPush := false } ∈ u.host.flights := by
  obtain ⟨hmem, -⟩ := flightOf_some hf
  have hopen : (decide (64 ≤ tc0Used s) || !s.host.admQ.isEmpty || !placeFree s 0) = false := by simp [htc0, hq, hp]
  simp only [pushAdmission, hb, hopen, hf, hj, Bool.not_true, Bool.false_eq_true, if_false]
  refine ⟨_, _, rfl, by simp, ?_⟩
  simpa using mem_flightPut (s := { s with host := { s.host with pushBuf := l } }) (f := { f with inPush := false })
    ⟨f, hmem, rfl⟩

end Sys2Proof.Machine
end

section
open Sys2Proof Sys2Proof.Machine Sys2Proof.Safety

/-- Settles O17: a push accepted is `pushTake`, any other is counted as dropped, and the oldest push leaves the buffer into
the check of an admitted descriptor, which keeps it in flight. -/
theorem pushEntersAndLeavesBuffer : Obligations.PushEntersAndLeavesBuffer := by
  refine ⟨fun s page off raw ha hpage hoff hin hmap hon => ?_, fun s page off len raw ha hout => ?_,
    fun s uid l f ha hb htc0 hq hp hf hd hj => ?_⟩
  · have hacc : pushAccepted (linkUp s) page off 64 = true :=
      pushAccepted_iff.mpr ⟨hpage, rfl, hoff, hin, hmap, hon⟩
    rw [exec_pushWrite page off 64 raw s ha, pushWrite_eq_pushTake raw hacc, linkUp_regGet]
    generalize fld (regGet s (0x1040 + 4 * page)) 0 6 = q
    let u := bwRx (linkUp s) 66 64
    refine ⟨fun hroom => ?_, fun hfull => ?_⟩
    · obtain ⟨hbuf, huid, hfl⟩ := pushTake_enters (s := u) q raw hroom
      exact ⟨_, rfl, hbuf, huid, pushedFlight u q raw, by simp [u, hfl], rfl, rfl, rfl, rfl⟩
    · obtain ⟨v, e, hbuf, hovf⟩ := pushTake_full (s := u) q raw hfull
      rw [e]
      exact ⟨_, pushedFlight u q raw, rfl, by simpa [bad, reject, u] using hbuf, by simpa [bad, reject, u] using hovf, rfl,
        rfl, 0, formed_self v (pushedFlight u q raw) stBad 0 0 (badResult rsPushFull 0 0) none rfl⟩
  · have hrej : pushAccepted (linkUp s) page off len = false := by
      refine Bool.eq_false_iff.mpr fun hacc => ?_
      obtain ⟨hpage, hlen, hoff, hin, hmap, hon⟩ := pushAccepted_iff.mp hacc
      rcases hout with h | h | h | h | h | h
      · exact Nat.not_lt.mpr h hpage
      · exact h hlen
      · exact h hoff
      · exact Nat.not_lt.mpr h hin
      · exact Bool.false_ne_true (h.symm.trans hmap)
      · exact h hon
    exact ⟨_, exec_pushWrite page off len raw s ha, pushWrite_dropped raw hrej⟩
  · obtain ⟨u, dup, e, hbuf, hmem⟩ := pushAdmission_leaves hb htc0 hq hp hf hj
    obtain ⟨g, hg, hu, hr, hi⟩ := checkAdmitted_keeps_flight true dup ⟨_, hmem, rfl⟩ hd
    obtain ⟨-, huid⟩ := flightOf_some hf
    refine ⟨_, exec_pushAdmission s ha, by simpa [e] using hbuf, g, by simpa [e] using hg, hu.trans huid, hr, hi⟩

end

section
/-!
# Low words that latch their high word (18 R516, 15 R476)

What a read of CNTi_LO and of DT_LO leaves: the word answered, the latch, and the state around them.
-/
namespace Sys2Proof.Machine
open Sys2Proof Sys2Proof.Safety

/-! ## The counter block's latch (R516) -/

@[simp] theorem cntLoRead_host_lastRead (s : State) (i : Nat) :
    (cntLoRead s i).host.lastRead = BitVec.ofNat 32 (cntGet s i).toNat := rfl
@[simp] theorem cntLoRead_cnt_latch (s : State) (i : Nat) :
    (cntLoRead s i).cnt.latch = BitVec.ofNat 31 ((cntGet s i).toNat / 2 ^ 32) := rfl
@[simp] theorem cntLoRead_cnt_ltag (s : State) (i : Nat) : (cntLoRead s i).cnt.ltag = i := rfl
@[simp] theorem cntLoRead_cntGet (s : State) (i j : Nat) : cntGet (cntLoRead s i) j = cntGet s j := rfl
@[simp] theorem cntLoRead_regs (s : State) (i : Nat) : (cntLoRead s i).regs = s.regs := rfl
@[simp] theorem cntLoRead_time (s : State) (i : Nat) : (cntLoRead s i).time = s.time := rfl

@[simp] theorem wmUpdate_cntHi (s : State) (i : Nat) : cntHi (wmUpdate s) i = cntHi s i := rfl

/-- The high bits of a 56-bit counter fit the 31-bit latch. -/
theorem counter_high_lt (v : BitVec 56) : v.toNat / 2 ^ 32 < 2 ^ 31 := by
  have := v.isLt
  omega

/-- CNTi_HI after a read of CNTi_LO: the counter's high bits, with LATCHED. -/
theorem cntHi_cntLoRead_same (s : State) (i : Nat) :
    cntHi (cntLoRead s i) i = BitVec.ofNat 32 ((cntGet s i).toNat / 2 ^ 32 + 2 ^ 31) := by
  rw [cntHi, if_pos (cntLoRead_cnt_ltag s i), cntLoRead_cnt_latch, BitVec.toNat_ofNat,
    Nat.mod_eq_of_lt (counter_high_lt (cntGet s i))]

/-- Every other counter's high word then reads 0: the latch is single, and its tag is `i`. -/
theorem cntHi_cntLoRead_ne {i j : Nat} (s : State) (h : j ≠ i) : cntHi (cntLoRead s i) j = 0 :=
  if_neg h.symm

/-! ## DT_HI (R476) -/

@[simp] theorem dtLoRead_host_lastRead (s : State) :
    (dtLoRead s).host.lastRead = BitVec.ofNat 32 (dtOf s).toNat := rfl
@[simp] theorem dtLoRead_time (s : State) :
    (dtLoRead s).time = { s.time with dtHi := BitVec.ofNat 32 ((dtOf s).toNat / 2 ^ 32) } := rfl
@[simp] theorem dtLoRead_regs (s : State) : (dtLoRead s).regs = s.regs := rfl

end Sys2Proof.Machine
end

section
open Sys2Proof Sys2Proof.Machine Sys2Proof.Safety

/-- Settles O26: the row of a low-word read is the read after the link shows up, so each part is what that read leaves;
the latch holds all of the counter's high bits, and only the counter read matches its tag. -/
theorem lowReadsLatchHigh : Obligations.LowReadsLatchHigh := by
  refine fun s ha => ⟨fun k => ⟨_, exec_cntLoRead k s ha, ?lastRead, ?high, ?value, ?others, ?regs, ?time⟩,
    ⟨_, exec_dtLoRead s ha, ?dtLastRead, ?dtHigh, ?dtRegs⟩⟩
  case high => rw [wmUpdate_cntHi, cntHi_cntLoRead_same, linkUp_cntGet]
  case others =>
    intro j hj
    rw [wmUpdate_cntHi, cntHi_cntLoRead_ne _ hj]
  case dtHigh => rw [wmUpdate_time, dtLoRead_time, linkUp_time, linkUp_dtOf]
  all_goals simp

end

section
/-!
# The shape of every row, and what follows of it (01 R36, R37; 16 R478; 21 R559, R571)

`exec_shape` says once what a row can be: one that acts on a device that acts, an event of a pin or of the backup domain,
or the start of a part strapped for factory test. The statements over all commands are short uses of it.
-/
namespace Sys2Proof.Machine
open Sys2Proof Sys2Proof.Safety

/-! ## The shape of a row -/

/-- The events of pins and of the backup domain, which act whether or not the device does. -/
def pinEvent : Instr → Bool
  | .resetAssert _ | .resetRelease _ | .pfailDeassert | .vbatLow _ | .bankLevelChange _ _ _ | .sealLoopPulse _
  | .boundaryScanInstruction _ => true
  | _ => false

/-- A row of a device that acts; one that does not leaves the state as it is. -/
def ActsAwake (s : State) (r : Res) : Prop := ∃ g, r = run s g

theorem actsAwake_run (s : State) (g : State → State) : ActsAwake s (run s g) := ⟨g, rfl⟩
theorem actsAwake_hostRun (s : State) (g : State → State) : ActsAwake s (hostRun s g) := ⟨_, rfl⟩
theorem actsAwake_tailRun (s : State) (g : State → State) : ActsAwake s (tailRun s g) := ⟨_, rfl⟩
theorem actsAwake_tailRunTc (s : State) (tc : Nat) (g : State → State) : ActsAwake s (tailRunTc s tc g) := ⟨_, rfl⟩
theorem actsAwake_sweepRun (s : State) (g : State → State) : ActsAwake s (sweepRun s g) := actsAwake_tailRun s _

/-- What a row can be: a row of a device that acts, an event of a pin or of the backup domain, or the one stop. -/
theorem exec_shape (c : Instr) (s : State) :
    ActsAwake s (exec c s) ∨ (pinEvent c = true ∧ ∃ t, exec c s = anyRun t) ∨
      (∃ i, c = .resetRelease i ∧ i.testEn = true ∧ s.pins.resetLow = true ∧ exec c s = .fault .factoryTest) := by
  cases c with
  | resetRelease i =>
    by_cases h : (s.pins.resetLow && i.testEn) = true
    · obtain ⟨hlow, htest⟩ := Bool.and_eq_true_iff.mp h
      exact .inr (.inr ⟨i, rfl, htest, hlow, if_pos h⟩)
    · exact .inr (.inl ⟨rfl, _, exec_resetRelease i s (Bool.eq_false_iff.mpr h)⟩)
  | resetAssert | pfailDeassert | bankLevelChange | vbatLow | sealLoopPulse | boundaryScanInstruction =>
    exact .inr (.inl ⟨rfl, _, by simp only [exec]; rfl⟩)
  | sqTailDoorbell | cqHeadDoorbell | rrGrantDoorbell | pushWrite | ringEnable | ringDisable | irqEnWrite
  | msixVectorUnmask | functionLevelReset | registerWrite | wmCfgWrite | klCtrlClear | pacePeakClear
  | inflightPeakClear | holdPeakClear | chgRoleWrite | cntLoRead | dtLoRead | bwSelWrite | bwWindowMsWrite
  | samplerArm =>
    simp only [exec]
    exact .inl (actsAwake_hostRun s _)
  | linkDrop | collectionInstant | inferenceWindowEnd | backgroundMigration | relayConfirmationTimeout
  | tariffActivate | periodClose | friendlyEvaluationSweep =>
    simp only [exec]
    exact .inl (actsAwake_tailRun s _)
  | posting =>
    simp only [exec]
    exact .inl (actsAwake_tailRunTc s _ _)
  | closeSweep =>
    simp only [exec]
    exact .inl (actsAwake_sweepRun s _)
  | _ =>
    simp only [exec]
    exact .inl (actsAwake_run s _)

/-! ## Watermarks that have just followed their queues agree with them -/

/-- Only a reserved queue has no depth. -/
theorem queueDepth_pos (s : State) {q : Nat} (h : q ≤ 0x4F) : 0 < queueDepth s q := by
  unfold queueDepth
  repeat' split
  all_goals omega

/-- A routed watermark's LOW lies below its HIGH, and its queue is a listed one (R37). -/
theorem wmRouted_valid {w : Word} (h : wmRouted w = true) : wmLow w < wmHigh w ∧ wmId w ≤ 0x4F := by
  simp only [wmRouted, wmInvalid, Bool.and_eq_true, Bool.not_eq_true', Bool.or_eq_false_iff, decide_eq_false_iff_not,
    Nat.not_le, Nat.not_lt] at h
  exact ⟨h.2.1.1, h.2.2⟩

theorem wmUpdate_queueUsed (s : State) (q : Nat) : queueUsed (wmUpdate s) q = queueUsed s q := rfl
theorem wmUpdate_queueDepth (s : State) (q : Nat) : queueDepth (wmUpdate s) q = queueDepth s q := rfl

theorem wmUpdate_wm (s : State) {n : Nat} (h : n < 4) : lget false (wmUpdate s).glob.wm n = wmNext s n := by
  match n, h with
  | 0, _ | 1, _ | 2, _ | 3, _ => rfl

/-- After the evaluation of R36 every watermark agrees with its queue. -/
theorem wmInv_wmUpdate (s : State) : WmInv (wmUpdate s) := by
  intro n hn
  simp only [WmAgrees, wmUpdate_regGet, wmUpdate_queueUsed, wmUpdate_queueDepth, wmUpdate_wm s hn, wmNext]
  generalize regGet s (0x20 + 4 * n) = w
  refine ⟨fun hr => by simp [hr], fun hr => ?asserted, fun hr => ?deasserted⟩
  all_goals
    obtain ⟨hlow, hid⟩ := wmRouted_valid hr
    have hgap := Nat.mul_lt_mul_of_pos_right hlow (queueDepth_pos s hid)
    simp only [hr, Bool.not_true, Bool.false_eq_true, if_false]
    intro h
    split at h
  case asserted.isTrue => omega
  case asserted.isFalse =>
    split at h
    · cases h
    · omega
  case deasserted.isTrue => cases h
  case deasserted.isFalse => split at h <;> omega

/-- An idle step writes the clocks alone (log entry 1). -/
theorem idleTick_eq (s : State) : ∃ n b t, idleTick s = { s with tcxo := n, boot := b, time := t } := by
  unfold idleTick timeSet
  split
  · exact ⟨s.tcxo, s.boot, bbcTick s.time, rfl⟩
  · exact ⟨s.tcxo + 1, opTick s.boot, bbcTick (dtTick s.time), rfl⟩

theorem idleTick_tcxo {s : State} (h : s.pins.resetLow = false) : (idleTick s).tcxo = s.tcxo + 1 := by
  simp [idleTick, h]

/-- The queues and the registers do not see the clocks, so agreement stays. -/
theorem wmInv_idleTick {s : State} (h : WmInv s) : WmInv (idleTick s) := by
  obtain ⟨n, b, t, e⟩ := idleTick_eq s
  rw [e]
  exact h

/-- A deasserted watermark that routes nothing agrees with whatever queue it names. -/
theorem wmAgrees_of_unrouted {s : State} {n : Nat} (hr : wmRouted (regGet s (0x20 + 4 * n)) = false)
    (hd : lget false s.glob.wm n = false) : WmAgrees s n := by
  simp [WmAgrees, hr, hd]

/-- At reset no watermark routes a queue, and none is asserted. -/
theorem reset_wm_unrouted : ∀ n, n < 4 →
    wmRouted (regGet State.reset (0x20 + 4 * n)) = false ∧ lget false State.reset.glob.wm n = false := by
  decide

end Sys2Proof.Machine
end

section
open Sys2Proof Sys2Proof.Machine Sys2Proof.Safety

/-- Settles O4: an idle step moves no queue, and a row leaves its state or one whose watermarks have just followed. -/
theorem watermarksAgreeKept : Obligations.WatermarksAgreeKept := by
  intro s t hs ht
  unfold step at ht
  split at ht
  next c l hp =>
    obtain rfl | ⟨u, rfl⟩ := exec_settled c { s with pending := l } t ht
    · exact hs
    · exact wmInv_wmUpdate u
  next hp =>
    cases ht
    exact wmInv_idleTick hs

/-- Settles O5: every row but the events of pins and of the backup domain is a row of a device that acts. -/
theorem heldDeviceIgnoresCommands : Obligations.HeldDeviceIgnoresCommands := by
  intro c s ha hassert hrelease hpfail hvbat hbank hpulse hscan
  obtain ⟨g, h⟩ | ⟨hpin, -⟩ | ⟨i, hi, -⟩ := exec_shape c s
  · exact h.trans (run_asleep s g ha)
  · cases c with
    | resetAssert n => exact absurd rfl (hassert n)
    | resetRelease i => exact absurd rfl (hrelease i)
    | pfailDeassert => exact absurd rfl hpfail
    | vbatLow n => exact absurd rfl (hvbat n)
    | bankLevelChange g m h => exact absurd rfl (hbank g m h)
    | sealLoopPulse o => exact absurd rfl (hpulse o)
    | boundaryScanInstruction i => exact absurd rfl (hscan i)
    | _ => cases hpin
  · exact absurd hi (hrelease i)

/-- Settles O6: two of the three shapes of a row answer a next state, and the third is the stop named. -/
theorem onlyFactoryStrapStops : Obligations.OnlyFactoryStrapStops := by
  intro c s
  obtain ⟨g, h⟩ | ⟨-, t, h⟩ | hstop := exec_shape c s
  · exact .inl ⟨_, h⟩
  · exact .inl ⟨_, h⟩
  · exact .inr hstop

/-- Settles O1: the step's own equation for a queue that is not empty. -/
theorem stepRunsFrontCommand : Obligations.StepRunsFrontCommand := by
  intro c l s h
  rw [step, h]

/-- Settles O2: with nothing waiting a step is `idleTick`, which writes the clocks alone. -/
theorem idleStepOnlyAdvancesClocks : Obligations.IdleStepOnlyAdvancesClocks := by
  intro s h
  obtain ⟨n, b, t, e⟩ := idleTick_eq s
  exact ⟨idleTick s, by rw [step, h], by rw [e], idleTick_tcxo⟩

/-- Settles O3: the watermarks route nothing at reset; the rest are the reset state's own words. -/
theorem resetStateSound : Obligations.ResetStateSound := by
  refine ⟨fun n hn => ?_, rfl, rfl, by decide +kernel⟩
  obtain ⟨hr, hd⟩ := reset_wm_unrouted n hn
  exact wmAgrees_of_unrouted hr hd

end

section
/-!
# OP_NOP, OP_STATUS and OP_ABORT (02 R82, R89 to R91)

The first two end in one completion. An abort withdraws what its target has under way and settles it; that the target then
completes is `drainCheck_formed`: the sweep over settled descriptors forms each one's completion and loses none.
-/
namespace Sys2Proof.Machine
open Sys2Proof Sys2Proof.Safety

/-! ## Completions that stay -/

/-- A completion formed stays as another is formed. -/
theorem formed_completeAfter {s : State} {f : Flight} {st p n : Nat} {r : BitVec 128} (h : Formed s f st p n r)
    (g : Flight) (st' p' n' : Nat) (r' : BitVec 128) (a : Option Nat) :
    Formed (completeAfter s g st' p' n' r' a) f st p n r := by
  obtain ⟨e, he, huid, huns, hsq, htag, hst, hpr, hdt, hrest⟩ := h
  exact ⟨e, completeAfter_mem s g st' p' n' r' a f.cq e he, huid, huns, hsq, htag, hst, hpr, by simpa using hdt, hrest⟩

/-- A completion formed with nothing after it is formed. -/
theorem formed_complete_self {s : State} {f : Flight} (st p n : Nat) (r : BitVec 128) (hd : f.discard = false) :
    Formed (complete s f st p n r) f st p n r := formed_self s f st p n r none hd

theorem formed_wmUpdate {s : State} {f : Flight} {st p n : Nat} {r : BitVec 128} (h : Formed s f st p n r) :
    Formed (wmUpdate s) f st p n r := h

/-- The completion formed after another's stands last on its ring, where the ring was untouched before. -/
theorem completed_after (s : State) (f : Flight) (st p n : Nat) (r : BitVec 128) (a : Option Nat)
    (hd : f.discard = false) : Completed s (wmUpdate (completeAfter s f st p n r a)) f st p n r := by
  refine ⟨cplOf s f st p n r a, ?_, cplOf_is _ _ _ _ _ _ _ _ (by simp)⟩
  rw [wmUpdate_cqGet, completeAfter_cq s f st p n r a hd]

/-! ## Settled descriptors (R86) -/

/-- What the sweep over settled descriptors does for one of them. -/
def drainOne (s : State) (f : Flight) : State :=
  match f.stage with
  | .drain st step res =>
    if f.ended || recordsOut s f.uid then s else complete s f st step (if st = stAborted then f.units else 0) res
  | _ => s

theorem drainCheck_eq (s : State) : drainCheck s = s.host.flights.foldl drainOne s := rfl

/-- The sweep completes the descriptor, or leaves the state. -/
theorem drainOne_cases (s : State) (f : Flight) :
    drainOne s f = s ∨ ∃ st step n res, drainOne s f = complete s f st step n res := by
  unfold drainOne
  split
  · split
    · exact .inl rfl
    · exact .inr ⟨_, _, _, _, rfl⟩
  · exact .inl rfl

@[simp] theorem recordsOut_complete (s : State) (f : Flight) (st p n : Nat) (r : BitVec 128) (uid : Nat) :
    recordsOut (complete s f st p n r) uid = recordsOut s uid := by
  simp [recordsOut]

@[simp] theorem recordsOut_drainOne (s : State) (f : Flight) (uid : Nat) :
    recordsOut (drainOne s f) uid = recordsOut s uid := by
  obtain h | ⟨st, step, n, res, h⟩ := drainOne_cases s f
  · rw [h]
  · rw [h, recordsOut_complete]

theorem formed_drainOne {s : State} {f : Flight} {st p n : Nat} {r : BitVec 128} (h : Formed s f st p n r)
    (g : Flight) : Formed (drainOne s g) f st p n r := by
  obtain e | ⟨st', step, m, res, e⟩ := drainOne_cases s g
  · rwa [e]
  · rw [e]
    exact formed_completeAfter h g st' step m res none

theorem formed_foldl_drainOne {f : Flight} {st p n : Nat} {r : BitVec 128} (l : List Flight) {s : State}
    (h : Formed s f st p n r) : Formed (l.foldl drainOne s) f st p n r := by
  induction l generalizing s with
  | nil => exact h
  | cons g l ih => exact ih (formed_drainOne h g)

/-- A settled descriptor in the list swept, none of whose records is on its way, has its completion formed. -/
theorem foldl_drainOne_forms {f : Flight} {st p : Nat} {r : BitVec 128} (hstage : f.stage = .drain st p r)
    (he : f.ended = false) (hd : f.discard = false) (l : List Flight) {s : State} (hm : f ∈ l)
    (ho : recordsOut s f.uid = false) :
    Formed (l.foldl drainOne s) f st p (if st = stAborted then f.units else 0) r := by
  induction l generalizing s with
  | nil => cases hm
  | cons g l ih =>
    obtain rfl | hm := List.mem_cons.mp hm
    · refine formed_foldl_drainOne l ?_
      simp only [drainOne, hstage, he, ho, Bool.or_self, Bool.false_eq_true, if_false]
      exact formed_complete_self _ _ _ _ hd
    · exact ih hm (by rwa [recordsOut_drainOne])

theorem drainCheck_formed {s : State} {f : Flight} {st p : Nat} {r : BitVec 128} (hm : f ∈ s.host.flights)
    (hstage : f.stage = .drain st p r) (he : f.ended = false) (hd : f.discard = false)
    (ho : recordsOut s f.uid = false) : Formed (drainCheck s) f st p (if st = stAborted then f.units else 0) r := by
  rw [drainCheck_eq]
  exact foldl_drainOne_forms hstage he hd s.host.flights hm ho

/-! ## What an abort takes back (R91) -/

theorem txnPromote_eq (s : State) : ∃ l, txnPromote s = txnsSet s l := by
  unfold txnPromote txnMod
  split
  · exact ⟨_, rfl⟩
  · exact ⟨s.cmd.txns, rfl⟩

theorem txnPromoteAll_eq (s : State) : ∃ l, txnPromoteAll s = txnsSet s l := by
  unfold txnPromoteAll
  generalize s.cmd.txns = w
  induction w generalizing s with
  | nil => exact ⟨s.cmd.txns, rfl⟩
  | cons t w ih =>
    obtain ⟨l, h⟩ := txnPromote_eq s
    obtain ⟨m, hm⟩ := ih (txnPromote s)
    exact ⟨m, by rw [List.foldl_cons, hm, h]; rfl⟩

theorem txnCloseUid_eq (s : State) (uid : Nat) :
    ∃ l t, txnCloseUid s uid = { s with cmd := { s.cmd with txns := l }, chan := { s.chan with tab := t } } := by
  unfold txnCloseUid
  obtain ⟨l, h⟩ := txnPromoteAll_eq
    (txDropAll (txnsSet s (s.cmd.txns.filter fun t => t.uid != some uid)) fun f => f.uid == some uid)
  exact ⟨l, _, by rw [h]; rfl⟩

/-- Scrubbing an object's early bytes writes host memory and drops the object. -/
theorem objScrub_eq (s : State) (f : Flight) :
    ∃ m c po pe w ce, objScrub s f =
      { s with hostMem := m, cnt := c, host := { s.host with posted := po, msixPend := pe }, wire := w, ce := ce } := by
  unfold objScrub
  split
  · exact ⟨s.hostMem, s.cnt, s.host.posted, s.host.msixPend, s.wire, s.ce, rfl⟩
  next o _ =>
    dsimp only
    split
    · exact ⟨s.hostMem, s.cnt, s.host.posted, s.host.msixPend, s.wire, _, rfl⟩
    · obtain ⟨c, po, w, h⟩ := hostWriteMem_eq s (dBufAddr f.raw) (leBytes o.released 0)
      obtain ⟨c', pe, w', h'⟩ := cnt_eq (hostWriteMem s (dBufAddr f.raw) (leBytes o.released 0)) 241
      exact ⟨_, c', po, pe, w', _, by rw [h', h]; rfl⟩

/-- The descriptors in flight, their records and the time do not see what an abort takes back. -/
theorem abortWithdraw_frame (s : State) (g : Flight) :
    (abortWithdraw s g).host.flights = s.host.flights ∧ (abortWithdraw s g).host.deliv = s.host.deliv ∧
    (abortWithdraw s g).host.rr = s.host.rr ∧ (abortWithdraw s g).rp = s.rp ∧ (abortWithdraw s g).sealU = s.sealU := by
  simp only [abortWithdraw]
  generalize hu : (if dOpcode g.raw = 0x91 then _ else _ : State) = u
  have hframe : u.host.flights = s.host.flights ∧ u.host.deliv = s.host.deliv ∧ u.host.rr = s.host.rr ∧ u.rp = s.rp ∧
      u.sealU = s.sealU := by
    rw [← hu]
    split <;> exact ⟨rfl, rfl, rfl, rfl, rfl⟩
  obtain ⟨l, t, h⟩ := txnCloseUid_eq (distDrop (objDrop (objScrub u g) g.uid) g.uid) g.uid
  obtain ⟨m, c, po, pe, w, ce, ho⟩ := objScrub_eq u g
  rw [h, ho]
  exact hframe

@[simp] theorem klFail_rp (s : State) (f : Flight) : (klFail s f).rp = s.rp := by unfold klFail; split <;> rfl
@[simp] theorem klFail_sealU (s : State) (f : Flight) : (klFail s f).sealU = s.sealU := by unfold klFail; split <;> rfl

/-- A target aborted at a step boundary completes with what it has done, once none of its records is on its way. -/
theorem settle_aborted_formed {s : State} {g : Flight} (hm : g ∈ s.host.flights) (he : g.ended = false)
    (hd : g.discard = false) (ho : recordsOut s g.uid = false) :
    Formed (settle (klFail (abortWithdraw s g) g) g stAborted g.step 0) g stAborted g.step g.units 0 := by
  obtain ⟨hfl, hdeliv, hrr, hrp, hseal⟩ := abortWithdraw_frame s g
  refine drainCheck_formed (f := { g with stage := .drain stAborted g.step 0, started := true }) ?_ rfl he hd ?_
  · exact mem_flightPut ⟨g, by simpa [hfl] using hm, rfl⟩
  · simpa [recordsOut, flightPut, hdeliv, hrr, hrp, hseal] using ho

theorem abortTarget_mem {s : State} {f g : Flight} (h : abortTarget s f = some g) : g ∈ s.host.flights :=
  List.mem_reverse.mp (List.mem_of_find?_eq_some h)

theorem ended_of_stepsDone {g : Flight} (h : stepsDone g = false) : g.ended = false :=
  (Bool.or_eq_false_iff.mp h).1

end Sys2Proof.Machine
end

section
open Sys2Proof Sys2Proof.Machine Sys2Proof.Safety

/-- Settles O7: each row ends in one completion; an abort that takes effect forms its target's first. -/
theorem hostServicesComplete : Obligations.HostServicesComplete := by
  refine ⟨⟨fun s uid f hrun => ?nop, fun s uid f hrun => ?status⟩, fun s uid f hrun => ?abort⟩
  all_goals obtain ⟨ha, hr, hs, hd⟩ := hrun
  case nop =>
    rw [exec_opNop uid s ha, opNop, withDesc_run s uid 1 _ f hr hs]
    exact ⟨_, rfl, completed_self s f stOk 0 0 0 hd, by simp [completeOk]⟩
  case status =>
    rw [exec_opStatus uid s ha, opStatus, withDesc_run s uid 2 _ f hr hs]
    refine ⟨fun e he => ?_, fun he => ?_⟩
    · rw [he]
      exact ⟨_, rfl, by simp [completeOk], completed_self s f stOk 0 0 _ hd⟩
    · rw [he]
      exact ⟨_, rfl, by simp [completeOk], completed_self s f stOk 0 0 0 hd⟩
  case abort =>
    rw [exec_opAbort uid s ha, opAbort, withDesc_run s uid 3 _ f hr hs]
    refine ⟨fun g hg hdone hpast hmid => ?_, fun g hg hdone hpast hmid => ?_, fun g hg hdone => ?_,
      fun g hg hdone hpast => ?_, fun hg => ?_⟩
    all_goals simp only [hg]
    · simp only [hdone, hpast, hmid, Bool.false_eq_true, if_false]
      refine ⟨_, rfl, formed_self _ f stOk 0 0 0 _ hd, fun hgd hout => ?_⟩
      exact formed_wmUpdate (formed_completeAfter
        (settle_aborted_formed (abortTarget_mem hg) (ended_of_stepsDone hdone) hgd hout) f stOk 0 0 0 _)
    · simp only [hdone, hpast, hmid, Bool.false_eq_true, if_false, if_true]
      exact ⟨_, rfl, rfl, rfl⟩
    · simp only [hdone, if_true]
      exact ⟨_, rfl, completed_after s f stOk 0 0 _ _ hd, by simp⟩
    · simp only [hdone, hpast, Bool.false_eq_true, if_false, if_true]
      exact ⟨_, rfl, completed_self s f stOk 0 0 _ hd, by simp [completeOk]⟩
    · exact ⟨_, rfl, by simp [completeOk], completed_self s f stOk 0 0 _ hd⟩

end

section
/-!
# OP_FUNC_CTRL (01 R41, R42; 10 R324; 19 R538)

A request changes the function it names and completes with what has become of it. A disable that begins a channel's STOPPING
also ends what waits in its transmit queue; `endRest` is a state without what the end of such work can change.
-/
namespace Sys2Proof.Machine
open Sys2Proof Sys2Proof.Safety

/-! ## What the end of outbound work can change -/

/-- A state without what the end of a descriptor's outbound work can change: a descriptor's bookkeeping, host memory, the
queues of channels, the command path, objects in the hold buffer and the harness. -/
def endRest (s : State) : State :=
  { rest s with
    hostMem := []
    host := { (rest s).host with posted := [] }
    chan := State.reset.chan
    cmd := State.reset.cmd
    ce := State.reset.ce
    harn := State.reset.harn }

theorem endRest_of_rest {s t : State} (h : rest t = rest s) : endRest t = endRest s := by
  simp only [endRest, h]

theorem endRest_funcs {s t : State} (h : endRest t = endRest s) : t.funcs = s.funcs := congrArg (·.funcs) h

theorem foldl_endRest {α : Type} (g : State → α → State) (l : List α) (s : State)
    (h : ∀ u a, endRest (g u a) = endRest u) : endRest (l.foldl g s) = endRest s := by
  induction l generalizing s with
  | nil => rfl
  | cons a l ih => rw [List.foldl_cons, ih, h]

@[simp] theorem endRest_flightPut (s : State) (f : Flight) : endRest (flightPut s f) = endRest s := rfl
@[simp] theorem endRest_txMap (s : State) (c : Nat) (g : TxF → Option TxF) : endRest (txMap s c g) = endRest s := rfl
@[simp] theorem endRest_distPut (s : State) (d : Dist) : endRest (distPut s d) = endRest s := rfl
@[simp] theorem endRest_tkoSettle (s : State) (u : Option Nat) (st n : Nat) :
    endRest (tkoSettle s u st n) = endRest s := rfl

@[simp] theorem endRest_complete (s : State) (f : Flight) (st p n : Nat) (r : BitVec 128) :
    endRest (complete s f st p n r) = endRest s := endRest_of_rest (rest_complete s f st p n r)

@[simp] theorem endRest_setProgress (s : State) (f : Flight) (step units : Nat) :
    endRest (setProgress s f step units) = endRest s := by
  rw [setProgress, endRest_of_rest (rest_jrnlMod _ _ _)]
  rfl

@[simp] theorem endRest_hostWriteMem (s : State) (a : Nat) (b : List Byte) :
    endRest (hostWriteMem s a b) = endRest s := by
  obtain ⟨c, p, w, h⟩ := hostWriteMem_eq s a b
  rw [h]
  rfl

@[simp] theorem endRest_setBitmap (s : State) (f : Flight) (i : Nat) : endRest (setBitmap s f i) = endRest s :=
  endRest_hostWriteMem s _ _

@[simp] theorem endRest_objScrub (s : State) (f : Flight) : endRest (objScrub s f) = endRest s := by
  obtain ⟨m, c, po, pe, w, ce, h⟩ := objScrub_eq s f
  rw [h]
  rfl

@[simp] theorem endRest_drainOne (s : State) (f : Flight) : endRest (drainOne s f) = endRest s := by
  obtain h | ⟨st, step, n, res, h⟩ := drainOne_cases s f
  · rw [h]
  · rw [h, endRest_complete]

@[simp] theorem endRest_drainCheck (s : State) : endRest (drainCheck s) = endRest s :=
  foldl_endRest drainOne _ s endRest_drainOne

@[simp] theorem endRest_settle (s : State) (f : Flight) (st step : Nat) (r : BitVec 128) :
    endRest (settle s f st step r) = endRest s := by
  rw [settle, endRest_drainCheck, endRest_flightPut]

@[simp] theorem endRest_txnClose (s : State) (id : Nat) : endRest (txnClose s id) = endRest s := by
  unfold txnClose
  obtain ⟨l, h⟩ := txnPromote_eq (txDropAll (txnsSet s (s.cmd.txns.filter fun t => t.id != id)) fun f => f.txn == some id)
  rw [h]
  rfl

@[simp] theorem endRest_targetSettle (s : State) (uid idx : Nat) (ok : Bool) (steps : Nat) :
    endRest (targetSettle s uid idx ok steps) = endRest s := by
  unfold targetSettle
  split
  · rfl
  · split
    · split
      · rfl
      · dsimp only
        split <;> split <;> simp
    · rfl

@[simp] theorem endRest_distTgt (s : State) (f : Flight) (d : Dist) (i : Nat) (g : DTgt → DTgt) :
    endRest (distTgt s f d i g).1 = endRest s := by
  unfold distTgt
  dsimp only
  split
  · rfl
  · dsimp only
    split <;> simp [progWrite]

@[simp] theorem endRest_txnLost (s : State) (t : Txn) (st b20 : Nat) : endRest (txnLost s t st b20) = endRest s := by
  unfold txnLost
  dsimp only
  repeat' split
  all_goals simp [distFail]

@[simp] theorem endRest_framesFail (s : State) (ch st b20 : Nat) (p : TxF → Bool) :
    endRest (framesFail s ch st b20 p) = endRest s := by
  refine foldl_endRest _ _ s fun u f => ?_
  dsimp only
  split <;> simp

@[simp] theorem endRest_stopBegins (s : State) (id : Nat) : endRest (stopBegins s id) = endRest s := by
  unfold stopBegins
  split
  · exact endRest_framesFail _ _ _ _ _
  · rfl

@[simp] theorem fnGet_stopBegins (s : State) (id i : Nat) : fnGet (stopBegins s id) i = fnGet s i := by
  simp [fnGet, endRest_funcs (endRest_stopBegins s id)]

/-! ## The outcome of a request -/

@[simp] theorem funcResult_complete (s : State) (f : Flight) (st p n : Nat) (r : BitVec 128) (id : Nat) :
    funcResult (complete s f st p n r) id = funcResult s id := by
  simp [funcResult]
@[simp] theorem funcResult_wmUpdate (s : State) (id : Nat) : funcResult (wmUpdate s) id = funcResult s id := rfl

/-- A request that completes shows what has become of its function. -/
theorem request_completed {s u : State} {f : Flight} (id st p : Nat) (hd : f.discard = false)
    (hc : u.host.cq = s.host.cq) :
    Completed s (wmUpdate (complete u f st p 0 (funcResult u id))) f st p 0
      (funcResult (wmUpdate (complete u f st p 0 (funcResult u id))) id) := by
  rw [funcResult_wmUpdate, funcResult_complete]
  exact completed_of s u f st p 0 _ hd (by rw [cqGet, cqGet, hc])

/-- What an ACTION asks of a known function. -/
def funcAction (s : State) (f : Flight) (id : Nat) : Nat → State
  | 0 => funcDisable s f id
  | 1 => funcEnable s f id
  | _ => completeOk s f 2 (funcResult s id)

section
variable {s : State} {uid : Nat} {f : Flight} (hr : runnable s uid 0x04 = some f) (hs : stateShut s uid = false)
  (hst : f.stage = .none)
include hr hs hst

/-- A row runs its own ACTION, and refuses an unlisted one. -/
theorem funcCtrl_run {a : Nat} (hv : dByte f.raw 26 1 = a ∨ 2 < dByte f.raw 26 1) :
    funcCtrl s uid a =
      (if !funcKnown (dByte f.raw 24 2) then badParam s f 24
       else if 2 < dByte f.raw 26 1 then badParam s f 26
       else funcAction s f (dByte f.raw 24 2) a) := by
  have hrow : dByte f.raw 26 1 = a ∨ dByte f.raw 26 1 ∉ [0, 1, 2] := hv.imp_right fun h => by
    simp only [List.mem_cons, List.not_mem_nil, or_false]
    omega
  simp only [funcCtrl, withSub, withDesc_run s uid 0x04 _ f hr hs, hrow, if_true, hst, ne_eq, not_true_eq_false, if_false]
  rfl

theorem funcCtrl_known {a : Nat} (hv : dByte f.raw 26 1 = a) (ha : a ≤ 2) (hk : funcKnown (dByte f.raw 24 2) = true) :
    funcCtrl s uid a = funcAction s f (dByte f.raw 24 2) a := by
  rw [funcCtrl_run hr hs hst (.inl hv)]
  have : ¬ 2 < dByte f.raw 26 1 := by omega
  simp only [hk, this, Bool.not_true, Bool.false_eq_true, if_false]

end

/-! ## An enable (R41, R42) -/

section
variable {s : State} {id : Nat}

theorem fnEnable_standalone (h : harnessOnly id = true) (hm : inHarness s = false) : fnEnable s id = (s, stOff) := by
  simp [fnEnable, h, hm]

theorem fnEnable_loop (h : (harnessOnly id && !inHarness s) = false) (hk : id / 256 = 1)
    (hl : (chGet s (id % 256)).loop = true) :
    fnEnable s id = (fnPut s id { fnGet s id with enPend := true, disPend := false }, stOk) := by
  simp only [fnEnable, h, hk, hl, Bool.false_eq_true, and_self, if_true, if_false]

/-- Outside a loopback an enable goes by the function's state. -/
theorem fnEnable_state (h : (harnessOnly id && !inHarness s) = false)
    (hl : id / 256 = 1 → (chGet s (id % 256)).loop = false) :
    fnEnable s id = match (fnGet s id).st with
      | .off => (fnBegin s id, stOk)
      | .starting => (fnPut s id { fnGet s id with disPend := false }, stOk)
      | .on => (s, stOk)
      | .stopping => (fnPut s id { fnGet s id with enPend := true }, stStopping) := by
  have hloop : ¬ (id / 256 = 1 ∧ (chGet s (id % 256)).loop = true) := fun ⟨hk, ht⟩ => by simp [hl hk] at ht
  simp only [fnEnable, h, hloop, Bool.false_eq_true, if_false] <;> rfl

/-- A function that begins is STARTING, but for a channel that fails its start check. -/
theorem fnGet_fnBegin (hb : id / 256 = 1 → chStartBad s (id % 256) = 0) :
    (fnGet (fnBegin s id) id).st = .starting ∧ (fnGet (fnBegin s id) id).enPend = false := by
  unfold fnBegin
  split
  next hk => simp [hb hk]
  next => simp

theorem fnGet_fnBegin_bad (hk : id / 256 = 1) (hb : chStartBad s (id % 256) ≠ 0) :
    fnGet (fnBegin s id) id = Fn.idle := by
  simp [fnBegin, hk, hb]

@[simp] theorem fnBegin_host (s : State) (id : Nat) : (fnBegin s id).host = s.host := by
  unfold fnBegin
  split <;> rfl

variable {f : Flight} {u : State}

theorem funcEnable_completes (h : fnEnable s id = (u, stOk)) (hk : id / 256 ≠ 3 ∨ (fnGet u id).st ≠ .starting) :
    funcEnable s f id = completeOk u f 2 (funcResult u id) := by
  have : ¬ (id / 256 = 3 ∧ (fnGet u id).st = .starting) := fun ⟨a, b⟩ => hk.elim (· a) (· b)
  simp [funcEnable, h, this]

/-- An enable that starts a pipeline completes when its tests are over. -/
theorem funcEnable_waits (h : fnEnable s id = (u, stOk)) (hk : id / 256 = 3) (hst : (fnGet u id).st = .starting) :
    funcEnable s f id = setProgress u { f with stage := .wait u.tcxo id 2 } 1 0 := by
  simp [funcEnable, h, hk, hst]

theorem funcEnable_refused {st : Nat} (h : fnEnable s id = (u, st)) (hst : st ≠ stOk) :
    funcEnable s f id = reject u f st (funcResult u id) := by
  simp [funcEnable, h, hst]

@[simp] theorem setProgress_fnGet (s : State) (f : Flight) (step units i : Nat) :
    fnGet (setProgress s f step units) i = fnGet s i := by
  simp [setProgress]
@[simp] theorem setProgress_host_cq (s : State) (f : Flight) (step units : Nat) :
    (setProgress s f step units).host.cq = s.host.cq := by
  simp [setProgress]

/-! ## A disable (R41, R42, R535) -/

theorem funcDisable_refused (hst : (fnGet s id).st = .on ∨ (fnGet s id).st = .starting) (hl : limitBroken s id = true) :
    funcDisable s f id = badParam s f 24 := by
  rcases hst with h | h <;> simp [funcDisable, h, hl]

theorem funcDisable_completes (hl : (fnGet s id).st = .on ∨ (fnGet s id).st = .starting → limitBroken s id = false) :
    funcDisable s f id = completeOk (fnDisable s id) f 2 (funcResult (fnDisable s id) id) := by
  have : (((fnGet s id).st == .on || (fnGet s id).st == .starting) && limitBroken s id) = false := by
    rw [Bool.and_eq_false_iff, Bool.eq_false_iff, ne_eq, Bool.or_eq_true, beq_iff_eq, beq_iff_eq]
    exact Decidable.not_or_of_imp hl
  simp only [funcDisable, this, Bool.false_eq_true, if_false]

theorem fnDisable_loop (hk : id / 256 = 1) (hl : (chGet s (id % 256)).loop = true) :
    fnDisable s id = fnPut s id { fnGet s id with enPend := false, disPend := true } := by
  simp only [fnDisable, hk, hl, and_self, if_true]

/-- Outside a loopback a disable goes by the function's state. -/
theorem fnDisable_state (hl : id / 256 = 1 → (chGet s (id % 256)).loop = false) :
    fnDisable s id = match (fnGet s id).st with
      | .off => s
      | .starting => fnPut s id { fnGet s id with disPend := true }
      | .on => stopBegins (fnPut s id { fnGet s id with st := .stopping }) id
      | .stopping => fnPut s id { fnGet s id with enPend := false } := by
  have hloop : ¬ (id / 256 = 1 ∧ (chGet s (id % 256)).loop = true) := fun ⟨hk, ht⟩ => by simp [hl hk] at ht
  simp only [fnDisable, hloop, if_false] <;> rfl

end

/-- A channel is no pipeline, and no channel breaks a limit of R535. -/
theorem limitBroken_chan {s : State} {id : Nat} (h : id / 256 = 1) : limitBroken s id = false := by
  simp [limitBroken, h]

end Sys2Proof.Machine
end

section
open Sys2Proof Sys2Proof.Machine Sys2Proof.Safety

/-- Settles O8: a request goes by the function's state, and its one completion shows what has become of the function. -/
theorem funcCtrlFollowsLifecycle : Obligations.FuncCtrlFollowsLifecycle := by
  rintro s uid id f ⟨ha, hr, hs, hd⟩ rfl hst
  have hen : dByte f.raw 26 1 = 1 → funcKnown (dByte f.raw 24 2) = true →
      exec (.opFuncCtrlEnable uid) s = .next (wmUpdate (funcEnable s f (dByte f.raw 24 2))) := fun hv hk => by
    rw [exec_opFuncCtrlEnable uid s ha, funcCtrl_known hr hs hst hv (by decide) hk, funcAction]
  have hdis : dByte f.raw 26 1 = 0 → funcKnown (dByte f.raw 24 2) = true →
      exec (.opFuncCtrlDisable uid) s = .next (wmUpdate (funcDisable s f (dByte f.raw 24 2))) := fun hv hk => by
    rw [exec_opFuncCtrlDisable uid s ha, funcCtrl_known hr hs hst hv (by decide) hk, funcAction]
  generalize hid : dByte f.raw 24 2 = id at hen hdis ⊢
  refine ⟨fun hv hk => ?query, fun hv hk hh hm => ?standalone, fun hv hk hh => ⟨fun hkind hl => ?enableLoop, fun hl =>
    ⟨fun h0 h3 hb => ?enableOff, fun h0 h1 hb => ?enableBad, fun h0 h3 => ?enablePipe, fun h0 h3 => ?enableStarting,
      fun h0 h3 => ?enablePipeStarting, fun h0 => ?enableOn, fun h0 => ?enableStopping⟩⟩,
    fun hv hk => ⟨fun h0 hlim => ?limit, fun hkind hl => ?disableLoop, fun hl => ⟨fun h0 => ?disableOff,
      fun h0 hlim => ?disableStarting, fun h0 hlim => ?disableOn, fun h0 => ?disableStopping⟩⟩, ?refused⟩
  case query =>
    rw [exec_opFuncCtrlQuery uid s ha, funcCtrl_known hr hs hst hv (by decide) (hid ▸ hk), hid]
    exact ⟨_, rfl, by simp [funcAction, completeOk], completed_self s f stOk 2 0 _ hd⟩
  case standalone =>
    rw [hen hv hk, funcEnable_refused (fnEnable_standalone hh hm) (by decide)]
    exact ⟨_, rfl, by simp [reject], completed_self s f stOff 0 0 _ hd⟩
  case enableLoop =>
    rw [hen hv hk, funcEnable_completes (fnEnable_loop hh hkind hl) (.inl (by omega))]
    exact ⟨_, rfl, by simp [completeOk], request_completed id stOk 2 hd rfl⟩
  case enableOff =>
    have he : fnEnable s id = (fnBegin s id, stOk) := by rw [fnEnable_state hh hl, h0]
    obtain ⟨hstart, hpend⟩ := fnGet_fnBegin hb
    rw [hen hv hk, funcEnable_completes he (.inl h3)]
    exact ⟨_, rfl, by simpa [completeOk] using hstart, by simpa [completeOk] using hpend,
      request_completed id stOk 2 hd (by rw [fnBegin_host])⟩
  case enableBad =>
    have he : fnEnable s id = (fnBegin s id, stOk) := by rw [fnEnable_state hh hl, h0]
    rw [hen hv hk, funcEnable_completes he (.inl (by omega))]
    exact ⟨_, rfl, by simpa [completeOk] using fnGet_fnBegin_bad h1 hb,
      request_completed id stOk 2 hd (by rw [fnBegin_host])⟩
  case enablePipe =>
    have he : fnEnable s id = (fnBegin s id, stOk) := by rw [fnEnable_state hh hl, h0]
    obtain ⟨hstart, hpend⟩ := fnGet_fnBegin (s := s) (id := id) fun h1 => by omega
    rw [hen hv hk, funcEnable_waits he h3 hstart]
    exact ⟨_, rfl, by simpa using hstart, by simpa using hpend, by simp⟩
  case enableStarting =>
    have he : fnEnable s id = (fnPut s id { fnGet s id with disPend := false }, stOk) := by rw [fnEnable_state hh hl, h0]
    rw [hen hv hk, funcEnable_completes he (.inl h3)]
    exact ⟨_, rfl, by simp [completeOk], request_completed id stOk 2 hd rfl⟩
  case enablePipeStarting =>
    have he : fnEnable s id = (fnPut s id { fnGet s id with disPend := false }, stOk) := by rw [fnEnable_state hh hl, h0]
    rw [hen hv hk, funcEnable_waits he h3 (by simp [h0])]
    exact ⟨_, rfl, by simp, by simp⟩
  case enableOn =>
    have he : fnEnable s id = (s, stOk) := by rw [fnEnable_state hh hl, h0]
    rw [hen hv hk, funcEnable_completes he (.inr (by simp [h0]))]
    exact ⟨_, rfl, by simp [completeOk], request_completed id stOk 2 hd rfl⟩
  case enableStopping =>
    have he : fnEnable s id = (fnPut s id { fnGet s id with enPend := true }, stStopping) := by
      rw [fnEnable_state hh hl, h0]
    rw [hen hv hk, funcEnable_refused he (by decide)]
    exact ⟨_, rfl, by simp [reject], request_completed id stStopping 0 hd rfl⟩
  case limit =>
    rw [hdis hv hk, funcDisable_refused h0 hlim]
    exact ⟨_, rfl, by simp [badParam, bad, reject], completed_self s f stBad 0 0 _ hd⟩
  case disableLoop =>
    rw [hdis hv hk, funcDisable_completes fun _ => limitBroken_chan hkind, fnDisable_loop hkind hl]
    exact ⟨_, rfl, by simp [completeOk], request_completed id stOk 2 hd rfl⟩
  case disableOff =>
    rw [hdis hv hk, funcDisable_completes (by simp [h0]), fnDisable_state hl, h0]
    exact ⟨_, rfl, by simp [completeOk], request_completed id stOk 2 hd rfl⟩
  case disableStarting =>
    rw [hdis hv hk, funcDisable_completes fun _ => hlim, fnDisable_state hl, h0]
    exact ⟨_, rfl, by simp [completeOk], request_completed id stOk 2 hd rfl⟩
  case disableOn =>
    rw [hdis hv hk, funcDisable_completes fun _ => hlim, fnDisable_state hl, h0]
    refine ⟨_, rfl, by simp [completeOk], ?_⟩
    rw [funcResult_wmUpdate, completeOk, funcResult_complete]
    exact formed_self _ f stOk 2 0 _ none hd
  case disableStopping =>
    rw [hdis hv hk, funcDisable_completes (by simp [h0]), fnDisable_state hl, h0]
    exact ⟨_, rfl, by simp [completeOk], request_completed id stOk 2 hd rfl⟩
  case refused =>
    have hrow : ∀ a c, exec c s = .next (wmUpdate (funcCtrl s uid a)) →
        (funcKnown id = false → dByte f.raw 26 1 = a ∨ 2 < dByte f.raw 26 1 →
          ∃ t, exec c s = .next t ∧ rest t = rest s ∧ Completed s t f 0x08 0 0 (badResult 9 24 0)) ∧
        (funcKnown id = true → 2 < dByte f.raw 26 1 →
          ∃ t, exec c s = .next t ∧ rest t = rest s ∧ Completed s t f 0x08 0 0 (badResult 9 26 0)) := by
      refine fun a c hc => ⟨fun hk hv => ⟨_, hc, ?_⟩, fun hk hv => ⟨_, hc, ?_⟩⟩
      · rw [funcCtrl_run hr hs hst hv]
        simp only [hid, hk, Bool.not_false, if_true]
        exact ⟨by simp [badParam, bad, reject], completed_self s f stBad 0 0 _ hd⟩
      · rw [funcCtrl_run hr hs hst (.inr hv)]
        simp only [hid, hk, hv, Bool.not_true, Bool.false_eq_true, if_false, if_true]
        exact ⟨by simp [badParam, bad, reject], completed_self s f stBad 0 0 _ hd⟩
    simp only [List.mem_cons, List.not_mem_nil, or_false, forall_eq_or_imp, forall_eq]
    exact ⟨hrow 0 _ (exec_opFuncCtrlDisable uid s ha), hrow 1 _ (exec_opFuncCtrlEnable uid s ha),
      hrow 2 _ (exec_opFuncCtrlQuery uid s ha)⟩

end

section
/-!
# Fields of a word, and lists of bytes (00 R9)

A field written reads back, and one apart from it reads as before; how many bytes a number takes.
-/
namespace Sys2Proof.Machine
open Sys2Proof Sys2Proof.Safety

/-! ## Fields -/

/-- A word is what lies below a field, the field, and what lies above it. -/
theorem toNat_eq_parts (w : Word) (lo len : Nat) :
    w.toNat = w.toNat % 2 ^ lo + fld w lo len * 2 ^ lo + w.toNat / 2 ^ (lo + len) * 2 ^ (lo + len) := by
  have h₁ := Nat.mod_add_div w.toNat (2 ^ lo)
  have h₂ := Nat.mod_add_div (w.toNat / 2 ^ lo) (2 ^ len)
  rw [Nat.div_div_eq_div_mul, ← Nat.pow_add] at h₂
  calc w.toNat = w.toNat % 2 ^ lo + 2 ^ lo * (w.toNat / 2 ^ lo) := h₁.symm
    _ = w.toNat % 2 ^ lo + 2 ^ lo * (w.toNat / 2 ^ lo % 2 ^ len + 2 ^ len * (w.toNat / 2 ^ (lo + len))) := by rw [h₂]
    _ = _ := by rw [fld, Nat.pow_add]; grind

/-- A field written takes the place of the old one and moves nothing beside it. -/
theorem setFld_toNat (w : Word) (lo len v : Nat) (h : lo + len ≤ 32) :
    (setFld w lo len v).toNat =
      w.toNat % 2 ^ lo + v % 2 ^ len * 2 ^ lo + w.toNat / 2 ^ (lo + len) * 2 ^ (lo + len) := by
  have hparts := toNat_eq_parts w lo len
  have hlow : w.toNat % 2 ^ lo + v % 2 ^ len * 2 ^ lo < 2 ^ (lo + len) := by
    have h₁ := Nat.mod_lt w.toNat (Nat.two_pow_pos lo)
    have h₂ : (v % 2 ^ len + 1) * 2 ^ lo ≤ 2 ^ len * 2 ^ lo :=
      Nat.mul_le_mul_right _ (Nat.mod_lt v (Nat.two_pow_pos len))
    rw [Nat.pow_add, Nat.mul_comm (2 ^ lo)]
    grind
  have hhigh : (w.toNat / 2 ^ (lo + len) + 1) * 2 ^ (lo + len) ≤ 2 ^ (32 - (lo + len)) * 2 ^ (lo + len) := by
    refine Nat.mul_le_mul_right _ (Nat.div_lt_of_lt_mul ?_)
    rw [← Nat.pow_add, Nat.add_sub_cancel' h]
    exact w.isLt
  rw [← Nat.pow_add, Nat.sub_add_cancel h] at hhigh
  have hdrop : w.toNat - fld w lo len * 2 ^ lo = w.toNat % 2 ^ lo + w.toNat / 2 ^ (lo + len) * 2 ^ (lo + len) := by omega
  rw [setFld, BitVec.toNat_ofNat, hdrop, Nat.mod_eq_of_lt]
  · grind
  · grind

/-- A field depends on what a number leaves below its end. -/
theorem field_eq_of_mod_eq {x y lo n k : Nat} (h : x % 2 ^ n = y % 2 ^ n) (hle : lo + k ≤ n) :
    x / 2 ^ lo % 2 ^ k = y / 2 ^ lo % 2 ^ k := by
  have hdvd : 2 ^ lo * 2 ^ k ∣ 2 ^ n := by rw [← Nat.pow_add]; exact Nat.pow_dvd_pow 2 hle
  rw [← Nat.mod_mul_right_div_self, ← Nat.mod_mul_right_div_self, ← Nat.mod_mod_of_dvd x hdvd, h,
    Nat.mod_mod_of_dvd y hdvd]

/-- A field written reads back, cut to its length. -/
theorem fld_setFld_same (w : Word) (lo len v : Nat) (h : lo + len ≤ 32) : fld (setFld w lo len v) lo len = v % 2 ^ len := by
  have hlt := Nat.mod_lt w.toNat (Nat.two_pow_pos lo)
  have hsum : w.toNat % 2 ^ lo + v % 2 ^ len * 2 ^ lo + w.toNat / 2 ^ (lo + len) * 2 ^ (lo + len) =
      w.toNat % 2 ^ lo + 2 ^ lo * (v % 2 ^ len + 2 ^ len * (w.toNat / 2 ^ (lo + len))) := by
    rw [Nat.pow_add]; grind
  rw [fld, setFld_toNat w lo len v h, hsum, Nat.add_mul_div_left _ _ (Nat.two_pow_pos lo), Nat.div_eq_of_lt hlt,
    Nat.zero_add, Nat.add_mul_mod_self_left, Nat.mod_mod]

/-- A field below the one written reads as before. -/
theorem fld_setFld_below (w : Word) (lo len v lo' len' : Nat) (h : lo + len ≤ 32) (hle : lo' + len' ≤ lo) :
    fld (setFld w lo len v) lo' len' = fld w lo' len' := by
  refine field_eq_of_mod_eq (n := lo) ?_ hle
  have hsum : w.toNat % 2 ^ lo + v % 2 ^ len * 2 ^ lo + w.toNat / 2 ^ (lo + len) * 2 ^ (lo + len) =
      w.toNat % 2 ^ lo + 2 ^ lo * (v % 2 ^ len + 2 ^ len * (w.toNat / 2 ^ (lo + len))) := by
    rw [Nat.pow_add]; grind
  rw [setFld_toNat w lo len v h, hsum, Nat.add_mul_mod_self_left, Nat.mod_mod]

/-- A field above the one written reads as before. -/
theorem fld_setFld_above (w : Word) (lo len v lo' len' : Nat) (h : lo + len ≤ 32) (hle : lo + len ≤ lo') :
    fld (setFld w lo len v) lo' len' = fld w lo' len' := by
  have hlow : w.toNat % 2 ^ lo + v % 2 ^ len * 2 ^ lo < 2 ^ (lo + len) := by
    have h₁ := Nat.mod_lt w.toNat (Nat.two_pow_pos lo)
    have h₂ : (v % 2 ^ len + 1) * 2 ^ lo ≤ 2 ^ len * 2 ^ lo :=
      Nat.mul_le_mul_right _ (Nat.mod_lt v (Nat.two_pow_pos len))
    rw [Nat.pow_add, Nat.mul_comm (2 ^ lo)]
    grind
  have hdiv : (setFld w lo len v).toNat / 2 ^ (lo + len) = w.toNat / 2 ^ (lo + len) := by
    rw [setFld_toNat w lo len v h, Nat.add_mul_div_right _ _ (Nat.two_pow_pos _), Nat.div_eq_of_lt hlow, Nat.zero_add]
  have hsplit : 2 ^ lo' = 2 ^ (lo + len) * 2 ^ (lo' - (lo + len)) := by
    rw [← Nat.pow_add, Nat.add_sub_cancel' hle]
  simp only [fld, hsplit, ← Nat.div_div_eq_div_mul, hdiv]

/-! ## Bytes -/

@[simp] theorem leBytes_length (n v : Nat) : (leBytes n v).length = n := by
  induction n generalizing v with
  | zero => rfl
  | succ n ih => simp [leBytes, ih]

@[simp] theorem leBytes_zero (n : Nat) : leBytes n 0 = List.replicate n 0 := by
  induction n with
  | zero => rfl
  | succ n ih => simp [leBytes, List.replicate_succ, ih]

/-! ## What a write to host memory leaves (02 R86, R523) -/

/-- With the link up, bytes written are in host memory at once, and nothing waits. -/
theorem hostPost_up {s : State} (h : s.host.linkDown = false) (r : Bool) (a : Nat) (bs : List Byte) :
    ∃ c w, hostPost s r a bs = { s with hostMem := memWrite s.hostMem a bs, cnt := c, wire := w } := by
  rw [hostPost, h]
  exact ⟨_, _, rfl⟩

theorem hostWriteData_up {s : State} (h : s.host.linkDown = false) (a : Nat) (bs : List Byte) :
    ∃ c w, hostWriteData s a bs = { s with hostMem := memWrite s.hostMem a bs, cnt := c, wire := w } := hostPost_up h _ a bs

theorem hostWriteMem_up {s : State} (h : s.host.linkDown = false) (a : Nat) (bs : List Byte) :
    ∃ c w, hostWriteMem s a bs = { s with hostMem := memWrite s.hostMem a bs, cnt := c, wire := w } := hostPost_up h _ a bs

theorem writeBuf_up {s : State} (h : s.host.linkDown = false) (f : Flight) (bs : List Byte) :
    ∃ c w, writeBuf s f bs = { s with hostMem := memWrite s.hostMem (dBufAddr f.raw) bs, cnt := c, wire := w } :=
  hostWriteData_up h _ bs

end Sys2Proof.Machine
end

section
/-!
# OP_EP_PROVISION, OP_EP_UPDATE and OP_EP_READ (03 R101 to R106, R113, R123)

What a provision, an update and a read leave of the record they name, each from its own equation; other records stay by the
frame of a change of a record.
-/
namespace Sys2Proof.Machine
open Sys2Proof Sys2Proof.Safety

/-! ## Other records -/

/-- A change of one record leaves every other. -/
theorem recGet_recChange_ne (s : State) (eid : Nat) (r : EpRec) {e : Nat} (h : e ≠ eid) :
    recGet (recChange s eid r) e = recGet s e := by
  simp [recChange, recGet_recPut_ne _ _ _ _ h]

/-! ## OP_EP_READ (R106) -/

/-- Runs of equal length take as many bytes as their number says. -/
theorem flatten_map_length {α β : Type} {g : α → List β} {k : Nat} (h : ∀ a, (g a).length = k) (l : List α) :
    ((l.map g).flatten).length = k * l.length := by
  induction l with
  | nil => rfl
  | cons a l ih =>
    rw [List.map_cons, List.flatten_cons, List.length_append, h, ih, List.length_cons, Nat.mul_succ, Nat.add_comm]

theorem demandBytes_length (d : Demand) : (demandBytes d).length = 64 := by
  simp only [demandBytes, List.length_append, leBytes_length, List.length_range,
    flatten_map_length fun i => leBytes_length 2 (tget 0 d.sub i).toNat]

theorem prepayBytes_length (p : Prepay) : (prepayBytes p).length = 32 := by
  simp [prepayBytes]

theorem blobPlace_length (b : Option Blob) : (blobPlace b).length = 64 := by
  cases b <;> simp [blobPlace, blobBytes]

/-- A record's layout has 512 bytes (R93). -/
theorem recBytes_length (eid : Nat) (r : EpRec) : (recBytes eid r).length = 512 := by
  unfold recBytes
  split
  · exact leBytes_length 512 0
  · simp only [List.length_append, leBytes_length, demandBytes_length, prepayBytes_length, blobPlace_length,
      List.length_range, flatten_map_length fun i => leBytes_length 8 (tget 0 r.energy i).toNat,
      flatten_map_length fun i => leBytes_length 8 (tget 0 r.rate i).toNat]

theorem recBytes_free {r : EpRec} (eid : Nat) (h : r.state = 0) : recBytes eid r = List.replicate 512 0 := by
  simp [recBytes, h]

@[simp] theorem recView_state (s : State) (eid : Nat) : (recView s eid).state = (recGet s eid).state := by
  unfold recView
  dsimp only
  split <;> rfl

/-- A pinned endpoint's four fields come from the pinned-state store. -/
theorem recView_pinned {s : State} {eid : Nat} (h : (pinGet s eid).on = true) :
    recView s eid = { recGet s eid with rxIc := (pinGet s eid).rxIc, txIcHwm := (pinGet s eid).txIc,
                                        relay := (pinGet s eid).relay, alarms := (pinGet s eid).alarms } := by
  simp [recView, h]

/-- An endpoint that is not pinned reads as its record. -/
theorem recView_unpinned {s : State} {eid : Nat} (h : (pinGet s eid).on = false) : recView s eid = recGet s eid := by
  simp [recView, h]

/-! ## OP_EP_UPDATE (R103) -/

/-- The release of a link touches the air and the journal alone (11 R359). -/
theorem linkRelease_eq (s : State) (eid : Nat) : linkRelease s eid = s ∨
    linkRelease s eid = linkPut (appendState s 0 (.link eid MLink.none)) eid MLink.none := by
  unfold linkRelease
  split
  · exact .inl rfl
  · exact .inr rfl

section
variable (s : State) (eid : Nat)

@[simp] theorem linkRelease_recs_tab : (linkRelease s eid).recs.tab = s.recs.tab := by
  obtain h | h := linkRelease_eq s eid <;> simp [h]
@[simp] theorem linkRelease_keys : (linkRelease s eid).keys = s.keys := by
  obtain h | h := linkRelease_eq s eid <;> simp [h]
@[simp] theorem linkRelease_bill : (linkRelease s eid).bill = s.bill := by
  obtain h | h := linkRelease_eq s eid <;> simp [h]
@[simp] theorem linkRelease_store : (linkRelease s eid).store = s.store := by
  obtain h | h := linkRelease_eq s eid <;> simp [h]
@[simp] theorem linkRelease_rp : (linkRelease s eid).rp = s.rp := by
  obtain h | h := linkRelease_eq s eid <;> simp [h]
@[simp] theorem linkRelease_sealU : (linkRelease s eid).sealU = s.sealU := by
  obtain h | h := linkRelease_eq s eid <;> simp [h]
@[simp] theorem linkRelease_regs : (linkRelease s eid).regs = s.regs := by
  obtain h | h := linkRelease_eq s eid <;> simp [h]
@[simp] theorem linkRelease_harn_pos : (linkRelease s eid).harn.pos = s.harn.pos := by
  obtain h | h := linkRelease_eq s eid <;> simp [h]
@[simp] theorem linkRelease_host_cq : (linkRelease s eid).host.cq = s.host.cq := by
  obtain h | h := linkRelease_eq s eid <;> simp [h]
@[simp] theorem linkRelease_host_flights : (linkRelease s eid).host.flights = s.host.flights := by
  obtain h | h := linkRelease_eq s eid <;> simp [h]
@[simp] theorem linkRelease_host_deliv : (linkRelease s eid).host.deliv = s.host.deliv := by
  obtain h | h := linkRelease_eq s eid <;> simp [h]
@[simp] theorem linkRelease_recGet (e : Nat) : recGet (linkRelease s eid) e = recGet s e := by
  simp [recGet]

end

/-- An update that passes its checks is one change of its record, which releases the link where its profile is new. -/
theorem epUpdate_applies {s : State} {uid : Nat} {f : Flight} (hr : runnable s uid 0x11 = some f)
    (hs : stateShut s uid = false) (hrun : stateRuns (recView s (dEid f.raw)).state.toNat 0x11 (dTc f.raw) = true)
    (hproto : pvMask f.raw 6 = true → pvProto f.raw ≤ 2)
    (hstate : pvMask f.raw 5 = true → pvState f.raw = 1 ∨ pvState f.raw = 2)
    (hhold : updHolder s (dEid f.raw) f.raw = none) :
    ∃ u, epUpdate s uid = completeOk u f 3 0 ∧
      (u = recChange s (dEid f.raw) (updRec s (recView s (dEid f.raw)) f.raw) ∨
       u = linkRelease (recChange s (dEid f.raw) (updRec s (recView s (dEid f.raw)) f.raw)) (dEid f.raw)) := by
  have h6 : (pvMask f.raw 6 && decide (pvProto f.raw > 2)) = false := by
    rw [Bool.and_eq_false_iff, decide_eq_false_iff_not, Bool.eq_false_iff]
    exact (Decidable.not_or_of_imp hproto).imp_right BitVec.not_lt.mpr
  have h5 : (pvMask f.raw 5 && pvState f.raw != 1 && pvState f.raw != 2) = false := by
    by_cases hm : pvMask f.raw 5 = true
    · rcases hstate hm with h | h <;> simp [h]
    · simp [hm]
  simp only [epUpdate, withDesc_run s uid 0x11 _ f hr hs, hrun, h6, h5, hhold, Bool.not_true, Bool.false_eq_true,
    if_false]
  refine ⟨_, rfl, ?_⟩
  split
  · exact .inl rfl
  · exact .inr rfl

/-! ## OP_EP_PROVISION (R102, R201) -/

/-- The state with the fresh record in its place (R102 step 3). -/
def provPlace (s : State) (f : Flight) : State :=
  recPut (appendState (postsEnd s (dEid f.raw)) 0 (.epRec (dEid f.raw) (provRec s f.raw))) (dEid f.raw) (provRec s f.raw)

/-- It differs in the record, in postings that wait to be stored, and in what a state entry changes. -/
theorem provPlace_eq (s : State) (f : Flight) :
    ∃ j jw q h c p wi st, provPlace s f =
      { s with recs := { s.recs with jtail := j, jwait := jw, jseq := q,
                                     tab := tset EpRec.free s.recs.tab (dEid f.raw) (provRec s f.raw) }
               harn := { s.harn with ports := h }
               cnt := c
               host := { s.host with msixPend := p }
               wire := wi
               store := st } := by
  obtain ⟨j, jw, q, h, c, p, wi, e⟩ := appendState_eq (postsEnd s (dEid f.raw)) 0 (.epRec (dEid f.raw) (provRec s f.raw))
  exact ⟨j, jw, q, h, c, p, wi, _, by rw [provPlace, e]; rfl⟩

section
variable (s : State) (f : Flight)

@[simp] theorem recGet_provPlace : recGet (provPlace s f) (dEid f.raw) = provRec s f.raw := recGet_recPut _ _ _
theorem recGet_provPlace_ne {e : Nat} (h : e ≠ dEid f.raw) : recGet (provPlace s f) e = recGet s e := by
  obtain ⟨_, _, _, _, _, _, _, _, hp⟩ := provPlace_eq s f
  rw [hp]
  exact tget_tset_other _ _ _ _ _ h
@[simp] theorem provPlace_host_cq : (provPlace s f).host.cq = s.host.cq := by
  obtain ⟨_, _, _, _, _, _, _, _, hp⟩ := provPlace_eq s f; rw [hp]
@[simp] theorem provPlace_pinGet (e : Nat) : pinGet (provPlace s f) e = pinGet s e := by
  obtain ⟨_, _, _, _, _, _, _, _, hp⟩ := provPlace_eq s f; rw [hp]; rfl

theorem provGo_fresh : provGo s f false .none = completeOk (provPlace s f) f 4 (result4 0 0 0 0) := rfl
theorem provGo_key (b : Blob) :
    provGo s f false (.ok b) = completeOk (provInstall (provPlace s f) (dEid f.raw) b) f 4 (result4 0 0 0 0) := rfl

end

/-- A record just written holds no key. -/
theorem blobHeld_provRec (s : State) (raw : BitVec 512) (b : Blob) : blobHeld (provRec s raw) b = false := by
  simp [blobHeld, kcCurValid, kcPendValid, provRec, EpRec.free, wbit, fld]
theorem kcPendValid_provRec (s : State) (raw : BitVec 512) : kcPendValid (provRec s raw) = false := by
  simp [kcPendValid, provRec, EpRec.free, wbit, fld]

/-- The key-control word of a record that takes a first key: its generation pending, its domain, and the pending bit. -/
theorem keyCtl_provInstall (g d : Nat) (hg : g < 256) :
    let w := setFld (setFld (setFld 0 8 8 g) 16 12 d) 29 1 1
    fld w 8 8 = g ∧ fld w 29 1 = 1 ∧ fld w 28 1 = 0 := by
  intro w
  refine ⟨?_, fld_setFld_same _ 29 1 1 (by decide), ?_⟩
  · rw [fld_setFld_below _ 29 1 1 8 8 (by decide) (by decide), fld_setFld_below _ 16 12 d 8 8 (by decide) (by decide),
      fld_setFld_same _ 8 8 g (by decide), Nat.mod_eq_of_lt (show g < 2 ^ 8 from hg)]
  · rw [fld_setFld_below _ 29 1 1 28 1 (by decide) (by decide), fld_setFld_above _ 16 12 d 28 1 (by decide) (by decide),
      fld_setFld_above _ 8 8 g 28 1 (by decide) (by decide)]
    rfl

/-- The record a provision with a blob leaves. -/
def provKeyed (s : State) (raw : BitVec 512) (b : Blob) : EpRec :=
  kcSet (kcSet (kcSet { provRec s raw with keyPend := some b } 8 8 b.gen.toNat) 16 12 (hIndex b.parent.toNat)) 29 1 1

theorem provKeyed_key (s : State) (raw : BitVec 512) (b : Blob) :
    kcPend (provKeyed s raw b) = b.gen ∧ kcPendValid (provKeyed s raw b) = true ∧
      kcCurValid (provKeyed s raw b) = false := by
  obtain ⟨hgen, hpend, hcur⟩ := keyCtl_provInstall b.gen.toNat (hIndex b.parent.toNat) b.gen.isLt
  have hword : (provKeyed s raw b).keyCtl =
      setFld (setFld (setFld 0 8 8 b.gen.toNat) 16 12 (hIndex b.parent.toNat)) 29 1 1 := rfl
  simp only [kcPend, kcPendValid, kcCurValid, wbit, hword, hgen, hpend, hcur]
  exact ⟨by simp, rfl, rfl⟩

/-- A fresh record takes a first key by one change. -/
theorem provInstall_fresh {s : State} {f : Flight} (b : Blob) (hp : (pinGet s (dEid f.raw)).on = false) :
    provInstall (provPlace s f) (dEid f.raw) b = recChange (provPlace s f) (dEid f.raw) (provKeyed s f.raw b) := by
  have hview : recView (provPlace s f) (dEid f.raw) = provRec s f.raw := by
    rw [recView_unpinned (by rwa [provPlace_pinGet]), recGet_provPlace]
  simp only [provInstall, recGet_provPlace, hview, blobHeld_provRec, kcPendValid_provRec, Bool.false_eq_true, if_false]
  rfl

theorem blobCheck_none_gen {b : Blob} {kek : BitVec 256} {h parent : Nat} {gen pg : BitVec 8}
    (hc : blobCheck (some b) kek h parent gen pg = none) : b.gen = gen := by
  refine Decidable.byContradiction fun hne => ?_
  simp only [blobCheck, hne, ne_eq, not_false_eq_true, or_true, if_true] at hc
  split at hc <;> cases hc

section
variable {s : State} {uid : Nat} {f : Flight} (hr : runnable s uid 0x10 = some f) (hs : stateShut s uid = false)
include hr hs

/-- The checks that come before the blob, in their order. -/
theorem epProvision_run (blob : Option Blob) :
    epProvision s uid blob =
      if dBufLen f.raw ≠ 0 ∧ dBufLen f.raw ≠ 64 then badBuf s f 16
      else if pvProto f.raw > 2 then badParam s f 48
      else if !provSame (recGet s (dEid f.raw)) f.raw && (recGet s (dEid f.raw)).state != 0 then badParam s f 4
      else match (if provSame (recGet s (dEid f.raw)) f.raw then none
          else addrLookup s (pvAddr f.raw) (pvProto f.raw)) with
        | some e => addrBound s f e
        | none => provCheck s f (provSame (recGet s (dEid f.raw)) f.raw) (provBlob s (dEid f.raw) f.raw blob) := by
  rw [epProvision, withDesc_run s uid 0x10 _ f hr hs] <;> rfl

/-- A FREE record whose address is bound nowhere goes on to its blob. -/
theorem epProvision_free (blob : Option Blob) (hl : dBufLen f.raw = 0 ∨ dBufLen f.raw = 64) (hp : pvProto f.raw ≤ 2)
    (h0 : (recGet s (dEid f.raw)).state = 0) (ha : addrLookup s (pvAddr f.raw) (pvProto f.raw) = none) :
    epProvision s uid blob = provCheck s f false (provBlob s (dEid f.raw) f.raw blob) := by
  have hlen : ¬ (dBufLen f.raw ≠ 0 ∧ dBufLen f.raw ≠ 64) := by omega
  have hsame : provSame (recGet s (dEid f.raw)) f.raw = false := by simp [provSame, h0]
  simp only [epProvision_run hr hs blob, hlen, BitVec.not_lt.mpr hp, hsame, h0, ha, bne_self_eq_false, Bool.and_false,
    Bool.false_eq_true, if_false]

end

end Sys2Proof.Machine
end

section
open Sys2Proof Sys2Proof.Machine Sys2Proof.Safety

/-- Settles O11: the record's layout goes to the buffer, and the one completion names its WRITE_SEQ and state. -/
theorem readWritesRecordSnapshot : Obligations.ReadWritesRecordSnapshot := by
  rintro s uid f ⟨ha, hr, hs, hd⟩ hup
  obtain ⟨c, w, hbuf⟩ := writeBuf_up hup f (recBytes (dEid f.raw) (recView s (dEid f.raw)))
  have hlen := recBytes_length (dEid f.raw) (recView s (dEid f.raw))
  have hread := memRead_memWrite s.hostMem (dBufAddr f.raw) (recBytes (dEid f.raw) (recView s (dEid f.raw)))
  rw [hlen] at hread
  rw [exec_opEpRead uid s ha, epRead, withDesc_run s uid 0x13 _ f hr hs]
  simp only [hbuf, completeOk]
  refine ⟨_, rfl, ?bytes, fun a hout => ?frame, ?rest, completed_of s _ f stOk 0 0 _ hd rfl, fun h0 => ?free, fun hp => ?pin⟩
  case bytes => simpa using hread
  case frame => simpa using memByte_memWrite_other _ _ _ _ (by rwa [hlen])
  case rest =>
    obtain ⟨l, j, jw, q, h, c', p, w', fl, cq, e⟩ := complete_eq
      { s with hostMem := memWrite s.hostMem (dBufAddr f.raw) (recBytes (dEid f.raw) (recView s (dEid f.raw)))
               cnt := c
               wire := w } f stOk 0 0
      (result4 (recView s (dEid f.raw)).writeSeq.toNat (recView s (dEid f.raw)).state.toNat 0 0)
    rw [e]
    rfl
  case free =>
    rw [recBytes_free _ ((recView_state s _).trans h0)] at hread ⊢
    simpa only [wmUpdate_hostMem, complete_hostMem] using hread
  case pin => simp [recView_pinned hp]

/-- Settles O10: an update that passes its checks is one stamped change of its record. -/
theorem updateAppliesMaskedFields : Obligations.UpdateAppliesMaskedFields := by
  rintro s uid f ⟨ha, hr, hs, hd⟩ hrun hproto hstate hhold
  obtain ⟨u, hu, hcases⟩ := epUpdate_applies hr hs hrun hproto hstate hhold
  generalize hrec : updRec s (recView s (dEid f.raw)) f.raw = r at hcases
  have hcq : u.host.cq = s.host.cq := by rcases hcases with rfl | rfl <;> simp
  have hsame : recGet u (dEid f.raw) = stamped s r := by rcases hcases with rfl | rfl <;> simp
  have hother : ∀ e, e ≠ dEid f.raw → recGet u e = recGet s e := fun e he => by
    rcases hcases with rfl | rfl <;> simp [recGet_recChange_ne _ _ _ he]
  have hframe : u.keys = s.keys ∧ u.bill = s.bill ∧ u.store = s.store := by rcases hcases with rfl | rfl <;> simp
  rw [exec_opEpUpdate uid s ha, hu, completeOk]
  refine ⟨_, rfl, completed_of s u f stOk 3 0 0 hd (by rw [cqGet, cqGet, hcq]), ?_⟩
  simp only [wmUpdate_recGet, complete_recGet, hsame, wmUpdate_keys, complete_keys, wmUpdate_bill, complete_bill,
    wmUpdate_store, complete_store]
  refine ⟨trivial, hrec ▸ rfl, rfl, fun hm => ?_, fun hm => ?_, fun hm => ?_, hother, hframe⟩
  all_goals
    rw [← hrec]
    simp [stamped, updRec, hm]

/-- Settles O9: a FREE record whose address is free takes the descriptor's fields, and a first key where one is wrapped. -/
theorem provisionCreatesActiveRecord : Obligations.ProvisionCreatesActiveRecord := by
  rintro s uid f ⟨ha, hr, hs, hd⟩
  have hexec : ∀ blob, exec (.opEpProvision uid blob) s = .next (wmUpdate (epProvision s uid blob)) :=
    fun blob => exec_opEpProvision uid blob s ha
  have hrefuse : ∀ blob st res, epProvision s uid blob = reject s f st res →
      ∃ t, exec (.opEpProvision uid blob) s = .next t ∧ rest t = rest s ∧ Completed s t f st 0 0 res :=
    fun blob st res h => ⟨_, hexec blob, by rw [h]; simp [reject], by rw [h]; exact completed_self s f st 0 0 res hd⟩
  refine ⟨fun hl haux hp h0 hfree => ?fresh, fun kek pg hl hp h0 hfree hpar b hb hpin s1 hs1 => ?keyed,
    fun hl haux hp hsame => ?same, fun blob => ⟨fun h0 h64 => ?len, fun hl hp => ?proto, fun hl hp h0 hsame => ?used,
      fun e hl hp h0 hbound => ?bound, fun hl hp h0 hfree => ⟨fun hpar => ?noKey, fun hpar => ?revoked,
        fun kek pg c hpar hc => ?check⟩⟩⟩
  case fresh =>
    have hrow : epProvision s uid none = completeOk (provPlace s f) f 4 (result4 0 0 0 0) := by
      rw [epProvision_free hr hs none (.inl hl) hp h0 hfree, provBlob, if_pos hl, if_pos haux]
      exact provGo_fresh s f
    rw [hexec, hrow, completeOk]
    exact ⟨_, rfl, by simp, rfl, rfl, rfl, fun e he => by simp [recGet_provPlace_ne s f he],
      completed_of s _ f stOk 4 0 _ hd (by rw [cqGet, cqGet, provPlace_host_cq])⟩
  case keyed =>
    have hkeep := keyRest_recs (keyRest_ensureDir hs1)
    have hpin1 : (pinGet s1 (dEid f.raw)).on = false := by rw [pinGet, hkeep]; exact hpin
    have hrow : epProvision s uid (some b) =
        completeOk (recChange (provPlace s1 f) (dEid f.raw) (provKeyed s1 f.raw b)) f 4 (result4 0 0 0 0) := by
      rw [epProvision_free hr hs (some b) (.inr hl) hp h0 hfree]
      have hblob : provBlob s (dEid f.raw) f.raw (some b) = .ok b := by
        have hb' : blobCheck (some b) kek (epHandle (dEid f.raw)) (dAux f.raw) 1#8 pg = none := hb
        simp [provBlob, hl, hpar, hb', h0]
      rw [hblob]
      simp only [provCheck, hpin, Bool.false_and, Bool.false_eq_true, if_false, hs1]
      rw [provGo_key, provInstall_fresh b hpin1]
    obtain ⟨hgen, hpend, hcur⟩ := provKeyed_key s1 f.raw b
    rw [hexec, hrow, completeOk]
    refine ⟨_, rfl, ?_⟩
    simp only [wmUpdate_recGet, complete_recGet, recGet_recChange]
    exact ⟨rfl, rfl, hgen.trans (blobCheck_none_gen hb), hpend, hcur, rfl, rfl, fun e he => by
      rw [recGet_recChange_ne _ _ _ he, recGet_provPlace_ne s1 f he, recGet, recGet, hkeep],
      formed_self _ f stOk 4 0 _ none hd⟩
  case same =>
    have hrow : epProvision s uid none = completeOk s f 4 (result4 1 0 0 0) := by
      rw [epProvision_run hr hs none]
      simp only [hl, hsame, BitVec.not_lt.mpr hp, provBlob, haux]
      rfl
    rw [hexec, hrow]
    exact ⟨_, rfl, by simp [completeOk], completed_self s f stOk 4 0 _ hd⟩
  case len => exact hrefuse blob stBad _ (by rw [epProvision_run hr hs blob, if_pos ⟨h0, h64⟩]; rfl)
  case proto =>
    exact hrefuse blob stBad _ (by rw [epProvision_run hr hs blob, if_neg (by omega), if_pos hp]; rfl)
  case used =>
    refine hrefuse blob stBad _ ?_
    rw [epProvision_run hr hs blob, if_neg (by omega), if_neg (BitVec.not_lt.mpr hp), if_pos (by simpa [hsame] using h0)]
    rfl
  case bound =>
    refine hrefuse blob stBad _ ?_
    have hsame : provSame (recGet s (dEid f.raw)) f.raw = false := by simp [provSame, h0]
    rw [epProvision_run hr hs blob, if_neg (by omega), if_neg (BitVec.not_lt.mpr hp), if_neg (by simp [h0])]
    simp only [hsame, hbound, Bool.false_eq_true, if_false]
    rfl
  all_goals
    have hrow := epProvision_free hr hs blob (.inr hl) hp h0 hfree
    have hlen : dBufLen f.raw ≠ 0 := by omega
  case noKey =>
    refine hrefuse blob stBad _ (hrow.trans ?_)
    simp only [provBlob, hlen, if_false, hpar]
    rfl
  case revoked =>
    refine hrefuse blob stRevoked _ (hrow.trans ?_)
    simp only [provBlob, hlen, if_false, hpar]
    rfl
  case check =>
    have hcheck : epProvision s uid blob = reject (logBlob s (epHandle (dEid f.raw)) c) f stBad (badResult rsParam 8 c) := by
      rw [hrow]
      simp only [provBlob, hlen, if_false, hpar, hc]
      rfl
    rw [hexec, hcheck, reject]
    exact ⟨_, rfl, by simp [logBlob], by simp [logBlob], formed_self _ f stBad 0 0 _ none hd⟩

end

section
/-!
# OP_EP_RETIRE (03 R96, R105)

A retire takes its record to RETIRING, closes its period once nothing of it is under way, erases its keys and frees it. Each
of the four parts changes that record alone; the record is FREE once no slot holds a key of it.
-/
namespace Sys2Proof.Machine
open Sys2Proof Sys2Proof.Safety

theorem endRest_recGet {s t : State} (h : endRest t = endRest s) (e : Nat) : recGet t e = recGet s e := by
  have htab : t.recs.tab = s.recs.tab := congrArg (·.recs.tab) h
  rw [recGet, recGet, htab]

theorem endRest_pinGet {s t : State} (h : endRest t = endRest s) (e : Nat) : pinGet t e = pinGet s e := by
  have htab : t.recs.pins = s.recs.pins := congrArg (·.recs.pins) h
  rw [pinGet, pinGet, htab]

theorem endRest_keys {s t : State} (h : endRest t = endRest s) : t.keys = s.keys := congrArg (·.keys) h

/-- What ends of a radio endpoint's downlinks is outbound work (11 R359). -/
@[simp] theorem endRest_downlinkEnds (s : State) (eid : Nat) : endRest (downlinkEnds s eid) = endRest s := by
  unfold downlinkEnds
  dsimp only
  split
  · rfl
  refine foldl_endRest _ _ s fun u x => ?_
  split
  · simp
  split
  · simp
  split
  · simp
  split <;> simp [bad, reject]

theorem downlinkEnds_wired {s : State} {eid : Nat} (h : chRadio s (chanOf s eid) = false) : downlinkEnds s eid = s := by
  simp [downlinkEnds, h]

/-- A descriptor that a row runs carries the row's opcode. -/
theorem runnable_opcode {s : State} {uid op : Nat} {f : Flight} (h : runnable s uid op = some f) : dOpcode f.raw = op := by
  unfold runnable at h
  split at h
  · cases h
  · split at h
    · next hc =>
      cases h
      simp only [Bool.and_eq_true, beq_iff_eq] at hc
      exact hc.1.1.1.1.2
    · cases h

/-! ## The parts of a retire -/

/-- No slot of the kennel holds a key of an endpoint. -/
def SlotsGone (s : State) (eid : Nat) : Prop := ∀ p ∈ s.keys.slots, p.2.handle = epHandle eid → p.2.st = 0

/-- A retire's step changed only the record it retires, which kept its state. -/
def RetireStep (s t : State) (eid : Nat) : Prop :=
  (recGet t eid).state = (recGet s eid).state ∧ (∀ e, e ≠ eid → recGet t e = recGet s e) ∧
    (SlotsGone s eid → SlotsGone t eid)

theorem RetireStep.refl (s : State) (eid : Nat) : RetireStep s s eid := ⟨rfl, fun _ _ => rfl, id⟩

theorem RetireStep.trans {s t u : State} {eid : Nat} (h : RetireStep s t eid) (h' : RetireStep t u eid) :
    RetireStep s u eid :=
  ⟨h'.1.trans h.1, fun e he => (h'.2.1 e he).trans (h.2.1 e he), fun hs => h'.2.2 (h.2.2 hs)⟩

theorem retireStep_of_endRest {s t : State} (h : endRest t = endRest s) (eid : Nat) : RetireStep s t eid :=
  ⟨by rw [endRest_recGet h], fun e _ => endRest_recGet h e, fun hs => by rwa [SlotsGone, endRest_keys h]⟩

@[simp] theorem storeQueue_recs (s : State) (e : SEnt) : (storeQueue s e).recs = s.recs := by
  unfold storeQueue; split <;> rfl
@[simp] theorem storeQueue_keys (s : State) (e : SEnt) : (storeQueue s e).keys = s.keys := by
  unfold storeQueue; split <;> rfl

theorem closeRecord_keeps (s : State) (e : SEnt) (rd : ReadRec) (g c n k : Nat) (b : Bool) (u : Option Nat) :
    (cnt (recordOut (storeQueue s e) rd g c b n u) k).recs = s.recs ∧
      (cnt (recordOut (storeQueue s e) rd g c b n u) k).keys = s.keys := by
  simp [recordOut]

/-- A record put into its place beside a state entry, at its own state. -/
theorem recPut_retireStep {s u : State} {eid : Nat} {r : EpRec} (w : BitVec 32) (c : JEnt) (hrecs : u.recs = s.recs)
    (hkeys : u.keys = s.keys) (hr : r.state = (recGet s eid).state) :
    RetireStep s (recPut (appendState u w c) eid r) eid := by
  refine ⟨by rw [recGet_recPut, hr], fun e he => ?_, fun hs => ?_⟩
  · rw [recGet_recPut_ne _ _ _ _ he, appendState_recGet, recGet, recGet, hrecs]
  · rw [SlotsGone, recPut_keys, appendState_keys, hkeys]
    exact hs

theorem kcSet_state (r : EpRec) (lo len v : Nat) : (kcSet r lo len v).state = r.state := rfl
theorem closedRec_state (r : EpRec) (final : Bool) : (closedRec r final).state = r.state := rfl
theorem stamped_state (s : State) (r : EpRec) : (stamped s r).state = r.state := rfl

/-- A close of a period rewrites its record, and queues a snapshot and an alarm record. -/
theorem closePeriod_retireStep (s : State) (eid : Nat) (final : Bool) (sec : Nat) :
    RetireStep s (closePeriod s eid (recView s eid) final sec).1 eid := by
  unfold closePeriod
  dsimp only
  generalize hu : cnt (recordOut _ _ _ _ _ _ _) 327 = u
  obtain ⟨hrecs, hkeys⟩ : u.recs = s.recs ∧ u.keys = s.keys := by rw [← hu]; exact closeRecord_keeps ..
  have hstate : (closedRec (stamped s (recView s eid)) final).state = (recGet s eid).state := by
    rw [closedRec_state, stamped_state, recView_state]
  generalize closedRec (stamped s (recView s eid)) final = r at hstate
  exact recPut_retireStep _ _ hrecs hkeys hstate

theorem causedBy_recs (s : State) (uid : Nat) : (causedBy s uid).recs = s.recs ∧ (causedBy s uid).keys = s.keys := by
  unfold causedBy
  split <;> exact ⟨rfl, rfl⟩

theorem retireClose_retireStep (s : State) (f : Flight) (eid : Nat) : RetireStep s (retireClose s f eid) eid := by
  unfold retireClose
  split
  · exact .refl s eid
  dsimp only
  generalize hu : (closePeriod s eid _ _ _).1 = u
  obtain ⟨hrecs, hkeys⟩ := causedBy_recs u f.uid
  refine (hu ▸ closePeriod_retireStep s eid true (nowSec s)).trans
    (.trans (t := retirePut (causedBy u f.uid) eid 4) ?_ (retireStep_of_endRest (endRest_setProgress _ f 4 0) eid))
  have hget : ∀ e, recGet (retirePut (causedBy u f.uid) eid 4) e = recGet u e := fun e => by
    rw [recGet, recGet, retirePut]; exact congrArg (tget EpRec.free ·.tab e) hrecs
  exact ⟨by rw [hget], fun e _ => hget e, fun hs => by rwa [SlotsGone, retirePut, hkeys]⟩

theorem recChange_retireStep {s : State} {eid : Nat} {r : EpRec} (hr : r.state = (recGet s eid).state) :
    RetireStep s (recChange s eid r) eid :=
  ⟨by rw [recGet_recChange, stamped_state, hr], fun _ he => recGet_recChange_ne s eid r he,
    fun hs => by rwa [SlotsGone, recChange_keys]⟩

/-- A slot that is FREE stays so while slots of an endpoint retire. -/
theorem slotRetire_retireStep (s : State) (g : Slot → Bool) (eid n : Nat) :
    RetireStep s (retirePut (slotRetire s g) eid n) eid := by
  refine ⟨rfl, fun _ _ => rfl, fun hs p hp => ?_⟩
  simp only [retirePut, slotRetire, slotMap, List.mem_map] at hp
  obtain ⟨q, hq, rfl⟩ := hp
  dsimp only
  intro hh
  by_cases hlive : ((q.2.st == 2 || q.2.st == 1) && g q.2) = true
  · rw [if_pos hlive] at hh
    simp [hs q hq hh] at hlive
  · rw [if_neg hlive] at hh ⊢
    exact hs q hq hh

theorem retireErase_retireStep (s : State) (eid : Nat) : RetireStep s (retireErase s eid) eid := by
  unfold retireErase
  split
  · exact .refl s eid
  · refine (recChange_retireStep ?_).trans (slotRetire_retireStep _ _ eid 5)
    rw [kcSet_state, kcSet_state, recView_state]

/-- The last part: the record and its pinned state are gone (R105 step 5). -/
theorem retireFree_frees (s : State) (f : Flight) (eid : Nat) :
    recGet (retireFree s f eid) eid = EpRec.free ∧ pinGet (retireFree s f eid) eid = PinEnt.none ∧
      ∀ e, e ≠ eid → recGet (retireFree s f eid) e = recGet s e := by
  unfold retireFree
  dsimp only
  generalize hu : recPut _ eid EpRec.free = u
  generalize ht : State.mk .. = t
  have hrow := endRest_settle t f stOk 6 0
  have hput : ∀ e, recGet t e = recGet u e := fun e => by rw [← ht]; rfl
  rw [endRest_recGet hrow, endRest_pinGet hrow, hput]
  refine ⟨by rw [← hu, recGet_recPut], ?_, fun e he => ?_⟩
  · rw [← ht]
    exact pinGet_pinPut _ eid PinEnt.none
  · rw [endRest_recGet hrow, hput, ← hu, recGet_recPut_ne _ _ _ _ he, appendState_recGet]

/-- What a retire that goes on leaves: the record RETIRING or FREE, and no other changed. -/
theorem retireGo_leaves {s : State} {f : Flight} (h3 : (recGet s (dEid f.raw)).state = 3) :
    ((recGet (retireGo s f) (dEid f.raw)).state = 3 ∨ recGet (retireGo s f) (dEid f.raw) = EpRec.free) ∧
      ∀ e, e ≠ dEid f.raw → recGet (retireGo s f) e = recGet s e := by
  have hstep := (retireClose_retireStep s f (dEid f.raw)).trans (retireErase_retireStep (retireClose s f (dEid f.raw)) _)
  unfold retireGo
  dsimp only
  generalize retireErase (retireClose s f (dEid f.raw)) (dEid f.raw) = t at hstep
  obtain ⟨hstate, hother, -⟩ := hstep
  rw [if_neg (by rw [h3]; decide)]
  split
  · exact ⟨.inl h3, fun _ _ => rfl⟩
  split
  · split
    · exact ⟨.inl (hstate.trans h3), hother⟩
    · have hrow := endRest_setProgress t { f with stage := .wait t.tcxo 5 0 } 4 0
      exact ⟨.inl (by rw [endRest_recGet hrow, hstate, h3]), fun e he => by rw [endRest_recGet hrow, hother e he]⟩
  · obtain ⟨hfree, -, hoth⟩ := retireFree_frees t f (dEid f.raw)
    exact ⟨.inr hfree, fun e he => (hoth e he).trans (hother e he)⟩

/-- Where nothing of the endpoint is under way and no slot holds a key of it, the record is FREE. -/
theorem retireGo_frees {s : State} {f : Flight} (h3 : (recGet s (dEid f.raw)).state = 3)
    (hidle : 4 ≤ retireAt s (dEid f.raw) ∨ (eidBusy s (dEid f.raw) = false ∧ eidReadings s (dEid f.raw) = false))
    (hgone : SlotsGone s (dEid f.raw)) :
    recGet (retireGo s f) (dEid f.raw) = EpRec.free ∧ pinGet (retireGo s f) (dEid f.raw) = PinEnt.none := by
  have hstep := (retireClose_retireStep s f (dEid f.raw)).trans (retireErase_retireStep (retireClose s f (dEid f.raw)) _)
  have hwait : (decide (retireAt s (dEid f.raw) < 4) && (eidBusy s (dEid f.raw) || eidReadings s (dEid f.raw))) = false := by
    rcases hidle with h | ⟨h1, h2⟩
    · rw [decide_eq_false (Nat.not_lt.mpr h), Bool.false_and]
    · rw [h1, h2, Bool.or_self, Bool.and_false]
  unfold retireGo
  dsimp only
  generalize retireErase (retireClose s f (dEid f.raw)) (dEid f.raw) = t at hstep
  have hslots : (t.keys.slots.any fun p => p.2.handle == epHandle (dEid f.raw) && p.2.st != 0) = false := by
    simp only [List.any_eq_false, Bool.and_eq_true, beq_iff_eq, bne_iff_ne, not_and, Decidable.not_not, Prod.forall]
    exact fun i x hx hh => hstep.2.2 hgone (i, x) hx hh
  rw [if_neg (by rw [h3]; decide), if_neg (by simp [hwait]), if_neg (by simp [hslots])]
  obtain ⟨hfree, hpin, -⟩ := retireFree_frees t f (dEid f.raw)
  exact ⟨hfree, hpin⟩

/-! ## Taking the record to RETIRING -/

/-- The state of a retire's first step, before the endpoint's link and downlinks end. -/
def retireMark (s : State) (eid : Nat) : State :=
  { recChange s eid { recView s eid with state := 3 } with
    recs := { (recChange s eid { recView s eid with state := 3 }).recs with
      retire := tset 0 (recChange s eid { recView s eid with state := 3 }).recs.retire eid 2 } }

theorem retireBegin_eq (s : State) (eid : Nat) : retireBegin s eid =
    if (recView s eid).state = 3 then s else downlinkEnds (linkRelease (retireMark s eid) eid) eid := rfl

/-- The mark is a change of the record, and the progress of the retire. -/
theorem retireMark_eq (s : State) (eid : Nat) : ∃ u r, recChange s eid r = u ∧ r.state = 3 ∧
    r.attach = (recGet s eid).attach ∧ retireMark s eid = retirePut u eid 2 := by
  refine ⟨_, { recView s eid with state := 3 }, rfl, rfl, ?_, rfl⟩
  show (recView s eid).attach = _
  unfold recView
  dsimp only
  split <;> rfl

section
variable (s : State) (eid : Nat)

theorem recGet_retireMark : (recGet (retireMark s eid) eid).state = 3 ∧
    (recGet (retireMark s eid) eid).attach = (recGet s eid).attach ∧
    ∀ e, e ≠ eid → recGet (retireMark s eid) e = recGet s e := by
  obtain ⟨u, r, rfl, h3, hatt, hm⟩ := retireMark_eq s eid
  have hget : ∀ e, recGet (retireMark s eid) e = recGet (recChange s eid r) e := fun e => by rw [hm]; rfl
  rw [hget, recGet_recChange]
  exact ⟨h3, hatt, fun e he => by rw [hget, recGet_recChange_ne _ _ _ he]⟩

theorem retireMark_frame : (retireMark s eid).host.flights = s.host.flights ∧
    (retireMark s eid).host.deliv = s.host.deliv ∧ (retireMark s eid).rp = s.rp ∧
    (retireMark s eid).sealU = s.sealU ∧ (retireMark s eid).keys = s.keys ∧ (retireMark s eid).regs = s.regs ∧
    (retireMark s eid).harn.pos = s.harn.pos := by
  obtain ⟨u, r, rfl, -, -, hm⟩ := retireMark_eq s eid
  rw [hm]
  simp [retirePut]

end

theorem retireBegin_leaves (s : State) (eid : Nat) :
    (recGet (retireBegin s eid) eid).state = 3 ∧ ∀ e, e ≠ eid → recGet (retireBegin s eid) e = recGet s e := by
  rw [retireBegin_eq]
  split
  · next h => exact ⟨(recView_state s eid).symm.trans h, fun _ _ => rfl⟩
  · have hend := endRest_downlinkEnds (linkRelease (retireMark s eid) eid) eid
    obtain ⟨h3, -, hother⟩ := recGet_retireMark s eid
    exact ⟨by rw [endRest_recGet hend, linkRelease_recGet, h3], fun e he => by
      rw [endRest_recGet hend, linkRelease_recGet, hother e he]⟩

/-- Where the endpoint's channel is no radio's, the begin leaves descriptors, readings and slots alone. -/
theorem retireBegin_wired {s : State} {eid : Nat} (h : chRadio s (chanOf s eid) = false) :
    (retireBegin s eid).host.flights = s.host.flights ∧ (retireBegin s eid).host.deliv = s.host.deliv ∧
      (retireBegin s eid).rp = s.rp ∧ (retireBegin s eid).sealU = s.sealU ∧ (retireBegin s eid).keys = s.keys := by
  rw [retireBegin_eq]
  split
  · exact ⟨rfl, rfl, rfl, rfl, rfl⟩
  · obtain ⟨hfl, hdel, hrp, hseal, hkeys, hregs, hpos⟩ := retireMark_frame s eid
    obtain ⟨-, hatt, -⟩ := recGet_retireMark s eid
    have hch : chanOf (linkRelease (retireMark s eid) eid) eid = chanOf s eid := by
      have htab : epChan (recGet (retireMark s eid) eid) = epChan (recGet s eid) := by rw [epChan, epChan, hatt]
      simp only [chanOf, linkRelease_recs_tab, linkRelease_harn_pos, regGet, linkRelease_regs, hregs, hpos, regFld]
      rw [← recGet, htab]
      rfl
    rw [downlinkEnds_wired]
    · simp [hfl, hdel, hrp, hseal, hkeys]
    · rw [hch]
      simp only [chRadio, chAttach, regFld, regGet, linkRelease_regs, hregs] at h ⊢
      exact h

/-- A descriptor's progress is no work on an endpoint: a retire is none of its own. -/
theorem eidBusy_setProgress_retire {s : State} {f : Flight} (hop : dOpcode f.raw = 0x12) (step units eid : Nat)
    (h : eidBusy s eid = false) : eidBusy (setProgress s f step units) eid = false := by
  have hfl : (setProgress s f step units).host.flights =
      s.host.flights.map fun g => if g.uid = f.uid then { f with step := step, units := units } else g := by
    rw [setProgress, jrnlMod_host_flights, flightPut]
  simp only [eidBusy, hfl, List.any_eq_false, List.mem_map, forall_exists_index, and_imp, forall_apply_eq_imp_iff₂] at h ⊢
  intro g hg
  by_cases hu : g.uid = f.uid
  · simp [hu, hop]
  · rw [if_neg hu]
    exact h g hg

end Sys2Proof.Machine
end

section
open Sys2Proof Sys2Proof.Machine Sys2Proof.Safety

/-- Settles O28: each part of a retire changes its record alone, and frees it once no slot holds a key of it. -/
theorem retireFreesTheRecord : Obligations.RetireFreesTheRecord := by
  rintro s u f ⟨ha, hr, hs, hd⟩
  have hop := runnable_opcode hr
  refine ⟨fun h0 hst => ?begin, fun h3 ⟨a, b, c, hst⟩ hidle hgone => ?goOn, fun h0 hst => ?free⟩
  case begin =>
    obtain ⟨h3, hother⟩ := retireBegin_leaves s (dEid f.raw)
    generalize hg : { f with stage := .wait s.tcxo 3 0 } = g
    have hraw : g.raw = f.raw := by rw [← hg]
    have hrow : epRetire s u = retireGo (setProgress (retireBegin s (dEid f.raw)) g 2 0) g := by
      simp only [epRetire, withDesc_run s u 0x12 _ f hr hs, hst, h0, if_false, hg]
    have hprog := endRest_setProgress (retireBegin s (dEid f.raw)) g 2 0
    have h3' := (congrArg (·.state) (endRest_recGet hprog (dEid f.raw))).trans h3
    rw [exec_opEpRetire u s ha, hrow]
    refine ⟨_, rfl, ?_⟩
    simp only [wmUpdate_recGet, pinGet, wmUpdate_recs]
    rw [← hraw] at h3' hother ⊢
    obtain ⟨hleft, hoth⟩ := retireGo_leaves h3'
    refine ⟨hleft, fun hwire hbusy hread hgone => ?_, fun e he => by
      rw [hoth e he, hraw, endRest_recGet hprog, ← hraw, hother e he]⟩
    obtain ⟨hfl, hdel, hrp, hseal, hkeys⟩ := retireBegin_wired hwire
    refine retireGo_frees h3' (.inr ⟨?_, ?_⟩) ?_
    · refine eidBusy_setProgress_retire (hraw ▸ hop) 2 0 _ ?_
      simpa only [eidBusy, hfl] using hbusy
    · simp only [eidReadings, setProgress, jrnlMod_rp, jrnlMod_sealU, jrnlMod_host_deliv, flightPut, hdel, hrp, hseal]
      exact hread
    · rw [SlotsGone, hraw, endRest_keys hprog, ← hraw, hkeys]
      exact hgone
  case goOn =>
    have hrow : retireDrainEnd s u = retireGo s f := by
      simp only [retireDrainEnd, withDesc_run s u 0x12 _ f hr hs, hst]
    obtain ⟨-, hother⟩ := retireGo_leaves (f := f) h3
    obtain ⟨hfree, hpin⟩ := retireGo_frees h3 hidle hgone
    rw [exec_retireDrainEnd u s ha, hrow]
    exact ⟨_, rfl, by rwa [wmUpdate_recGet], by rwa [pinGet, wmUpdate_recs, ← pinGet], fun e he => by
      rw [wmUpdate_recGet, hother e he]⟩
  case free =>
    have hrow : epRetire s u = badParam s f 4 := by
      simp only [epRetire, withDesc_run s u 0x12 _ f hr hs, hst, h0, if_true]
    rw [exec_opEpRetire u s ha, hrow, badParam, bad, reject]
    exact ⟨_, rfl, completed_self s f stBad 0 0 _ hd, by simp⟩

end

section
/-!
# The three doorbells (02 R51, R55, R65, R74)

A legal write moves its ring's index; an illegal one is a ring error, which changes no index: its log record, unsolicited
completion and vector leave every ring's fields but the completions that wait.
-/
namespace Sys2Proof.Machine
open Sys2Proof Sys2Proof.Safety

/-- An unsolicited completion joins what waits on one completion ring. -/
theorem unsolicited_cqGet (s : State) (kind eid ring wr spec n : Nat) :
    ∃ w, cqGet (unsolicited s kind eid ring wr spec) n = { cqGet s n with waiting := w } := by
  unfold unsolicited unsolicitedTc
  dsimp only
  split
  · by_cases h : n = fld (regGet s 0x1000) 0 7
    · subst h
      exact ⟨_, by rw [cqGet, cqPut, tget_tset_same]⟩
    · exact ⟨(cqGet s n).waiting, by rw [cqGet, cqPut]; simp [tget_tset_other _ _ _ _ _ h, cqGet]⟩
  · exact ⟨(cqGet s n).waiting, rfl⟩

@[simp] theorem unsolicited_host_sq (s : State) (kind eid ring wr spec : Nat) :
    (unsolicited s kind eid ring wr spec).host.sq = s.host.sq := by
  obtain ⟨_, _, h⟩ := unsolicited_eq s kind eid ring wr spec; rw [h]
@[simp] theorem unsolicited_host_rr (s : State) (kind eid ring wr spec : Nat) :
    (unsolicited s kind eid ring wr spec).host.rr = s.host.rr := by
  obtain ⟨_, _, h⟩ := unsolicited_eq s kind eid ring wr spec; rw [h]

section
variable (s : State) (kind n : Nat) (v : Word)

@[simp] theorem ringError_host_sq : (ringError s kind n v).host.sq = s.host.sq := by simp [ringError, errVector]
@[simp] theorem ringError_host_rr : (ringError s kind n v).host.rr = s.host.rr := by simp [ringError, errVector]
theorem ringError_cqGet (c : Nat) : ∃ w, cqGet (ringError s kind n v) c = { cqGet s c with waiting := w } := by
  obtain ⟨w, h⟩ := unsolicited_cqGet (logEvent 0x0201 (kind + 256 * n + 2 ^ 32 * v.toNat) s) 0x20 0 0xFFFF 0xFFFFFFFF
    (kind * 2 ^ 30 + n) c
  exact ⟨w, by rw [ringError, errVector, msix_cqGet]; dsimp only; rw [h, logEvent_cqGet]⟩

end

/-- A doorbell write outside the defined place is dropped and counted, and rings no index. -/
theorem dbDropped_frame (s : State) : (dbDropped s).host.dbDrop = satInc s.host.dbDrop ∧
    (dbDropped s).host.sq = s.host.sq ∧ (dbDropped s).host.cq = s.host.cq ∧ (dbDropped s).host.rr = s.host.rr := by
  simp [dbDropped, errVector]

/-- What a doorbell write finds: the state after its bytes have passed port 66. -/
def doorbellSeen (s : State) (size : Nat) : State := bwRx (linkUp s) 66 size

@[simp] theorem doorbellSeen_host_rings (s : State) (size : Nat) : (doorbellSeen s size).host.sq = s.host.sq ∧
    (doorbellSeen s size).host.cq = s.host.cq ∧ (doorbellSeen s size).host.rr = s.host.rr ∧
    (doorbellSeen s size).host.dbDrop = s.host.dbDrop ∧ (doorbellSeen s size).host.flights = s.host.flights ∧
    (doorbellSeen s size).host.deliv = s.host.deliv ∧ (doorbellSeen s size).regs = s.regs := by
  simp [doorbellSeen]

end Sys2Proof.Machine
end

section
open Sys2Proof Sys2Proof.Machine Sys2Proof.Safety

/-- Settles O16: each doorbell is one split on the legality of its index. -/
theorem doorbellsMoveOrRefuse : Obligations.DoorbellsMoveOrRefuse := by
  intro s n off size v ha
  have hsq := exec_sqTailDoorbell n off size v s ha
  have hcq := exec_cqHeadDoorbell n off size v s ha
  have hrr := exec_rrGrantDoorbell n off size v s ha
  obtain ⟨hsqs, hcqs, hrrs, -, -, -, hregs⟩ := doorbellSeen_host_rings s size
  have hsize : sqSize (doorbellSeen s size) n = sqSize s n ∧ cqSize (doorbellSeen s size) n = cqSize s n ∧
      rrSize (doorbellSeen s size) n = rrSize s n := by
    simp only [sqSize, cqSize, rrSize, regFld, regGet, hregs, and_self]
  have hget : sqGet (doorbellSeen s size) n = sqGet s n ∧ cqGet (doorbellSeen s size) n = cqGet s n ∧
      rrGet (doorbellSeen s size) n = rrGet s n := by
    simp only [sqGet, cqGet, rrGet, hsqs, hcqs, hrrs, and_self]
  obtain ⟨hsqn, hcqn, hrrn⟩ := hsize
  obtain ⟨hsqg, hcqg, hrrg⟩ := hget
  simp only [sqTailDoorbell, cqHeadDoorbell, rrGrantDoorbell] at hsq hcq hrr
  rw [← doorbellSeen] at hsq hcq hrr
  refine ⟨fun hdef => ?_, fun hbad => ?_⟩
  · rw [if_pos hdef] at hsq hcq hrr
    simp only [sqTail, cqHead, rrGrant, hsqg, hcqg, hrrg, hsqn, hcqn, hrrn] at hsq hcq hrr
    refine ⟨fun h => ?tail, fun h => ?tailErr, fun h => ?head, fun h => ?headErr, fun h => ?grant, fun h => ?grantErr⟩
    case tail =>
      rw [if_pos h] at hsq
      exact ⟨_, hsq, by simp [doorbellStamp, sqGet, sqPut], by simp [doorbellStamp, sqPut],
        by simp [doorbellStamp, sqPut]⟩
    case tailErr =>
      rw [if_neg (Nat.not_lt.mpr h)] at hsq
      exact ⟨_, hsq, by simp [sqGet, sqPut], by simp [sqGet, sqPut]⟩
    case head =>
      rw [if_pos h] at hcq
      exact ⟨_, hcq, by simp [cqGet, cqPut], by simp [cqPut], by simp [cqPut]⟩
    case headErr =>
      rw [if_neg h] at hcq
      obtain ⟨w, hw⟩ := ringError_cqGet (cqPut (doorbellSeen s size) n { cqGet s n with error := true }) 1 n v n
      refine ⟨_, hcq, ?_, ?_⟩ <;> rw [wmUpdate_cqGet, hw] <;> simp [cqGet, cqPut]
    case grant =>
      rw [if_pos h] at hrr
      exact ⟨_, hrr, by simp [rrGet, rrPut], by simp [rrPut]⟩
    case grantErr =>
      rw [if_neg (by omega)] at hrr
      exact ⟨_, hrr, by simp [rrGet, rrPut], by simp [rrGet, rrPut]⟩
  · rw [if_neg hbad] at hsq hcq hrr
    obtain ⟨hcount, hs, hc, hr⟩ := dbDropped_frame (doorbellSeen s size)
    exact ⟨⟨_, hsq, by simp [hcount], by simp [hs]⟩, ⟨_, hcq, by simp [hcount], by simp [hc]⟩,
      ⟨_, hrr, by simp [hcount], by simp [hr]⟩⟩

end

section
/-!
# Register writes that act: rings, clear bits, roles, windows and samplers (00 R12; 02 R52 to R54, R88; 18 R521 to R524)

Where a write goes by its offset, and what the row of the register table stores of its word; then each obligation's own
effect.
-/
namespace Sys2Proof.Machine
open Sys2Proof Sys2Proof.Safety

/-! ## Where a write goes -/

/-- A member of a run of registers has its index. -/
theorem runIdx_member {base stride count n : Nat} (hs : 0 < stride) (hn : n < count) :
    runIdx (base + stride * n) base stride count = some n := by
  have hdiv : stride * n / stride = n := Nat.mul_div_cancel_left n hs
  simp [runIdx, hdiv, hn]

/-- What a register write finds: the link up, its 4 bytes counted at port 66. -/
def writeSeen (s : State) : State := bwRx (linkUp s) 66 4

theorem hostWrite_word (s : State) (off : Nat) (v : Word) (h : off % 4 = 0) :
    hostWrite (linkUp s) off 4 v = barWrite (writeSeen s) off v := if_pos ⟨rfl, h⟩

section
variable (s : State) (n : Nat) (v : Word)

theorem barWrite_sqCfg (h : n < 64) : barWrite s (0x1410 + 0x20 * n) v = ringCfg s 0 n (0x1410 + 0x20 * n) v := by
  have hblock : inHostBlock (0x1410 + 0x20 * n) = true := by simp [inHostBlock]; omega
  have hne : 0x1410 + 0x20 * n ≠ 0x1004 := by omega
  simp only [barWrite, hblock, if_true, hostBlockWrite, hne, if_false, runIdx_member (show 0 < 0x20 by decide) h]

theorem barWrite_cqCfg (h : n < 64) : barWrite s (0x1C08 + 0x20 * n) v = ringCfg s 1 n (0x1C08 + 0x20 * n) v := by
  have hblock : inHostBlock (0x1C08 + 0x20 * n) = true := by simp [inHostBlock]; omega
  have hne : 0x1C08 + 0x20 * n ≠ 0x1004 := by omega
  have hsq : runIdx (0x1C08 + 0x20 * n) 0x1410 0x20 64 = none := by simp [runIdx]; omega
  simp only [barWrite, hblock, if_true, hostBlockWrite, hne, if_false, hsq, runIdx_member (show 0 < 0x20 by decide) h]

theorem barWrite_rrCfg (h : n < 16) : barWrite s (0x2410 + 0x20 * n) v = ringCfg s 2 n (0x2410 + 0x20 * n) v := by
  have hblock : inHostBlock (0x2410 + 0x20 * n) = true := by simp [inHostBlock]; omega
  have hne : 0x2410 + 0x20 * n ≠ 0x1004 := by omega
  have hsq : runIdx (0x2410 + 0x20 * n) 0x1410 0x20 64 = none := by simp [runIdx]; omega
  have hcq : runIdx (0x2410 + 0x20 * n) 0x1C08 0x20 64 = none := by simp [runIdx]; omega
  have hirq : runIdx (0x2410 + 0x20 * n) 0x1C0C 0x20 64 = none := by simp [runIdx]; omega
  simp only [barWrite, hblock, if_true, hostBlockWrite, hne, if_false, hsq, hcq, hirq,
    runIdx_member (show 0 < 0x20 by decide) h]

end

/-- A write to a ring's CFG word is the write of its register and the ring's start or stop. -/
theorem ringCfgWrite_sq {n : Nat} (s : State) (v : Word) (h : n < 64) :
    ringCfgWrite (linkUp s) 0 n v = ringCfg (writeSeen s) 0 n (0x1410 + 0x20 * n) v :=
  (hostWrite_word s _ v (by omega)).trans (barWrite_sqCfg _ n v h)
theorem ringCfgWrite_cq {n : Nat} (s : State) (v : Word) (h : n < 64) :
    ringCfgWrite (linkUp s) 1 n v = ringCfg (writeSeen s) 1 n (0x1C08 + 0x20 * n) v :=
  (hostWrite_word s _ v (by omega)).trans (barWrite_cqCfg _ n v h)
theorem ringCfgWrite_rr {n : Nat} (s : State) (v : Word) (h : n < 16) :
    ringCfgWrite (linkUp s) 2 n v = ringCfg (writeSeen s) 2 n (0x2410 + 0x20 * n) v :=
  (hostWrite_word s _ v (by omega)).trans (barWrite_rrCfg _ n v h)

/-! ## What a row stores -/

/-- A write that its row takes whole stores a word and logs nothing. -/
theorem regWrite_stored {s : State} {off : Nat} {w word : Word} {r : RegRow} (hrow : regRow off = some r)
    (hw : writeFlds (wbit (regGet s r.lockAt.1) r.lockAt.2) (gateHeld s r.gate (r.idx off)) r.base w r.flds
      (regGet s off, none) = (word, none)) : regWrite s off w = regPut s off word := by
  simp only [regWrite, hrow, hw]

/-- A register reads the word its row leaves, whether or not a field was ignored. -/
theorem regGet_regWrite {s : State} {off : Nat} {w : Word} {r : RegRow} (hrow : regRow off = some r) :
    regGet (regWrite s off w) off = (writeFlds (wbit (regGet s r.lockAt.1) r.lockAt.2)
      (gateHeld s r.gate (r.idx off)) r.base w r.flds (regGet s off, none)).1 := by
  simp only [regWrite, hrow]
  split
  next word h => rw [h, regGet_regPut]
  next word c h => rw [h, logIgnored, logEvent_regGet, regGet_regPut]

/-- The ROLE row of a channel group. -/
theorem regRow_role {g : Nat} (h : g < 4) :
    regRow (0x6400 + 4 * g) = some ⟨0x6400, 4, 4, (0, 32), .role, [rw 0 1 0]⟩ := by
  obtain rfl | rfl | rfl | rfl : g = 0 ∨ g = 1 ∨ g = 2 ∨ g = 3 := by omega
  all_goals rfl

/-- The CTRL row of a sampler. -/
theorem regRow_sampler {n : Nat} (h : n < 8) :
    regRow (0x800 + 0x20 * n) = some ⟨0x800, 0x20, 8, (0, 32), .none,
      [rw 0 9 0, rw 16 7 0, rw 31 1 0]⟩ := by
  obtain rfl | rfl | rfl | rfl | rfl | rfl | rfl | rfl : n = 0 ∨ n = 1 ∨ n = 2 ∨ n = 3 ∨ n = 4 ∨ n = 5 ∨ n = 6 ∨ n = 7 := by
    omega
  all_goals rfl

theorem regRow_bwSel : regRow 0x904 = some ⟨0x904, 0, 1, (0, 32), .none, [rw 0 7 0]⟩ := rfl

theorem regRow_bwWindow :
    regRow 0x900 = some ⟨0x900, 0, 1, (0, 32), .none, [rwr 0 14 0x3E8 1 10000]⟩ := rfl

theorem fld_lt (w : Word) (lo len : Nat) : fld w lo len < 2 ^ len := Nat.mod_lt _ (Nat.two_pow_pos len)

/-- A plain field takes a value in its range while its gate is open. -/
theorem fldIgnores_rw {locked : Bool} {base : Nat} {f : Fld} {old v : Nat} {acc : Word} (hacc : f.acc = .rw)
    (hmin : f.min ≤ v) (hmax : v ≤ f.max) (hbase : crossBad base f.lo v acc = false) :
    fldIgnores locked false base f old v acc = none := by
  simp [fldIgnores, hacc, hbase, Nat.not_lt.mpr hmin, Nat.not_lt.mpr hmax]

/-- One plain field is the word with that field. -/
theorem writeFlds_one {locked : Bool} {base : Nat} {new acc : Word} {f : Fld} (hacc : f.acc = .rw)
    (hmin : f.min ≤ fld new f.lo f.len) (hmax : fld new f.lo f.len ≤ f.max)
    (hbase : crossBad base f.lo (fld new f.lo f.len) acc = false) :
    writeFlds locked false base new [f] (acc, none) = (setFld acc f.lo f.len (fld new f.lo f.len), none) := by
  simp only [writeFlds, fldIgnores_rw hacc hmin hmax hbase]

/-- A field cut to its own width. -/
theorem fld_setFld_fld (acc w : Word) (lo len : Nat) (h : lo + len ≤ 32) :
    fld (setFld acc lo len (fld w lo len)) lo len = fld w lo len := by
  rw [fld_setFld_same _ _ _ _ h, Nat.mod_eq_of_lt (fld_lt w lo len)]

/-! ## A reading ring's STOPPING covers its records (02 R77, R88) -/

/-- A reading ring as it was but for the records not covered and the count not signalled. -/
def RrKept (s t : State) (n : Nat) : Prop := ∃ k l, rrGet t n = { rrGet s n with unsig := k, uncov := l }

theorem RrKept.refl (s : State) (n : Nat) : RrKept s s n := ⟨_, _, rfl⟩
theorem RrKept.trans {s t u : State} {n : Nat} (h : RrKept s t n) (h' : RrKept t u n) : RrKept s u n := by
  obtain ⟨k, l, h⟩ := h
  obtain ⟨k', l', h'⟩ := h'
  exact ⟨k', l', by rw [h', h]⟩

theorem rrGet_rrPut_ite (s : State) (r n : Nat) (x : Rr) : rrGet (rrPut s r x) n = if n = r then x else rrGet s n := by
  simp [rrGet, rrPut, tget_tset]

@[simp] theorem batchCover_host (s : State) (ids : List Nat) : (batchCover s ids).host = s.host := rfl

/-- A tail write-back leaves every ring but for what is covered, and its own ring with nothing uncovered. -/
theorem tailWriteBack_frame (s : State) (r : Nat) (last : Bool) :
    (tailWriteBack s r last).host.sq = s.host.sq ∧ (tailWriteBack s r last).host.linkDown = s.host.linkDown ∧
      ∀ n, RrKept s (tailWriteBack s r last) n ∧
        ((rrGet s n).uncov = [] ∨ n = r → (rrGet (tailWriteBack s r last) n).uncov = []) := by
  unfold tailWriteBack
  dsimp only
  split
  · next h =>
    refine ⟨rfl, rfl, fun n => ⟨.refl s n, ?_⟩⟩
    rintro (h0 | rfl)
    · exact h0
    · exact List.isEmpty_iff.mp h
  · generalize hu : hostWriteMem s _ _ = u
    have hrr : ∀ n, rrGet u n = rrGet s n := by simp [← hu]
    have hsq : u.host.sq = s.host.sq := by simp [← hu]
    have hdown : u.host.linkDown = s.host.linkDown := by simp [← hu]
    generalize hc : batchCover (rrPut u r { rrGet u r with uncov := [] }) _ = c
    have hcrr : ∀ n, rrGet c n = if n = r then { rrGet s r with uncov := [] } else rrGet s n := fun n => by
      rw [← hc, rrGet, batchCover_host, ← rrGet, rrGet_rrPut_ite, hrr, hrr]
    have hchost : c.host.sq = s.host.sq ∧ c.host.linkDown = s.host.linkDown := by
      rw [← hc, batchCover_host]; exact ⟨hsq, hdown⟩
    split
    · refine ⟨by simp [hchost], by simp [hchost], fun n => ?_⟩
      rw [RrKept, msix_rrGet, rrGet_rrPut_ite, hcrr, hcrr]
      by_cases hn : n = r
      · subst hn
        simp only [if_true]
        exact ⟨⟨_, _, rfl⟩, fun _ => trivial⟩
      · simp only [hn, if_false, or_false]
        exact ⟨⟨_, _, rfl⟩, id⟩
    · refine ⟨hchost.1, hchost.2, fun n => ?_⟩
      rw [RrKept, hcrr]
      by_cases hn : n = r
      · subst hn
        simp only [if_true]
        exact ⟨⟨_, _, rfl⟩, fun _ => trivial⟩
      · simp only [hn, if_false, or_false]
        exact ⟨⟨_, _, rfl⟩, id⟩

/-- A ring that is not ON can take no record. -/
theorem rrMore_off {s : State} {n : Nat} (h : (rrGet s n).fn.st ≠ .on) : rrMore s n = false := by
  simp [rrMore, rrReady, h]

theorem endRest_rrGet {s t : State} (h : endRest t = endRest s) (n : Nat) : rrGet t n = rrGet s n := by
  have hrr : t.host.rr = s.host.rr := congrArg (·.host.rr) h
  rw [rrGet, rrGet, hrr]
theorem endRest_sq {s t : State} (h : endRest t = endRest s) : t.host.sq = s.host.sq := congrArg (·.host.sq) h

/-- A sweep of the tails with the link up leaves a ring that is not ON with nothing uncovered. -/
theorem tailSweep_frame {s : State} {n : Nat} (hn : n < 16) (hup : s.host.linkDown = false)
    (hoff : (rrGet s n).fn.st ≠ .on) :
    (tailSweep s).host.sq = s.host.sq ∧ RrKept s (tailSweep s) n ∧ (rrGet (tailSweep s) n).uncov = [] := by
  have hstep : ∀ (l : List Nat) (s : State), s.host.linkDown = false → (rrGet s n).fn.st ≠ .on →
      let t := l.foldl (fun s r => if s.host.linkDown || rrMore s r then s else tailWriteBack s r true) s
      t.host.sq = s.host.sq ∧ RrKept s t n ∧ ((rrGet s n).uncov = [] ∨ n ∈ l → (rrGet t n).uncov = []) := by
    intro l
    induction l with
    | nil => exact fun s _ _ => ⟨rfl, .refl s n, by simp⟩
    | cons r l ih =>
      intro s hup hoff
      dsimp only
      rw [List.foldl_cons]
      by_cases hmore : rrMore s r = true
      · have hr : n ≠ r := by
          rintro rfl
          rw [rrMore_off hoff] at hmore
          cases hmore
        obtain ⟨hsq, hkeep, hcov⟩ := ih s hup hoff
        simp only [hmore, Bool.or_true, if_true]
        exact ⟨hsq, hkeep, fun h => hcov (by simpa [hr] using h)⟩
      · obtain ⟨hsq, hdown, hrr⟩ := tailWriteBack_frame s r true
        obtain ⟨⟨k, m, hk⟩, hcov⟩ := hrr n
        obtain ⟨hsq', hkeep', hcov'⟩ := ih (tailWriteBack s r true) (hdown.trans hup) (by rw [hk]; exact hoff)
        simp only [hup, hmore, Bool.or_false, Bool.false_eq_true, if_false]
        refine ⟨hsq'.trans hsq, .trans ⟨k, m, hk⟩ hkeep', fun h => hcov' ?_⟩
        rcases h with h | h
        · exact .inl (hcov (.inl h))
        · rcases List.mem_cons.mp h with rfl | h
          · exact .inl (hcov (.inr rfl))
          · exact .inr h
  obtain ⟨hsq, hkeep, hcov⟩ := hstep (List.range 16) s hup hoff
  exact ⟨hsq, hkeep, hcov (.inr (List.mem_range.mpr hn))⟩

end Sys2Proof.Machine
end

section
open Sys2Proof Sys2Proof.Machine Sys2Proof.Safety

/-- Settles O18: a ring's CFG write starts or stops its ring, on the legality of its size alone. -/
theorem ringEnableAndDisable : Obligations.RingEnableAndDisable := by
  intro s u n v ha
  have hseen : ∀ off, (regWrite (writeSeen s) off v).host.sq = s.host.sq ∧
      (regWrite (writeSeen s) off v).host.cq = s.host.cq ∧ (regWrite (writeSeen s) off v).host.rr = s.host.rr ∧
      (regWrite (writeSeen s) off v).host.linkDown = false := fun off => by simp [writeSeen, linkUp]
  refine ⟨fun hn hv hu hoff => ?cqOn, fun hn hv hu hoff => ?sqOn, fun hn hv hu hoff => ?rrOn, fun hn hv hon => ?cqOff,
    fun hn hv hon => ?sqOff, fun hn hv hon => ?rrOff⟩
  case cqOn =>
    have hrow := exec_ringEnable 1 n v s ha
    rw [ringCfgWrite_cq s v hn, ringCfg, if_pos hv, writeSeen, ← hu] at hrow
    have hget : cqGet u n = cqGet s n := by
      obtain ⟨-, h, -, -⟩ := hseen (0x1C08 + 0x20 * n)
      rw [hu, cqGet, cqGet, ← writeSeen, h]
    have hstart : ringEnable u 1 n = cqStart u n := by simp only [ringEnable, ringFn, hget, hoff, ringStart]
    rw [hstart, cqStart] at hrow
    refine ⟨fun hsize => ?_, fun hsize => ?_⟩
    · rw [if_pos (show sizeOk (regFld u (cqCfg n) 0 5) = true from hsize)] at hrow
      exact ⟨_, hrow, by simp [cqGet, cqPut]⟩
    · rw [if_neg (by rw [cqCfg, hsize]; decide)] at hrow
      obtain ⟨w, hw⟩ := ringError_cqGet (cqPut u n { cqGet u n with
        head := 0, tail := 0, phaseInv := false, unsig := 0, timer := none, fn := Fn.idle, error := true }) 1 n 0 n
      refine ⟨_, hrow, ?_⟩
      rw [wmUpdate_cqGet, hw]
      simp [cqGet, cqPut]
  case sqOn =>
    have hrow := exec_ringEnable 0 n v s ha
    rw [ringCfgWrite_sq s v hn, ringCfg, if_pos hv, writeSeen, ← hu] at hrow
    obtain ⟨hsq, hcq, -, -⟩ := hseen (0x1410 + 0x20 * n)
    rw [writeSeen, ← hu] at hsq hcq
    have hget : sqGet u n = sqGet s n := by rw [sqGet, sqGet, hsq]
    have hcget : ∀ c, cqGet u c = cqGet s c := fun c => by rw [cqGet, cqGet, hcq]
    have hstart : ringEnable u 0 n = sqStart u n := by simp only [ringEnable, ringFn, hget, hoff, ringStart]
    rw [hstart] at hrow
    simp only [sqStart, hcget, sqCfg] at hrow
    refine ⟨fun hsize hc => ?_, fun hbad => ?_⟩
    · rw [if_pos (by rcases hc with hc | hc <;> simp [hsize, hc])] at hrow
      exact ⟨_, hrow, by simp [sqGet, sqPut]⟩
    · rw [if_neg (by rcases hbad with h | h | h <;> simp [h])] at hrow
      exact ⟨_, hrow, by simp [sqGet, sqPut]⟩
  case rrOn =>
    have hrow := exec_ringEnable 2 n v s ha
    rw [ringCfgWrite_rr s v hn, ringCfg, if_pos hv, writeSeen, ← hu] at hrow
    have hget : rrGet u n = rrGet s n := by
      obtain ⟨-, -, h, -⟩ := hseen (0x2410 + 0x20 * n)
      rw [hu, rrGet, rrGet, ← writeSeen, h]
    have hstart : ringEnable u 2 n = rrStart u n := by simp only [ringEnable, ringFn, hget, hoff, ringStart]
    rw [hstart, rrStart] at hrow
    refine ⟨fun hsize => ?_, fun hsize => ?_⟩
    · rw [if_pos (show sizeOk (regFld u (rrCfg n) 0 5) = true from hsize)] at hrow
      exact ⟨_, hrow, by simp [rrGet, rrPut]⟩
    · rw [if_neg (by rw [rrCfg, hsize]; decide)] at hrow
      exact ⟨_, hrow, by simp [rrGet, rrPut]⟩
  case cqOff =>
    have hrow := exec_ringDisable 1 n v s ha
    rw [ringCfgWrite_cq s v hn, ringCfg, if_neg (by simp [hv]), if_neg (by decide)] at hrow
    obtain ⟨hsq, hcq, -, -⟩ := hseen (0x1C08 + 0x20 * n)
    have hget : cqGet (regWrite (writeSeen s) (0x1C08 + 0x20 * n) v) n = cqGet s n := by rw [cqGet, cqGet, hcq]
    simp only [ringDisable, ringFn, hget, hon, ringFnPut] at hrow
    exact ⟨_, hrow, by simp [cqGet, cqPut], by simpa [cqPut] using hsq⟩
  case sqOff =>
    have hrow := exec_ringDisable 0 n v s ha
    rw [ringCfgWrite_sq s v hn, ringCfg, if_neg (by simp [hv]), if_neg (by decide)] at hrow
    obtain ⟨hsq, hcq, -, -⟩ := hseen (0x1410 + 0x20 * n)
    have hget : sqGet (regWrite (writeSeen s) (0x1410 + 0x20 * n) v) n = sqGet s n := by rw [sqGet, sqGet, hsq]
    simp only [ringDisable, ringFn, hget, hon, ringFnPut] at hrow
    exact ⟨_, hrow, by simp [sqGet, sqPut], by simpa [sqPut] using hcq⟩
  case rrOff =>
    have hrow := exec_ringDisable 2 n v s ha
    rw [ringCfgWrite_rr s v hn, ringCfg, if_neg (by simp [hv]), if_pos rfl] at hrow
    obtain ⟨hsq, -, hrr, hup⟩ := hseen (0x2410 + 0x20 * n)
    generalize regWrite (writeSeen s) (0x2410 + 0x20 * n) v = u at *
    have hget : rrGet u n = rrGet s n := by rw [rrGet, rrGet, hrr]
    simp only [ringDisable, ringFn, hget, hon, ringFnPut, delivChanged] at hrow
    generalize hp : rrPut u n { rrGet s n with fn := { (rrGet s n).fn with st := .stopping } } = p at hrow
    have hpn : rrGet p n = { rrGet s n with fn := { (rrGet s n).fn with st := .stopping } } := by
      rw [← hp, rrGet_rrPut_ite, if_pos rfl]
    have hpsq : p.host.sq = s.host.sq := by rw [← hp, ← hsq]; rfl
    have hpup : p.host.linkDown = false := by rw [← hp, ← hup]; rfl
    obtain ⟨hsq', ⟨k, l, hkeep⟩, hcov⟩ := tailSweep_frame hn hpup (by simp [hpn])
    have hend := endRest_drainCheck (tailSweep p)
    refine ⟨_, hrow, ?_⟩
    rw [wmUpdate_rrGet, endRest_rrGet hend, hcov, hkeep, hpn, wmUpdate_host, endRest_sq hend, hsq', hpsq]
    exact ⟨rfl, rfl, rfl, rfl, rfl⟩

end

section
/-!
# Clear bits and roles; bandwidth windows and samplers (00 R12; 06 R193; 10 R323; 18 R521 to R524)

Each of these registers has one row of the register table and one effect.
-/
namespace Sys2Proof.Machine
open Sys2Proof Sys2Proof.Safety

@[simp] theorem writeSeen_regs (s : State) : (writeSeen s).regs = s.regs := by simp [writeSeen]
@[simp] theorem writeSeen_regGet (s : State) (o : Nat) : regGet (writeSeen s) o = regGet s o := by simp [writeSeen]
@[simp] theorem writeSeen_fnGet (s : State) (i : Nat) : fnGet (writeSeen s) i = fnGet s i := by simp [writeSeen]

/-! ## Roles (10 R323) -/

theorem barWrite_role {g : Nat} (s : State) (v : Word) (h : g < 4) :
    barWrite s (0x6400 + 4 * g) v = regWrite s (0x6400 + 4 * g) v := by
  obtain rfl | rfl | rfl | rfl : g = 0 ∨ g = 1 ∨ g = 2 ∨ g = 3 := by omega
  all_goals rfl

/-- A group's role is gated by the group and its channels. -/
theorem gateHeld_role (s : State) (g : Nat) : gateHeld (writeSeen s) .role g = gateHeld s .role g := by
  simp [gateHeld]

theorem role_idx (g : Nat) : RegRow.idx ⟨0x6400, 4, 4, (0, 32), .role, [rw 0 1 0]⟩ (0x6400 + 4 * g) = g := by
  simp [RegRow.idx]

theorem role_open {s : State} {g : Nat} {v : Word} (hg : g < 4) (h : gateHeld s .role g = false) :
    regWrite s (0x6400 + 4 * g) v = regPut s (0x6400 + 4 * g) (setFld (regGet s (0x6400 + 4 * g)) 0 1 (fld v 0 1)) := by
  refine regWrite_stored (regRow_role hg) ?_
  rw [role_idx, h]
  have hlt := fld_lt v 0 1
  exact writeFlds_one rfl (Nat.zero_le _) (by simp only [rw]; omega) rfl

theorem role_held {s : State} {g : Nat} {v : Word} (hg : g < 4) (h : gateHeld s .role g = true) :
    regGet (regWrite s (0x6400 + 4 * g) v) (0x6400 + 4 * g) = regGet s (0x6400 + 4 * g) := by
  have hlt := fld_lt v 0 1
  have hcross : crossBad 0x6400 0 (fld v 0 1) (regGet s (0x6400 + 4 * g)) = false := rfl
  rw [regGet_regWrite (regRow_role hg), role_idx, h]
  simp [writeFlds, fldIgnores, rw, hcross, show ¬ 2 < fld v 0 1 by omega]

/-! ## Bandwidth ports (18 R523, R524) -/

theorem bwGet_bwPut_ite (s : State) (p q : Nat) (x : BwPort) : bwGet (bwPut s p x) q = if q = p then x else bwGet s q := by
  simp [bwGet, bwPut, tget_tset]

/-- A change of every port in turn. -/
theorem bwGet_bwAll (s : State) (g : BwPort → BwPort) (p : Nat) :
    bwGet (bwAll s g) p = if p < 69 then g (bwGet s p) else bwGet s p := by
  have hstep : ∀ n, bwGet ((List.range n).foldl (fun s p => bwPut s p (g (bwGet s p))) s) p =
      if p < n then g (bwGet s p) else bwGet s p := by
    intro n
    induction n with
    | zero => simp
    | succ n ih =>
      rw [List.range_succ, List.foldl_append]
      simp only [List.foldl_cons, List.foldl_nil, bwGet_bwPut_ite, ih]
      by_cases h : p = n
      · subst h
        have hrun : ∀ m, m ≤ p → bwGet ((List.range m).foldl (fun s p => bwPut s p (g (bwGet s p))) s) p = bwGet s p := by
          intro m hm
          induction m with
          | zero => rfl
          | succ m ihm =>
            rw [List.range_succ, List.foldl_append]
            simp only [List.foldl_cons, List.foldl_nil, bwGet_bwPut_ite]
            rw [if_neg (by omega), ihm (by omega)]
        simp [hrun p (Nat.le_refl _)]
      · simp [h, show p < n + 1 ↔ p < n by omega]
  exact hstep 69

/-- It changes the ports alone. -/
theorem bwAll_eq (s : State) (g : BwPort → BwPort) : ∃ b, bwAll s g = { s with cnt := { s.cnt with bw := b } } := by
  unfold bwAll
  generalize List.range 69 = l
  induction l generalizing s with
  | nil => exact ⟨s.cnt.bw, rfl⟩
  | cons p l ih =>
    obtain ⟨b, h⟩ := ih (bwPut s p (g (bwGet s p)))
    exact ⟨b, h⟩

theorem bwAll_frame (s : State) (g : BwPort → BwPort) : (bwAll s g).regs = s.regs ∧ (bwAll s g).tcxo = s.tcxo ∧
    (bwAll s g).cnt.val = s.cnt.val := by
  obtain ⟨b, h⟩ := bwAll_eq s g
  rw [h]
  exact ⟨rfl, rfl, rfl⟩

/-- A port whose window starts anew (R523). -/
def newWindow (x : BwPort) : BwPort := { x with rx := 0, tx := 0 }

theorem newWindow_eq : newWindow = fun x => { x with rx := 0, tx := 0 } := rfl

/-- A port at its window's end: what it passed is its last window (R523). -/
def closedWindow (x : BwPort) : BwPort :=
  { x with lastRx := x.rx, lastTx := x.tx, rx := 0, tx := 0, seq := x.seq + 1, done := true }
theorem closedWindow_eq : closedWindow =
    fun x => { x with lastRx := x.rx, lastTx := x.tx, rx := 0, tx := 0, seq := x.seq + 1, done := true } := rfl

/-- What the last completed window of a port was. -/
theorem bwGet_writeSeen (s : State) (p : Nat) : ∃ rx tx, bwGet (writeSeen s) p = { bwGet s p with rx := rx, tx := tx } := by
  have hlink : ∃ tx, bwGet (linkUp s) p = { bwGet s p with tx := tx } := by
    by_cases hl : s.host.posted.isEmpty = true
    · exact ⟨(bwGet s p).tx, by simp [bwGet, linkUp, hl]⟩
    · have hb : bwGet (linkUp s) p = bwGet (bwTx s 66 (s.host.posted.map fun p => p.2.1.length).sum) p := by
        simp [bwGet, linkUp, hl]
      rw [hb, bwTx, bwGet_bwPut_ite]
      by_cases hp : p = 66
      · subst hp
        exact ⟨_, if_pos rfl⟩
      · exact ⟨_, if_neg hp⟩
  obtain ⟨tx, h⟩ := hlink
  rw [writeSeen, bwRx, bwGet_bwPut_ite]
  by_cases hp : p = 66
  · subst hp
    rw [if_pos rfl, h]
    exact ⟨_, tx, rfl⟩
  · rw [if_neg hp, h]
    exact ⟨_, tx, rfl⟩

theorem regWrite_bwSel (s : State) (v : Word) :
    regWrite s 0x904 v = regPut s 0x904 (setFld (regGet s 0x904) 0 7 (fld v 0 7)) := by
  have hlt := fld_lt v 0 7
  exact regWrite_stored regRow_bwSel (writeFlds_one rfl (Nat.zero_le _) (by simp only [rw]; omega) rfl)

theorem regWrite_bwWindow {s : State} {v : Word} (h1 : 1 ≤ fld v 0 14) (h2 : fld v 0 14 ≤ 10000) :
    regWrite s 0x900 v = regPut s 0x900 (setFld (regGet s 0x900) 0 14 (fld v 0 14)) :=
  regWrite_stored regRow_bwWindow (writeFlds_one rfl h1 h2 rfl)

/-! ## Samplers (18 R521) -/

theorem barWrite_sampler {n : Nat} (s : State) (v : Word) (h : n < 8) :
    barWrite s (0x800 + 0x20 * n) v = samplerCfg s n v := by
  obtain rfl | rfl | rfl | rfl | rfl | rfl | rfl | rfl : n = 0 ∨ n = 1 ∨ n = 2 ∨ n = 3 ∨ n = 4 ∨ n = 5 ∨ n = 6 ∨ n = 7 := by
    omega
  all_goals rfl

/-- A sampler's CTRL word takes its three fields. -/
theorem regWrite_sampler {s : State} {n : Nat} {v : Word} (h : n < 8) :
    ∃ w, regWrite s (0x800 + 0x20 * n) v = regPut s (0x800 + 0x20 * n) w ∧ wbit w 31 = wbit v 31 := by
  have h1 := fld_lt v 0 9
  have h2 := fld_lt v 16 7
  have h3 := fld_lt v 31 1
  refine ⟨setFld (setFld (setFld (regGet s (0x800 + 0x20 * n)) 0 9 (fld v 0 9)) 16 7 (fld v 16 7)) 31 1 (fld v 31 1),
    regWrite_stored (regRow_sampler h) ?_, ?_⟩
  · have hacc : ∀ (f : Fld) (old : Nat) (acc : Word), f.acc = .rw → f.min = 0 → fld v f.lo f.len ≤ f.max →
        fldIgnores (wbit (regGet s 0) 32) false 0x800 f old (fld v f.lo f.len) acc = none := fun f old acc ha hmin hmax =>
      fldIgnores_rw ha (hmin ▸ Nat.zero_le _) hmax rfl
    have hf1 := fun old acc => hacc (rw 0 9 0) old acc rfl rfl (by simp only [rw]; omega)
    have hf2 := fun old acc => hacc (rw 16 7 0) old acc rfl rfl (by simp only [rw]; omega)
    have hf3 := fun old acc => hacc (rw 31 1 0) old acc rfl rfl (by simp only [rw]; omega)
    simp only [writeFlds, gateHeld, hf1, hf2, hf3]
    rfl
  · rw [wbit, fld_setFld_fld _ _ _ _ (by decide), wbit]

/-! ## What the four rows leave -/

theorem barWrite_bwSel (s : State) (v : Word) : barWrite s 0x904 v = bwSel s v := by simp [barWrite, inHostBlock]
theorem barWrite_bwWindow (s : State) (v : Word) : barWrite s 0x900 v = bwWindowMs s v := by
  simp [barWrite, inHostBlock]

theorem bwSelWrite_copies (s : State) (v : Word) (ha : awake s = true) :
    ∃ t p, exec (.bwSelWrite v) s = .next t ∧ p = fld v 0 7 ∧ regFld t 0x904 0 7 = p ∧
      (p ≤ 68 → t.cnt.copy = ⟨(bwGet s p).lastRx, (bwGet s p).lastTx, (bwGet s p).seq, (bwGet s p).done⟩) ∧
      (68 < p → t.cnt.copy = ⟨0, 0, 0, false⟩) := by
  have hrow := exec_bwSelWrite v s ha
  rw [hostWrite_word s 0x904 v rfl, barWrite_bwSel] at hrow
  have hreg : ∀ u : State, regFld (regWrite u 0x904 v) 0x904 0 7 = fld v 0 7 := fun u => by
    rw [regFld, regWrite_bwSel, regGet_regPut, fld_setFld_fld _ _ _ _ (by decide)]
  have hget : bwGet (regWrite (writeSeen s) 0x904 v) (fld v 0 7) = bwGet (writeSeen s) (fld v 0 7) := by
    rw [regWrite_bwSel]; rfl
  obtain ⟨rx, tx, hport⟩ := bwGet_writeSeen s (fld v 0 7)
  simp only [bwSel, hreg, hget, hport] at hrow
  refine ⟨_, _, hrow, rfl, ?_, fun hp => ?_, fun hp => ?_⟩
  · rw [regFld, wmUpdate_regGet]
    exact hreg (writeSeen s)
  · rw [wmUpdate_cnt]
    exact if_neg (Nat.not_lt.mpr hp)
  · rw [wmUpdate_cnt]
    exact if_pos hp

/-- Windows that begin now (R523). -/
def stampWindows (s : State) : State := { s with cnt := { s.cnt with bwStart := s.tcxo } }

theorem stampWindows_cnt (s : State) : (wmUpdate (stampWindows s)).cnt.bwStart = s.tcxo ∧
    (wmUpdate (stampWindows s)).cnt.val = s.cnt.val ∧ ∀ p, bwGet (wmUpdate (stampWindows s)) p = bwGet s p :=
  ⟨rfl, rfl, fun _ => rfl⟩

theorem bwWindowMs_eq {s : State} {v : Word} (h1 : 1 ≤ fld v 0 14) (h2 : fld v 0 14 ≤ 10000) : bwWindowMs s v =
    stampWindows (bwAll (regPut s 0x900 (setFld (regGet s 0x900) 0 14 (fld v 0 14))) newWindow) := by
  rw [bwWindowMs, if_pos ⟨h1, h2⟩, regWrite_bwWindow h1 h2, ← newWindow_eq]
  generalize bwAll _ newWindow = b
  rfl

theorem bwWindowMsWrite_restarts (s : State) (v : Word) (ha : awake s = true) (h1 : 1 ≤ fld v 0 14)
    (h2 : fld v 0 14 ≤ 10000) :
    ∃ t, exec (.bwWindowMsWrite v) s = .next t ∧ regFld t 0x900 0 14 = fld v 0 14 ∧ t.cnt.bwStart = s.tcxo ∧
      ∀ p, p < 69 → (bwGet t p).rx = 0 ∧ (bwGet t p).tx = 0 ∧ (bwGet t p).lastRx = (bwGet s p).lastRx := by
  have hrow := exec_bwWindowMsWrite v s ha
  rw [hostWrite_word s 0x900 v rfl, barWrite_bwWindow, bwWindowMs_eq h1 h2] at hrow
  generalize hu : regPut (writeSeen s) 0x900 (setFld (regGet (writeSeen s) 0x900) 0 14 (fld v 0 14)) = u at hrow
  have hreg : regGet u 0x900 = setFld (regGet (writeSeen s) 0x900) 0 14 (fld v 0 14) := by rw [← hu, regGet_regPut]
  have hu' : u.tcxo = s.tcxo ∧ ∀ p, bwGet u p = bwGet (writeSeen s) p := by
    rw [← hu]
    exact ⟨by simp [writeSeen], fun p => rfl⟩
  obtain ⟨hregs, htcxo, -⟩ := bwAll_frame u newWindow
  obtain ⟨hstart, -, hports⟩ := stampWindows_cnt (bwAll u newWindow)
  refine ⟨_, hrow, ?_, by rw [hstart, htcxo, hu'.1], fun p hp => ?_⟩
  · rw [regFld, wmUpdate_regGet, regGet, stampWindows, hregs, ← regGet, hreg, fld_setFld_fld _ _ _ _ (by decide)]
  · obtain ⟨rx, tx, hport⟩ := bwGet_writeSeen s p
    rw [hports, bwGet_bwAll, if_pos hp, hu'.2, hport]
    exact ⟨rfl, rfl, rfl⟩

theorem bwWindowEnd_eq {s : State} (h : msPassed s s.cnt.bwStart (regFld s 0x900 0 14) = true) : bwWindowEnd s =
    stampWindows (bwPut (takeFree (bwAll s closedWindow)).2 67
      (bwDram (takeFree (bwAll s closedWindow)).1 (bwGet (takeFree (bwAll s closedWindow)).2 67))) := by
  rw [bwWindowEnd, if_pos h, ← closedWindow_eq]
  generalize bwAll s closedWindow = b
  rfl

/-- The DRAM port's window: its totals are free (log entry 41). -/
theorem bwPut_dram (s : State) (n : Nat) : ∃ t x, bwPut (takeFree s).2 67 (bwDram n (bwGet (takeFree s).2 67)) = t ∧
    t.tcxo = s.tcxo ∧ t.cnt.val = s.cnt.val ∧ (x.rx = (bwGet s 67).rx ∧ x.tx = (bwGet s 67).tx ∧
      x.seq = (bwGet s 67).seq ∧ x.done = (bwGet s 67).done) ∧ ∀ p, bwGet t p = if p = 67 then x else bwGet s p :=
  ⟨_, bwDram n (bwGet s 67), rfl, rfl, rfl, ⟨rfl, rfl, rfl, rfl⟩, fun p => bwGet_bwPut_ite _ 67 p _⟩

theorem bwWindowEnd_closes (s : State) (ha : awake s = true)
    (hend : msPassed s s.cnt.bwStart (regFld s 0x900 0 14) = true) :
    ∃ t, exec .bwWindowEnd s = .next t ∧ t.cnt.bwStart = s.tcxo ∧ t.cnt.val = s.cnt.val ∧
      (bwGet t 67).rx = 0 ∧ (bwGet t 67).tx = 0 ∧ (bwGet t 67).seq = (bwGet s 67).seq + 1 ∧ (bwGet t 67).done = true ∧
      ∀ p, p < 69 → p ≠ 67 → bwGet t p = closedWindow (bwGet s p) := by
  have hrow := exec_bwWindowEnd s ha
  rw [bwWindowEnd_eq hend] at hrow
  obtain ⟨-, htcxo, hval⟩ := bwAll_frame s closedWindow
  have hport : ∀ p, p < 69 → bwGet (bwAll s closedWindow) p = closedWindow (bwGet s p) := fun p hp => by
    rw [bwGet_bwAll, if_pos hp]
  obtain ⟨u, x, hu, hutcxo, huval, ⟨hrx, htx, hseq, hdone⟩, hget⟩ :=
    bwPut_dram (bwAll s closedWindow) (takeFree (bwAll s closedWindow)).1
  rw [hu] at hrow
  rw [hport 67 (by decide)] at hrx htx hseq hdone
  obtain ⟨hstart, hv, hports⟩ := stampWindows_cnt u
  refine ⟨_, hrow, by rw [hstart, hutcxo, htcxo], by rw [hv, huval, hval], ?_⟩
  simp only [hports, hget, if_true]
  exact ⟨hrx, htx, hseq, hdone, fun p hp hne => by rw [if_neg hne, hport p hp]⟩

theorem samplerArm_arms (s : State) (n : Nat) (v : Word) (ha : awake s = true) (hn : n < 8)
    (hwas : wbit (regGet s (0x800 + 0x20 * n)) 31 = false) (hv : wbit v 31 = true) :
    ∃ t, exec (.samplerArm n v) s = .next t ∧ (smpGet t n).since = 0 ∧
      (smpGet t n).thresh = regGet s (0x804 + 0x20 * n) ∧ (∀ m, m ≠ n → smpGet t m = smpGet s m) ∧
      wbit (regGet t (0x800 + 0x20 * n)) 31 = true := by
  have hrow := exec_samplerArm n v s ha
  obtain ⟨w, hw, hbit⟩ := regWrite_sampler (s := writeSeen s) (v := v) hn
  rw [hostWrite_word s _ v (by omega), barWrite_sampler _ v hn, samplerCfg, writeSeen_regGet, hwas, hv, hw] at hrow
  have hne : 0x804 + 0x20 * n ≠ 0x800 + 0x20 * n := by omega
  have hsmp : ∀ m, smpGet (regPut (writeSeen s) (0x800 + 0x20 * n) w) m = smpGet s m := fun m => by simp [writeSeen]
  refine ⟨_, hrow, ?_, ?_, fun m hm => ?_, ?_⟩
  · simp [smpGet, smpPut]
  · simp [smpGet, smpPut, regGet_regPut_ne _ _ _ _ hne]
  · rw [wmUpdate_smpGet]
    exact (tget_tset_other _ _ _ _ _ hm).trans (hsmp m)
  · simp [hbit, hv]

end Sys2Proof.Machine
end

section
open Sys2Proof Sys2Proof.Machine Sys2Proof.Safety

/-- Settles O25: each clear bit acts on one field, and a role's word takes ROLE while its gate is open. -/
theorem clearAndRoleWrites : Obligations.ClearAndRoleWrites := by
  intro s v ha
  refine ⟨fun hv => ?kl, fun hv => ⟨?pace, ?inflight, ?hold⟩, fun g hg hopen => ?stored, fun g hg hheld => ?kept⟩
  case kl =>
    have hrow := exec_klCtrlClear v s ha
    rw [hostWrite_word s 0x4020 v rfl, show barWrite (writeSeen s) 0x4020 v = klCtrl (writeSeen s) v from rfl, klCtrl,
      if_pos hv] at hrow
    exact ⟨_, hrow, rfl, by simp [klZero, writeSeen], by simp [klZero]⟩
  case pace =>
    have hrow := exec_pacePeakClear v s ha
    rw [hostWrite_word s 0x14 v rfl, show barWrite (writeSeen s) 0x14 v = paceClr (writeSeen s) v from rfl, paceClr,
      if_pos hv] at hrow
    exact ⟨_, hrow, by simp [writeSeen], by simp⟩
  case inflight =>
    have hrow := exec_inflightPeakClear v s ha
    rw [hostWrite_word s 0x1004 v rfl, show barWrite (writeSeen s) 0x1004 v = inflightClr (writeSeen s) v from rfl,
      inflightClr, if_pos hv] at hrow
    exact ⟨_, hrow, by simp [writeSeen, inflight, inflightCount], by simp⟩
  case hold =>
    have hrow := exec_holdPeakClear v s ha
    rw [hostWrite_word s 0x30C v rfl, show barWrite (writeSeen s) 0x30C v = holdClr (writeSeen s) v from rfl, holdClr,
      if_pos hv] at hrow
    exact ⟨_, hrow, by simp [writeSeen, holdUsed], by simp⟩
  case stored =>
    have hrow := exec_chgRoleWrite g v s ha
    rw [hostWrite_word s _ v (by omega), barWrite_role _ v hg, role_open hg (by rw [gateHeld_role, hopen])] at hrow
    refine ⟨_, hrow, ?_, fun o ho => ?_⟩
    · rw [wmUpdate_regGet, regGet_regPut, fld_setFld_fld _ _ _ _ (by decide)]
    · rw [wmUpdate_regGet, regGet_regPut_ne _ _ _ _ ho, writeSeen_regGet]
  case kept =>
    have hrow := exec_chgRoleWrite g v s ha
    rw [hostWrite_word s _ v (by omega), barWrite_role _ v hg] at hrow
    exact ⟨_, hrow, by rw [wmUpdate_regGet, role_held hg (by rw [gateHeld_role, hheld]), writeSeen_regGet]⟩

/-- Settles O27: the selected port's copy, the windows and a sampler's arming are each one change of the counter block. -/
theorem windowsAndSamplers : Obligations.WindowsAndSamplers :=
  ⟨bwSelWrite_copies, bwWindowMsWrite_restarts, bwWindowEnd_closes, samplerArm_arms⟩

end

section
/-!
# Reading delivery, and the Function Level Reset (02 R45, R75, R77)

The record and the tail word are the only bytes a delivery writes; a Function Level Reset filters the register bank by the
host block and drops the rings.
-/
namespace Sys2Proof.Machine
open Sys2Proof Sys2Proof.Safety

/-! ## Host memory -/

theorem memRead_congr {m m' : Tab Byte} {a n : Nat} (h : ∀ x, a ≤ x → x < a + n → memByte m x = memByte m' x) :
    memRead m a n = memRead m' a n := by
  induction n generalizing a with
  | zero => rfl
  | succ n ih =>
    simp only [memRead]
    rw [h a (by omega) (by omega), ih fun x hx hx' => h x (by omega) (by omega)]

theorem recordBytes_length (r : ReadRec) : (recordBytes r).length = 128 := by
  simp only [recordBytes, recordHead, List.length_append, leBytes_length, List.length_cons, List.length_nil,
    List.length_range, flatten_map_length fun i => leBytes_length 4 (tget 0 r.delta i).toNat]

/-! ## Delivery of a record (R75) -/

/-- Where the next record of a ring goes. -/
def recordPlace (s : State) (r : Nat) : Nat :=
  (regGet s (0x2400 + 0x20 * r)).toNat + 2 ^ 32 * (regGet s (0x2404 + 0x20 * r)).toNat +
    128 * ((rrGet s r).w.toNat % rrSize s r)

/-- Where the tail of a ring stands in host memory. -/
def tailPlace (s : State) (r : Nat) : Nat :=
  (regGet s (0x2408 + 0x20 * r)).toNat + 2 ^ 32 * (regGet s (0x240C + 0x20 * r)).toNat

/-- The ring that a record is written into keeps its grant and counts one more written. -/
def RecordStands (s t : State) (r : Nat) (d : Deliv) : Prop :=
  (rrGet t r).w = (rrGet s r).w + 1 ∧ (rrGet t r).g = (rrGet s r).g ∧ (∀ e ∈ t.host.deliv, e.id ≠ d.id) ∧
    t.harn.served = s.harn.served ∧ t.regs = s.regs

theorem arbTake_eq (s : State) (a c : Nat) : ∃ b, arbTake s a c = { s with glob := { s.glob with arb := b } } := by
  unfold arbTake
  split
  · exact ⟨s.glob.arb, rfl⟩
  · exact ⟨_, rfl⟩

theorem recordWrite_up {s : State} (hup : s.host.linkDown = false) (r : Nat) (d : Deliv) :
    RecordStands s (recordWrite s r d) r d ∧ (recordWrite s r d).host.linkDown = false ∧
      (recordWrite s r d).hostMem = memWrite s.hostMem (recordPlace s r) (recordBytes d.rd) := by
  obtain ⟨c, w, hmem⟩ := hostWriteData_up hup (recordPlace s r) (recordBytes d.rd)
  have hmem' := hmem
  rw [recordPlace] at hmem'
  simp only [recordWrite, hmem', RecordStands, recordPlace]
  simp [hup, rrGet, rrPut]

theorem hostMem_tailWriteBack {s : State} (hup : s.host.linkDown = false) (r : Nat) (last : Bool) (a : Nat)
    (ha : a < tailPlace s r ∨ tailPlace s r + 4 ≤ a) :
    memByte (tailWriteBack s r last).hostMem a = memByte s.hostMem a := by
  unfold tailWriteBack
  dsimp only
  split
  · rfl
  · obtain ⟨c, w, hmem⟩ := hostWriteMem_up hup (tailPlace s r) (leBytes 4 (rrGet s r).w.toNat)
    rw [← tailPlace, hmem]
    have hword : memByte (memWrite s.hostMem (tailPlace s r) (leBytes 4 (rrGet s r).w.toNat)) a = memByte s.hostMem a :=
      memByte_memWrite_other _ _ _ _ (by rwa [leBytes_length])
    split
    · simpa [batchCover] using hword
    · exact hword

theorem tailWriteBack_keeps (s : State) (r : Nat) (last : Bool) : (tailWriteBack s r last).host.deliv = s.host.deliv ∧
    (tailWriteBack s r last).harn = s.harn ∧ (tailWriteBack s r last).regs = s.regs := by
  unfold tailWriteBack
  dsimp only
  split
  · exact ⟨rfl, rfl, rfl⟩
  · split <;> simp [batchCover]

/-- Completions of what a sweep finds drained change bookkeeping alone. -/
theorem rest_drainOne (s : State) (f : Flight) : rest (drainOne s f) = rest s := by
  obtain h | ⟨st, step, n, res, h⟩ := drainOne_cases s f
  · rw [h]
  · rw [h, rest_complete]

theorem rest_drainCheck (s : State) : rest (drainCheck s) = rest s := by
  rw [drainCheck_eq]
  generalize s.host.flights = l
  induction l generalizing s with
  | nil => rfl
  | cons f l ih => rw [List.foldl_cons, ih, rest_drainOne]

/-- What a takeover's refill leaves: the rings, the registers and host memory. -/
def RefillKeeps (s t : State) : Prop := t.host.rr = s.host.rr ∧ t.hostMem = s.hostMem

theorem tkoReadings_keeps (l : List (Nat × ReadRec × Option EpRec)) (s : State) : RefillKeeps s (tkoReadings l s) := by
  induction l generalizing s with
  | nil => exact ⟨rfl, rfl⟩
  | cons x l ih =>
    rw [tkoReadings]
    split
    · exact ih (tkoReading s x)
    · exact ⟨rfl, rfl⟩

theorem tkoRaw_keeps {s t : State} {x : Nat × Frame} (h : tkoRaw s x = some t) : RefillKeeps s t := by
  unfold tkoRaw at h
  dsimp only at h
  rw [Option.ite_none_left_eq_some] at h
  obtain ⟨-, h⟩ := h
  obtain rfl := Option.some.inj h
  exact ⟨rfl, rfl⟩

theorem tkoRaws_keeps (l : List (Nat × Frame)) (s : State) : RefillKeeps s (tkoRaws l s) := by
  induction l generalizing s with
  | nil => exact ⟨rfl, rfl⟩
  | cons x l ih =>
    rw [tkoRaws]
    split
    · next t h => exact ⟨(ih t).1.trans (tkoRaw_keeps h).1, (ih t).2.trans (tkoRaw_keeps h).2⟩
    · exact ⟨rfl, rfl⟩

theorem tkoRefill_keeps (s : State) : RefillKeeps s (tkoRefill s) := by
  unfold tkoRefill
  split
  · exact ⟨rfl, rfl⟩
  · have h₁ := tkoReadings_keeps s.harn.holdRd s
    have h₂ := tkoRaws_keeps s.harn.holdRaw (tkoReadings s.harn.holdRd s)
    exact ⟨h₂.1.trans h₁.1, h₂.2.trans h₁.2⟩

theorem tkoRefill_alone {s : State} (h : s.harn.served = none) : tkoRefill s = s := by simp [tkoRefill, h]

/-- A ring can take its next record only while the link is up. -/
theorem rrNext_up {s : State} {r : Nat} {d : Deliv} (h : rrNext s r = some d) : s.host.linkDown = false := by
  obtain ⟨c, -, hc⟩ := List.exists_of_findSome?_eq_some h
  split at hc
  · unfold rrReady at hc
    split at hc
    · cases hc
    · next hno =>
      simp only [Bool.or_eq_true, not_or, Bool.not_eq_true] at hno
      exact hno.1.2
  · cases hc

/-! ## The Function Level Reset (R45) -/

theorem tget_filter_keep {α : Type} (d : α) (p : Nat → Bool) (t : Tab α) (i : Nat) :
    tget d (t.filter fun x => p x.1) i = if p i then tget d t i else d := by
  induction t with
  | nil => simp [tget]
  | cons x t ih =>
    obtain ⟨k, v⟩ := x
    by_cases hk : p k = true
    · rw [List.filter_cons, if_pos hk, tget, tget, ih]
      by_cases hi : i = k
      · simp [hi, hk]
      · simp [hi]
    · rw [List.filter_cons, if_neg hk, ih, tget]
      by_cases hi : i = k
      · simp [hi, hk]
      · simp [hi]

/-- What an in-flight completion that will not come leaves: its journal entry closed, all else as it was (R45). -/
theorem discardJrnl_frame (s : State) : (discardJrnl s).regs = s.regs ∧ (discardJrnl s).host.rr = s.host.rr ∧
    (discardJrnl s).host.deliv = s.host.deliv ∧ (discardJrnl s).hostMem = s.hostMem ∧
    (discardJrnl s).recs.tab = s.recs.tab ∧ (discardJrnl s).keys = s.keys ∧ (discardJrnl s).funcs = s.funcs := by
  unfold discardJrnl
  generalize waitingCpls s = l
  induction l generalizing s with
  | nil => exact ⟨rfl, rfl, rfl, rfl, rfl, rfl, rfl⟩
  | cons c l ih =>
    rw [List.foldl_cons]
    simpa using ih (jrnlMod s c.uid fun e => { e with progress := c.progress, status := c.status, jstate := 3 })

end Sys2Proof.Machine
end

section
open Sys2Proof Sys2Proof.Machine Sys2Proof.Safety

/-- Settles O21: the record goes to its place and the tail word after it; nothing else of host memory moves. -/
theorem readingDelivered : Obligations.ReadingDelivered := by
  intro s r d ha hnext
  have hup := rrNext_up hnext
  obtain ⟨b, harb⟩ := arbTake_eq s 6 d.cls
  have hrow := exec_readingDelivery r s ha
  simp only [readingDelivery, hnext] at hrow
  obtain ⟨hstands, hup', hmem⟩ := recordWrite_up (s := arbTake s 6 d.cls) (by rw [harb]; exact hup) r d
  have hplace : recordPlace (arbTake s 6 d.cls) r = recordPlace s r := by rw [harb]; rfl
  have hmem0 : (arbTake s 6 d.cls).hostMem = s.hostMem := by rw [harb]
  have hrec0 : RecordStands s (recordWrite (arbTake s 6 d.cls) r d) r d := by
    rw [RecordStands, harb] at hstands
    rw [RecordStands, harb]
    exact hstands
  rw [hplace, hmem0] at hmem
  generalize recordWrite (arbTake s 6 d.cls) r d = u at *
  obtain ⟨hw, hg, hdel, hserved, hregs⟩ := hrec0
  have htail : tailPlace u r = tailPlace s r := by simp only [tailPlace, regGet, hregs]
  -- The state before a takeover's refill: with the tail written back or without it.
  obtain ⟨x, hx, hxrr, hxdel, hxserved, hxmem⟩ : ∃ x, exec (.readingDelivery r) s = .next (wmUpdate (tkoRefill x)) ∧
      ((rrGet x r).w = (rrGet s r).w + 1 ∧ (rrGet x r).g = (rrGet s r).g) ∧ x.host.deliv = u.host.deliv ∧
      x.harn.served = s.harn.served ∧
      ∀ a, (a < tailPlace s r ∨ tailPlace s r + 4 ≤ a) → memByte x.hostMem a = memByte u.hostMem a := by
    split at hrow
    · have hend := rest_drainCheck (tailWriteBack u r (!rrMore u r))
      obtain ⟨hd, hh, -⟩ := tailWriteBack_keeps u r (!rrMore u r)
      obtain ⟨-, -, hrr⟩ := tailWriteBack_frame u r (!rrMore u r)
      obtain ⟨⟨k, l, hk⟩, -⟩ := hrr r
      refine ⟨_, hrow, ?_, (congrArg (·.host.deliv) hend).trans hd, ?_, fun a hout => ?_⟩
      · rw [endRest_rrGet (endRest_of_rest hend), hk]
        exact ⟨hw, hg⟩
      · exact (congrArg (·.harn.served) hend).trans ((congrArg (·.served) hh).trans hserved)
      · rw [show (drainCheck (tailWriteBack u r (!rrMore u r))).hostMem = _ from congrArg (·.hostMem) hend]
        exact hostMem_tailWriteBack hup' r _ a (by rwa [htail])
    · exact ⟨u, hrow, ⟨hw, hg⟩, rfl, hserved, fun _ _ => rfl⟩
  obtain ⟨hkrr, hkmem⟩ := tkoRefill_keeps x
  refine ⟨_, _, _, hx, rfl, rfl, ?_, ?_, fun hs e he => ?_, fun hsep => ?_, fun a hbase hout => ?_⟩
  · rw [wmUpdate_rrGet, rrGet, hkrr, ← rrGet, hxrr.1]
  · rw [wmUpdate_rrGet, rrGet, hkrr, ← rrGet, hxrr.2]
  · rw [wmUpdate_host, tkoRefill_alone (hxserved.trans hs), hxdel] at he
    exact hdel e he
  · have hread : memRead u.hostMem (recordPlace s r) 128 = recordBytes d.rd := by
      rw [hmem, ← recordBytes_length d.rd]
      exact memRead_memWrite _ _ _
    rw [wmUpdate_hostMem, hkmem]
    refine (memRead_congr fun a h₁ h₂ => hxmem a ?_).trans hread
    rw [← recordPlace, ← tailPlace] at *
    omega
  · rw [wmUpdate_hostMem, hkmem, hxmem a hout, hmem]
    exact memByte_memWrite_other _ _ _ _ (by rw [recordBytes_length]; exact hbase)

/-- Settles O22: the bank filtered by the host block, and the host's rings, masks and descriptors dropped. -/
theorem functionLevelResetClearsHostBlock : Obligations.FunctionLevelResetClearsHostBlock := by
  intro s ha
  obtain ⟨hregs, hrr, hdel, hmem, htab, hkeys, hfuncs⟩ := discardJrnl_frame (linkUp s)
  have hunc : uncovered (discardJrnl (linkUp s)) = uncovered s := by
    simp only [uncovered, hrr, linkUp_host_rr]
  have hreg : ∀ off, regGet (wmUpdate (functionLevelReset (linkUp s))) off =
      (if !inHostBlock off then tget 0 s.regs off else 0) ^^^ resetWord off := fun off => by
    rw [wmUpdate_regGet, regGet, functionLevelReset]
    dsimp only
    rw [hregs, linkUp_regs, tget_filter_keep 0 fun o => !inHostBlock o]
  refine ⟨_, exec_functionLevelReset s ha, fun off h => ?_, fun off h => ?_, fun q => ⟨rfl, rfl, rfl⟩,
    fun v => ⟨rfl, rfl⟩, fun f hf => ?_, ?_, rfl, rfl, rfl, hmem, by rw [← linkUp_recs s, ← htab]; rfl,
    by rw [← linkUp_keys s, ← hkeys]; rfl, by rw [← linkUp_funcs s, ← hfuncs]; rfl⟩
  · rw [hreg, h]
    simp
  · rw [hreg, h]
    rfl
  · simp only [wmUpdate_host, functionLevelReset, List.mem_map] at hf
    obtain ⟨g, -, rfl⟩ := hf
    rfl
  · simp [functionLevelReset, hunc, hdel]

end

section
/-!
# The Firn log: records written, tokens, reads and the clear (17 R505 to R511)

Each form of a record is one commit; the clear is one commit into an emptied log. Bytes a command hands out go through one
lemma, `wrote_complete`.
-/
namespace Sys2Proof.Machine
open Sys2Proof Sys2Proof.Safety

/-! ## What a command hands out -/

/-- Bytes written to the buffer before the completion are what the buffer holds after it, and nothing else moves. -/
theorem wrote_complete {s : State} (hup : s.host.linkDown = false) (f : Flight) (bs : List Byte) (st p n : Nat)
    (r : BitVec 128) : Wrote s (wmUpdate (complete (writeBuf s f bs) f st p n r)) (dBufAddr f.raw) bs := by
  obtain ⟨c, w, h⟩ := writeBuf_up hup f bs
  have hmem : (wmUpdate (complete (writeBuf s f bs) f st p n r)).hostMem = memWrite s.hostMem (dBufAddr f.raw) bs := by
    rw [wmUpdate_hostMem, complete_hostMem, h]
  rw [Wrote, hmem]
  exact ⟨memRead_memWrite _ _ _, fun x hx => memByte_memWrite_other _ _ _ _ hx⟩

/-- The completion after such a write stands on the ring as it was. -/
theorem completed_writeBuf {s : State} {f : Flight} (hd : f.discard = false) (bs : List Byte) (st p n : Nat)
    (r : BitVec 128) : Completed s (wmUpdate (complete (writeBuf s f bs) f st p n r)) f st p n r := by
  refine completed_of s _ f st p n r hd ?_
  obtain ⟨c, q, w, h⟩ := hostWriteData_eq s (dBufAddr f.raw) bs
  rw [writeBuf, h]
  rfl

/-! ## Unused fields -/

/-- A span of zero bytes is unused. -/
theorem spanSet_none {raw : BitVec 512} {lo n : Nat} (h : dByte raw lo n = 0) : spanSet raw lo n = none := by
  induction n generalizing lo with
  | zero => rfl
  | succ n ih =>
    have hsplit : dByte raw lo (n + 1) = dByte raw lo 1 + 2 ^ 8 * dByte raw (lo + 1) n := by
      simp only [dByte, Nat.mul_add, Nat.mul_one, Nat.pow_add, ← Nat.div_div_eq_div_mul]
      rw [Nat.mul_comm (2 ^ (8 * n)), Nat.mod_mul]
    have h1 : dByte raw lo 1 = 0 := by omega
    have hn : dByte raw (lo + 1) n = 0 := by omega
    rw [spanSet, if_pos h1, ih hn]

theorem ifUnused_clear {s : State} {f : Flight} {lo n : Nat} (h : dByte f.raw lo n = 0) (k : State) :
    ifUnused s f [(lo, n)] k = k := by
  simp [ifUnused, spanSet_none h]

/-! ## Records of the log (R506, R508, R511) -/

section
variable (s : State) (ev : LogEv)

theorem logCommit_log : (logCommit s ev).log.recs = s.log.recs ++ [logForm s ev false] ∧
    (logCommit s ev).log.next = s.log.next + 1 ∧ (logCommit s ev).log.reserve = s.log.reserve ∧
    (logCommit s ev).log.dropped = s.log.dropped ∧ (logCommit s ev).log.queue = s.log.queue ∧
    (logCommit s ev).log.full = decide (16384 ≤ s.log.recs.length + 1) ∧ (logCommit s ev).log.held = s.log.held ∧
    (logCommit s ev).log.mediaFault = s.log.mediaFault ∧ (logCommit s ev).host.cq = s.host.cq := by
  simp [logCommit]

theorem logReserve_room (h : s.log.reserve.length < 16) :
    (logReserve s ev).log.reserve = s.log.reserve ++ [logForm s ev true] ∧
    (logReserve s ev).log.next = s.log.next + 1 := by
  simp [logReserve, h]

theorem logReserve_log : (logReserve s ev).log.recs = s.log.recs ∧ (logReserve s ev).log.queue = s.log.queue ∧
    (logReserve s ev).log.mediaFault = s.log.mediaFault ∧ (logReserve s ev).host.cq = s.host.cq := by
  by_cases h : s.log.reserve.length < 16 <;> simp [logReserve, h]

end

/-- The state in which the event at the head has left the write queue. -/
def logTaken (s : State) (l : List LogEv) : State := { s with log := { s.log with queue := l } }

theorem logRecordWrite_head {s : State} {ev : LogEv} {l : List LogEv} (hh : s.log.held = false)
    (hq : s.log.queue = ev :: l) (ok : Bool) : logRecordWrite s ok =
      if s.log.mediaFault then logReserve (logTaken s l) ev
      else if s.log.full then { logTaken s l with log := { (logTaken s l).log with dropped := satInc s.log.dropped } }
      else if ok then logCommit (logTaken s l) ev
      else logMediaFault (logCommit (logTaken s l) ev) := by
  rw [logRecordWrite, if_neg (by simp [hh]), hq]
  rfl

theorem logMediaFault_log (s : State) : (logMediaFault s).log.recs = s.log.recs.dropLast ∧
    (logMediaFault s).log.queue = s.log.queue ∧ (logMediaFault s).log.mediaFault = true := by
  obtain ⟨h1, h2, h3, -⟩ := logReserve_log
    { s with log := { s.log with recs := s.log.recs.dropLast, mediaFault := true } }
    (logOwn { s with log := { s.log with recs := s.log.recs.dropLast, mediaFault := true } } 0x0002
      ((s.log.recs.length - 1) * 2 ^ 32))
  exact ⟨h1, h2, h3⟩

/-! ## The clear (R509) -/

/-- The log emptied, before its own record goes in. -/
def logEmptied (s : State) (through : Word) (ok : Bool) : State :=
  { s with log := { s.log with recs := [], reserve := [], next := through + 1, full := false, dropped := 0,
                               held := false, mediaFault := !ok } }

def clearEvent (s : State) (through : Word) : LogEv :=
  logOwn s 0x0001 (through.toNat + 2 ^ 32 * s.log.dropped.toNat)

theorem logCleared_ok (s : State) (through : Word) : ∃ t r, logCleared s through true = t ∧ t.log.recs = [r] ∧
    r.ev.code = 1 ∧ r.seq = through + 1 ∧ t.log.reserve = [] ∧ t.log.dropped = 0 ∧ t.log.held = false ∧
    t.log.full = false ∧ t.log.mediaFault = false ∧ t.host.cq = s.host.cq := by
  have hrow : logCleared s through true = logCommit (logEmptied s through true) (clearEvent s through) := by
    rw [logCleared, if_pos rfl]
    rfl
  obtain ⟨e1, -, e3, e4, -, e6, e7, e8, hcq⟩ := logCommit_log (logEmptied s through true) (clearEvent s through)
  exact ⟨_, _, hrow, e1, rfl, rfl, e3, e4, e7, e6, e8, hcq⟩

theorem logCleared_fault {s : State} (through : Word) (h : s.log.mediaFault = true) : ∃ t r,
    logCleared s through false = t ∧ t.log.recs = [] ∧ t.log.reserve = [r] ∧ r.ev.code = 1 ∧ t.log.mediaFault = true ∧
      t.host.cq = s.host.cq := by
  have hrow : logCleared s through false = logReserve (logEmptied s through false) (clearEvent s through) := by
    rw [logCleared, if_neg (by decide), if_pos h]
    rfl
  obtain ⟨e1, -, e3, hcq⟩ := logReserve_log (logEmptied s through false) (clearEvent s through)
  obtain ⟨e2, -⟩ := logReserve_room (logEmptied s through false) (clearEvent s through) (Nat.zero_lt_succ _)
  exact ⟨_, _, hrow, e1, e2, rfl, e3, hcq⟩

/-- The SEQ to ask for next (R510). -/
def logNextSeq (from_ : Nat) (out : List LogRec) : Nat := match out.getLast? with | some r => r.seq.toNat + 1 | none => from_

/-- The records a read hands out. -/
def logReadOut (s : State) (f : Flight) : List LogRec := (logFrom s (dByte f.raw 28 4)).take (dBufLen f.raw / 32)

section
variable {s : State} {u : Nat} {f : Flight} (hr : runnable s u 0x91 = some f) (hs : stateShut s u = false)
include hr hs

theorem logReadClear_run (h1 : dByte f.raw 24 1 = 1) (h12 : dByte f.raw 8 12 = 0) (hst : f.stage = .none) (ok : Bool) :
    logReadClear s u ok =
      if wbit (regGet s 0xC000) 24 = false then badParam s f 24
      else if BitVec.ofNat 32 (dByte f.raw 28 4) + 1 ≠ s.log.next then badParam s f 28
      else if s.host.flights.any fun g => dOpcode g.raw == 0x91 && decide (g.uid < u) && !g.ended then
        flightPut { s with log := { s.log with held := true } } { f with stage := .wait s.tcxo 0 0 }
      else
        let t := logCleared s (BitVec.ofNat 32 (dByte f.raw 28 4)) ok
        complete t f (if t.log.mediaFault then stFault else stOk) 0 0 0 := by
  rw [logReadClear, withSub_run s u 0x91 24 1 _ _ f hr hs h1]
  simp [h1, hst, ifUnused_clear h12]

theorem logReadRead_run (h0 : dByte f.raw 24 1 = 0) (hlen : 32 ≤ dBufLen f.raw) : ∃ flags, logReadRead s u =
    complete (writeBuf s f ((logReadOut s f).map logBytes).flatten) f (if s.log.mediaFault then stFault else stOk) 0
      (logReadOut s f).length
      (result4 (logReadOut s f).length (logNextSeq (dByte f.raw 28 4) (logReadOut s f)) (s.log.next - 1).toNat flags) := by
  have hlog : (writeBuf s f ((logReadOut s f).map logBytes).flatten).log = s.log := by simp [writeBuf]
  rw [logReadRead, withSub_run s u 0x91 24 0 _ _ f hr hs h0, if_neg (by simp [h0]), if_neg (by omega)]
  dsimp only
  rw [← logReadOut, hlog]
  exact ⟨_, rfl⟩

theorem logReadClear_clears (h1 : dByte f.raw 24 1 = 1) (h12 : dByte f.raw 8 12 = 0) (hst : f.stage = .none)
    (hen : wbit (regGet s 0xC000) 24 = true) (hseq : BitVec.ofNat 32 (dByte f.raw 28 4) + 1 = s.log.next)
    (hfirst : ∀ g ∈ s.host.flights, dOpcode g.raw = 0x91 → u ≤ g.uid ∨ g.ended = true) (ok : Bool) :
    logReadClear s u ok =
      complete (logCleared s (BitVec.ofNat 32 (dByte f.raw 28 4)) ok) f
        (if (logCleared s (BitVec.ofNat 32 (dByte f.raw 28 4)) ok).log.mediaFault then stFault else stOk) 0 0 0 := by
  have hno : (s.host.flights.any fun g => dOpcode g.raw == 0x91 && decide (g.uid < u) && !g.ended) = false := by
    simp only [List.any_eq_false, Bool.and_eq_true, beq_iff_eq, decide_eq_true_eq, Bool.not_eq_true', not_and]
    rintro g hg ⟨hop, hlt⟩ hend
    rcases hfirst g hg hop with h | h
    · omega
    · rw [h] at hend
      cases hend
  rw [logReadClear_run hr hs h1 h12 hst ok, hen, if_neg (by decide), if_neg (by simpa using hseq), hno]
  rfl

end

end Sys2Proof.Machine
end

section
open Sys2Proof Sys2Proof.Machine Sys2Proof.Safety

/-- Settles O42: a record written, a token, a read and a clear of the log, each from the commit it is. -/
theorem eventLogKept : Obligations.EventLogKept := by
  refine ⟨fun s ev l ha hh hq hm => ⟨fun hf => ?commit, fun hf => ?drop, fun hf => ?fault⟩,
    fun s ev l ok ha hh hq hm hroom => ?reserve, fun s c ha => ⟨fun ht hp => ?token, fun h => ?early⟩, ?reads⟩
  case commit =>
    have hrow := exec_logRecordWrite true s ha
    rw [logRecordWrite_head hh hq, hm, hf] at hrow
    obtain ⟨h1, h2, h3, h4, h5, -⟩ := logCommit_log (logTaken s l) ev
    exact ⟨_, hrow, h5, h1, h2, h3, h4⟩
  case drop =>
    have hrow := exec_logRecordWrite true s ha
    rw [logRecordWrite_head hh hq, hm, hf] at hrow
    exact ⟨_, hrow, rfl, rfl, rfl, rfl⟩
  case fault =>
    have hrow := exec_logRecordWrite false s ha
    rw [logRecordWrite_head hh hq, hm, hf] at hrow
    obtain ⟨h1, -, -, -, h5, -⟩ := logCommit_log (logTaken s l) ev
    obtain ⟨hrecs, hqueue, hfault⟩ := logMediaFault_log (logCommit (logTaken s l) ev)
    rw [h1, List.dropLast_concat] at hrecs
    exact ⟨_, hrow, hqueue.trans h5, hrecs, hfault⟩
  case reserve =>
    have hrow := exec_logRecordWrite ok s ha
    rw [logRecordWrite_head hh hq, hm, if_pos rfl] at hrow
    obtain ⟨h1, h2, -⟩ := logReserve_log (logTaken s l) ev
    obtain ⟨h3, h4⟩ := logReserve_room (logTaken s l) ev hroom
    exact ⟨_, hrow, h2, h1, h3, h4⟩
  case token =>
    have hrow := exec_flurryToken c s ha
    rw [flurryToken, if_neg (by simp [ht, hp])] at hrow
    exact ⟨_, hrow, by simp [bucketGet, bucketPut], rfl, rfl⟩
  case early =>
    have hrow := exec_flurryToken c s ha
    rw [flurryToken, if_pos (by rcases h with h | h <;> simp [h])] at hrow
    exact ⟨_, hrow, by simp⟩
  case reads =>
    rintro s u f ⟨ha, hr, hs, hd⟩
    refine ⟨fun h0 hlen hup => ?read, fun h1 h12 hst hen hseq hfirst => ⟨?clear, fun hm => ?clearFault⟩,
      fun h1 h12 hst => ⟨fun hen => ?shut, fun hen hseq => ?wrongSeq⟩⟩
    case read =>
      have hrow := exec_opLogReadRead u s ha
      obtain ⟨flags, hread⟩ := logReadRead_run hr hs h0 hlen
      rw [hread] at hrow
      exact ⟨_, logReadOut s f, logNextSeq (dByte f.raw 28 4) (logReadOut s f), flags, hrow, rfl,
        wrote_complete hup f _ _ _ _ _, rfl, completed_writeBuf hd _ _ _ _ _, by simp [writeBuf]⟩
    case clear =>
      have hrow := exec_opLogReadClear u true s ha
      obtain ⟨t, r, ht, e1, e2, e3, e4, e5, e6, e7, e8, hcq⟩ := logCleared_ok s (BitVec.ofNat 32 (dByte f.raw 28 4))
      rw [logReadClear_clears hr hs h1 h12 hst hen hseq hfirst, ht, e8] at hrow
      refine ⟨_, r, hrow, completed_of s t f stOk 0 0 0 hd (by rw [cqGet, cqGet, hcq]), ?_⟩
      simp only [wmUpdate_log, complete_log]
      exact ⟨e1, e2, e3.trans hseq, e4, e5, e6, e7⟩
    case clearFault =>
      have hrow := exec_opLogReadClear u false s ha
      obtain ⟨t, r, ht, e1, e2, e3, e4, hcq⟩ := logCleared_fault (BitVec.ofNat 32 (dByte f.raw 28 4)) hm
      rw [logReadClear_clears hr hs h1 h12 hst hen hseq hfirst, ht, e4] at hrow
      refine ⟨_, r, hrow, completed_of s t f stFault 0 0 0 hd (by rw [cqGet, cqGet, hcq]), ?_⟩
      simp only [wmUpdate_log, complete_log]
      exact ⟨e1, e2, e3, e4⟩
    case shut =>
      have hrow := exec_opLogReadClear u true s ha
      rw [logReadClear_run hr hs h1 h12 hst, if_pos hen, badParam, bad, reject] at hrow
      exact ⟨_, hrow, completed_self s f stBad 0 0 _ hd, by simp⟩
    case wrongSeq =>
      have hrow := exec_opLogReadClear u true s ha
      rw [logReadClear_run hr hs h1 h12 hst, if_neg (by simp [hen]), if_pos hseq, badParam, bad, reject] at hrow
      exact ⟨_, hrow, completed_self s f stBad 0 0 _ hd, by simp⟩

end

section
/-!
# OP_COUNTER_PRESET (18 R518, R519)

A completion counts in six counters of its own; every other keeps its value, so what a preset wrote stands.
-/
namespace Sys2Proof.Machine
open Sys2Proof Sys2Proof.Safety

/-! ## Which counters an operation may count in -/

theorem smpSee_cntGet (s : State) (n i k : Nat) (eid : Word) (x : Nat) : cntGet (smpSee s n i k eid).1 x = cntGet s x := by
  unfold smpSee
  dsimp only
  split
  · split
    · rfl
    · split <;> rfl
  · rfl

theorem smpAll_cntGet (i k : Nat) (eid : Word) (n : Nat) (p : State × List Nat) (x : Nat) :
    cntGet (smpAll i k eid n p).1 x = cntGet p.1 x := by
  induction n generalizing p with
  | zero => rfl
  | succ n ih =>
    obtain ⟨s, vs⟩ := p
    have hsee := smpSee_cntGet s n i k eid x
    rw [smpAll]
    split <;> next t h => rw [ih, ← hsee, h]

/-- A count moves its own counter alone. -/
theorem cntRaw_cntGet {s : State} {i k : Nat} {eid : Word} {x : Nat} (hx : x ≠ i) :
    cntGet (cntRaw s i k eid).1 x = cntGet s x := by
  unfold cntRaw
  split
  · rfl
  · rw [smpAll_cntGet, cntGet_cntPut_ne _ _ _ _ hx]

/-- Messages count in 297 alone. -/
theorem msixAll_cntGet {x : Nat} (hx : x ≠ 297) (n : Nat) (vs : List Nat) (s : State) :
    cntGet (msixAll n vs s) x = cntGet s x := by
  induction n generalizing vs s with
  | zero => rfl
  | succ n ih =>
    cases vs with
    | nil => rfl
    | cons v vs =>
      rw [msixAll]
      split
      · exact ih _ _
      · have hraw := cntRaw_cntGet (s := bwTx { s with wire := .msix v :: s.wire } 66 4) (k := 1) (eid := 0xFFFFFFFF) hx
        dsimp only
        rw [ih, hraw]
        rfl

theorem cntAdd_cntGet {s : State} {i k : Nat} {eid : Word} {x : Nat} (hx : x ≠ i) (hm : x ≠ 297) :
    cntGet (cntAdd s i k eid) x = cntGet s x := by
  have hraw := cntRaw_cntGet (s := s) (k := k) (eid := eid) hx
  rw [cntAdd, msixAll_cntGet hm, hraw]

theorem cnt_cntGet {s : State} {i x : Nat} (hx : x ≠ i) (hm : x ≠ 297) : cntGet (cnt s i) x = cntGet s x :=
  cntAdd_cntGet hx hm

/-- The counters in which a completion and its journal entry may count. -/
def CplCounter (x : Nat) : Prop := x = 297 ∨ x = 299 ∨ x = 361 ∨ x = 384 ∨ x = 385 ∨ x = 390

theorem outPort_zero (s : State) : outPort s 0 = 0 ∨ outPort s 0 = 1 := by
  unfold outPort
  split <;> simp

theorem mirrorSend_cntGet {s : State} {kind : Nat} {args : List Nat} {x : Nat} (hx : ¬ CplCounter x) :
    cntGet (mirrorSend s kind args) x = cntGet s x := by
  simp only [CplCounter, not_or] at hx
  obtain ⟨h297, -, -, h384, h385, h390⟩ := hx
  have hport : x ≠ 384 + outPort s 0 := by rcases outPort_zero s with h | h <;> rw [h] <;> assumption
  unfold mirrorSend
  split
  · rw [cnt_cntGet h390 h297, ringSend]
    rw [cnt_cntGet hport h297]
    rfl
  · rfl

theorem jrnlMod_cntGet {s : State} {u : Nat} {g : JrnlEnt → JrnlEnt} {x : Nat} (hx : ¬ CplCounter x) :
    cntGet (jrnlMod s u g) x = cntGet s x := by
  have h361 : x ≠ 361 := fun h => hx (.inr (.inr (.inl h)))
  have h297 : x ≠ 297 := fun h => hx (.inl h)
  unfold jrnlMod jrnlMirror
  split
  · rfl
  · rw [cnt_cntGet h361 h297, tailAdd]
    exact mirrorSend_cntGet hx

theorem complete_cntGet {s : State} {f : Flight} {st p n : Nat} {r : BitVec 128} {x : Nat} (hx : ¬ CplCounter x) :
    cntGet (complete s f st p n r) x = cntGet s x := by
  have h299 : x ≠ 299 := fun h => hx (.inr (.inl h))
  have h297 : x ≠ 297 := fun h => hx (.inl h)
  unfold complete completeAfter
  dsimp only
  split
  · exact jrnlMod_cntGet hx
  · rw [flightPut_cntGet, cqPut_cntGet]
    split
    · exact jrnlMod_cntGet hx
    · rw [cnt_cntGet h299 h297, jrnlMod_cntGet hx]

theorem writeBuf_cntGet (s : State) (f : Flight) (bs : List Byte) (x : Nat) : cntGet (writeBuf s f bs) x = cntGet s x := by
  unfold writeBuf hostWriteData hostPost
  split <;> rfl

/-! ## The preset itself (R519) -/

/-- A state that differs in counters and samplers alone. -/
def CntOnly (s t : State) : Prop := ∃ c, t = { s with cnt := c }

theorem smpRearm_frame (s : State) (i : Nat) : CntOnly s (smpRearm s i) ∧ ∀ x, cntGet (smpRearm s i) x = cntGet s x := by
  unfold smpRearm
  generalize List.range 8 = l
  induction l generalizing s with
  | nil => exact ⟨⟨s.cnt, rfl⟩, fun _ => rfl⟩
  | cons n l ih =>
    rw [List.foldl_cons]
    dsimp only
    split
    · obtain ⟨⟨c, hc⟩, hv⟩ := ih (smpPut s n { smpGet s n with since := 0, thresh := regGet s (0x804 + 0x20 * n) })
      exact ⟨⟨c, hc⟩, hv⟩
    · exact ih s

theorem cntPreset_frame (s : State) (i : Nat) (v : BitVec 56) : CntOnly s (cntPreset s i v) ∧
    ∀ x, cntGet (cntPreset s i v) x = if x = i ∧ cntReserved i = false then v else cntGet s x := by
  unfold cntPreset
  split
  · next h => exact ⟨⟨s.cnt, rfl⟩, fun x => by simp [h]⟩
  · next h =>
    obtain ⟨⟨c, hc⟩, hv⟩ := smpRearm_frame (cntPut s i v) i
    refine ⟨⟨c, hc⟩, fun x => ?_⟩
    rw [hv]
    by_cases hx : x = i
    · subst hx
      simp [h]
    · rw [cntGet_cntPut_ne _ _ _ _ hx]
      simp [hx]

theorem cntPresetRun_frame (s : State) (first n : Nat) (v : BitVec 56) : CntOnly s (cntPresetRun s first n v) ∧
    ∀ x, cntGet (cntPresetRun s first n v) x =
      if first ≤ x ∧ x < first + n ∧ cntReserved x = false then v else cntGet s x := by
  unfold cntPresetRun
  induction n with
  | zero => exact ⟨⟨s.cnt, rfl⟩, fun x => by simp; omega⟩
  | succ n ih =>
    rw [List.range_succ, List.foldl_append]
    simp only [List.foldl_cons, List.foldl_nil]
    generalize (List.range n).foldl (fun s k => cntPreset s (first + k) v) s = t at ih
    obtain ⟨⟨c, hc⟩, hv⟩ := ih
    obtain ⟨⟨c', hc'⟩, hv'⟩ := cntPreset_frame t (first + n) v
    refine ⟨⟨c', by rw [hc', hc]⟩, fun x => ?_⟩
    rw [hv', hv]
    by_cases hx : x = first + n
    · subst hx
      cases cntReserved (first + n) <;> simp
    · have hlt : x < first + (n + 1) ↔ x < first + n := by omega
      simp [hx, hlt]

/-- The counters as a mode leaves them before the completion. -/
def presetDone (s : State) (f : Flight) : State :=
  cntPresetRun s (dByte f.raw 26 2) (dByte f.raw 28 2) (BitVec.ofNat 56 (dByte f.raw 32 7))

section
variable {s : State} {u : Nat} {f : Flight} (hr : runnable s u 0x92 = some f) (hs : stateShut s u = false)
  (hgood : cntPresetBad f.raw = none)
include hr hs hgood

theorem counterPreset_zero (h : dByte f.raw 24 1 = 0) : counterPreset s u 0 =
    complete (presetDone s f) f stOk 0 (dByte f.raw 28 2) (result4 (dByte f.raw 28 2) 0 0 0) := by
  rw [counterPreset, withSub_run s u 0x92 24 0 _ _ f hr hs h, hgood]
  rfl

theorem counterPreset_one (h : dByte f.raw 24 1 = 1) : counterPreset s u 1 =
    complete (writeBuf (presetDone s f) f (cntRun s (dByte f.raw 26 2) (dByte f.raw 28 2))) f stOk 0 (dByte f.raw 28 2)
      (result4 (dByte f.raw 28 2) 0 0 0) := by
  rw [counterPreset, withSub_run s u 0x92 24 1 _ _ f hr hs h, hgood]
  rfl

theorem counterPreset_two (h : dByte f.raw 24 1 = 2) : counterPreset s u 2 =
    complete (writeBuf s f (cntRun s (dByte f.raw 26 2) (dByte f.raw 28 2))) f stOk 0 (dByte f.raw 28 2)
      (result4 (dByte f.raw 28 2) 0 0 0) := by
  rw [counterPreset, withSub_run s u 0x92 24 2 _ _ f hr hs h, hgood]
  rfl

end

end Sys2Proof.Machine
end

section
open Sys2Proof Sys2Proof.Machine Sys2Proof.Safety

/-- Settles O43: the run is preset counter by counter, and the completion counts in six counters of its own. -/
theorem countersPresetAndRead : Obligations.CountersPresetAndRead := by
  rintro s u f ⟨ha, hr, hs, hd⟩ hgood hup
  have hfree : ∀ i, i ≠ 297 → i ≠ 299 → i ≠ 361 → i ≠ 384 → i ≠ 385 → i ≠ 390 → ¬ CplCounter i := by
    intro i h1 h2 h3 h4 h5 h6 h
    simp only [CplCounter] at h
    omega
  obtain ⟨⟨c, hc⟩, hval⟩ := cntPresetRun_frame s (dByte f.raw 26 2) (dByte f.raw 28 2) (BitVec.ofNat 56 (dByte f.raw 32 7))
  rw [← presetDone] at hc
  refine ⟨fun h => ?preset, fun h => ?both, fun h => ?read⟩
  case preset =>
    have hrow := exec_opCounterPresetPreset u s ha
    rw [counterPreset_zero hr hs hgood h] at hrow
    refine ⟨_, hrow, completed_of s _ f stOk 0 _ _ hd (by rw [hc]; rfl), by simp [hc], fun i h1 h2 h3 h4 h5 h6 => ?_⟩
    rw [wmUpdate_cntGet, complete_cntGet (hfree i h1 h2 h3 h4 h5 h6)]
    exact hval i
  case both =>
    have hrow := exec_opCounterPresetReadAndPreset u s ha
    rw [counterPreset_one hr hs hgood h] at hrow
    refine ⟨_, hrow, ?_, ?_, fun i h1 h2 h3 h4 h5 h6 => ?_⟩
    · have := completed_writeBuf (s := presetDone s f) hd (cntRun s (dByte f.raw 26 2) (dByte f.raw 28 2)) stOk 0
        (dByte f.raw 28 2) (result4 (dByte f.raw 28 2) 0 0 0)
      rw [hc] at this ⊢
      exact this
    · have := wrote_complete (s := presetDone s f) (by rw [hc]; exact hup) f
        (cntRun s (dByte f.raw 26 2) (dByte f.raw 28 2)) stOk 0 (dByte f.raw 28 2) (result4 (dByte f.raw 28 2) 0 0 0)
      rw [hc] at this ⊢
      exact this
    · rw [wmUpdate_cntGet, complete_cntGet (hfree i h1 h2 h3 h4 h5 h6), writeBuf_cntGet]
      exact hval i
  case read =>
    have hrow := exec_opCounterPresetRead u s ha
    rw [counterPreset_two hr hs hgood h] at hrow
    refine ⟨_, hrow, completed_writeBuf hd _ _ _ _ _, wrote_complete hup f _ _ _ _ _, fun i h1 h2 h3 h4 h5 h6 => ?_⟩
    rw [wmUpdate_cntGet, complete_cntGet (hfree i h1 h2 h3 h4 h5 h6), writeBuf_cntGet]

end

section
/-!
# The journal's program, the checkpoint and the migration (03 R107, R108, R118, R124)

A program moves the head of the tail to the flash copy; a flush is as many programs as the tail has entries, which empties a
tail that nothing waits for.
-/
namespace Sys2Proof.Machine
open Sys2Proof Sys2Proof.Safety

/-! ## A page's worth of entries -/

theorem pageTake_append (room : Nat) (l : List JTail) (used : Nat) :
    (pageTake room l used).1 ++ (pageTake room l used).2 = l := by
  induction l generalizing used with
  | nil => rfl
  | cons e t ih =>
    rw [pageTake]
    dsimp only
    split
    · have h := ih (max 1 (used + Config.entryBytes (entKind e.ent)))
      generalize pageTake room t _ = p at h
      obtain ⟨a, b⟩ := p
      exact congrArg (e :: ·) h
    · rfl

/-- At least one entry goes. -/
theorem pageTake_first (room : Nat) (e : JTail) (t : List JTail) : ∃ a b, pageTake room (e :: t) 0 = (e :: a, b) := by
  rw [pageTake]
  dsimp only
  rw [if_pos (.inl rfl)]
  exact ⟨_, _, rfl⟩

/-- Entries that waited join the tail in order, as far as they fit. -/
theorem tailRefill_eq (w : List JTail) (s : State) : ∃ a b, a ++ b = w ∧
    tailRefill w s = { s with recs := { s.recs with jtail := s.recs.jtail ++ a, jwait := b } } := by
  induction w generalizing s with
  | nil => exact ⟨[], [], rfl, by rw [List.append_nil]; rfl⟩
  | cons e t ih =>
    rw [tailRefill]
    split
    · obtain ⟨a, b, hab, h⟩ := ih { s with recs := { s.recs with jtail := s.recs.jtail ++ [e] } }
      exact ⟨e :: a, b, by rw [List.cons_append, hab], by rw [h]; simp⟩
    · exact ⟨[], e :: t, rfl, by rw [List.append_nil]⟩

/-- One program of the journal (R107): the head of the tail becomes durable, and what waited joins the tail. -/
theorem journalProgram_eq {s : State} (hon : storeOn s = true) (hdie : diesOn s ≠ []) (htail : s.recs.jtail ≠ []) :
    ∃ l b w v e c p wi, l ++ b = s.recs.jtail ∧ w ++ v = s.recs.jwait ∧ l ≠ [] ∧ l.getLast? = some e ∧
      journalProgram s =
        { s with recs := { s.recs with jtail := b ++ w, jwait := v, jnand := s.recs.jnand ++ l,
                                       durable := BitVec.ofNat 32 e.jseq }
                 cnt := c
                 host := { s.host with msixPend := p }
                 wire := wi } := by
  have happ := pageTake_append (pageKib s * 1024) s.recs.jtail 0
  obtain ⟨x, t, hx⟩ := List.exists_cons_of_ne_nil htail
  obtain ⟨a, b, hp⟩ := pageTake_first (pageKib s * 1024) x t
  rw [← hx] at hp
  obtain ⟨e, hlast⟩ : ∃ e, (x :: a).getLast? = some e := ⟨_, List.getLast?_eq_some_getLast (by simp)⟩
  obtain ⟨w, v, hwv, hfill⟩ := tailRefill_eq s.recs.jwait
    { s with recs := { s.recs with jtail := b, jnand := s.recs.jnand ++ (x :: a), durable := BitVec.ofNat 32 e.jseq } }
  have hopen : (!storeOn s || (diesOn s).isEmpty) = false := by simp [hon, hdie]
  obtain ⟨c, p, wi, hc⟩ := cntAdd_eq (bwTx (tailRefill s.recs.jwait
    { s with recs := { s.recs with jtail := b, jnand := s.recs.jnand ++ (x :: a), durable := BitVec.ofNat 32 e.jseq } })
      68 (2 * pageKib s * 1024)) 353 2 0xFFFFFFFF
  refine ⟨x :: a, b, w, v, e, c, p, wi, by rw [hp] at happ; exact happ, hwv, by simp, hlast, ?_⟩
  rw [journalProgram, hopen, if_neg (by decide), hp]
  dsimp only
  rw [hlast]
  dsimp only
  refine hc.trans ?_
  rw [hfill]
  rfl

/-- What a program or a flush leaves: all but the journal, counters and pins. -/
def JournalOnly (s t : State) : Prop := ∃ jt jw jn du c p wi, t =
  { s with recs := { s.recs with jtail := jt, jwait := jw, jnand := jn, durable := du }
           cnt := c
           host := { s.host with msixPend := p }
           wire := wi }

theorem JournalOnly.refl (s : State) : JournalOnly s s :=
  ⟨s.recs.jtail, s.recs.jwait, s.recs.jnand, s.recs.durable, s.cnt, s.host.msixPend, s.wire, rfl⟩

theorem JournalOnly.trans {s t u : State} (h : JournalOnly s t) (h' : JournalOnly t u) : JournalOnly s u := by
  obtain ⟨_, _, _, _, _, _, _, rfl⟩ := h
  obtain ⟨jt, jw, jn, du, c, p, wi, rfl⟩ := h'
  exact ⟨jt, jw, jn, du, c, p, wi, rfl⟩

theorem JournalOnly.store {s t : State} (h : JournalOnly s t) : storeOn t = storeOn s ∧ diesOn t = diesOn s := by
  obtain ⟨_, _, _, _, _, _, _, rfl⟩ := h
  exact ⟨rfl, rfl⟩

theorem journalProgram_empty {s : State} (h : s.recs.jtail = []) : journalProgram s = s := by
  rw [journalProgram, h]
  split <;> rfl

/-- Programs while the store works: with nothing waiting, each takes at least one entry. -/
theorem foldl_journalProgram {s : State} (hon : storeOn s = true) (hdie : diesOn s ≠ []) (l : List Nat) :
    JournalOnly s (l.foldl (fun s _ => journalProgram s) s) ∧
      (s.recs.jwait = [] → s.recs.jtail.length ≤ l.length → (l.foldl (fun s _ => journalProgram s) s).recs.jtail = []) := by
  induction l generalizing s with
  | nil => exact ⟨.refl s, fun _ h => List.length_eq_zero_iff.mp (Nat.le_zero.mp h)⟩
  | cons x l ih =>
    rw [List.foldl_cons]
    by_cases htail : s.recs.jtail = []
    · rw [journalProgram_empty htail]
      obtain ⟨h₁, h₂⟩ := ih hon hdie
      exact ⟨h₁, fun hw _ => h₂ hw (by simp [htail])⟩
    · obtain ⟨a, b, w, v, e, c, p, wi, hab, hwv, ha, -, hj⟩ := journalProgram_eq hon hdie htail
      have honly : JournalOnly s (journalProgram s) := ⟨_, _, _, _, _, _, _, hj⟩
      obtain ⟨hon', hdie'⟩ := honly.store
      obtain ⟨h₁, h₂⟩ := ih (hon'.trans hon) (by rwa [hdie'])
      refine ⟨honly.trans h₁, fun hw hlen => h₂ ?_ ?_⟩
      · rw [hj]
        exact (List.append_eq_nil_iff.mp (hwv.trans hw)).2
      · have hw0 : w = [] := (List.append_eq_nil_iff.mp (hwv.trans hw)).1
        have hsum := congrArg List.length hab
        have hpos := List.length_pos_iff.mpr ha
        rw [List.length_append] at hsum
        rw [hj]
        simp only [hw0, List.append_nil]
        simp only [List.length_cons] at hlen
        omega

theorem journalFlush_frame {s : State} (hon : storeOn s = true) (hdie : diesOn s ≠ []) :
    JournalOnly s (journalFlush s) ∧ (s.recs.jwait = [] → (journalFlush s).recs.jtail = []) := by
  obtain ⟨h₁, h₂⟩ := foldl_journalProgram hon hdie (List.range s.recs.jtail.length)
  exact ⟨h₁, fun hw => h₂ hw (by simp)⟩

/-- What a checkpoint leaves (R118). -/
theorem ckptWrite_eq (s : State) : ∃ o c p wi, ckptWrite s =
    { journalFlush s with
      recs := { (journalFlush s).recs with
        ckpt := (journalFlush s).recs.tab.map fun q => (q.1, recView (journalFlush s) q.1)
        ckptEnts := o, jnand := [], ckptCnt := (journalFlush s).recs.ckptCnt + 1, ckptAct := false,
        ckptAt := (journalFlush s).tcxo }
      cnt := c
      host := { (journalFlush s).host with msixPend := p }
      wire := wi } := by
  unfold ckptWrite
  dsimp only
  generalize journalFlush s = u
  obtain ⟨c, p, wi, h⟩ := cntAdd_eq (bwTx { u with recs := { u.recs with
      ckpt := u.recs.tab.map fun q => (q.1, recView u q.1), ckptEnts := ckptOther u, jnand := [],
      ckptCnt := u.recs.ckptCnt + 1, ckptAct := false, ckptAt := u.tcxo } } 68
    (2 * ckptPages u (ckptOther u) * pageKib u * 1024)) 353 (2 * ckptPages u (ckptOther u)) 0xFFFFFFFF
  exact ⟨ckptOther u, c, p, wi, h⟩

end Sys2Proof.Machine
end

section
open Sys2Proof Sys2Proof.Machine Sys2Proof.Safety

/-- Settles O29: a program takes the head of the tail, a checkpoint is a flush and a copy of the table, a migration is one
change of a record. -/
theorem journalCheckpointMigration : Obligations.JournalCheckpointMigration := by
  refine ⟨fun s ha hon hdie htail => ?program, fun s ha hon hdie => ⟨fun hdue => ?checkpoint, fun hdue => ?early⟩,
    fun s e l ha hopen hleft => ?migration⟩
  case program =>
    obtain ⟨a, b, w, v, e, c, p, wi, hab, hwv, -, hlast, hj⟩ := journalProgram_eq hon hdie htail
    have hrow := exec_journalProgram s ha
    rw [hj] at hrow
    exact ⟨_, hrow, a, b, w, e, hab, rfl, hwv, hlast, rfl, rfl, rfl, rfl, rfl⟩
  case checkpoint =>
    have hrow := exec_checkpoint s ha
    obtain ⟨o, c, p, wi, hck⟩ := ckptWrite_eq s
    rw [checkpoint, if_neg (by simp [hon, hdie, hdue]), hck] at hrow
    obtain ⟨⟨jt, jw, jn, du, c', p', wi', hfl⟩, hempty⟩ := journalFlush_frame hon hdie
    rw [hfl] at hrow hempty
    exact ⟨_, hrow, rfl, hempty, rfl, rfl, rfl, rfl, rfl, rfl⟩
  case early =>
    have hrow := exec_checkpoint s ha
    rw [checkpoint, if_pos (by simp [hdue])] at hrow
    exact ⟨_, hrow, rfl, rfl⟩
  case migration =>
    have hrow := exec_backgroundMigration s ha hopen
    have hview : ∀ r, recView s e = r → r.writeSeq = (recGet s e).writeSeq ∧ r.energy = (recGet s e).energy := by
      rintro r rfl
      unfold recView
      dsimp only
      split <;> exact ⟨rfl, rfl⟩
    obtain ⟨hseq, hen⟩ := hview _ rfl
    have hsame := recGet_recChange s e (recView s e)
    have hother : ∀ x, x ≠ e → recGet (recChange s e (recView s e)) x = recGet s x := fun x hx =>
      recGet_recChange_ne s e _ hx
    simp only [backgroundMigration, hleft] at hrow
    generalize recView s e = r at *
    generalize recChange s e r = u at *
    have hget : ∀ x, recGet (wmUpdate { u with recs := { u.recs with migrate := !(migrateLeft u).isEmpty } }) x =
        recGet u x := fun x => rfl
    refine ⟨_, hrow, ?_, ?_, ?_, fun x hx => (hget x).trans (hother x hx)⟩
    · rw [hget, hsame, stamped]
      dsimp only
      split <;> omega
    · rw [hget, hsame, ← hseq]
      rfl
    · rw [hget, hsame, ← hen]
      rfl

end

section
/-!
# Why a function that arrives with a disable held may still have queued work (01 R41)

A disable held while STARTING ends it in STOPPING with the work queued for it kept, since queued work runs all the same; the
statement asks for an empty queue.
-/
namespace Sys2Proof.Machine
open Sys2Proof Sys2Proof.Safety

/-- A part in READY whose front end is STARTING, with a disable held and one descriptor queued for it. -/
def queuedStart : State :=
  { State.reset with
    pins := { State.reset.pins with resetLow := false }
    boot := { State.reset.boot with phase := 7, ready := true }
    funcs := [(0x0700, ⟨.starting, false, true, [1]⟩)] }

theorem queuedStart_arrives : ∃ t, exec (.functionStartComplete (.func 0x0700) true) queuedStart = .next t ∧
    fnGet t 0x0700 = ⟨.stopping, false, false, [1]⟩ := by
  refine ⟨_, exec_functionStartComplete (.func 0x0700) true queuedStart rfl, ?_⟩
  decide +kernel

end Sys2Proof.Machine
end

section
open Sys2Proof Sys2Proof.Machine Sys2Proof.Safety

/-- Refutes O40: a disable held ends STARTING in STOPPING with the work queued for the function still queued (R41), where
the statement has an empty queue. -/
theorem not_functionsArriveAndStop : ¬ Obligations.FunctionsArriveAndStop := by
  intro h
  obtain ⟨hstart, -⟩ := h queuedStart 0x0700 rfl rfl
  obtain ⟨t, ht, hget, -⟩ := (hstart rfl rfl).1 (by decide) |>.2 rfl
  obtain ⟨u, hu, hkept⟩ := queuedStart_arrives
  obtain rfl : t = u := by injection ht.symm.trans hu
  rw [hkept] at hget
  exact absurd hget (by decide)

end

section
/-!
# The kennel's own events (06 R202, R205, R206)

A ZEROIZING slot becomes FREE, and what waits for the kennel is resumed in the order of the flight list.
-/
namespace Sys2Proof.Machine
open Sys2Proof Sys2Proof.Safety

theorem slotGet_slotPut_ite (s : State) (i j : Nat) (x : Slot) :
    slotGet (slotPut s i x) j = if j = i then x else slotGet s j := by
  simp [slotGet, slotPut, tget_tset]

/-- Nothing waits for a retire where no descriptor of that opcode is in flight. -/
theorem retireResume_idle {s : State} (h : ∀ f ∈ s.host.flights, dOpcode f.raw ≠ 0x12) : retireResume s = s := by
  have hnone : (s.host.flights.filter fun f => dOpcode f.raw == 0x12 && !f.ended &&
      (match f.stage with | .wait _ 5 _ => true | _ => false)) = [] := by
    rw [List.filter_eq_nil_iff]
    intro f hf
    simp [h f hf]
  exact congrArg (List.foldl retireGo s) hnone

/-- Nothing waits for an erase where no descriptor of that opcode is in flight. -/
theorem eraseResume_idle {s : State} (h : ∀ f ∈ s.host.flights, dOpcode f.raw ≠ 0x21) : eraseResume s = s := by
  have hnone : (s.host.flights.filter fun f => dOpcode f.raw == 0x21 && !f.ended && f.stage != .none) = [] := by
    rw [List.filter_eq_nil_iff]
    intro f hf
    simp [h f hf]
  rw [eraseResume, hnone]
  rfl

/-- Re-randomised shares stand for the same key (R205). -/
theorem shareAgain_val (n : Nat) (x : Shares 256) : (shareAgain n x).val = x.val := by
  simp only [shareAgain, Shares.val]
  generalize Config.drbg n = p
  generalize Config.drbg (n + 1) = q
  have hp := BitVec.xor_self (x := p)
  have hq := BitVec.xor_self (x := q)
  calc x.a ^^^ p ^^^ q ^^^ (x.b ^^^ p) ^^^ (x.c ^^^ q) = x.a ^^^ x.b ^^^ x.c ^^^ (p ^^^ p) ^^^ (q ^^^ q) := by ac_rfl
    _ = _ := by rw [hp, hq, BitVec.xor_zero, BitVec.xor_zero]

/-- An erase that waited for its slots alone finishes (R206). -/
theorem eraseResume_one {s : State} {f : Flight} {eid : Nat} (hf : s.host.flights = [f]) (hop : dOpcode f.raw = 0x21)
    (he : f.ended = false) (hst : f.stage ≠ .none) (ht : keyTgt f.raw = .ep eid)
    (hfree : slotHolds s (epHandle eid) (eraseGens (recGet s eid) (dByte f.raw 42 1)) = false) :
    eraseResume s = completeOk (recPut s eid (eraseDone (recGet s eid) (dByte f.raw 42 1))) f 4 0 := by
  have hone : (s.host.flights.filter fun f => dOpcode f.raw == 0x21 && !f.ended && f.stage != .none) = [f] := by
    rw [hf]
    simp [hop, he, hst]
  rw [eraseResume, hone]
  simp only [List.foldl_cons, List.foldl_nil, eraseWait, ht, hfree, eraseFinish]
  rfl

theorem klFail_other {s : State} {f : Flight} (h : dOpcode f.raw = 0x20 → kiSource f.raw ≠ 1) : klFail s f = s :=
  if_neg fun ⟨hop, hsrc⟩ => h hop hsrc

end Sys2Proof.Machine
end

section
open Sys2Proof Sys2Proof.Machine Sys2Proof.Safety

/-- Settles O15: a slot freed resumes the erase that waited for it, and the other two events change one field each. -/
theorem kennelEvents : Obligations.KennelEvents := by
  refine ⟨fun s i ha h4 hno => ?zeroize, fun s i eid a b c f ha h4 hf hop he hd hst ht hfree => ?erase,
    fun s i ha h4 hno => ?other, fun s ha => ?shares, fun s uid since f ha hf hd hst he hop hkl => ⟨fun hms hnone => ?busy,
      fun hwait => ?early⟩⟩
  case zeroize =>
    have hrow := exec_slotZeroize i s ha
    rw [slotZeroizeRow, slotZeroize, if_pos h4, eraseResume_idle (s := slotPut s i Slot.free) fun f hf => (hno f hf).1,
      retireResume_idle (s := slotPut s i Slot.free) fun f hf => (hno f hf).2] at hrow
    exact ⟨_, hrow, by simp [slotGet, slotPut], fun j hj => (slotGet_slotPut_ite s i j Slot.free).trans (if_neg hj)⟩
  case erase =>
    have hrow := exec_slotZeroize i s ha
    generalize hu : slotPut s i Slot.free = u at hrow hfree
    have hrec : recGet u eid = recGet s eid := by rw [← hu]; rfl
    have huf : u.host.flights = [f] := by rw [← hu, ← hf]; rfl
    have hgone : slotGet u i = Slot.free := by rw [← hu, slotGet_slotPut_ite, if_pos rfl]
    have hucq : cqGet u f.cq = cqGet s f.cq := by rw [← hu]; rfl
    rw [← hrec] at hfree
    rw [slotZeroizeRow, slotZeroize, if_pos h4, hu, eraseResume_one huf hop he (by simp [hst]) ht hfree, hrec] at hrow
    rw [completeOk] at hrow
    generalize hp : recPut u eid (eraseDone (recGet s eid) (dByte f.raw 42 1)) = p at hrow
    have hpf : p.host.flights = [f] := by rw [← hp, ← huf]; rfl
    have hflights : ∀ g ∈ (complete p f stOk 4 0 0).host.flights, dOpcode g.raw ≠ 0x12 := by
      rw [complete_flights p f stOk 4 0 0 hd, flightPut, hpf]
      intro g hg
      simp only [List.map_cons, List.map_nil, List.mem_singleton] at hg
      rw [hg, if_pos (show f.uid = (endedFlight f 4 0).uid from rfl),
        show dOpcode (endedFlight f 4 0).raw = dOpcode f.raw from rfl, hop]
      decide
    rw [retireResume_idle hflights] at hrow
    refine ⟨_, hrow, ?_, ?_, completed_of s p f stOk 4 0 0 hd (by rw [← hp, ← hucq]; rfl)⟩
    · rw [slotGet, wmUpdate_keys, complete_keys, ← hp, recPut_keys, ← slotGet, hgone]
    · rw [wmUpdate_recGet, complete_recGet, ← hp, recGet_recPut]
  case other =>
    have hrow := exec_slotZeroize i s ha
    rw [slotZeroizeRow, slotZeroize, if_neg h4, retireResume_idle hno] at hrow
    exact ⟨_, hrow, rfl, rfl⟩
  case shares =>
    refine ⟨_, exec_shareRerandomise s ha, ?_, fun p _ => shareAgain_val _ _, rfl⟩
    rw [wmUpdate_keys, shareRerandomise]
    simp
  case busy =>
    have hrow := exec_keySlotBusyTimeout uid s ha
    have hcond : (msPassed s since 1 && !f.ended && slotOps.contains (dOpcode f.raw) && (slotAlloc s).isNone) = true := by
      simp [hms, he, hnone, hop]
    simp only [keySlotBusyTimeout, hf, hst, hcond, if_true, installFail, klFail_other hkl, reject] at hrow
    exact ⟨_, hrow, by simp, completed_self s f 0x14 0 0 0 hd⟩
  case early =>
    have hrow := exec_keySlotBusyTimeout uid s ha
    have hcond : (msPassed s since 1 && !f.ended && slotOps.contains (dOpcode f.raw) && (slotAlloc s).isNone) = false := by
      rcases hwait with h | h
      · simp [h]
      · simp [Option.isNone_eq_false_iff.mpr (Option.isSome_iff_ne_none.mpr h)]
    simp only [keySlotBusyTimeout, hf, hst, hcond, Bool.false_eq_true, if_false] at hrow
    exact ⟨_, hrow, rfl, rfl⟩

end

section
/-!
# OP_BATCH_GET and OP_SEAL_KEY_SET (07 R226, R236 to R239)

Mode 0 either answers at once or waits; both answers are `batchGetDone`. Mode 1 is one split on the batch and the leaf.
-/
namespace Sys2Proof.Machine
open Sys2Proof Sys2Proof.Safety

/-! ## Descriptors that run and wait -/

/-- A sub-operation the opcode does not list is given to every row of it. -/
theorem withSub_unlisted {s : State} {uid op byte sub : Nat} {listed : List Nat} {g : Flight → State} {f : Flight}
    (h : runnable s uid op = some f) (hs : stateShut s uid = false) (hv : dByte f.raw byte 1 ∉ listed) :
    withSub s uid op byte sub listed g = g f := by
  rw [withSub, withDesc_run s uid op _ f h hs]
  exact if_pos (.inr hv)

/-- A descriptor put in place of the one of its number is what its number finds. -/
theorem flightOf_flightPut {s : State} {g : Flight} (h : (flightOf s g.uid).isSome = true) :
    flightOf (flightPut s g) g.uid = some g := by
  simp only [flightOf, flightPut] at h ⊢
  generalize s.host.flights = l at h
  induction l with
  | nil => simp at h
  | cons x l ih =>
    by_cases hx : x.uid = g.uid
    · simp [hx]
    · have hb : (x.uid == g.uid) = false := by simpa using hx
      simp only [List.map_cons, hx, if_false, List.find?_cons, hb] at h ⊢
      exact ih h

theorem runnable_uid {s : State} {uid op : Nat} {f : Flight} (h : runnable s uid op = some f) :
    f.uid = uid ∧ (flightOf s uid).isSome = true := by
  unfold runnable at h
  split at h
  · cases h
  · next g hg =>
    split at h
    · cases h
      exact ⟨(flightOf_some hg).2, by rw [hg]; rfl⟩
    · cases h

/-- A descriptor that runs is found with its new stage once it is put back. -/
theorem flightOf_restaged {s : State} {uid op : Nat} {f : Flight} (h : runnable s uid op = some f) (st : Stage) :
    flightOf (flightPut s { f with stage := st }) uid = some { f with stage := st } := by
  obtain ⟨hu, hsome⟩ := runnable_uid h
  subst hu
  exact flightOf_flightPut (g := { f with stage := st }) hsome

theorem ifUnused_none {s : State} {f : Flight} {lo n : Nat} (h : spanSet f.raw lo n = none) (k : State) :
    ifUnused s f [(lo, n)] k = k := by
  simp [ifUnused, h]

/-! ## OP_BATCH_GET -/

section
variable {s : State} {u : Nat} {f : Flight} (hr : runnable s u 0x28 = some f) (hs : stateShut s u = false)
include hr hs

theorem batchGetLog_run (h0 : dByte f.raw 24 1 = 0) (hun : spanSet f.raw 36 10 = none) (hw : dByte f.raw 32 2 ≤ 10000) :
    batchGetLog s u =
      if ((logVisible s).any fun e => decide (dByte f.raw 28 4 ≤ e.lseq.toNat)) || dByte f.raw 32 2 == 0 then
        batchGetDone s f
      else match f.stage with
        | .wait _ _ _ => s
        | _ => flightPut s { f with stage := .wait s.tcxo (dByte f.raw 32 2) 0 } := by
  rw [batchGetLog, withSub_run s u 0x28 24 0 _ _ f hr hs h0, if_neg (by simp [h0]), ifUnused_none hun]
  exact if_neg (Nat.not_lt.mpr hw)

theorem batchGetPath_run (h1 : dByte f.raw 24 1 = 1) (hun : spanSet f.raw 28 6 = none) (hl : 384 ≤ dBufLen f.raw) :
    batchGetPath s u =
      match s.sealU.recent.find? fun b => b.bid.toNat == dByte f.raw 36 8 with
      | none => completeOk s f 0 1
      | some b =>
        if b.leaves.length ≤ dByte f.raw 44 2 then completeOk s f 0 2
        else completeOk (writeBuf s f
          ((List.range 12).map fun j => bytes32 (pathEntry b.leaves (dByte f.raw 44 2) j)).flatten) f 0 0 := by
  rw [batchGetPath, withSub_run s u 0x28 24 1 _ _ f hr hs h1, if_neg (by simp [h1]), ifUnused_none hun]
  exact if_neg (Nat.not_lt.mpr hl)

end

/-- What a mode 0 answer leaves. -/
theorem batchGetDone_answers {s : State} {f : Flight} (hup : s.host.linkDown = false) (hd : f.discard = false) :
    Wrote s (wmUpdate (batchGetDone s f)) (dBufAddr f.raw) ((batchOut s f.raw).map logBatchBytes).flatten ∧
      Completed s (wmUpdate (batchGetDone s f)) f 0 0 0 (result4 (batchOut s f.raw).length (batchNext s f.raw)
        (logOldest s).toNat (b2n (batchOlder s f.raw))) ∧ (wmUpdate (batchGetDone s f)).sealU = s.sealU := by
  rw [batchGetDone, completeOk]
  exact ⟨wrote_complete hup f _ _ _ _ _, completed_writeBuf hd _ _ _ _ _, by simp [writeBuf]⟩

/-! ## OP_SEAL_KEY_SET (R226) -/

/-- The check of the pin count may draw one free value and nothing else. -/
theorem pinsExceed_state {s s0 : State} {n : Nat} {b : Bool} (h : pinsExceed s n = (b, s0)) :
    ∃ k, s0 = { s with free := k } := by
  unfold pinsExceed at h
  split at h
  · cases h
    exact ⟨s.free, rfl⟩
  · split at h
    · cases h
      exact ⟨_, rfl⟩
    · cases h
      exact ⟨s.free, rfl⟩

/-- A seal key taken and pinned leaves the seal unit, the rings and the time. -/
theorem sealPin_frame {s t : State} {h : Nat} (hp : sealPin s h = some t) :
    t.sealU = s.sealU ∧ t.host.cq = s.host.cq ∧ t.time = s.time := by
  obtain ⟨u, hu, rfl⟩ := Option.map_eq_some_iff.mp hp
  have hkeep := keyRest_ensureDir hu
  have hseal := keyRest_seal hkeep
  have hcq := keyRest_cq hkeep
  have htime := keyRest_time hkeep
  exact ⟨hseal, hcq, htime⟩

theorem sealUnpin_frame (s : State) (h a b : Nat) : (sealUnpin s h a b).sealU = s.sealU ∧
    (sealUnpin s h a b).host = s.host := by
  unfold sealUnpin
  split <;> exact ⟨rfl, rfl⟩

/-- The open batch closes under a cause, and joins those that wait for a signature. -/
theorem batchClose_frame (s : State) (cause : Nat) : (batchClose s cause).sealU.batch = none ∧
    (∀ b, s.sealU.batch = some b →
      (batchClose s cause).sealU.signQ = s.sealU.signQ ++ [{ b with dtClose := dtOf s, cause := cause }]) ∧
    (batchClose s cause).host.cq = s.host.cq := by
  unfold batchClose
  split
  · next h => exact ⟨h, fun b hb => (by rw [hb] at h; cases h), rfl⟩
  · next b h =>
    simp only [cnt_sealU, cnt_host_cq]
    refine ⟨trivial, fun b' hb => ?_, trivial⟩
    obtain rfl := Option.some.inj (h.symm.trans hb)
    rfl

/-- The two keys in use in place of those before, with the open batch closed. -/
def sealKeyUse (s s' : State) (f : Flight) : State :=
  let t := sealUnpin (sealUnpin (batchClose (appendState s' 0 (.sealKeys (BitVec.ofNat 32 (dByte f.raw 24 4))
    (BitVec.ofNat 32 (dByte f.raw 28 4)) (BitVec.ofNat 16 (dByte f.raw 32 2)))) 2) s.sealU.session (dByte f.raw 24 4)
      (dByte f.raw 28 4)) s.sealU.sign (dByte f.raw 24 4) (dByte f.raw 28 4)
  { t with sealU := { t.sealU with set := true, session := dByte f.raw 24 4, sign := dByte f.raw 28 4, missed := false,
                                   src := BitVec.ofNat 16 (dByte f.raw 32 2) } }

/-- Both keys taken into use, or the descriptor left to wait (R226 steps 2 to 4). -/
def sealKeyTake (s : State) (f : Flight) : State :=
  match pinsExceed s (sealNewPins s (dByte f.raw 24 4) + sealNewPins s (dByte f.raw 28 4)) with
  | (true, s) => reject s f stSlotBusy 0
  | (false, s) =>
  match (sealPin s (dByte f.raw 24 4)).bind fun s => sealPin s (dByte f.raw 28 4) with
  | none => slotWait s f
  | some s' => completeOk (sealKeyUse s s' f) f 4 0

section
variable {s : State} {u : Nat} {f : Flight} (hr : runnable s u 0x29 = some f) (hs : stateShut s u = false)
include hr hs

theorem sealKeySet_run : sealKeySet s u =
    if !(hIsDir (dByte f.raw 24 4) && hIsSession (dByte f.raw 24 4)) || sealKeyWrong s (dByte f.raw 24 4) then
      badParam s f 24
    else if !(hIsDir (dByte f.raw 28 4) && hIsSign (dByte f.raw 28 4)) || sealKeyWrong s (dByte f.raw 28 4) then
      badParam s f 28
    else match sealKeyBad s (dByte f.raw 24 4), sealKeyBad s (dByte f.raw 28 4) with
    | some st, _ => reject s f st 0
    | none, some st => reject s f st 0
    | none, none => sealKeyTake s f := by
  rw [sealKeySet, withDesc_run s u 0x29 _ f hr hs] <;> rfl

end

/-- What the use of two keys leaves: the seal unit under them, its open batch closed, and the rings as they were. -/
theorem sealKeyUse_frame {s s' : State} {f : Flight} (hseal : s'.sealU = s.sealU) (hcq : s'.host.cq = s.host.cq)
    (htime : s'.time = s.time) : let t := sealKeyUse s s' f
    t.sealU.set = true ∧ t.sealU.session = dByte f.raw 24 4 ∧ t.sealU.sign = dByte f.raw 28 4 ∧ t.sealU.missed = false ∧
      t.sealU.src = BitVec.ofNat 16 (dByte f.raw 32 2) ∧ t.sealU.batch = none ∧
      (∀ b, s.sealU.batch = some b → t.sealU.signQ = s.sealU.signQ ++ [{ b with dtClose := dtOf s, cause := 2 }]) ∧
      t.host.cq = s.host.cq := by
  unfold sealKeyUse
  generalize ha : appendState s' 0 _ = a
  have haseal : a.sealU = s.sealU := by rw [← ha, appendState_sealU, hseal]
  have hacq : a.host.cq = s.host.cq := by rw [← ha, appendState_host_cq, hcq]
  have hadt : dtOf a = dtOf s := by rw [dtOf, dtOf, ← ha, appendState_time, htime]
  obtain ⟨hb, hsig, hbcq⟩ := batchClose_frame a 2
  obtain ⟨h1, h2⟩ := sealUnpin_frame (batchClose a 2) s.sealU.session (dByte f.raw 24 4) (dByte f.raw 28 4)
  obtain ⟨h3, h4⟩ := sealUnpin_frame (sealUnpin (batchClose a 2) s.sealU.session (dByte f.raw 24 4) (dByte f.raw 28 4))
    s.sealU.sign (dByte f.raw 24 4) (dByte f.raw 28 4)
  generalize sealUnpin (sealUnpin (batchClose a 2) _ _ _) _ _ _ = x at h3 h4
  have hx : x.sealU = (batchClose a 2).sealU := h3.trans h1
  have hxcq : x.host.cq = s.host.cq := by rw [h4, h2, hbcq, hacq]
  rw [haseal, hadt, ← hx] at hsig
  exact ⟨rfl, rfl, rfl, rfl, rfl, (congrArg (·.batch) hx).trans hb, hsig, hxcq⟩

end Sys2Proof.Machine
end

section
open Sys2Proof Sys2Proof.Machine Sys2Proof.Safety

/-- Settles O33: mode 0 is an answer or a wait, and mode 1 is one look at the batches kept. -/
theorem batchLogAndPathsRead : Obligations.BatchLogAndPathsRead := by
  rintro s u f ⟨ha, hr, hs, hd⟩ hup
  have hlog := exec_opBatchGetLog u s ha
  have hpath := exec_opBatchGetPath u s ha
  have hexp := exec_batchGetWaitExpiry u s ha
  refine ⟨fun hm => ⟨?modeLog, ?modePath⟩, fun h0 hun hw => ⟨fun hnow => ?answer, fun hany hpos hst => ?wait⟩,
    fun a ms x hst hms => ?expiry, fun h1 hun hl => ⟨fun hno => ?gone, fun b hb => ⟨fun hleaf => ?noLeaf,
      fun hleaf => ?path⟩⟩⟩
  case modeLog =>
    rw [batchGetLog, withSub_unlisted hr hs (by simp; omega), if_pos (by omega), badParam, bad, reject] at hlog
    exact ⟨_, hlog, completed_self s f stBad 0 0 _ hd, by simp⟩
  case modePath =>
    rw [batchGetPath, withSub_unlisted hr hs (by simp; omega), if_pos (by omega), badParam, bad, reject] at hpath
    exact ⟨_, hpath, completed_self s f stBad 0 0 _ hd, by simp⟩
  case answer =>
    rw [batchGetLog_run hr hs h0 hun hw, if_pos (by rcases hnow with h | h <;> simp [h])] at hlog
    exact ⟨_, hlog, batchGetDone_answers hup hd⟩
  case wait =>
    rw [batchGetLog_run hr hs h0 hun hw, if_neg (by simp [hany]; omega), hst] at hlog
    exact ⟨_, hlog, flightOf_restaged hr _, rfl, rfl⟩
  case expiry =>
    rw [batchGetWaitExpiry, withDesc_run s u 0x28 _ f hr hs, hst] at hexp
    simp only [hms, if_true] at hexp
    exact ⟨_, hexp, batchGetDone_answers hup hd⟩
  case gone =>
    have hnone : (s.sealU.recent.find? fun b => b.bid.toNat == dByte f.raw 36 8) = none := by
      rw [List.find?_eq_none]
      intro b hb
      simpa using hno b hb
    rw [batchGetPath_run hr hs h1 hun hl, hnone] at hpath
    exact ⟨_, hpath, completed_self s f stOk 0 0 1 hd, by simp [completeOk]⟩
  case noLeaf =>
    rw [batchGetPath_run hr hs h1 hun hl, hb] at hpath
    simp only [hleaf, if_true] at hpath
    exact ⟨_, hpath, completed_self s f stOk 0 0 2 hd, by simp [completeOk]⟩
  case path =>
    rw [batchGetPath_run hr hs h1 hun hl, hb] at hpath
    simp only [Nat.not_le.mpr hleaf, if_false, completeOk] at hpath
    exact ⟨_, hpath, completed_writeBuf hd _ _ _ _ _, wrote_complete hup f _ _ _ _ _⟩

/-- Settles O32: the checks in the order of the descriptor, then both keys in one step. -/
theorem sealKeysSet : Obligations.SealKeysSet := by
  rintro s u f ⟨ha, hr, hs, hd⟩
  have hrow := exec_opSealKeySet u s ha
  rw [sealKeySet_run hr hs] at hrow
  have hrefuse : ∀ st res, exec (.opSealKeySet u) s = .next (wmUpdate (reject s f st res)) →
      ∃ t, exec (.opSealKeySet u) s = .next t ∧ Completed s t f st 0 0 res ∧ rest t = rest s :=
    fun st res h => ⟨_, h, completed_self s f st 0 0 res hd, by simp [reject]⟩
  refine ⟨fun hbad => ?session, fun h1 h2 => ⟨fun hbad => ?sign, fun h3 h4 => ⟨fun st hst => ?sessionKey,
    fun st hok hst => ?signKey, fun hok hok' => ⟨fun s0 hpin => ?pins, fun s0 hpin hsome => ?use⟩⟩⟩⟩
  case session =>
    rw [if_pos (by rcases hbad with h | h <;> simp [h])] at hrow
    exact hrefuse stBad _ hrow
  all_goals rw [if_neg (by simp [h1, h2])] at hrow
  case sign =>
    rw [if_pos (by rcases hbad with h | h <;> simp [h])] at hrow
    exact hrefuse stBad _ hrow
  all_goals rw [if_neg (by simp [h3, h4])] at hrow
  case sessionKey =>
    rw [hst] at hrow
    exact hrefuse st 0 hrow
  case signKey =>
    rw [hok, hst] at hrow
    exact hrefuse st 0 hrow
  all_goals
    rw [hok, hok'] at hrow
    obtain ⟨k, rfl⟩ := pinsExceed_state hpin
  case pins =>
    simp only [sealKeyTake, hpin] at hrow
    exact ⟨_, hrow, completed_of s _ f stSlotBusy 0 0 0 hd rfl, by simp [reject], by simp [reject]⟩
  case use =>
    obtain ⟨s', hs'⟩ := Option.isSome_iff_exists.mp hsome
    simp only [sealKeyTake, hpin, hs', completeOk] at hrow
    obtain ⟨x, hx, hx'⟩ := Option.bind_eq_some_iff.mp hs'
    obtain ⟨a1, a2, a3⟩ := sealPin_frame hx
    obtain ⟨b1, b2, b3⟩ := sealPin_frame hx'
    obtain ⟨e1, e2, e3, e4, e5, e6, e7, hcq⟩ := sealKeyUse_frame (f := f) (b1.trans a1) (b2.trans a2) (b3.trans a3)
    refine ⟨_, hrow, completed_of s _ f stOk 4 0 0 hd (by rw [cqGet, cqGet, hcq]), ?_⟩
    simp only [wmUpdate_sealU, complete_sealU]
    exact ⟨e1, e2, e3, e4, e5, e6, e7⟩

end

section
/-!
# Fetch and TC0 admission (02 R56 to R59, R88; 01 R29)

A fetched descriptor enters the flight list and is checked once admitted; the check completes it or leaves it, and keeps its
identity either way.
-/
namespace Sys2Proof.Machine
open Sys2Proof Sys2Proof.Safety

/-- Two descriptors of one identity: what the ring and the fetch gave them is the same. -/
def SameDesc (f g : Flight) : Prop :=
  g.uid = f.uid ∧ g.sq = f.sq ∧ g.cq = f.cq ∧ g.raw = f.raw ∧ g.seq = f.seq ∧ g.idx = f.idx ∧ g.admWait = f.admWait

/-- A descriptor checked is in flight, as it was fetched. -/
theorem checkAdmitted_flight {s : State} {f : Flight} (pushed dup : Bool) (h : ∃ g ∈ s.host.flights, g.uid = f.uid)
    (hd : f.discard = false) : ∃ g ∈ (checkAdmitted s f pushed dup).host.flights, SameDesc f g := by
  have hput : { f with adm := s.tcxo } ∈ (flightPut s { f with adm := s.tcxo }).host.flights := mem_flightPut h
  obtain e | ⟨st, r, e⟩ := checkAdmitted_cases s f pushed dup <;> rw [e]
  · exact ⟨{ f with adm := s.tcxo }, by simpa using hput, rfl, rfl, rfl, rfl, rfl, rfl, rfl⟩
  · rw [complete_flights _ { f with adm := s.tcxo } _ _ _ _ hd]
    exact ⟨_, mem_flightPut ⟨{ f with adm := s.tcxo }, by simpa using hput, rfl⟩, rfl, rfl, rfl, rfl, rfl, rfl, rfl⟩

/-- The check leaves the rings, the numbering and the admission queue. -/
theorem checkAdmitted_frame (s : State) (f : Flight) (pushed dup : Bool) :
    (checkAdmitted s f pushed dup).host.sq = s.host.sq ∧ (checkAdmitted s f pushed dup).host.uidNext = s.host.uidNext ∧
      (checkAdmitted s f pushed dup).host.admQ = s.host.admQ := by
  obtain e | ⟨st, r, e⟩ := checkAdmitted_cases s f pushed dup <;> rw [e] <;> simp

/-! ## One descriptor fetched -/

/-- The descriptor as it enters flight (R56, R29). -/
def fetched (s : State) (q : Nat) (raw : BitVec 512) : Flight :=
  { uid := s.host.uidNext, sq := q, cq := sqCqId s q, idx := some (sqGet s q).head, raw := raw, seq := (sqGet s q).seq,
    admWait := dTc raw == 0 && (decide (64 ≤ tc0Used s) || !s.host.admQ.isEmpty), inPush := false, started := false,
    ended := false, discard := false, step := 0, units := 0, stage := .none, adm := 0 }

/-- The ring as a fetch leaves it. -/
def ringFetched (s : State) (q : Nat) : Sq :=
  { sqGet s q with head := ((sqGet s q).head + 1) % sqSize s q, seq := (sqGet s q).seq + 1 }

/-- What a fetch has done before the descriptor's check: the ring, the number and the descriptor in flight. -/
structure Entered (s t : State) (q : Nat) (raw : BitVec 512) : Prop where
  ring : t.host.sq = tset Sq.idle s.host.sq q (ringFetched s q)
  uid : t.host.uidNext = s.host.uidNext + 1
  flight : fetched s q raw ∈ t.host.flights

/-- The descriptor put into flight. -/
def fetchPut (s : State) (q : Nat) (raw : BitVec 512) : State :=
  let s' := sqPut s q (ringFetched s q)
  { s' with host := { s'.host with
      uidNext := s.host.uidNext + 1, flights := s'.host.flights ++ [fetched s q raw],
      admQ := if (fetched s q raw).admWait then s'.host.admQ ++ [.desc s.host.uidNext] else s'.host.admQ } }

/-- The time stamp of its doorbell, for a time message (15 R464). -/
def fetchStamp (s : State) (t : State) (q : Nat) (raw : BitVec 512) : State :=
  if dOpcode raw = 0x68 then
    { t with host := { t.host with t2s := tset 0 t.host.t2s s.host.uidNext (tget 0 t.host.dbT2 q) } } else t

/-- Counted, with its journal entry. -/
def fetchJrnl (t : State) (f : Flight) : State :=
  let u := bwRx (cnt (notePeak t) 288) 66 64
  if journaled (dOpcode f.raw) then jrnlOpen u f else u

theorem fetchOne_eq (s : State) (q : Nat) (raw : BitVec 512) : fetchOne s q raw =
    (let u := fetchJrnl (fetchStamp s (fetchPut s q raw) q raw) (fetched s q raw)
     if (fetched s q raw).admWait then cnt u 298
     else checkAdmitted u (fetched s q raw) false (dupTag u (fetched s q raw))) := rfl

theorem fetchPut_entered (s : State) (q : Nat) (raw : BitVec 512) : Entered s (fetchPut s q raw) q raw :=
  ⟨rfl, rfl, List.mem_append_right _ (List.mem_singleton_self _)⟩

theorem Entered.stamp {s t : State} {q : Nat} {raw : BitVec 512} (h : Entered s t q raw) :
    Entered s (fetchStamp s t q raw) q raw := by
  unfold fetchStamp
  split
  · exact ⟨h.ring, h.uid, h.flight⟩
  · exact h

theorem Entered.jrnl {s t : State} {q : Nat} {raw : BitVec 512} (h : Entered s t q raw) (f : Flight) :
    Entered s (fetchJrnl t f) q raw := by
  obtain ⟨p, hp⟩ := notePeak_eq t
  have hu : Entered s (bwRx (cnt (notePeak t) 288) 66 64) q raw := by
    refine ⟨?_, ?_, ?_⟩
    · simpa [hp] using h.ring
    · simpa [hp] using h.uid
    · simpa [hp] using h.flight
  unfold fetchJrnl
  dsimp only
  split
  · obtain ⟨l, j, jw, k, hh, c, pp, w, he⟩ := jrnlOpen_eq (bwRx (cnt (notePeak t) 288) 66 64) f
    rw [he]
    exact ⟨hu.ring, hu.uid, hu.flight⟩
  · exact hu

/-- A fetched descriptor is in flight with the ring's SEQ and index, and the ring has moved by one. -/
theorem fetchOne_enters (s : State) (q : Nat) (raw : BitVec 512) :
    (fetchOne s q raw).host.sq = tset Sq.idle s.host.sq q (ringFetched s q) ∧
      (fetchOne s q raw).host.uidNext = s.host.uidNext + 1 ∧
      ∃ g ∈ (fetchOne s q raw).host.flights, SameDesc (fetched s q raw) g := by
  have hent := ((fetchPut_entered s q raw).stamp).jrnl (fetched s q raw)
  rw [fetchOne_eq]
  generalize fetchJrnl (fetchStamp s (fetchPut s q raw) q raw) (fetched s q raw) = u at hent
  dsimp only
  split
  · refine ⟨by simpa using hent.ring, by simpa using hent.uid, fetched s q raw, by simpa using hent.flight, ?_⟩
    exact ⟨rfl, rfl, rfl, rfl, rfl, rfl, rfl⟩
  · obtain ⟨h1, h2, -⟩ := checkAdmitted_frame u (fetched s q raw) false (dupTag u (fetched s q raw))
    exact ⟨h1.trans hent.ring, h2.trans hent.uid, checkAdmitted_flight _ _ ⟨_, hent.flight, rfl⟩ rfl⟩

/-- The arbiter's share is no part of a ring, a number or a flight. -/
theorem arbIf_eq (b : Bool) (s : State) (a c : Nat) : ∃ g, (if b then arbTake s a c else s) = { s with glob := g } ∧
    g.cores = s.glob.cores := by
  split
  · obtain ⟨x, hx⟩ := arbTake_eq s a c
    exact ⟨_, hx, rfl⟩
  · exact ⟨s.glob, rfl, rfl⟩

theorem headWriteBack_frame (s : State) (q : Nat) : (headWriteBack s q).host.sq = s.host.sq ∧
    (headWriteBack s q).host.uidNext = s.host.uidNext ∧ (headWriteBack s q).host.flights = s.host.flights := by
  simp [headWriteBack]

end Sys2Proof.Machine
end

section
open Sys2Proof Sys2Proof.Machine Sys2Proof.Safety

/-- Settles O19: a fetch puts the descriptor into flight and checks it; an admission takes the oldest that waits. -/
theorem fetchAndAdmission : Obligations.FetchAndAdmission := by
  refine ⟨fun s q raw ha hon hup hne hplace hfence hgrant hcore htail => ?fetch, fun s uid l f ha hq htc0 hf hd => ?place⟩
  case fetch =>
    have hrow := exec_descriptorFetch q [raw] s ha
    obtain ⟨g, hg, hcores⟩ := arbIf_eq (fetchOpen s q && !coresPaused s) s 0 (sqClass s q)
    rw [descriptorFetch, if_neg (by simp [hon, hup, hgrant]), hg] at hrow
    generalize hs1 : ({ s with glob := g } : State) = s1 at hrow
    have hmany : fetchMany s1 q ([raw].take 8) = fetchOne s1 q raw := by
      have hpaused : coresPaused s1 = coresPaused s := by
        rw [← hs1]
        simp only [coresPaused, hcores]
      have hcond : (coresPaused s && (opCore (dOpcode raw)).isSome) = false := by
        by_cases hp : coresPaused s = true
        · simp [hcore hp]
        · simp [hp]
      have hj : (journaled (dOpcode raw) && !tailOpenTc s (dTc raw)) = false := by
        by_cases hp : journaled (dOpcode raw) = true
        · simp [htail hp]
        · simp [hp]
      have h1 : ¬ (sqGet s1 q).head = (sqGet s1 q).tail := by rw [← hs1]; exact hne
      have h2 : (!placeFree s1 (dTc raw) || fenceStopped s1 q) = false := by
        rw [← hs1, show placeFree { s with glob := g } (dTc raw) = placeFree s (dTc raw) from rfl, hplace,
          show fenceStopped { s with glob := g } q = fenceStopped s q from rfl, hfence]
        rfl
      have h3 : (journaled (dOpcode raw) && !tailOpenTc s1 (dTc raw)) = false := by rw [← hs1]; exact hj
      show fetchMany s1 q [raw] = _
      rw [fetchMany, if_neg h1, if_neg (by simp [h2]), if_neg (by simp [hpaused, hcond]), if_neg (by simp [h3])]
      rfl
    rw [hmany] at hrow
    obtain ⟨hring, huid, x, hx, hsame⟩ := fetchOne_enters s1 q raw
    have hsq : ∀ t : State, t.host.sq = (fetchOne s1 q raw).host.sq → sqGet (wmUpdate t) q = ringFetched s q := fun t ht => by
      rw [wmUpdate_sqGet, sqGet, ht, hring, ← hs1]
      exact tget_tset_same _ _ _ _
    obtain ⟨e1, e2, e3, e4, e5, e6, -⟩ := hsame
    obtain ⟨t, ht, hts, htu, htf⟩ : ∃ t, exec (.descriptorFetch q [raw]) s = .next (wmUpdate t) ∧
        t.host.sq = (fetchOne s1 q raw).host.sq ∧ t.host.uidNext = (fetchOne s1 q raw).host.uidNext ∧
        t.host.flights = (fetchOne s1 q raw).host.flights := by
      dsimp only at hrow
      split at hrow
      · exact ⟨_, hrow, headWriteBack_frame _ q⟩
      · exact ⟨_, hrow, rfl, rfl, rfl⟩
    refine ⟨_, ht, ?_, ?_, ?_, ?_, x, ?_, ?_⟩
    · rw [hsq t hts]; rfl
    · rw [hsq t hts]; rfl
    · rw [hsq t hts]; rfl
    · rw [wmUpdate_host, htu, huid, ← hs1]
    · rw [wmUpdate_host, htf]
      exact hx
    · rw [e1, e2, e3, e4, e5, e6, ← hs1]
      exact ⟨rfl, rfl, rfl, rfl, rfl, rfl⟩
  case place =>
    have hrow := exec_tc0Admission s ha
    obtain ⟨hmem, huid⟩ := flightOf_some hf
    generalize hs1 : ({ s with host := { s.host with admQ := l } } : State) = s1
    have hf' : flightOf s1 uid = some f := by rw [← hs1]; exact hf
    have hmem' : f ∈ s1.host.flights := by rw [← hs1]; exact hmem
    generalize hg : { f with admWait := false } = g
    have hrow' : tc0Admission s = checkAdmitted (flightPut s1 g) g false (dupTag s1 g) := by
      simp only [tc0Admission, hq, Nat.not_le.mpr htc0, if_false, admitDesc, hs1, hf', hg]
    rw [hrow'] at hrow
    have hput : g ∈ (flightPut s1 g).host.flights := mem_flightPut ⟨f, hmem', by rw [← hg]⟩
    obtain ⟨x, hx, h1, -, -, h4, -, -, h7⟩ := checkAdmitted_flight (f := g) false (dupTag s1 g) ⟨_, hput, rfl⟩
      (by rw [← hg]; exact hd)
    obtain ⟨-, -, hadm⟩ := checkAdmitted_frame (flightPut s1 g) g false (dupTag s1 g)
    rw [← hg] at h1 h4 h7
    exact ⟨_, hrow, hadm.trans (by rw [← hs1]; rfl), x, hx, h1.trans huid, h4, h7⟩

end

section
/-!
# Leaves, closes and signatures of batches (07 R228 to R237)

The pipelines that a leaf's tag passes leave the seal unit alone (`keyRest_cipherRun`), so a leaf is `leafTake` on the batch
as it stood; a signature is one entry of the batch log.
-/
namespace Sys2Proof.Machine
open Sys2Proof Sys2Proof.Safety

/-! ## A leaf -/

theorem wireRest_sealU {s t : State} (h : wireRest t = wireRest s) : t.sealU = s.sealU := congrArg (·.sealU) h
theorem wireRest_hostMem {s t : State} (h : wireRest t = wireRest s) : t.hostMem = s.hostMem := congrArg (·.hostMem) h
theorem keyRest_hostMem {s t : State} (h : keyRest t = keyRest s) : t.hostMem = s.hostMem := congrArg (·.hostMem) h
theorem keyRest_deliv {s t : State} (h : keyRest t = keyRest s) :
    t.host.deliv = s.host.deliv ∧ t.host.delivNext = s.host.delivNext :=
  ⟨congrArg (·.host.deliv) h, congrArg (·.host.delivNext) h⟩

theorem storeSealed_eq (s : State) (rid : Nat) (r : ReadRec) : ∃ x, storeSealed s rid r = { s with store := x } := by
  unfold storeSealed
  dsimp only
  split
  · exact ⟨s.store, rfl⟩
  · exact ⟨_, rfl⟩

/-- A record put into the delivery queue under the next id. -/
theorem deliver_frame (s : State) (r : ReadRec) (g c : Nat) (tc0 : Bool) (uid : Option Nat) :
    (deliver s r g c tc0 uid).host.deliv = s.host.deliv ++ [⟨s.host.delivNext, tc0, r, g, c, uid, none⟩] ∧
      (deliver s r g c tc0 uid).sealU = s.sealU ∧ (deliver s r g c tc0 uid).recs = s.recs ∧
      (deliver s r g c tc0 uid).hostMem = s.hostMem := by
  have h := wireRest_mirrorGated s 0x12 [s.host.delivNext, r.eid.toNat] 1 s.host.delivNext
  unfold deliver
  dsimp only
  generalize mirrorGated s 0x12 _ 1 _ = u at h
  exact ⟨by rw [wireRest_deliv h], wireRest_sealU h, wireRest_recs h, wireRest_hostMem h⟩

/-- The open batch with one more leaf. -/
def withLeaf (s : State) (b : Batch) (r : ReadRec) : Batch :=
  { b with leaves := b.leaves ++ [leafHash r], recs := b.recs ++ [s.host.delivNext] }

/-- What a leaf leaves (R229 to R231): the record delivered, the batch one leaf longer, and closed where it is full. -/
theorem leafTake_frame (s : State) (key : BitVec 256) (it : SealItem) (l : List SealItem) (b : Batch) :
    let t := leafTake s key it l b
    let r := sealRecord key b it.rd
    t.sealU.queue = l ∧ (∃ d ∈ t.host.deliv, d.id = s.host.delivNext ∧ d.rd = r ∧ d.tc0 = it.tc0 ∧ d.cls = it.cls ∧
        d.uid = it.uid) ∧
      (b.leaves.length + 1 < 4096 → t.sealU.signQ = s.sealU.signQ ∧ t.sealU.batch = some (withLeaf s b r)) ∧
      (4096 ≤ b.leaves.length + 1 → t.sealU.batch = none ∧ ∃ b', t.sealU.signQ = s.sealU.signQ ++ [b'] ∧ b'.bid = b.bid ∧
        b'.cause = 0 ∧ b'.leaves = b.leaves ++ [leafHash r]) ∧
      t.hostMem = s.hostMem ∧ t.recs = s.recs ∧ t.sealU.prev = s.sealU.prev ∧ t.sealU.ctrNext = s.sealU.ctrNext := by
  intro t r
  -- The state with the batch one leaf longer, before the record goes on.
  generalize hu : ({ s with sealU := { s.sealU with batch := some (withLeaf s b r), queue := l } } : State) = u
  obtain ⟨x, hx⟩ := storeSealed_eq (cntAdd u 320 1 r.eid) it.rid r
  obtain ⟨c, p, w, hc⟩ := cntAdd_eq u 320 1 r.eid
  obtain ⟨h1, h2, h3, h4⟩ := deliver_frame (storeSealed (cntAdd u 320 1 r.eid) it.rid r) r it.group it.cls it.tc0 it.uid
  have ht : t = if (withLeaf s b r).leaves.length ≥ 4096 then
      batchClose (deliver (storeSealed (cntAdd u 320 1 r.eid) it.rid r) r it.group it.cls it.tc0 it.uid) 0
    else deliver (storeSealed (cntAdd u 320 1 r.eid) it.rid r) r it.group it.cls it.tc0 it.uid := by rw [← hu]; rfl
  generalize deliver (storeSealed (cntAdd u 320 1 r.eid) it.rid r) r it.group it.cls it.tc0 it.uid = v at *
  rw [hx, hc] at h1 h2 h3 h4
  have hdel : ∃ d ∈ v.host.deliv, d.id = s.host.delivNext ∧ d.rd = r ∧ d.tc0 = it.tc0 ∧ d.cls = it.cls ∧ d.uid = it.uid := by
    refine ⟨_, by rw [h1]; exact List.mem_append_right _ (List.mem_singleton_self _), ?_⟩
    rw [← hu]
    exact ⟨rfl, rfl, rfl, rfl, rfl⟩
  have hseal : v.sealU = { s.sealU with batch := some (withLeaf s b r), queue := l } := by rw [h2, ← hu]
  have hmem : v.hostMem = s.hostMem := by rw [h4, ← hu]
  have hrecs : v.recs = s.recs := by rw [h3, ← hu]
  have hlen : (withLeaf s b r).leaves.length = b.leaves.length + 1 := by simp [withLeaf]
  clear_value t
  by_cases hfull : 4096 ≤ b.leaves.length + 1
  · rw [if_pos (by rw [hlen]; exact hfull)] at ht
    subst ht
    have hclose : batchClose v 0 = cnt { v with sealU := { v.sealU with
        batch := none, signQ := v.sealU.signQ ++ [{ withLeaf s b r with dtClose := dtOf v, cause := 0 }],
        recent := ({ withLeaf s b r with dtClose := dtOf v, cause := 0 } :: v.sealU.recent).take 32 } } 321 := by
      rw [batchClose, show v.sealU.batch = some (withLeaf s b r) by rw [hseal]]
    rw [hclose]
    simp only [cnt_sealU, cnt_host_deliv, cnt_hostMem, cnt_recs]
    exact ⟨by rw [hseal], hdel, fun h => absurd h (by omega), 
      fun _ => ⟨trivial, _, congrArg (· ++ [_]) (congrArg (·.signQ) hseal), rfl, rfl, rfl⟩,
      hmem, hrecs, by rw [hseal], by rw [hseal]⟩
  · rw [if_neg (by rw [hlen]; exact hfull)] at ht
    subst ht
    exact ⟨by rw [hseal], hdel, fun _ => ⟨by rw [hseal], by rw [hseal]⟩, fun h => absurd h hfull, hmem, hrecs,
      by rw [hseal], by rw [hseal]⟩

/-- The seal stage, where a batch is open, neither due nor of another generation, and the session key has its slot. -/
theorem sealStep_leaf {s : State} {it : SealItem} {l : List SealItem} {k gk : BitVec 256} {g gg typ : BitVec 8} {i : Nat}
    (hq : s.sealU.queue = it :: l) (hk : sealKeys s = some (k, g, gk, gg, typ)) (hh : sealHeld s it.cls = false)
    {u : State} {b : Batch} (hb : u.sealU.batch = some b) (hi : slotFind u u.sealU.session g 2 = some i)
    (hu : (if (batchSettle s g).sealU.batch.isNone && batchMayOpen (batchSettle s g) it.cls then
      batchOpen (batchSettle s g) g gg else batchSettle s g) = u)
    (hrun : (cipherRun (slotHand u i).1 1 (slotHand u i).2 8).2.isSome = true) :
    sealStep s = leafTake (cipherRun (slotHand u i).1 1 (slotHand u i).2 8).1 (slotHand u i).2.val it l b := by
  obtain ⟨p, hp⟩ := Option.isSome_iff_exists.mp hrun
  rw [sealStep, hq]
  dsimp only
  rw [hk]
  dsimp only
  rw [if_neg (by simp [hh]), hu, hb, hi]
  dsimp only
  generalize cipherRun (slotHand u i).1 1 (slotHand u i).2 8 = x at hp ⊢
  obtain ⟨v, o⟩ := x
  dsimp only at hp
  rw [hp]

/-- The session key handed to a pipeline: its value as the slot holds it, and all but the key store's bookkeeping kept. -/
theorem slotHand_val (s : State) (i : Nat) : (slotHand s i).2.val = (slotGet s i).sh.val := shareAgain_val _ _

theorem keyRest_slotHand (s : State) (i : Nat) : keyRest (slotHand s i).1 = keyRest s := rfl

/-- What a pipeline's run over a slot's key keeps. -/
theorem cipherHand_frame (s : State) (i : Nat) :
    let t := (cipherRun (slotHand s i).1 1 (slotHand s i).2 8).1
    t.sealU = s.sealU ∧ t.host.deliv = s.host.deliv ∧ t.host.delivNext = s.host.delivNext ∧ t.hostMem = s.hostMem ∧
      t.recs = s.recs := by
  have h := (keyRest_cipherRun (slotHand s i).1 1 (slotHand s i).2 8).trans (keyRest_slotHand s i)
  obtain ⟨h1, h2⟩ := keyRest_deliv h
  exact ⟨keyRest_seal h, h1, h2, keyRest_hostMem h, keyRest_recs h⟩

/-- Without its keys the stage holds its records, and KEY_MISSING stands (R228). -/
theorem sealWatch_frame {s : State} (h : sealKeys s = none) : (sealWatch s).sealU.queue = s.sealU.queue ∧
    (sealWatch s).sealU.missed = true ∧ (sealWatch s).host.deliv = s.host.deliv := by
  unfold sealWatch
  by_cases hm : s.sealU.missed = true
  · simp [hm]
  · simp [keyMissing, h, hm]

/-- The seal unit as a new batch finds it: a block of 4,096 numbers is reserved where the last one is used up (R231). -/
def numbered (u : SealSt) : SealSt := if u.ctrNext < u.ctrLimit then u else { u with ctrLimit := u.ctrNext + 4096 }

theorem numbered_kept (u : SealSt) : (numbered u).ctrNext = u.ctrNext ∧ (numbered u).src = u.src ∧
    (numbered u).prev = u.prev ∧ (numbered u).session = u.session := by
  unfold numbered
  split <;> exact ⟨rfl, rfl, rfl, rfl⟩

/-- The batch a seal unit opens next. -/
def nextBatch (s : State) (u : SealSt) (g gg : BitVec 8) : Batch :=
  { bid := batchId u.src u.ctrNext, prev := u.prev, session := u.session, sGen := g, sign := u.sign, gGen := gg
    dtOpen := dtOf s
    dtClose := 0, cause := 0, rebuilt := false, gaps := false, closeMs := regFld s 0x500 0 8, opened := s.tcxo, leaves := []
    recs := [] }

/-- The state with that batch open. -/
def withNextBatch (s : State) (u : SealSt) (g gg : BitVec 8) : State :=
  { s with sealU := { u with ctrNext := u.ctrNext + 1, prev := batchId u.src u.ctrNext, batch := some (nextBatch s u g gg) } }

theorem batchOpen_eq (s : State) (g gg : BitVec 8) : batchOpen s g gg =
    appendState (withNextBatch s (numbered s.sealU) g gg) 0
      (.batch (batchId (numbered s.sealU).src (numbered s.sealU).ctrNext) (numbered s.sealU).prev) := rfl

/-- A batch opened: the next number, bound to the batch before (R231). -/
theorem batchOpen_frame (s : State) (g gg : BitVec 8) : ∃ b, (batchOpen s g gg).sealU.batch = some b ∧
    b.bid = batchId s.sealU.src s.sealU.ctrNext ∧ b.prev = s.sealU.prev ∧ b.leaves = [] ∧ b.dtOpen = dtOf s ∧
    (batchOpen s g gg).sealU.prev = batchId s.sealU.src s.sealU.ctrNext ∧
    (batchOpen s g gg).sealU.ctrNext = s.sealU.ctrNext + 1 ∧ (batchOpen s g gg).sealU.session = s.sealU.session ∧
    (batchOpen s g gg).keys = s.keys := by
  obtain ⟨h1, h2, h3, h4⟩ := numbered_kept s.sealU
  rw [batchOpen_eq, appendState_sealU, appendState_keys]
  generalize numbered s.sealU = u at h1 h2 h3 h4 ⊢
  rw [← h1, ← h2, ← h3, ← h4]
  exact ⟨_, rfl, rfl, rfl, rfl, rfl, rfl, rfl, rfl, rfl⟩

end Sys2Proof.Machine
end

section
open Sys2Proof Sys2Proof.Machine Sys2Proof.Safety

/-- Settles O30: a record's leaf is one `leafTake` on the open batch, or on the batch it opens. -/
theorem recordsBecomeLeaves : Obligations.RecordsBecomeLeaves := by
  intro s it l ha hq
  have hrow := exec_sealLeaf s ha
  refine ⟨fun hk => ?_, fun k gk g gg typ i hk hh hi => ⟨fun b hb hdue hgen hrun => ?leaf, fun hb hmay hrun => ?opens⟩⟩
  · have hstep : sealStep s = sealWatch s := by
      rw [sealStep, hq]
      dsimp only
      rw [hk]
    rw [hstep] at hrow
    obtain ⟨h1, h2, h3⟩ := sealWatch_frame hk
    exact ⟨_, hrow, h1, h2, h3⟩
  case leaf =>
    have hsettle : batchSettle s g = s := by
      rw [batchSettle, hb]
      simp [hdue, hgen]
    rw [sealStep_leaf hq hk hh hb hi (by rw [hsettle, hb]; rfl) hrun, slotHand_val] at hrow
    obtain ⟨e1, e2, e3, e4, e5⟩ := cipherHand_frame s i
    generalize (cipherRun (slotHand s i).1 1 (slotHand s i).2 8).1 = v at *
    obtain ⟨a1, a2, a3, a4, a5, a6, -, -⟩ := leafTake_frame v (slotGet s i).sh.val it l b
    rw [e3] at a2
    rw [e1] at a3 a4
    refine ⟨_, hrow, a1, a2, fun h => ⟨(a3 h).1, _, (a3 h).2, rfl, rfl⟩, fun h => ?_, a5.trans e4, ?_⟩
    · exact a4 h
    · rw [wmUpdate_recs, a6, e5]
  case opens =>
    have hsettle : batchSettle s g = s := by rw [batchSettle, hb]
    obtain ⟨b, h1, h2, h3, h4, h5, h6, h7, h8, h9⟩ := batchOpen_frame s g gg
    have hfind : slotFind (batchOpen s g gg) (batchOpen s g gg).sealU.session g 2 = some i := by
      rw [slotFind, h8, h9]
      exact hi
    rw [sealStep_leaf hq hk hh h1 hfind (by rw [hsettle, hb]; simp [hmay]) hrun] at hrow
    obtain ⟨e1, -⟩ := cipherHand_frame (batchOpen s g gg) i
    generalize (cipherRun (slotHand (batchOpen s g gg) i).1 1 (slotHand (batchOpen s g gg) i).2 8).1 = v at *
    obtain ⟨a1, -, a3, -, -, -, a7, a8⟩ := leafTake_frame v (slotHand (batchOpen s g gg) i).2.val it l b
    refine ⟨_, hrow, a1, a7.trans (by rw [e1, h6]), a8.trans (by rw [e1, h7]), _, (a3 (by rw [h4]; decide)).2, h2, h3, ?_, h5⟩
    simp [withLeaf, h4]

end

section
/-!
# Batches closed by age and signed (07 R232, R234, R237)

Two requests of the DRBG change only the crypto engine's count of them, so a signature is one entry of the batch log on an
otherwise unchanged seal unit.
-/
namespace Sys2Proof.Machine
open Sys2Proof Sys2Proof.Safety

@[simp] theorem drbgUse_keys (s : State) : (drbgUse s).keys = s.keys := by
  rw [drbgUse, drbgJudge]
  split <;> simp

/-- Two requests of the DRBG: the key store and all that `keyRest` covers stay. -/
theorem signDraw_frame {s t : State} (h : signDraw s = some t) : keyRest t = keyRest s ∧ t.keys = s.keys := by
  unfold signDraw at h
  split at h
  · cases h
  · split at h
    · cases h
    · obtain rfl := Option.some.inj h
      simp

/-- The entry of the batch log a signature makes. -/
def signedEntry (s : State) (b : Batch) (g : BitVec 8) (kb : Blob) (k : BitVec 256) (n : Nat) : LogBatch :=
  let curve := if kb.typ.toNat = 4 then 1 else 2
  let hdr := batchHeader s { b with gGen := g } curve
  { lseq := s.sealU.lseq, hdr := hdr, bid := b.bid, recs := b.recs
    sig := sigBytes curve (Config.ecdsaSign kb.typ (privScalar kb.typ k (BitVec.ofNat 32 b.sign)) n (sigHash kb.typ hdr)) }

/-- The batch at the front of the signature queue in the batch log (R237). -/
def withSigned (s : State) (l : List Batch) (e : LogBatch) : State :=
  { s with sealU := { s.sealU with signQ := l, owed := s.sealU.owed - 1, lseq := s.sealU.lseq + 1,
                                   log := (s.sealU.log ++ [e]).drop ((s.sealU.log ++ [e]).length - 65536) } }

/-- What the store writes of a batch-log entry. -/
def signedUnit (b : Batch) (e : LogBatch) : SEnt :=
  { ssn := 0, typ := 3, quar := false, eid := 0xFFFFFFFF, dt := b.dtClose, rid := 0, post := none, pw := 0, rd := none
    body := logBatchBytes e }

/-- The curve code of a signing key's type, as the header gives it. -/
theorem curve_eq (typ : BitVec 8) : (if typ.toNat = 4 then 1 else 2 : Nat) = if typ = 4 then 1 else 2 := by
  simp [← BitVec.toNat_inj]

theorem keyRest_takeFree (s : State) : keyRest (takeFree s).2 = keyRest s := rfl

theorem signedEntry_hdr {s v : State} (h : v.harn = s.harn) (b : Batch) (g : BitVec 8) (kb : Blob) (k : BitVec 256)
    (n : Nat) :
    (signedEntry v b g kb k n).hdr = batchHeader s { b with gGen := g } (if kb.typ = 4 then 1 else 2) := by
  rw [signedEntry]
  dsimp only
  rw [curve_eq, batchHeader, batchHeader, h]

theorem signedEntry_sig (v : State) (b : Batch) (g : BitVec 8) (kb : Blob) (k : BitVec 256) (n : Nat) :
    (signedEntry v b g kb k n).sig = sigBytes (if kb.typ = 4 then 1 else 2)
      (Config.ecdsaSign kb.typ (privScalar kb.typ k (BitVec.ofNat 32 b.sign)) n
        (sigHash kb.typ (signedEntry v b g kb k n).hdr)) := by
  rw [← curve_eq]
  rfl

theorem batchSign_eq {s t : State} {b : Batch} {l : List Batch} {k : BitVec 256} {g : BitVec 8} {kb : Blob} {i : Nat}
    (hq : s.sealU.signQ = b :: l) (hu : dirUse s b.sign = .ok k g) (hk : (dirGet s b.sign).cur = some kb)
    (hi : slotFind s b.sign g 2 = some i) (hr : storeRoom s = true) (hd : signDraw s = some t) :
    let v := (takeFree (slotHand t i).1).2
    let e := signedEntry v b g kb (slotHand t i).2.val (takeFree (slotHand t i).1).1
    batchSign s = storeQueue (cnt (withSigned v l e) 270) (signedUnit b e) := by
  rw [batchSign, hq]
  dsimp only
  rw [hu, hk]
  dsimp only
  rw [hi, if_pos hr, hd]
  rfl

theorem batchSign_waits {s : State} {b : Batch} {l : List Batch} {k : BitVec 256} {g : BitVec 8} {kb : Blob} {i : Nat}
    (hq : s.sealU.signQ = b :: l) (hu : dirUse s b.sign = .ok k g) (hk : (dirGet s b.sign).cur = some kb)
    (hi : slotFind s b.sign g 2 = some i) (h : storeRoom s = false ∨ signDraw s = none) : batchSign s = s := by
  have hnone : (if storeRoom s = true then signDraw s else none) = none := by
    obtain h | h := h <;> simp [h]
  rw [batchSign, hq]
  dsimp only
  rw [hu, hk]
  dsimp only
  rw [hi, hnone]

@[simp] theorem storeQueue_sealU (s : State) (e : SEnt) : (storeQueue s e).sealU = s.sealU := by
  unfold storeQueue; split <;> rfl
@[simp] theorem storeQueue_host (s : State) (e : SEnt) : (storeQueue s e).host = s.host := by
  unfold storeQueue; split <;> rfl

/-- The seal unit after a signature, in the terms of the state before the draw. -/
theorem withSigned_frame (s v : State) (l : List Batch) (e : LogBatch) (u : SEnt) (hv : v.sealU = s.sealU) :
    let t := storeQueue (cnt (withSigned v l e) 270) u
    t.sealU.signQ = l ∧ t.sealU.lseq = s.sealU.lseq + 1 ∧ t.sealU.batch = s.sealU.batch ∧ t.host.deliv = v.host.deliv ∧
      t.sealU.owed = s.sealU.owed - 1 ∧ t.sealU.log.getLast? = some e := by
  intro t
  have hseal : t.sealU = (withSigned v l e).sealU := by simp [t]
  have hdel : t.host.deliv = v.host.deliv := by simp [t, withSigned]
  rw [hseal, hdel, withSigned, hv]
  refine ⟨rfl, rfl, rfl, rfl, rfl, ?_⟩
  rw [List.getLast?_drop, if_neg (by rw [List.length_append, List.length_singleton]; omega), List.getLast?_concat]

theorem batchClose_eq {s : State} {b : Batch} (hb : s.sealU.batch = some b) (c : Nat) :
    batchClose s c = cnt { s with sealU := { s.sealU with
      batch := none, signQ := s.sealU.signQ ++ [{ b with dtClose := dtOf s, cause := c }],
      recent := ({ b with dtClose := dtOf s, cause := c } :: s.sealU.recent).take 32 } } (321 + c) := by
  rw [batchClose, hb]

end Sys2Proof.Machine
end

section
open Sys2Proof Sys2Proof.Machine Sys2Proof.Safety

/-- Settles O31: a close by age is `batchClose` with cause 1; a signature is `withSigned` with the entry `signedEntry`. -/
theorem batchesCloseAndAreSigned : Obligations.BatchesCloseAndAreSigned := by
  refine ⟨fun s b ha hb hdue => ?_, fun s b l ha hq k g hu kb hk i hi => ⟨fun hr hd => ?signed, fun h => ?waits⟩⟩
  · have hstep : batchCloseTimer s = batchClose s 1 := by
      rw [batchCloseTimer, hb]
      exact if_pos hdue
    refine ⟨_, (exec_batchCloseTimer s ha).trans (by rw [hstep, batchClose_eq hb]), ?_⟩
    simp only [wmUpdate_sealU, wmUpdate_recs, wmUpdate_host, cnt_sealU, cnt_recs, cnt_host_deliv, and_self]
  case waits =>
    refine ⟨_, (exec_batchSign s ha).trans (by rw [batchSign_waits hq hu hk hi h]), ?_, ?_⟩ <;> simp
  case signed =>
    obtain ⟨u, hd⟩ := Option.isSome_iff_exists.mp hd
    have hrow := exec_batchSign s ha
    rw [batchSign_eq hq hu hk hi hr hd] at hrow
    obtain ⟨hrest, hkeys⟩ := signDraw_frame hd
    have hv : keyRest (takeFree (slotHand u i).1).2 = keyRest s :=
      (keyRest_takeFree _).trans ((keyRest_slotHand u i).trans hrest)
    have hval : (slotHand u i).2.val = (slotGet s i).sh.val := by rw [slotHand_val, slotGet, slotGet, hkeys]
    generalize (takeFree (slotHand u i).1).2 = v at hv hrow
    rw [hval] at hrow
    generalize (takeFree (slotHand u i).1).1 = n at hrow
    have hseq : (signedEntry v b g kb (slotGet s i).sh.val n).lseq = s.sealU.lseq := congrArg (·.lseq) (keyRest_seal hv)
    have hhdr := signedEntry_hdr (s := s) (v := v) (congrArg (·.harn) hv) b g kb (slotGet s i).sh.val n
    have hsig := signedEntry_sig v b g kb (slotGet s i).sh.val n
    have hid : (signedEntry v b g kb (slotGet s i).sh.val n).bid = b.bid ∧
        (signedEntry v b g kb (slotGet s i).sh.val n).recs = b.recs := ⟨rfl, rfl⟩
    generalize signedEntry v b g kb (slotGet s i).sh.val n = e at *
    obtain ⟨h1, h2, h3, h4, h5, h6⟩ := withSigned_frame s v l e (signedUnit b e) (keyRest_seal hv)
    exact ⟨_, hrow, h1, h2, h3, h4.trans (keyRest_deliv hv).1, h5, e, n, h6, hseq, hid.1, hid.2, hhdr, hsig⟩

end

section
/-!
# The board around the core: pace, supply, cores, scrub, banks, test port and link (01 R34 to R40; 10 R323; 19 R540)

`dropRest` is the state without what the end of a control core's work can change; a bank's loss ends outbound frames of its
channels, which leaves the other banks' levels alone.
-/
namespace Sys2Proof.Machine
open Sys2Proof Sys2Proof.Safety

/-! ## Pace and supply -/

theorem paceStayed_paceBelow (s : State) : paceStayed (paceBelow s) = paceStayed s := by
  have hfast : paceFast (paceBelow s) = paceFast s := rfl
  rw [paceStayed, paceStayed, hfast]
  by_cases hf : paceFast s = true
  · cases hb : s.glob.below <;> simp [paceBelow, hf, hb, msPassed]
  · simp [hf]

theorem vreqAdjust_on {s : State} (h : vreqEn s = true) : vreqAdjust s =
    { paceBelow s with glob := { (paceBelow s).glob with code := BitVec.ofNat 8 (vreqNext (min 250 s.glob.code.toNat)
        (decide (vreqTarget s < s.glob.stPs.toNat)) (anyQueueHigh s) (paceStayed s)) } } := by
  rw [← paceStayed_paceBelow]
  exact if_pos h

theorem vreqAdjust_off {s : State} (h : vreqEn s = false) : vreqAdjust s =
    { paceBelow s with glob := { (paceBelow s).glob with code := vreqFixed s } } := if_neg (by
  rw [show vreqEn (paceBelow s) = vreqEn s from rfl, h]
  simp)

/-- The supply code after an adjustment, where it stood in range. -/
theorem vreqAdjust_code {s : State} (h : vreqEn s = true) (hc : s.glob.code.toNat ≤ 250) :
    (vreqAdjust s).glob.code.toNat = vreqNext s.glob.code.toNat (decide (vreqTarget s < s.glob.stPs.toNat)) (anyQueueHigh s)
      (paceStayed s) ∧ (vreqAdjust s).regs = s.regs := by
  have hb : ∀ a b c, vreqNext s.glob.code.toNat a b c < 256 := by
    intro a b c
    unfold vreqNext
    split
    · omega
    · split <;> omega
  rw [vreqAdjust_on h]
  refine ⟨?_, rfl⟩
  rw [Nat.min_eq_right hc]
  exact (BitVec.toNat_ofNat _ _).trans (Nat.mod_eq_of_lt (hb _ _ _))

theorem paceMeasure_glob (s : State) (ps : Nat) : (paceMeasure s ps).glob.stPs = BitVec.ofNat 16 ps ∧
    (paceMeasure s ps).glob.valid = true ∧
    (paceMeasure s ps).glob.peak.toNat = max s.glob.peak.toNat (BitVec.ofNat 16 ps).toNat ∧
    (paceMeasure s ps).glob.code = s.glob.code ∧ (paceMeasure s ps).regs = s.regs := by
  refine ⟨rfl, rfl, ?_, rfl, rfl⟩
  rw [paceMeasure, paceBelow]
  dsimp only
  split <;> omega

/-! ## Control cores -/

theorem coreState_coreSet_same {s : State} {k : Nat} (v : Nat) (h : coreState s k ≠ 3) : coreState (coreSet s k v) k = v := by
  refine lget_lset_same 3 _ k v (Decidable.byContradiction fun hk => h ?_)
  exact Tests.lget_ge 3 _ k (Nat.le_of_not_lt hk)

theorem coreState_coreSet_other (s : State) {k j : Nat} (v : Nat) (h : j ≠ k) : coreState (coreSet s k v) j = coreState s j :=
  lget_lset_other 3 _ _ _ _ h

/-- A state without what the end of a control core's work, or of the link's, can change. -/
def dropRest (s : State) : State :=
  { endRest s with
    host := { (endRest s).host with admQ := [], pushBuf := [] }
    log := { s.log with held := false }
    free := 0 }

theorem dropRest_of_endRest {s t : State} (h : endRest t = endRest s) : dropRest t = dropRest s := by
  have hlog : t.log = s.log := congrArg (·.log) h
  simp only [dropRest, h, hlog]

theorem foldl_dropRest {α : Type} (g : State → α → State) (l : List α) (s : State)
    (h : ∀ u a, dropRest (g u a) = dropRest u) : dropRest (l.foldl g s) = dropRest s := by
  induction l generalizing s with
  | nil => rfl
  | cons a l ih => rw [List.foldl_cons, ih, h]

theorem dropRest_distDrop (s : State) (u : Nat) : dropRest (distDrop s u) = dropRest s := rfl
theorem dropRest_objDrop (s : State) (u : Nat) : dropRest (objDrop s u) = dropRest s := rfl

theorem dropRest_txnCloseUid (s : State) (u : Nat) : dropRest (txnCloseUid s u) = dropRest s := by
  unfold txnCloseUid
  obtain ⟨l, h⟩ := txnPromoteAll_eq
    (txDropAll (txnsSet s (s.cmd.txns.filter fun t => t.uid != some u)) fun f => f.uid == some u)
  rw [h]
  rfl

theorem dropRest_abortWithdraw (s : State) (f : Flight) : dropRest (abortWithdraw s f) = dropRest s := by
  unfold abortWithdraw
  dsimp only
  rw [dropRest_txnCloseUid, dropRest_distDrop, dropRest_objDrop, dropRest_of_endRest (endRest_objScrub _ _)]
  split <;> rfl

theorem dropRest_coreDrop (s : State) (f : Flight) : dropRest (coreDrop s f) = dropRest s := by
  rw [coreDrop, dropRest_of_endRest (endRest_complete _ _ _ _ _ _), dropRest_abortWithdraw]

theorem dropRest_coresDrop (s : State) (p : Nat → Bool) (but : Nat) : dropRest (coresDrop s p but) = dropRest s :=
  foldl_dropRest coreDrop _ s dropRest_coreDrop

theorem dropRest_linkLose (s : State) (o : Obj) : dropRest (linkLose s o) = dropRest s := by
  unfold linkLose
  split
  · rfl
  · rw [dropRest_coreDrop, objLost]
    split <;> rfl

theorem dropRest_kept {s t : State} (h : dropRest t = dropRest s) : t.glob.cores = s.glob.cores ∧ t.regs = s.regs ∧
    t.upd = s.upd ∧ t.host.linkDown = s.host.linkDown :=
  ⟨congrArg (·.glob.cores) h, congrArg (·.regs) h, congrArg (·.upd) h, congrArg (·.host.linkDown) h⟩

/-- A core's restart outside a trial: its work ends, it is restarting, and the update takes note (R39). -/
theorem coreRestart_frame {s : State} {k : Nat} (cause : Nat) (hk : coreState s k = 0) (ht : s.upd.state ≠ 5) :
    let t := coreRestart s k cause
    coreState t k = 2 ∧ t.upd.restarted = true ∧ (∀ j, j ≠ k → coreState t j = coreState s j) ∧ t.regs = s.regs := by
  obtain ⟨hcores, hregs, hupd, -⟩ := dropRest_kept (dropRest_coresDrop s (fun c => c == k) 0)
  have hstep : coreRestart s k cause = updSet (logEvent 0x0104 (k + 256 * cause)
      (coreSet (coresDrop s (fun c => c == k) 0) k 2)) fun u => { u with restarted := true } := by
    rw [coreRestart, if_pos (.inl hk)]
    dsimp only
    generalize coresDrop s (fun c => c == k) 0 = u at hupd
    rw [trialBoot, if_neg]
    simp [updSet, coreSet, hupd, ht]
  have hst : ∀ j, coreState (coresDrop s (fun c => c == k) 0) j = coreState s j := fun j => by
    rw [coreState, coreState, hcores]
  rw [hstep]
  generalize coresDrop s (fun c => c == k) 0 = u at *
  have hglob : ∀ j,
      coreState (updSet (logEvent 0x0104 (k + 256 * cause) (coreSet u k 2)) fun u => { u with restarted := true }) j =
        coreState (coreSet u k 2) j := fun j => by rw [coreState, coreState, updSet]; simp
  refine ⟨?_, rfl, fun j hj => ?_, ?_⟩
  · rw [hglob, coreState_coreSet_same _ (by rw [hst, hk]; decide)]
  · rw [hglob, coreState_coreSet_other _ _ hj, hst]
  · simp [updSet, coreSet, hregs]

/-! ## Scrub -/

theorem rankGet_rankPut_same {s : State} {r : Nat} (h : r < s.flt.ranks.length) (x : Rank) : rankGet (rankPut s r x) r = x :=
  lget_lset_same _ _ _ _ h

/-- A pass that does not end its round: one more codeword. -/
theorem rankStep_within {s : State} {r : Nat} (h : (rankGet s r).words + 1 < rankWords s) :
    rankStep s r = rankPut s r { rankGet s r with words := (rankGet s r).words + 1 } := if_neg (by omega)

theorem rankGet_congr {s t : State} (h : t.flt = s.flt) (r : Nat) : rankGet t r = rankGet s r := by rw [rankGet, rankGet, h]

theorem rankWords_congr {s t : State} (h : t.recs = s.recs) : rankWords t = rankWords s := by rw [rankWords, rankWords, h]

theorem scrubPass_rank {s : State} {r : Nat} {x : CwRead} (hr : r < 2) (hf : fnOn s (0x0900 + r) = true)
    (hx : cwOfRank x = true) : scrubPass s r x = rankStep (codeword (cnt s 420) r x) r := if_pos ⟨hr, hf, hx⟩

theorem scrubPass_clean {s : State} {r : Nat} (hr : r < 2) (hl : s.flt.ranks.length = 2) (hf : fnOn s (0x0900 + r) = true)
    (hw : (rankGet s r).words + 1 < rankWords s) :
    rankGet (scrubPass s r .clean) r = { rankGet s r with words := (rankGet s r).words + 1 } ∧
      (scrubPass s r .clean).recs = s.recs := by
  have hflt : (cnt s 420).flt = s.flt := cnt_flt s 420
  have hrecs : (cnt s 420).recs = s.recs := cnt_recs s 420
  rw [scrubPass_rank hr hf rfl, codeword]
  generalize cnt s 420 = u at hflt hrecs
  rw [rankStep_within (by rw [rankGet_congr hflt, rankWords_congr hrecs]; exact hw),
    rankGet_rankPut_same (by rw [hflt, hl]; exact hr), rankGet_congr hflt]
  exact ⟨rfl, hrecs⟩

/-- The 64th correction of one symbol position marks the rank weak (R540). -/
theorem symbolFix_weak {s : State} {r pos : Nat} (hr : r < s.flt.ranks.length) (hp : tget 0 (rankGet s r).perPos pos = 63) :
    (rankGet (symbolFix s r pos) r).weak = BitVec.ofNat 8 pos ∧ (rankGet (symbolFix s r pos) r).words = (rankGet s r).words ∧
      (symbolFix s r pos).flt.dramWeak = true ∧ (symbolFix s r pos).recs = s.recs ∧
      (symbolFix s r pos).flt.ranks.length = s.flt.ranks.length := by
  have hflt : (cnt s 416).flt = s.flt := cnt_flt s 416
  have hrecs : (cnt s 416).recs = s.recs := cnt_recs s 416
  unfold symbolFix
  dsimp only
  rw [hp, if_pos (by decide)]
  generalize cnt s 416 = u at hflt hrecs
  rw [← hflt] at hr
  refine ⟨?_, ?_, rfl, hrecs, ?_⟩
  · exact (congrArg Rank.weak (lget_lset_same Rank.idle _ _ _ hr)).trans rfl
  · exact (congrArg Rank.words (lget_lset_same Rank.idle _ _ _ hr)).trans rfl
  · rw [← hflt]
    exact lset_length _ _ _

theorem scrubPass_one {s : State} {r pos : Nat} (hr : r < 2) (hl : s.flt.ranks.length = 2) (hf : fnOn s (0x0900 + r) = true)
    (hp : tget 0 (rankGet s r).perPos pos = 63) (hw : (rankGet s r).words + 1 < rankWords s) :
    (rankGet (scrubPass s r (.one pos)) r).weak = BitVec.ofNat 8 pos ∧ (scrubPass s r (.one pos)).flt.dramWeak = true ∧
      (scrubPass s r (.one pos)).recs = s.recs := by
  have hflt : (cnt s 420).flt = s.flt := cnt_flt s 420
  have hrecs : (cnt s 420).recs = s.recs := cnt_recs s 420
  rw [scrubPass_rank hr hf rfl, codeword]
  generalize cnt s 420 = u at hflt hrecs
  obtain ⟨hweak, hwords, hdram, hsrecs, hlen⟩ := symbolFix_weak (s := u) (r := r) (pos := pos) (by rw [hflt, hl]; exact hr)
    (by rw [rankGet_congr hflt]; exact hp)
  rw [rankGet_congr hflt] at hwords
  generalize symbolFix u r pos = v at *
  rw [rankStep_within (by rw [hwords, rankWords_congr hsrecs, rankWords_congr hrecs]; exact hw),
    rankGet_rankPut_same (by rw [hlen, hflt, hl]; exact hr)]
  exact ⟨hweak, hdram, hsrecs.trans hrecs⟩

/-! ## Bank levels -/

theorem foldl_banks {α : Type} (g : State → α → State) (l : List α) (s : State)
    (h : ∀ u a, (g u a).chan.banks = u.chan.banks) : (l.foldl g s).chan.banks = s.chan.banks := by
  induction l generalizing s with
  | nil => rfl
  | cons a l ih => rw [List.foldl_cons, ih, h]

@[simp] theorem drainCheck_chan_banks (s : State) : (drainCheck s).chan.banks = s.chan.banks := by
  refine foldl_banks drainOne _ s fun u f => ?_
  obtain h | ⟨st, step, n, res, h⟩ := drainOne_cases u f <;> simp [h]

@[simp] theorem settle_chan_banks (s : State) (f : Flight) (st step : Nat) (r : BitVec 128) :
    (settle s f st step r).chan.banks = s.chan.banks := by simp [settle]

@[simp] theorem objScrub_chan (s : State) (f : Flight) : (objScrub s f).chan = s.chan := by
  obtain ⟨m, c, po, pe, w, ce, h⟩ := objScrub_eq s f
  rw [h]

@[simp] theorem tkoSettle_chan_banks (s : State) (u : Option Nat) (st n : Nat) :
    (tkoSettle s u st n).chan.banks = s.chan.banks := rfl

@[simp] theorem setBitmap_chan (s : State) (f : Flight) (i : Nat) : (setBitmap s f i).chan = s.chan :=
  hostWriteMem_chan s _ _

@[simp] theorem setProgress_chan (s : State) (f : Flight) (step units : Nat) :
    (setProgress s f step units).chan = s.chan := by
  rw [setProgress, jrnlMod_chan]
  rfl

@[simp] theorem txnClose_chan_banks (s : State) (id : Nat) : (txnClose s id).chan.banks = s.chan.banks := by
  unfold txnClose
  obtain ⟨l, h⟩ := txnPromote_eq (txDropAll (txnsSet s (s.cmd.txns.filter fun t => t.id != id)) fun f => f.txn == some id)
  rw [h]
  rfl

@[simp] theorem targetSettle_chan_banks (s : State) (uid idx : Nat) (ok : Bool) (steps : Nat) :
    (targetSettle s uid idx ok steps).chan.banks = s.chan.banks := by
  unfold targetSettle
  split
  · rfl
  · split
    · split
      · rfl
      · dsimp only
        split <;> split <;> simp
    · rfl

@[simp] theorem distTgt_chan_banks (s : State) (f : Flight) (d : Dist) (i : Nat) (g : DTgt → DTgt) :
    (distTgt s f d i g).1.chan.banks = s.chan.banks := by
  unfold distTgt
  dsimp only
  split
  · rfl
  · dsimp only
    split <;> simp [progWrite, distPut]

@[simp] theorem txnLost_chan_banks (s : State) (t : Txn) (st b20 : Nat) : (txnLost s t st b20).chan.banks = s.chan.banks := by
  unfold txnLost
  dsimp only
  repeat' split
  all_goals simp [distFail]

@[simp] theorem framesFail_chan_banks (s : State) (ch st b20 : Nat) (p : TxF → Bool) :
    (framesFail s ch st b20 p).chan.banks = s.chan.banks := by
  refine foldl_banks _ _ s fun u f => ?_
  dsimp only
  split <;> simp [txMap]

@[simp] theorem fnDisable_chan_banks (s : State) (id : Nat) : (fnDisable s id).chan.banks = s.chan.banks := by
  unfold fnDisable
  dsimp only
  repeat' split
  all_goals simp [stopBegins]
  split <;> simp

theorem bankDown_chan_banks (s : State) (ch : Nat) : (bankDown s ch).chan.banks = s.chan.banks := by
  unfold bankDown
  split <;> simp

theorem bankChange_level {s : State} {g mv us : Nat} (hl : g < s.chan.banks.length) (hg : g < 4) (hus : 50 ≤ us)
    (hne : lget 0 s.chan.banks g ≠ bankLevel mv) : lget 0 (bankChange s g mv us).chan.banks g = bankLevel mv := by
  unfold bankChange
  dsimp only
  rw [if_neg (by omega)]
  split
  · rw [logEvent_chan, foldl_banks _ _ _ fun u k => bankDown_chan_banks u _]
    exact lget_lset_same 0 _ _ _ hl
  · exact lget_lset_same 0 _ _ _ hl

/-! ## The link -/

theorem linkDown_kept (s : State) : (linkDown s).host.linkDown = true ∧ (linkDown s).regs = s.regs := by
  obtain ⟨-, hregs, -, hlink⟩ := dropRest_kept (foldl_dropRest linkLose (s.ce.objs.filter fun o => o.released != 0)
    { s with host := { s.host with linkDown := true } } dropRest_linkLose)
  exact ⟨hlink, hregs⟩

end Sys2Proof.Machine
end

section
open Sys2Proof Sys2Proof.Machine Sys2Proof.Safety

/-- Settles O41: each event of the board through what it leaves of the part it speaks of. -/
theorem boardEvents : Obligations.BoardEvents := by
  intro s ha
  have hnorst : s.pins.resetLow = false := by
    unfold awake at ha
    simp_all
  refine ⟨fun ps => ?pace, fun hv => ?fixed, fun hv hc => ⟨fun h => ?up, fun hslow hhigh => ⟨fun h => ?down, fun h => ?stay⟩⟩,
    fun k cause hk ht => ?restart, fun k hk hp => ?back, fun r hr hl hf => ⟨fun hw => ?clean, fun pos hp hw => ?one⟩,
    fun g mv us hl hg hus hne => ?bank, fun i hi => ?scan, fun i hi => ?refused, ?link⟩
  case pace => exact ⟨_, exec_paceMeasurement ps s ha, paceMeasure_glob s ps⟩
  case fixed =>
    have hrow := exec_vreqAdjust s ha
    rw [vreqAdjust_off hv] at hrow
    exact ⟨_, hrow, rfl, rfl, rfl⟩
  case up =>
    obtain ⟨hcode, hregs⟩ := vreqAdjust_code hv hc
    refine ⟨_, exec_vreqAdjust s ha, hcode.trans (if_pos ?_), hregs⟩
    obtain h | h := h <;> simp [h]
  case down =>
    obtain ⟨hcode, hregs⟩ := vreqAdjust_code hv hc
    refine ⟨_, exec_vreqAdjust s ha, hcode.trans ?_, hregs⟩
    simp [vreqNext, hhigh, h, Nat.not_lt.mpr hslow]
  case stay =>
    have hstay : paceStayed s = false := by
      obtain h | h := h
      · simp [paceStayed, h]
      · exact h
    obtain ⟨hcode, hregs⟩ := vreqAdjust_code hv hc
    refine ⟨_, exec_vreqAdjust s ha, BitVec.eq_of_toNat_eq (hcode.trans ?_), hregs⟩
    simp [vreqNext, hhigh, hstay, Nat.not_lt.mpr hslow]
  case restart => exact ⟨_, exec_controlCoreRestart k cause s ha, coreRestart_frame cause hk ht⟩
  case back =>
    have hrow := exec_coreRestartComplete k s ha
    rw [coreReturn, if_pos ⟨hk, hp⟩] at hrow
    exact ⟨_, hrow, coreState_coreSet_same 0 (by rw [hk]; decide), fun j hj => coreState_coreSet_other s 0 hj, rfl⟩
  case clean => exact ⟨_, exec_scrubPass r .clean s ha, scrubPass_clean hr hl hf hw⟩
  case one => exact ⟨_, exec_scrubPass r (.one pos) s ha, scrubPass_one hr hl hf hp hw⟩
  case bank => exact ⟨_, exec_bankLevelChange g mv us s, bankChange_level hl hg hus hne⟩
  case scan =>
    have hrow := exec_boundaryScanInstruction i s
    rw [scanInstr, if_pos (.inl hi)] at hrow
    exact ⟨_, hrow, rfl, rfl⟩
  case refused =>
    have hrow := exec_boundaryScanInstruction i s
    rw [scanInstr, if_neg (by simp [hnorst]; omega)] at hrow
    exact ⟨_, hrow, rfl, rfl⟩
  case link => exact ⟨_, exec_pcieLinkDown s ha, linkDown_kept s⟩

end

section
/-!
# Image blocks (16 R488, R489)

`sectorsWrite` changes only the update state; `SectorsAt` says how its slot and its sector map stand after `n` sectors.
-/
namespace Sys2Proof.Machine
open Sys2Proof Sys2Proof.Safety

/-! ## Bytes written -/

theorem lget_getD {α : Type} (d : α) (l : List α) (k : Nat) : lget d l k = l[k]?.getD d := by
  induction l generalizing k with
  | nil => rfl
  | cons a l ih =>
    cases k with
    | zero => rfl
    | succ k => exact ih k

theorem memByte_memWrite_in (m : Tab Byte) (a i : Nat) (bs : List Byte) (h : i < bs.length) :
    memByte (memWrite m a bs) (a + i) = lget 0 bs i := by
  induction bs generalizing m a i with
  | nil => exact absurd h (Nat.not_lt_zero _)
  | cons b bs ih =>
    rw [memWrite]
    cases i with
    | zero => exact (memByte_memWrite_other _ _ _ _ (.inl (by omega))).trans (tget_tset_same _ _ _ _)
    | succ i =>
      rw [show a + (i + 1) = a + 1 + i by omega, ih _ _ _ (Nat.lt_of_succ_lt_succ h)]
      rfl

/-- One sector's bytes out of the block's data, padded with zeros. -/
def sectorBytes (data : List Byte) (k : Nat) : List Byte :=
  (data.drop (4096 * k)).take 4096 ++ List.replicate (4096 - ((data.drop (4096 * k)).take 4096).length) 0

theorem sectorBytes_length (data : List Byte) (k : Nat) : (sectorBytes data k).length = 4096 := by
  rw [sectorBytes, List.length_append, List.length_replicate, List.length_take]
  omega

theorem lget_sectorBytes (data : List Byte) (k i : Nat) (h : i < 4096) :
    lget 0 (sectorBytes data k) i = lget 0 data (4096 * k + i) := by
  rw [lget_getD, lget_getD, sectorBytes, List.getElem?_append]
  split
  · rw [List.getElem?_take_of_lt h, List.getElem?_drop]
  · next hlen =>
    simp only [List.length_take, List.length_drop] at hlen
    rw [List.getElem?_eq_none (l := data) (by omega), List.getElem?_replicate]
    split <;> rfl

/-! ## Sectors -/

@[simp] theorem norOf_norSet_same (u : UpdSt) (b : Bool) (m : Tab Byte) : norOf (norSet u b m) b = m := by cases b <;> rfl
@[simp] theorem norOf_norSet_other (u : UpdSt) (b : Bool) (m : Tab Byte) : norOf (norSet u (!b) m) b = norOf u b := by
  cases b <;> rfl
@[simp] theorem norSet_kept (u : UpdSt) (b : Bool) (m : Tab Byte) : (norSet u b m).runSlot = u.runSlot ∧
    (norSet u b m).state = u.state ∧ (norSet u b m).sectors = u.sectors := by cases b <;> exact ⟨rfl, rfl, rfl⟩

/-- The update state `v` is `u` with `n` sectors of `data`, from the `k`-th on, in the slot that does not run. -/
structure SectorsAt (u v : UpdSt) (first k n : Nat) (data : List Byte) : Prop where
  runSlot : v.runSlot = u.runSlot
  state : v.state = u.state
  running : norOf v u.runSlot = norOf u u.runSlot
  inside : ∀ i, 4096 * k ≤ i → i < 4096 * (k + n) → memByte (norOf v (!u.runSlot)) (4096 * first + i) = lget 0 data i
  outside : ∀ a, a < 4096 * (first + k) ∨ 4096 * (first + k + n) ≤ a →
    memByte (norOf v (!u.runSlot)) a = memByte (norOf u (!u.runSlot)) a
  got : ∀ j, tget false u.sectors j = true ∨ first + k ≤ j ∧ j < first + k + n → tget false v.sectors j = true

/-- The update state with one more sector programmed and marked received. -/
def withSector (u : UpdSt) (first k : Nat) (data : List Byte) : UpdSt :=
  let v := norSet u (!u.runSlot) (memWrite (norOf u (!u.runSlot)) (4096 * (first + k)) (sectorBytes data k))
  { v with sectors := tset false v.sectors (first + k) true }

theorem withSector_at (u : UpdSt) (first k : Nat) (data : List Byte) :
    SectorsAt u (withSector u first k data) first k 1 data := by
  obtain ⟨hrun, hstate, hsec⟩ := norSet_kept u (!u.runSlot) (memWrite (norOf u (!u.runSlot)) (4096 * (first + k))
    (sectorBytes data k))
  have hnor : ∀ b, norOf (withSector u first k data) b =
      norOf (norSet u (!u.runSlot) (memWrite (norOf u (!u.runSlot)) (4096 * (first + k)) (sectorBytes data k))) b :=
    fun b => rfl
  refine ⟨hrun, hstate, ?_, fun i h1 h2 => ?_, fun a ha => ?_, fun j hj => ?_⟩
  · rw [hnor, norOf_norSet_other]
  · rw [hnor, norOf_norSet_same, show 4096 * first + i = 4096 * (first + k) + (i - 4096 * k) by omega,
      memByte_memWrite_in _ _ _ _ (by rw [sectorBytes_length]; omega), lget_sectorBytes _ _ _ (by omega)]
    congr 1
    omega
  · rw [hnor, norOf_norSet_same, memByte_memWrite_other _ _ _ _ (by rw [sectorBytes_length]; omega)]
  · have htab : (withSector u first k data).sectors = tset false u.sectors (first + k) true := by rw [withSector, ← hsec]
    rw [htab, tget_tset]
    split
    · rfl
    · obtain hj | hj := hj
      · exact hj
      · omega

/-- One more sector after `n`. -/
theorem SectorsAt.succ {u v w : UpdSt} {first k n : Nat} {data : List Byte} (h : SectorsAt u v first k 1 data)
    (h' : SectorsAt v w first (k + 1) n data) : SectorsAt u w first k (n + 1) data := by
  obtain ⟨r1, s1, k1, i1, o1, g1⟩ := h
  obtain ⟨r2, s2, k2, i2, o2, g2⟩ := h'
  rw [r1] at k2 i2 o2
  refine ⟨r2.trans r1, s2.trans s1, k2.trans k1, fun i a b => ?_, fun a ha => ?_, fun j hj => g2 j ?_⟩
  · by_cases hi : i < 4096 * (k + 1)
    · rw [o2 _ (.inl (by omega)), i1 i a hi]
    · exact i2 i (by omega) (by omega)
  · rw [o2 a (by omega), o1 a (by omega)]
  · obtain hj | hj := hj
    · exact .inl (g1 j (.inl hj))
    · by_cases hjk : j = first + k
      · exact .inl (g1 j (.inr (by omega)))
      · exact .inr (by omega)

/-- All sectors of a block whose read-back is right. -/
theorem sectorsWrite_all (first : Nat) (data : List Byte) (n k : Nat) (s : State) :
    ∃ v, sectorsWrite first data none n k s = ({ s with upd := v }, k + n, false) ∧ SectorsAt s.upd v first k n data := by
  induction n generalizing k s with
  | zero =>
    exact ⟨s.upd, rfl, rfl, rfl, rfl, fun i a b => absurd b (by omega), fun _ _ => rfl, fun j h => h.elim id (by omega)⟩
  | succ n ih =>
    obtain ⟨v, hv, hat⟩ := ih (k + 1) { s with upd := withSector s.upd first k data }
    refine ⟨v, ?_, (withSector_at s.upd first k data).succ hat⟩
    rw [sectorsWrite, if_neg (by simp), show k + (n + 1) = k + 1 + n by omega]
    exact hv

/-- A block whose sector `j` does not read back: the sectors before it, and the running slot as it was. -/
theorem sectorsWrite_mismatch (first : Nat) (data : List Byte) {n k j : Nat} (hk : k ≤ j) (hj : j < k + n) (s : State) :
    ∃ v c, sectorsWrite first data (some j) n k s = ({ s with upd := v, free := c }, j, true) ∧
      norOf v s.upd.runSlot = norOf s.upd s.upd.runSlot := by
  induction n generalizing k s with
  | zero => exact absurd hj (by omega)
  | succ n ih =>
    by_cases h : j = k
    · subst h
      rw [sectorsWrite, if_pos rfl]
      exact ⟨_, _, rfl, norOf_norSet_other _ _ _⟩
    · obtain ⟨v, c, hv, hnor⟩ := ih (k := k + 1) (by omega) (by omega) { s with upd := withSector s.upd first k data }
      have hat := withSector_at s.upd first k data
      rw [hat.runSlot, hat.running] at hnor
      refine ⟨v, c, ?_, hnor⟩
      rw [sectorsWrite, if_neg (by simpa using h)]
      exact hv

/-! ## OP_IMG_BLOCK -/

/-- The update state as a block finds it: RECEIVING, and what lay VERIFIED is rejected. -/
def entered (u : UpdSt) (restart : Bool) : UpdSt :=
  { u with sectors := if u.state = 0 ∨ restart then [] else u.sectors,
           rejectSeq := if u.state = 3 then u.stagedSeq else u.rejectSeq, state := 1 }

theorem blockEnter_eq (s : State) (restart : Bool) : blockEnter s restart = { s with upd := entered s.upd restart } := rfl

/-- A well-placed block in a state that takes one. -/
theorem imgBlock_run {s : State} {u : Nat} {f : Flight} {data : List Byte} {bad : Option Nat} 
    (hr : runnable s u 0x80 = some f) (hs : stateShut s u = false) (h1 : dBufLen f.raw % 4096 = 0)
    (h2 : 4096 ≤ dBufLen f.raw) (h3 : dBufLen f.raw ≤ 65536)
    (h4 : dByte f.raw 24 4 % 4096 = 0) (h5 : dByte f.raw 24 4 + dBufLen f.raw ≤ 8388608)
    (hst : s.upd.state = 0 ∨ s.upd.state = 1 ∨ s.upd.state = 3) :
    imgBlock s u data bad =
      let x := sectorsWrite (dByte f.raw 24 4 / 4096) data bad (dBufLen f.raw / 4096) 0
        (blockEnter (bwRx s 66 (dBufLen f.raw)) (dAux f.raw % 2 == 1))
      if x.2.2 then complete x.1 f stFault 1 x.2.1 0 else completeOk x.1 f 3 0 := by
  rw [imgBlock, withDesc_run s u 0x80 _ f hr hs]
  dsimp only
  rw [if_neg (by omega), if_neg (by omega), if_neg (by rcases hst with h | h | h <;> simp [h])]

end Sys2Proof.Machine
end

section
open Sys2Proof Sys2Proof.Machine Sys2Proof.Safety

/-- Settles O45: a block's sectors by induction on their number, on the update state the block enters. -/
theorem imageBlocksProgrammed : Obligations.ImageBlocksProgrammed := by
  rintro s u f data ⟨ha, hr, hs, hd⟩ h1 h2 h3 h4 h5 hst
  -- What the block enters with: nothing but the update state and a bandwidth sample differ.
  have hcq : (blockEnter (bwRx s 66 (dBufLen f.raw)) (dAux f.raw % 2 == 1)).host.cq = s.host.cq := by
    rw [blockEnter_eq]
    simp
  have hupd : (blockEnter (bwRx s 66 (dBufLen f.raw)) (dAux f.raw % 2 == 1)).upd = entered s.upd (dAux f.raw % 2 == 1) := by
    rw [blockEnter_eq]
    simp
  have hrow := fun bad => (exec_opImgBlock u data bad s ha).trans (by rw [imgBlock_run hr hs h1 h2 h3 h4 h5 hst])
  generalize blockEnter (bwRx s 66 (dBufLen f.raw)) (dAux f.raw % 2 == 1) = b at *
  have hnor : ∀ x, norOf b.upd x = norOf s.upd x := fun x => by rw [hupd]; rfl
  have hwait : ∀ v c, cqGet { b with upd := v, free := c } f.cq = cqGet s f.cq := fun v c => by rw [cqGet, cqGet, hcq]
  have hslot : b.upd.runSlot = s.upd.runSlot := by rw [hupd]; rfl
  refine ⟨?good, fun j hj => ?bad⟩
  case good =>
    obtain ⟨v, hv, a1, a2, a3, a4, a5, a6⟩ := sectorsWrite_all (dByte f.raw 24 4 / 4096) data (dBufLen f.raw / 4096) 0 b
    have hrow := hrow none
    rw [hv] at hrow
    have hlen : 4096 * (dBufLen f.raw / 4096) = dBufLen f.raw := Nat.mul_div_cancel' (Nat.dvd_of_mod_eq_zero h1)
    have hoff : 4096 * (dByte f.raw 24 4 / 4096) = dByte f.raw 24 4 := Nat.mul_div_cancel' (Nat.dvd_of_mod_eq_zero h4)
    rw [hslot] at a1 a3 a4 a5
    rw [hnor] at a3
    have hput : (wmUpdate (completeOk { b with upd := v } f 3 0)).upd = v := by simp [completeOk]
    refine ⟨_, hrow, completed_of s { b with upd := v } f 0 3 0 0 hd (congrArg Cq.waiting (hwait v b.free)), ?_⟩
    rw [if_neg Bool.false_ne_true, hput]
    refine ⟨a2.trans (by rw [hupd]; rfl), a1, a3, fun i hi => ?_, fun a h => ?_, fun k hk => a6 _ (.inr (by omega))⟩
    · exact (congrArg _ (by rw [hoff])).trans (a4 i (by omega) (by omega))
    · exact (a5 a (by omega)).trans (by rw [hnor]; rfl)
  case bad =>
    obtain ⟨v, c, hv, hkeep⟩ := sectorsWrite_mismatch (dByte f.raw 24 4 / 4096) data (Nat.zero_le j)
      (show j < 0 + dBufLen f.raw / 4096 by omega) b
    have hrow := hrow (some j)
    rw [hv] at hrow
    rw [hslot, hnor] at hkeep
    refine ⟨_, hrow, completed_of s { b with upd := v, free := c } f 3 1 j 0 hd (congrArg Cq.waiting (hwait v c)), ?_⟩
    rw [← hkeep]
    simp

end

section
/-!
# What an outbound frame leaves (12 R378 to R380) and the ledger (08 R272 to R280)

`outRest` is the state without what a frame's way out can change: the key store's bookkeeping, the command path, channels,
radio and harness. A ledger's change is one `recChange` of its record; the relay command it may issue is such a frame.
-/
namespace Sys2Proof.Machine
open Sys2Proof Sys2Proof.Safety

/-! ## Outbound frames -/

/-- A state without what a frame's way out can change. -/
def outRest (s : State) : State := { wireRest (keyRest s) with cmd := State.reset.cmd }

theorem outRest_of_wireRest {s t : State} (h : wireRest t = wireRest s) : outRest t = outRest s := by
  have hout : ∀ u, outRest u = outRest (wireRest u) := fun _ => rfl
  rw [hout, h, ← hout]

theorem outRest_of_keyRest {s t : State} (h : keyRest t = keyRest s) : outRest t = outRest s := by
  rw [outRest, outRest, h]

theorem outRest_recs {s t : State} (h : outRest t = outRest s) : t.recs = s.recs := congrArg (·.recs) h
theorem outRest_hostMem {s t : State} (h : outRest t = outRest s) : t.hostMem = s.hostMem := congrArg (·.hostMem) h
theorem outRest_cq {s t : State} (h : outRest t = outRest s) : t.host.cq = s.host.cq := congrArg (·.host.cq) h
theorem outRest_bill {s t : State} (h : outRest t = outRest s) : t.bill = s.bill := congrArg (·.bill) h
theorem outRest_recGet {s t : State} (h : outRest t = outRest s) (e : Nat) : recGet t e = recGet s e := by
  rw [recGet, recGet, outRest_recs h]

theorem outRest_cnt (s : State) (i : Nat) : outRest (cnt s i) = outRest s := outRest_of_wireRest (wireRest_cnt s i)
theorem outRest_relayPut (s : State) (e : Nat) (t : RelayT) : outRest (relayPut s e t) = outRest s := rfl
theorem outRest_mirrorGated (s : State) (kind : Nat) (args : List Nat) (gate id : Nat) :
    outRest (mirrorGated s kind args gate id) = outRest s := outRest_of_wireRest (wireRest_mirrorGated s kind args gate id)
theorem outRest_txQueue (s : State) (c : Nat) (f : TxF) : outRest (txQueue s c f) = outRest s :=
  outRest_of_wireRest (wireRest_txQueue s c f)
theorem outRest_txnNew (s : State) (eid cls what : Nat) (uid : Option Nat) (tag : BitVec 16) (obj : Bool) (coll : Nat)
    (ic : Word) : outRest (txnNew s eid cls what uid tag obj coll ic).2 = outRest s := rfl

/-- A key looked up for an outbound frame changes the key store alone. -/
theorem keyRest_outLookup {s t : State} {eid : Nat} {b : Blob} (h : outLookup s eid b = some t) : keyRest t = keyRest s := by
  unfold outLookup at h
  exact (keyRest_ensureEp h).trans (keyRest_cnt _ _)

theorem keyRest_frameSeal (s : State) (f : TxF) : keyRest (frameSeal s f).1 = keyRest s := by
  unfold frameSeal
  split
  · rfl
  · split
    · rfl
    · next b _ t ht =>
      split
      · exact keyRest_outLookup ht
      · dsimp only
        rw [keyRest_cipherRun, keyRest_slotHand, keyRest_outLookup ht]

theorem outRest_sendFrame (s : State) (eid tc what arg : Nat) (app : List Nat) (ic : Word) (uid txn : Option Nat) :
    outRest (sendFrame s eid tc what arg app ic uid txn) = outRest s := by
  unfold sendFrame
  dsimp only
  rw [outRest_txQueue, outRest_of_keyRest (keyRest_frameSeal _ _)]

theorem outRest_relayFrame (s : State) (eid what arg : Nat) (ic : Word) (uid : Option Nat) (tag : BitVec 16) :
    outRest (relayFrame s eid what arg ic uid tag) = outRest s := by
  unfold relayFrame
  dsimp only
  rw [outRest_sendFrame, outRest_txnNew]

/-! ## A change of one record -/

@[simp] theorem pinSync_hostMem (s : State) (e : Nat) (r : EpRec) : (pinSync s e r).hostMem = s.hostMem := by
  unfold pinSync
  split <;> rfl

@[simp] theorem pinSync_host (s : State) (e : Nat) (r : EpRec) : (pinSync s e r).host = s.host := by
  unfold pinSync
  split <;> rfl

@[simp] theorem pinSync_bill (s : State) (e : Nat) (r : EpRec) : (pinSync s e r).bill = s.bill := by
  unfold pinSync
  split <;> rfl

@[simp] theorem recGet_pinSync (s : State) (e i : Nat) (r : EpRec) : recGet (pinSync s e r) i = recGet s i := by
  unfold pinSync
  split <;> rfl

/-- What `t` keeps of `s` but for one record, and what that record's ledger is. -/
structure LedgerIs (s t : State) (eid : Nat) (p : Prepay) : Prop where
  ledger : (recGet t eid).prepay = p
  others : ∀ e, e ≠ eid → recGet t e = recGet s e
  hostMem : t.hostMem = s.hostMem
  cq : t.host.cq = s.host.cq
  bill : t.bill = s.bill

theorem ledgerIs_cmdChange (s : State) (eid : Nat) (r : EpRec) : LedgerIs s (cmdChange s eid r) eid r.prepay :=
  ⟨by rw [cmdChange, recGet_recChange]; rfl, fun e he => by rw [cmdChange, recGet_recChange_ne _ _ _ he, recGet_pinSync],
    by simp [cmdChange], by simp [cmdChange], by simp [cmdChange]⟩

theorem LedgerIs.out {s t u : State} {eid : Nat} {p : Prepay} (h : LedgerIs s t eid p) (ho : outRest u = outRest t) :
    LedgerIs s u eid p :=
  ⟨by rw [outRest_recGet ho, h.ledger], fun e he => by rw [outRest_recGet ho, h.others e he],
    (outRest_hostMem ho).trans h.hostMem, (outRest_cq ho).trans h.cq,
    (outRest_bill ho).trans h.bill⟩

theorem recView_prepay (s : State) (e : Nat) : (recView s e).prepay = (recGet s e).prepay := by
  unfold recView
  dsimp only
  split <;> rfl

theorem recView_billing (s : State) (e : Nat) : (recView s e).billing = (recGet s e).billing := by
  unfold recView
  dsimp only
  split <;> rfl

/-- An alarm leaves its record's ledger. -/
theorem LedgerIs.alarm {s t : State} {eid : Nat} {p : Prepay} (h : LedgerIs s t eid p) (bit : Nat) :
    LedgerIs s (setAlarm t eid bit) eid p := by
  unfold setAlarm
  dsimp only
  split
  · exact h
  · obtain ⟨h1, h2, h3, h4, h5⟩ := ledgerIs_cmdChange t eid
      { recView t eid with alarms := (recView t eid).alarms ||| BitVec.ofNat 32 (2 ^ bit) }
    exact ⟨h1.trans ((recView_prepay t eid).trans h.ledger), fun e he => (h2 e he).trans (h.others e he), h3.trans h.hostMem,
      h4.trans h.cq, h5.trans h.bill⟩

/-- A ledger's move with the relay command it issues: that record's ledger, and nothing of another (R274, R280). -/
theorem ledgerIs_ledgerApply (s : State) (eid : Nat) (r : EpRec) (c : Nat) :
    LedgerIs s (ledgerApply s eid r (some c)) eid r.prepay := by
  rw [ledgerApply]
  by_cases hok : (outRefuse s eid true).isNone = true
  · simp only [hok, if_true]
    refine (ledgerIs_cmdChange s eid { r with
      txIcHwm := r.txIcHwm + 1, relay := relayCommanded r.relay c 1 (r.txIcHwm + 1) }).out ?_
    rw [outRest_relayFrame, outRest_mirrorGated, outRest_relayPut, outRest_cnt]
  · rw [Bool.not_eq_true] at hok
    simp only [hok, Bool.false_eq_true, if_false]
    have h := fun t => (ledgerIs_cmdChange s eid { r with relay := relayCommanded r.relay c 1 r.txIcHwm }).out
      ((outRest_relayPut _ eid t).trans (outRest_cnt _ (if c = 2 then 329 else 330)))
    by_cases hspent : icExhausted r = true
    · rw [if_pos hspent]
      exact (h _).alarm 3
    · rw [if_neg hspent]
      exact h _

/-! ## OP_LEDGER_ADJUST -/

/-- The reserved fields of a descriptor whose ACTION leaves fields unused are clear. -/
theorem ifUnused_all {s : State} {f : Flight} {l : List (Nat × Nat)} (h : ∀ p ∈ l, spanSet f.raw p.1 p.2 = none) (k : State) :
    ifUnused s f l k = k := by
  rw [ifUnused, List.findSome?_eq_none_iff.mpr h]

/-- The ledger an adjustment leaves (R278): the action, then the evaluation. -/
def adjusted (s : State) (f : Flight) (act : Nat) : Prepay × Option Nat :=
  ledgerEval (laApply (recView s (dEid f.raw)) act (laAmount f.raw) (BitVec.ofNat 32 (dByte f.raw 28 4)) (dtOf s))
    (friendlyNow s (recView s (dEid f.raw))) (dtOf s)

/-- The record with that ledger, and the relay command it may issue. -/
def adjustDone (s : State) (f : Flight) (x : Prepay × Option Nat) : State :=
  let r := { recView s (dEid f.raw) with prepay := x.1 }
  if x.2.isNone then cmdChange s (dEid f.raw) r else ledgerApply s (dEid f.raw) r x.2

theorem ledgerIs_adjustDone (s : State) (f : Flight) (x : Prepay × Option Nat) :
    LedgerIs s (adjustDone s f x) (dEid f.raw) x.1 := by
  obtain ⟨p, c⟩ := x
  cases c with
  | none => exact ledgerIs_cmdChange s _ _
  | some c => exact ledgerIs_ledgerApply s _ _ c

/-- OP_LEDGER_ADJUST of the ACTION the descriptor names. -/
theorem ledgerAdjust_run {s : State} {u act : Nat} {f : Flight} (hr : runnable s u 0x52 = some f)
    (hs : stateShut s u = false) (hact : dByte f.raw 24 1 = act)
    (hun : ∀ p ∈ laUnused act, spanSet f.raw p.1 p.2 = none) :
    ledgerAdjust s u act =
      if !(recView s (dEid f.raw)).billing then badParam s f 4
      else if !laRange act (laAmount f.raw) then badParam s f 32
      else if act = 0 ∧ BitVec.ofNat 32 (dByte f.raw 28 4) = (recView s (dEid f.raw)).prepay.lastTopup then
        completeOk s f 1 (laResult s (dEid f.raw) 1)
      else completeOk (adjustDone s f (adjusted s f act)) f 3
        (laResult (adjustDone s f (adjusted s f act)) (dEid f.raw) 0) := by
  rw [ledgerAdjust, withSub_run s u 0x52 24 act _ _ f hr hs hact]
  dsimp only
  rw [if_neg (by simp [hact]), ifUnused_all hun, adjusted]
  generalize ledgerEval _ _ _ = x
  obtain ⟨p, c⟩ := x
  rfl

theorem exec_ledgerAdjust {s : State} (ha : awake s = true) {u act : Nat} {c : Instr}
    (h : (c, act) ∈ [(Instr.opLedgerAdjustTopup u, 0), (Instr.opLedgerAdjustDebit u, 1), (Instr.opLedgerAdjustEmergSet u, 2),
      (Instr.opLedgerAdjustLowSet u, 3), (Instr.opLedgerAdjustAutoReconnect u, 4), (Instr.opLedgerAdjustRelease u, 5)]) :
    exec c s = .next (wmUpdate (ledgerAdjust s u act)) := by
  simp only [List.mem_cons, Prod.mk.injEq, List.not_mem_nil, or_false] at h
  obtain ⟨rfl, rfl⟩ | ⟨rfl, rfl⟩ | ⟨rfl, rfl⟩ | ⟨rfl, rfl⟩ | ⟨rfl, rfl⟩ | ⟨rfl, rfl⟩ := h
  · exact exec_opLedgerAdjustTopup u s ha
  · exact exec_opLedgerAdjustDebit u s ha
  · exact exec_opLedgerAdjustEmergSet u s ha
  · exact exec_opLedgerAdjustLowSet u s ha
  · exact exec_opLedgerAdjustAutoReconnect u s ha
  · exact exec_opLedgerAdjustRelease u s ha

end Sys2Proof.Machine
end

section
open Sys2Proof Sys2Proof.Machine Sys2Proof.Safety

/-- Settles O48: the six actions share one row, whose change is `adjustDone`. -/
theorem ledgerAdjusted : Obligations.LedgerAdjusted := by
  rintro s u f act c ⟨ha, hr, hs, hd⟩ hc hact hun
  have hrow := exec_ledgerAdjust ha hc
  rw [ledgerAdjust_run hr hs hact hun, recView_billing, recView_prepay] at hrow
  refine ⟨fun hb hrange => ⟨fun hnew => ?change, fun h0 hsame => ?same⟩, fun hb => ?postpay⟩
  case change =>
    rw [if_neg (by simp [hb]), if_neg (by simp [hrange]), if_neg (fun h => hnew.elim (· h.1) (· h.2))] at hrow
    obtain ⟨h1, h2, h3, h4⟩ := ledgerIs_adjustDone s f (adjusted s f act)
    generalize adjustDone s f (adjusted s f act) = v at *
    have hres : laResult (wmUpdate (completeOk v f 3 (laResult v (dEid f.raw) 0))) (dEid f.raw) 0 =
        laResult v (dEid f.raw) 0 := by
      simp [laResult, completeOk]
    refine ⟨_, hrow, ?_, ?_, fun e he => ?_, ?_⟩
    · rw [hres]
      exact completed_of s v f 0 3 0 _ hd (by rw [cqGet, cqGet, h4])
    · rw [completeOk, wmUpdate_recGet, complete_recGet, h1]
      rfl
    · rw [completeOk, wmUpdate_recGet, complete_recGet, h2 e he]
    · rw [completeOk, wmUpdate_hostMem, complete_hostMem, h3]
  case same =>
    rw [if_neg (by simp [hb]), if_neg (by simp [hrange]), if_pos ⟨h0, hsame⟩] at hrow
    exact ⟨_, hrow, completed_self s f 0 1 0 _ hd, by simp [completeOk]⟩
  case postpay =>
    rw [if_pos (by simp [hb]), badParam, bad, reject] at hrow
    exact ⟨_, hrow, completed_self s f stBad 0 0 _ hd, by simp⟩

end

section
/-!
# Tariff tables, calendars and snapshots (08 R247 to R249, R252, R264)

A load is one journal entry beside one table; a snapshot may close due periods of its record first, which writes no host
memory and completes nothing.
-/
namespace Sys2Proof.Machine
open Sys2Proof Sys2Proof.Safety

/-! ## Tables -/

theorem tarGet_tariffPut (s : State) (id n : Nat) (e : TarEnt) :
    tarGet (tariffPut s id e) n = if n = id then e else tarGet s n := by
  simp [tarGet, tariffPut, tget_tset]

@[simp] theorem tariffPut_cq (s : State) (id : Nat) (e : TarEnt) : (tariffPut s id e).host.cq = s.host.cq := by
  simp [tariffPut]

@[simp] theorem tariffPut_hostMem (s : State) (id : Nat) (e : TarEnt) : (tariffPut s id e).hostMem = s.hostMem := by
  simp [tariffPut]

/-- The table after a load: current at once, or pending for its instant (R248). -/
def loadedTariff (s : State) (f : Flight) (tab : List Byte) : TarEnt :=
  let e := tarGet s (dByte f.raw 24 1)
  if dByte f.raw 25 1 = 0 then { e with prev := e.cur, cur := some ⟨tab, dtOf s⟩ }
  else { e with pend := some ⟨tab, BitVec.ofNat 64 (dByte f.raw 32 8)⟩ }

/-- The instant a load takes effect. -/
def loadTime (s : State) (f : Flight) : Nat := if dByte f.raw 25 1 = 0 then (dtOf s).toNat else dByte f.raw 32 8

/-- OP_TARIFF_LOAD of a sound table. -/
theorem tariffLoad_run {s : State} {u : Nat} {f : Flight} {tab : List Byte} (hr : runnable s u 0x50 = some f)
    (hs : stateShut s u = false) (hlen : dBufLen f.raw = 1024) (hid : dByte f.raw 24 1 = tb tab 1) (hok : tariffBad tab = none)
    (hm : (dByte f.raw 25 1 = 0 ∧ spanSet f.raw 32 8 = none) ∨ (dByte f.raw 25 1 = 1 ∧ (dtOf s).toNat < dByte f.raw 32 8)) :
    tariffLoad s u tab = completeOk (tariffPut s (dByte f.raw 24 1) (loadedTariff s f tab)) f 3
      (result4 (loadTime s f % 2 ^ 32) (loadTime s f / 2 ^ 32) 0 0) := by
  have hmode : ¬ 1 < dByte f.raw 25 1 := by omega
  have hspan : ∀ p ∈ (if dByte f.raw 25 1 = 0 then [(32, 8)] else []), spanSet f.raw p.1 p.2 = none := by
    intro p hp
    split at hp
    · rw [List.mem_singleton.mp hp]
      exact (hm.resolve_right (by omega)).2
    · cases hp
  have hlate : ¬ (dByte f.raw 25 1 = 1 ∧ dByte f.raw 32 8 ≤ (dtOf s).toNat) := by omega
  rw [tariffLoad, withDesc_run s u 0x50 _ f hr hs]
  dsimp only
  rw [if_neg hmode, ifUnused_all hspan, if_neg (fun hne => hne hlen), if_neg (fun hne => hne hid), hok]
  dsimp only
  rw [if_neg hlate]
  rfl

/-- What a load leaves, in the terms of the state before it. -/
theorem tariffLoad_frame (s : State) (f : Flight) (e : TarEnt) (r : BitVec 128) (hd : f.discard = false) :
    let id := dByte f.raw 24 1
    let t := wmUpdate (completeOk (tariffPut s id e) f 3 r)
    Completed s t f 0 3 0 r ∧ tarGet t id = e ∧ (∀ n, n ≠ id → tarGet t n = tarGet s n) ∧ t.hostMem = s.hostMem := by
  intro id t
  have hbill : t.bill = (tariffPut s id e).bill := by simp [t, completeOk]
  have htar : ∀ n, tarGet t n = tarGet (tariffPut s id e) n := fun n => by rw [tarGet, tarGet, hbill]
  refine ⟨completed_of s _ f 0 3 0 r hd (by rw [cqGet, cqGet, tariffPut_cq]), ?_, fun n hn => ?_, ?_⟩
  · rw [htar, tarGet_tariffPut, if_pos rfl]
  · rw [htar, tarGet_tariffPut, if_neg hn]
  · simp [t, completeOk]

/-! ## Calendars -/

/-- A calendar newly loaded: its open period, and no close yet (R252). -/
def freshCal (s : State) (cal : List Byte) : CalEnt := ⟨cal, BitVec.ofNat 32 (tb4 cal 24), dtOf s, false⟩

/-- The state with a calendar in its place. -/
def calSet (s : State) (id : Nat) (c : CalEnt) : State :=
  { appendState s 0 (.cal id c) with
    bill := { (appendState s 0 (.cal id c)).bill with cals := tset CalEnt.empty (appendState s 0 (.cal id c)).bill.cals id c } }

theorem calendarLoad_fresh {s : State} {u : Nat} {f : Flight} {cal : List Byte} (hr : runnable s u 0x51 = some f)
    (hs : stateShut s u = false) (hlen : dBufLen f.raw = 64) (hid : dByte f.raw 24 1 = tb cal 1) (hok : calendarBad cal = none)
    (hl : calLoaded s (dByte f.raw 24 1) = false) :
    calendarLoad s u cal = completeOk (calSet s (dByte f.raw 24 1) (freshCal s cal)) f 3 0 := by
  rw [calendarLoad, withDesc_run s u 0x51 _ f hr hs]
  dsimp only
  rw [if_neg (fun hne => hne hlen), if_neg (fun hne => hne hid), hok]
  dsimp only
  rw [hl, if_neg (by simp), if_neg (by simp), if_neg (by simp)]
  rfl

theorem calendarLoad_closed {s : State} {u : Nat} {f : Flight} {cal : List Byte} (hr : runnable s u 0x51 = some f)
    (hs : stateShut s u = false) (hlen : dBufLen f.raw = 64) (hid : dByte f.raw 24 1 = tb cal 1) (hok : calendarBad cal = none)
    (hl : calLoaded s (dByte f.raw 24 1) = true)
    (hp : (BitVec.ofNat 32 (tb4 cal 24)).toNat < (calGet s (dByte f.raw 24 1)).openPer.toNat) :
    calendarLoad s u cal = reject s f stPeriodClosed 0 := by
  rw [calendarLoad, withDesc_run s u 0x51 _ f hr hs]
  dsimp only
  rw [if_neg (fun hne => hne hlen), if_neg (fun hne => hne hid), hok]
  dsimp only
  rw [hl, decide_eq_true hp]
  rfl

/-! ## Snapshots -/

/-- Nothing is written to the host and nothing completes. -/
def HostQuiet (s t : State) : Prop :=
  t.hostMem = s.hostMem ∧ t.host.cq = s.host.cq ∧ t.host.linkDown = s.host.linkDown

@[simp] theorem storeQueue_hostMem (s : State) (e : SEnt) : (storeQueue s e).hostMem = s.hostMem := by
  unfold storeQueue; split <;> rfl

theorem hostQuiet_closeRecord (s : State) (e : SEnt) (rd : ReadRec) (g c n k : Nat) (b : Bool) (u : Option Nat) :
    HostQuiet s (cnt (recordOut (storeQueue s e) rd g c b n u) k) := by
  simp [HostQuiet, recordOut]

theorem hostQuiet_closePeriod (s : State) (eid : Nat) (r : EpRec) (final : Bool) (sec : Nat) :
    HostQuiet s (closePeriod s eid r final sec).1 := by
  unfold closePeriod
  dsimp only
  generalize hu : cnt (recordOut _ _ _ _ _ _ _) 327 = u
  have hq : HostQuiet s u := hu ▸ hostQuiet_closeRecord ..
  simpa [HostQuiet] using hq

theorem hostQuiet_closeDue (eid sec n : Nat) (s : State) (r : EpRec) : HostQuiet s (closeDue eid sec n (s, r)).1 := by
  induction n generalizing s r with
  | zero => exact ⟨rfl, rfl, rfl⟩
  | succ n ih =>
    rw [closeDue]
    split
    · split
      · next b _ _ =>
        obtain ⟨h1, h2, h3⟩ := hostQuiet_closePeriod s eid r false b
        obtain ⟨i1, i2, i3⟩ := ih (closePeriod s eid r false b).1 (closePeriod s eid r false b).2
        exact ⟨i1.trans h1, i2.trans h2, i3.trans h3⟩
      · exact ⟨rfl, rfl, rfl⟩
    · exact ⟨rfl, rfl, rfl⟩

theorem hostQuiet_liveBlock (s : State) (eid : Nat) : HostQuiet s (liveBlock s eid).1 := by
  unfold liveBlock
  dsimp only
  split
  · exact hostQuiet_closeDue _ _ _ _ _
  · exact ⟨rfl, rfl, rfl⟩

/-- OP_REG_SNAPSHOT of one record's live block. -/
theorem regSnapshot_live {s : State} {u : Nat} {f : Flight} {tg : List Word} (hr : runnable s u 0x53 = some f)
    (hs : stateShut s u = false) (hm : dByte f.raw 24 1 = 0) (hb : dBitmap f.raw = 0) (h1 : spanSet f.raw 28 4 = none)
    (h2 : spanSet f.raw 32 8 = none) (h3 : spanSet f.raw 40 4 = none) (hlen : 256 ≤ dBufLen f.raw) :
    regSnapshot s u tg = completeOk (writeBuf (liveBlock s (dEid f.raw)).1 f (liveBlock s (dEid f.raw)).2) f 0 0 := by
  have hspan : ∀ p ∈ [(28, 4), (32, 8), (40, 4)], spanSet f.raw p.1 p.2 = none := by simp [h1, h2, h3]
  have hlist : (dBitmap f.raw != 0) = false := by simp [hb]
  rw [regSnapshot, withDesc_run s u 0x53 _ f hr hs]
  dsimp only
  rw [if_neg (by omega), hm, hlist, if_neg (by decide : ¬ (0 = 2)), if_neg Bool.false_ne_true, if_neg Bool.false_ne_true,
    if_neg (by omega)]
  refine (ifUnused_all hspan _).trans ?_
  rw [snapRun, if_pos hm, snapOf, if_pos rfl]

end Sys2Proof.Machine
end

section
open Sys2Proof Sys2Proof.Machine Sys2Proof.Safety

/-- Settles O47: each load in the mode the descriptor names, and the snapshot of a record's live block. -/
theorem tablesLoadAndSnapshots : Obligations.TablesLoadAndSnapshots := by
  refine ⟨?tariff, ?calendar, ?snapshot⟩
  case tariff =>
    rintro s u f tab ⟨ha, hr, hs, hd⟩ hlen hid hok
    have hrow := exec_opTariffLoad u tab s ha
    refine ⟨fun hm hspan => ?_, fun hm hlate => ?_⟩
    · rw [tariffLoad_run hr hs hlen hid hok (.inl ⟨hm, hspan⟩), loadTime, if_pos hm, loadedTariff, if_pos hm] at hrow
      exact ⟨_, hrow, tariffLoad_frame s f _ _ hd⟩
    · have hne : ¬ dByte f.raw 25 1 = 0 := by omega
      rw [tariffLoad_run hr hs hlen hid hok (.inr ⟨hm, hlate⟩), loadTime, if_neg hne, loadedTariff, if_neg hne] at hrow
      exact ⟨_, hrow, tariffLoad_frame s f _ _ hd⟩
  case calendar =>
    rintro s u f cal ⟨ha, hr, hs, hd⟩ hlen hid hok
    have hrow := exec_opCalendarLoad u cal s ha
    refine ⟨fun hl => ?_, fun hl hp => ?_⟩
    · rw [calendarLoad_fresh hr hs hlen hid hok hl] at hrow
      have hcal : ∀ n, calGet (wmUpdate (completeOk (calSet s (dByte f.raw 24 1) (freshCal s cal)) f 3 0)) n =
          if n = dByte f.raw 24 1 then freshCal s cal else calGet s n := by
        intro n
        simp [calGet, completeOk, calSet, tget_tset]
      refine ⟨_, hrow, completed_of s _ f 0 3 0 0 hd (by simp [cqGet, calSet]), ?_, fun n hn => ?_⟩
      · rw [hcal, if_pos rfl, freshCal]
      · rw [hcal, if_neg hn]
    · rw [calendarLoad_closed hr hs hlen hid hok hl hp, reject] at hrow
      exact ⟨_, hrow, completed_self s f stPeriodClosed 0 0 0 hd, by simp⟩
  case snapshot =>
    rintro s u f tg ⟨ha, hr, hs, hd⟩ hm hb h1 h2 h3 hlen hup
    have hrow := exec_opRegSnapshot u tg s ha
    rw [regSnapshot_live hr hs hm hb h1 h2 h3 hlen] at hrow
    obtain ⟨hmem, hcq, hlink⟩ := hostQuiet_liveBlock s (dEid f.raw)
    have hdone := completed_writeBuf (s := (liveBlock s (dEid f.raw)).1) hd (liveBlock s (dEid f.raw)).2 0 0 0 0
    have hwrote := wrote_complete (hlink.trans hup) f (liveBlock s (dEid f.raw)).2 0 0 0 0
    refine ⟨_, hrow, ?_, ?_⟩
    · have hget : cqGet (liveBlock s (dEid f.raw)).1 f.cq = cqGet s f.cq := by rw [cqGet, cqGet, hcq]
      rwa [Completed, hget] at hdone
    · rwa [Wrote, hmem] at hwrote

end

section
/-!
# The store's opcodes (14 R449 to R453, R575)

A scan reads units through the store's own data path (`scanRest`), so what it answers with is written as on the state
before; a command refused, or queued while the store starts, goes through the one case split of `fnWork`.
-/
namespace Sys2Proof.Machine
open Sys2Proof Sys2Proof.Safety

/-! ## Scans -/

/-- A state without what a scan of the store can change: page-read counts, port samples and what a discarded entry reads as. -/
def scanRest (s : State) : State :=
  { s with store := { s.store with dies := [] }, cnt := { s.cnt with bw := [] }, free := 0 }

theorem foldl_scanRest {α : Type} (g : State → α → State) (l : List α) (s : State)
    (h : ∀ u a, scanRest (g u a) = scanRest u) : scanRest (l.foldl g s) = scanRest s := by
  induction l generalizing s with
  | nil => rfl
  | cons a l ih => rw [List.foldl_cons, ih, h]

theorem scanRest_bwRx (s : State) (p n : Nat) : scanRest (bwRx s p n) = scanRest s := rfl
theorem scanRest_diePut (s : State) (n : Nat) (d : Die) : scanRest (diePut s n d) = scanRest s := rfl

theorem scanRest_scanReads (s : State) (raw : BitVec 512) : scanRest (scanReads s raw) = scanRest s :=
  foldl_scanRest _ _ s fun _ _ => (scanRest_bwRx _ _ _).trans (scanRest_diePut _ _ _)

theorem scanRest_queryBytes (s : State) (e : SEnt) : scanRest (queryBytes s e).1 = scanRest s := by
  unfold queryBytes
  dsimp only
  split <;> rfl

theorem scanRest_queryTake (room max : Nat) (l : List SEnt) (s : State) (out : List Byte) (n : Nat) :
    scanRest (queryTake room max l s out n).1 = scanRest s := by
  induction l generalizing s out n with
  | nil => rfl
  | cons e l ih =>
    rw [queryTake]
    split
    next s' b hb =>
    split
    · rw [ih]
      exact (congrArg (fun x => scanRest x.1) hb).symm.trans (scanRest_queryBytes s e)
    · rfl

theorem scanRest_host {s t : State} (h : scanRest t = scanRest s) : t.host = s.host := congrArg (·.host) h
theorem scanRest_hostMem {s t : State} (h : scanRest t = scanRest s) : t.hostMem = s.hostMem := congrArg (·.hostMem) h
theorem scanRest_sealU {s t : State} (h : scanRest t = scanRest s) : t.sealU = s.sealU := congrArg (·.sealU) h
theorem scanRest_units {s t : State} (h : scanRest t = scanRest s) :
    t.store.units = s.store.units ∧ t.store.open_ = s.store.open_ :=
  ⟨congrArg (·.store.units) h, congrArg (·.store.open_) h⟩

/-! ## Commands that need the store -/

theorem storeRun_on {s : State} (h : (fnGet s 0x0A00).st = .on) (f : Flight) (k : State) : storeRun s f k = k := by
  rw [storeRun, fnWork, h]

theorem storeRun_gone {s : State} {f : Flight} (k : State)
    (h : (fnGet s 0x0A00).st = .off ∨ ((fnGet s 0x0A00).st = .stopping ∧ workKept (fnGet s 0x0A00) f = false)) :
    storeRun s f k = reject s f stNoStore 0 := by
  rw [storeRun, fnWork]
  obtain h | ⟨h, hw⟩ := h
  · rw [h]
  · rw [h]
    dsimp only
    rw [hw]
    rfl

theorem storeRun_starting {s : State} {f : Flight} (k : State) (h : (fnGet s 0x0A00).st = .starting)
    (hq : (fnGet s 0x0A00).queued.contains f.uid = false) :
    storeRun s f k = fnPut s 0x0A00 { fnGet s 0x0A00 with queued := (fnGet s 0x0A00).queued ++ [f.uid] } := by
  rw [storeRun, fnWork]
  dsimp only
  rw [h]
  dsimp only
  rw [hq]
  rfl

/-- What a store opcode leaves where the store does not serve it. -/
structure StoreWaits (s : State) (u : Nat) (f : Flight) (t : State) : Prop where
  gone : (fnGet s 0x0A00).st = .off ∨ ((fnGet s 0x0A00).st = .stopping ∧ workKept (fnGet s 0x0A00) f = false) →
    t = reject s f stNoStore 0
  starting : (fnGet s 0x0A00).st = .starting → (fnGet s 0x0A00).queued.contains u = false →
    t = fnPut s 0x0A00 { fnGet s 0x0A00 with queued := (fnGet s 0x0A00).queued ++ [u] }

theorem storeWaits_storeRun {s : State} {u : Nat} {f : Flight} (hu : f.uid = u) (k : State) :
    StoreWaits s u f (storeRun s f k) := by
  subst hu
  exact ⟨fun h => storeRun_gone k h, fun h hq => storeRun_starting k h hq⟩

/-! ## OP_STORE_QUERY -/

theorem storeQuery_run {s : State} {u : Nat} {f : Flight} (hr : runnable s u 0x60 = some f) (hs : stateShut s u = false)
    (hb : queryBad s f.raw false = none) :
    storeQuery s u = storeRun s f (
      let disc := (scanEnts s).any fun e => inRange f.raw e && entDiscarded s e
      let x := queryTake (dBufLen f.raw) (dByte f.raw 48 4) ((scanEnts s).filter (wanted f.raw)) (scanReads s f.raw) [] 0
      complete (writeBuf x.1 f x.2.1) f (if disc then stDiscarded else stOk) 1 x.2.2.1
        (queryResult s f.raw x.2.2.1 (nextSsn s f.raw x.2.2.2) disc)) := by
  rw [storeQuery, withDesc_run s u 0x60 _ f hr hs]
  dsimp only
  rw [hb]

/-- What a scan writes is written as on the state before it. -/
theorem scan_writes {s v : State} (hv : scanRest v = scanRest s) (hup : s.host.linkDown = false) {f : Flight}
    (hd : f.discard = false) (bs : List Byte) (st p n : Nat) (r : BitVec 128) :
    let t := wmUpdate (complete (writeBuf v f bs) f st p n r)
    Wrote s t (dBufAddr f.raw) bs ∧ Completed s t f st p n r := by
  intro t
  have hget : cqGet v f.cq = cqGet s f.cq := by rw [cqGet, cqGet, scanRest_host hv]
  have hw := wrote_complete (s := v) (by rw [scanRest_host hv]; exact hup) f bs st p n r
  have hc := completed_writeBuf (s := v) hd bs st p n r
  rw [Wrote, scanRest_hostMem hv] at hw
  rw [Completed, hget] at hc
  exact ⟨hw, hc⟩

/-! ## OP_STORE_DISCARD -/

/-- Whether an entry lies in the range of a discard. -/
def inDiscard (raw : BitVec 512) (e : SEnt) : Bool :=
  if dByte raw 24 1 = 1 then decide (dByte raw 32 8 ≤ e.dt.toNat ∧ e.dt.toNat < dByte raw 40 8)
  else decide (dByte raw 32 8 ≤ e.ssn ∧ e.ssn < dByte raw 40 8)

/-- A unit that a discard takes whole. -/
def wholeIn (raw : BitVec 512) (u : SUnit) : Bool := !u.par && !u.disc && !u.ents.isEmpty && u.ents.all (inDiscard raw)

/-- A unit after a discard. -/
def discardUnit (raw : BitVec 512) (u : SUnit) : SUnit := if wholeIn raw u then { u with disc := true } else u

theorem discardUnit_ents (raw : BitVec 512) (u : SUnit) : (discardUnit raw u).ents = u.ents ∧
    (discardUnit raw u).par = u.par := by
  unfold discardUnit
  split <;> exact ⟨rfl, rfl⟩

/-- The store after a discard of the range (R452). -/
def discarded (t : StoreSt) (raw : BitVec 512) : StoreSt :=
  { t with disc := t.disc ++ [(dByte raw 24 1 == 1, dByte raw 32 8, dByte raw 40 8, t.next)]
           units := t.units.map (discardUnit raw) }

theorem inDiscard_iff (raw : BitVec 512) (e : SEnt) : inDiscard raw e = true ↔
    dByte raw 32 8 ≤ (if dByte raw 24 1 = 1 then e.dt.toNat else e.ssn) ∧
      (if dByte raw 24 1 = 1 then e.dt.toNat else e.ssn) < dByte raw 40 8 := by
  unfold inDiscard
  split <;> simp

/-- A unit that lies whole in the range is marked. -/
theorem discardUnit_disc {raw : BitVec 512} {u : SUnit} (hp : u.par = false) (he : u.ents ≠ [])
    (h : ∀ e ∈ u.ents, inDiscard raw e = true) : (discardUnit raw u).disc = true := by
  unfold discardUnit
  split
  · rfl
  · next hw =>
    refine Decidable.byContradiction fun hdisc => hw ?_
    simp only [Bool.not_eq_true] at hdisc
    simp [wholeIn, hp, hdisc, he, List.all_eq_true.mpr h]

theorem storeDiscard_run {s : State} {u : Nat} {f : Flight} (hr : runnable s u 0x61 = some f) (hs : stateShut s u = false)
    (hm : dByte f.raw 24 1 ≤ 1) (hrange : dByte f.raw 32 8 < dByte f.raw 40 8) :
    storeDiscard s u = storeRun s f (
      let ent := JEnt.note 18 (dByte f.raw 24 1 + 2 * (dByte f.raw 32 8 + 2 ^ 64 * dByte f.raw 40 8))
      if !tailRoom s ent then s
      else
        let v := appendState s 0 ent
        let n := (v.store.units.filter (wholeIn f.raw)).length
        completeOk (cntAdd (storeSet v fun t => discarded t f.raw) 362 n 0xFFFFFFFF) f 3 (result4 n 0 0 0)) := by
  rw [storeDiscard, withDesc_run s u 0x61 _ f hr hs]
  dsimp only
  rw [if_neg (by omega), if_neg (by omega)]
  rfl

/-! ## OP_STORE_HEALTH -/

theorem storeHealth_run {s : State} {u : Nat} {f : Flight} (hr : runnable s u 0x63 = some f) (hs : stateShut s u = false) :
    storeHealth s u = storeRun s f (completeOk (writeBuf s f (healthBytes s)) f 1 0) := by
  rw [storeHealth, withDesc_run s u 0x63 _ f hr hs]

/-! ## OP_STORE_REPLAY -/

theorem storeReplay_run {s : State} {u : Nat} {f : Flight} (hr : runnable s u 0x62 = some f) (hs : stateShut s u = false)
    (hb : queryBad s f.raw true = none) : ∃ k, storeReplay s u = storeRun s f k := by
  rw [storeReplay, withDesc_run s u 0x62 _ f hr hs]
  dsimp only
  rw [hb]
  exact ⟨_, rfl⟩

/-- What a replay of entries leaves of a state: their records at the end of the delivery queue, for one ring. -/
structure Replayed (s t : State) (ring uid : Nat) (l : List SEnt) : Prop where
  grows : ∃ items, t.host.deliv = s.host.deliv ++ items ∧ items.map (·.rd) = l.filterMap (·.rd) ∧
    ∀ d ∈ items, d.ring = some ring ∧ d.uid = some uid ∧ d.tc0 = false
  hostMem : t.hostMem = s.hostMem
  units : t.store.units = s.store.units
  unsent : t.store.open_ = s.store.open_

theorem Replayed.cons {s t : State} {ring uid id : Nat} {e : SEnt} {r : ReadRec} {l : List SEnt} (he : e.rd = some r)
    (h : Replayed { s with host := { s.host with
      delivNext := id + 1, deliv := s.host.deliv ++ [⟨id, false, r, 0, 3, some uid, some ring⟩] } } t ring uid l) :
    Replayed s t ring uid (e :: l) := by
  obtain ⟨⟨items, hdel, hmap, hall⟩, hmem, hunits, hopen⟩ := h
  refine ⟨⟨⟨id, false, r, 0, 3, some uid, some ring⟩ :: items, ?_, ?_, ?_⟩, hmem, hunits, hopen⟩
  · rw [hdel, List.append_assoc, List.singleton_append]
  · simp [he, hmap]
  · intro d hd
    obtain rfl | hd := List.mem_cons.mp hd
    · exact ⟨rfl, rfl, rfl⟩
    · exact hall d hd

/-- A replay that finds room for every entry takes them all. -/
theorem replayTake_all (ring uid max : Nat) (l : List SEnt) (s : State) (n : Nat) (hmax : n + l.length ≤ max)
    (hroom : s.host.deliv.length + s.sealU.queue.length + l.length ≤ 16320) :
    ∃ t m, replayTake ring uid max l s n = (t, m, []) ∧ Replayed s t ring uid l := by
  induction l generalizing s n with
  | nil => exact ⟨s, n, rfl, ⟨[], by simp, rfl, by simp⟩, rfl, rfl, rfl⟩
  | cons e l ih =>
    rw [List.length_cons] at hmax hroom
    have hgo : ¬ (max ≤ n ∨ delivRoom s 3 = false) := by simp [delivRoom, delivDepth]; omega
    rw [replayTake, if_neg hgo]
    cases he : e.rd with
    | none =>
      obtain ⟨t, m, ht, hrep⟩ := ih s n (by omega) (by omega)
      exact ⟨t, m, ht, by simpa [he] using hrep.grows, hrep.hostMem, hrep.units, hrep.unsent⟩
    | some r =>
      obtain ⟨t, m, ht, hrep⟩ := ih { s with host := { s.host with
        delivNext := s.host.delivNext + 1
        deliv := s.host.deliv ++ [⟨s.host.delivNext, false, r, 0, 3, some uid, some ring⟩] } } (n + 1) (by omega)
        (by simp only [List.length_append, List.length_singleton]; omega)
      exact ⟨t, m, ht, hrep.cons he⟩

/-- A replay begun, whose entries all find room: the descriptor then waits for its records' delivery. -/
theorem storeReplay_whole {s : State} {u : Nat} {f : Flight} {l : List SEnt} (hr : runnable s u 0x62 = some f)
    (hs : stateShut s u = false) (hb : queryBad s f.raw true = none) (hon : (fnGet s 0x0A00).st = .on) (hst : f.stage = .none)
    (hn : f.units = 0) (hl : l = (scanEnts s).filter (fun e => wanted f.raw e && e.typ == 1))
    (hmax : l.length ≤ dByte f.raw 48 4) (hroom : s.host.deliv.length + s.sealU.queue.length + l.length ≤ 16320) :
    ∃ v g st r, storeReplay s u = settle v g st 1 r ∧ Replayed s v (dByte f.raw 26 1) u l := by
  have hscan := scanRest_scanReads s f.raw
  have hfrom : (fun e => wanted f.raw e && e.typ == 1 && decide (replayFrom f ≤ e.ssn)) =
      fun e => wanted f.raw e && e.typ == 1 := by
    have h0 : replayFrom f = 0 := by rw [replayFrom, hst]
    simp [h0]
  obtain ⟨v, m, hv, hrep⟩ := replayTake_all (dByte f.raw 26 1) u (dByte f.raw 48 4) l (scanReads s f.raw) 0 (by omega)
    (by rw [scanRest_host hscan, scanRest_sealU hscan]; exact hroom)
  rw [storeReplay, withDesc_run s u 0x62 _ f hr hs]
  dsimp only
  rw [hb]
  dsimp only
  rw [storeRun_on hon, hst]
  dsimp only
  rw [hfrom, ← hl, hn, hv]
  refine ⟨v, _, _, _, rfl, ?_⟩
  obtain ⟨hgrow, hmem, hunits, hopen⟩ := hrep
  rw [scanRest_host hscan] at hgrow
  exact ⟨hgrow, hmem.trans (scanRest_hostMem hscan), hunits.trans (scanRest_units hscan).1,
    hopen.trans (scanRest_units hscan).2⟩

theorem rest_settle (s : State) (f : Flight) (st step : Nat) (r : BitVec 128) : rest (settle s f st step r) = rest s := by
  rw [settle, rest_drainCheck]
  rfl

/-- Each store opcode's row, through `storeRun`. -/
theorem exec_storeRow {s : State} {u : Nat} {f : Flight} {op : Nat} {c : Instr}
    (h : (op, c) ∈ [(0x60, Instr.opStoreQuery u), (0x61, Instr.opStoreDiscard u), (0x62, Instr.opStoreReplay u),
      (0x63, Instr.opStoreHealth u)]) (hrun : Runs s u op f) (h0 : op = 0x60 → queryBad s f.raw false = none)
    (h2 : op = 0x62 → queryBad s f.raw true = none)
    (h1 : op = 0x61 → dByte f.raw 24 1 ≤ 1 ∧ dByte f.raw 32 8 < dByte f.raw 40 8) :
    ∃ t, exec c s = .next (wmUpdate t) ∧ StoreWaits s u f t := by
  obtain ⟨ha, hr, hs, -⟩ := hrun
  have hu := (runnable_uid hr).1
  simp only [List.mem_cons, Prod.mk.injEq, List.not_mem_nil, or_false] at h
  obtain ⟨rfl, rfl⟩ | ⟨rfl, rfl⟩ | ⟨rfl, rfl⟩ | ⟨rfl, rfl⟩ := h
  · exact ⟨_, exec_opStoreQuery u s ha, storeQuery_run hr hs (h0 rfl) ▸ storeWaits_storeRun hu _⟩
  · exact ⟨_, exec_opStoreDiscard u s ha, storeDiscard_run hr hs (h1 rfl).1 (h1 rfl).2 ▸ storeWaits_storeRun hu _⟩
  · obtain ⟨k, hk⟩ := storeReplay_run hr hs (h2 rfl)
    exact ⟨_, exec_opStoreReplay u s ha, hk ▸ storeWaits_storeRun hu k⟩
  · exact ⟨_, exec_opStoreHealth u s ha, storeHealth_run hr hs ▸ storeWaits_storeRun hu _⟩

end Sys2Proof.Machine
end

section
open Sys2Proof Sys2Proof.Machine Sys2Proof.Safety

/-- Settles O34: the four opcodes with the store ON, where it does not serve them, and a replay whose records find room. -/
theorem storeCommandsAnswer : Obligations.StoreCommandsAnswer := by
  refine ⟨⟨?query, ?discard, ?health, ?waits⟩, ?replay⟩
  case query =>
    rintro s u f ⟨ha, hr, hs, hd⟩ hb hon hup
    have hrow := exec_opStoreQuery u s ha
    rw [storeQuery_run hr hs hb, storeRun_on hon] at hrow
    have hscan := (scanRest_queryTake (dBufLen f.raw) (dByte f.raw 48 4) ((scanEnts s).filter (wanted f.raw))
      (scanReads s f.raw) [] 0).trans (scanRest_scanReads s f.raw)
    obtain ⟨hw, hc⟩ := scan_writes hscan hup hd _ _ _ _ _
    exact ⟨_, _, _, hrow, rfl, rfl, hw, hc⟩
  case discard =>
    rintro s u f ⟨ha, hr, hs, hd⟩ hm hrange hon hroom
    have hrow := exec_opStoreDiscard u s ha
    rw [storeDiscard_run hr hs hm hrange, storeRun_on hon] at hrow
    have hfits : ∀ n, tailRoom s (.note 18 n) = true := fun n => hroom
    rw [if_neg (by simp [hfits])] at hrow
    have hstore : ∀ n r, (wmUpdate (completeOk (cntAdd (storeSet (appendState s 0
        (.note 18 (dByte f.raw 24 1 + 2 * (dByte f.raw 32 8 + 2 ^ 64 * dByte f.raw 40 8)))) fun t => discarded t f.raw)
        362 n 0xFFFFFFFF) f 3 r)).store = discarded s.store f.raw := fun n r => by simp [completeOk, storeSet]
    refine ⟨_, _, hrow, completed_of s _ f 0 3 0 _ hd (by simp [cqGet, storeSet]), ?_⟩
    rw [hstore]
    refine ⟨rfl, fun v hv hp he hin => ?_, ?_, rfl, by simp [completeOk, storeSet]⟩
    · obtain ⟨w, -, rfl⟩ := List.mem_map.mp hv
      obtain ⟨hents, hpar⟩ := discardUnit_ents f.raw w
      rw [hpar] at hp
      rw [hents] at he hin
      exact discardUnit_disc hp he fun e hm => (inDiscard_iff f.raw e).mpr (hin e hm)
    · simp [discarded, Function.comp_def, discardUnit_ents]
  case health =>
    rintro s u f ⟨ha, hr, hs, hd⟩ hon hup
    have hrow := exec_opStoreHealth u s ha
    rw [storeHealth_run hr hs, storeRun_on hon] at hrow
    refine ⟨_, hrow, wrote_complete hup f _ _ _ _ _, completed_writeBuf hd _ _ _ _ _, ?_⟩
    simp [completeOk, writeBuf]
  case waits =>
    rintro s u f ⟨op, c⟩ hmem hrun h0 h2 h1
    obtain ⟨t, hrow, hgone, hstart⟩ := exec_storeRow hmem hrun h0 h2 h1
    obtain ⟨-, -, -, hd⟩ := hrun
    refine ⟨fun h => ?_, fun h hq => ?_⟩
    · rw [hgone h, reject] at hrow
      exact ⟨_, hrow, completed_self s f stNoStore 0 0 0 hd, by simp⟩
    · rw [hstart h hq] at hrow
      exact ⟨_, hrow, rfl, rfl, by simp⟩
  case replay =>
    rintro s u f l ⟨ha, hr, hs, hd⟩ hb hon hst hn hl hmax hroom
    obtain ⟨v, g, st, r, hrun, ⟨items, hdel, hmap, hall⟩, hmem, hunits, hopen⟩ :=
      storeReplay_whole hr hs hb hon hst hn hl hmax hroom
    have hrow := exec_opStoreReplay u s ha
    rw [hrun] at hrow
    have hrest : rest (wmUpdate (settle v g st 1 r)) = rest v := (rest_wmUpdate _).trans (rest_settle v g st 1 r)
    have hdeliv : (wmUpdate (settle v g st 1 r)).host.deliv = s.host.deliv ++ items :=
      (congrArg (·.host.deliv) hrest).trans hdel
    refine ⟨_, hrow, ?_, fun d hd => ?_, ?_, ?_, ?_⟩
    · rw [hdeliv, List.map_append, hmap]
    · rw [hdeliv, List.drop_left] at hd
      exact hall d hd
    · exact (congrArg (·.hostMem) hrest).trans hmem
    · exact (congrArg (·.store.units) hrest).trans hunits
    · exact (congrArg (·.store.open_) hrest).trans hopen

end

section
/-!
# What the key opcodes share, and OP_KEY_ERASE (06 R194, R212, R218, R221)

After a key opcode the seal unit and the mirror look at the keys again; `judgeRest` is the state without what they may
change. A key's slots, its directory entry, root or record are then each changed by one operation.
-/
namespace Sys2Proof.Machine
open Sys2Proof Sys2Proof.Safety

/-! ## Bits of KEY_CTL -/

theorem wbit_setFld_same (w : Word) (i v : Nat) (h : i < 32) : wbit (setFld w i 1 v) i = decide (v % 2 = 1) := by
  rw [wbit, fld_setFld_same w i 1 v (by omega)]
  rfl

theorem wbit_setFld_other (w : Word) {i j : Nat} (v : Nat) (hi : i < 32) (h : j ≠ i) :
    wbit (setFld w i 1 v) j = wbit w j := by
  obtain hlt | hgt := Nat.lt_or_gt_of_ne h
  · rw [wbit, wbit, fld_setFld_below w i 1 v j 1 (by omega) (by omega)]
  · rw [wbit, wbit, fld_setFld_above w i 1 v j 1 (by omega) (by omega)]

/-- A bit of KEY_CTL above the generations leaves both of them. -/
theorem gens_kcSet (r : EpRec) (i v : Nat) (h1 : 16 ≤ i) (h2 : i < 32) :
    kcCur (kcSet r i 1 v) = kcCur r ∧ kcPend (kcSet r i 1 v) = kcPend r := by
  rw [kcCur, kcCur, kcPend, kcPend, kcSet]
  dsimp only
  rw [fld_setFld_below _ i 1 v 0 8 (by omega) (by omega), fld_setFld_below _ i 1 v 8 8 (by omega) (by omega)]
  exact ⟨rfl, rfl⟩

/-! ## What is judged after a key opcode -/

/-- A state without what the seal unit's and the mirror's second look at the keys can change. -/
def judgeRest (s : State) : State := { wireRest s with sealU := { s.sealU with missed := false } }

theorem judgeRest_of_wireRest {s t : State} (h : wireRest t = wireRest s) : judgeRest t = judgeRest s := by
  have hseal : t.sealU = s.sealU := wireRest_sealU h
  simp only [judgeRest, h, hseal]

theorem judgeRest_sealWatch (s : State) : judgeRest (sealWatch s) = judgeRest s := by
  unfold sealWatch
  split
  · rfl
  · rw [judgeRest_of_wireRest (wireRest_logEvent _ _ _)]
    rfl

theorem judgeRest_sealJudged (old s : State) : judgeRest (sealJudged old s) = judgeRest s := by
  unfold sealJudged
  split
  · rfl
  · exact judgeRest_sealWatch s

theorem judgeRest_rootsJudged (old s : State) : judgeRest (rootsJudged old s) = judgeRest s := by
  unfold rootsJudged
  split
  · rfl
  · exact judgeRest_of_wireRest (wireRest_mirrorEval s)

theorem judgeRest_wmUpdate (s : State) : judgeRest (wmUpdate s) = judgeRest s := rfl

theorem judgeRest_recs {s t : State} (h : judgeRest t = judgeRest s) : t.recs = s.recs := congrArg (·.recs) h
theorem judgeRest_keys {s t : State} (h : judgeRest t = judgeRest s) : t.keys = s.keys := congrArg (·.keys) h
theorem judgeRest_cq {s t : State} (h : judgeRest t = judgeRest s) : t.host.cq = s.host.cq := congrArg (·.host.cq) h
theorem judgeRest_hostMem {s t : State} (h : judgeRest t = judgeRest s) : t.hostMem = s.hostMem := congrArg (·.hostMem) h

/-- A completion stands after the second look. -/
theorem completed_judged {s u t : State} {f : Flight} {st p n : Nat} {r : BitVec 128} (hd : f.discard = false)
    (hc : u.host.cq = s.host.cq) (h : judgeRest t = judgeRest (complete u f st p n r)) : Completed s t f st p n r := by
  have hdone := completed_of s u f st p n r hd (by rw [cqGet, cqGet, hc])
  have htime : t.time = (wmUpdate (complete u f st p n r)).time := congrArg (·.time) h
  have hcq : t.host.cq = (wmUpdate (complete u f st p n r)).host.cq := congrArg (·.host.cq) h
  rw [Completed, cqGet, ← hcq] at hdone
  obtain ⟨e, hw, h1, h2, h3, h4, h5, h6, h7, h8⟩ := hdone
  exact ⟨e, hw, h1, h2, h3, h4, h5, h6, by rw [h7, dtOf, dtOf, htime], h8⟩

/-! ## A key opcode's start -/

theorem withKey_run {s : State} {u op : Nat} {f : Flight} {g : Flight → KTgt → State} {t : KTgt}
    (hr : runnable s u op = some f) (hs : stateShut s u = false) (ht : keyTgt f.raw = t) (hb : keyBehind s f = false)
    (hok : t ≠ .badHandle ∧ t ≠ .badEid) : withKey s u op g = g f t := by
  rw [withKey, withDesc_run s u op _ f hr hs, ht]
  obtain ⟨h1, h2⟩ := hok
  cases t with
  | badHandle => exact absurd rfl h1
  | badEid => exact absurd rfl h2
  | ep e => exact if_neg (by simp [hb])
  | dir h => exact if_neg (by simp [hb])
  | root n => exact if_neg (by simp [hb])

theorem withKey_badHandle {s : State} {u op : Nat} {f : Flight} {g : Flight → KTgt → State} (hr : runnable s u op = some f)
    (hs : stateShut s u = false) (ht : keyTgt f.raw = .badHandle) : withKey s u op g = badParam (klFail s f) f 24 := by
  rw [withKey, withDesc_run s u op _ f hr hs, ht]

/-! ## Directory and roots -/

theorem dirStore_kept (s : State) (h : Nat) (d : DirEnt) : (dirStore s h d).host.cq = s.host.cq ∧
    (dirStore s h d).keys.slots = s.keys.slots ∧ (dirStore s h d).recs.tab = s.recs.tab ∧
    (dirStore s h d).recs.pins = s.recs.pins := by
  simp [dirStore, dirPut, keyAppend]

theorem dirGet_dirStore (s : State) (h k : Nat) (d : DirEnt) :
    dirGet (dirStore s h d) k = if k = h then d else dirGet s k := by
  simp [dirGet, dirStore, dirPut, keyAppend, tget_tset]

theorem rootStore_kept (s : State) (n : Nat) (r : RootEnt) : (rootStore s n r).host.cq = s.host.cq ∧
    (rootStore s n r).keys.slots = s.keys.slots ∧ (rootStore s n r).recs.tab = s.recs.tab := by
  unfold rootStore rootPut cfgKeySection
  dsimp only
  split <;> simp [keyAppend]

theorem rootGet_rootStore (s : State) (n : Nat) (r : RootEnt) : rootGet (rootStore s n r) n = r := by
  unfold rootStore rootPut cfgKeySection
  dsimp only
  split <;> simp [rootGet]

/-! ## Slots -/

/-- A slot no test picks stays. -/
theorem slotRetire_none {s : State} {g : Slot → Bool} (h : ∀ p ∈ s.keys.slots, g p.2 = false) :
    (slotRetire s g).keys.slots = s.keys.slots := by
  refine (List.map_congr_left fun p hp => ?_).trans (List.map_id _)
  dsimp only
  rw [h p hp, Bool.and_false]
  rfl

theorem slotRetire_kept (s : State) (g : Slot → Bool) : (slotRetire s g).recs = s.recs ∧
    (slotRetire s g).host = s.host ∧ (slotRetire s g).keys.dir = s.keys.dir := ⟨rfl, rfl, rfl⟩

/-- A slot in use that retires still holds its key. -/
theorem slotHolds_slotRetire {s : State} (g : Slot → Bool) {h : Nat} {gens : List (BitVec 8)} :
    slotHolds (slotRetire s g) h gens = slotHolds s h gens := by
  have hone : ∀ x : Slot, ((if (x.st == 2 || x.st == 1) && g x then retiredSlot x else x).handle == h &&
      (if (x.st == 2 || x.st == 1) && g x then retiredSlot x else x).st != 0 &&
      gens.contains (if (x.st == 2 || x.st == 1) && g x then retiredSlot x else x).gen) =
      (x.handle == h && x.st != 0 && gens.contains x.gen) := by
    intro x
    split
    · next hx =>
      have h0 : x.st != 0 := by
        simp only [Bool.and_eq_true, Bool.or_eq_true, beq_iff_eq] at hx
        obtain ⟨h | h, -⟩ := hx <;> simp [h]
      have h1 : (retiredSlot x).st != 0 := by
        unfold retiredSlot
        split <;> rfl
      rw [h0, h1]
      rfl
    · rfl
  rw [slotHolds, slotHolds, slotRetire, slotMap, List.any_map]
  exact List.any_congr rfl fun p => hone p.2

/-! ## OP_KEY_ERASE -/

theorem setProgress_kept (s : State) (f : Flight) (step units : Nat) :
    (∀ e, recGet (setProgress s f step units) e = recGet s e) ∧ (setProgress s f step units).keys = s.keys ∧
      (setProgress s f step units).host.cq = s.host.cq := by
  simp [setProgress]

/-- One of the two marks of an erase: a bit of KEY_CTL cleared where the erase takes that place. -/
def markOff (r : EpRec) (c : Prop) [Decidable c] (i : Nat) : EpRec := if c then kcSet r i 1 0 else r

theorem eraseMark_eq (r : EpRec) (w : Nat) : eraseMark r w = markOff (markOff r (w ≠ 1) 29) (w ≠ 0) 28 := rfl

theorem markOff_kept (r : EpRec) (c : Prop) [Decidable c] {i : Nat} (h1 : 16 ≤ i) (h2 : i < 32) :
    kcCur (markOff r c i) = kcCur r ∧ kcPend (markOff r c i) = kcPend r ∧ (markOff r c i).keyCur = r.keyCur ∧
      (markOff r c i).keyPend = r.keyPend := by
  unfold markOff
  split
  · exact ⟨(gens_kcSet r i 0 h1 h2).1, (gens_kcSet r i 0 h1 h2).2, rfl, rfl⟩
  · exact ⟨rfl, rfl, rfl, rfl⟩

theorem markOff_off (r : EpRec) {c : Prop} [Decidable c] {i : Nat} (h : i < 32) (hc : c) :
    wbit (markOff r c i).keyCtl i = false := by
  rw [markOff, if_pos hc]
  exact wbit_setFld_same _ i 0 h

theorem markOff_other (r : EpRec) (c : Prop) [Decidable c] {i j : Nat} (h : i < 32) (hj : j ≠ i) :
    wbit (markOff r c i).keyCtl j = wbit r.keyCtl j := by
  unfold markOff
  split
  · exact wbit_setFld_other _ 0 h hj
  · rfl

theorem eraseMark_keys (r : EpRec) (w : Nat) : (eraseMark r w).keyCur = r.keyCur ∧ (eraseMark r w).keyPend = r.keyPend := by
  rw [eraseMark_eq]
  obtain ⟨-, -, h1, h2⟩ := markOff_kept r (w ≠ 1) (i := 29) (by omega) (by omega)
  obtain ⟨-, -, h3, h4⟩ := markOff_kept (markOff r (w ≠ 1) 29) (w ≠ 0) (i := 28) (by omega) (by omega)
  exact ⟨h3.trans h1, h4.trans h2⟩

theorem eraseMark_gens (r : EpRec) (w : Nat) : eraseGens (eraseMark r w) w = eraseGens r w := by
  obtain ⟨h1, h2, -, -⟩ := markOff_kept r (w ≠ 1) (i := 29) (by omega) (by omega)
  obtain ⟨h3, h4, -, -⟩ := markOff_kept (markOff r (w ≠ 1) 29) (w ≠ 0) (i := 28) (by omega) (by omega)
  have hcur : kcCur (eraseMark r w) = kcCur r := by rw [eraseMark_eq, h3, h1]
  have hpend : kcPend (eraseMark r w) = kcPend r := by rw [eraseMark_eq, h4, h2]
  rw [eraseGens, eraseGens, hcur, hpend, (eraseMark_keys r w).1, (eraseMark_keys r w).2]

theorem eraseMark_valid (r : EpRec) (w : Nat) : (w ≠ 1 → kcPendValid (eraseMark r w) = false) ∧
    (w ≠ 0 → kcCurValid (eraseMark r w) = false) := by
  rw [kcPendValid, kcCurValid, eraseMark_eq]
  exact ⟨fun h => (markOff_other _ _ (by omega) (by omega)).trans (markOff_off r (by omega) h),
    fun h => markOff_off _ (by omega) h⟩

theorem eraseDone_fields (r : EpRec) (w : Nat) : (w ≠ 1 → (eraseDone r w).keyPend = none) ∧
    (w ≠ 0 → (eraseDone r w).keyCur = none) ∧ (w = 0 → (eraseDone r w).keyCur = r.keyCur) ∧
    kcRevoked (eraseDone r w) = false :=
  ⟨fun h => if_pos h, fun h => if_pos h, fun h => if_neg (fun hne => hne h), wbit_setFld_same _ 30 0 (by omega)⟩

/-- An endpoint's record with the erased places marked empty, and its slots on their way out. -/
def epMarked (s : State) (f : Flight) (eid : Nat) : State :=
  let w := dByte f.raw 42 1
  let r := stamped s (eraseMark (recGet s eid) w)
  slotRetire (recPut (appendState s r.writeSeq (.epRec eid (eraseDone r w))) eid r) fun x =>
    x.handle == epHandle eid && (eraseGens (recGet s eid) w).contains x.gen

theorem eraseEp_run {s : State} {f : Flight} {eid : Nat} (h : dByte f.raw 42 1 ≤ 2) :
    eraseEp s f eid = eraseWait (epMarked s f eid) f := if_neg (Nat.not_lt.mpr h)

theorem epMarked_frame (s : State) (f : Flight) (eid : Nat) :
    recGet (epMarked s f eid) eid = stamped s (eraseMark (recGet s eid) (dByte f.raw 42 1)) ∧
      (∀ e, e ≠ eid → recGet (epMarked s f eid) e = recGet s e) ∧ (epMarked s f eid).host.cq = s.host.cq := by
  unfold epMarked
  dsimp only
  generalize stamped s (eraseMark (recGet s eid) (dByte f.raw 42 1)) = r
  generalize (fun x : Slot => x.handle == epHandle eid && (eraseGens (recGet s eid) (dByte f.raw 42 1)).contains x.gen) = g
  refine ⟨?_, fun e he => ?_, ?_⟩
  · rw [recGet, (slotRetire_kept _ g).1]
    exact recGet_recPut _ _ _
  · rw [recGet, (slotRetire_kept _ g).1]
    exact (recGet_recPut_ne _ _ _ _ he).trans (appendState_recGet _ _ _ _)
  · rw [(slotRetire_kept _ g).2.1]
    simp

theorem slotHolds_epMarked (s : State) (f : Flight) (eid : Nat) (gens : List (BitVec 8)) :
    slotHolds (epMarked s f eid) (epHandle eid) gens = slotHolds s (epHandle eid) gens := by
  unfold epMarked
  dsimp only
  rw [slotHolds_slotRetire, slotHolds, slotHolds]
  simp

/-- The wait of an erase at a record ends at once where no slot holds an erased generation. -/
theorem eraseWait_ep {s : State} {f : Flight} {eid : Nat} (ht : keyTgt f.raw = .ep eid) :
    eraseWait s f = if slotHolds s (epHandle eid) (eraseGens (recGet s eid) (dByte f.raw 42 1)) then
        setProgress s { f with stage := .wait s.tcxo 1 0 } 2 0
      else completeOk (recPut s eid (eraseDone (recGet s eid) (dByte f.raw 42 1))) f 4 0 := by
  rw [eraseWait, eraseFinish, ht]

theorem eraseGens_stamped (s : State) (r : EpRec) (w : Nat) : eraseGens (stamped s r) w = eraseGens r w := rfl

/-- A directory entry on its way out. -/
def dirMarked (s : State) (h : Nat) : State :=
  slotRetire (dirStore s h { dirGet s h with st := 0 }) fun x => x.handle == h

theorem dirMarked_frame (s : State) {h : Nat} (hno : ∀ p ∈ s.keys.slots, p.2.handle ≠ h) :
    (dirMarked s h).keys.slots = s.keys.slots ∧ (∀ k, k ≠ h → dirGet (dirMarked s h) k = dirGet s k) ∧
      (dirMarked s h).host.cq = s.host.cq := by
  obtain ⟨hcq, hslots, -, -⟩ := dirStore_kept s h { dirGet s h with st := 0 }
  have hget := dirGet_dirStore s h
  unfold dirMarked
  generalize { dirGet s h with st := 0 } = d at *
  have hget := fun k => hget k d
  generalize dirStore s h d = v at *
  refine ⟨?_, fun k hk => (hget k).trans (if_neg hk), hcq⟩
  rw [slotRetire_none (by rw [hslots]; simpa using hno), hslots]

theorem eraseDir_run {s : State} {f : Flight} {h : Nat} (h0 : dByte f.raw 42 1 = 0) (hst : (dirGet s h).st ≠ 0) :
    eraseDir s f h = if (dirGet s h).st ≠ 2 ∧ childCount s h > 0 then badParam s f 24 else eraseWait (dirMarked s h) f := by
  rw [eraseDir]
  dsimp only
  rw [if_neg (fun hne => hne h0), if_neg hst]
  rfl

theorem eraseWait_dir {s : State} {f : Flight} {h : Nat} (ht : keyTgt f.raw = .dir h)
    (hs : ∀ p ∈ s.keys.slots, p.2.handle ≠ h) : eraseWait s f = completeOk (dirPut s h DirEnt.empty) f 4 0 := by
  have hnone : (s.keys.slots.any fun p => p.2.handle == h) = false := by
    rw [List.any_eq_false]
    intro p hp
    simpa using hs p hp
  rw [eraseWait, eraseFinish, ht]
  exact if_neg (by simp [hnone])

theorem eraseRoot_run {s : State} {f : Flight} {n : Nat} (h0 : dByte f.raw 42 1 = 0) (he : (rootGet s n).empty = false) :
    eraseRoot s f n =
      if !(rootGet s n).revoked && decide (childCount s (0x20000000 + n) > 0) then badParam s f 24
      else if !rootChangeOpen s then updStateError s f
      else completeOk (rootStore s n RootEnt.none) f 4 0 := by
  rw [eraseRoot, if_neg (fun hne => hne h0), if_neg (by simp [he])]

theorem keyErase_ep {s : State} {u eid : Nat} {f : Flight} (hr : runnable s u 0x21 = some f) (hs : stateShut s u = false)
    (ht : keyTgt f.raw = .ep eid) (hb : keyBehind s f = false) :
    (f.stage = .none → keyErase s u = eraseEp s f eid) ∧ (∀ a b c, f.stage = .wait a b c → keyErase s u = eraseWait s f) := by
  rw [keyErase, withKey_run hr hs ht hb ⟨nofun, nofun⟩]
  exact ⟨fun h => by rw [h], fun a b c h => by rw [h]⟩

theorem keyErase_dir {s : State} {u h : Nat} {f : Flight} (hr : runnable s u 0x21 = some f) (hs : stateShut s u = false)
    (ht : keyTgt f.raw = .dir h) (hb : keyBehind s f = false) (hst : f.stage = .none) : keyErase s u = eraseDir s f h := by
  rw [keyErase, withKey_run hr hs ht hb ⟨nofun, nofun⟩, hst]

theorem keyErase_root {s : State} {u n : Nat} {f : Flight} (hr : runnable s u 0x21 = some f) (hs : stateShut s u = false)
    (ht : keyTgt f.raw = .root n) (hb : keyBehind s f = false) (hst : f.stage = .none) : keyErase s u = eraseRoot s f n := by
  rw [keyErase, withKey_run hr hs ht hb ⟨nofun, nofun⟩, hst]

/-- The row of OP_KEY_ERASE leaves what the opcode leaves but for the second look at the keys. -/
theorem exec_erase_judged {s : State} (ha : awake s = true) (u : Nat) :
    ∃ t, exec (.opKeyErase u) s = .next t ∧ judgeRest t = judgeRest (keyErase s u) :=
  ⟨_, exec_opKeyErase u s ha, by
    rw [judgeRest_wmUpdate, keyEraseRow, judgeRest_sealJudged, judgeRest_rootsJudged]⟩

theorem judgeRest_recGet {s t : State} (h : judgeRest t = judgeRest s) (e : Nat) : recGet t e = recGet s e := by
  rw [recGet, recGet, judgeRest_recs h]
theorem judgeRest_dirGet {s t : State} (h : judgeRest t = judgeRest s) (k : Nat) : dirGet t k = dirGet s k := by
  rw [dirGet, dirGet, judgeRest_keys h]
theorem judgeRest_rootGet {s t : State} (h : judgeRest t = judgeRest s) (k : Nat) : rootGet t k = rootGet s k := by
  rw [rootGet, rootGet, judgeRest_keys h]

end Sys2Proof.Machine
end

section
open Sys2Proof Sys2Proof.Machine Sys2Proof.Safety

/-- Settles O13: a record, a directory entry and a root are each emptied by the step their slots allow. -/
theorem eraseEmptiesKeyPlaces : Obligations.EraseEmptiesKeyPlaces := by
  refine ⟨?ep, ?dir, ?root⟩
  case ep =>
    rintro s u eid f ⟨ha, hr, hs, hd⟩ ht hb hw
    obtain ⟨hnew, hwait⟩ := keyErase_ep hr hs ht hb
    obtain ⟨t, hrow, hj⟩ := exec_erase_judged ha u
    obtain ⟨hget, hother, hcq⟩ := epMarked_frame s f eid
    have hgens : eraseGens (recGet (epMarked s f eid) eid) (dByte f.raw 42 1) = eraseGens (recGet s eid) (dByte f.raw 42 1) := by
      rw [hget, eraseGens_stamped, eraseMark_gens]
    refine ⟨fun hst hno => ?_, fun hst hslot => ?_, fun a b c hst hheld => ?_⟩
    · have hfree : slotHolds s (epHandle eid) (eraseGens (recGet s eid) (dByte f.raw 42 1)) = false := by
        rw [slotHolds, List.any_eq_false]
        intro p hp
        simp [hno p hp]
      rw [hnew hst, eraseEp_run hw, eraseWait_ep ht, hgens, slotHolds_epMarked, hfree, if_neg Bool.false_ne_true,
        completeOk] at hj
      obtain ⟨d1, d2, d3, d4⟩ := eraseDone_fields (recGet (epMarked s f eid) eid) (dByte f.raw 42 1)
      have hrec : ∀ e, recGet t e = recGet (recPut (epMarked s f eid) eid
          (eraseDone (recGet (epMarked s f eid) eid) (dByte f.raw 42 1))) e := fun e => by
        rw [judgeRest_recGet hj, complete_recGet]
      refine ⟨t, hrow, ?_⟩
      rw [hrec eid, recGet_recPut]
      refine ⟨d1, d2, fun h => (d3 h).trans ?_, d4, fun e he => ?_, completed_judged hd (by simpa using hcq) hj⟩
      · rw [hget]
        exact (eraseMark_keys _ _).1
      · rw [hrec, recGet_recPut_ne _ _ _ _ he, hother e he]
    · have hheld : slotHolds s (epHandle eid) (eraseGens (recGet s eid) (dByte f.raw 42 1)) = true := by
        obtain ⟨p, hp, h1, h2, h3⟩ := hslot
        rw [slotHolds, List.any_eq_true]
        exact ⟨p, hp, by simp [h1, h2, h3]⟩
      rw [hnew hst, eraseEp_run hw, eraseWait_ep ht, hgens, slotHolds_epMarked, hheld, if_pos rfl] at hj
      obtain ⟨hrec, hkeys, hcq'⟩ := setProgress_kept (epMarked s f eid)
        { f with stage := .wait (epMarked s f eid).tcxo 1 0 } 2 0
      obtain ⟨v1, v2⟩ := eraseMark_valid (recGet s eid) (dByte f.raw 42 1)
      refine ⟨t, hrow, (judgeRest_cq hj).trans (hcq'.trans hcq), ?_⟩
      rw [judgeRest_recGet hj, hrec, hget, judgeRest_keys hj, hkeys]
      exact ⟨v1, v2, fun p hp h1 h2 => (slotRetire_gone _ _ p hp (by simp [h1, h2])).symm⟩
    · rw [hwait a b c hst, eraseWait_ep ht, hheld, if_neg Bool.false_ne_true, completeOk] at hj
      refine ⟨t, hrow, ?_, completed_judged hd (by simp) hj⟩
      rw [judgeRest_recGet hj, complete_recGet, recGet_recPut]
  case dir =>
    rintro s u h f ⟨ha, hr, hs, hd⟩ ht hb hst h0 hne
    obtain ⟨t, hrow, hj⟩ := exec_erase_judged ha u
    rw [keyErase_dir hr hs ht hb hst, eraseDir_run h0 hne] at hj
    refine ⟨fun hok hno => ?_, fun h2 hc => ?_⟩
    · obtain ⟨hslots, hother, hcq⟩ := dirMarked_frame s hno
      rw [if_neg (by rcases hok with h | h <;> simp [h]), eraseWait_dir ht (by rw [hslots]; exact hno), completeOk] at hj
      generalize dirMarked s h = v at *
      have hget : ∀ k, dirGet t k = dirGet (dirPut v h DirEnt.empty) k := fun k => by
        rw [judgeRest_dirGet hj, dirGet, complete_keys]
        rfl
      refine ⟨t, hrow, by rw [hget, dirGet_dirPut], fun k hk => ?_, completed_judged (u := dirPut v h DirEnt.empty) hd hcq hj⟩
      rw [hget, dirGet_dirPut_ne _ _ _ _ hk, hother k hk]
    · rw [if_pos ⟨h2, Nat.pos_of_ne_zero hc⟩, badParam, bad, reject] at hj
      exact ⟨t, hrow, (congrArg (·.dir) (judgeRest_keys hj)).trans (by simp), completed_judged hd rfl hj⟩
  case root =>
    rintro s u n f ⟨ha, hr, hs, hd⟩ ht hb hst h0 he
    obtain ⟨t, hrow, hj⟩ := exec_erase_judged ha u
    rw [keyErase_root hr hs ht hb hst, eraseRoot_run h0 he] at hj
    refine ⟨fun hok hopen => ?_, fun hrev hc => ?_⟩
    · rw [if_neg (by rcases hok with h | h <;> simp [h]), if_neg (by simp [hopen]), completeOk] at hj
      refine ⟨t, hrow, ?_, completed_judged hd (rootStore_kept s n _).1 hj⟩
      rw [judgeRest_rootGet hj, rootGet, complete_keys]
      exact rootGet_rootStore s n _
    · rw [if_pos (by simp [hrev]; omega), badParam, bad, reject] at hj
      exact ⟨t, hrow, (congrArg (·.roots) (judgeRest_keys hj)).trans (by simp), completed_judged hd rfl hj⟩

end

section
/-!
# OP_KEY_PIN, OP_KEY_UNPIN and OP_KEY_INVALIDATE (06 R207, R208, R213, R214)

A pin loads slots, which `keyRest` covers, and then changes one record and its pinned state, or one directory entry.
-/
namespace Sys2Proof.Machine
open Sys2Proof Sys2Proof.Safety

theorem exec_pin_judged {s : State} (ha : awake s = true) (u : Nat) :
    ∃ t, exec (.opKeyPin u) s = .next t ∧ judgeRest t = judgeRest (keyPin s u) :=
  ⟨_, exec_opKeyPin u s ha, by
    rw [judgeRest_wmUpdate, keyPinRow, judgeRest_of_wireRest (wireRest_mirrorEval _)]⟩

theorem exec_unpin_judged {s : State} (ha : awake s = true) (u : Nat) :
    ∃ t, exec (.opKeyUnpin u) s = .next t ∧ judgeRest t = judgeRest (keyUnpin s u) :=
  ⟨_, exec_opKeyUnpin u s ha, by
    rw [judgeRest_wmUpdate, keyUnpinRow, judgeRest_of_wireRest (wireRest_mirrorEval _)]⟩

theorem exec_invalidate_judged {s : State} (ha : awake s = true) (u : Nat) :
    ∃ t, exec (.opKeyInvalidate u) s = .next t ∧ judgeRest t = judgeRest (keyInvalidate s u) :=
  ⟨_, exec_opKeyInvalidate u s ha, by rw [judgeRest_wmUpdate, keyInvalidateRow, judgeRest_sealJudged]⟩

/-! ## Pins of a record -/

/-- A record pinned: written back with its pinned-state fields, which are then held in the store (R214). -/
def epPinned (s : State) (w : Word) (eid : Nat) (v : EpRec) : State :=
  let a := appendState s w (.note 1 (epHandle eid))
  pinPut (recPut a eid (stamped a v)) eid (pinOf v)

theorem stamped_congr {s t : State} (h1 : t.recs.epoch = s.recs.epoch) (h2 : t.recs.fmt = s.recs.fmt) (r : EpRec) :
    stamped t r = stamped s r := by rw [stamped, stamped, h1, h2]

theorem recView_congr {s t : State} (h : t.recs = s.recs) (e : Nat) : recView t e = recView s e := by
  have hrec : recGet t e = recGet s e := by rw [recGet, recGet, h]
  have hpin : pinGet t e = pinGet s e := by rw [pinGet, pinGet, h]
  rw [recView, recView, hrec, hpin]

theorem epPinned_frame (s : State) (w : Word) (eid : Nat) (v : EpRec) :
    recGet (epPinned s w eid v) eid = stamped s v ∧ pinGet (epPinned s w eid v) eid = pinOf v ∧
      (∀ e, e ≠ eid → recGet (epPinned s w eid v) e = recGet s e ∧ pinGet (epPinned s w eid v) e = pinGet s e) ∧
      (epPinned s w eid v).keys = s.keys ∧ (epPinned s w eid v).host.cq = s.host.cq := by
  unfold epPinned
  dsimp only
  have hst : stamped (appendState s w (.note 1 (epHandle eid))) v = stamped s v := stamped_congr (by simp) (by simp) v
  rw [hst]
  generalize stamped s v = r
  refine ⟨by simp, by simp [pinGet, pinPut], fun e he => ⟨?_, ?_⟩, by simp, by simp⟩
  · simp [recGet_recPut_ne _ _ _ _ he]
  · simp [pinGet, pinPut, tget_tset, he]

/-- A key a pin may take: not revoked, and its domain usable where it has a blob at all. -/
def PinOpen (s : State) (eid : Nat) : Prop := kcRevoked (recGet s eid) = false ∧
  (pinBlobs (recGet s eid) ≠ [] → ∃ k g, dirUse s (0x30000000 + kcDomain (recGet s eid)) = .ok k g)

/-- The slots a pin still needs. -/
def pinNeeds (s : State) (eid : Nat) : Nat := (pinBlobs (recGet s eid)).length - pinsOf s (epHandle eid)

/-- A pin past its checks, by what the count of pins says. -/
def pinGo (s : State) (f : Flight) (eid : Nat) (x : Bool × State) : State :=
  if x.1 then reject x.2 f stSlotBusy 0
  else match pinEpAll x.2 eid (pinBlobs (recGet s eid)) with
    | none => slotWait x.2 f
    | some t =>
      let p := epPinned t ((recGet s eid).writeSeq + 1) eid (recView t eid)
      completeOk p f 3 (result4 (pinsOf p (epHandle eid)) 0 0 0)

theorem pinEp_open {s : State} {eid : Nat} (f : Flight) (h : PinOpen s eid) :
    pinEp s f eid = pinGo s f eid (pinsExceed s (pinNeeds s eid)) := by
  obtain ⟨hrev, hdom⟩ := h
  have hguard : (!(pinBlobs (recGet s eid)).isEmpty &&
      match dirUse s (0x30000000 + kcDomain (recGet s eid)) with | .ok _ _ => false | _ => true) = false := by
    by_cases hne : pinBlobs (recGet s eid) = []
    · simp [hne]
    · obtain ⟨k, g, hu⟩ := hdom hne
      simp [hu]
  rw [pinEp]
  dsimp only
  rw [if_neg (by simp [hrev])]
  refine (if_neg (fun hg => Bool.false_ne_true (hguard.symm.trans hg))).trans ?_
  rw [pinGo, pinNeeds]
  generalize pinsExceed s _ = x
  obtain ⟨b, s0⟩ := x
  cases b <;> rfl

theorem pinEp_revoked {s : State} {eid : Nat} (f : Flight) (h : kcRevoked (recGet s eid) = true ∨
    (pinBlobs (recGet s eid) ≠ [] ∧ ∀ k g, dirUse s (0x30000000 + kcDomain (recGet s eid)) ≠ .ok k g)) :
    pinEp s f eid = reject s f stRevoked 0 := by
  rw [pinEp]
  dsimp only
  by_cases hr : kcRevoked (recGet s eid) = true
  · rw [if_pos hr]
  · obtain ⟨hne, hno⟩ := h.resolve_left hr
    rw [if_neg hr]
    refine if_pos ?_
    cases hu : dirUse s (0x30000000 + kcDomain (recGet s eid)) with
    | ok k g => exact absurd hu (hno k g)
    | empty => simp [hne]
    | revoked => simp [hne]

theorem slotWait_kept (s : State) (f : Flight) : (slotWait s f).recs = s.recs ∧ (slotWait s f).keys = s.keys ∧
    (slotWait s f).host.cq = s.host.cq := by
  unfold slotWait
  split <;> exact ⟨rfl, rfl, rfl⟩

theorem keyPin_ep {s : State} {u eid : Nat} {f : Flight} (hr : runnable s u 0x22 = some f) (hs : stateShut s u = false)
    (ht : keyTgt f.raw = .ep eid) (hb : keyBehind s f = false) : keyPin s u = pinEp s f eid := by
  rw [keyPin, withKey_run hr hs ht hb ⟨nofun, nofun⟩]

theorem judgeRest_pinGet {s t : State} (h : judgeRest t = judgeRest s) (e : Nat) : pinGet t e = pinGet s e := by
  rw [pinGet, pinGet, judgeRest_recs h]

@[simp] theorem complete_pinGet (s : State) (f : Flight) (st p n : Nat) (r : BitVec 128) (e : Nat) :
    pinGet (complete s f st p n r) e = pinGet s e := by simp [pinGet]

/-- A row that completes with a status and whatever else it leaves of records and keys. -/
theorem pin_rejected {s s0 t : State} {f : Flight} {st : Nat} {r : BitVec 128} (hd : f.discard = false)
    (h0 : ∃ k, s0 = { s with free := k }) (hj : judgeRest t = judgeRest (reject s0 f st r)) :
    t.recs.tab = s.recs.tab ∧ t.recs.pins = s.recs.pins ∧ t.keys = s.keys ∧ Completed s t f st 0 0 r := by
  obtain ⟨k, rfl⟩ := h0
  rw [reject] at hj
  refine ⟨(congrArg (·.tab) (judgeRest_recs hj)).trans (by simp), (congrArg (·.pins) (judgeRest_recs hj)).trans (by simp),
    (judgeRest_keys hj).trans (by simp), completed_judged (u := { s with free := k }) hd rfl hj⟩

/-! ## OP_KEY_PIN -/

/-- A record's pin, by what its slots allow. -/
theorem keyPin_record {s : State} {u eid : Nat} {f : Flight} (hrun : Runs s u 0x22 f) (ht : keyTgt f.raw = .ep eid)
    (hb : keyBehind s f = false) (hopen : PinOpen s eid) {b : Bool} {s0 : State}
    (hx : pinsExceed s (pinNeeds s eid) = (b, s0)) :
    (b = false → ∀ s1, pinEpAll s0 eid (pinBlobs (recGet s eid)) = some s1 →
      ∃ t, exec (.opKeyPin u) s = .next t ∧ pinGet t eid = pinOf (recView s eid) ∧ recGet t eid = stamped s (recView s eid) ∧
        (∀ e, e ≠ eid → recGet t e = recGet s e ∧ pinGet t e = pinGet s e) ∧
        Completed s t f 0x00 3 0 (result4 (pinsOf s1 (epHandle eid)) 0 0 0)) ∧
    (b = false → pinEpAll s0 eid (pinBlobs (recGet s eid)) = none →
      ∃ t, exec (.opKeyPin u) s = .next t ∧ t.recs.tab = s.recs.tab ∧ t.recs.pins = s.recs.pins ∧ t.host.cq = s.host.cq) ∧
    (b = true → ∃ t, exec (.opKeyPin u) s = .next t ∧ t.recs.tab = s.recs.tab ∧ t.recs.pins = s.recs.pins ∧
        t.keys.slots = s.keys.slots ∧ Completed s t f 0x14 0 0 0) := by
  obtain ⟨ha, hr, hs, hd⟩ := hrun
  obtain ⟨t, hrow, hj⟩ := exec_pin_judged ha u
  rw [keyPin_ep hr hs ht hb, pinEp_open f hopen, hx, pinGo] at hj
  have hfree := pinsExceed_state hx
  refine ⟨?_, ?_, ?_⟩
  · rintro rfl s1 hall
    rw [if_neg Bool.false_ne_true, hall] at hj
    dsimp only at hj
    have hkey : keyRest s1 = keyRest s := (keyRest_pinEpAll hall).trans (by obtain ⟨k, rfl⟩ := hfree; rfl)
    have hrecs := keyRest_recs hkey
    rw [recView_congr hrecs] at hj
    obtain ⟨h1, h2, h3, h4, h5⟩ := epPinned_frame s1 ((recGet s eid).writeSeq + 1) eid (recView s eid)
    have hpins : pinsOf (epPinned s1 ((recGet s eid).writeSeq + 1) eid (recView s eid)) (epHandle eid) =
        pinsOf s1 (epHandle eid) := by rw [pinsOf, pinsOf, h4]
    rw [hpins, completeOk] at hj
    generalize epPinned s1 ((recGet s eid).writeSeq + 1) eid (recView s eid) = v at *
    refine ⟨t, hrow, ?_, ?_, fun e he => ⟨?_, ?_⟩, completed_judged hd (h5.trans (keyRest_cq hkey)) hj⟩
    · rw [judgeRest_pinGet hj, complete_pinGet, h2]
    · rw [judgeRest_recGet hj, complete_recGet, h1, stamped_congr (congrArg (·.epoch) hrecs) (congrArg (·.fmt) hrecs)]
    · rw [judgeRest_recGet hj, complete_recGet, (h3 e he).1, recGet, recGet, hrecs]
    · rw [judgeRest_pinGet hj, complete_pinGet, (h3 e he).2, pinGet, pinGet, hrecs]
  · rintro rfl hall
    rw [if_neg Bool.false_ne_true, hall] at hj
    dsimp only at hj
    obtain ⟨k, rfl⟩ := hfree
    obtain ⟨h1, -, h3⟩ := slotWait_kept { s with free := k } f
    exact ⟨t, hrow, congrArg (·.tab) ((judgeRest_recs hj).trans h1), congrArg (·.pins) ((judgeRest_recs hj).trans h1),
      (judgeRest_cq hj).trans h3⟩
  · rintro rfl
    obtain ⟨h1, h2, h3, h4⟩ := pin_rejected hd hfree hj
    exact ⟨t, hrow, h1, h2, congrArg (·.slots) h3, h4⟩

/-- A directory key's pin, by what the count of pins and its slot allow. -/
theorem pinDir_open {s : State} (f : Flight) {h : Nat} {k : BitVec 256} {g : BitVec 8} (hu : dirUse s h = .ok k g) {b : Bool}
    {s0 : State} (hx : pinsExceed s (if (dirGet s h).pinned then 0 else 1) = (b, s0)) :
    (b = true → pinDir s f h = reject s0 f stSlotBusy 0) ∧
    (b = false → ∀ s1, ensureDir s0 h true = some s1 → pinDir s f h =
      completeOk (dirStore s1 h { dirGet s h with pinned := true }) f 3 (result4 (pinsOf s1 h) 0 0 0)) := by
  have hn : b2n (!(dirGet s h).pinned) = if (dirGet s h).pinned then 0 else 1 := by cases (dirGet s h).pinned <;> rfl
  rw [pinDir, hu]
  dsimp only
  rw [hn, hx]
  refine ⟨?_, ?_⟩
  · rintro rfl
    rfl
  · rintro rfl s1 he
    dsimp only
    rw [he]

theorem keyPin_dir {s : State} {u h : Nat} {f : Flight} (hr : runnable s u 0x22 = some f) (hs : stateShut s u = false)
    (ht : keyTgt f.raw = .dir h) (hb : keyBehind s f = false) : keyPin s u = pinDir s f h := by
  rw [keyPin, withKey_run hr hs ht hb ⟨nofun, nofun⟩]

theorem keyPin_root {s : State} {u n : Nat} {f : Flight} (hr : runnable s u 0x22 = some f) (hs : stateShut s u = false)
    (ht : keyTgt f.raw = .root n) (hb : keyBehind s f = false) :
    keyPin s u = if (rootGet s n).empty then badParam s f 24 else completeOk s f 3 0 := by
  rw [keyPin, withKey_run hr hs ht hb ⟨nofun, nofun⟩]

/-- What a key opcode that only stores a directory entry leaves. -/
theorem dirStored {s u t : State} {f : Flight} {h : Nat} {d : DirEnt} {r : BitVec 128} (hd : f.discard = false)
    (hcq : u.host.cq = s.host.cq) (hdir : u.keys.dir = s.keys.dir)
    (hj : judgeRest t = judgeRest (completeOk (dirStore u h d) f 3 r)) :
    dirGet t h = d ∧ (∀ k, k ≠ h → dirGet t k = dirGet s k) ∧ t.recs.tab = u.recs.tab ∧ Completed s t f 0x00 3 0 r := by
  obtain ⟨h1, h2, h3, h4⟩ := dirStore_kept u h d
  have hget : ∀ k, dirGet t k = if k = h then d else dirGet s k := fun k => by
    rw [judgeRest_dirGet hj, dirGet, completeOk, complete_keys]
    refine (dirGet_dirStore u h k d).trans ?_
    rw [dirGet, dirGet, hdir]
  refine ⟨(hget h).trans (if_pos rfl), fun k hk => (hget k).trans (if_neg hk), ?_, ?_⟩
  · rw [judgeRest_recs hj, completeOk, complete_recs_tab, h3]
  · exact completed_judged (u := dirStore u h d) hd (h1.trans hcq) hj

/-! ## OP_KEY_UNPIN -/

theorem pinsOf_slotUnpin (s : State) (h : Nat) : pinsOf (slotUnpin s h) h = 0 := by
  rw [pinsOf, List.length_eq_zero_iff, List.filter_eq_nil_iff]
  intro p hp
  obtain ⟨q, -, rfl⟩ := List.mem_map.mp hp
  dsimp only
  split
  · simp
  · next hq => simp [hq]

theorem slotUnpin_recs (s : State) (h : Nat) : (slotUnpin s h).recs = s.recs := rfl
theorem slotUnpin_host (s : State) (h : Nat) : (slotUnpin s h).host = s.host := rfl

/-- The pinned-state store's place and the pins of an endpoint gone. -/
def pinDropped (u : State) (eid : Nat) : State :=
  slotUnpin (pinPut (appendState u 0 (.note 2 (epHandle eid))) eid PinEnt.none) (epHandle eid)

theorem pinDropped_frame (u : State) (eid : Nat) : (∀ e, recGet (pinDropped u eid) e = recGet u e) ∧
    (∀ e, pinGet (pinDropped u eid) e = if e = eid then PinEnt.none else pinGet u e) ∧
    (pinDropped u eid).host.cq = u.host.cq := by
  refine ⟨fun e => ?_, fun e => ?_, ?_⟩
  · rw [pinDropped, recGet, slotUnpin_recs, ← recGet, pinPut_recGet, appendState_recGet]
  · rw [pinDropped, pinGet, slotUnpin_recs, ← pinGet]
    by_cases he : e = eid
    · rw [he, pinGet_pinPut, if_pos rfl]
    · rw [pinGet_pinPut_ne _ _ _ _ he, if_neg he, pinGet, appendState_recs_pins, ← pinGet]
  · rw [pinDropped, slotUnpin_host, pinPut_host, appendState_host_cq]

/-- A record unpinned: its pinned state written through first. -/
def epUnpinned (s : State) (eid : Nat) : State := pinDropped (recChange s eid (recView s eid)) eid

theorem epUnpinned_frame (s : State) (eid : Nat) :
    pinGet (epUnpinned s eid) eid = PinEnt.none ∧ recGet (epUnpinned s eid) eid = stamped s (recView s eid) ∧
      pinsOf (epUnpinned s eid) (epHandle eid) = 0 ∧
      (∀ e, e ≠ eid → recGet (epUnpinned s eid) e = recGet s e ∧ pinGet (epUnpinned s eid) e = pinGet s e) ∧
      (epUnpinned s eid).host.cq = s.host.cq := by
  obtain ⟨hrec, hpin, hcq⟩ := pinDropped_frame (recChange s eid (recView s eid)) eid
  have hpin' : ∀ e, pinGet (recChange s eid (recView s eid)) e = pinGet s e := fun e => by simp [pinGet]
  exact ⟨(hpin eid).trans (if_pos rfl), (hrec eid).trans (recGet_recChange _ _ _), pinsOf_slotUnpin _ _,
    fun e he => ⟨(hrec e).trans (recGet_recChange_ne _ _ _ he), (hpin e).trans ((if_neg he).trans (hpin' e))⟩,
    hcq.trans (by simp)⟩

theorem keyUnpin_ep {s : State} {u eid : Nat} {f : Flight} (hr : runnable s u 0x23 = some f) (hs : stateShut s u = false)
    (ht : keyTgt f.raw = .ep eid) (hb : keyBehind s f = false) : keyUnpin s u =
      if (pinGet s eid).on then completeOk (epUnpinned s eid) f 3 (result4 (pinsOf s (epHandle eid)) 0 0 0)
      else completeOk s f 3 0 := by
  rw [keyUnpin, withKey_run hr hs ht hb ⟨nofun, nofun⟩]
  rfl

theorem keyUnpin_dir {s : State} {u h : Nat} {f : Flight} (hr : runnable s u 0x23 = some f) (hs : stateShut s u = false)
    (ht : keyTgt f.raw = .dir h) (hb : keyBehind s f = false) : keyUnpin s u =
      if (dirGet s h).pinned then
        completeOk (slotUnpin (dirStore s h { dirGet s h with pinned := false }) h) f 3 (result4 (pinsOf s h) 0 0 0)
      else completeOk s f 3 0 := by
  rw [keyUnpin, withKey_run hr hs ht hb ⟨nofun, nofun⟩]

theorem keyUnpin_root {s : State} {u n : Nat} {f : Flight} (hr : runnable s u 0x23 = some f) (hs : stateShut s u = false)
    (ht : keyTgt f.raw = .root n) (hb : keyBehind s f = false) : keyUnpin s u = completeOk s f 3 0 := by
  rw [keyUnpin, withKey_run hr hs ht hb ⟨nofun, nofun⟩]

/-- A row that only completes. -/
theorem key_completed {s t : State} {f : Flight} {st p : Nat} {r : BitVec 128} (hd : f.discard = false)
    (hj : judgeRest t = judgeRest (complete s f st p 0 r)) :
    t.keys = s.keys ∧ t.recs.tab = s.recs.tab ∧ t.recs.pins = s.recs.pins ∧ Completed s t f st p 0 r :=
  ⟨(judgeRest_keys hj).trans (by simp), (congrArg (·.tab) (judgeRest_recs hj)).trans (by simp),
    (congrArg (·.pins) (judgeRest_recs hj)).trans (by simp), completed_judged hd rfl hj⟩

/-! ## OP_KEY_INVALIDATE -/

/-- The slots a test picks retire, and the row completes with their number. -/
theorem invalidated {s u t : State} {f : Flight} {g : Slot → Bool} (hd : f.discard = false) (hcq : u.host.cq = s.host.cq)
    (hslots : u.keys.slots = s.keys.slots) (hj : judgeRest t = judgeRest (invalidateSlots u f g)) :
    (∀ p ∈ t.keys.slots, g p.2 = true → p.2.st ≠ 2 ∧ p.2.st ≠ 1) ∧ t.keys.dir = u.keys.dir ∧ t.keys.roots = u.keys.roots ∧
      t.recs.tab = u.recs.tab ∧ Completed s t f 0x00 3 0 (result4 (retireCount s g) 0 0 0) := by
  have hcount : retireCount u g = retireCount s g := by rw [retireCount, retireCount, hslots]
  rw [invalidateSlots, hcount, completeOk] at hj
  have hkeys : t.keys = (slotRetire u g).keys := (judgeRest_keys hj).trans (complete_keys _ _ _ _ _ _)
  refine ⟨fun p hp hg => slotRetire_gone u g p (hkeys ▸ hp) hg, congrArg (·.dir) hkeys, congrArg (·.roots) hkeys, ?_, ?_⟩
  · exact (congrArg (·.tab) (judgeRest_recs hj)).trans (complete_recs_tab _ _ _ _ _ _)
  · exact completed_judged (u := slotRetire u g) hd hcq hj

theorem keyInvalidate_ep {s : State} {u eid : Nat} {f : Flight} (hr : runnable s u 0x24 = some f)
    (hs : stateShut s u = false) (ht : keyTgt f.raw = .ep eid) (hb : keyBehind s f = false) : keyInvalidate s u =
      invalidateSlots (recChange s eid (kcSet (recGet s eid) 30 1 1)) f (slotUnder s (epHandle eid)) := by
  rw [keyInvalidate, withKey_run hr hs ht hb ⟨nofun, nofun⟩]

theorem keyInvalidate_dir {s : State} {u h : Nat} {f : Flight} (hr : runnable s u 0x24 = some f)
    (hs : stateShut s u = false) (ht : keyTgt f.raw = .dir h) (hb : keyBehind s f = false) : keyInvalidate s u =
      if (dirGet s h).st = 0 then badParam s f 24
      else invalidateSlots (dirStore s h { dirGet s h with st := 2 }) f (slotUnder s h) := by
  rw [keyInvalidate, withKey_run hr hs ht hb ⟨nofun, nofun⟩]

theorem keyInvalidate_root {s : State} {u n : Nat} {f : Flight} (hr : runnable s u 0x24 = some f)
    (hs : stateShut s u = false) (ht : keyTgt f.raw = .root n) (hb : keyBehind s f = false) : keyInvalidate s u =
      if (rootGet s n).empty then badParam s f 24
      else if !rootChangeOpen s then updStateError s f
      else invalidateSlots (rootStore s n { rootGet s n with revoked := true }) f (slotUnder s (0x20000000 + n)) := by
  rw [keyInvalidate, withKey_run hr hs ht hb ⟨nofun, nofun⟩]

/-! ## A HANDLE that names nothing -/

/-- The four opcodes refuse it. -/
theorem exec_key_badHandle {s : State} {u op : Nat} {c : Instr} {f : Flight} (hrun : Runs s u op f)
    (ht : keyTgt f.raw = .badHandle) (h : (op, c) ∈ [(0x21, Instr.opKeyErase u), (0x22, Instr.opKeyPin u),
      (0x23, Instr.opKeyUnpin u), (0x24, Instr.opKeyInvalidate u)]) :
    ∃ t, exec c s = .next t ∧ judgeRest t = judgeRest (badParam s f 24) := by
  obtain ⟨ha, hr, hs, -⟩ := hrun
  have hop := runnable_opcode hr
  have hkl : op ≠ 0x20 → klFail s f = s := fun h => klFail_other fun h' => absurd (hop.symm.trans h') h
  simp only [List.mem_cons, Prod.mk.injEq, List.not_mem_nil, or_false] at h
  obtain ⟨rfl, rfl⟩ | ⟨rfl, rfl⟩ | ⟨rfl, rfl⟩ | ⟨rfl, rfl⟩ := h
  · obtain ⟨t, hrow, hj⟩ := exec_erase_judged ha u
    rw [keyErase, withKey_badHandle hr hs ht, hkl (by decide)] at hj
    exact ⟨t, hrow, hj⟩
  · obtain ⟨t, hrow, hj⟩ := exec_pin_judged ha u
    rw [keyPin, withKey_badHandle hr hs ht, hkl (by decide)] at hj
    exact ⟨t, hrow, hj⟩
  · obtain ⟨t, hrow, hj⟩ := exec_unpin_judged ha u
    rw [keyUnpin, withKey_badHandle hr hs ht, hkl (by decide)] at hj
    exact ⟨t, hrow, hj⟩
  · obtain ⟨t, hrow, hj⟩ := exec_invalidate_judged ha u
    rw [keyInvalidate, withKey_badHandle hr hs ht, hkl (by decide)] at hj
    exact ⟨t, hrow, hj⟩

end Sys2Proof.Machine
end

section
open Sys2Proof Sys2Proof.Machine Sys2Proof.Safety

/-- Settles O14: each of the three opcodes at a record, a directory key and a root. -/
theorem pinUnpinInvalidate : Obligations.PinUnpinInvalidate := by
  refine ⟨⟨?pinEp, ?pinDir, ?pinRoot, ?unpinEp, ?unpinDir, ?unpinRoot⟩, ?invEp, ?invDir, ?invRoot, ?bad⟩
  case pinEp =>
    intro s u eid f hrun ht hb
    refine ⟨fun hrev hdom => ⟨fun s0 hx => ?_, fun s0 hx => ?_, fun s0 hx => ?_⟩, fun h => ?_⟩
    · exact (keyPin_record hrun ht hb ⟨hrev, hdom⟩ hx).1 rfl
    · exact (keyPin_record hrun ht hb ⟨hrev, hdom⟩ hx).2.1 rfl
    · exact (keyPin_record hrun ht hb ⟨hrev, hdom⟩ hx).2.2 rfl
    · obtain ⟨ha, hr, hs, hd⟩ := hrun
      obtain ⟨t, hrow, hj⟩ := exec_pin_judged ha u
      rw [keyPin_ep hr hs ht hb, pinEp_revoked f h] at hj
      obtain ⟨h1, h2, h3, h4⟩ := pin_rejected hd ⟨s.free, rfl⟩ hj
      exact ⟨t, hrow, h1, h2, congrArg (·.slots) h3, h4⟩
  case pinDir =>
    rintro s u h f ⟨ha, hr, hs, hd⟩ ht hb
    obtain ⟨t, hrow, hj⟩ := exec_pin_judged ha u
    rw [keyPin_dir hr hs ht hb] at hj
    refine ⟨fun k g hu s0 hx s1 he => ?_, fun k g hu s0 hx => ?_, fun hu => ?_, fun hu => ?_⟩
    · rw [(pinDir_open f hu hx).2 rfl s1 he] at hj
      have hkey : keyRest s1 = keyRest s := (keyRest_ensureDir he).trans (by obtain ⟨k, rfl⟩ := pinsExceed_state hx; rfl)
      obtain ⟨h1, h2, h3, h4⟩ := dirStored hd (keyRest_cq hkey) (keyRest_dir hkey) hj
      exact ⟨t, hrow, h1, h2, h3.trans (congrArg (·.tab) (keyRest_recs hkey)), h4⟩
    · rw [(pinDir_open f hu hx).1 rfl] at hj
      obtain ⟨-, -, h3, h4⟩ := pin_rejected hd (pinsExceed_state hx) hj
      exact ⟨t, hrow, congrArg (·.dir) h3, h4⟩
    · rw [pinDir, hu, reject] at hj
      obtain ⟨h1, -, -, h4⟩ := key_completed hd hj
      exact ⟨t, hrow, congrArg (·.dir) h1, h4⟩
    · rw [pinDir, hu, badParam, bad, reject] at hj
      obtain ⟨h1, -, -, h4⟩ := key_completed hd hj
      exact ⟨t, hrow, congrArg (·.dir) h1, h4⟩
  case pinRoot =>
    rintro s u n f ⟨ha, hr, hs, hd⟩ ht hb
    obtain ⟨t, hrow, hj⟩ := exec_pin_judged ha u
    rw [keyPin_root hr hs ht hb] at hj
    refine ⟨fun he => ?_, fun he => ?_⟩
    · rw [if_neg (by simp [he]), completeOk] at hj
      obtain ⟨h1, -, -, h4⟩ := key_completed hd hj
      exact ⟨t, hrow, h1, h4⟩
    · rw [if_pos he, badParam, bad, reject] at hj
      obtain ⟨h1, -, -, h4⟩ := key_completed hd hj
      exact ⟨t, hrow, h1, h4⟩
  case unpinEp =>
    rintro s u eid f ⟨ha, hr, hs, hd⟩ ht hb
    obtain ⟨t, hrow, hj⟩ := exec_unpin_judged ha u
    rw [keyUnpin_ep hr hs ht hb] at hj
    refine ⟨fun hon => ?_, fun hoff => ?_⟩
    · rw [if_pos hon, completeOk] at hj
      obtain ⟨h1, h2, h3, h4, h5⟩ := epUnpinned_frame s eid
      have hpins : pinsOf t (epHandle eid) = pinsOf (epUnpinned s eid) (epHandle eid) := by
        rw [pinsOf, pinsOf, judgeRest_keys hj, complete_keys]
      refine ⟨t, hrow, ?_, ?_, hpins.trans h3, fun e he => ⟨?_, ?_⟩, completed_judged hd h5 hj⟩
      · rw [judgeRest_pinGet hj, complete_pinGet, h1]
      · rw [judgeRest_recGet hj, complete_recGet, h2]
      · rw [judgeRest_recGet hj, complete_recGet, (h4 e he).1]
      · rw [judgeRest_pinGet hj, complete_pinGet, (h4 e he).2]
    · rw [if_neg (by simp [hoff]), completeOk] at hj
      obtain ⟨-, h2, h3, h4⟩ := key_completed hd hj
      exact ⟨t, hrow, h2, h3, h4⟩
  case unpinDir =>
    rintro s u h f ⟨ha, hr, hs, hd⟩ ht hb
    obtain ⟨t, hrow, hj⟩ := exec_unpin_judged ha u
    rw [keyUnpin_dir hr hs ht hb] at hj
    refine ⟨fun hon => ?_, fun hoff => ?_⟩
    · rw [if_pos hon, completeOk] at hj
      obtain ⟨hcq, -, -, -⟩ := dirStore_kept s h { dirGet s h with pinned := false }
      have hget := fun k => dirGet_dirStore s h k { dirGet s h with pinned := false }
      generalize dirStore s h { dirGet s h with pinned := false } = v at *
      have hdir : ∀ k, dirGet t k = dirGet v k := fun k => by
        rw [dirGet, judgeRest_keys hj, complete_keys]
        rfl
      have hpins : pinsOf t h = pinsOf (slotUnpin v h) h := by
        rw [pinsOf, pinsOf, judgeRest_keys hj, complete_keys]
      refine ⟨t, hrow, (hdir h).trans ((hget h).trans (if_pos rfl)), hpins.trans (pinsOf_slotUnpin v h),
        fun k hk => (hdir k).trans ((hget k).trans (if_neg hk)), completed_judged (u := slotUnpin v h) hd hcq hj⟩
    · rw [if_neg (by simp [hoff]), completeOk] at hj
      obtain ⟨h1, -, -, h4⟩ := key_completed hd hj
      exact ⟨t, hrow, h1, h4⟩
  case unpinRoot =>
    rintro s u n f ⟨ha, hr, hs, hd⟩ ht hb
    obtain ⟨t, hrow, hj⟩ := exec_unpin_judged ha u
    rw [keyUnpin_root hr hs ht hb, completeOk] at hj
    obtain ⟨h1, -, -, h4⟩ := key_completed hd hj
    exact ⟨t, hrow, h1, h4⟩
  case invEp =>
    rintro s u eid f ⟨ha, hr, hs, hd⟩ ht hb
    obtain ⟨t, hrow, hj⟩ := exec_invalidate_judged ha u
    rw [keyInvalidate_ep hr hs ht hb] at hj
    obtain ⟨h1, -, -, h4, h5⟩ := invalidated (s := s) hd (by simp) (by simp) hj
    have hrec : ∀ e, recGet t e = recGet (recChange s eid (kcSet (recGet s eid) 30 1 1)) e := fun e => by
      rw [recGet, recGet, h4]
    refine ⟨t, hrow, ?_, fun e he => (hrec e).trans (recGet_recChange_ne _ _ _ he), h1, h5⟩
    rw [hrec, recGet_recChange]
    rfl
  case invDir =>
    rintro s u h f ⟨ha, hr, hs, hd⟩ ht hb
    obtain ⟨t, hrow, hj⟩ := exec_invalidate_judged ha u
    rw [keyInvalidate_dir hr hs ht hb] at hj
    refine ⟨fun hne => ?_, fun he => ?_⟩
    · rw [if_neg hne] at hj
      obtain ⟨hcq, hslots, -, -⟩ := dirStore_kept s h { dirGet s h with st := 2 }
      have hget := fun k => dirGet_dirStore s h k { dirGet s h with st := 2 }
      obtain ⟨h1, h2, -, -, h5⟩ := invalidated hd hcq hslots hj
      have hdir : ∀ k, dirGet t k = dirGet (dirStore s h { dirGet s h with st := 2 }) k := fun k => by
        rw [dirGet, dirGet, h2]
      exact ⟨t, hrow, (hdir h).trans ((hget h).trans (if_pos rfl)), 
        fun k hk => (hdir k).trans ((hget k).trans (if_neg hk)), h1, h5⟩
    · rw [if_pos he, badParam, bad, reject] at hj
      obtain ⟨h1, -, -, h4⟩ := key_completed hd hj
      exact ⟨t, hrow, congrArg (·.dir) h1, h4⟩
  case invRoot =>
    rintro s u n f ⟨ha, hr, hs, hd⟩ ht hb
    obtain ⟨t, hrow, hj⟩ := exec_invalidate_judged ha u
    rw [keyInvalidate_root hr hs ht hb] at hj
    refine ⟨fun he hopen => ?_, fun he hshut => ?_, fun he => ?_⟩
    · rw [if_neg (by simp [he]), if_neg (by simp [hopen])] at hj
      obtain ⟨hcq, hslots, -⟩ := rootStore_kept s n { rootGet s n with revoked := true }
      have hget := rootGet_rootStore s n { rootGet s n with revoked := true }
      obtain ⟨h1, -, h3, -, h5⟩ := invalidated hd hcq hslots hj
      refine ⟨t, hrow, ?_, h1, h5⟩
      rw [rootGet, h3]
      exact congrArg RootEnt.revoked hget
    · rw [if_neg (by simp [he]), if_pos (by simp [hshut]), updStateError, reject] at hj
      obtain ⟨h1, -, -, h4⟩ := key_completed hd hj
      exact ⟨t, hrow, congrArg (·.roots) h1, h4⟩
    · rw [if_pos he, badParam, bad, reject] at hj
      obtain ⟨h1, -, -, h4⟩ := key_completed hd hj
      exact ⟨t, hrow, congrArg (·.roots) h1, h4⟩
  case bad =>
    rintro s u f ht ⟨op, c⟩ hmem hrun
    obtain ⟨t, hrow, hj⟩ := exec_key_badHandle hrun ht hmem
    obtain ⟨-, -, -, hd⟩ := hrun
    rw [badParam, bad, reject] at hj
    obtain ⟨h1, h2, -, h4⟩ := key_completed hd hj
    exact ⟨t, hrow, h2, congrArg (·.dir) h1, congrArg (·.slots) h1, h4⟩

end

section
/-!
# OP_KEY_INSTALL (06 R193, R210, R211, R216 to R218)

A pipeline's unwrap, the kennel and the DRBG are covered by `keyRest`; each source then changes one record, one directory
entry or one root.
-/
namespace Sys2Proof.Machine
open Sys2Proof Sys2Proof.Safety

theorem exec_install_judged {s : State} (ha : awake s = true) (u : Nat) (blob : Option Blob) :
    ∃ t, exec (.opKeyInstall u blob) s = .next t ∧ judgeRest t = judgeRest (keyInstall s u blob) :=
  ⟨_, exec_opKeyInstall u blob s ha, by rw [judgeRest_wmUpdate, keyInstallRow, judgeRest_rootsJudged]⟩

theorem keyRest_wrapped {s t : State} {kek : BitVec 256} {o : Option Nat} (h : wrapRun s kek = (t, o)) :
    keyRest t = keyRest s := by
  have hw := keyRest_wrapRun s kek
  rwa [h] at hw

theorem dirGet_congr {s t : State} (h : t.keys.dir = s.keys.dir) (k : Nat) : dirGet t k = dirGet s k := by
  rw [dirGet, dirGet, h]

theorem recGet_congr {s t : State} (h : t.recs = s.recs) (e : Nat) : recGet t e = recGet s e := by rw [recGet, recGet, h]

theorem childCount_congr {s t : State} (h : keyRest t = keyRest s) (k : Nat) : childCount t k = childCount s k := by
  rw [childCount, childCount, keyRest_dir h, keyRest_recs h]

theorem dirVerified_congr {s t : State} (h : keyRest t = keyRest s) (raw : BitVec 512) (k : Nat) (b : Blob) :
    dirVerified t raw k b = dirVerified s raw k b := by
  rw [dirVerified, dirVerified, dirGet_congr (keyRest_dir h), childCount_congr h]

/-! ## A directory entry -/

/-- The entry of a directory key newly installed. -/
def installedDir (d : DirEnt) (b : Blob) : DirEnt :=
  { d with cur := some b, pend := none, parent := b.parent, curGen := b.gen, st := 1 }

/-- A directory key in its place, its old slots on their way out. -/
def dirReplaced (s : State) (h : Nat) (b : Blob) : State :=
  let u := slotRetire (dirStore s h (installedDir (dirGet s h) b)) fun x => x.handle == h
  if (dirGet s h).pinned then (ensureDir u h true).getD u else u

theorem installDirKey_eq (s : State) (f : Flight) (h : Nat) (b : Blob) :
    installDirKey s f h b = completeOk (dirReplaced s h b) f 4 (result4 (blobKcv b).toNat 0 0 0) := rfl

theorem keyRest_dirReplaced (s : State) (h : Nat) (b : Blob) :
    keyRest (dirReplaced s h b) = keyRest (dirStore s h (installedDir (dirGet s h) b)) := by
  unfold dirReplaced
  dsimp only
  split
  · rw [keyRest_ensureDir_getD, keyRest_slotRetire]
  · rw [keyRest_slotRetire]

theorem dirStore_hostMem (s : State) (h : Nat) (d : DirEnt) : (dirStore s h d).hostMem = s.hostMem := by
  simp [dirStore, dirPut, keyAppend]

/-- What the install of a directory key leaves of the state it starts from. -/
theorem dirInstalled {s0 s t : State} {f : Flight} {h : Nat} {b : Blob} (hd : f.discard = false)
    (hcq : s.host.cq = s0.host.cq) (hj : judgeRest t = judgeRest (installDirKey s f h b)) :
    (∀ k, dirGet t k = if k = h then installedDir (dirGet s h) b else dirGet s k) ∧ t.hostMem = s.hostMem ∧
      Completed s0 t f 0x00 4 0 (result4 (blobKcv b).toNat 0 0 0) := by
  have hkey := keyRest_dirReplaced s h b
  rw [installDirKey_eq, completeOk] at hj
  refine ⟨fun k => ?_, ?_, completed_judged hd ?_ hj⟩
  · rw [judgeRest_dirGet hj, dirGet, complete_keys, keyRest_dir hkey]
    exact dirGet_dirStore s h k _
  · rw [judgeRest_hostMem hj, complete_hostMem, keyRest_hostMem hkey, dirStore_hostMem]
  · exact (keyRest_cq hkey).trans ((dirStore_kept s h _).1.trans hcq)

theorem keyInstall_dir {s : State} {u h : Nat} {f : Flight} {blob : Option Blob} (hr : runnable s u 0x20 = some f)
    (hs : stateShut s u = false) (ht : keyTgt f.raw = .dir h) (hb : keyBehind s f = false)
    (hi : installBad s f.raw (.dir h) = none) : keyInstall s u blob = installDir s f h blob := by
  rw [keyInstall, withKey_run hr hs ht hb ⟨nofun, nofun⟩, hi]

/-- A directory key handed over in a blob that unwraps and passes its checks. -/
theorem installDir_blob {s s1 : State} {f : Flight} {h p : Nat} {kek : BitVec 256} {pg : BitVec 8} {b : Blob}
    (hsrc : kiSource f.raw = 0) (hst : (dirGet s h).st ≠ 2) (hp : parentUse s (.dir h) (kiParent f.raw) = .ok kek pg)
    (hw : wrapRun s kek = (s1, some p)) (hc : blobCheck (some b) kek h (kiParent f.raw) (kiGen f.raw) pg = none) :
    installDir s f h (some b) =
      if dirVerified s1 f.raw h b then installDirKey s1 f h b else installFail s1 f stNotVerified 0 := by
  rw [installDir]
  dsimp only
  rw [if_neg hst, hp]
  dsimp only
  rw [if_neg (by omega), hw]
  dsimp only
  rw [hc]

/-- A directory key generated (R210, R211). -/
theorem installDir_generated {s s1 : State} {f : Flight} {h p : Nat} {kek : BitVec 256} {pg : BitVec 8}
    (hsrc : kiSource f.raw = 2) (hst : (dirGet s h).st ≠ 2) (hp : parentUse s (.dir h) (kiParent f.raw) = .ok kek pg)
    (hw : wrapRun s kek = (s1, some p)) (hopen : drbgOpen s = true) :
    installDir s f h none =
      let v := (takeFree (drbgUse s1)).2
      let b := genBlob v f.raw h (drbgUse s1).free kek pg
      if !dirVerified v f.raw h b then installFail v f stNotVerified 0
      else installDirKey (writeBuf v f (if hIsSign h then Config.pubPoint b.typ (privScalar b.typ b.material b.handle)
        else blobBytes b)) f h b := by
  rw [installDir]
  dsimp only
  rw [if_neg hst, hp]
  dsimp only
  rw [if_pos hsrc, hw]
  dsimp only
  rw [if_neg (by simp [hopen])]
  rfl

theorem genBlob_congr {s t : State} (h : t.keys.dir = s.keys.dir) (raw : BitVec 512) (k n : Nat) (kek : BitVec 256)
    (pg : BitVec 8) : genBlob t raw k n kek pg = genBlob s raw k n kek pg := by rw [genBlob, genBlob, dirGet_congr h]

/-- What a generated directory key leaves: its entry, its copy in the buffer and its completion. -/
theorem dirGenerated {s v t : State} {f : Flight} {h n : Nat} {kek : BitVec 256} {pg : BitVec 8} (hd : f.discard = false)
    (hup : s.host.linkDown = false) (hv : keyRest v = keyRest s)
    (hok : dirVerified s f.raw h (genBlob s f.raw h n kek pg) = true)
    (hj : judgeRest t = judgeRest (
      let b := genBlob v f.raw h n kek pg
      if !dirVerified v f.raw h b then installFail v f stNotVerified 0
      else installDirKey (writeBuf v f (if hIsSign h then Config.pubPoint b.typ (privScalar b.typ b.material b.handle)
        else blobBytes b)) f h b)) :
    let b := genBlob s f.raw h n kek pg
    (∀ k, dirGet t k = if k = h then installedDir (dirGet s h) b else dirGet s k) ∧
      Wrote s t (dBufAddr f.raw) (if hIsSign h then Config.pubPoint b.typ (privScalar b.typ b.material b.handle)
        else blobBytes b) ∧ Completed s t f 0x00 4 0 (result4 (blobKcv b).toNat 0 0 0) := by
  intro b
  dsimp only at hj
  rw [genBlob_congr (keyRest_dir hv), dirVerified_congr hv, if_neg (by simp [hok])] at hj
  change judgeRest t = judgeRest (installDirKey (writeBuf v f (if hIsSign h then
    Config.pubPoint b.typ (privScalar b.typ b.material b.handle) else blobBytes b)) f h b) at hj
  clear_value b
  generalize (if hIsSign h then Config.pubPoint b.typ (privScalar b.typ b.material b.handle) else blobBytes b) = out at *
  obtain ⟨c, w, hw⟩ := writeBuf_up (s := v) ((congrArg (·.host.linkDown) hv).trans hup) f out
  have hx : (writeBuf v f out).keys.dir = s.keys.dir ∧ (writeBuf v f out).host.cq = s.host.cq ∧
      (writeBuf v f out).hostMem = memWrite s.hostMem (dBufAddr f.raw) out := by
    have h1 : v.keys.dir = s.keys.dir := keyRest_dir hv
    have h2 : v.host.cq = s.host.cq := keyRest_cq hv
    rw [hw, ← keyRest_hostMem hv]
    exact ⟨h1, h2, rfl⟩
  obtain ⟨hdir, hcq, hmem⟩ := hx
  generalize writeBuf v f out = x at *
  obtain ⟨h1, h2, h3⟩ := dirInstalled hd hcq hj
  refine ⟨fun k => (h1 k).trans ?_, ?_, h3⟩
  · rw [dirGet_congr hdir, dirGet_congr hdir]
  · rw [Wrote, h2, hmem]
    exact ⟨memRead_memWrite _ _ _, fun x hx => memByte_memWrite_other _ _ _ _ hx⟩

/-- A revoked place or parent. -/
theorem installDir_revoked {s : State} {f : Flight} {h : Nat} {blob : Option Blob}
    (hrev : (dirGet s h).st = 2 ∨ parentUse s (.dir h) (kiParent f.raw) = .revoked) :
    installDir s f h blob = installFail s f stRevoked 0 := by
  rw [installDir]
  by_cases hst : (dirGet s h).st = 2
  · exact if_pos hst
  · rw [if_neg hst, hrev.resolve_left hst]

theorem klFail_kept (s : State) (f : Flight) : (klFail s f).recs = s.recs ∧ (klFail s f).host = s.host ∧
    (klFail s f).keys.dir = s.keys.dir ∧ (klFail s f).keys.roots = s.keys.roots := by
  unfold klFail
  split <;> exact ⟨rfl, rfl, rfl, rfl⟩

/-- An install refused: nothing installed, only the key-load registers may be zeroed. -/
theorem install_refused {s u t : State} {f : Flight} {st : Nat} {r : BitVec 128} (hd : f.discard = false)
    (hu : keyRest u = keyRest s) (hj : judgeRest t = judgeRest (reject (klFail u f) f st r)) :
    t.recs.tab = s.recs.tab ∧ t.keys.dir = s.keys.dir ∧ t.keys.roots = s.keys.roots ∧ Completed s t f st 0 0 r := by
  obtain ⟨h1, h2, h3, h4⟩ := klFail_kept u f
  rw [reject] at hj
  refine ⟨?_, ?_, ?_, completed_judged hd (by rw [h2, keyRest_cq hu]) hj⟩
  · rw [judgeRest_recs hj, complete_recs_tab, h1, keyRest_recs hu]
  · rw [judgeRest_keys hj, complete_keys, h3, keyRest_dir hu]
  · rw [judgeRest_keys hj, complete_keys, h4, keyRest_roots hu]

/-! ## A record's new key -/

/-- A record with a new pending key of a generation under a domain (step 3 of R216). -/
def withPending (r : EpRec) (b : Blob) (gen : BitVec 8) (dom : Nat) : EpRec :=
  kcSet (kcSet (kcSet { r with keyPend := some b } 8 8 gen.toNat) 16 12 dom) 29 1 1

theorem withPending_gens (r : EpRec) (b : Blob) (gen : BitVec 8) (dom : Nat) :
    kcCur (withPending r b gen dom) = kcCur r ∧ kcPend (withPending r b gen dom) = gen ∧
      kcPendValid (withPending r b gen dom) = true := by
  refine ⟨?_, ?_, wbit_setFld_same _ 29 1 (by omega)⟩
  · simp only [kcCur, withPending, kcSet]
    rw [fld_setFld_below _ 29 1 1 0 8 (by omega) (by omega), fld_setFld_below _ 16 12 _ 0 8 (by omega) (by omega),
      fld_setFld_below _ 8 8 _ 0 8 (by omega) (by omega)]
  · simp only [kcPend, withPending, kcSet]
    rw [fld_setFld_below _ 29 1 1 8 8 (by omega) (by omega), fld_setFld_below _ 16 12 _ 8 8 (by omega) (by omega),
      fld_setFld_same _ 8 8 _ (by omega), Nat.mod_eq_of_lt gen.isLt]
    simp

theorem promoted_gens (r : EpRec) : kcCur (promoted r) = kcPend r ∧ kcPend (promoted r) = kcPend r ∧
    kcPendValid (promoted r) = false := by
  refine ⟨?_, ?_, wbit_setFld_same _ 29 0 (by omega)⟩
  · simp only [kcCur, promoted, kcSet]
    rw [fld_setFld_below _ 29 1 0 0 8 (by omega) (by omega), fld_setFld_below _ 28 1 1 0 8 (by omega) (by omega),
      fld_setFld_same _ 0 8 _ (by omega)]
    refine BitVec.eq_of_toNat_eq ?_
    simp [kcPend]
  · simp only [kcPend, promoted, kcSet]
    rw [fld_setFld_below _ 29 1 0 8 8 (by omega) (by omega), fld_setFld_below _ 28 1 1 8 8 (by omega) (by omega),
      fld_setFld_above _ 0 8 _ 8 8 (by omega) (by omega)]

/-- A record after an install at it: pending, or current at once where a check value verified it. -/
def installedEp (r : EpRec) (raw : BitVec 512) (b : Blob) : EpRec :=
  let n := withPending r b (kiGen raw) (hIndex (kiParent raw))
  if kiKcvPresent raw then promoted n else n

theorem kcSet_kept (r : EpRec) (lo len v : Nat) : (kcSet r lo len v).keyPend = r.keyPend ∧
    (kcSet r lo len v).keyCur = r.keyCur ∧ (kcSet r lo len v).writeSeq = r.writeSeq := ⟨rfl, rfl, rfl⟩

theorem withPending_kept (r : EpRec) (b : Blob) (gen : BitVec 8) (dom : Nat) :
    (withPending r b gen dom).keyPend = some b ∧ (withPending r b gen dom).keyCur = r.keyCur ∧
      (withPending r b gen dom).writeSeq = r.writeSeq := by
  simp only [withPending, kcSet_kept, and_self]

theorem promoted_kept (r : EpRec) : (promoted r).keyPend = none ∧ (promoted r).keyCur = r.keyPend ∧
    (promoted r).writeSeq = r.writeSeq := by
  simp only [promoted, kcSet_kept, and_self]

theorem installedEp_fields (r : EpRec) (raw : BitVec 512) (b : Blob) :
    (installedEp r raw b).keyPend = (if kiKcvPresent raw then none else some b) ∧
      (installedEp r raw b).keyCur = (if kiKcvPresent raw then some b else r.keyCur) ∧
      kcCur (installedEp r raw b) = (if kiKcvPresent raw then kiGen raw else kcCur r) ∧
      kcPend (installedEp r raw b) = kiGen raw ∧ kcPendValid (installedEp r raw b) = !kiKcvPresent raw ∧
      (installedEp r raw b).writeSeq = r.writeSeq := by
  obtain ⟨h1, h2, h3⟩ := withPending_gens r b (kiGen raw) (hIndex (kiParent raw))
  obtain ⟨p1, p2, p3⟩ := promoted_gens (withPending r b (kiGen raw) (hIndex (kiParent raw)))
  obtain ⟨k1, k2, k3⟩ := withPending_kept r b (kiGen raw) (hIndex (kiParent raw))
  obtain ⟨q1, q2, q3⟩ := promoted_kept (withPending r b (kiGen raw) (hIndex (kiParent raw)))
  rw [installedEp]
  generalize withPending r b (kiGen raw) (hIndex (kiParent raw)) = n at *
  generalize promoted n = m at *
  cases kiKcvPresent raw with
  | true => exact ⟨q1, q2.trans k1, p1.trans h2, p2.trans h2, p3, q3.trans k3⟩
  | false => exact ⟨k1, k2, h1, h2, h3, k3⟩

theorem installPins_state {s s0 : State} {f : Flight} {eid : Nat} {r : EpRec} {b : Bool} (h : installPins s f eid r = (b, s0)) :
    ∃ k, s0 = { s with free := k } := by
  unfold installPins at h
  split at h
  · exact pinsExceed_state h
  · cases h
    exact ⟨s.free, rfl⟩

/-- The record of an endpoint with its new key, and the slot of a key it replaces on its way out. -/
def epReplaced (s : State) (eid : Nat) (r r' : EpRec) (kcv : Bool) : State :=
  if kcv then retireEp (recChange s eid r') eid (kcCur r) else recChange s eid r'

theorem keyRest_epReplaced (s : State) (eid : Nat) (r r' : EpRec) (kcv : Bool) :
    keyRest (epReplaced s eid r r' kcv) = keyRest (recChange s eid r') := by
  unfold epReplaced
  split
  · exact keyRest_retireEp _ _ _
  · rfl

theorem keyInstall_ep {s : State} {u eid : Nat} {f : Flight} {blob : Option Blob} (hr : runnable s u 0x20 = some f)
    (hs : stateShut s u = false) (ht : keyTgt f.raw = .ep eid) (hb : keyBehind s f = false)
    (hi : installBad s f.raw (.ep eid) = none) : keyInstall s u blob = installAtEp s f eid blob := by
  rw [keyInstall, withKey_run hr hs ht hb ⟨nofun, nofun⟩, hi]

theorem installAtEp_blob {s s0 : State} {f : Flight} {eid : Nat} {blob : Option Blob} {kek : BitVec 256} {pg : BitVec 8}
    (hsrc : kiSource f.raw = 0) (hrev : kcRevoked (recGet s eid) = false) (hg : kiGen f.raw = nextGen (recGet s eid))
    (hg' : kiGen f.raw ≠ kcCur (recGet s eid))
    (hpar : (recGet s eid).keyCur.isSome ∨ (recGet s eid).keyPend.isSome →
      kiParent f.raw = 0x30000000 + kcDomain (recGet s eid))
    (hx : installPins s f eid (recGet s eid) = (false, s0)) (hp : parentUse s0 (.ep eid) (kiParent f.raw) = .ok kek pg) :
    installAtEp s f eid blob = installEp s0 f eid blob kek pg := by
  rw [installAtEp, if_neg (by simp [hrev]), if_neg (fun h => h.2 hg), if_neg (fun h => hg' h.2), if_neg, hx]
  · dsimp only
    rw [hp]
    exact if_pos hsrc
  · rintro ⟨-, hold, hne⟩
    exact hne (hpar (by simpa using hold))

theorem installAtEp_rehome {s : State} {f : Flight} {eid : Nat} {blob : Option Blob} {kek : BitVec 256} {pg : BitVec 8}
    (hsrc : kiSource f.raw = 3) (hrev : kcRevoked (recGet s eid) = false)
    (hp : parentUse s (.ep eid) (kiParent f.raw) = .ok kek pg) :
    installAtEp s f eid blob = installRehome s f eid blob kek pg := by
  have hn : ¬ kiSource f.raw = 0 := by omega
  have hx : installPins s f eid (recGet s eid) = (false, s) := by
    rw [installPins, if_neg (by simp [hn])]
  rw [installAtEp, if_neg (by simp [hrev]), if_neg (fun h => hn h.1), if_neg (fun h => hn h.1), if_neg (fun h => hn h.1), hx]
  dsimp only
  rw [hp]
  exact if_neg hn

/-- The state a new pending key's slots are asked for in: the slot of a pending key it replaces retires first. -/
def pendRetired (s : State) (eid : Nat) (r : EpRec) : State := if kcPendValid r then retireEp s eid (kcPend r) else s

theorem keyRest_pendRetired (s : State) (eid : Nat) (r : EpRec) : keyRest (pendRetired s eid r) = keyRest s := by
  unfold pendRetired
  split
  · exact keyRest_retireEp _ _ _
  · rfl

theorem installEp_blob {s s1 s2 : State} {f : Flight} {eid p : Nat} {b : Blob} {kek : BitVec 256} {pg : BitVec 8}
    (hw : wrapRun s kek = (s1, some p))
    (hc : blobCheck (some b) kek (epHandle eid) (kiParent f.raw) (kiGen f.raw) pg = none)
    (hk : kiKcvPresent f.raw = true → blobKcv b = kiKcv f.raw)
    (he : (if (pinGet s1 eid).on then ensureEp (pendRetired s1 eid (recGet s eid)) eid (some b) true
      else ensureDir (pendRetired s1 eid (recGet s eid)) (kiParent f.raw) false) = some s2) :
    installEp s f eid (some b) kek pg =
      installOk (epReplaced s2 eid (recGet s eid) (installedEp (recGet s eid) f.raw b) (kiKcvPresent f.raw)) f (blobKcv b) := by
  have hkcv : ¬ (kiKcvPresent f.raw && blobKcv b != kiKcv f.raw) = true := by
    cases hp : kiKcvPresent f.raw with
    | true => simp [hk hp]
    | false => simp
  rw [installEp]
  dsimp only
  rw [hw]
  dsimp only
  rw [hc]
  dsimp only
  rw [if_neg hkcv]
  unfold pendRetired at he
  rw [he]
  rfl

/-- What an install at an endpoint leaves: its record changed once, the rest of the state by the key store alone. -/
theorem epInstalled {s v t : State} {f : Flight} {eid : Nat} {r : EpRec} {kcv : Word} (hd : f.discard = false)
    (hv : ∃ u, keyRest u = keyRest s ∧ keyRest v = keyRest (recChange u eid r))
    (hj : judgeRest t = judgeRest (installOk v f kcv)) :
    recGet t eid = stamped s r ∧ (∀ e, e ≠ eid → recGet t e = recGet s e) ∧
      Completed s t f 0x00 4 0 (result4 kcv.toNat 0 0 0) := by
  obtain ⟨u, hu, hv⟩ := hv
  rw [installOk, completeOk] at hj
  have hget : ∀ e, recGet t e = recGet (recChange u eid r) e := fun e => by
    rw [judgeRest_recGet hj, complete_recGet, recGet_congr (keyRest_recs hv)]
  refine ⟨?_, fun e he => ?_, completed_judged hd ?_ hj⟩
  · rw [hget, recGet_recChange]
    exact stamped_congr (congrArg (·.epoch) (keyRest_recs hu)) (congrArg (·.fmt) (keyRest_recs hu)) r
  · rw [hget, recGet_recChange_ne _ _ _ he, recGet_congr (keyRest_recs hu)]
  · rw [keyRest_cq hv, recChange_host_cq, keyRest_cq hu]

/-! ## The current key under another domain -/

/-- The record with its current key rehomed (R218). -/
def rehomedEp (r : EpRec) (raw : BitVec 512) (b : Blob) : EpRec :=
  kcSet (kcSet { r with keyCur := some b, keyPend := none } 16 12 (hIndex (kiParent raw))) 29 1 0

theorem rehomedEp_domain (r : EpRec) (raw : BitVec 512) (b : Blob) (h : hIndex (kiParent raw) < 4096) :
    kcDomain (rehomedEp r raw b) = hIndex (kiParent raw) := by
  simp only [kcDomain, rehomedEp, kcSet]
  rw [fld_setFld_below _ 29 1 0 16 12 (by omega) (by omega), fld_setFld_same _ 16 12 _ (by omega)]
  exact Nat.mod_eq_of_lt h

theorem parentUse_ep {s : State} {eid p : Nat} {kek : BitVec 256} {pg : BitVec 8} (h : parentUse s (.ep eid) p = .ok kek pg) :
    hIndex p < 4096 := by
  rw [parentUse] at h
  split at h
  · next hp => exact hp.2
  · cases h

/-- The slots of a rehomed key: one that no work refers to takes the new parent, another retires (R203). -/
def rehomeSlot (eid : Nat) (raw : BitVec 512) (b : Blob) (x : Slot) : Slot :=
  if x.handle == epHandle eid && x.gen == b.gen && x.st == 2 then
    (if x.refs = 0 then { x with parent := kiParent raw } else retiredSlot x)
  else x

/-- The state a rehomed key leaves. -/
def epRehomed (s : State) (eid : Nat) (raw : BitVec 512) (b : Blob) : State :=
  let u := slotMap (pendRetired (recChange s eid (rehomedEp (recGet s eid) raw b)) eid (recGet s eid)) (rehomeSlot eid raw b)
  if (pinGet u eid).on then (ensureEp u eid (some b) true).getD u else u

theorem keyRest_epRehomed (s : State) (eid : Nat) (raw : BitVec 512) (b : Blob) :
    keyRest (epRehomed s eid raw b) = keyRest (recChange s eid (rehomedEp (recGet s eid) raw b)) := by
  unfold epRehomed
  dsimp only
  split
  · rw [keyRest_ensureEp_getD, keyRest_slotMap, keyRest_pendRetired]
  · rw [keyRest_slotMap, keyRest_pendRetired]

theorem installRehome_blob {s s1 : State} {f : Flight} {eid p : Nat} {b c : Blob} {kek : BitVec 256} {pg : BitVec 8}
    (hw : wrapRun s kek = (s1, some p)) (hcur : (recGet s eid).keyCur = some c) (hval : kcCurValid (recGet s eid) = true)
    (hint : b.intact = true) (hkek : b.kek = kek) (hgen : b.gen = kcCur (recGet s eid)) (hmat : b.material = c.material)
    (hc : blobCheck (some b) kek (epHandle eid) (kiParent f.raw) (kiGen f.raw) pg = none) :
    installRehome s f eid (some b) kek pg = installOk (epRehomed s1 eid f.raw b) f (blobKcv b) := by
  have hrec : recGet s1 eid = recGet s eid := recGet_congr (keyRest_recs (keyRest_wrapped hw)) eid
  rw [installRehome, hw]
  dsimp only
  rw [hcur]
  dsimp only
  rw [if_neg (by simp [hint, hkek]), if_neg (by simp [hgen, hmat, hval]), hc]
  dsimp only
  rw [epRehomed, hrec]
  rfl

theorem rehomedEp_kept (r : EpRec) (raw : BitVec 512) (b : Blob) : (rehomedEp r raw b).keyCur = some b ∧
    (rehomedEp r raw b).keyPend = none ∧ (rehomedEp r raw b).writeSeq = r.writeSeq := by
  simp only [rehomedEp, kcSet_kept, and_self]

/-! ## A utility root -/

/-- The root the key-load registers hold, in an EMPTY place (R217). -/
def loadedRoot (s : State) (sr : BitVec 256) (raw : BitVec 512) (n : Nat) : RootEnt :=
  let kcv := keyKcv 2 (klMaterial s) (BitVec.ofNat 32 (0x20000000 + n))
  { rootGet s n with
    cur := some { kek := sr, intact := true, material := klMaterial s, handle := BitVec.ofNat 32 (0x20000000 + n)
                  parent := 0x10000000, gen := 1, typ := 2, usage := BitVec.ofNat 16 (kiUsage raw), parentGen := 0
                  reserved := 0 }
    revoked := false, empty := false, gen := 1, kcv := kcv, key := some (klMaterial s) }

theorem installRoot_fresh {s s1 : State} {f : Flight} {n p : Nat} (hopen : rootChangeOpen s = true)
    (hrev : (rootGet s n).revoked = false) (he : (rootGet s n).empty = true) (hw : wrapRun s s.keys.srCur = (s1, some p))
    (hk : kiKcvPresent f.raw = true → keyKcv 2 (klMaterial s) (BitVec.ofNat 32 (0x20000000 + n)) = kiKcv f.raw) :
    installRoot s f n = installOk (rootStore (klZero s1) n (loadedRoot s s1.keys.srCur f.raw n)) f
      (keyKcv 2 (klMaterial s) (BitVec.ofNat 32 (0x20000000 + n))) := by
  have hkcv : (!kiKcvPresent f.raw || keyKcv 2 (klMaterial s) (BitVec.ofNat 32 (0x20000000 + n)) == kiKcv f.raw) = true := by
    cases hp : kiKcvPresent f.raw with
    | true => simpa using hk hp
    | false => rfl
  have hgo : ¬ (!(if (rootGet s n).empty = true then
      !kiKcvPresent f.raw || keyKcv 2 (klMaterial s) (BitVec.ofNat 32 (0x20000000 + n)) == kiKcv f.raw
      else keyKcv 2 (klMaterial s) (BitVec.ofNat 32 (0x20000000 + n)) == (rootGet s n).kcv ||
        childCount s (0x20000000 + n) == 0)) = true := by
    rw [if_pos he, hkcv]
    decide
  rw [installRoot]
  dsimp only
  rw [if_neg (by simp [hopen]), if_neg (by simp [hrev]), if_neg hgo, hw]
  dsimp only
  rw [if_pos he]
  rfl

theorem rootStore_klData (s : State) (n : Nat) (r : RootEnt) : (rootStore s n r).keys.klData = s.keys.klData := by
  unfold rootStore rootPut cfgKeySection
  dsimp only
  split <;> simp [keyAppend]

theorem keyInstall_root {s : State} {u n : Nat} {f : Flight} {blob : Option Blob} (hr : runnable s u 0x20 = some f)
    (hs : stateShut s u = false) (ht : keyTgt f.raw = .root n) (hb : keyBehind s f = false)
    (hi : installBad s f.raw (.root n) = none) : keyInstall s u blob = installRoot s f n := by
  rw [keyInstall, withKey_run hr hs ht hb ⟨nofun, nofun⟩, hi]

/-- A descriptor whose fields disagree with its SOURCE (R11, R210). -/
theorem keyInstall_bad {s : State} {u r o : Nat} {f : Flight} {blob : Option Blob} (hr : runnable s u 0x20 = some f)
    (hs : stateShut s u = false) (hok : keyTgt f.raw ≠ .badHandle ∧ keyTgt f.raw ≠ .badEid) (hb : keyBehind s f = false)
    (hi : installBad s f.raw (keyTgt f.raw) = some (r, o)) : keyInstall s u blob = bad (klFail s f) f r o := by
  rw [keyInstall, withKey_run hr hs rfl hb hok, hi]

end Sys2Proof.Machine
end

section
open Sys2Proof Sys2Proof.Machine Sys2Proof.Safety

/-- Settles O12: each source at the places it suits, and the refusals. -/
theorem keyInstallPutsKeys : Obligations.KeyInstallPutsKeys := by
  refine ⟨?ep, ?root, ?dirBlob, ?dirGen, ?rehome, ?refused⟩
  case ep =>
    rintro s u eid f ⟨ha, hr, hs, hd⟩ ht hb hi hsrc hrev hg hg' hpar s0 hx kek pg hp s1 p hw b hc hk s2 he
    obtain ⟨t, hrow, hj⟩ := exec_install_judged ha u (some b)
    obtain ⟨k, rfl⟩ := installPins_state hx
    have hs1 : keyRest s1 = keyRest s := (keyRest_wrapped hw).trans rfl
    have hs2 : keyRest s2 = keyRest s := by
      refine .trans ?_ ((keyRest_pendRetired s1 eid (recGet s eid)).trans hs1)
      split at he
      · exact keyRest_ensureEp he
      · exact keyRest_ensureDir he
    rw [keyInstall_ep hr hs ht hb hi, installAtEp_blob hsrc hrev hg hg' hpar hx hp, installEp_blob hw hc hk he] at hj
    obtain ⟨h1, h2, h3⟩ := epInstalled hd ⟨s2, hs2, keyRest_epReplaced _ _ _ _ _⟩ hj
    obtain ⟨e1, e2, e3, e4, e5, e6⟩ := installedEp_fields (recGet s eid) f.raw b
    exact ⟨t, hrow, h1 ▸ e1, h1 ▸ e2, h1 ▸ e3, h1 ▸ e4, h1 ▸ e5, h1 ▸ congrArg (· + 1) e6, h2, h3⟩
  case root =>
    rintro s u n f ⟨ha, hr, hs, hd⟩ ht hb hi hsrc hopen hrev he s1 p hw hk
    obtain ⟨t, hrow, hj⟩ := exec_install_judged ha u none
    rw [keyInstall_root hr hs ht hb hi, installRoot_fresh hopen hrev he hw hk, installOk, completeOk] at hj
    have hroot := rootGet_rootStore (klZero s1) n (loadedRoot s s1.keys.srCur f.raw n)
    have hget : rootGet t n = loadedRoot s s1.keys.srCur f.raw n := by
      rw [judgeRest_rootGet hj, rootGet, complete_keys]
      exact hroot
    have hcq : (rootStore (klZero s1) n (loadedRoot s s1.keys.srCur f.raw n)).host.cq = s.host.cq :=
      (rootStore_kept (klZero s1) n _).1.trans (show s1.host.cq = s.host.cq from keyRest_cq (keyRest_wrapped hw))
    refine ⟨t, hrow, ?_, ?_, ?_, ?_, completed_judged hd hcq hj⟩
    · rw [hget, loadedRoot]
    · rw [hget, loadedRoot]
    · rw [hget, loadedRoot]
    · rw [judgeRest_keys hj, complete_keys, rootStore_klData]
      rfl
  case dirBlob =>
    rintro s u h f ⟨ha, hr, hs, hd⟩ ht hb hi hsrc hst kek pg hp s1 p hw b hc
    obtain ⟨t, hrow, hj⟩ := exec_install_judged ha u (some b)
    have hs1 : keyRest s1 = keyRest s := keyRest_wrapped hw
    rw [keyInstall_dir hr hs ht hb hi, installDir_blob hsrc hst hp hw hc, dirVerified_congr hs1] at hj
    refine ⟨fun hv => ?_, fun hv => ?_⟩
    · rw [if_pos hv] at hj
      obtain ⟨h1, -, h3⟩ := dirInstalled hd (keyRest_cq hs1) hj
      have hget : ∀ k, dirGet s1 k = dirGet s k := dirGet_congr (keyRest_dir hs1)
      rw [hget] at h1
      have hh : dirGet t h = installedDir (dirGet s h) b := (h1 h).trans (if_pos rfl)
      refine ⟨t, hrow, hh ▸ rfl, hh ▸ rfl, hh ▸ rfl, hh ▸ rfl, fun k hk => ?_, h3⟩
      exact (h1 k).trans ((if_neg hk).trans (hget k))
    · rw [if_neg (by simp [hv]), installFail] at hj
      obtain ⟨-, h2, -, h4⟩ := install_refused hd hs1 hj
      exact ⟨t, hrow, h2, h4⟩
  case dirGen =>
    rintro s u h f ⟨ha, hr, hs, hd⟩ ht hb hi hsrc hst hopen hup kek pg hp s1 p hw n rfl b rfl hv
    obtain ⟨t, hrow, hj⟩ := exec_install_judged ha u none
    rw [keyInstall_dir hr hs ht hb hi, installDir_generated hsrc hst hp hw hopen] at hj
    have hv1 : keyRest (takeFree (drbgUse s1)).2 = keyRest s := by
      rw [keyRest_takeFree, keyRest_drbgUse, keyRest_wrapped hw]
    obtain ⟨h1, h2, h3⟩ := dirGenerated hd hup hv1 hv hj
    have hh : dirGet t h = installedDir (dirGet s h) (genBlob s f.raw h (drbgUse s1).free kek pg) := (h1 h).trans (if_pos rfl)
    exact ⟨t, hrow, hh ▸ rfl, hh ▸ rfl, hh ▸ rfl, fun k hk => (h1 k).trans (if_neg hk), h2, h3⟩
  case rehome =>
    rintro s u eid f ⟨ha, hr, hs, hd⟩ ht hb hi hsrc hrev kek pg hp s1 p hw c hcur b hval hint hkek hgen hmat hc
    obtain ⟨t, hrow, hj⟩ := exec_install_judged ha u (some b)
    have hs1 : keyRest s1 = keyRest s := keyRest_wrapped hw
    rw [keyInstall_ep hr hs ht hb hi, installAtEp_rehome hsrc hrev hp,
      installRehome_blob hw hcur hval hint hkek hgen hmat hc] at hj
    obtain ⟨h1, h2, h3⟩ := epInstalled hd ⟨s1, hs1, keyRest_epRehomed s1 eid f.raw b⟩ hj
    obtain ⟨k1, k2, k3⟩ := rehomedEp_kept (recGet s1 eid) f.raw b
    have hdom := rehomedEp_domain (recGet s1 eid) f.raw b (parentUse_ep hp)
    rw [recGet_congr (keyRest_recs hs1)] at h1 k1 k2 k3 hdom
    exact ⟨t, hrow, h1 ▸ k1, h1 ▸ k2, h1 ▸ hdom, h2, h1 ▸ congrArg (· + 1) k3, h3⟩
  case refused =>
    rintro s u f blob ⟨ha, hr, hs, hd⟩
    obtain ⟨t, hrow, hj⟩ := exec_install_judged ha u blob
    refine ⟨fun ht => ?_, fun h r o ht hb hi => ?_, fun h ht hb hi => ⟨fun hrev => ?_, fun hst hp => ?_⟩⟩
    · rw [keyInstall, withKey_badHandle hr hs ht, badParam, bad] at hj
      obtain ⟨h1, h2, h3, h4⟩ := install_refused hd rfl hj
      exact ⟨t, hrow, h1, h2, h3, h4⟩
    · rw [keyInstall_bad hr hs (by rcases ht with h | h | h <;> simp [h]) hb hi, bad] at hj
      obtain ⟨h1, h2, h3, h4⟩ := install_refused hd rfl hj
      exact ⟨t, hrow, h1, h2, h3, h4⟩
    · rw [keyInstall_dir hr hs ht hb hi, installDir_revoked hrev, installFail] at hj
      obtain ⟨-, h2, -, h4⟩ := install_refused hd rfl hj
      exact ⟨t, hrow, h2, h4⟩
    · rw [keyInstall_dir hr hs ht hb hi, installDir, if_neg hst, hp, badParam, bad, reject] at hj
      obtain ⟨h1, -, -, h4⟩ := key_completed hd hj
      exact ⟨t, hrow, congrArg (·.dir) h1, h4⟩

end

section
/-!
# An update state that the RESULT of UPDATE_STATE_ERROR cannot hold as the statement has it (16 R488)

The model answers UPDATE_STATE_ERROR with the update state as a 128-bit number, the statement with its low 32 bits in the first
word of RESULT. The two agree below 2^32, and the statement speaks of every state.
-/
namespace Sys2Proof.Machine
open Sys2Proof Sys2Proof.Safety

/-- A ring that one step extends by one completion has one RESULT. -/
theorem completed_unique {s t : State} {f : Flight} {st p n st' p' n' : Nat} {r r' : BitVec 128}
    (h : Completed s t f st p n r) (h' : Completed s t f st' p' n' r') : r = r' := by
  obtain ⟨e, he, -, -, -, -, -, -, -, hr, -⟩ := h
  obtain ⟨e', he', -, -, -, -, -, -, -, hr', -⟩ := h'
  have hee : e = e' := by simpa using he.symm.trans he'
  rw [← hr, ← hr', hee]

/-- A part in READY with an OP_IMG_VERIFY in flight, and an update state of 2^32. -/
def wideUpdate : State :=
  let s := Tests.runs Tests.dVerify Tests.live
  { s with upd := { s.upd with state := 4294967296 } }

theorem wideUpdate_runs : Runs wideUpdate 1 0x81 (Tests.fl Tests.dVerify) := by decide +kernel

theorem imgVerify_wrongState {s : State} {u : Nat} {f : Flight} (c : ImgCheck) (hr : runnable s u 0x81 = some f)
    (hs : stateShut s u = false) (h1 : s.upd.state ≠ 1) (h3 : s.upd.state ≠ 3) : imgVerify s u c = updStateError s f := by
  rw [imgVerify, withDesc_run s u 0x81 _ f hr hs]
  exact if_pos (by simp [h1, h3])

end Sys2Proof.Machine
end

section
open Sys2Proof Sys2Proof.Machine Sys2Proof.Safety

/-- Refutes O46: in an update state of 2^32 OP_IMG_VERIFY ends UPDATE_STATE_ERROR with RESULT 2^32, where the statement has a
RESULT of 0, the state's low 32 bits. -/
theorem not_updatesRunTheirCourse : ¬ Obligations.UpdatesRunTheirCourse := by
  rintro ⟨-, hwrong, -⟩
  have hrun := wideUpdate_runs
  obtain ⟨t, ht, hc, -⟩ := hwrong wideUpdate 1 (Tests.fl Tests.dVerify) ⟨true, true, true, true, true, 0, 0⟩ hrun
    (by decide) (by decide)
  obtain ⟨ha, hr, hs, hd⟩ := hrun
  have hrow := exec_opImgVerify 1 ⟨true, true, true, true, true, 0, 0⟩ wideUpdate ha
  rw [imgVerify_wrongState _ hr hs (by decide) (by decide), updStateError, reject] at hrow
  obtain rfl : t = _ := by injection ht.symm.trans hrow
  have hres := completed_unique hc (completed_self wideUpdate _ stUpdState 0 0 _ hd)
  exact absurd hres (by decide)

end

section
/-!
# Boundaries, closes and sweeps (08 R249, R254, R255, R260, R265)

An entry's row walks a canonical table once; a walk changes each key by that key's own step (`twf_split`). A sweep's visit
changes one record and leaves the sweeps.
-/
namespace Sys2Proof.Machine
open Sys2Proof Sys2Proof.Safety

/-! ## Walks over a canonical table -/

theorem twfFrom_lt {α : Type} [DecidableEq α] {d : α} {lo : Nat} {t : Tab α} (h : twfFrom d (some lo) t = true) :
    ∀ p ∈ t, lo < p.1 := by
  induction t generalizing lo with
  | nil => simp
  | cons a t ih =>
    obtain ⟨k, x⟩ := a
    simp only [twfFrom, Bool.and_eq_true, decide_eq_true_eq] at h
    intro p hp
    obtain rfl | hp := List.mem_cons.mp hp
    · exact h.1.1
    · exact Nat.lt_trans h.1.1 (ih h.2 p hp)

/-- A key of a canonical table stands in it once. -/
theorem twf_split {α : Type} [DecidableEq α] {d : α} {t : Tab α} {i : Nat} (h : twf d t = true) (hi : tget d t i ≠ d) :
    ∃ l m, t = l ++ (i, tget d t i) :: m ∧ (∀ p ∈ l, p.1 ≠ i) ∧ ∀ p ∈ m, p.1 ≠ i := by
  unfold twf at h
  generalize (none : Option Nat) = lo at h
  induction t generalizing lo with
  | nil => exact absurd rfl hi
  | cons a t ih =>
    obtain ⟨k, x⟩ := a
    simp only [twfFrom, Bool.and_eq_true, decide_eq_true_eq] at h
    by_cases hk : i = k
    · subst hk
      refine ⟨[], t, by simp [tget], by simp, fun p hp => ?_⟩
      have := twfFrom_lt h.2 p hp
      omega
    · have hget : tget d ((k, x) :: t) i = tget d t i := if_neg hk
      rw [hget] at hi ⊢
      obtain ⟨l, m, ht, hl, hm⟩ := ih hi (some k) h.2
      refine ⟨(k, x) :: l, m, congrArg _ ht, fun p hp => ?_, hm⟩
      obtain rfl | hp := List.mem_cons.mp hp
      · exact fun h => hk h.symm
      · exact hl p hp

/-- A walk keeps what each of its steps keeps. -/
theorem foldl_kept {α β : Type} (g : State → α → State) (v : State → β) (l : List α) (s : State)
    (h : ∀ u, ∀ a ∈ l, v (g u a) = v u) : v (l.foldl g s) = v s := by
  induction l generalizing s with
  | nil => rfl
  | cons a l ih =>
    rw [List.foldl_cons, ih _ fun u b hb => h u b (List.mem_cons_of_mem _ hb), h s a List.mem_cons_self]

/-! ## BILL_POS -/

/-- BILL_POS at the entry `k` of `t`, where that lies ahead of it. -/
def posTo (b : BillSt) (t k : Nat) : BillSt :=
  if t < b.pos.toNat / 2 ^ 24 ∨ (t = b.pos.toNat / 2 ^ 24 ∧ k ≤ b.posStep) then b
  else { b with pos := BitVec.ofNat 64 (t * 2 ^ 24), posStep := k }

theorem posTo_kept (b : BillSt) (t k : Nat) :
    (posTo b t k).tariffs = b.tariffs ∧ (posTo b t k).cals = b.cals ∧ (posTo b t k).sweeps = b.sweeps := by
  unfold posTo
  split <;> exact ⟨rfl, rfl, rfl⟩

theorem posAdvance_eq (s : State) (t k : Nat) : posAdvance s t k = { cnt s 326 with bill := posTo s.bill t k } := by
  have hbill : (cnt s 326).bill = s.bill := cnt_bill s 326
  unfold posAdvance
  generalize cnt s 326 = u at hbill ⊢
  rw [← hbill, posTo]
  dsimp only
  rw [posSec]
  split <;> rfl

theorem posAdvance_kept (s : State) (t k : Nat) : (posAdvance s t k).recs = s.recs ∧ (posAdvance s t k).time = s.time ∧
    (posAdvance s t k).bill.tariffs = s.bill.tariffs ∧ (posAdvance s t k).bill.cals = s.bill.cals ∧
    (posAdvance s t k).bill.sweeps = s.bill.sweeps := by
  obtain ⟨h1, h2, h3⟩ := posTo_kept s.bill t k
  rw [posAdvance_eq]
  exact ⟨cnt_recs s 326, cnt_time s 326, h1, h2, h3⟩

theorem posAdvance_moves {s : State} {t k : Nat} (h : posSec s < t ∨ (posSec s = t ∧ s.bill.posStep < k)) :
    (posAdvance s t k).bill = { s.bill with pos := BitVec.ofNat 64 (t * 2 ^ 24), posStep := k } := by
  rw [posSec] at h
  rw [posAdvance_eq]
  exact if_neg (by omega)

theorem boundaryPass_due {s : State} {k t : Nat} (h : dueEntry s k = some t) : boundaryPass s k = posAdvance s t k := by
  rw [boundaryPass, h]

theorem exec_boundaryPass {s : State} (ha : awake s = true) {k : Nat} {c : Instr}
    (h : (c, k) ∈ [(Instr.intervalEnd, 1), (Instr.demandEnd, 2), (Instr.tariffSwitch, 5)]) :
    exec c s = .next (wmUpdate (boundaryPass s k)) := by
  simp only [List.mem_cons, Prod.mk.injEq, List.not_mem_nil, or_false] at h
  obtain ⟨rfl, rfl⟩ | ⟨rfl, rfl⟩ | ⟨rfl, rfl⟩ := h
  · exact exec_intervalEnd s ha
  · exact exec_demandEnd s ha
  · exact exec_tariffSwitch s ha

/-! ## Activations -/

/-- One table's part in an activation. -/
def tariffStep (t : Nat) (s : State) (p : Nat × TarEnt) : State :=
  match p.2.pend with
  | some v =>
    if v.act.toNat / 2 ^ 24 = t then
      let s := appendState s 0 (.tariff p.1 (activated p.2))
      { s with bill := { s.bill with tariffs := tset TarEnt.empty s.bill.tariffs p.1 (activated p.2) } }
    else s
  | none => s

theorem tariffActivate_due {s : State} {t : Nat} (h : dueEntry s 4 = some t) :
    tariffActivate s = s.bill.tariffs.foldl (tariffStep t) (posAdvance s t 4) := by
  rw [tariffActivate, h]
  rfl

theorem tariffStep_tab (t : Nat) (s : State) (p : Nat × TarEnt) : (tariffStep t s p).recs.tab = s.recs.tab := by
  unfold tariffStep
  repeat' split
  all_goals simp

theorem tariffStep_other {t i : Nat} (s : State) {p : Nat × TarEnt} (h : p.1 ≠ i) :
    tarGet (tariffStep t s p) i = tarGet s i := by
  unfold tariffStep
  repeat' split
  · simp [tarGet, tget_tset_other _ _ _ _ _ (Ne.symm h)]
  · rfl
  · rfl

theorem tariffStep_same {t i : Nat} (s : State) {e : TarEnt} {v : TarVer} (hp : e.pend = some v)
    (hv : v.act.toNat / 2 ^ 24 = t) : tarGet (tariffStep t s (i, e)) i = activated e := by
  unfold tariffStep
  rw [hp]
  dsimp only
  rw [if_pos hv]
  simp [tarGet]

theorem foldl_tariffStep {s v : State} {i t : Nat} {x : TarVer} (hw : twf TarEnt.empty s.bill.tariffs = true)
    (hp : (tarGet s i).pend = some x) (hx : x.act.toNat / 2 ^ 24 = t) :
    let u := s.bill.tariffs.foldl (tariffStep t) v
    tarGet u i = activated (tarGet s i) ∧ u.recs.tab = v.recs.tab := by
  intro u
  have hne : tget TarEnt.empty s.bill.tariffs i ≠ TarEnt.empty := by
    intro h
    rw [tarGet, h] at hp
    exact absurd hp (by simp [TarEnt.empty])
  obtain ⟨l, m, hlist, -, hm⟩ := twf_split hw hne
  have hu : u = m.foldl (tariffStep t) (tariffStep t (l.foldl (tariffStep t) v) (i, tarGet s i)) := by
    simp only [u]
    rw [hlist, List.foldl_append, List.foldl_cons]
    rfl
  refine ⟨?_, foldl_kept _ (·.recs.tab) _ v fun w p _ => tariffStep_tab t w p⟩
  rw [hu, foldl_kept _ (tarGet · i) m _ fun w p hp => tariffStep_other w (hm p hp), tariffStep_same _ hp hx]

theorem tariffActivate_version {s : State} {i t : Nat} {x : TarVer} (hd : dueEntry s 4 = some t)
    (hw : twf TarEnt.empty s.bill.tariffs = true) (hp : (tarGet s i).pend = some x) (hx : x.act.toNat / 2 ^ 24 = t) :
    tarGet (tariffActivate s) i = { prev := (tarGet s i).cur, cur := some x, pend := none } ∧
      (tariffActivate s).recs.tab = s.recs.tab := by
  obtain ⟨h1, h2⟩ := foldl_tariffStep (v := posAdvance s t 4) hw hp hx
  rw [tariffActivate_due hd]
  refine ⟨h1.trans ?_, h2.trans (congrArg _ (posAdvance_kept s t 4).1)⟩
  rw [activated, hp]

/-! ## Closes -/

theorem closeEntry_congr {s t : State} (h : t.time = s.time) (c : CalEnt) : closeEntry t c = closeEntry s c := by
  have htime : ∀ (u : State) cal sec, nextClose u cal sec = nextClose { State.reset with time := u.time } cal sec :=
    fun _ _ _ => rfl
  rw [closeEntry, closeEntry, htime t, htime s, h]

/-- One calendar's part in a close. -/
def closeStep (t : Nat) (s : State) (p : Nat × CalEnt) : State :=
  match closeEntry s p.2 with
  | some (b, u) => if u = t then closeExecute s p.1 p.2 b else s
  | none => s

theorem periodClose_due {s : State} {t : Nat} (h : dueEntry s 3 = some t) :
    periodClose s = s.bill.cals.foldl (closeStep t) (posAdvance s t 3) := by
  rw [periodClose, h]
  rfl

/-- A calendar after a close at a boundary: the next period open (R254). -/
def closedCal (c : CalEnt) (b : Nat) : CalEnt :=
  { c with openPer := c.openPer + 1, lastClose := BitVec.ofNat 64 (b * 2 ^ 24), everClosed := true }

theorem closeExecute_frame (s : State) (i : Nat) (c : CalEnt) (b : Nat) :
    (closeExecute s i c b).recs.tab = s.recs.tab ∧ (closeExecute s i c b).time = s.time ∧
      (closeExecute s i c b).bill.sweeps = s.bill.sweeps ++ [⟨false, i, 0, b, c.openPer, 0⟩] ∧
      ∀ k, calGet (closeExecute s i c b) k = if k = i then closedCal c b else calGet s k := by
  unfold closeExecute
  dsimp only
  rw [← closedCal]
  generalize closedCal c b = d
  refine ⟨by simp, by simp, by simp, fun k => ?_⟩
  simp [calGet, tget_tset]

theorem closeStep_kept (t : Nat) (s : State) (p : Nat × CalEnt) :
    (closeStep t s p).recs.tab = s.recs.tab ∧ (closeStep t s p).time = s.time ∧
      (∀ x ∈ s.bill.sweeps, x ∈ (closeStep t s p).bill.sweeps) ∧ ∀ k, k ≠ p.1 → calGet (closeStep t s p) k = calGet s k := by
  unfold closeStep
  split
  · next b u _ =>
    split
    · obtain ⟨h1, h2, h3, h4⟩ := closeExecute_frame s p.1 p.2 b
      exact ⟨h1, h2, fun x hx => by rw [h3]; exact List.mem_append_left _ hx, fun k hk => (h4 k).trans (if_neg hk)⟩
    · exact ⟨rfl, rfl, fun _ h => h, fun _ _ => rfl⟩
  · exact ⟨rfl, rfl, fun _ h => h, fun _ _ => rfl⟩

theorem foldl_closeStep_sweeps (t : Nat) (l : List (Nat × CalEnt)) (s : State) :
    ∀ x ∈ s.bill.sweeps, x ∈ (l.foldl (closeStep t) s).bill.sweeps := by
  induction l generalizing s with
  | nil => exact fun _ h => h
  | cons p l ih => exact fun x hx => ih _ x ((closeStep_kept t s p).2.2.1 x hx)

/-- A close over a canonical table: the calendar of one key opens its next period and starts its sweep. -/
theorem foldl_closeStep {s v : State} {i t b : Nat} (hw : twf CalEnt.empty s.bill.cals = true)
    (hc : closeEntry s (calGet s i) = some (b, t)) (htime : v.time = s.time) :
    let u := s.bill.cals.foldl (closeStep t) v
    calGet u i = closedCal (calGet s i) b ∧ ⟨false, i, 0, b, (calGet s i).openPer, 0⟩ ∈ u.bill.sweeps ∧
      u.recs.tab = v.recs.tab := by
  intro u
  have hne : tget CalEnt.empty s.bill.cals i ≠ CalEnt.empty := by
    intro h
    rw [calGet, h] at hc
    exact absurd hc (by simp [closeEntry, CalEnt.empty])
  obtain ⟨l, m, hlist, hl, hm⟩ := twf_split hw hne
  have hu : u = m.foldl (closeStep t) (closeStep t (l.foldl (closeStep t) v) (i, calGet s i)) := by
    simp only [u]
    rw [hlist, List.foldl_append, List.foldl_cons]
    rfl
  have hltime : (l.foldl (closeStep t) v).time = s.time :=
    (foldl_kept _ (·.time) l v fun w p _ => (closeStep_kept t w p).2.1).trans htime
  have hstep : ∀ w : State, w.time = s.time → closeStep t w (i, calGet s i) = closeExecute w i (calGet s i) b := by
    intro w hw
    rw [closeStep, closeEntry_congr hw, hc]
    exact if_pos rfl
  rw [hstep _ hltime] at hu
  obtain ⟨h1, -, h3, h4⟩ := closeExecute_frame (l.foldl (closeStep t) v) i (calGet s i) b
  refine ⟨?_, ?_, ?_⟩
  · rw [hu, foldl_kept _ (calGet · i) m _ fun w p hp => (closeStep_kept t w p).2.2.2 i (Ne.symm (hm p hp)), h4, if_pos rfl]
  · rw [hu]
    refine foldl_closeStep_sweeps t m _ _ ?_
    rw [h3]
    exact List.mem_append_right _ (List.mem_singleton_self _)
  · exact foldl_kept _ (·.recs.tab) _ v fun w p _ => (closeStep_kept t w p).1

theorem periodClose_calendar {s : State} {i t b : Nat} (hd : dueEntry s 3 = some t)
    (hw : twf CalEnt.empty s.bill.cals = true) (hc : closeEntry s (calGet s i) = some (b, t)) :
    calGet (periodClose s) i = closedCal (calGet s i) b ∧
      ⟨false, i, 0, b, (calGet s i).openPer, 0⟩ ∈ (periodClose s).bill.sweeps ∧
      (periodClose s).recs.tab = s.recs.tab := by
  obtain ⟨hrecs, htime, -, -, -⟩ := posAdvance_kept s t 3
  obtain ⟨h1, h2, h3⟩ := foldl_closeStep hw hc htime
  rw [periodClose_due hd]
  exact ⟨h1, h2, h3.trans (congrArg _ hrecs)⟩

/-! ## Sweeps -/

/-- The pairs a friendly end at `t` sweeps. -/
def friendlyPairs (s : State) (t : Nat) : List (Nat × Nat) :=
  (pairsOf s fun r => r.billing).filter fun k => nextSwitch s k true (afterPos s 6) == some t

theorem friendlyEnd_due {s : State} {t : Nat} (h : dueEntry s 6 = some t) :
    (friendlyEnd s).bill.sweeps = s.bill.sweeps ++ (friendlyPairs s t).map (fun k => ⟨true, k.2, k.1, t, 0, 0⟩) ∧
      (friendlyEnd s).recs = s.recs := by
  obtain ⟨hrecs, -, -, -, hsweeps⟩ := posAdvance_kept s t 6
  rw [friendlyEnd, h, ← hrecs, ← hsweeps]
  exact ⟨rfl, rfl⟩

/-- What a sweep's visit to a record keeps of `s`. -/
def Visited (s t : State) (eid : Nat) : Prop := t.bill = s.bill ∧ ∀ x, x ≠ eid → recGet t x = recGet s x

theorem Visited.trans {s t u : State} {eid : Nat} (h : Visited s t eid) (k : Visited t u eid) : Visited s u eid :=
  ⟨k.1.trans h.1, fun x hx => (k.2 x hx).trans (h.2 x hx)⟩

theorem LedgerIs.visited {s t : State} {eid : Nat} {p : Prepay} (h : LedgerIs s t eid p) : Visited s t eid :=
  ⟨h.bill, h.others⟩

@[simp] theorem storeQueue_bill (s : State) (e : SEnt) : (storeQueue s e).bill = s.bill := by
  unfold storeQueue
  split <;> rfl

theorem closeRecord_bill (s : State) (e : SEnt) (rd : ReadRec) (g c n k : Nat) (b : Bool) (u : Option Nat) :
    (cnt (recordOut (storeQueue s e) rd g c b n u) k).bill = s.bill := by
  simp [recordOut]

theorem closePeriod_visited (s : State) (eid : Nat) (r : EpRec) (final : Bool) (sec : Nat) :
    Visited s (closePeriod s eid r final sec).1 eid := by
  unfold closePeriod
  dsimp only
  generalize hu : cnt (recordOut _ _ _ _ _ _ _) 327 = u
  have hrecs : u.recs = s.recs := by rw [← hu]; exact (closeRecord_keeps ..).1
  have hbill : u.bill = s.bill := hu ▸ closeRecord_bill ..
  generalize closedRec (stamped s r) final = d
  refine ⟨by simp [hbill], fun x hx => ?_⟩
  rw [recGet_recPut_ne _ _ _ _ hx, appendState_recGet, recGet, recGet, hrecs]

theorem closeDue_visited (eid sec n : Nat) (s : State) (r : EpRec) : Visited s (closeDue eid sec n (s, r)).1 eid := by
  induction n generalizing s r with
  | zero => exact ⟨rfl, fun _ _ => rfl⟩
  | succ n ih =>
    rw [closeDue]
    split
    · split
      · exact (closePeriod_visited s eid r false _).trans (ih _ _)
      · exact ⟨rfl, fun _ _ => rfl⟩
    · exact ⟨rfl, fun _ _ => rfl⟩

theorem ledgerIs_ledgerRun {s : State} {eid : Nat} (hb : (recView s eid).billing = true) :
    LedgerIs s (ledgerRun s eid) eid (ledgerEval (recView s eid).prepay (friendlyNow s (recView s eid)) (dtOf s)).1 := by
  rw [ledgerRun]
  dsimp only
  rw [if_pos hb]
  generalize ledgerEval (recView s eid).prepay _ _ = x
  obtain ⟨p, c⟩ := x
  cases c with
  | some c => exact ledgerIs_ledgerApply s _ _ c
  | none =>
    dsimp only
    rw [ledgerApply]
    split
    · next h =>
      have hp : p = (recView s eid).prepay := congrArg EpRec.prepay h
      exact ⟨by rw [hp, recView_prepay], fun _ _ => rfl, rfl, rfl, rfl⟩
    · exact ledgerIs_cmdChange s _ _

theorem ledgerRun_visited (s : State) (eid : Nat) : Visited s (ledgerRun s eid) eid := by
  by_cases hb : (recView s eid).billing = true
  · exact (ledgerIs_ledgerRun hb).visited
  · rw [ledgerRun]
    dsimp only
    rw [if_neg hb]
    exact ⟨rfl, fun _ _ => rfl⟩

theorem friendlyNow_congr {s t : State} (h1 : t.time = s.time) (h2 : t.bill.tariffs = s.bill.tariffs)
    (h3 : t.bill.cals = s.bill.cals) (r : EpRec) : friendlyNow t r = friendlyNow s r := by
  have hf : ∀ u : State, friendlyNow u r = friendlyNow { State.reset with
      time := u.time, bill := { State.reset.bill with tariffs := u.bill.tariffs, cals := u.bill.cals } } r := fun _ => rfl
  rw [hf t, hf s, h1, h2, h3]

theorem not_mem_sweepSet_none (s : State) (w : Sweep) : w ∉ (sweepSet s w none).bill.sweeps := by
  simp [sweepSet]

theorem mem_sweepSet {s : State} {w v : Sweep} (h : w ∈ s.bill.sweeps) : v ∈ (sweepSet s w (some v)).bill.sweeps := by
  refine List.mem_filterMap.mpr ⟨w, h, ?_⟩
  exact if_pos rfl

theorem sweepStep_last {s : State} {fr : Bool} {w : Sweep} {g : State → Nat → EpRec → Sweep → State}
    (hw : (s.bill.sweeps.find? fun x => x.friendly == fr) = some w) (hn : sweepNext s w = none) :
    sweepStep s fr g = sweepSet s w none := by
  rw [sweepStep, hw]
  dsimp only
  rw [hn]

theorem sweepStep_next {s : State} {fr : Bool} {w : Sweep} {g : State → Nat → EpRec → Sweep → State} {e : Nat} {r : EpRec}
    (hw : (s.bill.sweeps.find? fun x => x.friendly == fr) = some w) (hn : sweepNext s w = some (e, r)) :
    sweepStep s fr g = g (sweepSet s w (some { w with pos := e + 1 })) e r w := by
  rw [sweepStep, hw]
  dsimp only
  rw [hn]

/-- A sweep's visit changes one record and leaves the sweeps, the visited one a record further. -/
theorem sweepStep_visits {s : State} {fr : Bool} {w : Sweep} {g : State → Nat → EpRec → Sweep → State} {e : Nat} {r : EpRec}
    (hw : (s.bill.sweeps.find? fun x => x.friendly == fr) = some w) (hn : sweepNext s w = some (e, r))
    (hg : ∀ u, Visited u (g u e r w) e) :
    { w with pos := e + 1 } ∈ (sweepStep s fr g).bill.sweeps ∧ ∀ x, x ≠ e → recGet (sweepStep s fr g) x = recGet s x := by
  rw [sweepStep_next hw hn]
  obtain ⟨hbill, hrecs⟩ := hg (sweepSet s w (some { w with pos := e + 1 }))
  rw [hbill]
  exact ⟨mem_sweepSet (List.mem_of_find?_eq_some hw), hrecs⟩

theorem friendlySweep_ledger {s : State} {w : Sweep} {e : Nat} {r : EpRec}
    (hw : (s.bill.sweeps.find? fun x => x.friendly == true) = some w) (hn : sweepNext s w = some (e, r))
    (hb : (recView s e).billing = true) :
    (recGet (friendlySweep s) e).prepay = (ledgerEval (recView s e).prepay (friendlyNow s (recView s e)) (dtOf s)).1 := by
  rw [friendlySweep, sweepStep_next hw hn]
  have hview : recView (sweepSet s w (some { w with pos := e + 1 })) e = recView s e := rfl
  rw [(ledgerIs_ledgerRun (hview.symm ▸ hb)).ledger, hview, friendlyNow_congr (s := s) rfl rfl rfl]
  rfl

/-- What an entry's row answers, its watermarks agreed again. -/
theorem exec_sweep {s : State} {fr : Bool} {c : Instr} (ha : awake s = true) (ht : tailOpen s = true)
    (hroom : fr = false → storeRoom s = true)
    (hc : (c, fr) ∈ [(Instr.closeSweep, false), (Instr.friendlyEvaluationSweep, true)]) :
    exec c s = .next (wmUpdate (if fr then friendlySweep s else closeSweep s)) := by
  simp only [List.mem_cons, Prod.mk.injEq, List.not_mem_nil, or_false] at hc
  obtain ⟨rfl, rfl⟩ | ⟨rfl, rfl⟩ := hc
  · exact exec_closeSweep s ha ht (hroom rfl)
  · exact exec_friendlyEvaluationSweep s ha ht

/-- A sweep with no record left ends. -/
theorem sweep_ends {s : State} {fr : Bool} {w : Sweep} (hw : (s.bill.sweeps.find? fun x => x.friendly == fr) = some w)
    (hn : sweepNext s w = none) : (if fr then friendlySweep s else closeSweep s) = sweepSet s w none := by
  cases fr with
  | true => exact sweepStep_last (g := fun s eid _ _ => ledgerRun s eid) hw hn
  | false => exact sweepStep_last (g := fun s eid r w => (closeDue eid w.atSec 64 (s, r)).1) hw hn

theorem sweep_visits {s : State} {fr : Bool} {w : Sweep} {e : Nat} {r : EpRec}
    (hw : (s.bill.sweeps.find? fun x => x.friendly == fr) = some w) (hn : sweepNext s w = some (e, r)) :
    { w with pos := e + 1 } ∈ (if fr then friendlySweep s else closeSweep s).bill.sweeps ∧
      ∀ x, x ≠ e → recGet (if fr then friendlySweep s else closeSweep s) x = recGet s x := by
  cases fr with
  | true => exact sweepStep_visits (g := fun s eid _ _ => ledgerRun s eid) hw hn fun u => ledgerRun_visited u e
  | false =>
    exact sweepStep_visits (g := fun s eid r w => (closeDue eid w.atSec 64 (s, r)).1) hw hn fun u =>
      closeDue_visited e w.atSec 64 u r

end Sys2Proof.Machine
end

section
open Sys2Proof Sys2Proof.Machine Sys2Proof.Safety

/-- Settles O49: each boundary entry by its due row, closes and activations by the key's own step in the walk over a
canonical table, sweeps by one visit. -/
theorem billingBoundaries : Obligations.BillingBoundaries := by
  refine ⟨fun s k at_ c ha hc hd hpos => ?_, fun s id at_ v ha ht hd hw hp hv => ?_,
    fun s id at_ b ha ht hd hw hc => ?_, fun s at_ ha hd => ?_, fun s w fr c ha ht hroom hc hw => ?_⟩
  · refine ⟨_, exec_boundaryPass ha hc, ?_⟩
    rw [boundaryPass_due hd]
    exact ⟨(wmUpdate_bill _).trans (posAdvance_moves hpos), (wmUpdate_recs _).trans (posAdvance_kept s at_ k).1⟩
  · obtain ⟨h1, h2⟩ := tariffActivate_version hd hw hp hv
    exact ⟨_, exec_tariffActivate s ha ht, by rw [tarGet, wmUpdate_bill]; exact h1, by rw [wmUpdate_recs, h2]⟩
  · obtain ⟨h1, h2, h3⟩ := periodClose_calendar hd hw hc
    have hcal : calGet (wmUpdate (periodClose s)) id = closedCal (calGet s id) b := by rw [calGet, wmUpdate_bill]; exact h1
    refine ⟨_, exec_periodClose s ha ht, ?_⟩
    rw [hcal, wmUpdate_bill, wmUpdate_recs]
    exact ⟨rfl, rfl, rfl, h2, h3⟩
  · obtain ⟨h1, h2⟩ := friendlyEnd_due hd
    exact ⟨_, exec_friendlyEnd s ha, by rw [wmUpdate_bill]; exact h1, by rw [wmUpdate_recs, h2]⟩
  · refine ⟨fun hn => ⟨_, exec_sweep ha ht hroom hc, ?_⟩, fun e r hn => ⟨_, exec_sweep ha ht hroom hc, ?_⟩⟩
    · rw [sweep_ends hw hn, wmUpdate_bill, wmUpdate_recs]
      exact ⟨not_mem_sweepSet_none s w, rfl⟩
    · have hget : ∀ (t : State) (x : Nat), recGet (wmUpdate t) x = recGet t x := fun t x => by
        rw [recGet, recGet, wmUpdate_recs]
      obtain ⟨h1, h2⟩ := sweep_visits hw hn
      rw [wmUpdate_bill]
      refine ⟨h1, fun hf hb => ?_, fun x hx => (hget _ x).trans (h2 x hx)⟩
      subst hf
      rw [hget]
      exact friendlySweep_ledger hw hn hb
end

section
/-!
# The store's own work (14 R433 to R444)

Units move by `unitPlace` and `unitCopy`, which change where units stand and the next place of a die, and nothing else of
the store: `placeRest` and `dieRest` are what they keep.
-/
namespace Sys2Proof.Machine
open Sys2Proof Sys2Proof.Safety

/-! ## What a move keeps -/

/-- The store without where its units stand. -/
def placeRest (t : StoreSt) : StoreSt :=
  { t with units := [], copies := [], gc := none, dies := [], oldest := 0, wrapped := false }

/-- A die without its next place. -/
def dieRest (d : Die) : Die := { d with next := 0 }

theorem dieGet_congr {s t : State} (h : t.store = s.store) (n : Nat) : dieGet t n = dieGet s n := by rw [dieGet, dieGet, h]

theorem dieGet_wmUpdate (s : State) (n : Nat) : dieGet (wmUpdate s) n = dieGet s n := rfl

theorem dieGet_diePut (s : State) (n m : Nat) (d : Die) : dieGet (diePut s n d) m = if m = n then d else dieGet s m :=
  tget_tset _ _ _ _ _

theorem dieGet_diePut_same (s : State) (n : Nat) (d : Die) : dieGet (diePut s n d) n = d :=
  (dieGet_diePut s n n d).trans (if_pos rfl)

@[simp] theorem mapEntry_store (s : State) (k a : Nat) : (mapEntry s k a).store = s.store := cnt_store _ 361

theorem tailRefill_store (l : List JTail) (s : State) : (tailRefill l s).store = s.store := by
  induction l generalizing s with
  | nil => rfl
  | cons e t ih =>
    rw [tailRefill]
    split
    · exact ih _
    · rfl

@[simp] theorem journalProgram_store (s : State) : (journalProgram s).store = s.store := by
  unfold journalProgram
  split
  · rfl
  · split
    dsimp only
    split
    · rfl
    · rw [cntAdd_store, bwTx_store, tailRefill_store]

@[simp] theorem journalFlush_store (s : State) : (journalFlush s).store = s.store :=
  foldl_kept _ (·.store) _ s fun u _ _ => journalProgram_store u

theorem placeRest_diePut (s : State) (n : Nat) (d : Die) : placeRest (diePut s n d).store = placeRest s.store := rfl

theorem placeRest_copies (s : State) (g : StoreSt → List SUnit) :
    placeRest (storeSet s fun t => { t with copies := g t }).store = placeRest s.store := rfl

theorem placeRest_dropOldest (s : State) : placeRest (dropOldest s).store = placeRest s.store := by
  unfold dropOldest
  split
  · rfl
  · dsimp only
    rw [cnt_store, logEvent_store, mapEntry_store]
    rfl

theorem placeRest_storeWrap (s : State) : placeRest (storeWrap s).store = placeRest s.store := by
  unfold storeWrap
  split
  · rfl
  · exact placeRest_dropOldest s

theorem placeRest_dieFind (l : List Nat) (num k : Nat) (s : State) :
    placeRest (dieFind l num k s).2.store = placeRest s.store := by
  induction k generalizing s with
  | zero => rfl
  | succ k ih =>
    rw [dieFind]
    split
    · rfl
    · exact (ih _).trans (placeRest_dropOldest s)

/-- A unit in the map. -/
def unitAdd (s : State) (u : SUnit) : State := storeSet s fun t => { t with units := t.units ++ [u] }

theorem placeRest_unitAdd (s : State) (u : SUnit) : placeRest (unitAdd s u).store = placeRest s.store := rfl

theorem unitPlace_some {s : State} {die p : Nat} (u : SUnit) (h : placeFor s die = some p) :
    ∃ d v, unitPlace s die u = mapEntry (unitAdd (diePut s die d) v) 0 u.num := by
  rw [unitPlace, h]
  exact ⟨_, _, rfl⟩

theorem placeRest_unitPlace (s : State) (die : Nat) (u : SUnit) :
    placeRest (unitPlace s die u).store = placeRest s.store := by
  cases h : placeFor s die with
  | none => rw [unitPlace, h]
  | some p =>
    obtain ⟨d, v, hd⟩ := unitPlace_some u h
    rw [hd, mapEntry_store, placeRest_unitAdd, placeRest_diePut]

theorem placeRest_unitStore (s : State) (die : Nat) (u : SUnit) :
    placeRest (unitStore s die u).store = placeRest s.store := by
  have h := placeRest_dieFind (die :: diesOn s) u.num s.store.units.length s
  unfold unitStore
  split
  · next d t ht =>
    rw [ht] at h
    exact (placeRest_unitPlace t d u).trans h
  · next t ht =>
    rw [ht] at h
    exact h

theorem placeRest_queue {a b : StoreSt} (h : placeRest a = placeRest b) : a.queue = b.queue := congrArg (·.queue) h
theorem placeRest_next {a b : StoreSt} (h : placeRest a = placeRest b) : a.next = b.next := congrArg (·.next) h
theorem placeRest_open {a b : StoreSt} (h : placeRest a = placeRest b) : a.open_ = b.open_ := congrArg (·.open_) h

/-- The open unit's place, once its entries have gone. -/
def openCleared (s : State) (n : Nat) : State := storeSet s fun t => { t with open_ := [], unitNext := n }

theorem openCleared_entries (s : State) (n : Nat) : (openCleared s n).store.queue = s.store.queue ∧
    (openCleared s n).store.next = s.store.next ∧ (openCleared s n).store.open_ = [] := ⟨rfl, rfl, rfl⟩

/-- A closed unit is placed, and perhaps a parity unit after it. -/
theorem unitClose_rest {s : State} (h : s.store.open_.isEmpty = false) :
    placeRest (unitClose s).store = placeRest (openCleared (storeWrap s) (s.store.unitNext + 1)).store := by
  unfold unitClose
  rw [if_neg (by simp [h])]
  dsimp only
  rw [← openCleared]
  generalize openCleared (storeWrap s) (s.store.unitNext + 1) = x
  split
  · split
    · exact (placeRest_unitStore _ _ _).trans (placeRest_unitStore _ _ _)
    · exact placeRest_unitStore _ _ _
  · split
    · exact (placeRest_unitStore _ _ _).trans (placeRest_unitStore _ _ _)
    · exact placeRest_unitStore _ _ _

/-- Closing the open unit leaves the append queue, the next SSN, and an empty open unit (R433). -/
theorem unitClose_entries (s : State) : (unitClose s).store.queue = s.store.queue ∧ (unitClose s).store.next = s.store.next ∧
    (unitClose s).store.open_ = [] := by
  cases h : s.store.open_.isEmpty with
  | true =>
    have hopen : unitClose s = s := by
      unfold unitClose
      exact if_pos h
    rw [hopen]
    exact ⟨rfl, rfl, List.isEmpty_iff.mp h⟩
  | false =>
    have hrest := unitClose_rest h
    have hw := placeRest_storeWrap s
    obtain ⟨h1, h2, h3⟩ := openCleared_entries (storeWrap s) (s.store.unitNext + 1)
    exact ⟨(placeRest_queue hrest).trans (h1.trans (placeRest_queue hw)),
      (placeRest_next hrest).trans (h2.trans (placeRest_next hw)), (placeRest_open hrest).trans h3⟩

/-! ## Append -/

/-- The entry at the head of the append queue is in the open unit under the next SSN. -/
def appended (s : State) (l : List SEnt) (e : SEnt) : State :=
  cntAdd (storeSet s fun t => { t with queue := l, next := t.next + 1, open_ := t.open_ ++ [e] }) 352 1 e.eid

theorem appended_store (s : State) (l : List SEnt) (e : SEnt) : (appended s l e).store =
    { s.store with queue := l, next := s.store.next + 1, open_ := s.store.open_ ++ [e] } := cntAdd_store _ _ _ _

theorem appended_recs (s : State) (l : List SEnt) (e : SEnt) : (appended s l e).recs = s.recs := cntAdd_recs _ _ _ _

theorem diesOn_some {s : State} (h : diesOn s ≠ []) : (diesOn s).isEmpty = false := by simp [h]

theorem storeAppend_fits {s : State} {e : SEnt} {l : List SEnt} (hq : s.store.queue = e :: l) (hon : storeOn s = true)
    (hd : diesOn s ≠ []) (hfit : (s.store.open_.map entSize).sum + entSize e ≤ 32704) :
    storeAppend s = appended s l { e with ssn := s.store.next } := by
  rw [storeAppend, hq]
  dsimp only
  rw [if_neg (by simp [hon, diesOn_some hd]), decide_eq_true hfit, if_neg (by simp)]
  rfl

theorem storeAppend_fresh {s : State} {e : SEnt} {l : List SEnt} (hq : s.store.queue = e :: l) (hon : storeOn s = true)
    (hd : diesOn s ≠ []) (hfit : 32704 < (s.store.open_.map entSize).sum + entSize e)
    (hroom : progPages s + 2 * unitPages s ≤ 192) :
    storeAppend s = appended (unitClose s) l { e with ssn := s.store.next } := by
  have hn := (unitClose_entries s).2.1
  have hno : decide ((s.store.open_.map entSize).sum + entSize e ≤ 32768 - 64) = false :=
    decide_eq_false (by omega)
  have hfull : decide (192 < progPages s + 2 * unitPages s) = false := decide_eq_false (by omega)
  rw [storeAppend, hq]
  dsimp only
  rw [if_neg (by simp [hon, diesOn_some hd]), hno, hfull, if_neg (by simp)]
  rw [← hn]
  rfl

/-- A queued page of a die finishes (R436). -/
theorem pageProgrammed_runs {s : State} {die : Nat} {v : SUnit} (hd : dieOn s die = true)
    (hv : (s.store.units.find? fun u => u.die == die && u.left != 0) = some v) :
    ∃ n, pageProgrammed s die = cnt (bwTx (storeSet s fun t => { t with units := t.units.map fun u =>
      if u.num = v.num ∧ u.par = v.par then { u with left := u.left - 1 } else u }) 68 n) 353 := by
  rw [pageProgrammed, hv]
  dsimp only
  rw [if_neg (by simp [hd])]
  exact ⟨_, rfl⟩

/-! ## Moves of units -/

theorem dieRest_unitCopy (s : State) (u : SUnit) (die n : Nat) :
    dieRest (dieGet (unitCopy s u die) n) = dieRest (dieGet s n) := by
  unfold unitCopy
  split
  · rfl
  · next p _ =>
    have h : dieGet (diePut s die { dieGet s die with next := p + 1 }) n =
        if n = die then { dieGet s die with next := p + 1 } else dieGet s n := dieGet_diePut _ _ _ _
    dsimp only
    rw [dieGet_congr (cnt_store _ 355)]
    refine (congrArg dieRest h).trans ?_
    split
    · next hn => rw [hn]; rfl
    · rfl

theorem placeRest_unitCopy (s : State) (u : SUnit) (die : Nat) : placeRest (unitCopy s u die).store = placeRest s.store := by
  unfold unitCopy
  split
  · rfl
  · dsimp only
    rw [cnt_store, placeRest_copies, placeRest_diePut]

/-- What a collection's moves keep: the store but for its units' places, and each die but for its next one. -/
def Moved (s t : State) : Prop :=
  placeRest t.store = placeRest s.store ∧ ∀ n, dieRest (dieGet t n) = dieRest (dieGet s n)

theorem Moved.trans {s t u : State} (h : Moved s t) (k : Moved t u) : Moved s u :=
  ⟨k.1.trans h.1, fun n => (k.2 n).trans (h.2 n)⟩

theorem moved_foldl {α : Type} (g : State → α → State) (l : List α) (s : State) (h : ∀ u a, Moved u (g u a)) :
    Moved s (l.foldl g s) :=
  ⟨foldl_kept g (placeRest ·.store) l s fun u a _ => (h u a).1,
    fun n => foldl_kept g (fun u => dieRest (dieGet u n)) l s fun u a _ => (h u a).2 n⟩

theorem moved_gcCopy (s : State) (die b dst : Nat) : Moved s (gcCopy s die b dst) := by
  have h := moved_foldl (fun s u => unitCopy s u dst) (validIn s die b)
    (storeSet s fun t => { t with gc := some ⟨die, b, false⟩ })
    fun u a => ⟨placeRest_unitCopy u a dst, dieRest_unitCopy u a dst⟩
  exact ⟨h.1, h.2⟩

theorem moved_gcCommit (s : State) (die b : Nat) : Moved s (gcCommit s die b) := by
  have h : (journalFlush (mapEntry s 1 (validIn s die b).length)).store = s.store := by
    rw [journalFlush_store, mapEntry_store]
  have hc : ∀ (u : State) (g : Option GcRun) (l : List SUnit), u.store = s.store →
      Moved s (storeSet u fun t => { t with gc := g, units := l }) := fun u g l h =>
    ⟨(show placeRest { u.store with gc := g, units := l } = placeRest u.store from rfl).trans (congrArg placeRest h),
      fun n => congrArg dieRest (dieGet_congr (t := u) h n)⟩
  exact hc _ _ _ h

theorem moved_gcApply (s : State) : Moved s (gcApply s) := ⟨rfl, fun _ => rfl⟩

theorem moved_blockEmpty (s : State) (die b dst : Nat) : Moved s (blockEmpty s die b dst) :=
  ((moved_gcCopy s die b dst).trans (moved_gcCommit _ die b)).trans (moved_gcApply _)

/-! ## Collection -/

/-- A die one of whose blocks is erased. -/
def erased (d : Die) (b : Nat) : Die :=
  { d with erases := tset 0 d.erases b (tget 0 d.erases b + 1), reads := tset 0 d.reads b 0, eraseRow := 0,
           refresh := d.refresh.filter (· != b) }

theorem blockErase_store (s : State) (die b : Nat) :
    (blockErase s die b).store = { s.store with dies := tset Die.none s.store.dies die (erased (dieGet s die) b) } := by
  unfold blockErase
  rw [cnt_store]
  rfl

theorem dieGet_blockErase (s : State) (die b : Nat) : dieGet (blockErase s die b) die = erased (dieGet s die) b := by
  rw [dieGet, blockErase_store]
  exact tget_tset_same _ _ _ _

theorem placeRest_blockErase (s : State) (die b : Nat) : placeRest (blockErase s die b).store = placeRest s.store := by
  rw [blockErase_store]
  rfl

theorem garbageCollect_runs {s : State} {die b : Nat} (hw : storeWorks s die = true) (hv : gcVictim s die = some b)
    (hr : gcRoom s die b = true) :
    garbageCollect s die = gcApply (blockErase (gcCommit (gcCopy s die b die) die b) die b) := by
  rw [garbageCollect, if_neg (by simp [hw]), hv]
  exact if_pos hr

theorem collected (s : State) (die b : Nat) :
    let t := gcApply (blockErase (gcCommit (gcCopy s die b die) die b) die b)
    placeRest t.store = placeRest s.store ∧ dieRest (dieGet t die) = dieRest (erased (dieGet s die) b) := by
  intro t
  obtain ⟨h1, h2⟩ := (moved_gcCopy s die b die).trans (moved_gcCommit _ die b)
  have hdie : dieGet t die = erased (dieGet (gcCommit (gcCopy s die b die) die b) die) b := dieGet_blockErase _ die b
  refine ⟨(placeRest_blockErase _ die b).trans h1, ?_⟩
  have her : ∀ d e : Die, dieRest d = dieRest e → dieRest (erased d b) = dieRest (erased e b) := by
    intro d e h
    have h := congrArg (erased · b) h
    exact h
  rw [hdie]
  exact her _ _ (h2 die)

theorem erased_of_rest {d e : Die} {b : Nat} (h : dieRest d = dieRest (erased e b)) :
    tget 0 d.erases b = tget 0 e.erases b + 1 ∧ d.eraseRow = 0 ∧ b ∉ d.refresh := by
  have h1 : d.erases = tset 0 e.erases b (tget 0 e.erases b + 1) := congrArg (·.erases) h
  have h2 : d.eraseRow = 0 := congrArg (·.eraseRow) h
  have h3 : d.refresh = e.refresh.filter (· != b) := congrArg (·.refresh) h
  refine ⟨?_, h2, ?_⟩
  · rw [h1, tget_tset_same]
  · rw [h3]
    simp

/-! ## Failures -/

theorem blockRetire_store (s : State) (die b : Nat) : (blockRetire s die b).store = { s.store with
    dies := tset Die.none s.store.dies die
      { dieGet s die with retired := (dieGet s die).retired ++ [b], refresh := (dieGet s die).refresh.filter (· != b) }
    retired := s.store.retired + 1 } := mapEntry_store _ _ _

theorem dieGet_blockRetire (s : State) (die b : Nat) : dieGet (blockRetire s die b) die =
    { dieGet s die with retired := (dieGet s die).retired ++ [b], refresh := (dieGet s die).refresh.filter (· != b) } := by
  rw [dieGet, blockRetire_store]
  exact tget_tset_same _ _ _ _

/-- What an answer to a failure keeps: the counts of failures, and the retired blocks of the dies. -/
def FailKept (s t : State) : Prop :=
  t.store.progFail = s.store.progFail ∧ t.store.eraseFail = s.store.eraseFail ∧
    ∀ n, ∀ b ∈ (dieGet s n).retired, b ∈ (dieGet t n).retired

theorem FailKept.trans {s t u : State} (h : FailKept s t) (k : FailKept t u) : FailKept s u :=
  ⟨k.1.trans h.1, k.2.1.trans h.2.1, fun n b hb => k.2.2 n b (h.2.2 n b hb)⟩

theorem Moved.failKept {s t : State} (h : Moved s t) : FailKept s t := by
  obtain ⟨h1, h2⟩ := h
  refine ⟨congrArg (·.progFail) h1, congrArg (·.eraseFail) h1, fun n => ?_⟩
  have hr : (dieGet t n).retired = (dieGet s n).retired := congrArg (·.retired) (h2 n)
  rw [hr]
  exact fun _ h => h

theorem Moved.eraseRow {s t : State} (h : Moved s t) (n : Nat) : (dieGet t n).eraseRow = (dieGet s n).eraseRow :=
  congrArg (·.eraseRow) (h.2 n)

theorem failKept_blockErase (s : State) (die b : Nat) : FailKept s (blockErase s die b) := by
  have hs := placeRest_blockErase s die b
  refine ⟨congrArg (·.progFail) hs, congrArg (·.eraseFail) hs, fun n c hc => ?_⟩
  by_cases hn : n = die
  · subst hn
    rw [dieGet_blockErase]
    exact hc
  · rw [dieGet, blockErase_store]
    rwa [tget_tset_other _ _ _ _ _ hn]

theorem failKept_collect (s : State) (die b : Nat) :
    FailKept s (gcApply (blockErase (gcCommit (gcCopy s die b die) die b) die b)) :=
  ((((moved_gcCopy s die b die).trans (moved_gcCommit _ die b)).failKept).trans (failKept_blockErase _ die b)).trans
    (moved_gcApply _).failKept

/-- The block being filled on a die is retired, one more program failure counted (R442). -/
def programRetired (s : State) (die b : Nat) : State :=
  blockRetire (diePut (storeSet s fun t => { t with progFail := t.progFail + 1 }) die
    { dieGet s die with next := (b + 1) * unitsPerBlock s }) die b

theorem programRetired_fails (s : State) (die b : Nat) : (programRetired s die b).store.progFail = s.store.progFail + 1 ∧
    b ∈ (dieGet (programRetired s die b) die).retired := by
  refine ⟨congrArg (·.progFail) (blockRetire_store _ die b), ?_⟩
  rw [programRetired, dieGet_blockRetire]
  exact List.mem_append_right _ (List.mem_singleton_self b)

/-- The copies a retired block held are gone, and its units move. -/
def programMoved (s : State) (die b : Nat) : State :=
  blockEmpty (storeSet s fun t => { t with copies := t.copies.filter fun c => !(c.die == die && blockOf s c == b) }) die b die

theorem failKept_programMoved (s : State) (die b : Nat) : FailKept s (programMoved s die b) :=
  FailKept.trans (t := storeSet s fun t => { t with copies := t.copies.filter fun c => !(c.die == die && blockOf s c == b) })
    ⟨rfl, rfl, fun _ _ h => h⟩ (moved_blockEmpty _ die b die).failKept

theorem programFailure_runs {s : State} {die : Nat} (hon : storeOn s = true) (hd : dieOn s die = true)
    (hn : (dieGet s die).next ≠ 0) :
    FailKept (programRetired s die (((dieGet s die).next - 1) / unitsPerBlock s)) (programFailure s die) := by
  have hgo : ¬ ((!storeOn s || !dieOn s die || (dieGet s die).next == 0) = true) := by simp [hon, hd, hn]
  unfold programFailure
  dsimp only
  rw [if_neg hgo]
  generalize hb : ((dieGet s die).next - 1) / unitsPerBlock s = b
  rw [← programRetired]
  generalize programRetired s die b = r
  rw [← programMoved]
  have hm := failKept_programMoved r die b
  generalize programMoved r die b = m at hm
  split
  · split
    · exact hm.trans (failKept_collect m die _)
    · exact hm
  · exact hm

/-- The victim of a failed erase moves and is retired, the failure counted. -/
def eraseRetired (s : State) (die : Nat) : State :=
  let s := storeSet s fun t => { t with eraseFail := t.eraseFail + 1 }
  match gcVictim s die with
  | some b => blockRetire (blockEmpty s die b die) die b
  | none => s

theorem eraseRetired_fails (s : State) (die : Nat) : (eraseRetired s die).store.eraseFail = s.store.eraseFail + 1 ∧
    (dieGet (eraseRetired s die) die).eraseRow = (dieGet s die).eraseRow := by
  have hm := fun b => moved_blockEmpty (storeSet s fun t => { t with eraseFail := t.eraseFail + 1 }) die b die
  unfold eraseRetired
  dsimp only
  split
  · next b _ =>
    rw [dieGet_blockRetire, blockRetire_store]
    exact ⟨(hm b).failKept.2.1, (hm b).eraseRow die⟩
  · exact ⟨rfl, rfl⟩

theorem dieFail_store (s : State) (die : Nat) :
    (dieFail s die).store = (diePut s die { dieGet s die with failed := true }).store := by
  have hf : ∀ (u : State) id, (faultDisable u id).store = u.store := by
    intro u id
    unfold faultDisable
    dsimp only
    rw [logEvent_store]
    split
    · exact fnPut_store ..
    · rfl
  unfold dieFail
  dsimp only
  rw [logEvent_store, hf]

theorem dieGet_dieFail (s : State) (die : Nat) : dieGet (dieFail s die) die = { dieGet s die with failed := true } := by
  rw [dieGet_congr (dieFail_store s die), dieGet_diePut_same]

theorem fnGet_dieFail {s : State} {die : Nat} (h : dieOn s die = true) :
    (fnGet (dieFail s die) (0x0800 + die)).st = .stopping := by
  have hon : (fnGet (diePut s die { dieGet s die with failed := true }) (0x0800 + die)).st = .on := by
    rw [dieOn, fnOn] at h
    exact eq_of_beq h
  unfold dieFail
  dsimp only
  generalize diePut s die { dieGet s die with failed := true } = u at hon ⊢
  have hput : ∀ (u : State) f, fnGet (fnPut u (0x0800 + die) f) (0x0800 + die) = f := fun _ _ => tget_tset_same _ _ _ _
  have hlog : ∀ (u : State) c d id, fnGet (logEvent c d u) id = fnGet u id := fun u c d id => by
    rw [fnGet, fnGet, logEvent_funcs]
  rw [hlog, faultDisable, hlog, hon, if_pos (by rfl), hput]

/-- One more failure in a row; the third disables the die (R428). -/
def rowCounted (s : State) (die : Nat) : State :=
  let d := dieGet s die
  let s := diePut s die { d with eraseRow := d.eraseRow + 1 }
  if 3 ≤ d.eraseRow + 1 then dieFail s die else s

theorem rowCounted_row (s : State) (die : Nat) : (rowCounted s die).store.eraseFail = s.store.eraseFail ∧
    (dieGet (rowCounted s die) die).eraseRow = (dieGet s die).eraseRow + 1 ∧
    (2 ≤ (dieGet s die).eraseRow → (dieGet (rowCounted s die) die).failed = true) := by
  have hd := fun d => dieGet_diePut_same s die d
  unfold rowCounted
  dsimp only
  split
  · rw [dieGet_dieFail, hd]
    exact ⟨congrArg (·.eraseFail) (dieFail_store _ die), rfl, fun _ => rfl⟩
  · rw [hd]
    exact ⟨rfl, rfl, fun _ => by omega⟩

theorem eraseFailure_eq {s : State} {die : Nat} (hon : storeOn s = true) (hd : dieOn s die = true) :
    eraseFailure s die = rowCounted (eraseRetired s die) die := by
  unfold eraseFailure
  rw [if_neg (by simp [hon, hd])]
  rfl

theorem eraseFailure_runs {s : State} {die : Nat} (hon : storeOn s = true) (hd : dieOn s die = true) :
    (eraseFailure s die).store.eraseFail = s.store.eraseFail + 1 ∧
      (dieGet (eraseFailure s die) die).eraseRow = (dieGet s die).eraseRow + 1 ∧
      (2 ≤ (dieGet s die).eraseRow → (dieGet (eraseFailure s die) die).failed = true) := by
  obtain ⟨h1, h2⟩ := eraseRetired_fails s die
  obtain ⟨h3, h4, h5⟩ := rowCounted_row (eraseRetired s die) die
  rw [eraseFailure_eq hon hd, ← h2]
  exact ⟨h3.trans h1, h4, h5⟩

/-! ## Patrol -/

theorem dieGet_refreshDue (s : State) (die b : Nat) : b ∈ (dieGet (refreshDue s die b) die).refresh ∧
    (∀ c ∈ (dieGet s die).refresh, c ∈ (dieGet (refreshDue s die b) die).refresh) ∧
    (dieGet (refreshDue s die b) die).ppos = (dieGet s die).ppos := by
  unfold refreshDue
  dsimp only
  split
  · next h => exact ⟨by simpa using h, fun _ h => h, rfl⟩
  · rw [dieGet_diePut_same]
    exact ⟨List.mem_append_right _ (List.mem_singleton_self b), fun c hc => List.mem_append_left _ hc, rfl⟩

/-- The store without its dies and the counts a patrolled page moves. -/
def pageRest (t : StoreSt) : StoreSt := { t with dies := [], patrol := 0, passes := 0, hist := [] }

theorem pageRest_refreshDue (s : State) (die b : Nat) : pageRest (refreshDue s die b).store = pageRest s.store := by
  unfold refreshDue
  dsimp only
  split <;> rfl

theorem pageRest_patrolStep (s : State) : pageRest (patrolStep s).store = pageRest s.store := by
  unfold patrolStep
  dsimp only
  split <;> rfl

theorem patrolStep_dies (s : State) : (patrolStep s).store.dies = s.store.dies := by
  unfold patrolStep
  dsimp only
  split <;> rfl

theorem patrolStep_regs (s : State) : (patrolStep s).regs = s.regs := by
  unfold patrolStep
  dsimp only
  split <;> rfl

/-- The map unit and the block of the page a die's patrol stands at. -/
def patrolUnit (s : State) (die : Nat) : Nat := (dieGet s die).ppos / unitPages s
def patrolBlock (s : State) (die : Nat) : Nat := patrolUnit s die / unitsPerBlock s

/-- A die's patrol one page on, a pass after its last. -/
def patrolPos (s : State) (die : Nat) : Nat :=
  if (dieGet s die).ppos + 1 < (dieGet s die).next * unitPages s then (dieGet s die).ppos + 1 else 0

/-- The state in which a patrolled page has been read. -/
def patrolled (s : State) (die : Nat) : State :=
  patrolStep (cnt (bwRx (diePut s die { dieGet s die with ppos := patrolPos s die }) 68
    (pageKib (diePut s die { dieGet s die with ppos := patrolPos s die }) * 1024)) 356)

theorem patrolled_page (s : State) (die : Nat) : pageRest (patrolled s die).store = pageRest s.store ∧
    (dieGet (patrolled s die) die).ppos = patrolPos s die ∧ (patrolled s die).regs = s.regs := by
  unfold patrolled
  have hd : dieGet (diePut s die { dieGet s die with ppos := patrolPos s die }) die =
    { dieGet s die with ppos := patrolPos s die } := dieGet_diePut_same s die _
  have hr : (diePut s die { dieGet s die with ppos := patrolPos s die }).regs = s.regs := rfl
  have hp : pageRest (diePut s die { dieGet s die with ppos := patrolPos s die }).store = pageRest s.store := rfl
  generalize diePut s die { dieGet s die with ppos := patrolPos s die } = u at hd hr hp ⊢
  rw [pageRest_patrolStep, patrolStep_regs, dieGet, patrolStep_dies, cnt_store, cnt_regs, bwRx_store, bwRx_regs, hr, ← dieGet, hd]
  exact ⟨hp, rfl, rfl⟩

/-- The page's histogram and its block's refresh, where its first decoding succeeded or failed. -/
def patrolNoted (s : State) (die corr : Nat) (eccFail : Bool) : State :=
  let u := if eccFail then patrolled s die else histAdd (patrolled s die) corr
  if (!eccFail && decide (regFld u 0xA004 0 7 ≤ corr)) ||
      decide (regFld u 0xA004 8 16 * 1000 ≤ tget 0 (dieGet s die).reads (patrolBlock s die)) then
    refreshDue u die (patrolBlock s die) else u

theorem pageRest_patrolNoted (s : State) (die corr : Nat) (ecc : Bool) :
    pageRest (patrolNoted s die corr ecc).store = pageRest s.store := by
  have h := (patrolled_page s die).1
  have hu : pageRest (if ecc then patrolled s die else histAdd (patrolled s die) corr).store = pageRest s.store := by
    split <;> exact h
  unfold patrolNoted
  dsimp only
  generalize (if ecc then patrolled s die else histAdd (patrolled s die) corr) = u at hu ⊢
  split
  · exact (pageRest_refreshDue _ _ _).trans hu
  · exact hu

/-- A page decoded at once moves the die's patrol on, and marks a worn block (R443, R444). -/
theorem patrolNoted_good (s : State) (die corr : Nat) : (dieGet (patrolNoted s die corr false) die).ppos = patrolPos s die ∧
    (regFld s 0xA004 0 7 ≤ corr → patrolBlock s die ∈ (dieGet (patrolNoted s die corr false) die).refresh) := by
  obtain ⟨-, h2, h3⟩ := patrolled_page s die
  have hu : (dieGet (histAdd (patrolled s die) corr) die).ppos = patrolPos s die := h2
  have hreg : regFld (histAdd (patrolled s die) corr) 0xA004 0 7 = regFld s 0xA004 0 7 := by
    have hfld : ∀ u : State, regFld u 0xA004 0 7 = regFld { State.reset with regs := u.regs } 0xA004 0 7 := fun _ => rfl
    have hr : (histAdd (patrolled s die) corr).regs = s.regs := h3
    rw [hfld, hr, ← hfld]
  unfold patrolNoted
  rw [if_neg (show ¬ (false = true) by simp)]
  dsimp only
  rw [hreg]
  generalize histAdd (patrolled s die) corr = u at hu ⊢
  obtain ⟨hb, -, hp⟩ := dieGet_refreshDue u die (patrolBlock s die)
  split
  · exact ⟨hp.trans hu, fun _ => hb⟩
  · next hno => exact ⟨hu, fun hle => absurd (by simp [hle]) hno⟩

theorem patrolRead_good {s : State} {die : Nat} (corr : Nat) (hw : storeWorks s die = true) :
    patrolRead s die corr false false false = patrolNoted s die corr false := by
  rw [patrolRead, if_neg (by simp [hw])]
  rfl

theorem patrolRead_retry {s : State} {die : Nat} (corr : Nat) (ok : Bool) (hw : storeWorks s die = true) :
    patrolRead s die corr true true ok = refreshDue (storeSet (cnt (patrolNoted s die corr true) 357)
      fun t => { t with retryOk := t.retryOk + 1 }) die (patrolBlock s die) := by
  rw [patrolRead, if_neg (by simp [hw])]
  rfl

theorem patrolRead_rebuild {s : State} {die : Nat} (corr : Nat) (hw : storeWorks s die = true) :
    patrolRead s die corr true false true = cnt (storeSet (cnt (patrolNoted s die corr true) 357)
      fun t => { t with rebuilt := t.rebuilt + 1 }) 358 := by
  rw [patrolRead, if_neg (by simp [hw])]
  rfl

/-- A unit that can no longer be read, counted and marked (R443). -/
def unreadable (s : State) (die unit : Nat) : State :=
  storeSet s fun t => { t with unreadCnt := t.unreadCnt + 1, units := t.units.map fun u =>
    if u.die = die ∧ u.place = unit then { u with unread := true } else u }

theorem patrolRead_unread {s : State} {die : Nat} (corr : Nat) (hw : storeWorks s die = true) :
    (patrolRead s die corr true false false).store =
      (unreadable (cnt (patrolNoted s die corr true) 357) die (patrolUnit s die)).store := by
  rw [patrolRead, if_neg (by simp [hw])]
  dsimp only
  rw [if_neg (by simp), if_neg (by simp), if_neg (by simp), logEvent_store, cnt_store]
  rfl

theorem pageRest_units {a b : StoreSt} (h : pageRest a = pageRest b) : a.units = b.units := congrArg (·.units) h
theorem pageRest_unreadCnt {a b : StoreSt} (h : pageRest a = pageRest b) : a.unreadCnt = b.unreadCnt :=
  congrArg (·.unreadCnt) h
theorem pageRest_retryOk {a b : StoreSt} (h : pageRest a = pageRest b) : a.retryOk = b.retryOk := congrArg (·.retryOk) h
theorem pageRest_rebuilt {a b : StoreSt} (h : pageRest a = pageRest b) : a.rebuilt = b.rebuilt := congrArg (·.rebuilt) h

theorem retried (s : State) (die b : Nat) :
    let t := refreshDue (storeSet s fun t => { t with retryOk := t.retryOk + 1 }) die b
    t.store.units = s.store.units ∧ t.store.retryOk = s.store.retryOk + 1 ∧ b ∈ (dieGet t die).refresh := by
  intro t
  have h := pageRest_refreshDue (storeSet s fun t => { t with retryOk := t.retryOk + 1 }) die b
  have h1 := pageRest_units h
  have h2 := pageRest_retryOk h
  exact ⟨h1, h2, (dieGet_refreshDue _ die b).1⟩

/-- A page decoded on a retry (R443). -/
theorem patrolRead_retried {s : State} {die : Nat} (corr : Nat) (ok : Bool) (hw : storeWorks s die = true) :
    let t := patrolRead s die corr true true ok
    t.store.units = s.store.units ∧ t.store.retryOk = s.store.retryOk + 1 ∧
      patrolBlock s die ∈ (dieGet t die).refresh := by
  intro t
  have hrest := pageRest_patrolNoted s die corr true
  have ht : t = _ := patrolRead_retry corr ok hw
  have hc : (cnt (patrolNoted s die corr true) 357).store = (patrolNoted s die corr true).store := cnt_store _ 357
  rw [ht]
  generalize cnt (patrolNoted s die corr true) 357 = u at hc
  obtain ⟨h1, h2, h3⟩ := retried u die (patrolBlock s die)
  rw [← hc] at hrest
  exact ⟨h1.trans (pageRest_units hrest), h2.trans (congrArg (· + 1) (pageRest_retryOk hrest)), h3⟩

/-- A page rebuilt from its stripe. -/
theorem patrolRead_rebuilt {s : State} {die : Nat} (corr : Nat) (hw : storeWorks s die = true) :
    (patrolRead s die corr true false true).store.units = s.store.units ∧
      (patrolRead s die corr true false true).store.rebuilt = s.store.rebuilt + 1 := by
  have hrest := pageRest_patrolNoted s die corr true
  have hc : (cnt (patrolNoted s die corr true) 357).store = (patrolNoted s die corr true).store := cnt_store _ 357
  rw [← hc] at hrest
  rw [patrolRead_rebuild corr hw, cnt_store]
  have hunits := pageRest_units hrest
  exact ⟨hunits, congrArg (· + 1) (pageRest_rebuilt hrest)⟩

/-- A page nothing can read. -/
theorem patrolRead_lost {s : State} {die : Nat} (corr : Nat) (hw : storeWorks s die = true) :
    (patrolRead s die corr true false false).store.unreadCnt = s.store.unreadCnt + 1 ∧
      (patrolRead s die corr true false false).store.units = s.store.units.map fun v =>
        if v.die = die ∧ v.place = patrolUnit s die then { v with unread := true } else v := by
  have hrest := pageRest_patrolNoted s die corr true
  have hc : (cnt (patrolNoted s die corr true) 357).store = (patrolNoted s die corr true).store := cnt_store _ 357
  rw [← hc] at hrest
  rw [patrolRead_unread corr hw, ← pageRest_units hrest]
  exact ⟨congrArg (· + 1) (pageRest_unreadCnt hrest), rfl⟩

/-! ## Temperature -/

theorem temperatureRead_snoc (s : State) (l : List Int) (x : Int) : temperatureRead s (l ++ [x]) =
    storeSet (temperatureRead s l) fun t => { t with
      hours := lset t.hours (tempBucket x) (lget 0 t.hours (tempBucket x) + 1),
      hotMax := match t.hotMax with | some m => some (max m x) | none => some x } := by
  rw [temperatureRead, List.foldl_append]
  rfl

theorem temperatureRead_units (s : State) (l : List Int) : (temperatureRead s l).store.units = s.store.units :=
  foldl_kept _ (·.store.units) l s fun _ _ _ => rfl

end Sys2Proof.Machine
end

section
open Sys2Proof Sys2Proof.Machine Sys2Proof.Safety

/-- Settles O35: an append and a collection by what a move of units keeps; failures by their retired block and their count;
a patrolled page by the two cases of its first decoding. -/
theorem storeWorks : Obligations.StoreWorks := by
  refine ⟨fun s e l ha hq hon hd => ⟨fun hfit => ⟨_, exec_storeAppend s ha, ?_⟩, fun hno hroom => ⟨_, exec_storeAppend s ha, ?_⟩⟩,
    fun s die v ha hd hv => ⟨_, exec_nandPageProgrammed die s ha, ?_⟩,
    fun s die b ha hw hv hr => ⟨_, exec_garbageCollection die s ha, ?_⟩,
    fun s die ha hon hd => ⟨fun hn => ⟨_, exec_nandProgramFailure die s ha, ?_⟩, ⟨_, exec_nandEraseFailure die s ha, ?_⟩,
      ⟨_, exec_dieTimeout die s ha, ?_⟩⟩,
    fun s die corr ha hw => ⟨_, exec_patrolRead die corr false false false s ha, ?_⟩,
    fun s die corr ok ha hw => ⟨⟨_, exec_patrolRead die corr true true ok s ha, ?_⟩,
      ⟨_, exec_patrolRead die corr true false true s ha, ?_⟩, ⟨_, exec_patrolRead die corr true false false s ha, ?_⟩⟩,
    fun s ha => ⟨⟨_, exec_nandTemperatureRead [] s ha, rfl⟩, fun l x =>
      ⟨_, _, exec_nandTemperatureRead (l ++ [x]) s ha, rfl, exec_nandTemperatureRead l s ha, ?_⟩⟩⟩
  · rw [wmUpdate_store, wmUpdate_recs, storeAppend_fits hq hon hd hfit, appended_store, appended_recs]
    exact ⟨rfl, rfl, rfl, rfl, rfl⟩
  · obtain ⟨-, hn, ho⟩ := unitClose_entries s
    rw [wmUpdate_store, storeAppend_fresh hq hon hd hno hroom, appended_store, hn, ho]
    exact ⟨rfl, rfl, rfl⟩
  · obtain ⟨n, hn⟩ := pageProgrammed_runs hd hv
    rw [hn, wmUpdate_store, wmUpdate_recs, cnt_store, cnt_recs, bwTx_store]
    exact ⟨rfl, rfl, rfl⟩
  · obtain ⟨h1, h2⟩ := collected s die b
    rw [garbageCollect_runs hw hv hr]
    obtain ⟨k1, k2, k3⟩ := erased_of_rest h2
    exact ⟨k1, k2, k3, placeRest_next h1, placeRest_open h1⟩
  · obtain ⟨h1, h2⟩ := programRetired_fails s die (((dieGet s die).next - 1) / unitsPerBlock s)
    obtain ⟨k1, -, k2⟩ := programFailure_runs hon hd hn
    rw [wmUpdate_store, dieGet_wmUpdate]
    exact ⟨k1.trans h1, k2 die _ h2⟩
  · rw [wmUpdate_store, dieGet_wmUpdate]
    exact eraseFailure_runs hon hd
  · rw [dieGet_wmUpdate, Machine.dieTimeout, if_pos hd]
    have hfailed : (dieGet (dieFail s die) die).failed = true := by rw [dieGet_dieFail]
    have hfn : ∀ (t : State) (id : Nat), fnGet (wmUpdate t) id = fnGet t id := fun _ _ => rfl
    rw [hfn]
    exact ⟨hfailed, fnGet_dieFail hd⟩
  · obtain ⟨h1, h2⟩ := patrolNoted_good s die corr
    have hrest := pageRest_patrolNoted s die corr false
    rw [patrolRead_good corr hw, wmUpdate_store, dieGet_wmUpdate]
    exact ⟨pageRest_units hrest, h1, h2, pageRest_unreadCnt hrest⟩
  · rw [wmUpdate_store, dieGet_wmUpdate]
    exact patrolRead_retried corr ok hw
  · rw [wmUpdate_store]
    exact patrolRead_rebuilt corr hw
  · rw [wmUpdate_store]
    exact patrolRead_lost corr hw
  · rw [wmUpdate_store, temperatureRead_snoc]
    refine ⟨rfl, ?_, temperatureRead_units s l⟩
    change (match (temperatureRead s l).store.hotMax with | some m => some (max m x) | none => some x) = _
    cases (temperatureRead s l).store.hotMax <;> rfl
end

section
/-!
# Time messages and rebases (15 R463 to R470)

`timeRest` is the state without its clock and what a count or an event's record changes. A message changes the clock in
turn by its flags, by the exchange it ends, and by the exchange it begins.
-/
namespace Sys2Proof.Machine
open Sys2Proof Sys2Proof.Safety

/-! ## What a message leaves -/

/-- A state without its clock and without what counts and event records change. -/
def timeRest (s : State) : State := { wireRest s with time := State.reset.time }

theorem timeRest_timeSet (s : State) (g : TimeSt → TimeSt) : timeRest (timeSet s g) = timeRest s := rfl

theorem timeRest_of_wireRest {s t : State} (h : wireRest t = wireRest s) : timeRest t = timeRest s := by
  rw [timeRest, timeRest, h]

theorem timeRest_cnt (s : State) (i : Nat) : timeRest (cnt s i) = timeRest s := timeRest_of_wireRest (wireRest_cnt s i)
theorem timeRest_logEvent (c d : Nat) (s : State) : timeRest (logEvent c d s) = timeRest s :=
  timeRest_of_wireRest (wireRest_logEvent c d s)

theorem timeRest_regs {s t : State} (h : timeRest t = timeRest s) : t.regs = s.regs := congrArg (·.regs) h
theorem timeRest_funcs {s t : State} (h : timeRest t = timeRest s) : t.funcs = s.funcs := congrArg (·.funcs) h
theorem timeRest_cq {s t : State} (h : timeRest t = timeRest s) : t.host.cq = s.host.cq := congrArg (·.host.cq) h
theorem timeRest_pins {s t : State} (h : timeRest t = timeRest s) : t.pins = s.pins := congrArg (·.pins) h

theorem timeOnState_of_timeRest {s t : State} (h : timeRest t = timeRest s) : timeOnState t = timeOnState s := by
  rw [timeOnState, timeOnState, fnGet, fnGet, timeRest_funcs h]

/-! ## The flags of a message (R468) -/

/-- The clock after the flags of a message. -/
def utcTime (t : TimeSt) (raw : BitVec 512) : TimeSt :=
  let t := if dByte raw 48 1 % 2 = 1 then { t with utcCur := BitVec.ofNat 16 (dByte raw 50 2), utcSet := true } else t
  if dByte raw 48 1 / 2 % 2 = 1 then
    { t with utcNext := BitVec.ofNat 16 (dByte raw 52 2), leapDt := BitVec.ofNat 64 (dByte raw 56 8), leapPend := true }
  else t

theorem timeUtc_frame (s : State) (raw : BitVec 512) : (timeUtc s raw).time = utcTime s.time raw ∧
    timeRest (timeUtc s raw) = timeRest s ∧ (timeUtc s raw).harn = s.harn := by
  have hset : ∀ (u : State) (g : TimeSt → TimeSt), (timeSet u g).time = g u.time ∧ timeRest (timeSet u g) = timeRest u ∧
      (timeSet u g).harn = u.harn := fun _ _ => ⟨rfl, rfl, rfl⟩
  have hlog : ∀ (u : State) (d : Nat) (c : Bool), (if c then logEvent 0x0903 d u else u).time = u.time ∧
      timeRest (if c then logEvent 0x0903 d u else u) = timeRest u ∧ (if c then logEvent 0x0903 d u else u).harn = u.harn := by
    intro u d c
    cases c
    · exact ⟨rfl, rfl, rfl⟩
    · exact ⟨logEvent_time _ _ _, timeRest_logEvent _ _ _, logEvent_harn _ _ _⟩
  unfold timeUtc utcTime
  dsimp only
  by_cases h1 : dByte raw 48 1 % 2 = 1 <;> by_cases h2 : dByte raw 48 1 / 2 % 2 = 1
  · simp only [if_pos h1, if_pos h2, hset, hlog, and_self]
  · simp only [if_pos h1, if_neg h2, hset, hlog, and_self]
  · simp only [if_neg h1, if_pos h2, hset, and_self]
  · simp only [if_neg h1, if_neg h2, and_self]

/-- The clock's offset to UTC and its pending leap change. -/
def utcOf (t : TimeSt) : Bool × BitVec 16 × Bool × BitVec 16 × BitVec 64 :=
  (t.utcSet, t.utcCur, t.leapPend, t.utcNext, t.leapDt)

/-- What the flags leave of the rest of the clock. -/
theorem utcTime_rest (t : TimeSt) (raw : BitVec 512) : (utcTime t raw).dt = t.dt ∧ (utcTime t raw).rate = t.rate ∧
    (utcTime t raw).f = t.f ∧ (utcTime t raw).offset = t.offset ∧ (utcTime t raw).lastMsg = t.lastMsg ∧
    (utcTime t raw).lastAcc = t.lastAcc ∧ (utcTime t raw).refuseCnt = t.refuseCnt := by
  unfold utcTime
  dsimp only
  split <;> split <;> exact ⟨rfl, rfl, rfl, rfl, rfl, rfl, rfl⟩

/-! ## Exchanges with discipline ON (R463 to R465) -/

/-- What an exchange within the threshold leaves. -/
def slewed (s : State) (tNs : Int) (unc : Nat) (t2 : BitVec 64) : State :=
  timeAccepted (timeSlew (timeSet s fun t => { t with offset := tNs }) tNs t2) unc

/-- What an exchange beyond it leaves. -/
def refused (s : State) (tNs : Int) : State := timeRefuse (timeSet s fun t => { t with offset := tNs }) tNs

theorem timeApply_on {s : State} (hon : timeOnState s = .on) (tNs delta : Int) (unc : Nat) (t2 : BitVec 64) :
    timeApply s tNs delta unc t2 =
      if tNs.natAbs ≤ regFld s 0x5000 0 10 * 1000000 then (slewed s tNs unc t2, 2) else (refused s tNs, 4) := by
  have hon' : (timeOnState (timeSet s fun t => { t with offset := tNs }) == FnSt.starting) = false := by
    rw [timeOnState_of_timeRest (timeRest_timeSet s _), hon]
    rfl
  unfold timeApply
  dsimp only
  rw [hon', if_neg (by simp), if_neg (by simp)]
  rfl

/-- The seconds since the last accepted exchange. -/
def slewSecs (s : State) (t2 : BitVec 64) : Int :=
  match s.time.lastAcc with
  | none => regFld s 0x5000 16 8
  | some a => ((t2.toNat : Int) - a.toNat) / (2 ^ 24 : Nat)

theorem slewed_frame {s : State} (hon : timeOnState s = .on) (tNs : Int) (unc : Nat) (t2 : BitVec 64) :
    timeRest (slewed s tNs unc t2) = timeRest s ∧ (slewed s tNs unc t2).time =
      { s.time with
        offset := tNs, f := (slewRates s.time.f tNs (regFld s 0x5000 16 8) (slewSecs s t2)).1
        rate := (slewRates s.time.f tNs (regFld s 0x5000 16 8) (slewSecs s t2)).2
        lastAcc := some t2, unc := min unc 0xFFFFFFFF, accAt := s.tcxo, holdover := false } := by
  have hacc : ∀ u : State, timeOnState u = .on → timeAccepted u unc =
      cnt (timeSet u fun t => { t with unc := min unc 0xFFFFFFFF, accAt := u.tcxo, holdover := false }) 421 := by
    intro u hu
    have hon' : timeOnState (cnt (timeSet u fun t => { t with unc := min unc 0xFFFFFFFF, accAt := u.tcxo, holdover := false })
        421) = .on := (timeOnState_of_timeRest ((timeRest_cnt _ 421).trans (timeRest_timeSet u _))).trans hu
    unfold timeAccepted
    dsimp only
    rw [hon']
    exact if_neg (by simp)
  have hslew : timeSlew (timeSet s fun t => { t with offset := tNs }) tNs t2 = timeSet s fun t =>
      { t with offset := tNs, f := (slewRates s.time.f tNs (regFld s 0x5000 16 8) (slewSecs s t2)).1,
               rate := (slewRates s.time.f tNs (regFld s 0x5000 16 8) (slewSecs s t2)).2, lastAcc := some t2 } := rfl
  rw [slewed, hslew, hacc (timeSet s _) hon]
  exact ⟨timeRest_cnt _ 421, cnt_time _ 421⟩

theorem refused_frame (s : State) (tNs : Int) : timeRest (refused s tNs) = timeRest s ∧
    (refused s tNs).time = { s.time with offset := tNs, refused := true, refuseCnt := satInc s.time.refuseCnt } := by
  unfold refused timeRefuse
  dsimp only
  rw [timeRest_logEvent, logEvent_time]
  exact ⟨timeRest_cnt _ 422, cnt_time _ 422⟩

/-- The exchange a message ends. -/
def exchanged (s : State) (raw : BitVec 512) : State × Nat × Int :=
  match s.time.lastMsg with
  | some m => if dByte raw 36 8 ≠ 0 ∧ (m.seq.toNat + 1) % 2 ^ 32 = dByte raw 32 4 then
      timeEval s m (dByte raw 36 8) (dByte raw 44 4) else (s, 0, 0)
  | none => (s, 0, 0)

/-- The state after the exchange a message begins, with the completion to come. -/
def msgBegun (s : State) (raw : BitVec 512) (t2 : BitVec 64) : State :=
  timeSet s fun t => { t with ringSrc := false, lastMsg := some ⟨BitVec.ofNat 32 (dByte raw 32 4),
    BitVec.ofNat 64 (dByte raw 24 8), t2, dtOf s, false⟩ }

/-- Twice the offset and the delay of an exchange, in 2^-24 s. -/
def msgHalf (m : TMsg) (t4 : Nat) : Int := ((m.t2.toNat : Int) - m.t1.toNat) + ((m.t3.toNat : Int) - t4)
def msgDelay (m : TMsg) (t4 : Nat) : Int := ((t4 : Int) - m.t1.toNat) - ((m.t3.toNat : Int) - m.t2.toNat)

/-- The offset of an exchange in ns, and as its message answers it in µs. -/
def msgNs (half : Int) : Int := Int.tdiv (half * 1000000000) (2 ^ 25 : Nat)
def msgUs (half : Int) : Int := sat32 (Int.tdiv (msgNs half) 1000)

theorem timeEval_discards {s : State} {m : TMsg} {t4 : Nat} (unc : Nat) (h : m.spoiled = true ∨ msgDelay m t4 < 0) :
    timeEval s m t4 unc = (s, 3, msgUs (msgHalf m t4)) := by
  unfold timeEval
  refine if_pos ?_
  obtain h | h := h
  · simp [h]
  · have : decide (msgDelay m t4 < 0) = true := decide_eq_true h
    rw [msgDelay] at this
    simp only [this, Bool.or_true, Bool.true_or]

theorem timeEval_applies {s : State} {m : TMsg} {t4 : Nat} (unc : Nat) (h1 : m.spoiled = false) (h2 : 0 ≤ msgDelay m t4)
    (h3 : msgDelay m t4 * 1000000 ≤ ((regFld s 0x5004 0 16 * 2 ^ 24 : Nat) : Int)) :
    ∃ delta w, timeEval s m t4 unc = ((timeApply s (msgNs (msgHalf m t4)) delta w m.t2).1,
      (timeApply s (msgNs (msgHalf m t4)) delta w m.t2).2, msgUs (msgHalf m t4)) := by
  have k2 : decide (msgDelay m t4 < 0) = false := decide_eq_false (by omega)
  have k3 : decide (((regFld s 0x5004 0 16 * 2 ^ 24 : Nat) : Int) < msgDelay m t4 * 1000000) = false :=
    decide_eq_false (by omega)
  rw [msgDelay] at k2 k3
  unfold timeEval
  dsimp only
  rw [h1, k2, k3]
  exact ⟨_, _, rfl⟩

/-- With discipline ON the exchange a message ends leaves DT, the offset to UTC and the leap change. -/
theorem exchanged_kept {s : State} (hon : timeOnState s = .on) (raw : BitVec 512) :
    timeRest (exchanged s raw).1 = timeRest s ∧ (exchanged s raw).1.time.dt = s.time.dt ∧
      utcOf (exchanged s raw).1.time = utcOf s.time := by
  have happly : ∀ tNs delta unc t2, timeRest (timeApply s tNs delta unc t2).1 = timeRest s ∧
      (timeApply s tNs delta unc t2).1.time.dt = s.time.dt ∧ utcOf (timeApply s tNs delta unc t2).1.time = utcOf s.time := by
    intro tNs delta unc t2
    rw [timeApply_on hon]
    split
    · obtain ⟨h1, h2⟩ := slewed_frame hon tNs unc t2
      dsimp only
      rw [h1, h2]
      exact ⟨rfl, rfl, rfl⟩
    · obtain ⟨h1, h2⟩ := refused_frame s tNs
      dsimp only
      rw [h1, h2]
      exact ⟨rfl, rfl, rfl⟩
  unfold exchanged
  split
  · split
    · unfold timeEval
      dsimp only
      split
      · exact ⟨rfl, rfl, rfl⟩
      · exact happly _ _ _ _
    · exact ⟨rfl, rfl, rfl⟩
  · exact ⟨rfl, rfl, rfl⟩

/-! ## OP_TIME_MSG -/

/-- The state a message is acted on in: its doorbell's stamp taken. -/
def msgTaken (s : State) (u : Nat) : State := { s with host := { s.host with t2s := tset 0 s.host.t2s u 0 } }

/-- Where the flags have been taken. -/
def msgFlags (s : State) (u : Nat) (f : Flight) : State := timeUtc (msgTaken s u) f.raw

theorem msgFlags_frame (s : State) (u : Nat) (f : Flight) : (msgFlags s u f).time = utcTime s.time f.raw ∧
    timeOnState (msgFlags s u f) = timeOnState s ∧ (msgFlags s u f).host.cq = s.host.cq ∧
    (msgFlags s u f).regs = s.regs ∧ timeMember (msgFlags s u f) = timeMember s := by
  obtain ⟨h1, h2, h3⟩ := timeUtc_frame (msgTaken s u) f.raw
  have k1 : timeOnState (msgFlags s u f) = timeOnState (msgTaken s u) := timeOnState_of_timeRest h2
  have k2 : (msgFlags s u f).host.cq = (msgTaken s u).host.cq := timeRest_cq h2
  have k3 : (msgFlags s u f).regs = (msgTaken s u).regs := timeRest_regs h2
  have k4 : timeMember (msgFlags s u f) = timeMember (msgTaken s u) := by
    rw [timeMember, timeMember, msgFlags, h3, timeRest_pins h2]
  exact ⟨h1, k1, k2, k3, k4⟩

theorem timeMsg_off {s : State} {u : Nat} {f : Flight} (hr : runnable s u 0x68 = some f) (hs : stateShut s u = false)
    (h : (fnGet s 0x0B00).st = .off) : timeMsg s u = reject (msgTaken s u) f stOff (timeResult (msgT2 s u) 0 0) := by
  have h' : timeOnState (msgTaken s u) = .off := h
  rw [timeMsg, withDesc_run s u 0x68 _ f hr hs]
  dsimp only
  rw [← msgTaken, h']

theorem timeMsg_stopping {s : State} {u : Nat} {f : Flight} (hr : runnable s u 0x68 = some f) (hs : stateShut s u = false)
    (h : (fnGet s 0x0B00).st = .stopping) :
    timeMsg s u = reject (msgTaken s u) f stStopping (timeResult (msgT2 s u) 0 0) := by
  have h' : timeOnState (msgTaken s u) = .stopping := h
  rw [timeMsg, withDesc_run s u 0x68 _ f hr hs]
  dsimp only
  rw [← msgTaken, h']

theorem timeMsg_member {s : State} {u : Nat} {f : Flight} (hr : runnable s u 0x68 = some f) (hs : stateShut s u = false)
    (h : (fnGet s 0x0B00).st = .on ∨ (fnGet s 0x0B00).st = .starting) (hm : timeMember s = true) :
    timeMsg s u = complete (msgFlags s u f) f stOk 0 0 (timeResult (msgT2 s u) 5 0) := by
  have hmem : timeMember (msgFlags s u f) = true := (msgFlags_frame s u f).2.2.2.2.trans hm
  have h' : timeOnState (msgTaken s u) = .on ∨ timeOnState (msgTaken s u) = .starting := h
  rw [timeMsg, withDesc_run s u 0x68 _ f hr hs]
  dsimp only
  rw [← msgTaken]
  obtain h' | h' := h' <;> rw [h'] <;> exact if_pos hmem

/-- A message on a part that disciplines itself, with discipline ON: the exchange it ends, then the one it begins. -/
theorem timeMsg_on {s : State} {u : Nat} {f : Flight} (hr : runnable s u 0x68 = some f) (hs : stateShut s u = false)
    (h : (fnGet s 0x0B00).st = .on) (hm : timeMember s = false) : timeMsg s u =
      complete (msgBegun (exchanged (msgFlags s u f) f.raw).1 f.raw (msgT2 s u)) f
        (if (exchanged (msgFlags s u f) f.raw).2.1 = 4 then stStepRefused else stOk) 0 0
        (timeResult (msgT2 s u) (exchanged (msgFlags s u f) f.raw).2.1 (exchanged (msgFlags s u f) f.raw).2.2) := by
  have hmem : ¬ timeMember (msgFlags s u f) = true := by rw [(msgFlags_frame s u f).2.2.2.2, hm]; simp
  have h' : timeOnState (msgTaken s u) = .on := h
  rw [timeMsg, withDesc_run s u 0x68 _ f hr hs]
  dsimp only
  rw [← msgTaken, h']
  exact if_neg hmem

/-- The exchange a message with the next SEQ and a T4 ends. -/
theorem exchanged_eval {s : State} {u : Nat} {f : Flight} {m : TMsg} (hlast : s.time.lastMsg = some m)
    (ht4 : dByte f.raw 36 8 ≠ 0) (hseq : (m.seq.toNat + 1) % 2 ^ 32 = dByte f.raw 32 4) :
    exchanged (msgFlags s u f) f.raw = timeEval (msgFlags s u f) m (dByte f.raw 36 8) (dByte f.raw 44 4) := by
  obtain ⟨htime, -⟩ := msgFlags_frame s u f
  obtain ⟨-, -, -, -, h5, -⟩ := utcTime_rest s.time f.raw
  rw [exchanged, htime, h5, hlast]
  exact if_pos ⟨ht4, hseq⟩

/-- One that its delay allows is applied. -/
theorem exchanged_applies {s : State} {u : Nat} {f : Flight} {m : TMsg} (hon : (fnGet s 0x0B00).st = .on)
    (hlast : s.time.lastMsg = some m) (ht4 : dByte f.raw 36 8 ≠ 0) (hseq : (m.seq.toNat + 1) % 2 ^ 32 = dByte f.raw 32 4)
    (hsp : m.spoiled = false) (hpos : 0 ≤ msgDelay m (dByte f.raw 36 8))
    (hlim : msgDelay m (dByte f.raw 36 8) * 1000000 ≤ ((regFld s 0x5004 0 16 * 2 ^ 24 : Nat) : Int)) :
    ∃ w, exchanged (msgFlags s u f) f.raw =
      if (msgNs (msgHalf m (dByte f.raw 36 8))).natAbs ≤ regFld s 0x5000 0 10 * 1000000 then
        (slewed (msgFlags s u f) (msgNs (msgHalf m (dByte f.raw 36 8))) w m.t2, 2, msgUs (msgHalf m (dByte f.raw 36 8)))
      else (refused (msgFlags s u f) (msgNs (msgHalf m (dByte f.raw 36 8))), 4, msgUs (msgHalf m (dByte f.raw 36 8))) := by
  obtain ⟨-, hst, -, hregs, -⟩ := msgFlags_frame s u f
  have hf : ∀ (v : State) (o b n : Nat), regFld v o b n = regFld { State.reset with regs := v.regs } o b n :=
    fun _ _ _ _ => rfl
  have hreg : ∀ o b n, regFld (msgFlags s u f) o b n = regFld s o b n := fun o b n => by rw [hf, hregs, ← hf]
  obtain ⟨delta, w, he⟩ := timeEval_applies (s := msgFlags s u f) (dByte f.raw 44 4) hsp hpos (by rw [hreg]; exact hlim)
  refine ⟨w, ?_⟩
  rw [exchanged_eval hlast ht4 hseq, he, timeApply_on (hst.trans hon), hreg]
  split <;> rfl

/-- The completion of a message with discipline ON, over the state `exchanged` leaves. -/
theorem exec_timeMsg_on {s : State} {u : Nat} {f : Flight} (hrun : Runs s u 0x68 f) (h : (fnGet s 0x0B00).st = .on)
    (hm : timeMember s = false) {v : State} {o : Nat} {us : Int} (he : exchanged (msgFlags s u f) f.raw = (v, o, us)) :
    ∃ t, exec (.opTimeMsg u) s = .next t ∧ t.time = (msgBegun v f.raw (msgT2 s u)).time ∧
      Completed s t f (if o = 4 then stStepRefused else stOk) 0 0 (timeResult (msgT2 s u) o us) := by
  obtain ⟨ha, hr, hs, hd⟩ := hrun
  obtain ⟨-, hon, hcq, -, -⟩ := msgFlags_frame s u f
  have hv := (exchanged_kept (hon.trans h) f.raw).1
  have hrow := timeMsg_on hr hs h hm
  rw [he] at hv hrow
  have hvcq : (msgBegun v f.raw (msgT2 s u)).host.cq = s.host.cq := (timeRest_cq hv).trans hcq
  generalize msgBegun v f.raw (msgT2 s u) = w at hrow hvcq ⊢
  refine ⟨_, exec_opTimeMsg u s ha, ?_⟩
  rw [hrow]
  exact ⟨complete_time .., completed_of s w f _ 0 0 _ hd (by rw [cqGet, cqGet, hvcq])⟩

theorem utcTime_flags (t : TimeSt) (raw : BitVec 512) :
    (dByte raw 48 1 % 2 = 1 → (utcTime t raw).utcSet = true ∧ (utcTime t raw).utcCur = BitVec.ofNat 16 (dByte raw 50 2)) ∧
    (dByte raw 48 1 % 2 = 0 → (utcTime t raw).utcSet = t.utcSet ∧ (utcTime t raw).utcCur = t.utcCur) ∧
    (dByte raw 48 1 / 2 % 2 = 1 → (utcTime t raw).leapPend = true ∧
      (utcTime t raw).utcNext = BitVec.ofNat 16 (dByte raw 52 2) ∧
      (utcTime t raw).leapDt = BitVec.ofNat 64 (dByte raw 56 8)) ∧
    (dByte raw 48 1 / 2 % 2 = 0 → (utcTime t raw).leapPend = t.leapPend ∧ (utcTime t raw).utcNext = t.utcNext) := by
  unfold utcTime
  dsimp only
  by_cases h1 : dByte raw 48 1 % 2 = 1 <;> by_cases h2 : dByte raw 48 1 / 2 % 2 = 1
  · simp only [if_pos h1, if_pos h2]
    exact ⟨fun _ => ⟨trivial, trivial⟩, fun _ => by omega, fun _ => ⟨trivial, trivial, trivial⟩, fun _ => by omega⟩
  · simp only [if_pos h1, if_neg h2]
    exact ⟨fun _ => ⟨trivial, trivial⟩, fun _ => by omega, fun h => absurd h h2, fun _ => ⟨trivial, trivial⟩⟩
  · simp only [if_neg h1, if_pos h2]
    exact ⟨fun h => absurd h h1, fun _ => ⟨trivial, trivial⟩, fun _ => ⟨trivial, trivial, trivial⟩, fun _ => by omega⟩
  · simp only [if_neg h1, if_neg h2]
    exact ⟨fun h => absurd h h1, fun _ => ⟨trivial, trivial⟩, fun h => absurd h h2, fun _ => ⟨trivial, trivial⟩⟩

/-- With discipline ON the flags of any message are taken. -/
theorem timeMsg_utc {s : State} {u : Nat} {f : Flight} (hrun : Runs s u 0x68 f) (h : (fnGet s 0x0B00).st = .on) :
    ∃ t, exec (.opTimeMsg u) s = .next t ∧ utcOf t.time = utcOf (utcTime s.time f.raw) := by
  obtain ⟨htime, hon, -, -, -⟩ := msgFlags_frame s u f
  cases hm : timeMember s with
  | true =>
    obtain ⟨ha, hr, hs, hd⟩ := hrun
    refine ⟨_, exec_opTimeMsg u s ha, ?_⟩
    rw [timeMsg_member hr hs (.inl h) hm, wmUpdate_time, complete_time, htime]
  | false =>
    obtain ⟨-, -, hk⟩ := exchanged_kept (hon.trans h) f.raw
    obtain ⟨t, hrow, ht, -⟩ := exec_timeMsg_on hrun h hm rfl
    refine ⟨t, hrow, ?_⟩
    rw [← htime, ← hk, ht]
    rfl

/-! ## OP_TIME_REBASE (R469, R470) -/

theorem batchClose_kept (s : State) (c : Nat) : (batchClose s c).time = s.time ∧ (batchClose s c).air = s.air ∧
    (batchClose s c).host.cq = s.host.cq ∧ (batchClose s c).sealU.batch = none := by
  cases hb : s.sealU.batch with
  | none =>
    rw [batchClose, hb]
    exact ⟨rfl, rfl, rfl, hb⟩
  | some b =>
    rw [batchClose_eq hb, cnt_time, cnt_air, cnt_host_cq, cnt_sealU]
    exact ⟨rfl, rfl, rfl, rfl⟩

/-- The clock moved, and the battery-backed counter with it. -/
def jumped (t : TimeSt) (delta : Int) : TimeSt :=
  bbcWrite { t with dt := BitVec.ofNat 96 ((t.dt.toNat : Int) + delta).toNat, lastAcc := none }

/-- A state whose clock has moved, SF_OFFSET along with it. -/
def clockMoved (s : State) (delta : Int) : State :=
  let t := { s with time := jumped s.time delta }
  { t with air := { t.air with sfOffset := t.air.sfOffset + (dtOf t - dtOf s) } }

theorem dtJump_frame (s : State) (delta : Int) : (dtJump s delta).time = jumped s.time delta ∧
    (dtJump s delta).sealU.batch = none ∧ (dtJump s delta).host.cq = s.host.cq ∧
    (dtJump s delta).air.sfOffset = s.air.sfOffset + (dtOf (dtJump s delta) - dtOf s) := by
  obtain ⟨h1, h2, h3, h4⟩ := batchClose_kept s 1
  have hpos : ∀ (u : State) (c : Prop) [Decidable c] (x : BitVec 64),
      let v := if c then { u with bill := { u.bill with pos := x, posStep := 9 } } else u
      v.time = u.time ∧ v.sealU = u.sealU ∧ v.host.cq = u.host.cq ∧ v.air = u.air := fun u c _ x => by
    dsimp only
    split <;> exact ⟨rfl, rfl, rfl, rfl⟩
  have hjump : dtJump s delta = logEvent 0x0902 ((dtOf (batchClose s 1)).toNat +
      2 ^ 64 * signedBits 32 (Int.tdiv (delta * 1000) (2 ^ 56 : Nat)))
      (let u := clockMoved (batchClose s 1) delta
       if (dtOf u).toNat < u.bill.pos.toNat then { u with bill := { u.bill with pos := dtOf u, posStep := 9 } } else u) := rfl
  have hdt : ∀ {u v : State}, u.time = v.time → dtOf u = dtOf v := fun h => by rw [dtOf, dtOf, h]
  generalize hb : batchClose s 1 = b at h1 h2 h3 h4 hjump
  obtain ⟨k1, k2, k3, k4⟩ := hpos (clockMoved b delta) ((dtOf (clockMoved b delta)).toNat < (clockMoved b delta).bill.pos.toNat)
    (dtOf (clockMoved b delta))
  have htime : (dtJump s delta).time = (clockMoved b delta).time := by rw [hjump, logEvent_time]; exact k1
  refine ⟨htime.trans (congrArg (jumped · delta) h1), ?_, ?_, ?_⟩
  · rw [hjump, logEvent_sealU]
    exact (congrArg SealSt.batch k2).trans h4
  · rw [hjump, logEvent_host_cq]
    exact k3.trans h3
  · rw [hdt htime, ← hdt h1, ← h2, hjump, logEvent_air]
    exact congrArg AirSt.sfOffset k4

theorem newNonce_frame (s : State) : (∃ n, (newNonce s).time = { s.time with nonce := n }) ∧
    (newNonce s).sealU = s.sealU ∧ (newNonce s).host.cq = s.host.cq ∧ (newNonce s).air = s.air := by
  have h : keyRest (takeFree (drbgUse s)).2 = keyRest s := (keyRest_takeFree _).trans (keyRest_drbgUse s)
  have h1 : (takeFree (drbgUse s)).2.time = s.time := keyRest_time h
  have h2 : (takeFree (drbgUse s)).2.sealU = s.sealU := congrArg (·.sealU) h
  have h3 : (takeFree (drbgUse s)).2.host.cq = s.host.cq := keyRest_cq h
  have h4 : (takeFree (drbgUse s)).2.air = s.air := congrArg (·.air) h
  refine ⟨⟨BitVec.ofNat 32 (Config.drbg (takeFree (drbgUse s)).1).toNat, ?_⟩, h2, h3, h4⟩
  rw [← h1]
  rfl

theorem setProgress_frame (s : State) (f : Flight) (step units : Nat) : (setProgress s f step units).time = s.time ∧
    (setProgress s f step units).air = s.air ∧ (setProgress s f step units).host.cq = s.host.cq := by
  simp [setProgress]

/-- The state in which a rebase has moved DT, before its fresh nonce. -/
def rebased (s : State) (f : Flight) : State :=
  timeSet (dtJump (setProgress (timeSet s fun t =>
    { t with pendReb := some (signed64 (dByte f.raw 32 8), s.time.rebaseCnt + 1) }) f 2 0)
      (nsUnits (signed64 (dByte f.raw 32 8))))
    fun t => { t with rebaseCnt := s.time.rebaseCnt + 1, pendReb := none,
                      lastMsg := t.lastMsg.map fun m => { m with spoiled := true } }

theorem rebaseDo_eq (s : State) (f : Flight) : rebaseDo s f = completeOk (newNonce (rebased s f)) { f with step := 2 } 3 0 :=
  rfl

theorem rebased_frame (s : State) (f : Flight) :
    (rebased s f).time.dt = BitVec.ofNat 96 ((s.time.dt.toNat : Int) + nsUnits (signed64 (dByte f.raw 32 8))).toNat ∧
    (rebased s f).time.rebaseCnt = s.time.rebaseCnt + 1 ∧ (rebased s f).time.pendReb = none ∧
    (rebased s f).sealU.batch = none ∧ (rebased s f).time.rate = s.time.rate ∧ (rebased s f).host.cq = s.host.cq ∧
    (rebased s f).air.sfOffset = s.air.sfOffset + (dtOf (rebased s f) - dtOf s) := by
  unfold rebased
  generalize nsUnits (signed64 (dByte f.raw 32 8)) = delta
  generalize hp : (timeSet s fun t => { t with pendReb := some (signed64 (dByte f.raw 32 8), s.time.rebaseCnt + 1) }) = p
  have p1 : p.time.dt = s.time.dt ∧ p.time.rate = s.time.rate ∧ p.air = s.air ∧ p.host.cq = s.host.cq := by
    rw [← hp]
    exact ⟨rfl, rfl, rfl, rfl⟩
  obtain ⟨q1, q2, q3⟩ := setProgress_frame p f 2 0
  generalize setProgress p f 2 0 = q at q1 q2 q3 ⊢
  obtain ⟨j1, j2, j3, j4⟩ := dtJump_frame q delta
  have hset : ∀ (u : State) (c : BitVec 8) (o : Option (Int × BitVec 8)) (g : TimeSt → Option TMsg),
      let v := timeSet u fun t => { t with rebaseCnt := c, pendReb := o, lastMsg := g t }
      v.time.dt = u.time.dt ∧ v.time.rebaseCnt = c ∧ v.time.pendReb = o ∧ v.sealU = u.sealU ∧ v.time.rate = u.time.rate ∧
        v.host = u.host ∧ v.air = u.air ∧ dtOf v = dtOf u := fun _ _ _ _ => ⟨rfl, rfl, rfl, rfl, rfl, rfl, rfl, rfl⟩
  obtain ⟨v1, v2, v3, v4, v5, v6, v7, v8⟩ := hset (dtJump q delta) (s.time.rebaseCnt + 1) none
    (fun t => t.lastMsg.map fun m => { m with spoiled := true })
  have hq : dtOf q = dtOf s := by rw [dtOf, dtOf, q1, p1.1]
  rw [v1, v2, v3, v4, v5, v6, v7, v8, j1, j2, j3, j4, q3, q2, hq, p1.2.2.1, p1.2.2.2]
  refine ⟨?_, rfl, rfl, rfl, ?_, rfl, rfl⟩
  · rw [jumped, q1, ← p1.1]
    rfl
  · rw [jumped, q1, ← p1.2.1]
    rfl

/-- OP_TIME_REBASE done (R469): what the state after its completion holds. -/
theorem rebaseDo_done (s : State) (f : Flight) (hd : f.discard = false) :
    let t := wmUpdate (rebaseDo s f)
    Completed s t f 0 3 0 0 ∧
      t.time.dt = BitVec.ofNat 96 ((s.time.dt.toNat : Int) + nsUnits (signed64 (dByte f.raw 32 8))).toNat ∧
      t.time.rebaseCnt = s.time.rebaseCnt + 1 ∧ t.time.pendReb = none ∧ t.sealU.batch = none ∧
      t.time.rate = s.time.rate ∧ t.air.sfOffset = s.air.sfOffset + (dtOf t - dtOf s) := by
  obtain ⟨r1, r2, r3, r4, r5, r6, r7⟩ := rebased_frame s f
  obtain ⟨⟨n, n1⟩, n2, n3, n4⟩ := newNonce_frame (rebased s f)
  rw [rebaseDo_eq]
  generalize rebased s f = r at r1 r2 r3 r4 r5 r6 r7 n1 n2 n3 n4 ⊢
  generalize newNonce r = v at n1 n2 n3 n4 ⊢
  have hdt : dtOf v = dtOf r := by rw [dtOf, dtOf, n1]
  have hc : Completed s (wmUpdate (complete v { f with step := 2 } stOk 3 0 0)) { f with step := 2 } stOk 3 0 0 :=
    completed_of s v { f with step := 2 } stOk 3 0 0 hd (by rw [cqGet, cqGet, n3, r6])
  have hw : ∀ u : State, (wmUpdate u).time = u.time ∧ (wmUpdate u).sealU = u.sealU ∧ (wmUpdate u).air = u.air ∧
      dtOf (wmUpdate u) = dtOf u := fun _ => ⟨rfl, rfl, rfl, rfl⟩
  obtain ⟨w1, w2, w3, w4⟩ := hw (complete v { f with step := 2 } stOk 3 0 0)
  have hcomp : dtOf (complete v { f with step := 2 } stOk 3 0 0) = dtOf v := by rw [dtOf, dtOf, complete_time]
  intro t
  have ht : t = wmUpdate (complete v { f with step := 2 } stOk 3 0 0) := rfl
  rw [ht]
  refine ⟨hc, ?_⟩
  rw [w1, w2, w3, w4, hcomp, hdt, complete_time, complete_sealU, complete_air, n1, n2, n4, r4, r7]
  exact ⟨r1, r2, r3, rfl, r5, rfl⟩

end Sys2Proof.Machine
end

section
open Sys2Proof Sys2Proof.Machine Sys2Proof.Safety

/-- Settles O36: a message by its flags and the exchange it ends; a rebase by the checks of its token, then `rebased`. -/
theorem timeMessagesAndRebase : Obligations.TimeMessagesAndRebase := by
  refine ⟨⟨fun s u f hrun => ⟨fun h => ?off, fun h => ?stopping, fun h hm => ?member, fun h => ?utc⟩,
    fun s u f hrun hon hm => ⟨fun hnone => ?first, fun m hlast half d ht4 hseq hhalf hdel => ⟨fun hbad => ?discards,
      fun hsp hpos hlim => ⟨fun hthr => ?slews, fun hthr => ?refuses⟩⟩⟩⟩, fun s u f hrun => ?rebase⟩
  case off =>
    obtain ⟨ha, hr, hs, hd⟩ := hrun
    refine ⟨_, exec_opTimeMsg u s ha, ?_⟩
    rw [timeMsg_off hr hs h]
    exact ⟨complete_time .., completed_of s (msgTaken s u) f stOff 0 0 _ hd rfl⟩
  case stopping =>
    obtain ⟨ha, hr, hs, hd⟩ := hrun
    refine ⟨_, exec_opTimeMsg u s ha, ?_⟩
    rw [timeMsg_stopping hr hs h]
    exact ⟨complete_time .., completed_of s (msgTaken s u) f stStopping 0 0 _ hd rfl⟩
  case member =>
    obtain ⟨ha, hr, hs, hd⟩ := hrun
    obtain ⟨htime, -, hcq, -, -⟩ := msgFlags_frame s u f
    obtain ⟨h1, h2, -⟩ := utcTime_rest s.time f.raw
    refine ⟨_, exec_opTimeMsg u s ha, ?_⟩
    rw [timeMsg_member hr hs h hm, wmUpdate_time, complete_time, htime]
    exact ⟨h1, h2, completed_of s _ f stOk 0 0 _ hd (by rw [cqGet, cqGet, hcq])⟩
  case utc =>
    obtain ⟨t, hrow, ht⟩ := timeMsg_utc hrun h
    simp only [utcOf, Prod.mk.injEq] at ht
    obtain ⟨h1, h2, h3, h4, h5⟩ := ht
    refine ⟨t, hrow, ?_⟩
    rw [h1, h2, h3, h4, h5]
    exact utcTime_flags s.time f.raw
  case first =>
    obtain ⟨htime, -⟩ := msgFlags_frame s u f
    obtain ⟨h1, h2, -, -, h5, -⟩ := utcTime_rest s.time f.raw
    have he : exchanged (msgFlags s u f) f.raw = (msgFlags s u f, 0, 0) := by
      rw [exchanged, htime, h5, hnone]
    obtain ⟨t, hrow, ht, hc⟩ := exec_timeMsg_on hrun hon hm he
    have hdt : dtOf (msgFlags s u f) = dtOf s := by rw [dtOf, dtOf, htime, h1]
    refine ⟨t, hrow, hc, ?_⟩
    rw [ht, ← hdt, ← h1, ← h2, ← htime]
    exact ⟨rfl, rfl, rfl⟩
  case discards =>
    subst hhalf hdel
    obtain ⟨htime, -⟩ := msgFlags_frame s u f
    obtain ⟨h1, h2, -, h4, -⟩ := utcTime_rest s.time f.raw
    obtain ⟨t, hrow, ht, hc⟩ := exec_timeMsg_on hrun hon hm
      ((exchanged_eval hlast ht4 hseq).trans (timeEval_discards _ hbad))
    refine ⟨t, hrow, ?_⟩
    rw [ht, ← h1, ← h2, ← h4, ← htime]
    exact ⟨rfl, rfl, rfl, hc⟩
  case slews =>
    subst hhalf hdel
    obtain ⟨htime, hst, -, hregs, -⟩ := msgFlags_frame s u f
    obtain ⟨h1, -, h3, -, -, h6, -⟩ := utcTime_rest s.time f.raw
    obtain ⟨w, he⟩ := exchanged_applies hon hlast ht4 hseq hsp hpos hlim
    obtain ⟨t, hrow, ht, hc⟩ := exec_timeMsg_on hrun hon hm (he.trans (if_pos hthr))
    obtain ⟨-, hslew⟩ := slewed_frame (s := msgFlags s u f) (hst.trans hon) _ w m.t2
    have hreg : regFld (msgFlags s u f) 0x5000 16 8 = regFld s 0x5000 16 8 := by
      have hf : ∀ v : State, regFld v 0x5000 16 8 = regFld { State.reset with regs := v.regs } 0x5000 16 8 := fun _ => rfl
      rw [hf, hregs, ← hf]
    refine ⟨t, slewSecs (msgFlags s u f) m.t2, hrow, ?_⟩
    rw [ht, msgBegun, timeSet, hslew, hreg, htime, h1, h3]
    refine ⟨rfl, rfl, rfl, fun hnone => ?_, rfl, rfl, hc⟩
    rw [slewSecs, htime, h6, hnone, hreg]
  case refuses =>
    subst hhalf hdel
    obtain ⟨htime, -⟩ := msgFlags_frame s u f
    obtain ⟨h1, h2, -, -, -, -, h7⟩ := utcTime_rest s.time f.raw
    obtain ⟨w, he⟩ := exchanged_applies hon hlast ht4 hseq hsp hpos hlim
    obtain ⟨t, hrow, ht, hc⟩ := exec_timeMsg_on hrun hon hm (he.trans (if_neg (Nat.not_le.mpr hthr)))
    obtain ⟨-, href⟩ := refused_frame (msgFlags s u f) (msgNs (msgHalf m (dByte f.raw 36 8)))
    refine ⟨t, hrow, ?_⟩
    rw [ht, msgBegun, timeSet, href, htime, h1, h2, h7]
    exact ⟨rfl, rfl, rfl, rfl, hc⟩
  case rebase =>
    obtain ⟨ha, hr, hs, hd⟩ := hrun
    have hrow := exec_opTimeRebase u s ha
    rw [timeRebase, withDesc_run s u 0x69 _ f hr hs] at hrow
    dsimp only at hrow
    have hrest : ∀ (st p n : Nat) (r : BitVec 128), rest (wmUpdate (complete s f st p n r)) = rest s := fun _ _ _ _ =>
      (rest_wmUpdate _).trans (rest_complete ..)
    refine ⟨fun hm => ?_, fun hm hk => ?_, fun hm hk => ⟨fun hu => ?_, fun hu => ?_, fun k g hu =>
      ⟨fun hb ho => ?_, fun hb ho => ?_, fun o hb => ?_, fun hn => if_pos hn⟩⟩⟩
    · rw [hrow, if_pos hm]
      exact ⟨_, rfl, completed_self s f stBad 0 0 _ hd, hrest ..⟩
    all_goals
      rw [if_neg (by simp [hm])] at hrow
    · rw [hrow, if_pos (by rw [← Bool.not_and, hk]; rfl)]
      exact ⟨_, rfl, completed_self s f stBad 0 0 _ hd, hrest ..⟩
    all_goals
      have hk' : ¬ ((!(hIsDir (dByte f.raw 24 4) && hIsSession (dByte f.raw 24 4)) ||
        !rebaseUsage s (dByte f.raw 24 4)) = true) := by rw [← Bool.not_and, hk]; simp
      rw [if_neg hk', hu] at hrow
    · exact ⟨_, hrow, completed_self s f stNotVerified 0 0 _ hd, hrest ..⟩
    · exact ⟨_, hrow, completed_self s f stRevoked 0 0 _ hd, hrest ..⟩
    all_goals
      dsimp only at hrow
      rw [hb] at hrow
    · rw [hrow, if_pos ho]
      exact ⟨_, rfl, rebaseDo_done s f hd⟩
    · rw [hrow, if_neg (by simp [ho])]
      exact ⟨_, rfl, rfl, rfl⟩
    · exact ⟨_, hrow, completed_self s f stBad 0 0 _ hd, hrest ..⟩
end

section
/-!
# Functions and channels under key work, and frames on their way out (10 R325, 12 R373)

Key work reaches functions only by a pipeline's fault, so it leaves every function below the pipelines: `lowFns`. A frame
sent stands in its channel's queue as it was formed, but for its credit and its protection.
-/
namespace Sys2Proof.Machine
open Sys2Proof Sys2Proof.Safety

/-! ## Functions below the pipelines -/

/-- The functions below the cipher pipelines: the host's groups and the channels. -/
def lowFns (s : State) : Nat → Fn := fun id => if id < 0x300 then fnGet s id else Fn.idle

theorem lowFns_of_funcs {s t : State} (h : t.funcs = s.funcs) : lowFns t = lowFns s := by
  funext id
  rw [lowFns, lowFns, fnGet, fnGet, h]

theorem fnGet_of_lowFns {s t : State} (h : lowFns t = lowFns s) {id : Nat} (hid : id < 0x300) : fnGet t id = fnGet s id := by
  have hi := congrFun h id
  rw [lowFns, lowFns, if_pos hid, if_pos hid] at hi
  exact hi

theorem lowFns_faultDisable (s : State) (p : Nat) : lowFns (faultDisable s (0x300 + p)) = lowFns s := by
  rw [faultDisable, lowFns_of_funcs (logEvent_funcs _ _ _)]
  split
  · funext id
    rw [lowFns, lowFns]
    split
    · next h =>
      have hne : id ≠ 0x300 + p := by omega
      rw [fnGet, fnPut, tget_tset, if_neg hne]
      rfl
    · rfl
  · rfl

theorem lowFns_pipeFault (s : State) (p : Nat) : lowFns (pipeFault s p) = lowFns s := by
  rw [pipeFault, lowFns_faultDisable, lowFns_of_funcs (cnt_funcs _ _)]
  rfl

theorem lowFns_drbgUse (s : State) : lowFns (drbgUse s) = lowFns s := by
  have hj : ∀ u : State, (drbgJudge u).funcs = u.funcs := fun u => by unfold drbgJudge; split <;> rfl
  rw [drbgUse]
  exact lowFns_of_funcs ((hj _).trans (cnt_funcs _ _))

theorem lowFns_maskDraw {s t : State} {p n : Nat} (h : maskDraw s p n = some t) : lowFns t = lowFns s := by
  unfold maskDraw at h
  dsimp only at h
  split at h
  · cases h; rfl
  · split at h
    · cases h
      exact lowFns_drbgUse s
    · cases h

theorem lowFns_blocksPass {s t : State} {p b : Nat} (h : blocksPass s p b = some t) : lowFns t = lowFns s := by
  unfold blocksPass at h
  split at h
  · cases h
  · cases hm : maskDraw s p (b - pool s p) <;> simp only [hm, Option.map_none, Option.map_some, Option.some.injEq] at h
    · cases h
    · subst h
      rw [lowFns_of_funcs (cntAdd_funcs ..), ← lowFns_maskDraw hm]
      rfl

theorem lowFns_pipeRun (pick : State → Option Nat) (k : Shares 256) (b n : Nat) (s : State) :
    lowFns (pipeRun pick k b n s).1 = lowFns s := by
  induction n generalizing s with
  | zero => rfl
  | succ n ih =>
    simp only [pipeRun]
    cases pick s with
    | none => rfl
    | some p =>
      dsimp only
      cases hb : blocksPass s p b with
      | none => exact lowFns_of_funcs (cntAdd_funcs ..)
      | some t =>
        dsimp only
        split
        · rw [ih, lowFns_pipeFault, ← lowFns_blocksPass hb]
          rfl
        · rw [← lowFns_blocksPass hb]
          rfl

theorem lowFns_slotAlloc {s : State} {p : Nat × State} (h : slotAlloc s = some p) : lowFns p.2 = lowFns s := by
  unfold slotAlloc at h
  dsimp only at h
  split at h
  · cases h; rfl
  · cases hv : victim s.keys.slots <;> simp [hv] at h
    subst h; rfl

theorem lowFns_slotLoad (s : State) (i h : Nat) (b : Blob) (p q : Bool) : lowFns (slotLoad s i h b p q) = lowFns s := by
  have hf : (slotLoad s i h b p q).funcs = s.funcs := by
    unfold slotLoad
    dsimp only
    exact cnt_funcs s _
  exact lowFns_of_funcs hf

theorem lowFns_blobLoad {s t : State} {h : Nat} {b : Blob} {kek : BitVec 256} {g pg : BitVec 8} {p : Bool}
    (e : blobLoad s h b kek g pg p = some t) : lowFns t = lowFns s := by
  have hw : lowFns (wrapRun s kek).1 = lowFns s := lowFns_pipeRun ..
  unfold blobLoad at e
  split at e
  · rename_i u _ hr
    rw [hr] at hw
    split at e
    · cases e
      exact (lowFns_of_funcs (logEvent_funcs ..)).trans hw
    · cases ha : slotAlloc u <;> simp only [ha, Option.map_none, Option.map_some, Option.some.injEq] at e
      · cases e
      · subst e
        rw [lowFns_slotLoad, lowFns_slotAlloc ha]
        exact hw
  · cases e

theorem lowFns_ensureDir {s t : State} {h : Nat} {p : Bool} (e : ensureDir s h p = some t) : lowFns t = lowFns s := by
  unfold ensureDir at e
  dsimp only at e
  split at e
  · cases e; rfl
  · split at e
    · cases e; rfl
    · exact lowFns_blobLoad e
    · cases e; rfl

/-- Loading an endpoint's key leaves the functions below the pipelines. -/
theorem lowFns_ensureEp {s t : State} {eid : Nat} {b : Option Blob} {p : Bool} (e : ensureEp s eid b p = some t) :
    lowFns t = lowFns s := by
  unfold ensureEp at e
  split at e
  · cases e; rfl
  · dsimp only at e
    split at e
    · cases e; rfl
    · split at e
      · rename_i hu _
        rw [lowFns_blobLoad e, lowFns_ensureDir hu]
      · rename_i hu _
        cases e
        exact lowFns_ensureDir hu
      · cases e

theorem outSlot_frame {s t : State} {eid : Nat} {tc0 : Bool} (h : outSlot s eid tc0 = some t) :
    keyRest t = keyRest s ∧ lowFns t = lowFns s := by
  unfold outSlot at h
  split at h
  · exact ⟨keyRest_ensureEp h, lowFns_ensureEp h⟩
  · cases h
    exact ⟨rfl, rfl⟩

/-! ## Channels -/

theorem chanOf_congr {s t : State} {eid : Nat} (hpos : t.harn.pos = s.harn.pos) (hregs : t.regs = s.regs)
    (hat : (recGet t eid).attach = (recGet s eid).attach) : chanOf t eid = chanOf s eid := by
  have hc : ∀ u : State, chanOf u eid = (if eidHome eid = u.harn.pos then fld (recGet u eid).attach 0 6
      else if wbit (regGet { State.reset with regs := u.regs } 0x8020) (4 * (fld (recGet u eid).attach 0 6 / 16) + 3) then
        16 * regFld { State.reset with regs := u.regs } 0x8020 (4 * (fld (recGet u eid).attach 0 6 / 16)) 2 +
          fld (recGet u eid).attach 0 6 % 16
      else 64) := fun _ => rfl
  rw [hc, hc, hpos, hregs, hat]

theorem chanOf_le (s : State) (eid : Nat) : chanOf s eid ≤ 64 := by
  unfold chanOf
  dsimp only
  have h1 : epChan (tget EpRec.free s.recs.tab eid) < 64 := fld_lt _ 0 6
  have h2 : regFld s 0x8020 (4 * (epChan (tget EpRec.free s.recs.tab eid) / 16)) 2 < 4 := fld_lt _ _ 2
  split
  · omega
  · split
    · omega
    · exact Nat.le_refl _

/-- A channel refuses frames of a class by its function, the plan, and its synchronisation. -/
theorem chRefuse_congr {s t : State} {eid : Nat} (tc : Nat) (hch : chanOf t eid = chanOf s eid) (hregs : t.regs = s.regs)
    (hair : t.air = s.air) (hfn : lowFns t = lowFns s) : chRefuse t eid tc = chRefuse s eid tc := by
  have hon : chOn t (chanOf s eid) = chOn s (chanOf s eid) := by
    have hle := chanOf_le s eid
    rw [chOn, chOn, chFn, chFn, fnGet_of_lowFns hfn (by omega)]
  have hun : ∀ u : State, chUnsynced u (chanOf s eid) tc =
      chUnsynced { State.reset with regs := u.regs, air := u.air } (chanOf s eid) tc := fun _ => rfl
  rw [chRefuse, chRefuse, chUp, chUp, hch, hon, hun t, hun s, hregs, hair]

/-! ## Frames sent -/

theorem mem_txCredit {f : TxF} (tc0 : Bool) (l : List TxF) (a o : Nat) (h : f ∈ l) :
    ∃ b, { f with queued := b } ∈ txCredit tc0 l a o := by
  induction l generalizing a o with
  | nil => cases h
  | cons x l ih =>
    have hself : f = x → ∃ b, { f with queued := b } = x := fun e => ⟨x.queued, by rw [e]⟩
    rw [txCredit]
    split
    · obtain h | h := List.mem_cons.mp h
      · exact ⟨x.queued, by rw [h]; exact List.mem_cons_self⟩
      · obtain ⟨b, hb⟩ := ih a o h
        exact ⟨b, List.mem_cons_of_mem _ hb⟩
    · split
      · obtain h | h := List.mem_cons.mp h
        · exact ⟨true, by rw [h]; exact List.mem_cons_self⟩
        · obtain ⟨b, hb⟩ := ih _ _ h
          exact ⟨b, List.mem_cons_of_mem _ hb⟩
      · exact ⟨f.queued, h⟩

/-- A frame of a transmit queue stays when others take credits. -/
theorem mem_txAdmit {f : TxF} {l : List TxF} (h : f ∈ l) : ∃ b, { f with queued := b } ∈ txAdmit l := by
  obtain ⟨b, hb⟩ := mem_txCredit true l (txUnits l) 0 h
  obtain ⟨c, hc⟩ := mem_txCredit false (txCredit true l (txUnits l) 0) (txUnits (txCredit true l (txUnits l) 0))
    (txUnits ((txCredit true l (txUnits l) 0).filter (·.tc != 0))) hb
  exact ⟨c, hc⟩

/-- What a frame asks, of whom and for whom. -/
def Asks (x : TxF) (uid txn : Option Nat) (eid tc what arg : Nat) (ic : Word) : Prop :=
  x.uid = uid ∧ x.txn = txn ∧ x.eid = eid ∧ x.tc = tc ∧ x.what = what ∧ x.arg = arg ∧ x.ic = ic ∧ x.sent = 0

theorem txQueue_tx (s : State) (ch : Nat) (f : TxF) : ∃ x ∈ (chGet (txQueue s ch f) ch).tx,
    ∃ i a r q, x = { f with id := i, admitted := a, retry := r, queued := q } := by
  have hget : (chGet (txQueue s ch f) ch).tx = txAdmit ((chGet s ch).tx ++
      [{ f with id := s.chan.frNext, admitted := s.tcxo, retry := !awaitsContact s f.eid }]) := by
    have h : ∀ (u : State) (c : Chan), chGet (chPut u ch c) ch = c := fun u c => tget_tset_same _ _ _ _
    rw [txQueue]
    exact congrArg Chan.tx (h _ _)
  obtain ⟨b, hb⟩ := mem_txAdmit (List.mem_append_right (chGet s ch).tx (List.mem_singleton_self
    { f with id := s.chan.frNext, admitted := s.tcxo, retry := !awaitsContact s f.eid }))
  rw [hget]
  exact ⟨_, hb, _, _, _, _, rfl⟩

theorem frameSeal_frame (s : State) (f : TxF) : ∃ b, (frameSeal s f).2 = { f with enc := b } := by
  unfold frameSeal
  split
  · exact ⟨f.enc, rfl⟩
  · split
    · exact ⟨f.enc, rfl⟩
    · split
      · exact ⟨f.enc, rfl⟩
      · exact ⟨_, rfl⟩

/-- A frame sent stands in the queue of the channel its record names. -/
theorem sendFrame_tx (s : State) (eid tc what arg : Nat) (app : List Nat) (ic : Word) (uid txn : Option Nat) :
    ∃ x ∈ (chGet (sendFrame s eid tc what arg app ic uid txn) (chanOf s eid)).tx, Asks x uid txn eid tc what arg ic := by
  unfold sendFrame
  dsimp only
  generalize hf : TxF.mk 0 uid txn eid tc ic what arg _ 0 0 0 false 0 0 none false false = f
  obtain ⟨b, hb⟩ := frameSeal_frame s f
  have hch : chanOf (frameSeal s f).1 eid = chanOf s eid := by
    have hk := keyRest_frameSeal s f
    have hrecs := keyRest_recs hk
    exact chanOf_congr (congrArg (·.harn.pos) hk) (congrArg (·.regs) hk) (by rw [recGet, recGet, hrecs])
  rw [hch, hb]
  obtain ⟨x, hx, i, a, r, q, h⟩ := txQueue_tx (frameSeal s f).1 (chanOf s eid) { f with enc := b }
  refine ⟨x, hx, ?_⟩
  subst hf
  rw [h]
  exact ⟨rfl, rfl, rfl, rfl, rfl, rfl, rfl, rfl⟩

end Sys2Proof.Machine
end

section
/-!
# Relay commands (08 R277, 12 R378 to R381)
-/
namespace Sys2Proof.Machine
open Sys2Proof Sys2Proof.Safety

theorem mirrorGated_frame (s : State) (kind : Nat) (args : List Nat) (gate id : Nat) :
    (mirrorGated s kind args gate id).chan = s.chan ∧ (mirrorGated s kind args gate id).air = s.air ∧
      (mirrorGated s kind args gate id).harn.pos = s.harn.pos := by
  unfold mirrorGated
  split <;> simp

@[simp] theorem pinSync_funcs (s : State) (e : Nat) (r : EpRec) : (pinSync s e r).funcs = s.funcs := by
  unfold pinSync; split <;> rfl
@[simp] theorem pinSync_regs (s : State) (e : Nat) (r : EpRec) : (pinSync s e r).regs = s.regs := by
  unfold pinSync; split <;> rfl
@[simp] theorem pinSync_chan (s : State) (e : Nat) (r : EpRec) : (pinSync s e r).chan = s.chan := by
  unfold pinSync; split <;> rfl
@[simp] theorem pinSync_air (s : State) (e : Nat) (r : EpRec) : (pinSync s e r).air = s.air := by
  unfold pinSync; split <;> rfl
@[simp] theorem pinSync_harn (s : State) (e : Nat) (r : EpRec) : (pinSync s e r).harn = s.harn := by
  unfold pinSync; split <;> rfl
@[simp] theorem pinSync_cmd (s : State) (e : Nat) (r : EpRec) : (pinSync s e r).cmd = s.cmd := by
  unfold pinSync; split <;> rfl
@[simp] theorem pinSync_sealU (s : State) (e : Nat) (r : EpRec) : (pinSync s e r).sealU = s.sealU := by
  unfold pinSync; split <;> rfl

theorem cmdChange_frame (s : State) (e : Nat) (r : EpRec) : (cmdChange s e r).funcs = s.funcs ∧
    (cmdChange s e r).regs = s.regs ∧ (cmdChange s e r).chan = s.chan ∧ (cmdChange s e r).air = s.air ∧
    (cmdChange s e r).harn.pos = s.harn.pos ∧ (cmdChange s e r).host.flights = s.host.flights ∧
    (cmdChange s e r).cmd = s.cmd ∧ (cmdChange s e r).sealU = s.sealU ∧ (cmdChange s e r).host.cq = s.host.cq ∧
    (cmdChange s e r).hostMem = s.hostMem := by
  simp [cmdChange]

theorem recGet_cmdChange (s : State) (e : Nat) (r : EpRec) : ∃ u, recGet (cmdChange s e r) e = stamped u r :=
  ⟨_, by rw [cmdChange, recGet_recChange]⟩

theorem recGet_cmdChange_ne (s : State) (e : Nat) (r : EpRec) {x : Nat} (h : x ≠ e) :
    recGet (cmdChange s e r) x = recGet s x := by
  rw [cmdChange, recGet_recChange_ne _ _ _ h, recGet_pinSync]

theorem recView_attach (s : State) (e : Nat) : (recView s e).attach = (recGet s e).attach := by
  unfold recView
  dsimp only
  split <;> rfl

/-! ## A host's relay command -/

/-- The record a relay command leaves. -/
def relayRec (s : State) (f : Flight) (cmd : Nat) (dt : BitVec 64) : EpRec :=
  let r := recView s (dEid f.raw)
  { r with txIcHwm := r.txIcHwm + 1, relay := relayCommanded r.relay cmd 0 (r.txIcHwm + 1),
           prepay := ledgerHost r (dOpcode f.raw == 0x41) dt }

/-- The counter it takes. -/
def relayNext (s : State) (f : Flight) : Word := (recView s (dEid f.raw)).txIcHwm + 1

/-- A relay command issued (R379 steps 1 to 3), over a state `w` in which its key is in the kennel: its record, its timer,
its mirror. -/
def relayIssued (s w : State) (f : Flight) (cmd arg : Nat) : State :=
  let v := cmdChange w (dEid f.raw) (relayRec s f cmd (dtOf w))
  mirrorGated (relayPut v (dEid f.raw) ⟨f.adm, regFld v 0x600 0 12, relayNext s f, 0, some f.uid, dTag f.raw, arg⟩)
    0x13 [f.uid, dEid f.raw, (relayNext s f).toNat] 2 f.uid

theorem relayIssued_frame {s w : State} (f : Flight) (cmd arg : Nat) (hk : keyRest w = keyRest s)
    (hl : lowFns w = lowFns s) :
    let v := relayIssued s w f cmd arg
    chRefuse v (dEid f.raw) 0 = chRefuse s (dEid f.raw) 0 ∧ chanOf v (dEid f.raw) = chanOf s (dEid f.raw) ∧
      (recGet v (dEid f.raw)).relay = relayCommanded (recView s (dEid f.raw)).relay cmd 0 (relayNext s f) ∧
      (recGet v (dEid f.raw)).txIcHwm = relayNext s f ∧ (∀ e, e ≠ dEid f.raw → recGet v e = recGet s e) ∧
      v.host.cq = s.host.cq ∧ v.host.flights = s.host.flights ∧ v.hostMem = s.hostMem := by
  intro v
  obtain ⟨c1, c2, c3, c4, c5, c6, -, -, c9, c10⟩ := cmdChange_frame w (dEid f.raw) (relayRec s f cmd (dtOf w))
  obtain ⟨x, hx⟩ := recGet_cmdChange w (dEid f.raw) (relayRec s f cmd (dtOf w))
  have hne := fun e (he : e ≠ dEid f.raw) => recGet_cmdChange_ne w (dEid f.raw) (relayRec s f cmd (dtOf w)) he
  have hv : v = relayIssued s w f cmd arg := rfl
  unfold relayIssued at hv
  dsimp only at hv
  generalize cmdChange w (dEid f.raw) (relayRec s f cmd (dtOf w)) = c at c1 c2 c3 c4 c5 c6 c9 c10 hx hne hv
  generalize hp : relayPut c (dEid f.raw) _ = p at hv
  have hpc : p.funcs = c.funcs ∧ p.regs = c.regs ∧ p.air = c.air ∧ p.harn = c.harn ∧ p.host = c.host ∧ p.recs = c.recs ∧
      p.hostMem = c.hostMem := by
    rw [← hp]
    exact ⟨rfl, rfl, rfl, rfl, rfl, rfl, rfl⟩
  obtain ⟨p1, p2, p3, p4, p5, p6, p7⟩ := hpc
  obtain ⟨-, m2, m3⟩ := mirrorGated_frame p 0x13 [f.uid, dEid f.raw, (relayNext s f).toNat] 2 f.uid
  have hw := wireRest_mirrorGated p 0x13 [f.uid, dEid f.raw, (relayNext s f).toNat] 2 f.uid
  rw [← hv] at m2 m3 hw
  have hget : ∀ e, recGet v e = recGet c e := fun e => by rw [recGet, recGet, wireRest_recs hw, p6]
  have hregs : v.regs = s.regs := ((wireRest_regs hw).trans p2).trans (c2.trans (congrArg (·.regs) hk))
  have hair : v.air = s.air := (m2.trans p3).trans (c4.trans (congrArg (·.air) hk))
  have hpos : v.harn.pos = s.harn.pos :=
    (m3.trans (congrArg (·.pos) p4)).trans (c5.trans (congrArg (·.harn.pos) hk))
  have hfn : lowFns v = lowFns s := (lowFns_of_funcs ((wireRest_funcs hw).trans (p1.trans c1))).trans hl
  have hat : (recGet v (dEid f.raw)).attach = (recGet s (dEid f.raw)).attach := by
    rw [hget, hx, relayRec]
    exact recView_attach s _
  have hch := chanOf_congr hpos hregs hat
  have hrecs := keyRest_recs hk
  refine ⟨chRefuse_congr 0 hch hregs hair hfn, hch, ?_, ?_, fun e he => ?_, ?_, ?_, ?_⟩
  · rw [hget, hx]
    rfl
  · rw [hget, hx]
    rfl
  · rw [hget, hne e he, recGet, recGet, hrecs]
  · exact ((wireRest_cq hw).trans (congrArg (·.cq) p5)).trans (c9.trans (keyRest_cq hk))
  · exact ((wireRest_flights hw).trans (congrArg (·.flights) p5)).trans (c6.trans (congrArg (·.host.flights) hk))
  · exact ((wireRest_hostMem hw).trans p7).trans (c10.trans (keyRest_hostMem hk))

theorem relayRow_runs {s w : State} {f : Flight} (cmd arg : Nat) (hb : unbegun f.stage = true)
    (hr : outRefuse s (dEid f.raw) true = none) (hw : outSlot s (dEid f.raw) true = some w) :
    relayRow s f cmd arg = match chRefuse (relayIssued s w f cmd arg) (dEid f.raw) 0 with
      | some st => complete (relayIssued s w f cmd arg) f st 3 0 0
      | none => setProgress (relayFrame (relayIssued s w f cmd arg) (dEid f.raw) (dOpcode f.raw - 0x40) arg (relayNext s f)
          (some f.uid) (dTag f.raw)) { f with stage := .relay (relayNext s f) f.adm false cmd } 3 0 := by
  rw [relayRow, hb, hr, hw]
  rfl

theorem relayRow_waits {s : State} {f : Flight} (cmd arg : Nat) (hb : unbegun f.stage = true)
    (hr : outRefuse s (dEid f.raw) true = none) (hw : outSlot s (dEid f.raw) true = none) :
    relayRow s f cmd arg = slotWait s f := by
  rw [relayRow, hb, hr, hw]

theorem relayRow_refused {s : State} {f : Flight} {st : Nat} (cmd arg : Nat) (hb : unbegun f.stage = true)
    (hr : outRefuse s (dEid f.raw) true = some st) (hic : icExhausted (recView s (dEid f.raw)) = false) :
    relayRow s f cmd arg = complete s f st 0 0 0 := by
  rw [relayRow, hb, hr]
  dsimp only
  rw [outReject, hic]
  rfl

/-- A relay frame stands in the queue of its endpoint's channel. -/
theorem relayFrame_tx (s : State) (eid what arg : Nat) (ic : Word) (uid : Option Nat) (tag : BitVec 16) :
    ∃ x ∈ (chGet (relayFrame s eid what arg ic uid tag) (chanOf s eid)).tx, ∃ n, Asks x uid n eid 0 what arg ic := by
  obtain ⟨x, hx, h⟩ := sendFrame_tx (txnNew s eid 0 what uid tag false 0 ic).2 eid 0 what arg
    (relayApp (recGet (txnNew s eid 0 what uid tag false 0 ic).2 eid) what arg) ic uid
    (some (txnNew s eid 0 what uid tag false 0 ic).1)
  exact ⟨x, hx, _, h⟩

theorem outRest_flights {s t : State} (h : outRest t = outRest s) : t.host.flights = s.host.flights :=
  congrArg (·.host.flights) h

/-- The instruction of a relay command runs its row. -/
theorem exec_relay {s : State} {u op cmd arg : Nat} {f : Flight} {c : Instr} (hrun : Runs s u op f)
    (hc : (c = .opDisconnect u ∧ op = 0x40 ∧ cmd = 2 ∧ arg = 0) ∨ (c = .opReconnect u ∧ op = 0x41 ∧ cmd = 1 ∧ arg = 0) ∨
      (c = .opLoadLimit u ∧ op = 0x42 ∧ (recGet s (dEid f.raw)).proto = 0 ∧
        cmd = (if dByte f.raw 24 4 = 0 then 1 else 3) ∧
        arg = (if dByte f.raw 24 4 = 0 then 0xFFFFFFFF else dByte f.raw 24 4))) :
    exec c s = .next (wmUpdate (relayRow s f cmd arg)) := by
  obtain ⟨ha, hr, hs, -⟩ := hrun
  obtain ⟨rfl, rfl, rfl, rfl⟩ | ⟨rfl, rfl, rfl, rfl⟩ | ⟨rfl, rfl, hp, rfl, rfl⟩ := hc
  · rw [exec_opDisconnect u s ha, opDisconnect, withDesc_run s u 0x40 _ f hr hs]
  · rw [exec_opReconnect u s ha, opReconnect, withDesc_run s u 0x41 _ f hr hs]
  · rw [exec_opLoadLimit u s ha, opLoadLimit, withDesc_run s u 0x42 _ f hr hs]
    dsimp only
    rw [if_neg (fun hne => hne hp)]

theorem flightOf_setProgress {s : State} {g : Flight} {u : Nat} (hu : g.uid = u) (h : (flightOf s u).isSome = true)
    (step units : Nat) : flightOf (setProgress s g step units) u = some { g with step := step, units := units } := by
  subst hu
  have hf : (setProgress s g step units).host.flights = (flightPut s { g with step := step, units := units }).host.flights := by
    simp [setProgress]
  rw [flightOf, hf]
  exact flightOf_flightPut (g := { g with step := step, units := units }) h

/-- A relay command that its channel takes: its frame queued, its descriptor waiting for the acknowledgement (R379). -/
theorem relayRow_sent {s w : State} {u op : Nat} {f : Flight} (cmd arg : Nat) (hrun : Runs s u op f)
    (hb : unbegun f.stage = true) (hr : outRefuse s (dEid f.raw) true = none) (hw : outSlot s (dEid f.raw) true = some w)
    (hch : chRefuse s (dEid f.raw) 0 = none) :
    let t := wmUpdate (relayRow s f cmd arg)
    (recGet t (dEid f.raw)).relay = relayCommanded (recView s (dEid f.raw)).relay cmd 0 (relayNext s f) ∧
      (recGet t (dEid f.raw)).txIcHwm = relayNext s f ∧
      (∃ x ∈ (chGet t (chanOf s (dEid f.raw))).tx, ∃ n, Asks x (some u) n (dEid f.raw) 0 (op - 0x40) arg (relayNext s f)) ∧
      (∃ g, flightOf t u = some g ∧ g.stage = .relay (relayNext s f) f.adm false cmd ∧ g.step = 3) ∧
      t.host.cq = s.host.cq ∧ (∀ e, e ≠ dEid f.raw → recGet t e = recGet s e) ∧ t.hostMem = s.hostMem := by
  obtain ⟨-, hrn, -, -⟩ := hrun
  obtain ⟨hk, hl⟩ := outSlot_frame hw
  obtain ⟨i1, i2, i3, i4, i5, i6, i7, i8⟩ := relayIssued_frame f cmd arg hk hl
  obtain ⟨huid, hfl⟩ := runnable_uid hrn
  intro t
  have ht : t = wmUpdate (relayRow s f cmd arg) := rfl
  rw [relayRow_runs cmd arg hb hr hw, i1, hch, runnable_opcode hrn] at ht
  dsimp only at ht
  generalize relayIssued s w f cmd arg = v at i1 i2 i3 i4 i5 i6 i7 i8 ht
  obtain ⟨x, hx, hn⟩ := relayFrame_tx v (dEid f.raw) (op - 0x40) arg (relayNext s f) (some f.uid) (dTag f.raw)
  have ho := outRest_relayFrame v (dEid f.raw) (op - 0x40) arg (relayNext s f) (some f.uid) (dTag f.raw)
  generalize relayFrame v (dEid f.raw) (op - 0x40) arg (relayNext s f) (some f.uid) (dTag f.raw) = y at hx ho ht
  generalize hg : ({ f with stage := .relay (relayNext s f) f.adm false cmd } : Flight) = g at ht
  have hguid : g.uid = u := by rw [← hg]; exact huid
  have hstage : g.stage = .relay (relayNext s f) f.adm false cmd := by rw [← hg]
  obtain ⟨k1, -, k3⟩ := setProgress_kept y g 3 0
  have kmem : (setProgress y g 3 0).hostMem = y.hostMem := by simp [setProgress]
  have kchan : (setProgress y g 3 0).chan = y.chan := by simp [setProgress]
  rw [ht]
  have hwm : ∀ z : State, (∀ e, recGet (wmUpdate z) e = recGet z e) ∧ (wmUpdate z).host = z.host ∧
      (wmUpdate z).chan = z.chan ∧ (wmUpdate z).hostMem = z.hostMem := fun _ => ⟨fun _ => rfl, rfl, rfl, rfl⟩
  obtain ⟨w1, w2, w3, w4⟩ := hwm (setProgress y g 3 0)
  have hget : ∀ e, recGet (wmUpdate (setProgress y g 3 0)) e = recGet v e := fun e =>
    (w1 e).trans ((k1 e).trans (outRest_recGet ho e))
  have hchan : chGet (wmUpdate (setProgress y g 3 0)) (chanOf s (dEid f.raw)) = chGet y (chanOf s (dEid f.raw)) := by
    rw [chGet, chGet, w3, kchan]
  have hyfl : flightOf y u = flightOf s u := by rw [flightOf, flightOf, (outRest_flights ho).trans i7]
  have hflight := flightOf_setProgress (s := y) hguid (by rw [hyfl]; exact hfl) 3 0
  rw [hget, hchan, w2, w4, k3, kmem]
  refine ⟨i3, i4, ⟨x, i2 ▸ hx, huid ▸ hn⟩, ⟨{ g with step := 3, units := 0 }, ?_, hstage, rfl⟩, (outRest_cq ho).trans i6,
    fun e he => (hget e).trans (i5 e he), (outRest_hostMem ho).trans i8⟩
  rw [flightOf, w2, ← flightOf]
  exact hflight

/-- A relay command whose channel refuses it (10 R325). -/
theorem relayRow_down {s w : State} {f : Flight} {st : Nat} (cmd arg : Nat) (hb : unbegun f.stage = true)
    (hr : outRefuse s (dEid f.raw) true = none) (hw : outSlot s (dEid f.raw) true = some w)
    (hch : chRefuse s (dEid f.raw) 0 = some st) (hd : f.discard = false) :
    Completed s (wmUpdate (relayRow s f cmd arg)) f st 3 0 0 ∧
      (recGet (wmUpdate (relayRow s f cmd arg)) (dEid f.raw)).txIcHwm = relayNext s f := by
  obtain ⟨hk, hl⟩ := outSlot_frame hw
  obtain ⟨i1, -, -, i4, -, i6, -, -⟩ := relayIssued_frame f cmd arg hk hl
  rw [relayRow_runs cmd arg hb hr hw, i1, hch]
  dsimp only
  generalize relayIssued s w f cmd arg = v at i1 i4 i6 ⊢
  have hget : recGet (wmUpdate (complete v f st 3 0 0)) (dEid f.raw) = recGet v (dEid f.raw) := by
    rw [recGet, recGet, wmUpdate_recs, complete_recs_tab]
  refine ⟨completed_of s v f st 3 0 0 hd (by rw [cqGet, cqGet, i6]), ?_⟩
  rw [hget, i4]

/-! ## Transactions closed -/

theorem txnPromote_kept (s : State) : (txnPromote s).host = s.host ∧ (txnPromote s).hostMem = s.hostMem ∧
    (txnPromote s).time = s.time ∧ (txnPromote s).recs = s.recs ∧
    ∀ y ∈ (txnPromote s).cmd.txns, ∃ z ∈ s.cmd.txns, y.uid = z.uid ∧ y.id = z.id := by
  unfold txnPromote
  split
  · refine ⟨rfl, rfl, rfl, rfl, fun y hy => ?_⟩
    obtain ⟨z, hz, h⟩ := List.mem_map.mp hy
    refine ⟨z, hz, ?_⟩
    rw [← h]
    split <;> exact ⟨rfl, rfl⟩
  · exact ⟨rfl, rfl, rfl, rfl, fun y hy => ⟨y, hy, rfl, rfl⟩⟩

theorem txnPromoteAll_kept (s : State) : (txnPromoteAll s).host = s.host ∧ (txnPromoteAll s).hostMem = s.hostMem ∧
    (txnPromoteAll s).time = s.time ∧ (txnPromoteAll s).recs = s.recs ∧
    ∀ y ∈ (txnPromoteAll s).cmd.txns, ∃ z ∈ s.cmd.txns, y.uid = z.uid ∧ y.id = z.id := by
  have hall : ∀ (l : List Txn) (s : State), let t := l.foldl (fun s _ => txnPromote s) s
      t.host = s.host ∧ t.hostMem = s.hostMem ∧ t.time = s.time ∧ t.recs = s.recs ∧
        ∀ y ∈ t.cmd.txns, ∃ z ∈ s.cmd.txns, y.uid = z.uid ∧ y.id = z.id := by
    intro l
    induction l with
    | nil => exact fun s => ⟨rfl, rfl, rfl, rfl, fun y hy => ⟨y, hy, rfl, rfl⟩⟩
    | cons a l ih =>
      intro s
      obtain ⟨i1, i2, i3, i4, i5⟩ := ih (txnPromote s)
      obtain ⟨h1, h2, h3, h4, h5⟩ := txnPromote_kept s
      refine ⟨i1.trans h1, i2.trans h2, i3.trans h3, i4.trans h4, fun y hy => ?_⟩
      obtain ⟨z, hz, k1, k2⟩ := i5 y hy
      obtain ⟨z', hz', l1, l2⟩ := h5 z hz
      exact ⟨z', hz', k1.trans l1, k2.trans l2⟩
  exact hall s.cmd.txns s

/-- What closing transactions keeps. -/
theorem txnClose_kept (s : State) (id : Nat) : (txnClose s id).host = s.host ∧ (txnClose s id).hostMem = s.hostMem ∧
    (txnClose s id).time = s.time ∧ (txnClose s id).recs = s.recs ∧ ∀ y ∈ (txnClose s id).cmd.txns, y.id ≠ id := by
  obtain ⟨h1, h2, h3, h4, h5⟩ := txnPromote_kept
    (txDropAll (txnsSet s (s.cmd.txns.filter fun t => t.id != id)) fun f => f.txn == some id)
  refine ⟨h1, h2, h3, h4, fun y hy => ?_⟩
  obtain ⟨z, hz, -, hid⟩ := h5 y hy
  have hz := (List.mem_filter.mp (show z ∈ s.cmd.txns.filter fun t => t.id != id from hz)).2
  rw [hid]
  simpa using hz

theorem txnCloseUid_kept (s : State) (u : Nat) : (txnCloseUid s u).host = s.host ∧
    (txnCloseUid s u).hostMem = s.hostMem ∧ (txnCloseUid s u).time = s.time ∧ (txnCloseUid s u).recs = s.recs ∧
    ∀ y ∈ (txnCloseUid s u).cmd.txns, y.uid ≠ some u := by
  obtain ⟨h1, h2, h3, h4, h5⟩ := txnPromoteAll_kept
    (txDropAll (txnsSet s (s.cmd.txns.filter fun t => t.uid != some u)) fun f => f.uid == some u)
  refine ⟨h1, h2, h3, h4, fun y hy => ?_⟩
  obtain ⟨z, hz, hu, -⟩ := h5 y hy
  have hz := (List.mem_filter.mp (show z ∈ s.cmd.txns.filter fun t => t.uid != some u from hz)).2
  rw [hu]
  simpa using hz

/-! ## Link acknowledgements -/

theorem completed_congr {s t t' : State} {f : Flight} {st p n : Nat} {r : BitVec 128} (h : Completed s t f st p n r)
    (hcq : t'.host.cq = t.host.cq) (htime : t'.time = t.time) : Completed s t' f st p n r := by
  rw [Completed, cqGet, ← hcq] at h
  obtain ⟨e, hw, h1, h2, h3, h4, h5, h6, h7, h8⟩ := h
  exact ⟨e, hw, h1, h2, h3, h4, h5, h6, by rw [h7, dtOf, dtOf, htime], h8⟩

@[simp] theorem pinSync_time (s : State) (e : Nat) (r : EpRec) : (pinSync s e r).time = s.time := by
  unfold pinSync; split <;> rfl

theorem outRest_time {s t : State} (h : outRest t = outRest s) : t.time = s.time := congrArg (·.time) h

theorem cmdChange_time (s : State) (e : Nat) (r : EpRec) : (cmdChange s e r).time = s.time := by simp [cmdChange]

/-- A request leaves the host's rings and memory. -/
theorem sendRequest_kept (s : State) (eid cls what arg : Nat) (app : List Nat) (uid : Option Nat) (tag : BitVec 16)
    (obj : Bool) (coll : Nat) :
    let t := (sendRequest s eid cls what arg app uid tag obj coll).2
    t.host.cq = s.host.cq ∧ t.hostMem = s.hostMem ∧ t.time = s.time := by
  obtain ⟨-, -, -, -, -, -, -, -, c9, c10⟩ := cmdChange_frame s eid { recView s eid with txIcHwm := (recView s eid).txIcHwm + 1 }
  have c11 := cmdChange_time s eid { recView s eid with txIcHwm := (recView s eid).txIcHwm + 1 }
  unfold sendRequest icTake
  dsimp only
  generalize cmdChange s eid { recView s eid with txIcHwm := (recView s eid).txIcHwm + 1 } = c at c9 c10 c11 ⊢
  have ho := outRest_sendFrame (txnNew c eid cls what uid tag obj coll ((recView s eid).txIcHwm + 1)).2 eid cls what arg app
    ((recView s eid).txIcHwm + 1) uid (some (txnNew c eid cls what uid tag obj coll ((recView s eid).txIcHwm + 1)).1)
  have ho := ho.trans (outRest_txnNew c eid cls what uid tag obj coll _)
  exact ⟨(outRest_cq ho).trans c9, (outRest_hostMem ho).trans c10, (outRest_time ho).trans c11⟩

/-- The acknowledged frame gone from its queue, and its transaction with it. -/
def ackTaken (s : State) (ch : Nat) (x : TxF) : State :=
  let s := txMap s ch fun f => if f.id = x.id then none else some f
  match x.txn with | some id => txnClose s id | none => s

theorem ackTaken_kept (s : State) (ch : Nat) (x : TxF) : (ackTaken s ch x).host = s.host ∧
    (ackTaken s ch x).hostMem = s.hostMem ∧ (ackTaken s ch x).time = s.time := by
  unfold ackTaken
  dsimp only
  split
  · next id _ =>
    obtain ⟨h1, h2, h3, -, -⟩ := txnClose_kept (txMap s ch fun f => if f.id = x.id then none else some f) id
    exact ⟨h1, h2, h3⟩
  · exact ⟨rfl, rfl, rfl⟩

/-- The get-request that may follow an acknowledged relay command (R381). -/
def ackAsked (s : State) (eid : Nat) (x : TxF) (tag : BitVec 16) : State :=
  if (recGet s eid).proto = 0 && (outRefuse s eid (x.tc == 0)).isNone then
    (sendRequest s eid x.tc 10 0 controlApp none tag false 0).2
  else s

theorem ackAsked_kept (s : State) (eid : Nat) (x : TxF) (tag : BitVec 16) : (ackAsked s eid x tag).host.cq = s.host.cq ∧
    (ackAsked s eid x tag).hostMem = s.hostMem ∧ (ackAsked s eid x tag).time = s.time := by
  unfold ackAsked
  split
  · exact sendRequest_kept s eid x.tc 10 0 controlApp none tag false 0
  · exact ⟨rfl, rfl, rfl⟩

/-- An acknowledged relay command completes its descriptor (R379). -/
theorem linkAcked_completes {s : State} {ch eid : Nat} {x : TxF} {f : Flight}
    (hx : ((chGet s ch).tx.find? fun f => f.eid == eid && f.sent != 0) = some x) (hw : x.what ≤ 2) (hu : x.uid = some f.uid)
    (hf : flightOf s f.uid = some f) (he : f.ended = false) :
    ∃ tag, linkAcked s ch eid =
      ackAsked (mirrorSend (completeOk (ackTaken s ch x) f 4 (result4 x.ic.toNat 0 0 0)) 0x14 [2, f.uid]) eid x tag := by
  have hfl : x.uid.bind (flightOf (ackTaken s ch x)) = some f := by
    rw [hu, Option.bind_some, flightOf, (ackTaken_kept s ch x).1]
    exact hf
  have hrow : linkAcked s ch eid = ackAsked (match x.uid.bind (flightOf (ackTaken s ch x)) with
      | some f => if f.ended then ackTaken s ch x else
          mirrorSend (completeOk (ackTaken s ch x) f 4 (result4 x.ic.toNat 0 0 0)) 0x14 [2, f.uid]
      | none => if x.uid.isNone then mirrorSend (ackTaken s ch x) 0x14 [3, eid, x.ic.toNat] else
          tkoSettle (ackTaken s ch x) x.uid stOk 4) eid x
      (match x.uid.bind (flightOf (ackTaken s ch x)) with | some f => dTag f.raw | none => 0) := by
    rw [linkAcked, hx]
    dsimp only
    rw [if_pos hw]
    rfl
  have hgo : ∀ a b : State, (if f.ended then a else b) = b := fun a b => if_neg (by simp [he])
  rw [hrow, hfl]
  dsimp only
  rw [hgo]
  exact ⟨_, rfl⟩

theorem linkAcked_done {s : State} {ch eid : Nat} {x : TxF} {f : Flight}
    (hx : ((chGet s ch).tx.find? fun f => f.eid == eid && f.sent != 0) = some x) (hw : x.what ≤ 2) (hu : x.uid = some f.uid)
    (hf : flightOf s f.uid = some f) (he : f.ended = false) (hd : f.discard = false) :
    Completed s (wmUpdate (linkAcked s ch eid)) f 0 4 0 (result4 x.ic.toNat 0 0 0) ∧
      (wmUpdate (linkAcked s ch eid)).hostMem = s.hostMem := by
  obtain ⟨tag, h⟩ := linkAcked_completes hx hw hu hf he
  obtain ⟨a1, a2, a3⟩ := ackTaken_kept s ch x
  rw [h]
  generalize ackTaken s ch x = a at a1 a2 a3 ⊢
  have hc := completed_of s a f stOk 4 0 (result4 x.ic.toNat 0 0 0) hd (by rw [cqGet, cqGet, a1])
  obtain ⟨k1, k2, k3⟩ := ackAsked_kept (mirrorSend (completeOk a f 4 (result4 x.ic.toNat 0 0 0)) 0x14 [2, f.uid]) eid x tag
  generalize ackAsked (mirrorSend (completeOk a f 4 (result4 x.ic.toNat 0 0 0)) 0x14 [2, f.uid]) eid x tag = v at k1 k2 k3 ⊢
  have hv1 : v.host.cq = (complete a f stOk 4 0 (result4 x.ic.toNat 0 0 0)).host.cq := by
    rw [k1, mirrorSend_host_cq]
    rfl
  have hv3 : v.time = (complete a f stOk 4 0 (result4 x.ic.toNat 0 0 0)).time := by
    rw [k3, mirrorSend_time]
    rfl
  refine ⟨completed_congr (t' := wmUpdate v) hc hv1 hv3, ?_⟩
  rw [wmUpdate_hostMem, k2, mirrorSend_hostMem, completeOk, complete_hostMem, a2]

/-! ## Timeouts -/

theorem commandWaitTimeout_runs {s : State} {f : Flight} {ic : Word} {at_ k : Nat} {b : Bool}
    (hf : flightOf s f.uid = some f) (hst : f.stage = .relay ic at_ b k) (he : f.ended = false)
    (hms : msPassed s at_ (1000 * cmdWaitOf s f.uid) = true) (hp : onPins s f.uid = false) (hu : unacked s f.uid = true) :
    commandWaitTimeout s f.uid = linkLost (txnCloseUid s f.uid) f 3 1 := by
  rw [commandWaitTimeout, hf]
  dsimp only
  rw [hst]
  dsimp only
  exact if_neg (by simp [he, hms, hp, hu])

/-- The record a relay timeout leaves, its ledger aside. -/
def relayTimed (r : EpRec) (p : Prepay) : EpRec :=
  { r with prepay := p, relay := relaySettled r.relay none 2, alarms := r.alarms ||| 2 }

/-- The ledger a relay timeout leaves. -/
def relayTimedLedger (s : State) (e : Nat) : Prepay :=
  let r := recView s e
  if r.billing && (relayPend r.relay || r.prepay.lstate == 6) then ledgerFeedback r.prepay (relayCmd r.relay) none (dtOf s)
  else r.prepay

/-- The record changed, its timer gone. -/
def relayEnded (s : State) (e : Nat) : State :=
  relayPut (cmdChange s e (relayTimed (recView s e) (relayTimedLedger s e))) e RelayT.none

/-- The KIND 4 record of a state formed, and on its way to the seal stage. -/
def relayFormed (v : State) (e cls g : Nat) (d : BitVec 128) : State :=
  recordOut (storeReading v { ownRecord v e 4 cls with detail := d } false none 0).2 { ownRecord v e 4 cls with detail := d } g
    cls false (storeReading v { ownRecord v e 4 cls with detail := d } false none 0).1 none

theorem relayFeedback_timeout (s : State) (e : Nat) : ∃ a b c d cls g,
    relayFeedback s e none = ledgerRun (relayFormed (unsolicited (cnt (relayEnded s e) 331) 4 e a b c) e cls g d) e := by
  have hout : relayOutcome (recView s e).relay none = some 2 := rfl
  unfold relayFeedback
  dsimp only
  rw [hout]
  exact ⟨_, _, _, _, _, _, rfl⟩

theorem relayFormed_frame (v : State) (e cls g : Nat) (d : BitVec 128) : (relayFormed v e cls g d).recs = v.recs ∧
    (relayFormed v e cls g d).cmd = v.cmd ∧
    ∃ it ∈ (relayFormed v e cls g d).sealU.queue, it.rd.eid = BitVec.ofNat 32 e ∧ it.rd.kind = 4 := by
  have hs : ∀ (u : State) (x : SEnt), (storeQueue u x).recs = u.recs ∧ (storeQueue u x).cmd = u.cmd := fun u x => by
    unfold storeQueue
    split <;> exact ⟨rfl, rfl⟩
  exact ⟨(hs _ _).1, (hs _ _).2, _, List.mem_append_right _ (List.mem_singleton_self _), rfl, rfl⟩

theorem relayEnded_frame (s : State) (e : Nat) :
    (recGet (relayEnded s e) e).relay = relaySettled (recView s e).relay none 2 ∧
      (recGet (relayEnded s e) e).alarms = (recView s e).alarms ||| 2 ∧
      (recGet (relayEnded s e) e).billing = (recView s e).billing ∧
      tget RelayT.none (relayEnded s e).cmd.relays e = RelayT.none ∧
      ∀ x, x ≠ e → recGet (relayEnded s e) x = recGet s x := by
  obtain ⟨u, hu⟩ := recGet_cmdChange s e (relayTimed (recView s e) (relayTimedLedger s e))
  have hne := fun x (hx : x ≠ e) => recGet_cmdChange_ne s e (relayTimed (recView s e) (relayTimedLedger s e)) hx
  unfold relayEnded
  generalize cmdChange s e (relayTimed (recView s e) (relayTimedLedger s e)) = c at hu hne ⊢
  have hput : ∀ x, recGet (relayPut c e RelayT.none) x = recGet c x := fun _ => rfl
  have hrel : tget RelayT.none (relayPut c e RelayT.none).cmd.relays e = RelayT.none := by simp [relayPut]
  rw [hput, hu]
  exact ⟨rfl, rfl, rfl, hrel, fun x hx => (hput x).trans (hne x hx)⟩

/-- What a change of the record's ledger, relay and alarms keeps, and a frame's way out too, a ledger's evaluation keeps. -/
theorem ledgerRun_keeps {P : State → Prop} {e : Nat}
    (hc : ∀ u r, r.energy = (recView u e).energy → r.rxIc = (recView u e).rxIc → P u → P (cmdChange u e r))
    (ho : ∀ {u v : State}, outRest v = outRest u → P u → P v) {s : State} (h : P s) : P (ledgerRun s e) := by
  have halarm : ∀ (u : State) (b : Nat), P u → P (setAlarm u e b) := fun u b hu => by
    unfold setAlarm
    dsimp only
    split
    · exact hu
    · exact hc u _ rfl rfl hu
  have happly : ∀ (p : Prepay) (c : Nat), P (ledgerApply s e { recView s e with prepay := p } (some c)) := fun p c => by
    rw [ledgerApply]
    by_cases hok : (outRefuse s e true).isNone = true
    · simp only [hok, if_true]
      refine ho ((outRest_relayFrame ..).trans ((outRest_mirrorGated ..).trans ((outRest_relayPut ..).trans
        (outRest_cnt ..)))) (hc s _ ?_ ?_ h) <;> rfl
    · rw [Bool.not_eq_true] at hok
      simp only [hok, Bool.false_eq_true, if_false]
      have hcmd := fun t => ho ((outRest_relayPut _ e t).trans (outRest_cnt _ (if c = 2 then 329 else 330)))
        (hc s { recView s e with prepay := p, relay := relayCommanded (recView s e).relay c 1 (recView s e).txIcHwm } rfl rfl h)
      split
      · exact halarm _ 3 (hcmd _)
      · exact hcmd _
  unfold ledgerRun
  dsimp only
  split
  · generalize ledgerEval _ _ _ = x
    obtain ⟨p, c⟩ := x
    cases c with
    | some c => exact happly p c
    | none =>
      dsimp only
      rw [ledgerApply]
      split
      · exact h
      · exact hc s _ rfl rfl h
  · exact h

/-- A ledger's evaluation leaves what waits for its seal. -/
theorem ledgerRun_sealU (s : State) (e : Nat) : (ledgerRun s e).sealU = s.sealU :=
  ledgerRun_keeps (P := fun u => u.sealU = s.sealU)
    (fun u r _ _ hu => ((cmdChange_frame u e r).2.2.2.2.2.2.2.1).trans hu)
    (fun h hu => (congrArg (·.sealU) h).trans hu) rfl

/-- A relay command no feedback answered in its time (R277). -/
theorem relayTimeout_done {s : State} {e : Nat} (ht : tget RelayT.none s.cmd.relays e ≠ RelayT.none)
    (hp : relayPend (recView s e).relay = true)
    (hms : msPassed s (tget RelayT.none s.cmd.relays e).since (1000 * (tget RelayT.none s.cmd.relays e).secs) = true) :
    let t := wmUpdate (relayTimeout s e)
    (∃ it ∈ t.sealU.queue, it.rd.eid = BitVec.ofNat 32 e ∧ it.rd.kind = 4) ∧
      ((recView s e).billing = false → (recGet t e).relay = relaySettled (recView s e).relay none 2 ∧
        (recGet t e).alarms = (recView s e).alarms ||| 2 ∧ tget RelayT.none t.cmd.relays e = RelayT.none) ∧
      ∀ x, x ≠ e → recGet t x = recGet s x := by
  obtain ⟨a, b, c, d, cls, g, h⟩ := relayFeedback_timeout s e
  obtain ⟨e1, e2, e3, e4, e5⟩ := relayEnded_frame s e
  intro t
  have htt : t = wmUpdate (relayFeedback s e none) := by
    show wmUpdate (relayTimeout s e) = _
    rw [relayTimeout, if_pos ⟨ht, hp, hms⟩]
  rw [h] at htt
  generalize relayEnded s e = w at e1 e2 e3 e4 e5 htt
  have hu : (unsolicited (cnt w 331) 4 e a b c).recs = w.recs ∧ (unsolicited (cnt w 331) 4 e a b c).cmd = w.cmd := by
    obtain ⟨cq, n, h⟩ := unsolicited_eq (cnt w 331) 4 e a b c
    rw [h]
    exact ⟨cnt_recs w 331, cnt_cmd w 331⟩
  generalize unsolicited (cnt w 331) 4 e a b c = v at hu htt
  obtain ⟨f1, f2, f3⟩ := relayFormed_frame v e cls g d
  generalize relayFormed v e cls g d = y at f1 f2 f3 htt
  have hwm : ∀ z : State, (∀ e, recGet (wmUpdate z) e = recGet z e) ∧ (wmUpdate z).sealU = z.sealU ∧
      (wmUpdate z).cmd = z.cmd := fun _ => ⟨fun _ => rfl, rfl, rfl⟩
  obtain ⟨w1, w2, w3⟩ := hwm (ledgerRun y e)
  have hget : ∀ x, recGet y x = recGet w x := fun x => by rw [recGet, recGet, f1, hu.1]
  rw [htt, w1, w2, w3, ledgerRun_sealU]
  refine ⟨f3, fun hb => ?_, fun x hx => ?_⟩
  · have hrun : ledgerRun y e = y := by
      rw [ledgerRun]
      exact if_neg (by rw [recView_billing, hget, e3, hb]; simp)
    rw [hrun, hget, f2, hu.2]
    exact ⟨e1, e2, e4⟩
  · rw [w1, (ledgerRun_visited y e).2 x hx, hget, e5 x hx]

end Sys2Proof.Machine
end

section
open Sys2Proof Sys2Proof.Machine Sys2Proof.Safety

/-- Settles O50: the three commands are `relayRow`; the acknowledgement and the two timeouts by their own rows. -/
theorem relayCommandsRun : Obligations.RelayCommandsRun := by
  refine ⟨fun s u f op cmd arg c hrun hb hc => ?_, fun s u f hrun hp => ?_, fun s ch eid x f ha hx hw hu hf he hd => ?_,
    fun s f ic at_ k b ha hf hst he hd hms hpin hun => ?_, fun s e ha htail ht hp hms => ?_⟩
  · have hexec := exec_relay hrun hc
    refine ⟨fun st hr hic => ⟨_, hexec, ?_⟩, fun hr hs => ⟨_, hexec, ?_⟩,
      fun hr hs hch => ⟨_, relayNext s f, hexec, rfl, ?_⟩, fun hr hs st hch => ⟨_, hexec, ?_⟩⟩
    · obtain ⟨-, -, -, hd⟩ := hrun
      rw [relayRow_refused cmd arg hb hr hic]
      exact ⟨completed_self s f st 0 0 0 hd, (rest_wmUpdate _).trans (rest_complete ..)⟩
    · obtain ⟨h1, -, h2⟩ := slotWait_kept s f
      have hchan : (slotWait s f).chan = s.chan := by
        unfold slotWait
        split <;> rfl
      rw [relayRow_waits cmd arg hb hr hs]
      exact ⟨h2, h1, hchan⟩
    · obtain ⟨w, hw⟩ := Option.isSome_iff_exists.mp hs
      obtain ⟨h1, h2, ⟨x, hx, n, a1, -, a3, a4, a5, a6, a7, a8⟩, h4, h5, h6, h7⟩ := relayRow_sent cmd arg hrun hb hr hw hch
      exact ⟨h1, h2, ⟨x, hx, a1, a5, a6, a7, a3, a4, a8⟩, h4, h5, h6, h7⟩
    · obtain ⟨w, hw⟩ := Option.isSome_iff_exists.mp hs
      obtain ⟨-, -, -, hd⟩ := hrun
      exact relayRow_down cmd arg hb hr hw hch hd
  · obtain ⟨ha, hr, hs, hd⟩ := hrun
    refine ⟨_, exec_opLoadLimit u s ha, ?_⟩
    rw [opLoadLimit, withDesc_run s u 0x42 _ f hr hs]
    dsimp only
    rw [if_pos hp]
    exact ⟨completed_self s f stBad 0 0 _ hd, (rest_wmUpdate _).trans (rest_complete ..)⟩
  · exact ⟨_, exec_linkAcknowledgement ch eid s ha, linkAcked_done hx hw hu hf he hd⟩
  · obtain ⟨k1, -, -, k4, k5⟩ := txnCloseUid_kept s f.uid
    refine ⟨_, exec_commandWaitTimeout f.uid s ha, ?_⟩
    rw [commandWaitTimeout_runs hf hst he hms hpin hun, linkLost]
    generalize txnCloseUid s f.uid = v at k1 k4 k5 ⊢
    refine ⟨completed_of s v f stLinkLost 3 0 _ hd (by rw [cqGet, cqGet, k1]), ?_, ?_⟩
    · rw [wmUpdate_cmd, complete_cmd]
      exact k5
    · rw [wmUpdate_recs, complete_recs_tab, k4]
  · exact ⟨_, exec_relayConfirmationTimeout e s ha htail, relayTimeout_done ht hp hms⟩
end

section
/-!
# A list that names one meter twice (12 R377, R384)

A list may name an endpoint twice. Where the first request takes the last invocation counter but one, the second finds the
counter space spent: that target is settled at once, and the list no longer stands as it began.
-/
namespace Sys2Proof.Machine
open Sys2Proof Sys2Proof.Safety Sys2Proof.Tests

/-- OP_READ_ON_DEMAND of a list of two targets. -/
def dReadTwice : List (Nat × Nat × Nat) := [(0, 1, 0x43), (1, 1, 1), (8, 8, 0x4000), (16, 4, 8), (56, 8, 0x8000)]

/-- A meter that can be spoken to once more, and that command in flight. -/
def lastCounter : State := runs dReadTwice (withRec 3 { recKeyed with txIcHwm := 0xFFFFFFFE } talking)

theorem lastCounter_runs : Runs lastCounter 1 0x43 (fl dReadTwice) := by decide +kernel

theorem lastCounter_list : dBitmap (fl dReadTwice).raw ≠ 0 ∧ dByte (fl dReadTwice).raw 24 1 = 0 ∧
    (∀ p ∈ readUnused 0 true, spanSet (fl dReadTwice).raw p.1 p.2 = none) ∧
    listBad lastCounter ((listOf (fl dReadTwice) [3, 3]).map (BitVec.ofNat 32)) 0 = none ∧
    listOf (fl dReadTwice) [3, 3] = [3, 3] ∧ readBad lastCounter (fl dReadTwice).raw = none := by decide +kernel

/-- Its flight, and the state in which its first target is asked. -/
def fReadTwice : Flight := { fl dReadTwice with stage := .list (withIdx [3, 3]) 0 0 }
def readTwice : State := setProgress lastCounter fReadTwice 2 0

theorem readTwice_target : targetOk readTwice 3 (dOpcode fReadTwice.raw) (dTc fReadTwice.raw) = true ∧
    askRefuse readTwice 3 1 = none ∧ (pinGet readTwice 3).on = false ∧ (recView readTwice 3).txIcHwm = 0xFFFFFFFE ∧
    flightOf readTwice 1 = some { fReadTwice with step := 2 } := by decide +kernel

theorem lastCounter_targets : ∀ e ∈ listOf (fl dReadTwice) [3, 3],
    targetOk lastCounter e 0x43 (dTc (fl dReadTwice).raw) = true ∧ askRefuse lastCounter e 1 = none := by decide +kernel

/-! ## A counter taken -/

/-- The counter a request takes is the record's (R375), where the record is not pinned. -/
theorem recView_icTake {s : State} {e : Nat} (h : (pinGet s e).on = false) :
    (recView (icTake s e).2 e).txIcHwm = (recView s e).txIcHwm + 1 := by
  have hsync : ∀ r, cmdChange s e r = recChange s e r := fun r => by
    rw [cmdChange, pinSync, if_neg (by simp [h])]
  have hpin : ∀ r, pinGet (recChange s e r) e = pinGet s e := fun r => by simp [pinGet]
  rw [icTake]
  dsimp only
  rw [hsync]
  generalize hr : ({ recView s e with txIcHwm := (recView s e).txIcHwm + 1 } : EpRec) = r
  have hview : recView (recChange s e r) e = stamped s r := by
    rw [recView, hpin, recGet_recChange]
    exact if_neg (by simp [h])
  rw [hview, ← hr]
  rfl

theorem recView_outRest {s t : State} (h : outRest t = outRest s) (e : Nat) : recView t e = recView s e := by
  rw [recView, recView, pinGet, pinGet, recGet, recGet, outRest_recs h]

theorem sendRequest_outRest (s : State) (eid cls what arg : Nat) (app : List Nat) (uid : Option Nat) (tag : BitVec 16)
    (obj : Bool) (coll : Nat) :
    outRest (sendRequest s eid cls what arg app uid tag obj coll).2 = outRest (icTake s eid).2 := by
  unfold sendRequest
  dsimp only
  rw [outRest_sendFrame, outRest_txnNew]

theorem outRest_txnMod (s : State) (id : Nat) (g : Txn → Txn) : outRest (txnMod s id g) = outRest s := rfl

theorem askTarget_asked {s : State} {f : Flight} {cls k : Nat} (what arg steps : Nat)
    (h1 : targetOk s (tgtEid k) (dOpcode f.raw) (dTc f.raw) = true) (h2 : askRefuse s (tgtEid k) cls = none) :
    outRest (askTarget s f cls what arg steps k) = outRest (icTake s (tgtEid k)).2 := by
  rw [askTarget]
  dsimp only
  rw [if_neg (by simp [h1, h2]), outRest_txnMod, sendRequest_outRest]

theorem askTarget_spent {s : State} {f : Flight} {k : Nat} (cls what arg steps : Nat)
    (h : icExhausted (recView s (tgtEid k)) = true) :
    askTarget s f cls what arg steps k = targetSettle s f.uid (tgtIdx k) false steps := by
  have hask : (askRefuse s (tgtEid k) cls).isSome = true := by
    unfold askRefuse outRefuse
    split
    · rfl
    · next hn =>
      split at hn
      · cases hn
      · rw [if_pos h] at hn
        cases hn
  rw [askTarget]
  dsimp only
  rw [if_pos (by simp [hask])]

/-- A target settled as not done leaves its list, while others are left. -/
theorem flightOf_targetSettle {s : State} {u i dn nd : Nat} {f : Flight} {l : List Nat} (steps : Nat)
    (hf : flightOf s u = some f) (hu : f.uid = u) (hl : f.stage = .list l dn nd) (hi : (l.any fun k => tgtIdx k == i) = true)
    (hleft : (l.filter fun k => tgtIdx k != i).isEmpty = false) :
    (flightOf (targetSettle s u i false steps) u).map (·.stage) =
      some (.list (l.filter fun k => tgtIdx k != i) dn (nd + 1)) := by
  rw [targetSettle, hf]
  dsimp only
  rw [hl]
  dsimp only
  rw [if_neg (by simp [hi]), hleft, if_neg (by simp), if_neg (by simp)]
  refine (congrArg _ (flightOf_setProgress (u := u) ?_ ?_ _ _)).trans ?_
  · exact hu
  · rw [hf]
    rfl
  · rfl

/-- The list command's row over its targets. -/
theorem readOnDemand_list {s : State} {u : Nat} {f : Flight} {tg : List Word} (hr : runnable s u 0x43 = some f)
    (hs : stateShut s u = false) (hb : unbegun f.stage = true) (hl : dBitmap f.raw ≠ 0) (hbad : readBad s f.raw = none)
    (hk : dByte f.raw 24 1 = 0) (hun : ∀ p ∈ readUnused 0 true, spanSet f.raw p.1 p.2 = none)
    (hlist : listBad s ((listOf f tg).map (BitVec.ofNat 32)) 0 = none) :
    readOnDemand s u tg = askList s f (listOf f tg) 1 3 0 2 5 := by
  have hl' : (dBitmap f.raw != 0) = true := by simp [hl]
  rw [readOnDemand, withDesc_run s u 0x43 _ f hr hs]
  dsimp only
  rw [hb, hbad, hl', hk]
  dsimp only
  rw [ifUnused_all hun, if_pos rfl, listGuard, hlist]

theorem askList_two (s : State) (f : Flight) (a b cls what arg step steps : Nat) :
    askList s f [a, b] cls what arg step steps =
      let g := { f with stage := .list (withIdx [a, b]) 0 0 }
      askTarget (askTarget (setProgress s g step 0) g cls what arg steps (tgtKey 0 a)) g cls what arg steps (tgtKey 1 b) := rfl

/-- After the first target is asked the second finds the counter space spent. -/
theorem lastCounter_stage : (flightOf (readOnDemand lastCounter 1 [3, 3]) 1).map (·.stage) = some (.list [3] 0 1) := by
  obtain ⟨-, hr, hs, -⟩ := lastCounter_runs
  obtain ⟨l1, l2, l3, l4, l5, l6⟩ := lastCounter_list
  obtain ⟨t1, t2, t3, t4, t5⟩ := readTwice_target
  have hlist : askList lastCounter (fl dReadTwice) [3, 3] 1 3 0 2 5 =
      askTarget (askTarget readTwice fReadTwice 1 3 0 5 (tgtKey 0 3)) fReadTwice 1 3 0 5 (tgtKey 1 3) :=
    askList_two lastCounter (fl dReadTwice) 3 3 1 3 0 2 5
  rw [readOnDemand_list hr hs rfl l1 l6 l2 l3 l4, l5, hlist]
  have ho : outRest (askTarget readTwice fReadTwice 1 3 0 5 (tgtKey 0 3)) = outRest (icTake readTwice 3).2 :=
    askTarget_asked (k := tgtKey 0 3) 3 0 5 t1 t2
  have hic := recView_icTake t3
  have hfl : (icTake readTwice 3).2.host.flights = readTwice.host.flights := (cmdChange_frame readTwice 3 _).2.2.2.2.2.1
  generalize askTarget readTwice fReadTwice 1 3 0 5 (tgtKey 0 3) = v at ho
  have hspent : icExhausted (recView v (tgtEid (tgtKey 1 3))) = true := by
    have hrec : recView v (tgtEid (tgtKey 1 3)) = recView (icTake readTwice 3).2 3 := recView_outRest ho 3
    rw [icExhausted, hrec, hic, t4]
    rfl
  have hflight : flightOf v 1 = some { fReadTwice with step := 2 } := by
    rw [flightOf, outRest_flights ho, hfl]
    exact t5
  rw [askTarget_spent 1 3 0 5 hspent]
  exact flightOf_targetSettle 5 hflight rfl rfl (by decide) (by decide)

end Sys2Proof.Machine
end

section
open Sys2Proof Sys2Proof.Machine Sys2Proof.Safety Sys2Proof.Tests

/-- Refutes O51: of a list that names a meter with one counter left twice, the second target is settled as not done in the
command's own row, where the statement has both still to be answered. -/
theorem not_meterRequestsRun : ¬ Obligations.MeterRequestsRun := by
  rintro ⟨hread, -⟩
  obtain ⟨l1, l2, l3, l4, l5, -⟩ := lastCounter_list
  obtain ⟨t, ht, -, ⟨g, hg, hstage⟩, -⟩ := hread lastCounter 1 (fl dReadTwice) [3, 3] lastCounter_runs rfl l1 l2 l3 l4
    (by rw [l5]; simp) lastCounter_targets
  have hrow := exec_opReadOnDemand 1 [3, 3] lastCounter lastCounter_runs.1
  obtain rfl : t = _ := by injection ht.symm.trans hrow
  have hst : (flightOf (readOnDemand lastCounter 1 [3, 3]) 1).map (·.stage) = some (.list (withIdx [3, 3]) 0 0) := by
    have hg : flightOf (readOnDemand lastCounter 1 [3, 3]) 1 = some g := hg
    rw [hg, Option.map_some, hstage, l5]
  rw [lastCounter_stage] at hst
  exact absurd hst (by decide)
end

section
/-!
# A channel number past 63 (10 R318)

A frame that back-pressure discards is counted at its channel's own counter, 128 + ch, and at 198. Nothing in the statement
bounds the channel, and for channel 70 the two are one counter, which then counts twice.
-/
namespace Sys2Proof.Machine
open Sys2Proof Sys2Proof.Safety Sys2Proof.Tests

/-- A part whose channel 70, an LBT radio channel, is ON and in back-pressure. -/
def channel70 : State :=
  let s := withReg 0x6460 0x07FF0011 (withFn 0x0146 .on live)
  { s with rp := { s.rp with bp := [(70, true)] } }

/-- A frame that asks for an acknowledgement, so that back-pressure discards it. -/
def frameAsks : Frame := { frameOk 1 with ackReq := true }

theorem channel70_receives : awake channel70 = true ∧ (fnGet channel70 (0x100 + 70)).st = .on ∧
    groupHead channel70 (70 / 16) = false ∧ channel70.rp.stopped = false ∧ chAttach channel70 70 ≠ 2 ∧
    slottedCoord channel70 70 = false ∧ rxFault channel70 70 frameAsks linkOk = none ∧
    (frameCls channel70 frameAsks linkOk.slotKind == 0) = false ∧ bpDiscards channel70 70 frameAsks linkOk = true := by
  decide +kernel

theorem channel70_countsTwice : cntGet channel70 198 = 0 ∧
    cntGet (wmUpdate (frameReceive channel70 70 frameAsks linkOk)) 198 = 2 := by decide +kernel

end Sys2Proof.Machine
end

section
open Sys2Proof Sys2Proof.Machine Sys2Proof.Safety Sys2Proof.Tests

/-- Refutes O54: the statement bounds no channel number where back-pressure discards a frame, and at channel 70 the
channel's own counter of discarded frames is 198 itself, which counts twice. -/
theorem not_channelsCarryFrames : ¬ Obligations.ChannelsCarryFrames := by
  intro h
  obtain ⟨hreceive, -⟩ := h
  obtain ⟨hawake, hon, hhead, hgoes, hatt, hcoord, hfault, hcls, hbp⟩ := channel70_receives
  obtain ⟨hfits, -⟩ := hreceive channel70 70 frameAsks linkOk false hawake hon hhead hgoes (.inl hatt) (.inl hcoord)
  obtain ⟨t, ht, -, hcnt, -⟩ := (hfits hfault hcls.symm).2 rfl hbp
  rw [exec_channelFrameReceive _ _ _ _ hawake] at ht
  injection ht with ht
  subst ht
  obtain ⟨hbefore, hafter⟩ := channel70_countsTwice
  rw [hbefore, hafter] at hcnt
  exact absurd hcnt (by decide)

end

section
/-!
# A draw that a sampler sees (11 R360, 18 R521)

The 65,536th random value of an island's generator makes the DRBG reseed it, which counts in counter 272. A sampler armed on
that counter signals its vector, so a listen-before-talk back-off need not leave the wire as it was.
-/
namespace Sys2Proof.Machine
open Sys2Proof Sys2Proof.Safety Sys2Proof.Tests

/-- A channel that waits to send by listen-before-talk, its island's generator one value short of its reseed, and a sampler
armed on the DRBG's requests with its vector unmasked. -/
def sampledDraw : State :=
  let s := withReg 0x800 0x80000110 (lbtTx firstF)
  { s with chan := { s.chan with draws := [65535, 0, 0, 0] }, host := { s.host with msixMask := [(0, false)] },
           cnt := { s.cnt with smp := [(0, { Smp.idle with thresh := 1 })] } }

/-- The frame that waits there. -/
def waitingF : TxF := ((txOrder (chGet sampledDraw 0).tx).find? (txMay sampledDraw 0)).getD firstF

theorem sampledDraw_waits : awake sampledDraw = true ∧ chOn sampledDraw 0 = true ∧ chRadio sampledDraw 0 = true ∧
    (txOrder (chGet sampledDraw 0).tx).find? (txMay sampledDraw 0) = some waitingF ∧ drbgOpen sampledDraw = true ∧
    waitingF.backoffs < fld (regGet sampledDraw (0x6804 + 0x10 * 0)) 8 3 := by decide +kernel

theorem sampledDraw_signals : (wmUpdate (lbtBackoff sampledDraw 0 false)).wire ≠ sampledDraw.wire := by decide +kernel

end Sys2Proof.Machine
end

section
open Sys2Proof Sys2Proof.Machine Sys2Proof.Safety Sys2Proof.Tests

/-- Refutes O55: a back-off whose draw needs a reseed counts a DRBG request, and a sampler armed on that counter sends its
message (R360, R521), so the wire changes. -/
theorem not_radioAccess : ¬ Obligations.RadioAccess := by
  intro h
  obtain ⟨-, -, -, -, -, -, -, hlisten⟩ := h
  obtain ⟨hawake, hon, hradio, hfront, hdrbg, hleft⟩ := sampledDraw_waits
  obtain ⟨hbackoff, -⟩ := hlisten sampledDraw 0 waitingF _ hawake hon hradio rfl
  obtain ⟨t, ht, -, hwire⟩ := (hbackoff hfront (.inr hdrbg)).1 hleft
  rw [exec_lbtBackoff _ _ _ hawake] at ht
  injection ht with ht
  subst ht
  exact sampledDraw_signals hwire

end

section
/-!
# What the ring's links change (13 R405 to R408)

Sending on the ring adds to the wire and moves a port; nothing else of the harness, and no record, changes. Wrapping, gates
and the outbound pair change a few fields more.
-/
namespace Sys2Proof.Machine
open Sys2Proof Sys2Proof.Safety

/-! ## The wire only grows -/

theorem msixAll_wire (n : Nat) (vs : List Nat) (s : State) : s.wire ⊆ (msixAll n vs s).wire := by
  induction n generalizing vs s with
  | zero => exact List.Subset.refl _
  | succ n ih =>
    cases vs with
    | nil => exact List.Subset.refl _
    | cons v vs =>
      unfold msixAll
      split
      · exact ih vs { s with host := { s.host with msixPend := tset false s.host.msixPend v true } }
      · obtain ⟨c, hc⟩ := cntRaw_eq (bwTx { s with wire := .msix v :: s.wire } 66 4) 297 1 0xFFFFFFFF
        generalize cntRaw (bwTx { s with wire := .msix v :: s.wire } 66 4) 297 1 0xFFFFFFFF = r at hc ⊢
        obtain ⟨u, more⟩ := r
        dsimp only at hc ⊢
        refine List.Subset.trans ?_ (ih (vs ++ more) u)
        rw [hc]
        exact List.subset_cons_self _ _

theorem cntAdd_wire_subset (s : State) (i k : Nat) (e : Word) : s.wire ⊆ (cntAdd s i k e).wire := by
  unfold cntAdd
  obtain ⟨c, hc⟩ := cntRaw_eq s i k e
  generalize cntRaw s i k e = r at hc ⊢
  obtain ⟨u, vs⟩ := r
  dsimp only at hc ⊢
  refine List.Subset.trans ?_ (msixAll_wire 18 vs u)
  rw [hc]
  exact List.Subset.refl _

theorem cnt_wire_subset (s : State) (i : Nat) : s.wire ⊆ (Machine.cnt s i).wire := cntAdd_wire_subset s i 1 _

theorem logSuppress_wire_subset (s : State) (c : Nat) : s.wire ⊆ (logSuppress s c).wire :=
  fun _ h => cnt_wire_subset _ _ h

theorem logEvent_wire_subset (c d : Nat) (s : State) : s.wire ⊆ (logEvent c d s).wire := by
  unfold logEvent
  dsimp only
  split
  · exact logSuppress_wire_subset s c
  · split
    · exact logSuppress_wire_subset s c
    · exact List.Subset.refl _

theorem ringSend_wire_subset (s : State) (p k : Nat) (l : List Nat) : s.wire ⊆ (ringSend s p k l).wire := by
  unfold ringSend
  dsimp only
  refine List.Subset.trans ?_ (cnt_wire_subset _ _)
  exact List.subset_append_right _ _

theorem ringSend_sends (s : State) (p k : Nat) (l : List Nat) :
    WireEv.ring (outPort s p) k l ∈ (ringSend s p k l).wire := by
  unfold ringSend
  dsimp only
  exact cnt_wire_subset _ _ (List.mem_cons_self ..)

theorem ringSend_harn (s : State) (p k : Nat) (l : List Nat) :
    (ringSend s p k l).harn = { s.harn with ports := (ringSend s p k l).harn.ports } := by
  obtain ⟨h, c, q, w, e⟩ := ringSend_eq s p k l
  rw [e]

/-! ## Ports -/

theorem portGet_cnt (s : State) (i p : Nat) : portGet (Machine.cnt s i) p = portGet s p := by rw [portGet, cnt_harn, portGet]

theorem portGet_ringLog (s : State) (i n p : Nat) : portGet (ringLog s i n) p = portGet s p := by
  rw [portGet, ringLog, logEvent_harn, portGet]

/-- The port a frame leaves by keeps it, one number higher; the other stands. -/
theorem portGet_ringSend (s : State) (p k : Nat) (l : List Nat) (q : Nat) :
    portGet (ringSend s p k l) q =
      if q = outPort s p then
        { portGet s q with tx := (portGet s q).tx + 1, replay := (portGet s q).replay ++ [⟨(portGet s q).tx, k, l⟩] }
      else portGet s q := by
  unfold ringSend
  dsimp only
  rw [portGet_cnt]
  by_cases h : q = outPort s p
  · subst h
    rw [if_pos rfl]
    exact portGet_portPut _ _ _
  · rw [if_neg h]
    exact portGet_portPut_ne _ _ _ _ h

theorem ringSend_broken (s : State) (p k : Nat) (l : List Nat) (q : Nat) :
    (portGet (ringSend s p k l) q).broken = (portGet s q).broken := by
  rw [portGet_ringSend]
  split <;> rfl

theorem ringSend_trained (s : State) (p k : Nat) (l : List Nat) (q : Nat) :
    (portGet (ringSend s p k l) q).trained = (portGet s q).trained := by
  rw [portGet_ringSend]
  split <;> rfl

theorem outPort_ringSend (s : State) (p k : Nat) (l : List Nat) (q : Nat) : outPort (ringSend s p k l) q = outPort s q := by
  rw [outPort, ringSend_broken, outPort]

/-! ## What sending leaves -/

/-- From one state to the other the ring was sent on, heard and counted: the harness stands but for its ports, the wire has
only grown, and nothing else moved. -/
structure Rung (s t : State) : Prop where
  harn : t.harn = { s.harn with ports := t.harn.ports }
  rest : wireRest t = wireRest s
  wire : s.wire ⊆ t.wire

theorem Rung.refl (s : State) : Rung s s := ⟨rfl, rfl, List.Subset.refl _⟩

theorem Rung.trans {s t u : State} (h : Rung s t) (g : Rung t u) : Rung s u where
  harn := by rw [g.harn, h.harn]
  rest := g.rest.trans h.rest
  wire := List.Subset.trans h.wire g.wire

theorem Rung.recs {s t : State} (h : Rung s t) : t.recs = s.recs := wireRest_recs h.rest

theorem rung_cnt (s : State) (i : Nat) : Rung s (Machine.cnt s i) :=
  ⟨by rw [cnt_harn], wireRest_cnt s i, cnt_wire_subset s i⟩

theorem rung_ringLog (s : State) (i n : Nat) : Rung s (ringLog s i n) :=
  ⟨by rw [ringLog, logEvent_harn], wireRest_ringLog s i n, logEvent_wire_subset _ _ s⟩

theorem rung_portPut (s : State) (p : Nat) (x : HPort) : Rung s (portPut s p x) := ⟨rfl, rfl, List.Subset.refl _⟩

theorem rung_wire (s : State) (w : List WireEv) : Rung s { s with wire := w ++ s.wire } :=
  ⟨rfl, rfl, List.subset_append_right _ _⟩

theorem rung_ringSend (s : State) (p k : Nat) (l : List Nat) : Rung s (ringSend s p k l) :=
  ⟨ringSend_harn s p k l, wireRest_ringSend s p k l, ringSend_wire_subset s p k l⟩

theorem foldl_rung {α : Type} (g : State → α → State) (l : List α) (s : State) (h : ∀ u a, Rung u (g u a)) :
    Rung s (l.foldl g s) := by
  induction l generalizing s with
  | nil => exact Rung.refl s
  | cons a l ih => exact (h s a).trans (ih _)

theorem rung_ringGot (s : State) (p : Nat) : Rung s (ringGot s p) := by
  unfold ringGot
  dsimp only
  exact ((rung_portPut s p _).trans (rung_wire _ [_])).trans (rung_cnt _ _)

theorem portGet_ringGot (s : State) (p q : Nat) :
    portGet (ringGot s p) q = portGet (portPut s p { portGet s p with rx := (portGet s p).rx + 1 }) q := by
  unfold ringGot
  dsimp only
  rw [portGet_cnt]
  rfl

theorem outPort_ringGot (s : State) (p q : Nat) : outPort (ringGot s p) q = outPort s q := by
  have hport : (portGet (ringGot s p) q).broken = (portGet s q).broken := by
    rw [portGet_ringGot]
    by_cases h : q = p
    · subst h
      rw [portGet_portPut]
    · rw [portGet_portPut_ne _ _ _ _ h]
  rw [outPort, hport, outPort]

/-! ## Acknowledgements that waited for a gate -/

theorem radioAdmit_harn {s t : State} {ch i n : Nat} {x y : Bool} (h : radioAdmit s ch i n x y = some t) :
    t.harn = s.harn ∧ t.wire = s.wire := by
  unfold radioAdmit at h
  split at h
  · cases h
  · unfold dutyAdmit at h
    cases (Option.ite_none_right_eq_some.mp h).2
    exact ⟨rfl, rfl⟩

theorem rung_tuneTo (s : State) (c i : Nat) : Rung s (tuneTo s c i) := by
  refine ⟨?_, wireRest_tuneTo s c i, ?_⟩ <;> unfold tuneTo <;> split
  · rfl
  · rfl
  · exact List.Subset.refl _
  · exact List.subset_cons_self _ _

theorem rung_chPut (s : State) (c : Nat) (x : Chan) : Rung s (chPut s c x) := ⟨rfl, rfl, List.Subset.refl _⟩

theorem rung_bwTx (s : State) (p n : Nat) : Rung s (bwTx s p n) := ⟨rfl, rfl, List.Subset.refl _⟩

theorem rung_radioSend (s : State) (c i : Nat) (b : List Byte) : Rung s (radioSend s c i b) := by
  have hpins : ∀ u : State, Rung u (Machine.cnt (bwTx { u with wire := [.frame c b] ++ u.wire } c b.length) (64 + c)) :=
    fun u => ((rung_wire u _).trans (rung_bwTx _ _ _)).trans (rung_cnt _ _)
  unfold radioSend
  dsimp only
  exact (((rung_tuneTo s c i).trans (rung_wire _ _)).trans (rung_chPut _ c _)).trans (hpins _)

theorem rung_ackSend (s : State) (c : Nat) (b : Bool) : Rung s (ackSend s c b) := by
  unfold ackSend
  dsimp only
  split
  · exact rung_chPut s c _
  · split
    · rename_i t ht
      obtain ⟨hharn, hwire⟩ := radioAdmit_harn ht
      have hadmit : Rung s t := (rung_chPut s c _).trans
        ⟨by rw [hharn], wireRest_radioAdmit ht, by rw [hwire]; exact List.Subset.refl _⟩
      exact hadmit.trans (rung_radioSend _ _ _ _)
    · exact rung_chPut s c _

theorem rung_acksFree (s : State) : Rung s (acksFree s) :=
  foldl_rung _ _ _ fun u a => by
    unfold ackRelease
    split
    · split
      · exact Rung.refl _
      · exact rung_ackSend _ _ _
    · exact Rung.refl _

theorem acksFree_harn (s : State) : (acksFree s).harn = s.harn := by
  have hsend : ∀ (u : State) c i b, (radioSend u c i b).harn = u.harn := fun u c i b => by
    unfold radioSend tuneTo
    dsimp only
    rw [cnt_harn]
    split <;> rfl
  have hack : ∀ (u : State) c, (ackRelease u c).harn = u.harn := fun u c => by
    unfold ackRelease ackSend
    dsimp only
    split
    · split
      · rfl
      · split
        · rfl
        · split
          · rename_i h
            rw [hsend, (radioAdmit_harn h).1]
            rfl
          · rfl
    · rfl
  unfold acksFree
  have hall : ∀ (l : List Nat) (u : State), (l.foldl ackRelease u).harn = u.harn := fun l => by
    induction l with
    | nil => exact fun _ => rfl
    | cons c l ih => exact fun u => (ih _).trans (hack u c)
  exact hall _ s

/-! ## Wrapping, gates and the outbound pair -/

/-- The harness without what links, gates and the outbound pair move. -/
def linkHarn (h : HarnSt) : HarnSt :=
  { h with ports := [], gates := [], wrapped := false, outState := 0, outReason := 0, shadow := none, syncLeft := 0,
           syncPos := 0 }

/-- As `Rung`, with gates, the wrap and the outbound pair moving too. -/
structure Linked (s t : State) : Prop where
  harn : linkHarn t.harn = linkHarn s.harn
  rest : wireRest t = wireRest s
  wire : s.wire ⊆ t.wire

theorem Rung.linked {s t : State} (h : Rung s t) : Linked s t := ⟨by rw [h.harn]; rfl, h.rest, h.wire⟩

theorem Linked.refl (s : State) : Linked s s := (Rung.refl s).linked

theorem Linked.trans {s t u : State} (h : Linked s t) (g : Linked t u) : Linked s u :=
  ⟨g.harn.trans h.harn, g.rest.trans h.rest, List.Subset.trans h.wire g.wire⟩

theorem Linked.recs {s t : State} (h : Linked s t) : t.recs = s.recs := wireRest_recs h.rest

theorem linked_harnSet {s : State} {g : HarnSt → HarnSt} (h : linkHarn (g s.harn) = linkHarn s.harn) :
    Linked s (harnSet s g) := ⟨h, rfl, List.Subset.refl _⟩

/-- One frame of a broken port, sent again by the other, its gate with it. -/
def wrapFrame (p : Nat) (s : State) (f : RFrame) : State :=
  let l := (portGet s (1 - p)).tx
  harnSet (ringSend s p f.kind f.args) fun h =>
    { h with gates := h.gates.map fun g => if g.port = p ∧ g.lseq = f.lseq then { g with port := 1 - p, lseq := l } else g }

/-- A port taken down. -/
def portDown (s : State) (p : Nat) : State :=
  harnSet (cnt (portPut s p { portGet s p with broken := true, trained := false, replay := [] }) 393)
    fun h => { h with wrapped := true }

theorem wrapPort_eq (s : State) (p : Nat) :
    wrapPort s p = ringLog ((portGet s p).replay.foldl (wrapFrame p) (portDown s p)) (0x0400 + p) 1 := rfl

theorem linked_wrapFrame (p : Nat) (s : State) (f : RFrame) : Linked s (wrapFrame p s f) := by
  unfold wrapFrame
  exact (rung_ringSend s p f.kind f.args).linked.trans (linked_harnSet rfl)

theorem linked_portDown (s : State) (p : Nat) : Linked s (portDown s p) :=
  ((rung_portPut s p _).trans (rung_cnt _ _)).linked.trans (linked_harnSet rfl)

theorem foldl_linked {α : Type} (g : State → α → State) (l : List α) (s : State) (h : ∀ u a, Linked u (g u a)) :
    Linked s (l.foldl g s) := by
  induction l generalizing s with
  | nil => exact Linked.refl s
  | cons a l ih => exact (h s a).trans (ih _)

theorem linked_wrapPort (s : State) (p : Nat) : Linked s (wrapPort s p) := by
  rw [wrapPort_eq]
  exact ((linked_portDown s p).trans (foldl_linked _ _ _ (linked_wrapFrame p))).trans (rung_ringLog _ _ _).linked

theorem portDown_port (s : State) (p : Nat) :
    portGet (portDown s p) p = { portGet s p with broken := true, trained := false, replay := [] } := by
  have h : portGet (portDown s p) p =
      portGet (cnt (portPut s p { portGet s p with broken := true, trained := false, replay := [] }) 393) p := rfl
  rw [h, portGet_cnt, portGet_portPut]

/-- The frames of a broken port go out by the other, and the port stays as it is. -/
theorem wrapFrames_sends {p : Nat} (hp : p < 2) (l : List RFrame) (s : State) (h : (portGet s p).broken = true) :
    portGet (l.foldl (wrapFrame p) s) p = portGet s p ∧ (l.foldl (wrapFrame p) s).harn.wrapped = s.harn.wrapped ∧
      ∀ f ∈ l, WireEv.ring (1 - p) f.kind f.args ∈ (l.foldl (wrapFrame p) s).wire := by
  induction l generalizing s with
  | nil => exact ⟨rfl, rfl, fun _ hf => absurd hf (List.not_mem_nil)⟩
  | cons f l ih =>
    have hout : outPort s p = 1 - p := if_pos h
    have hport : portGet (wrapFrame p s f) p = portGet s p := by
      have hsame : portGet (wrapFrame p s f) p = portGet (ringSend s p f.kind f.args) p := rfl
      rw [hsame, portGet_ringSend, hout, if_neg (by omega)]
    have hsent : WireEv.ring (1 - p) f.kind f.args ∈ (wrapFrame p s f).wire := by
      rw [← hout]
      exact ringSend_sends s p f.kind f.args
    have hwrap : (wrapFrame p s f).harn.wrapped = s.harn.wrapped := ringSend_harn_wrapped s p f.kind f.args
    obtain ⟨hkept, hw, hall⟩ := ih (wrapFrame p s f) (by rw [hport, h])
    refine ⟨hkept.trans hport, hw.trans hwrap, fun g hg => ?_⟩
    rcases List.mem_cons.mp hg with rfl | hg
    · exact (foldl_linked _ l _ (linked_wrapFrame p)).wire hsent
    · exact hall g hg

theorem wrapPort_sends {s : State} {p : Nat} (hp : p < 2) :
    portGet (wrapPort s p) p = { portGet s p with broken := true, trained := false, replay := [] } ∧
      (wrapPort s p).harn.wrapped = true ∧
      ∀ f ∈ (portGet s p).replay, WireEv.ring (1 - p) f.kind f.args ∈ (wrapPort s p).wire := by
  obtain ⟨hport, hwrap, hall⟩ := wrapFrames_sends hp (portGet s p).replay (portDown s p) (by rw [portDown_port])
  rw [wrapPort_eq]
  refine ⟨?_, ?_, fun f hf => (rung_ringLog _ _ _).wire (hall f hf)⟩
  · rw [portGet_ringLog, hport, portDown_port]
  · rw [ringLog, logEvent_harn, hwrap]
    rfl

/-- The port itself of an unwrap. -/
def unwrapPort (s : State) (p : Nat) : State :=
  if (portGet s p).broken && (portGet s p).trained && (portGet s (1 - p)).replay.isEmpty then
    portPut s p { portGet s p with broken := false } else s

theorem unwrap_eq (s : State) (p : Nat) :
    unwrap s p = harnSet (unwrapPort s p) fun h =>
      { h with wrapped := (portGet (unwrapPort s p) 0).broken || (portGet (unwrapPort s p) 1).broken } := rfl

theorem rung_unwrapPort (s : State) (p : Nat) : Rung s (unwrapPort s p) := by
  unfold unwrapPort
  split
  · exact rung_portPut s p _
  · exact Rung.refl s

theorem portGet_unwrap (s : State) (p q : Nat) : portGet (unwrap s p) q = portGet (unwrapPort s p) q := rfl

theorem linked_unwrap (s : State) (p : Nat) : Linked s (unwrap s p) := by
  rw [unwrap_eq]
  exact (rung_unwrapPort s p).linked.trans (linked_harnSet rfl)

theorem linked_joinWrap (s : State) : Linked s (joinWrap s) := by
  unfold joinWrap
  split
  · split
    · exact Linked.refl s
    · exact linked_wrapPort s _
  · exact Linked.refl s

theorem unwrap_gates (s : State) (p : Nat) : (unwrap s p).harn.gates = s.harn.gates := by
  have h : (unwrap s p).harn.gates = (unwrapPort s p).harn.gates := rfl
  rw [h, (rung_unwrapPort s p).harn]

theorem unwrap_reqs (s : State) (p : Nat) : (unwrap s p).harn.reqs = s.harn.reqs :=
  congrArg (·.reqs) (linked_unwrap s p).harn

theorem unwrap_replay (s : State) (p q : Nat) : (portGet (unwrap s p) q).replay = (portGet s q).replay := by
  rw [portGet_unwrap, unwrapPort]
  split
  · by_cases h : q = p
    · subst h
      rw [portGet_portPut]
    · rw [portGet_portPut_ne _ _ _ _ h]
  · rfl

end Sys2Proof.Machine
end

section
/-!
# Frames of the ring's links (13 R404 to R408)

Heartbeats, the lead's tick, status frames, link acknowledgements and resends, a lane or port that fails and one that trains
again.
-/
namespace Sys2Proof.Machine
open Sys2Proof Sys2Proof.Safety

/-- A frame stands on the wire of a state that was rung on from where it was sent. -/
theorem rung_sends {s t : State} {p k : Nat} {l : List Nat} (h : Rung (ringSend s p k l) t) :
    WireEv.ring (outPort s p) k l ∈ t.wire := h.wire (ringSend_sends s p k l)

theorem heartbeats_sent {s : State} (hring : onRing s = true) (hbeat : s.harn.beatsOff = false) :
    Rung s (heartbeatTransmit s) ∧ WireEv.ring (outPort s 0) 1 [s.harn.pos, 7] ∈ (heartbeatTransmit s).wire ∧
      WireEv.ring (outPort s 1) 1 [s.harn.pos, 7] ∈ (heartbeatTransmit s).wire := by
  have heq : heartbeatTransmit s = ringSend (ringSend s 0 1 [s.harn.pos, 7]) 1 1 [s.harn.pos, 7] :=
    if_neg (by simp [hring, hbeat])
  have heast := rung_ringSend (ringSend s 0 1 [s.harn.pos, 7]) 1 1 [s.harn.pos, 7]
  rw [heq]
  refine ⟨(rung_ringSend s 0 1 _).trans heast, rung_sends heast, ?_⟩
  rw [← outPort_ringSend s 0 1 [s.harn.pos, 7] 1]
  exact ringSend_sends _ _ _ _

theorem ringTick_sent {s : State} (hring : onRing s = true) (hbeat : s.harn.beatsOff = false) (hlead : isLead s = true) :
    ringTickTransmit s = ringSend s 0 2 [(dtOf s).toNat, s.time.rebaseCnt.toNat] := if_pos (by simp [hring, hbeat, hlead])

theorem status_sent {s : State} (hring : onRing s = true) : statusTransmit s = ringSend s 0 0x22 [s.harn.pos] :=
  if_pos hring

theorem tcxo_ringGot (s : State) (p : Nat) : (ringGot s p).tcxo = s.tcxo := congrArg (·.tcxo) (rung_ringGot s p).rest

/-- A position's heartbeat noted. -/
def beatNoted (s : State) (p o : Nat) : State :=
  harnSet (ringGot s p) fun h => { h with beats := tset 0 h.beats o (ringGot s p).tcxo }

theorem beatNoted_harn (s : State) (p o : Nat) :
    (beatNoted s p o).harn =
      { s.harn with ports := (beatNoted s p o).harn.ports, beats := tset 0 s.harn.beats o s.tcxo } := by
  have h := (rung_ringGot s p).harn
  have heq : (beatNoted s p o).harn =
      { (ringGot s p).harn with beats := tset 0 (ringGot s p).harn.beats o (ringGot s p).tcxo } := rfl
  rw [heq, tcxo_ringGot, h]

theorem harn_ports_beats {s u v : HarnSt} {b : Tab Nat} (hv : v = { u with ports := v.ports })
    (hu : u = { s with ports := u.ports, beats := b }) : v = { s with ports := v.ports, beats := b } :=
  hv.trans (by rw [hu])

theorem outPort_beatNoted (s : State) (p o q : Nat) : outPort (beatNoted s p o) q = outPort s q :=
  outPort_ringGot s p q

theorem beatNoted_recs (s : State) (p o : Nat) : (beatNoted s p o).recs = s.recs := (rung_ringGot s p).recs

/-- A heartbeat of a joined position is noted and goes on. -/
theorem heartbeat_heard {s : State} {p o h e : Nat} (hring : onRing s = true) (hp : p < 2) (ho : o < 8)
    (hother : o ≠ s.harn.pos) (hepoch : staleEpoch s e = false) (hsilent : inMask s.harn.silentM o = false)
    (hjoined : inMask s.harn.joinedM o = true) :
    heartbeat s p o h e =
      if h = 0 then beatNoted s p o else ringSend (beatNoted s p o) (1 - p) 1 [o, h - 1] := by
  have hgot := rung_ringGot s p
  have hrest : (ringGot s p).harn.silentM = s.harn.silentM ∧ (ringGot s p).harn.pos = s.harn.pos ∧
      (ringGot s p).harn.joinedM = s.harn.joinedM := by rw [hgot.harn]; exact ⟨rfl, rfl, rfl⟩
  obtain ⟨hsil, hpos, hjoin⟩ := hrest
  have hstale : staleEpoch (ringGot s p) e = false := by rw [staleEpoch, hgot.recs]; exact hepoch
  have hheard : posHeard (beatNoted s p o) o = beatNoted s p o := if_pos (by
    show inMask (ringGot s p).harn.joinedM o = true
    rw [hjoin, hjoined])
  unfold heartbeat
  rw [if_neg (by simp [hring]; omega)]
  dsimp only
  rw [if_neg (by rw [hpos, hstale, hsil, hsilent]; simpa using hother)]
  exact congrArg (fun v => if h = 0 then v else ringSend v (1 - p) 1 [o, h - 1]) hheard

theorem heartbeat_goesOn {s : State} {p o h e : Nat} (hring : onRing s = true) (hp : p < 2) (ho : o < 8)
    (hother : o ≠ s.harn.pos) (hepoch : staleEpoch s e = false) (hsilent : inMask s.harn.silentM o = false)
    (hjoined : inMask s.harn.joinedM o = true) :
    (heartbeat s p o h e).harn = { s.harn with
      ports := (heartbeat s p o h e).harn.ports, beats := tset 0 s.harn.beats o s.tcxo } ∧
    (heartbeat s p o h e).recs = s.recs ∧
    (0 < h → WireEv.ring (outPort s (1 - p)) 1 [o, h - 1] ∈ (heartbeat s p o h e).wire) := by
  have hsent := rung_ringSend (beatNoted s p o) (1 - p) 1 [o, h - 1]
  rw [heartbeat_heard hring hp ho hother hepoch hsilent hjoined]
  by_cases h0 : h = 0
  · rw [if_pos h0]
    exact ⟨beatNoted_harn s p o, beatNoted_recs s p o, fun hpos => absurd h0 (by omega)⟩
  · rw [if_neg h0, ← outPort_beatNoted s p o]
    have hharn := harn_ports_beats hsent.harn (beatNoted_harn s p o)
    exact ⟨hharn, hsent.recs.trans (beatNoted_recs s p o), fun _ => ringSend_sends _ _ _ _⟩

/-- A status frame kept by the lead. -/
def statusKept (s : State) (p : Nat) (e : HarnEnt) : State :=
  harnSet (ringGot s 1) fun h => { h with stat := (p, ⟨e, s.tcxo⟩) :: h.stat.filter fun x => x.1 != p }

theorem statusKept_harn (s : State) (p : Nat) (e : HarnEnt) :
    (statusKept s p e).harn = { s.harn with
      ports := (statusKept s p e).harn.ports, stat := (p, ⟨e, s.tcxo⟩) :: s.harn.stat.filter fun x => x.1 != p } := by
  have h := (rung_ringGot s 1).harn
  have heq : (statusKept s p e).harn =
      { (ringGot s 1).harn with stat := (p, ⟨e, s.tcxo⟩) :: (ringGot s 1).harn.stat.filter fun x => x.1 != p } := rfl
  rw [heq, h]

/-! ## Link acknowledgements -/

/-- A frame acknowledged on a port, its gate open. -/
def linkFreed (s : State) (p l : Nat) : State :=
  harnSet (portPut (cnt s (386 + p)) p { portGet s p with replay := (portGet s p).replay.filter fun f => decide (l < f.lseq) })
    fun h => { h with gates := h.gates.filter fun g => !(g.port == p && decide (g.lseq ≤ l)) }

theorem linkAck_eq {s : State} {p : Nat} (l : Nat) (hring : onRing s = true) (hp : p < 2) (hsync : s.harn.outState ≠ 1) :
    linkAck s p l = joinWrap (unwrap (unwrap (acksFree (linkFreed s p l)) 0) 1) := by
  have hout : (linkFreed s p l).harn.outState = s.harn.outState := by
    have h : (linkFreed s p l).harn.outState = (cnt s (386 + p)).harn.outState := rfl
    rw [h, cnt_harn]
  have hnone : syncSend (linkFreed s p l) = linkFreed s p l := if_pos (by rw [hout]; exact hsync)
  unfold linkAck
  rw [if_neg (by simp [hring]; omega)]
  dsimp only
  congr 4
  exact (ite_congr rfl (fun _ => hnone) fun _ => rfl).trans (ite_self _)

theorem linked_linkFreed (s : State) (p l : Nat) : Linked s (linkFreed s p l) :=
  ((rung_cnt s _).trans (rung_portPut _ p _)).linked.trans (linked_harnSet rfl)

theorem linkFreed_gates (s : State) (p l : Nat) :
    (linkFreed s p l).harn.gates = s.harn.gates.filter fun g => !(g.port == p && decide (g.lseq ≤ l)) := by
  have h : (linkFreed s p l).harn.gates =
      (cnt s (386 + p)).harn.gates.filter fun g => !(g.port == p && decide (g.lseq ≤ l)) := rfl
  rw [h, cnt_harn]

theorem linkFreed_port (s : State) (p l : Nat) :
    portGet (linkFreed s p l) p = { portGet s p with replay := (portGet s p).replay.filter fun f => decide (l < f.lseq) } :=
  portGet_portPut (cnt s (386 + p)) p { portGet s p with replay := (portGet s p).replay.filter fun f => decide (l < f.lseq) }

theorem portGet_acksFree (s : State) (p : Nat) : portGet (acksFree s) p = portGet s p := by
  rw [portGet, acksFree_harn, portGet]

theorem linkAck_frees {s : State} {p : Nat} (l : Nat) (hring : onRing s = true) (hp : p < 2) (hreqs : s.harn.reqs = [])
    (hsync : s.harn.outState ≠ 1) :
    (portGet (linkAck s p l) p).replay = (portGet s p).replay.filter (fun f => decide (l < f.lseq)) ∧
      (linkAck s p l).harn.gates = s.harn.gates.filter (fun g => !(g.port == p && decide (g.lseq ≤ l))) ∧
      (linkAck s p l).recs = s.recs := by
  have hnone : (unwrap (unwrap (acksFree (linkFreed s p l)) 0) 1).harn.reqs = [] := by
    rw [unwrap_reqs, unwrap_reqs, acksFree_harn, show (linkFreed s p l).harn.reqs = s.harn.reqs from
      congrArg (·.reqs) (linked_linkFreed s p l).harn, hreqs]
  have hstay : joinWrap (unwrap (unwrap (acksFree (linkFreed s p l)) 0) 1) =
      unwrap (unwrap (acksFree (linkFreed s p l)) 0) 1 := by rw [joinWrap, hnone]
  rw [linkAck_eq l hring hp hsync, hstay]
  refine ⟨?_, ?_, ?_⟩
  · rw [unwrap_replay, unwrap_replay, portGet_acksFree, linkFreed_port]
  · rw [unwrap_gates, unwrap_gates, acksFree_harn, linkFreed_gates]
  · exact (((linked_linkFreed s p l).trans (rung_acksFree _).linked).trans
      ((linked_unwrap _ 0).trans (linked_unwrap _ 1))).recs

/-! ## Resends, lanes and ports -/

/-- One frame of a replay buffer, sent again. -/
def resendFrame (p : Nat) (s : State) (f : RFrame) : State :=
  cnt (cnt { s with wire := .ring p f.kind f.args :: .ringHead p (ringHeader s f.kind f.lseq f.args) :: s.wire } (384 + p)) 388

theorem resendFrame_rung (p : Nat) (s : State) (f : RFrame) :
    Rung s (resendFrame p s f) ∧ (resendFrame p s f).harn = s.harn ∧
      WireEv.ring p f.kind f.args ∈ (resendFrame p s f).wire := by
  have hcnt : ∀ u : State, Rung u (cnt (cnt u (384 + p)) 388) := fun u => (rung_cnt u _).trans (rung_cnt _ _)
  unfold resendFrame
  refine ⟨(rung_wire s [_, _]).trans (hcnt _), ?_, (hcnt _).wire (List.mem_cons_self ..)⟩
  rw [cnt_harn, cnt_harn]

theorem resendFrames (p : Nat) (l : List RFrame) (s : State) :
    Rung s (l.foldl (resendFrame p) s) ∧ (l.foldl (resendFrame p) s).harn = s.harn ∧
      ∀ f ∈ l, WireEv.ring p f.kind f.args ∈ (l.foldl (resendFrame p) s).wire := by
  induction l generalizing s with
  | nil => exact ⟨Rung.refl s, rfl, fun _ hf => absurd hf (List.not_mem_nil)⟩
  | cons f l ih =>
    obtain ⟨hrung, hharn, hsent⟩ := resendFrame_rung p s f
    obtain ⟨hrest, hkept, hall⟩ := ih (resendFrame p s f)
    refine ⟨hrung.trans hrest, hkept.trans hharn, fun g hg => ?_⟩
    rcases List.mem_cons.mp hg with rfl | hg
    · exact hrest.wire hsent
    · exact hall g hg

theorem replayResend_harn (s : State) (p : Nat) : Rung s (replayResend s p) ∧ (replayResend s p).harn = s.harn := by
  unfold replayResend
  split
  · exact ⟨Rung.refl s, rfl⟩
  · obtain ⟨hrung, hharn, -⟩ := resendFrames p (portGet s p).replay s
    exact ⟨hrung, hharn⟩

theorem replayResend_sends {s : State} {p : Nat} (hring : onRing s = true) (hp : p < 2) :
    ∀ f ∈ (portGet s p).replay, WireEv.ring p f.kind f.args ∈ (replayResend s p).wire := by
  have heq : replayResend s p = (portGet s p).replay.foldl (resendFrame p) s := if_neg (by simp [hring]; omega)
  rw [heq]
  exact (resendFrames p _ s).2.2

theorem laneFailure_off {s : State} {n : Nat} (hharn : inHarness s = true) (hn : n < 4)
    (hst : (fnGet s (0x0500 + n)).st ≠ .off) :
    (laneFailure s n).funcs = (fnPut s (0x0500 + n) Fn.idle).funcs ∧ (laneFailure s n).harn = s.harn ∧
      (laneFailure s n).recs = s.recs := by
  have heq : laneFailure s n = replayResend (cnt (ringLog (fnPut s (0x0500 + n) Fn.idle) (0x0500 + n) 0) 389) (n / 2) :=
    if_neg (by simp [hharn, hst]; omega)
  have hlog := (rung_ringLog (fnPut s (0x0500 + n) Fn.idle) (0x0500 + n) 0).trans (rung_cnt _ 389)
  obtain ⟨hsent, hkept⟩ := replayResend_harn (cnt (ringLog (fnPut s (0x0500 + n) Fn.idle) (0x0500 + n) 0) 389) (n / 2)
  rw [heq]
  refine ⟨(wireRest_funcs hsent.rest).trans (wireRest_funcs hlog.rest), ?_, hsent.recs.trans hlog.recs⟩
  rw [hkept, cnt_harn, ringLog, logEvent_harn]
  rfl

theorem portRetrain_trains {s : State} {p : Nat} (hring : onRing s = true) (hp : p < 2)
    (hbroken : (portGet s p).broken = true) :
    (portGet (portRetrain s p) p).trained = true ∧
      (portGet (portRetrain s p) p).broken = !(portGet s (1 - p)).replay.isEmpty ∧ (portRetrain s p).recs = s.recs := by
  have heq : portRetrain s p = ringLog (unwrap (portPut s p { portGet s p with trained := true }) p) (0x0400 + p) 0 :=
    if_neg (by simp [hring, hbroken]; omega)
  have hlinked := ((rung_portPut s p { portGet s p with trained := true }).linked.trans (linked_unwrap _ p)).trans
    (rung_ringLog _ (0x0400 + p) 0).linked
  have hother : portGet (portPut s p { portGet s p with trained := true }) (1 - p) = portGet s (1 - p) :=
    portGet_portPut_ne _ _ _ _ (by omega)
  rw [heq]
  refine ⟨?_, ?_, hlinked.recs⟩ <;> rw [portGet_ringLog, portGet_unwrap, unwrapPort, hother, portGet_portPut, hbroken]
  · split
    · rw [portGet_portPut]
    · rw [portGet_portPut]
  · by_cases h : (portGet s (1 - p)).replay.isEmpty = true
    · rw [if_pos (by simpa using h), portGet_portPut, h]
      rfl
    · rw [if_neg (by simpa using h), portGet_portPut, hbroken, Bool.eq_false_iff.mpr h]
      rfl

end Sys2Proof.Machine
end

section
open Sys2Proof Sys2Proof.Machine Sys2Proof.Safety

/-- Settles O56: what a link sends is on the wire and nothing but its port has moved (R404 to R407); a broken port's frames go
out by the other, and it unwraps once that one holds none (R408). -/
theorem ringLinksCarried : Obligations.RingLinksCarried := by
  refine ⟨fun s ha hring => ⟨fun hbeat => ?_, fun hbeat hlead => ?_, ?_⟩,
    fun s p o h e ha hring hp ho hother hepoch hsilent hjoined => ?_, fun s p e ha hring hlead hp => ?_,
    fun s p l ha hring hp hreqs hsync => ?_, fun s p ha hring hp => ?_, fun s n ha hharn hn hst => ?_,
    fun s p ha hring hp hbroken => ?_, fun s p ha hring hp hbroken => ?_⟩
  · obtain ⟨hrung, hwest, heast⟩ := heartbeats_sent hring hbeat
    exact ⟨_, exec_heartbeatTransmit s ha, hwest, heast, hrung.harn, hrung.recs⟩
  · have h := rung_ringSend s 0 2 [(dtOf s).toNat, s.time.rebaseCnt.toNat]
    refine ⟨_, exec_ringTickTransmit s ha, ?_⟩
    rw [ringTick_sent hring hbeat hlead]
    exact ⟨ringSend_sends s 0 2 _, h.harn, wireRest_time h.rest⟩
  · have h := rung_ringSend s 0 0x22 [s.harn.pos]
    refine ⟨_, exec_statusFrameTransmit s ha, ?_⟩
    rw [status_sent hring]
    exact ⟨ringSend_sends s 0 0x22 _, h.harn, h.recs⟩
  · obtain ⟨hharn, hrecs, hsent⟩ := heartbeat_goesOn hring hp ho hother hepoch hsilent hjoined
    exact ⟨_, exec_heartbeat p o h e s ha, hharn, hrecs, hsent⟩
  · have heq : statusRx s p e = statusKept s p e := if_neg (by simp [hring, hlead]; omega)
    refine ⟨_, exec_status p e s ha, ?_⟩
    rw [heq]
    exact ⟨statusKept_harn s p e, (rung_ringGot s 1).recs⟩
  · obtain ⟨hreplay, hgates, hrecs⟩ := linkAck_frees l hring hp hreqs hsync
    exact ⟨_, exec_linkAck p l s ha, hreplay, hgates, hrecs⟩
  · obtain ⟨hrung, hharn⟩ := replayResend_harn s p
    exact ⟨_, exec_replayResend p s ha, replayResend_sends hring hp, hharn, hrung.recs⟩
  · obtain ⟨hfuncs, hkept, hrecs⟩ := laneFailure_off hharn hn hst
    refine ⟨_, exec_laneFailure n s ha, ?_, fun id hid => ?_, hkept, hrecs⟩
    · rw [fnGet, wmUpdate_funcs, hfuncs]
      exact fnGet_fnPut _ _ _
    · rw [fnGet, wmUpdate_funcs, hfuncs]
      exact fnGet_fnPut_ne _ _ _ _ hid
  · obtain ⟨hport, hwrap, hall⟩ := wrapPort_sends (s := s) hp
    have heq : portBroken s p = wrapPort s p := if_neg (by simp [hring, hbroken]; omega)
    refine ⟨_, exec_portBroken p s ha, ?_⟩
    rw [heq]
    exact ⟨congrArg HPort.broken hport, congrArg HPort.replay hport, hwrap, hall, (linked_wrapPort s p).recs⟩
  · obtain ⟨htrained, hb, hrecs⟩ := portRetrain_trains hring hp hbroken
    exact ⟨_, exec_portRetrain p s ha, htrained, hb, hrecs⟩

end

section
/-!
# The pair judged anew, and positions joined (13 R409 to R416, R423)

Judging the outbound pair changes gates, the pair and the ports alone. A join moves the positions, their peers and heartbeats,
which nothing it sets off touches again.
-/
namespace Sys2Proof.Machine
open Sys2Proof Sys2Proof.Safety

/-! ## The outbound pair -/

theorem linked_gatesOff (s : State) : Linked s (gatesOff s) := by
  unfold gatesOff
  exact (linked_harnSet rfl).trans (rung_acksFree _).linked

theorem rung_heldEnts (l : List JEnt) (s : State) :
    Rung s (l.foldl (fun s e => ringSend s 0 0x15 [entKind e, 0, 0]) s) :=
  foldl_rung _ l s fun u _ => rung_ringSend u _ _ _

theorem linked_syncSend (s : State) : Linked s (syncSend s) := by
  unfold syncSend
  split
  · exact Linked.refl s
  · split
    · exact Linked.refl s
    · next e t _ =>
      have hsent := (rung_ringSend s 0 0x15 [0, e, (recGet s e).writeSeq.toNat]).linked
      have hpos : Linked s (harnSet (ringSend s 0 0x15 [0, e, (recGet s e).writeSeq.toNat])
          fun h => { h with syncPos := h.syncPos + 1, syncLeft := t.length }) := hsent.trans (linked_harnSet rfl)
      dsimp only
      split
      · exact hpos.trans (rung_heldEnts _ _).linked
      · exact hpos

theorem linked_syncStart (s : State) (sh : Nat) : Linked s (syncStart s sh) := by
  have hset : Linked s (harnSet s fun h => { h with
      outState := 1, outReason := 0, shadow := some sh, syncPos := 0, syncLeft := (ownRecs s).length }) := linked_harnSet rfl
  unfold syncStart
  dsimp only
  split
  · exact hset.trans (rung_heldEnts _ _).linked
  · exact hset.trans (linked_syncSend _)

theorem linked_free (s : State) (n : Nat) : Linked s { s with free := n } := ⟨rfl, rfl, List.Subset.refl _⟩

theorem linked_pinReason (s : State) : Linked s (pinReason s).2 := linked_free s _

theorem linked_peerReason (s : State) (sh : Nat) : Linked s (peerReason s sh).2 := by
  unfold peerReason
  split
  · split
    · exact Linked.refl s
    · split
      · exact Linked.refl s
      · exact linked_pinReason s
  · have hfree := linked_free s (s.free + 1)
    dsimp only [takeFree]
    split
    · exact hfree
    · exact hfree.trans (linked_pinReason _)

theorem linked_mirrorReason (s : State) : Linked s (mirrorReason s).2 := by
  unfold mirrorReason
  split
  · exact Linked.refl s
  · split
    · exact Linked.refl s
    · have h := linked_peerReason s
      dsimp only
      split
      · exact h _
      · split <;> exact h _

theorem linked_mirrorOff (s : State) (r : Nat) : Linked s (mirrorOff s r) := by
  unfold mirrorOff
  split
  · exact Linked.refl s
  · exact ((linked_harnSet rfl).trans (linked_gatesOff _)).trans (rung_ringLog _ _ _).linked

theorem linked_mirrorEval (s : State) : Linked s (mirrorEval s) := by
  unfold mirrorEval
  have hreason := linked_mirrorReason s
  generalize mirrorReason s = x at hreason ⊢
  obtain ⟨r, u⟩ := x
  dsimp only at hreason ⊢
  split
  · exact hreason.trans (linked_mirrorOff u r)
  · split
    · exact hreason
    · split
      · exact hreason
      · exact hreason.trans (((linked_gatesOff u).trans (linked_syncStart _ _)).trans (rung_ringLog _ _ _).linked)

/-! ## Masks of positions -/

theorem inMask_iff (m p : Nat) : inMask m p = m.testBit p := by
  rw [inMask, Nat.testBit_eq_decide_div_mod_eq]
  rfl

theorem inMask_withBit (m p : Nat) : inMask (withBit m p) p = true := by
  unfold withBit
  split
  · assumption
  · next h =>
    rw [inMask, beq_iff_eq] at h ⊢
    rw [Nat.add_div_right _ (Nat.two_pow_pos p)]
    omega

theorem inMask_withoutBit (m p : Nat) : inMask (withoutBit m p) p = false := by
  unfold withoutBit
  split
  · next h =>
    rw [inMask, beq_iff_eq] at h
    have hdiv := Nat.sub_mul_div m (2 ^ p) 1
    rw [Nat.mul_one] at hdiv
    rw [inMask, hdiv, beq_eq_false_iff_ne]
    omega
  · next h => exact Bool.eq_false_iff.mpr h

end Sys2Proof.Machine
end

section
/-!
# Joining a ring (13 R409 to R411, R422)

What a request, a JOIN, a grant, a refusal and an OWNER frame leave behind.
-/
namespace Sys2Proof.Machine
open Sys2Proof Sys2Proof.Safety

/-- Who has joined, who is silent, what is known of them and when they were last heard. -/
def ringView (h : HarnSt) : Nat × Nat × List (Nat × JoinReq) × Tab Nat := (h.joinedM, h.silentM, h.peers, h.beats)

theorem Linked.view {s t : State} (h : Linked s t) : ringView t.harn = ringView s.harn := by
  have hview := congrArg ringView h.harn
  exact hview

/-! ## Requests -/

theorem joinRequest_eq {s : State} {d low : Nat} (hring : onRing s = true) (hlow : 10 ≤ low) (hd : d < 2)
    (hnew : s.harn.reqs.contains d = false) :
    joinRequest s d low = joinWrap (harnSet s fun h => { h with reqs := reqsWith s d }) :=
  if_neg (by simp only [hring, hnew]; simp; omega)

theorem joinRequest_short (s : State) (d : Nat) {low : Nat} (h : low < 10) : joinRequest s d low = s :=
  if_pos (by simp [h])

theorem joinWrap_reqs (s : State) : (joinWrap s).harn.reqs = s.harn.reqs := congrArg (·.reqs) (linked_joinWrap s).harn

/-- The side that waits with nothing unacknowledged is wrapped, or was. -/
theorem joinWrap_broken {s : State} {d : Nat} (hd : d < 2) (hreqs : s.harn.reqs = [d]) (hreplay : (portGet s d).replay = []) :
    (portGet (joinWrap s) d).broken = true := by
  rw [joinWrap, hreqs]
  dsimp only
  split
  · next h => simpa [hreplay] using h
  · exact congrArg HPort.broken (wrapPort_sends hd).1

/-! ## JOIN -/

/-- A JOIN heard: counted, its request done with. -/
def joinHeard (s : State) : State := harnSet (ringGot s 1) fun h => { h with reqs := h.reqs.drop 1 }

theorem joinHeard_view (s : State) : ringView (joinHeard s).harn = ringView s.harn := by
  have h : ringView (joinHeard s).harn = ringView (ringGot s 1).harn := rfl
  rw [h, (rung_ringGot s 1).harn]
  rfl

theorem joinHeard_ringId (s : State) : (joinHeard s).harn.ringId = s.harn.ringId := by
  have h : (joinHeard s).harn.ringId = (ringGot s 1).harn.ringId := rfl
  rw [h, (rung_ringGot s 1).harn]

theorem joinHeard_rest (s : State) : wireRest (joinHeard s) = wireRest s := (rung_ringGot s 1).rest

theorem joinHeard_assign (s : State) (q : JoinReq) : joinAssign (joinHeard s) q = joinAssign s q := by
  have hjoined : (joinHeard s).harn.joinedM = s.harn.joinedM := congrArg (·.1) (joinHeard_view s)
  have hfree : posFree (joinHeard s) = posFree s := funext fun p => by rw [posFree, hjoined, posFree]
  rw [joinAssign, joinAssign, hjoined, joinHeard_ringId, hfree]

theorem outPort_joinHeard (s : State) (p : Nat) : outPort (joinHeard s) p = outPort s p := outPort_ringGot s 1 p

/-- A JOIN that is refused. -/
def joinRefused (s : State) (e : Nat) : State := if isLead s then ringSend (joinHeard s) 0 0x20 [2, e] else joinHeard s

theorem joinRx_refused {s : State} {q : JoinReq} {e : Nat} (hring : onRing s = true) (h : joinAssign s q = .inl e) :
    joinRx s q = joinWrap (ringLog (joinRefused s e) 0xFF e) := by
  unfold joinRx
  rw [if_neg (by simp [hring])]
  dsimp only
  change (match joinAssign (joinHeard s) q with
    | .inl e => joinWrap (ringLog (if isLead s = true then ringSend (joinHeard s) 0 0x20 [2, e] else joinHeard s) 0xFF e)
    | .inr p => _) = _
  rw [joinHeard_assign, h]
  rfl

theorem rung_joinRefused (s : State) (e : Nat) : Rung (joinHeard s) (joinRefused s e) := by
  unfold joinRefused
  split
  · exact rung_ringSend _ _ _ _
  · exact Rung.refl _

/-- The position taken, before the pair is judged. -/
def posTaken (s : State) (p : Nat) (q : JoinReq) : State :=
  harnSet s fun h =>
    { h with joinedM := withBit h.joinedM p, silentM := withoutBit h.silentM p, beats := tset 0 h.beats p s.tcxo,
             peers := (p, q) :: h.peers.filter (fun x => x.1 != p), caps := tset 0 h.caps p (capOfMib q.dramSize) }

def posServed (s : State) (p : Nat) : State :=
  match serverOf s p with
  | some _ => s
  | none => { s with recs := { s.recs with owner := lset s.recs.owner p (p, true) } }

def leadBack (s : State) (p : Nat) : State := if p = 0 then harnSet s fun h => { h with acting := false } else s

theorem joinTake_eq (s : State) (p : Nat) (q : JoinReq) :
    joinTake s p q = mirrorEval (ringLog (leadBack (posServed (posTaken s p q) p) p) p 1) := rfl

theorem posServed_harn (s : State) (p : Nat) : (posServed s p).harn = s.harn := by
  unfold posServed
  split <;> rfl

theorem leadBack_view (s : State) (p : Nat) : ringView (leadBack s p).harn = ringView s.harn := by
  unfold leadBack
  split <;> rfl

theorem joinTake_view (s : State) (p : Nat) (q : JoinReq) :
    ringView (joinTake s p q).harn = ringView (posTaken s p q).harn := by
  rw [joinTake_eq, (linked_mirrorEval _).view, (rung_ringLog _ p 1).linked.view, leadBack_view, posServed_harn]

theorem joinRx_taken {s : State} {q : JoinReq} {p : Nat} (hring : onRing s = true) (h : joinAssign s q = .inr p) :
    joinRx s q = joinWrap (if isLead s then
      ringSend (joinTake (joinHeard s) p q) 0 0x20 [1, p, (serverOf (joinTake (joinHeard s) p q) p).getD 0xFF]
      else joinTake (joinHeard s) p q) := by
  unfold joinRx
  rw [if_neg (by simp [hring])]
  dsimp only
  change (match joinAssign (joinHeard s) q with
    | .inl e => _
    | .inr p => joinWrap (if isLead s = true then
        ringSend (joinTake (joinHeard s) p q) 0 0x20 [1, p, (serverOf (joinTake (joinHeard s) p q) p).getD 0xFF]
        else joinTake (joinHeard s) p q)) = _
  rw [joinHeard_assign, h]

theorem joinRx_view {s : State} {q : JoinReq} {p : Nat} (hring : onRing s = true) (h : joinAssign s q = .inr p) :
    ringView (joinRx s q).harn = ringView (posTaken (joinHeard s) p q).harn := by
  rw [joinRx_taken hring h, (linked_joinWrap _).view, ← joinTake_view]
  split
  · exact (rung_ringSend _ _ _ _).linked.view
  · rfl

theorem outPort_lt (s : State) {p : Nat} (h : p < 2) : outPort s p = 0 ∨ outPort s p = 1 := by
  rw [outPort]
  split <;> omega

/-- What left by either port stands on the wire as one of the two. -/
theorem sent_either {o k : Nat} {l : List Nat} {w : List WireEv} (ho : o = 0 ∨ o = 1) (h : WireEv.ring o k l ∈ w) :
    [WireEv.ring 0 k l, WireEv.ring 1 k l].any (w.contains ·) = true := by
  rcases ho with rfl | rfl <;> simp [h]

theorem joinRx_answers {s : State} {q : JoinReq} {p : Nat} (hring : onRing s = true) (hlead : isLead s = true)
    (h : joinAssign s q = .inr p) :
    ∃ w, [WireEv.ring 0 0x20 [1, p, w], WireEv.ring 1 0x20 [1, p, w]].any ((joinRx s q).wire.contains ·) = true := by
  rw [joinRx_taken hring h, if_pos hlead]
  generalize joinTake (joinHeard s) p q = u
  exact ⟨_, sent_either (outPort_lt u (by omega)) ((linked_joinWrap _).wire (ringSend_sends _ _ _ _))⟩

theorem joinRx_position {s : State} {q : JoinReq} {p : Nat} (hring : onRing s = true) (h : joinAssign s q = .inr p) :
    inMask (joinRx s q).harn.joinedM p = true ∧ inMask (joinRx s q).harn.silentM p = false ∧
      (p, q) ∈ (joinRx s q).harn.peers ∧ tget 0 (joinRx s q).harn.beats p = s.tcxo := by
  have hview := joinRx_view hring h
  have hnow : (joinHeard s).tcxo = s.tcxo := tcxo_ringGot s 1
  have hjoined : (joinRx s q).harn.joinedM = withBit (joinHeard s).harn.joinedM p := congrArg (·.1) hview
  have hsilent : (joinRx s q).harn.silentM = withoutBit (joinHeard s).harn.silentM p := congrArg (·.2.1) hview
  have hpeers : (joinRx s q).harn.peers = (p, q) :: (joinHeard s).harn.peers.filter (fun x => x.1 != p) :=
    congrArg (·.2.2.1) hview
  have hbeats : (joinRx s q).harn.beats = tset 0 (joinHeard s).harn.beats p (joinHeard s).tcxo := congrArg (·.2.2.2) hview
  rw [hjoined, hsilent, hpeers, hbeats, hnow]
  exact ⟨inMask_withBit _ p, inMask_withoutBit _ p, List.mem_cons_self .., tget_tset_same _ _ _ _⟩

theorem joinRx_keeps {s : State} {q : JoinReq} {e : Nat} (hring : onRing s = true) (h : joinAssign s q = .inl e) :
    (joinRx s q).harn.joinedM = s.harn.joinedM ∧ (joinRx s q).harn.peers = s.harn.peers ∧ (joinRx s q).recs = s.recs ∧
      (isLead s = true → WireEv.ring (outPort s 0) 0x20 [2, e] ∈ (joinRx s q).wire) := by
  have hend : Linked (joinRefused s e) (joinRx s q) := by
    rw [joinRx_refused hring h]
    exact (rung_ringLog _ _ _).linked.trans (linked_joinWrap _)
  have hall := (rung_joinRefused s e).linked.trans hend
  have hview := hall.view.trans (joinHeard_view s)
  refine ⟨congrArg (·.1) hview, congrArg (·.2.2.1) hview, hall.recs.trans (wireRest_recs (joinHeard_rest s)), fun hlead => ?_⟩
  refine hend.wire ?_
  rw [joinRefused, if_pos hlead, ← outPort_joinHeard]
  exact ringSend_sends _ _ _ _

/-! ## The chip that joins -/

/-- A position granted, before the pair is judged. -/
def posGranted (s : State) (pos server : Nat) (served : Bool) (ringId : BitVec 64) : State :=
  let u := harnSet s fun h =>
    { h with pos := pos, nvPos := some (ringId, pos), ringId := ringId, joined := true, phase := 4, joinErr := 0,
             joinedM := withBit h.joinedM pos }
  { u with recs := { u.recs with
      owner := lset u.recs.owner pos (if served && server != pos then (server, true) else (pos, true)) } }

theorem joinGrant_eq {s : State} {p : Nat} (v : Nat) (served : Bool) (id : BitVec 64) (hphase : s.harn.phase = 3) (hp : p < 8) :
    joinGrant s p v served id = mirrorEval (ringLog (posGranted s p v served id) p 1) := by
  unfold joinGrant
  rw [if_neg (by omega)]
  rfl

theorem joinGrant_linked {s : State} {p : Nat} (v : Nat) (served : Bool) (id : BitVec 64) (hphase : s.harn.phase = 3)
    (hp : p < 8) : Linked (posGranted s p v served id) (joinGrant s p v served id) := by
  rw [joinGrant_eq v served id hphase hp]
  exact (rung_ringLog _ _ _).linked.trans (linked_mirrorEval _)

theorem serverOf_of {s : State} {p v : Nat} (h : lget (0, false) s.recs.owner p = (v, true)) : serverOf s p = some v := by
  rw [serverOf, h]

theorem posGranted_server {s : State} {p : Nat} (v : Nat) (served : Bool) (id : BitVec 64)
    (hp : p < s.recs.owner.length) :
    serverOf (posGranted s p v served id) p = some (if served then v else p) := by
  have h : lget (0, false) (posGranted s p v served id).recs.owner p =
      if served && v != p then (v, true) else (p, true) := lget_lset_same _ _ _ _ hp
  by_cases hv : v = p
  · subst hv
    rw [serverOf, h]
    simp
  · cases served <;> rw [serverOf, h] <;> simp [hv]

theorem serverOf_recs {s t : State} (h : t.recs = s.recs) (p : Nat) : serverOf t p = serverOf s p := by
  rw [serverOf, h, serverOf]

theorem joinGrant_gives {s : State} {p : Nat} (v : Nat) (served : Bool) (id : BitVec 64) (hphase : s.harn.phase = 3)
    (hp : p < 8) (hlen : p < s.recs.owner.length) :
    let t := joinGrant s p v served id
    t.harn.pos = p ∧ t.harn.joined = true ∧ t.harn.phase = 4 ∧ t.harn.ringId = id ∧ t.harn.nvPos = some (id, p) ∧
      t.harn.joinErr = 0 ∧ serverOf t p = some (if served then v else p) ∧ t.recs.tab = s.recs.tab := by
  intro t
  have hlinked : Linked (posGranted s p v served id) t := joinGrant_linked v served id hphase hp
  have hharn := hlinked.harn
  exact ⟨congrArg (·.pos) hharn, congrArg (·.joined) hharn, congrArg (·.phase) hharn, congrArg (·.ringId) hharn,
    congrArg (·.nvPos) hharn, congrArg (·.joinErr) hharn,
    (serverOf_recs hlinked.recs p).trans (posGranted_server v served id hlen), congrArg (·.tab) hlinked.recs⟩

/-- A join refused, before it is logged. -/
def joinDenied (s : State) (e : Nat) : State :=
  let u := harnSet s fun h => { h with phase := 5, joinErr := e % 8, joined := false }
  portPut (portPut u 0 HPort.idle) 1 HPort.idle

theorem joinRefuse_eq {s : State} (e : Nat) (hphase : s.harn.phase = 3) :
    joinRefuse s e = ringLog (joinDenied s e) 0xFF e := by
  unfold joinRefuse
  rw [if_neg (by simp [hphase])]
  rfl

/-- The ports and lanes up. -/
def lanesOn (s : State) : State :=
  [0x0400, 0x0401, 0x0500, 0x0501, 0x0502, 0x0503].foldl (fun s id => fnPut s id ⟨.on, false, false, []⟩) s

/-- Both ports trained anew. -/
def portsTrained (s : State) : State :=
  portPut (portPut s 0 { HPort.idle with trained := true }) 1 { HPort.idle with trained := true }

/-- The links trained, before JOIN goes out. -/
def linksTrained (s : State) : State := harnSet (portsTrained (lanesOn s)) fun h => { h with phase := 3 }

theorem lanesOn_kept (s : State) : (lanesOn s).regs = s.regs ∧ (lanesOn s).harn = s.harn ∧ (lanesOn s).recs = s.recs ∧
    (lanesOn s).keys = s.keys :=
  ⟨foldl_kept _ (·.regs) _ s fun _ _ _ => rfl, foldl_kept _ (·.harn) _ s fun _ _ _ => rfl,
    foldl_kept _ (·.recs) _ s fun _ _ _ => rfl, foldl_kept _ (·.keys) _ s fun _ _ _ => rfl⟩

theorem joinArgs_congr {s t : State} (hregs : t.regs = s.regs) (hpos : t.harn.nvPos = s.harn.nvPos)
    (hrecs : t.recs = s.recs) (hkeys : t.keys = s.keys) : joinArgs t = joinArgs s := by
  simp only [joinArgs, regFld, regGet, rootKcvs, hregs, hpos, hrecs, hkeys]

theorem joinArgs_portsTrained (s : State) : joinArgs (portsTrained (lanesOn s)) = joinArgs s := by
  obtain ⟨hregs, hharn, hrecs, hkeys⟩ := lanesOn_kept s
  exact joinArgs_congr hregs (congrArg (·.nvPos) hharn) hrecs hkeys

theorem harnessTrained_eq {s : State} (hmode : s.pins.harnMode = 1) (hreset : s.pins.resetLow = false)
    (hphase : s.harn.phase = 1) : harnessTrained s = ringSend (linksTrained s) 0 0x20 (joinArgs s) := by
  rw [← joinArgs_portsTrained]
  exact if_neg (by simp [hmode, hreset, hphase])

theorem linksTrained_port (s : State) {p : Nat} (hp : p = 0 ∨ p = 1) :
    portGet (linksTrained s) p = { HPort.idle with trained := true } := by
  have h : portGet (linksTrained s) p = portGet (portsTrained (lanesOn s)) p := rfl
  rw [h, portsTrained]
  rcases hp with rfl | rfl
  · rw [portGet_portPut_ne _ _ _ _ (by omega), portGet_portPut]
  · rw [portGet_portPut]

theorem linksTrained_on (s : State) :
    ∀ id ∈ [0x0400, 0x0401, 0x0500, 0x0501, 0x0502, 0x0503], (fnGet (linksTrained s) id).st = .on := by
  have h : (linksTrained s).funcs = (lanesOn s).funcs := rfl
  have hlater : ∀ (l : List Nat) (u : State) (id : Nat), (fnGet u id).st = .on →
      (fnGet (l.foldl (fun s id => fnPut s id ⟨.on, false, false, []⟩) u) id).st = .on := fun l => by
    induction l with
    | nil => exact fun _ _ h => h
    | cons k l ih =>
      refine fun u id hon => ih _ id ?_
      by_cases hk : id = k
      · rw [hk, fnGet_fnPut]
      · rw [fnGet_fnPut_ne _ _ _ _ hk, hon]
  have hon : ∀ (l : List Nat) (u : State), ∀ id ∈ l,
      (fnGet (l.foldl (fun s id => fnPut s id ⟨.on, false, false, []⟩) u) id).st = .on := fun l => by
    induction l with
    | nil => exact fun _ _ hid => absurd hid (List.not_mem_nil)
    | cons k l ih =>
      intro u id hid
      rcases List.mem_cons.mp hid with rfl | hid
      · exact hlater l _ id (by rw [fnGet_fnPut])
      · exact ih _ id hid
  intro id hid
  rw [fnGet, h]
  exact hon _ s id hid

theorem harnessTrained_gives {s : State} (hmode : s.pins.harnMode = 1) (hreset : s.pins.resetLow = false)
    (hphase : s.harn.phase = 1) :
    let t := harnessTrained s
    t.harn.phase = 3 ∧ (portGet t 0).trained = true ∧ (portGet t 1).trained = true ∧
      (∀ id ∈ [0x0400, 0x0401, 0x0500, 0x0501, 0x0502, 0x0503], (fnGet t id).st = .on) ∧
      WireEv.ring 0 0x20 (joinArgs s) ∈ t.wire ∧ t.recs = s.recs := by
  intro t
  have heq : t = ringSend (linksTrained s) 0 0x20 (joinArgs s) := harnessTrained_eq hmode hreset hphase
  have hsent := rung_ringSend (linksTrained s) 0 0x20 (joinArgs s)
  have hout : outPort (linksTrained s) 0 = 0 := by
    rw [outPort, linksTrained_port s (.inl rfl)]
    rfl
  have htrained : ∀ p, p = 0 ∨ p = 1 → (portGet t p).trained = true := fun p hp => by
    rw [heq, ringSend_trained, linksTrained_port s hp]
  refine ⟨?_, htrained 0 (.inl rfl), htrained 1 (.inr rfl), fun id hid => ?_, ?_, ?_⟩
  · rw [heq, ringSend_harn_phase]
    rfl
  · rw [fnGet, heq, ringSend_funcs]
    exact linksTrained_on s id hid
  · have h := ringSend_sends (linksTrained s) 0 0x20 (joinArgs s)
    rw [hout] at h
    rw [heq]
    exact h
  · rw [heq, hsent.recs]
    exact (lanesOn_kept s).2.2.1

/-! ## Owners -/

/-- The owner a frame names, taken down. -/
def ownerHeard (s : State) (p v e : Nat) (valid : Bool) : State :=
  ownerPut { ringGot s 1 with recs := { (ringGot s 1).recs with epoch := BitVec.ofNat 8 e } } p v valid

theorem ownerRx_eq {s : State} {p e : Nat} (v : Nat) (valid : Bool) (hring : onRing s = true) (hp : p < 8)
    (hepoch : staleEpoch s e = false) :
    ownerRx s p v valid e = mirrorEval (if s.harn.served = some p ∧ v = p ∧ valid = true then
      giveBack (ownerHeard s p v e valid) p else ownerHeard s p v e valid) := by
  have hserved : (ringGot s 1).harn.served = s.harn.served := by rw [(rung_ringGot s 1).harn]
  rw [← hserved]
  unfold ownerRx
  rw [if_neg (by simp [hring, hepoch]; omega)]
  rfl

theorem ownerHeard_recs (s : State) (p v e : Nat) (valid : Bool) :
    (ownerHeard s p v e valid).recs =
      { s.recs with owner := lset s.recs.owner p (v, valid), epoch := BitVec.ofNat 8 e } := by
  have h : (ownerHeard s p v e valid).recs =
      { (ringGot s 1).recs with owner := lset (ringGot s 1).recs.owner p (v, valid), epoch := BitVec.ofNat 8 e } := rfl
  rw [h, (rung_ringGot s 1).recs]

theorem ownerHeard_owner {s : State} {p : Nat} (v e : Nat) (valid : Bool) (hp : p < s.recs.owner.length) :
    lget (0, false) (ownerHeard s p v e valid).recs.owner p = (v, valid) := by
  rw [ownerHeard_recs]
  exact lget_lset_same _ _ _ _ hp

/-- What a chip keeps of owners while a position goes back: who serves whom, and under which epoch. -/
def ownView (s : State) : List (Nat × Bool) × BitVec 8 := (s.recs.owner, s.recs.epoch)

/-- A descriptor that waits for an endpoint of a position which goes back. -/
def waitsFor (p : Nat) (f : Flight) : Bool :=
  !f.ended && dTc f.raw != 0 && f.stage == .none &&
    (match opInfo (dOpcode f.raw) with | some o => namesEid o f.raw | none => false) && eidHome (dEid f.raw) == p

def handBack (p : Nat) (s : State) (f : Flight) : State :=
  if waitsFor p f then reject s f stNotOwner (BitVec.ofNat 128 p) else s

/-- The descriptors answered, the records gone and the held readings in the delivery queue. -/
def handedBack (s : State) (p : Nat) : State :=
  let u := s.host.flights.foldl (handBack p) s
  let v : State := { u with recs := { u.recs with tab := u.recs.tab.filter fun x => eidHome x.1 != p } }
  v.harn.holdRd.foldl tkoReading v

theorem giveBack_eq (s : State) (p : Nat) : giveBack s p =
    unsolicited (harnSet (handedBack s p) fun h => { h with
      served := none, inState := 2, inPos := p,
      mRecs := (s.host.flights.foldl (handBack p) s).recs.tab.filter fun x => eidHome x.1 == p, holdRd := [], holdRaw := [] })
      0x11 0 0xFFFF 0xFFFFFFFF (p + 256 * (handedBack s p).recs.epoch.toNat) := rfl

theorem handedBack_own (s : State) (p : Nat) : ownView (handedBack s p) = ownView s := by
  have hrej : ownView (s.host.flights.foldl (handBack p) s) = ownView s := foldl_kept _ ownView _ s fun u f _ => by
    unfold handBack
    split
    · exact congrArg (fun t => (t.recs.owner, t.recs.epoch)) (rest_complete u f stNotOwner 0 0 (BitVec.ofNat 128 p))
    · rfl
  have hread : ∀ (l : List (Nat × ReadRec × Option EpRec)) (u : State), ownView (l.foldl tkoReading u) = ownView u :=
    fun l u => foldl_kept _ ownView l u fun _ _ _ => rfl
  unfold handedBack
  exact (hread _ _).trans hrej

theorem giveBack_kept (s : State) (p : Nat) :
    ownView (giveBack s p) = ownView s ∧ (giveBack s p).harn.served = none ∧ (giveBack s p).harn.inState = 2 ∧
      (giveBack s p).harn.inPos = p := by
  have hown := handedBack_own s p
  rw [giveBack_eq]
  generalize handedBack s p = u at hown ⊢
  obtain ⟨cq, n, heq⟩ := unsolicited_eq (harnSet u fun h => { h with
      served := none, inState := 2, inPos := p,
      mRecs := (s.host.flights.foldl (handBack p) s).recs.tab.filter fun x => eidHome x.1 == p, holdRd := [], holdRaw := [] })
      0x11 0 0xFFFF 0xFFFFFFFF (p + 256 * u.recs.epoch.toNat)
  rw [heq]
  exact ⟨hown, rfl, rfl, rfl⟩

end Sys2Proof.Machine
end

section
open Sys2Proof Sys2Proof.Machine Sys2Proof.Safety

/-- Settles O57: a request waits for its side to be wrapped, the lead answers a JOIN with a position or a refusal and every
chip notes who has joined (R409, R410), the chip that joins takes what it is granted (R411), and an OWNER frame says who
serves (R422). -/
theorem joiningTheRing : Obligations.JoiningTheRing := by
  refine ⟨fun s d low ha hring hlow hd hnew => ?_, fun s d low hlow => ?_, fun s q ha hring => ⟨fun p hp => ?_, fun e he => ?_⟩,
    fun s ha hmode hphase => ?_, fun s p v served id ha hphase hp hlen => ?_, fun s e ha hphase => ?_,
    fun s p v e valid ha hring hp hepoch hlen hother => ?_, fun s p e ha hring hp hepoch hlen hserved => ?_⟩
  · have hwrap := linked_joinWrap (harnSet s fun h => { h with reqs := reqsWith s d })
    have hone : s.harn.reqs = [] → reqsWith s d = [d] := fun h => by rw [reqsWith, h]
    refine ⟨_, exec_joinRequest d low s ha, ?_⟩
    rw [joinRequest_eq hring hlow hd hnew]
    exact ⟨joinWrap_reqs _, hwrap.recs, fun h => (joinWrap_reqs _).trans (hone h),
      fun h hreplay => joinWrap_broken hd (hone h) hreplay⟩
  · by_cases ha : awake s = true
    · rw [exec_joinRequest d low s ha, joinRequest_short s d hlow, if_pos ha]
    · rw [if_neg ha]
      show execJoinRequest d low s = _
      exact run_asleep s _ (Bool.eq_false_iff.mpr ha)
  · obtain ⟨hjoined, hsilent, hpeers, hbeats⟩ := joinRx_position hring hp
    exact ⟨_, exec_join q s ha, hjoined, hsilent, hpeers, hbeats, fun hlead => joinRx_answers hring hlead hp⟩
  · obtain ⟨hjoined, hpeers, hrecs, hsent⟩ := joinRx_keeps hring he
    exact ⟨_, exec_join q s ha, hjoined, hpeers, hrecs, hsent⟩
  · have hreset : s.pins.resetLow = false := by
      simp only [awake, Bool.and_eq_true, Bool.not_eq_true'] at ha
      exact ha.1
    obtain ⟨hphase', h0, h1, hon, hsent, hrecs⟩ := harnessTrained_gives hmode hreset hphase
    exact ⟨_, exec_harnessLinkTrained s ha, hphase', h0, h1, hon, hsent, hrecs⟩
  · obtain ⟨hpos, hjoined, hphase', hid, hnv, herr, hserver, htab⟩ :=
      joinGrant_gives v served id hphase hp (hlen.symm ▸ hp)
    exact ⟨_, exec_joinGrant p v served id s ha, hpos, hjoined, hphase', hid, hnv, herr, hserver, htab⟩
  · have hlog := rung_ringLog (joinDenied s e) 0xFF e
    have hharn := hlog.harn
    refine ⟨_, exec_joinRefuse e s ha, ?_⟩
    rw [joinRefuse_eq e hphase]
    exact ⟨congrArg (·.phase) hharn, congrArg (·.joined) hharn, congrArg (·.joinErr) hharn, hlog.recs⟩
  · have heval := linked_mirrorEval (ownerHeard s p v e valid)
    have hrecs := heval.recs
    refine ⟨_, exec_owner p v valid e s ha, ?_⟩
    rw [ownerRx_eq v valid hring hp hepoch, if_neg hother]
    refine ⟨?_, ?_, ?_⟩
    · rw [wmUpdate_recs, hrecs, ownerHeard_recs]
    · rw [wmUpdate_recs, hrecs, ownerHeard_owner v e valid (hlen.symm ▸ hp)]
    · rw [wmUpdate_recs, hrecs, ownerHeard_recs]
  · obtain ⟨hown, hnone, hstate, hpos⟩ := giveBack_kept (ownerHeard s p p e true) p
    have heval := linked_mirrorEval (giveBack (ownerHeard s p p e true) p)
    have hharn := heval.harn
    have howner : lget (0, false) (giveBack (ownerHeard s p p e true) p).recs.owner p = (p, true) := by
      rw [show (giveBack (ownerHeard s p p e true) p).recs.owner = _ from congrArg (·.1) hown]
      exact ownerHeard_owner p e true (hlen.symm ▸ hp)
    have hepoch' : (giveBack (ownerHeard s p p e true) p).recs.epoch = BitVec.ofNat 8 e :=
      (congrArg (·.2) hown).trans (by rw [ownView, ownerHeard_recs])
    refine ⟨_, exec_owner p p true e s ha, ?_⟩
    rw [ownerRx_eq p true hring hp hepoch, if_pos ⟨hserved, rfl, rfl⟩]
    refine ⟨(congrArg (·.served) hharn).trans hnone, (congrArg (·.inState) hharn).trans hstate,
      (congrArg (·.inPos) hharn).trans hpos, ?_, ?_⟩
    · rw [wmUpdate_recs, heval.recs, hepoch']
    · exact (serverOf_recs heval.recs p).trans (serverOf_of howner)

end

section
/-!
# Frames, records and commands held for a neighbour (13 R413 to R415, 06 R208)

Each mirror frame adds to what is held, or takes from it; pinning a neighbour's key touches the kennel alone.
-/
namespace Sys2Proof.Machine
open Sys2Proof Sys2Proof.Safety

/-! ## A mirror frame heard -/

theorem rung_mirrorGot (s : State) : Rung s (mirrorGot s) := (rung_ringGot s 1).trans (rung_cnt _ _)

/-- What is then set of the harness is set of the harness before, its ports apart. -/
theorem mirrorGot_harnSet (s : State) (g : HarnSt → HarnSt) :
    (harnSet (mirrorGot s) g).harn = g { s.harn with ports := (mirrorGot s).harn.ports } :=
  congrArg g (rung_mirrorGot s).harn

/-! ## A neighbour's pins touch the kennel alone -/

theorem keyRest_harn {s t : State} (h : keyRest t = keyRest s) : t.harn = s.harn := congrArg (·.harn) h

theorem keyRest_shadowPin {s t : State} {h : Nat} {b : Blob} (e : shadowPin s h b = some t) : keyRest t = keyRest s := by
  unfold shadowPin at e
  split at e
  · cases e
    rfl
  · split at e
    · cases e
      rfl
    · split at e
      · cases e
      · next kek _ _ _ u o hrun =>
        have hwrap : keyRest u = keyRest s := keyRest_wrapped hrun
        split at e
        · cases e
          exact (keyRest_logBlob _ _ _).trans hwrap
        · obtain ⟨p, hp, rfl⟩ := Option.map_eq_some_iff.mp e
          exact ((keyRest_slotLoad _ _ _ _ _ _).trans (keyRest_slotAlloc hp)).trans hwrap
  · cases e
    rfl

theorem keyRest_shadowPins {h : Nat} {l : List Blob} {s t : State} (e : shadowPins h l s = some t) : keyRest t = keyRest s := by
  induction l generalizing s with
  | nil =>
    cases e
    rfl
  | cons b l ih =>
    obtain ⟨u, hu, hrest⟩ := Option.bind_eq_some_iff.mp e
    exact (ih hrest).trans (keyRest_shadowPin hu)

theorem keyRest_shadowUnpin (s : State) (h : Nat) (g : BitVec 8 → Bool) : keyRest (shadowUnpin s h g) = keyRest s := rfl

/-- A mirrored record that is taken. -/
def mirrorTaken (s : State) (eid : Nat) (r : EpRec) : State :=
  harnSet s fun h => { h with mRecs := tset EpRec.free h.mRecs eid r }

/-- Whether it is: a provision, a retirement or a greater WRITE_SEQ. -/
def mirrorNewer (s : State) (eid : Nat) (r : EpRec) : Prop :=
  r.state = 0 ∨ (tget EpRec.free s.harn.mRecs eid).state = 0 ∨ r.writeSeq = 0 ∨
    (tget EpRec.free s.harn.mRecs eid).writeSeq.toNat < r.writeSeq.toNat

theorem mirrorRec_newer {s t : State} {eid : Nat} {r : EpRec} (hnew : mirrorNewer s eid r) (e : mirrorRec s eid r = some t) :
    keyRest t = keyRest (mirrorTaken s eid r) := by
  unfold mirrorNewer at hnew
  unfold mirrorRec at e
  dsimp only at e
  rw [if_pos hnew] at e
  split at e
  · exact (keyRest_shadowPins e).trans (keyRest_shadowUnpin _ _ _)
  · cases e
    rfl

theorem mirrorRec_older {s : State} {eid : Nat} {r : EpRec} (hold : ¬ mirrorNewer s eid r) : mirrorRec s eid r = some s :=
  if_neg hold

/-- An entry that is no record is noted. -/
theorem mirrorApply_noted {s t : State} {x : JEnt} (hx : ∀ e r, x ≠ .epRec e r ∧ x ≠ .linkDrop e r)
    (e : mirrorApply s x = some t) : keyRest t = keyRest (mirrorNote s x) := by
  unfold mirrorApply at e
  split at e
  · next eid r => exact absurd rfl (hx eid r).1
  · next eid r => exact absurd rfl (hx eid r).2
  · exact keyRest_shadowPins e
  · cases e
    rfl
  · split at e
    · exact (keyRest_shadowPins e).trans (keyRest_shadowUnpin _ _ _)
    · cases e
      rfl
  · cases e
    rfl

/-! ## Records and entries, taken or not -/

theorem mirrorNewer_got {s : State} {e : Nat} {r : EpRec} : mirrorNewer (mirrorGot s) e r ↔ mirrorNewer s e r := by
  have h : (mirrorGot s).harn.mRecs = s.harn.mRecs := by rw [(rung_mirrorGot s).harn]
  rw [mirrorNewer, mirrorNewer, h]

theorem mirrorState_some {s u : State} {src ep : Nat} {x : JEnt} (hholds : holdsFor s src ep = true)
    (h : mirrorApply (mirrorGot s) x = some u) : mirrorState s src ep x = u := by
  rw [mirrorState, if_neg (by simp [hholds]), h]
  rfl

theorem mirrorState_none {s : State} {src ep : Nat} {x : JEnt} (hholds : holdsFor s src ep = true)
    (h : mirrorApply (mirrorGot s) x = none) : mirrorState s src ep x = s := by
  rw [mirrorState, if_neg (by simp [hholds]), h]
  rfl

/-- The posting entry of a reading, applied where it carries one. -/
def postApplied (s : State) (e : Nat) : Option EpRec → Option State
  | some r => mirrorRec s e r
  | none => some s

/-- A neighbour's reading is held once its posting entry is applied. -/
theorem mirrorReading_some {s u : State} {src id ep : Nat} {rd : ReadRec} {post : Option EpRec}
    (hholds : holdsFor s src ep = true)
    (h : postApplied s rd.eid.toNat post = some u) :
    mirrorReading s src id ep rd post = harnSet (mirrorGot u) fun h =>
      { h with holdRd := h.holdRd ++ [(id, rd, post)],
               holdRaw := h.holdRaw.filter fun x =>
                 !(x.2.addr == (tget EpRec.free s.harn.mRecs rd.eid.toNat).meterAddr && x.2.ic == rd.rxIc) } := by
  unfold mirrorReading
  rw [if_neg (by simp [hholds])]
  cases post with
  | none =>
    cases h
    rfl
  | some r =>
    dsimp only [postApplied] at h ⊢
    rw [h]

theorem mirrorRec_holdRd {s u : State} {e : Nat} {r : EpRec} (h : mirrorRec s e r = some u) :
    u.harn.holdRd = s.harn.holdRd ∧ u.recs = s.recs ∧
      (mirrorNewer s e r → u.harn.mRecs = tset EpRec.free s.harn.mRecs e r) := by
  by_cases hnew : mirrorNewer s e r
  · have hkeys := mirrorRec_newer hnew h
    have hharn := keyRest_harn hkeys
    exact ⟨congrArg (·.holdRd) hharn, (keyRest_recs hkeys).trans rfl, fun _ => congrArg (·.mRecs) hharn⟩
  · obtain rfl : u = s := Option.some.inj (h.symm.trans (mirrorRec_older hnew))
    exact ⟨rfl, rfl, fun h => absurd h hnew⟩

/-! ## The first copy -/

/-- A mirror begun for a position, empty. -/
def mirrorBegun (s : State) (src : Nat) : State :=
  harnSet s fun h =>
    { h with inState := 1, inPos := src, mRecs := [], mEnts := [], holdRaw := [], holdRd := [], holdCmd := [] }

theorem syncCopy_first {s : State} {src : Nat} {x : JEnt} {q : Nat × JoinReq}
    (hfrom : mirrorFrom s src s.recs.epoch.toNat = true) (hret : returning s = none) (hserved : s.harn.served = none)
    (hin : s.harn.inState = 0) (hq : (s.harn.peers.find? fun p => p.1 == src) = some q) :
    syncCopy s src x = if q.2.dramSize ≤ s.recs.dramMib then
      (mirrorApply (mirrorGot (mirrorBegun s src)) x).getD (mirrorBegun s src) else s := by
  have hmay : mirrorMay s src = (decide (q.2.dramSize ≤ s.recs.dramMib), s) := by rw [mirrorMay, hq]
  unfold syncCopy
  rw [if_neg (by simp [hfrom]), if_neg (by simp [hret]), if_neg (by simp [hserved]), if_pos (.inl hin), hmay]
  by_cases h : q.2.dramSize ≤ s.recs.dramMib
  · rw [if_pos h, decide_eq_true h]
    dsimp only
    rw [if_pos (.inl hin)]
    rfl
  · rw [if_neg h, decide_eq_false h]

theorem mirrorBegun_mRecs (s : State) (src : Nat) : (mirrorGot (mirrorBegun s src)).harn.mRecs = [] := by
  rw [(rung_mirrorGot _).harn]
  rfl

theorem mirrorBegun_takes (s : State) (src e : Nat) (r : EpRec) :
    (mirrorApply (mirrorGot (mirrorBegun s src)) (.epRec e r)).getD (mirrorBegun s src) =
      mirrorTaken (mirrorGot (mirrorBegun s src)) e r := by
  have hments : (mirrorTaken (mirrorGot (mirrorBegun s src)) e r).harn.mEnts = [] := by
    have h : (mirrorTaken (mirrorGot (mirrorBegun s src)) e r).harn.mEnts = (mirrorGot (mirrorBegun s src)).harn.mEnts := rfl
    rw [h, (rung_mirrorGot _).harn]
    rfl
  have hpinned : mirrorPinned (mirrorTaken (mirrorGot (mirrorBegun s src)) e r) (epHandle e) = false := by
    rw [mirrorPinned, hments]
    rfl
  have hnew : mirrorNewer (mirrorGot (mirrorBegun s src)) e r := by
    rw [mirrorNewer, mirrorBegun_mRecs]
    exact .inr (.inl rfl)
  have htaken : mirrorRec (mirrorGot (mirrorBegun s src)) e r = some (mirrorTaken (mirrorGot (mirrorBegun s src)) e r) :=
    (if_pos hnew).trans (if_neg (ne_true_of_eq_false hpinned))
  exact (congrArg (·.getD (mirrorBegun s src)) htaken)

theorem mirrorBegun_taken (s : State) (src e : Nat) (r : EpRec) :
    let h := (mirrorTaken (mirrorGot (mirrorBegun s src)) e r).harn
    h.inState = 1 ∧ h.inPos = src ∧ h.mRecs = tset EpRec.free [] e r ∧ h.mEnts = [] ∧ h.holdRaw = [] ∧ h.holdRd = [] ∧
      h.holdCmd = [] := by
  intro h
  have hharn : h = _ := mirrorGot_harnSet (mirrorBegun s src) _
  rw [hharn]
  exact ⟨rfl, rfl, rfl, rfl, rfl, rfl, rfl⟩

/-! ## Gates on a silent shadow -/

theorem mirrorGateTimeout_opens {s : State} {p : Nat} (hgates : s.harn.gates ≠ []) (hshadow : s.harn.shadow = some p)
    (hsilent : inMask s.harn.silentM p = true) (hout : s.harn.outState ≠ 0) : mirrorGateTimeout s = mirrorOff s 6 := by
  have hsome : s.harn.gates.isEmpty = false := Bool.eq_false_iff.mpr fun h => hgates (List.isEmpty_iff.mp h)
  unfold mirrorGateTimeout
  rw [hshadow]
  dsimp only
  rw [if_neg (by simp [hsome, hsilent, hout])]

theorem mirrorOff_harn {s : State} {r : Nat} (hout : s.harn.outState ≠ 0) :
    (mirrorOff s r).harn = { s.harn with outState := 0, outReason := r, syncLeft := 0, syncPos := 0, gates := [] } := by
  unfold mirrorOff
  rw [if_neg fun h => hout h.1]
  dsimp only
  rw [ringLog, logEvent_harn, gatesOff, acksFree_harn]
  rfl

end Sys2Proof.Machine
end

section
open Sys2Proof Sys2Proof.Machine Sys2Proof.Safety

/-- Settles O58: what the west neighbour mirrors is held until it is released, a record under a greater WRITE_SEQ alone (R413,
03 R117); the first copy begins a mirror where this chip's DRAM is as large, the last turns SYNCING into ON (R415), and a
gate on a silent shadow opens (R414). -/
theorem mirrorHeldAndReleased : Obligations.MirrorHeldAndReleased := by
  refine ⟨fun s src id ep ha hholds => ⟨fun f => ?_, fun e r hlt => ⟨fun htaken => ?_, fun hwaits => ?_⟩, fun x hx htaken => ?_,
      fun e r hst hr hws hle => ?_, fun rd => ?_, fun rd r htaken => ?_, fun c => ?_, ?_, ?_, ?_, ?_⟩,
    fun s src e r ha hfrom hret hserved hin q hq => ⟨fun hfits => ?_, fun hsmall => ?_⟩,
    fun s ha hret => ⟨fun hout hleft => ?_, fun hout hin => ?_⟩, fun s p ha hgates hshadow hsilent hout => ?_⟩
  · refine ⟨_, exec_mirrorRaw src id ep f s ha, ?_⟩
    rw [mirrorRaw, if_neg (by simp [hholds]), wmUpdate_harn, mirrorGot_harnSet]
    exact ⟨rfl, (rung_mirrorGot s).recs⟩
  · obtain ⟨u, hu⟩ := Option.isSome_iff_exists.mp htaken
    have hkeys := mirrorRec_newer (mirrorNewer_got.mpr (.inr (.inr (.inr hlt)))) hu
    have hharn : u.harn = _ := (keyRest_harn hkeys).trans (mirrorGot_harnSet s _)
    refine ⟨_, exec_mirrorState src ep (.epRec e r) s ha, ?_⟩
    rw [mirrorState_some (x := .epRec e r) hholds hu, wmUpdate_harn, hharn]
    exact ⟨(keyRest_recs hkeys).trans (rung_mirrorGot s).recs, rfl⟩
  · refine ⟨_, exec_mirrorState src ep (.epRec e r) s ha, ?_⟩
    rw [mirrorState_none (x := .epRec e r) hholds hwaits]
    exact ⟨rfl, rfl⟩
  · obtain ⟨u, hu⟩ := Option.isSome_iff_exists.mp htaken
    have hkeys := mirrorApply_noted hx hu
    have hharn : u.harn = _ := (keyRest_harn hkeys).trans (mirrorGot_harnSet s _)
    refine ⟨_, exec_mirrorState src ep x s ha, ?_⟩
    rw [mirrorState_some hholds hu, wmUpdate_harn, hharn]
    exact ⟨(keyRest_recs hkeys).trans (rung_mirrorGot s).recs, rfl⟩
  · have hold : ¬ mirrorNewer (mirrorGot s) e r := fun h => by
      rcases mirrorNewer_got.mp h with h | h | h | h
      · exact hr h
      · exact hst h
      · exact hws h
      · omega
    refine ⟨_, exec_mirrorState src ep (.epRec e r) s ha, ?_⟩
    rw [mirrorState_some (x := .epRec e r) hholds (mirrorRec_older hold)]
    exact ⟨(rung_mirrorGot s).recs, (rung_mirrorGot s).harn⟩
  · refine ⟨_, exec_mirrorReading src id ep rd none s ha, ?_⟩
    rw [mirrorReading_some hholds rfl, wmUpdate_harn, mirrorGot_harnSet]
    exact ⟨(rung_mirrorGot s).recs, rfl, rfl⟩
  · obtain ⟨u, hu⟩ := Option.isSome_iff_exists.mp htaken
    obtain ⟨hrd, hrecs, hmrecs⟩ := mirrorRec_holdRd hu
    refine ⟨_, exec_mirrorReading src id ep rd (some r) s ha, ?_⟩
    rw [mirrorReading_some (post := some r) hholds hu, wmUpdate_harn, mirrorGot_harnSet]
    exact ⟨(rung_mirrorGot u).recs.trans hrecs, congrArg (· ++ [(id, rd, some r)]) hrd,
      fun hlt => hmrecs (.inr (.inr (.inr hlt)))⟩
  · refine ⟨_, exec_mirrorCmd src ep c s ha, ?_⟩
    rw [mirrorCmd, if_neg (by simp [hholds]), wmUpdate_harn, mirrorGot_harnSet]
    exact ⟨(rung_mirrorGot s).recs, rfl⟩
  · refine ⟨_, exec_release src ep 0 id s ha, ?_⟩
    rw [releaseRx, if_neg (by simp [hholds]), wmUpdate_harn, mirrorGot_harnSet]
    exact ⟨(rung_mirrorGot s).recs, rfl⟩
  · refine ⟨_, exec_release src ep 1 id s ha, ?_⟩
    rw [releaseRx, if_neg (by simp [hholds]), wmUpdate_harn, mirrorGot_harnSet]
    exact ⟨(rung_mirrorGot s).recs, rfl⟩
  · refine ⟨_, exec_release src ep 2 id s ha, ?_⟩
    rw [releaseRx, if_neg (by simp [hholds]), wmUpdate_harn, mirrorGot_harnSet]
    exact ⟨(rung_mirrorGot s).recs, rfl⟩
  · refine ⟨_, exec_release src ep 3 id s ha, ?_⟩
    rw [releaseRx, if_neg (by simp [hholds]), wmUpdate_harn, mirrorGot_harnSet]
    exact ⟨(rung_mirrorGot s).recs, rfl⟩
  · refine ⟨_, exec_syncCopy src (.epRec e r) s ha, ?_⟩
    rw [syncCopy_first hfrom hret hserved hin hq, if_pos hfits, mirrorBegun_takes]
    obtain ⟨hstate, hpos, hmrecs, hments, hraw, hrd, hcmd⟩ := mirrorBegun_taken s src e r
    exact ⟨hstate, hpos, hmrecs, hments, hraw, hrd, hcmd, (rung_mirrorGot (mirrorBegun s src)).recs⟩
  · refine ⟨_, exec_syncCopy src (.epRec e r) s ha, ?_⟩
    rw [syncCopy_first hfrom hret hserved hin hq, if_neg (by omega)]
    exact ⟨rfl, rfl⟩
  · refine ⟨_, exec_mirrorSyncComplete s ha, ?_⟩
    rw [mirrorSyncComplete, hret]
    dsimp only
    rw [if_pos ⟨hout, hleft⟩]
    exact ⟨rfl, rfl⟩
  · refine ⟨_, exec_mirrorSyncComplete s ha, ?_⟩
    rw [mirrorSyncComplete, hret]
    dsimp only
    rw [if_neg fun h => hout h.1, if_pos hin]
    exact ⟨rfl, rfl⟩
  · refine ⟨_, exec_mirrorGateTimeout s ha, ?_⟩
    rw [mirrorGateTimeout_opens hgates hshadow hsilent hout]
    have hharn := mirrorOff_harn (r := 6) hout
    exact ⟨congrArg (·.gates) hharn, congrArg (·.outState) hharn, congrArg (·.outReason) hharn, (linked_mirrorOff s 6).recs⟩

end

section
/-!
# Silence, takeover and return (13 R417 to R424)

A takeover moves records, readings, frames and commands into this chip's own paths; what it leaves of the owners, the epoch
and the chip's own standing is followed by one view through its steps.
-/
namespace Sys2Proof.Machine
open Sys2Proof Sys2Proof.Safety

/-! ## Masks of the other positions -/

theorem div_sub_two_pow_of_lt {m p q : Nat} (h : p < q) (hbit : m.testBit p = true) :
    (m - 2 ^ p) / 2 ^ q = m / 2 ^ q := by
  have hlow : 2 ^ p ≤ m % 2 ^ q := Nat.ge_two_pow_of_testBit (by rw [Nat.testBit_mod_two_pow, hbit]; simpa using h)
  have hsplit : m - 2 ^ p = 2 ^ q * (m / 2 ^ q) + (m % 2 ^ q - 2 ^ p) := by
    rw [← Nat.add_sub_assoc hlow, Nat.div_add_mod]
  have hsmall : m % 2 ^ q - 2 ^ p < 2 ^ q :=
    Nat.lt_of_le_of_lt (Nat.sub_le _ _) (Nat.mod_lt m (Nat.two_pow_pos q))
  rw [hsplit, Nat.mul_add_div (Nat.two_pow_pos q), Nat.div_eq_of_lt hsmall, Nat.add_zero]

/-- A position taken out of a mask leaves the others as they were. -/
theorem inMask_withoutBit_ne (m : Nat) {p q : Nat} (h : q ≠ p) : inMask (withoutBit m p) q = inMask m q := by
  unfold withoutBit
  split
  · next hp =>
    rw [inMask_iff] at hp
    rcases Nat.lt_or_gt_of_ne h with hlt | hgt
    · have hle : 2 ^ p ≤ m := Nat.ge_two_pow_of_testBit hp
      have hsame := Nat.testBit_two_pow_add_gt hlt (m - 2 ^ p)
      rw [Nat.add_sub_cancel' hle] at hsame
      rw [inMask_iff, inMask_iff, hsame]
    · rw [inMask, div_sub_two_pow_of_lt hgt hp, inMask]
  · rfl

/-! ## What a takeover leaves of owners and of this chip -/

/-- Owners, epoch, and whether this chip is fenced and how often it has taken over. -/
def tkoView (s : State) : (List (Nat × Bool) × BitVec 8) × Bool × Nat := (ownView s, s.harn.fenced, s.harn.tkoCnt)

theorem Linked.tkoView {s t : State} (h : Linked s t) : tkoView t = tkoView s := by
  have hfence : t.harn.fenced = s.harn.fenced := congrArg (·.fenced) h.harn
  have hcnt : t.harn.tkoCnt = s.harn.tkoCnt := congrArg (·.tkoCnt) h.harn
  rw [Machine.tkoView, Machine.tkoView, ownView, ownView, h.recs, hfence, hcnt]

theorem sendFrame_harn (s : State) (eid tc what arg : Nat) (app : List Nat) (ic : Word) (uid txn : Option Nat) :
    (sendFrame s eid tc what arg app ic uid txn).harn = s.harn := by
  have hqueue : ∀ (u : State) (c : Nat) (f : TxF), (txQueue u c f).harn = u.harn := fun _ _ _ => rfl
  unfold sendFrame
  dsimp only
  rw [hqueue, keyRest_harn (keyRest_frameSeal s _)]

theorem relayFrame_tkoView (s : State) (eid what arg : Nat) (ic : Word) (uid : Option Nat) (tag : BitVec 16) :
    tkoView (relayFrame s eid what arg ic uid tag) = tkoView s := by
  have hharn : (relayFrame s eid what arg ic uid tag).harn = s.harn := by
    unfold relayFrame
    exact sendFrame_harn _ _ _ _ _ _ _ _ _
  rw [tkoView, tkoView, ownView, ownView, hharn, outRest_recs (outRest_relayFrame s eid what arg ic uid tag)]

theorem relayRestart_tkoView (s : State) (eid : Nat) : tkoView (relayRestart s eid) = tkoView s := by
  unfold relayRestart
  dsimp only
  split <;> rfl

/-- State of a neighbour that this chip lacks. -/
def entTaken (s : State) (e : JEnt) : State :=
  match e with
  | .tariff id t =>
    if tarGet s id = TarEnt.empty then { s with bill := { s.bill with tariffs := tset TarEnt.empty s.bill.tariffs id t } } else s
  | .cal id c =>
    if calGet s id = CalEnt.empty then { s with bill := { s.bill with cals := tset CalEnt.empty s.bill.cals id c } } else s
  | .dir h d => if (dirGet s h).st = 0 then dirPut s h d else s
  | .plan b => if s.air.plan.isEmpty then { s with air := { s.air with plan := b } } else s
  | _ => s

theorem entTaken_tkoView (s : State) (e : JEnt) : tkoView (entTaken s e) = tkoView s := by
  unfold entTaken
  split
  · split <;> rfl
  · split <;> rfl
  · split <;> rfl
  · split <;> rfl
  · rfl

theorem tkoRecords_tkoView (s : State) : tkoView (tkoRecords s) = tkoView s := by
  have hrec : ∀ (l : Tab EpRec) (u : State),
      tkoView (l.foldl (fun s p => relayRestart (recPut s p.1 p.2) p.1) u) = tkoView u := fun l u =>
    foldl_kept _ tkoView l u fun v p _ => relayRestart_tkoView (recPut v p.1 p.2) p.1
  have hent : ∀ (l : List JEnt) (u : State), tkoView (l.foldl entTaken u) = tkoView u := fun l u =>
    foldl_kept _ tkoView l u fun v e _ => entTaken_tkoView v e
  exact (hent _ _).trans (hrec _ _)

theorem tkoCommand_tkoView (pos : Nat) (s : State) (c : MCmd) : tkoView (tkoCommand pos s c) = tkoView s := by
  unfold tkoCommand
  dsimp only
  split
  · rfl
  · exact relayFrame_tkoView _ _ _ _ _ _ _

theorem tkoBatch_tkoView (s : State) : tkoView (tkoBatch s) = tkoView s := by
  unfold tkoBatch
  dsimp only
  split
  · rfl
  · exact (rung_cnt _ 325).linked.tkoView

theorem tkoReadings_tkoView (l : List (Nat × ReadRec × Option EpRec)) (s : State) :
    tkoView (tkoReadings l s) = tkoView s := by
  induction l generalizing s with
  | nil => rfl
  | cons x l ih =>
    unfold tkoReadings
    split
    · exact ih _
    · rfl

theorem tkoRaws_tkoView (l : List (Nat × Frame)) (s : State) : tkoView (tkoRaws l s) = tkoView s := by
  induction l generalizing s with
  | nil => rfl
  | cons x l ih =>
    unfold tkoRaws
    split
    · next u hu =>
      unfold tkoRaw at hu
      cases (Option.ite_none_left_eq_some.mp hu).2
      exact ih _
    · rfl

/-- Records, readings, frames and commands taken over, the owner set. -/
def tkoMoved (s : State) (pos : Nat) : State :=
  tkoDescs pos (s.harn.holdCmd.foldl (tkoCommand pos) (ownerPut (tkoRecords s) pos s.harn.pos true))

def tkoQueued (s : State) (pos : Nat) : State :=
  tkoReadings (tkoMoved s pos).harn.holdRd (tkoBatch (tkoMoved s pos))

/-- The steps of a takeover before its new epoch. -/
def tkoHeld (s : State) (pos : Nat) : State := tkoRaws (tkoQueued s pos).harn.holdRaw (tkoQueued s pos)

/-- The owner told to the ring and to the host. -/
def tkoTold (s : State) (pos : Nat) : State :=
  let u := ownerCast (epochUp (tkoHeld s pos)) pos
  unsolicited u 0x10 0 0xFFFF 0xFFFFFFFF (pos + 256 * u.recs.epoch.toNat)

theorem takeover_eq (s : State) (pos : Nat) : takeover s pos =
    cnt (harnSet (tkoTold s pos) fun h => { h with
      served := some pos, tkoCnt := min 255 (h.tkoCnt + 1), inState := 0, mRecs := [], mEnts := [], holdCmd := [] }) 392 := rfl

theorem tkoHeld_tkoView (s : State) (pos : Nat) :
    tkoView (tkoHeld s pos) =
      ((lset s.recs.owner pos (s.harn.pos, true), s.recs.epoch), s.harn.fenced, s.harn.tkoCnt) := by
  have hrecs := tkoRecords_tkoView s
  have howner : (tkoRecords s).recs.owner = s.recs.owner := congrArg (·.1.1) hrecs
  have hset : tkoView (ownerPut (tkoRecords s) pos s.harn.pos true) =
      ((lset s.recs.owner pos (s.harn.pos, true), s.recs.epoch), s.harn.fenced, s.harn.tkoCnt) := by
    rw [← howner]
    exact congrArg (fun v => ((lset (tkoRecords s).recs.owner pos (s.harn.pos, true), v.1.2), v.2)) hrecs
  have hcmd : tkoView (tkoMoved s pos) = tkoView (ownerPut (tkoRecords s) pos s.harn.pos true) :=
    foldl_kept _ tkoView _ _ fun u c _ => tkoCommand_tkoView pos u c
  rw [tkoHeld, tkoRaws_tkoView, tkoQueued, tkoReadings_tkoView, tkoBatch_tkoView, hcmd, hset]

theorem tkoTold_tkoView (s : State) (pos : Nat) :
    tkoView (tkoTold s pos) =
      ((lset s.recs.owner pos (s.harn.pos, true), s.recs.epoch + 1), s.harn.fenced, s.harn.tkoCnt) := by
  have hup : tkoView (epochUp (tkoHeld s pos)) =
      ((lset s.recs.owner pos (s.harn.pos, true), s.recs.epoch + 1), s.harn.fenced, s.harn.tkoCnt) :=
    congrArg (fun v => ((v.1.1, v.1.2 + 1), v.2)) (tkoHeld_tkoView s pos)
  have hcast : tkoView (ownerCast (epochUp (tkoHeld s pos)) pos) = tkoView (epochUp (tkoHeld s pos)) := by
    unfold ownerCast
    exact (rung_ringSend _ _ _ _).linked.tkoView
  rw [← hup, ← hcast]
  unfold tkoTold
  generalize ownerCast (epochUp (tkoHeld s pos)) pos = u
  dsimp only
  obtain ⟨cq, n, heq⟩ := unsolicited_eq u 0x10 0 0xFFFF 0xFFFFFFFF (pos + 256 * u.recs.epoch.toNat)
  rw [heq]
  rfl

/-- What a takeover ends in. -/
theorem takeover_ends (s : State) (pos : Nat) :
    let t := takeover s pos
    t.harn.fenced = s.harn.fenced ∧ t.harn.served = some pos ∧ t.recs.owner = lset s.recs.owner pos (s.harn.pos, true) ∧
      t.recs.epoch = s.recs.epoch + 1 ∧ t.harn.inState = 0 ∧ t.harn.tkoCnt = min 255 (s.harn.tkoCnt + 1) := by
  intro t
  have hview := tkoTold_tkoView s pos
  have hcnt : (tkoTold s pos).harn.tkoCnt = s.harn.tkoCnt := congrArg (·.2.2) hview
  have heq : t = cnt _ 392 := takeover_eq s pos
  generalize tkoTold s pos = u at hview hcnt heq
  rw [heq, cnt_harn, cnt_recs]
  exact ⟨congrArg (·.2.1) hview, rfl, congrArg (·.1.1) hview, congrArg (·.1.2) hview, rfl,
    congrArg (fun n => min 255 (n + 1)) hcnt⟩

/-! ## A silence declared -/

/-- A position found silent. -/
def silenced (s : State) (pos : Nat) : State :=
  ringLog (harnSet s fun h => { h with silentM := withBit h.silentM pos, joinedM := withoutBit h.joinedM pos }) pos 2

theorem silenced_harn (s : State) (pos : Nat) :
    (silenced s pos).harn =
      { s.harn with silentM := withBit s.harn.silentM pos, joinedM := withoutBit s.harn.joinedM pos } := by
  rw [silenced, ringLog, logEvent_harn]
  rfl

theorem silenced_rest (s : State) (pos : Nat) : wireRest (silenced s pos) = wireRest s :=
  (rung_ringLog (harnSet s _) pos 2).rest

/-- With no other position joined, none is heard. -/
theorem silenced_alone {s : State} {pos : Nat}
    (h : ∀ q, q < 8 → q ≠ s.harn.pos → q ≠ pos → inMask s.harn.joinedM q = false) : othersHeard (silenced s pos) pos = false := by
  rw [othersHeard, List.any_eq_false]
  intro q hq
  rw [silenced_harn]
  by_cases hself : q = s.harn.pos
  · simp [hself]
  · by_cases hpos : q = pos
    · simp [hpos]
    · simp [inMask_withoutBit_ne _ hpos, h q (List.mem_range.mp hq) hself hpos]

theorem silenceDeclared_eq {s : State} {p : Nat} (low : Bool) (hring : onRing s = true) (hother : p ≠ s.harn.pos)
    (hjoined : inMask s.harn.joinedM p = true) (hlost : beatLost s p = true) :
    silenceDeclared s p low =
      if !othersHeard (silenced s p) p && !low then fence (silenced s p)
      else
        let u := silenceActs (silenced s p) p (westOf s == some p)
        if u.harn.shadow = some p ∧ u.harn.outState ≠ 0 ∧ u.harn.gates ≠ [] then u else mirrorEval u :=
  if_neg (by simp [hring, hother, hjoined, hlost])

/-- The lead's duties passed to position 0's shadow. -/
def leadPassed (s : State) (pos : Nat) (shadow : Bool) : State :=
  if pos = 0 ∧ shadow = true ∧ s.pins.harnMode = 1 then harnSet s fun h => { h with acting := true } else s

theorem silenceActs_takes {s : State} {pos : Nat} (shadow : Bool) (hin : s.harn.inState = 2) (hpos : s.harn.inPos = pos)
    (hpf : s.pins.pfailLow = false) : silenceActs s pos shadow = takeover (leadPassed s pos shadow) pos := by
  have hkept : (leadPassed s pos shadow).harn.inState = s.harn.inState ∧
      (leadPassed s pos shadow).harn.inPos = s.harn.inPos ∧ (leadPassed s pos shadow).pins = s.pins := by
    unfold leadPassed
    split <;> exact ⟨rfl, rfl, rfl⟩
  obtain ⟨hst, hp, hpins⟩ := hkept
  exact if_pos ⟨hst.trans hin, hp.trans hpos, (congrArg (·.pfailLow) hpins).trans hpf⟩

theorem leadPassed_kept (s : State) (pos : Nat) (shadow : Bool) :
    (leadPassed s pos shadow).harn.fenced = s.harn.fenced ∧ (leadPassed s pos shadow).harn.pos = s.harn.pos ∧
      (leadPassed s pos shadow).harn.tkoCnt = s.harn.tkoCnt ∧ (leadPassed s pos shadow).recs = s.recs := by
  unfold leadPassed
  split <;> exact ⟨rfl, rfl, rfl, rfl⟩

theorem onRing_open {s : State} (h : onRing s = true) : s.harn.fenced = false := by
  simp only [onRing, bypassClosed, Bool.and_eq_true, Bool.not_eq_true', Bool.or_eq_false_iff] at h
  exact h.2.1.2

theorem silence_acts {s : State} {p : Nat} (hring : onRing s = true) (hother : p ≠ s.harn.pos)
    (hjoined : inMask s.harn.joinedM p = true) (hlost : beatLost s p = true) :
    Linked (silenceActs (silenced s p) p (westOf s == some p)) (silenceDeclared s p true) := by
  rw [silenceDeclared_eq true hring hother hjoined hlost, if_neg (by simp)]
  dsimp only
  split
  · exact Linked.refl _
  · exact linked_mirrorEval _

/-- Of a pair that is ON, the shadow takes a silent position over. -/
theorem silenceActs_ends {s : State} {p : Nat} (shadow : Bool) (hin : s.harn.inState = 2) (hpos : s.harn.inPos = p)
    (hpf : s.pins.pfailLow = false) :
    let t := silenceActs (silenced s p) p shadow
    t.harn.fenced = s.harn.fenced ∧ t.harn.served = some p ∧ t.recs.owner = lset s.recs.owner p (s.harn.pos, true) ∧
      t.recs.epoch = s.recs.epoch + 1 ∧ t.harn.inState = 0 ∧ t.harn.tkoCnt = min 255 (s.harn.tkoCnt + 1) := by
  intro t
  have hharn := silenced_harn s p
  have hrecs : (silenced s p).recs = s.recs := wireRest_recs (silenced_rest s p)
  have hpins : (silenced s p).pins = s.pins := congrArg (·.pins) (silenced_rest s p)
  have hacts : t = takeover (leadPassed (silenced s p) p shadow) p :=
    silenceActs_takes _ (by rw [hharn]; exact hin) (by rw [hharn]; exact hpos) (by rw [hpins]; exact hpf)
  obtain ⟨hf, hps, hc, hr⟩ := leadPassed_kept (silenced s p) p shadow
  obtain ⟨hfence, hserved, howner, hepoch, hstate, hcnt⟩ := takeover_ends (leadPassed (silenced s p) p shadow) p
  rw [hf, hharn] at hfence
  rw [hr, hrecs, hps, hharn] at howner
  rw [hr, hrecs] at hepoch
  rw [hc, hharn] at hcnt
  rw [hacts]
  exact ⟨hfence, hserved, howner, hepoch, hstate, hcnt⟩

theorem silence_takesOver {s : State} {p : Nat} (hring : onRing s = true) (hp : p < 8) (hother : p ≠ s.harn.pos)
    (hjoined : inMask s.harn.joinedM p = true) (hlost : beatLost s p = true) (hin : s.harn.inState = 2)
    (hpos : s.harn.inPos = p) (hpf : s.pins.pfailLow = false) (hlen : s.recs.owner.length = 8) :
    let t := silenceDeclared s p true
    t.harn.fenced = false ∧ t.harn.served = some p ∧ serverOf t p = some s.harn.pos ∧ t.recs.epoch = s.recs.epoch + 1 ∧
      t.harn.inState = 0 ∧ t.harn.tkoCnt = min 255 (s.harn.tkoCnt + 1) := by
  intro t
  have hlinked : Linked _ t := silence_acts hring hother hjoined hlost
  obtain ⟨hfence, hserved, howner, hepoch, hstate, hcnt⟩ := silenceActs_ends (westOf s == some p) hin hpos hpf
  generalize silenceActs (silenced s p) p (westOf s == some p) = u at *
  have hharn := hlinked.harn
  refine ⟨?_, (congrArg (·.served) hharn).trans hserved, serverOf_of ?_, ?_, (congrArg (·.inState) hharn).trans hstate,
    (congrArg (·.tkoCnt) hharn).trans hcnt⟩
  · exact (congrArg (·.fenced) hharn).trans (hfence.trans (onRing_open hring))
  · rw [hlinked.recs, howner, lget_lset_same _ _ _ _ (by omega)]
  · rw [hlinked.recs, hepoch]

/-! ## The return (13 R422) -/

theorem balMissed_kept (n fuel : Nat) (s : State) :
    (balMissed n fuel s).recs = s.recs ∧ (balMissed n fuel s).harn = s.harn := by
  have hput : ∀ (u : State) f, (fdrPut u n f).recs = u.recs ∧ (fdrPut u n f).harn = u.harn := fun _ _ => ⟨rfl, rfl⟩
  have happend : ∀ (u : State) r, (balAppend u r).recs = u.recs ∧ (balAppend u r).harn = u.harn := fun u r => by
    unfold balAppend storeQueue
    dsimp only
    split <;> exact ⟨rfl, rfl⟩
  induction fuel generalizing s with
  | zero => exact ⟨rfl, rfl⟩
  | succ fuel ih =>
    unfold balMissed
    dsimp only
    split
    · exact ⟨rfl, rfl⟩
    · split
      · obtain ⟨hr, hh⟩ := ih (fdrPut s n { fdrGet s n with next := (fdrGet s n).next + 1 })
        exact ⟨hr.trans (hput _ _).1, hh.trans (hput _ _).2⟩
      · refine ⟨(ih _).1.trans ((happend _ _).1.trans (hput _ _).1), (ih _).2.trans ((happend _ _).2.trans (hput _ _).2)⟩

theorem balRejoin_recs (s : State) : (balRejoin s).recs = s.recs :=
  foldl_kept _ (·.recs) _ s fun u n _ => (balMissed_kept n 16384 u).1

/-- Ownership come home: the epoch one up, the owner set and told. -/
def ownerHome (s : State) : State := ownerCast (ownerPut (epochUp s) s.harn.pos s.harn.pos true) s.harn.pos

/-- The pair after a return: ON towards a shadow whose copies agree, or judged anew. -/
def pairHome (s : State) (was : Option Nat) : State :=
  if (mirrorReason s).1 = 0 ∧ eastOf (mirrorReason s).2 = was then
    ringLog (harnSet (mirrorReason s).2 fun h => { h with outState := 2, outReason := 0, shadow := was, syncLeft := 0 })
      (mirrorReason s).2.harn.pos 0
  else mirrorEval (mirrorReason s).2

theorem returnDone_eq (s : State) (f : Flight) :
    returnDone s f = completeOk (balRejoin (pairHome
      (((ownerHome s).recs.tab.map (·.1)).foldl relayRestart (ownerHome s)) (serverOf s s.harn.pos))) f 4 0 := by
  unfold returnDone pairHome
  dsimp only
  rfl

theorem linked_pairHome (s : State) (was : Option Nat) : Linked s (pairHome s was) := by
  unfold pairHome
  have hreason := linked_mirrorReason s
  generalize mirrorReason s = x at hreason ⊢
  split
  · exact (hreason.trans (linked_harnSet rfl)).trans (rung_ringLog _ _ _).linked
  · exact hreason.trans (linked_mirrorEval _)

theorem ownerHome_own (s : State) :
    ownView (ownerHome s) = (lset s.recs.owner s.harn.pos (s.harn.pos, true), s.recs.epoch + 1) := by
  unfold ownerHome ownerCast
  exact congrArg (fun r : RecSt => (r.owner, r.epoch)) (rung_ringSend _ _ _ _).recs

theorem returnDone_own (s : State) (f : Flight) :
    ownView (returnDone s f) = (lset s.recs.owner s.harn.pos (s.harn.pos, true), s.recs.epoch + 1) := by
  have hrelay : ∀ (l : List Nat) (u : State), ownView (l.foldl relayRestart u) = ownView u := fun l u =>
    foldl_kept _ ownView l u fun v e _ => congrArg (·.1) (relayRestart_tkoView v e)
  have hpair : ∀ u, ownView (completeOk (balRejoin (pairHome u (serverOf s s.harn.pos))) f 4 0) = ownView u := fun u => by
    have hkept : ownView (balRejoin (pairHome u (serverOf s s.harn.pos))) = ownView u := by
      rw [ownView, balRejoin_recs, (linked_pairHome _ _).recs, ownView]
    generalize balRejoin (pairHome u (serverOf s s.harn.pos)) = v at hkept ⊢
    rw [← hkept]
    exact congrArg (fun t => (t.recs.owner, t.recs.epoch)) (rest_complete v f stOk 4 0 0)
  rw [returnDone_eq, hpair, hrelay, ownerHome_own]

theorem returnDone_formed (s : State) {f : Flight} (hd : f.discard = false) : Formed (returnDone s f) f 0 4 0 0 := by
  rw [returnDone_eq]
  exact formed_complete_self stOk 4 0 0 hd

/-! ## Fencing, and what the commands answer -/

theorem silence_fences {s : State} {p : Nat} (hring : onRing s = true) (hother : p ≠ s.harn.pos)
    (hjoined : inMask s.harn.joinedM p = true) (hlost : beatLost s p = true)
    (halone : ∀ q, q < 8 → q ≠ s.harn.pos → q ≠ p → inMask s.harn.joinedM q = false) :
    silenceDeclared s p false = fence (silenced s p) := by
  rw [silenceDeclared_eq false hring hother hjoined hlost, if_pos (by simp [silenced_alone halone])]

theorem tc0StageHang_fences {s : State} (hring : onRing s = true) :
    (tc0StageHang s).harn.beatsOff = true ∧ (tc0StageHang s).harn.fenced = othersJoined s ∧ (tc0StageHang s).recs = s.recs := by
  unfold tc0StageHang
  rw [if_neg (by simp [hring])]
  cases h : othersJoined s with
  | true => exact ⟨rfl, rfl, rfl⟩
  | false => exact ⟨rfl, onRing_open hring, rfl⟩

theorem rest_setProgress (s : State) (f : Flight) (step units : Nat) : rest (setProgress s f step units) = rest s :=
  rest_jrnlMod _ _ _

theorem harn_of_rest {s t : State} (h : rest t = rest s) : t.harn = { s.harn with ports := t.harn.ports } :=
  congrArg (fun u : State => { u.harn with ports := t.harn.ports }) h

theorem harn_completed_buf (s : State) (f : Flight) (bs : List Byte) (st p n : Nat) (r : BitVec 128) :
    let t := wmUpdate (complete (writeBuf s f bs) f st p n r)
    t.harn = { s.harn with ports := t.harn.ports } := by
  intro t
  have hbuf : (writeBuf s f bs).harn = s.harn := hostWriteData_harn s _ bs
  have h := harn_of_rest (rest_complete (writeBuf s f bs) f st p n r)
  rw [hbuf] at h
  exact h

end Sys2Proof.Machine
end

section
open Sys2Proof Sys2Proof.Machine Sys2Proof.Safety

/-- Settles O59: a chip that hears nothing fences itself, the shadow of a pair that is ON takes the silent position over under
a new epoch (R417 to R421); a return waits for the copies and ends with the position its own again (R422); OP_HARN_STATUS
writes the ring's entries or the commands taken over (R424). -/
theorem silenceTakeoverReturn : Obligations.SilenceTakeoverReturn := by
  refine ⟨fun s p low ha hring hp hother hjoined hlost => ⟨fun hlow halone => ?_, fun hlow hin hpos hpf hlen => ?_⟩,
    fun s ha hring => ?_,
    fun s u f hruns => ⟨fun hout => ?_, fun v hin hring hserver hv hst => ?_, fun hin hring hserver hst => ?_⟩,
    fun s f ha hret hd hpos hlen => ?_, fun s u f hruns hlink => ⟨fun hmode hbuf => ?_, fun hmode hbuf => ?_⟩⟩
  · subst hlow
    refine ⟨_, exec_silenceDeclared p false s ha, ?_⟩
    rw [silence_fences hring hother hjoined hlost halone]
    have hharn := silenced_harn s p
    have hsilent : (fence (silenced s p)).harn.silentM = withBit s.harn.silentM p := congrArg (·.silentM) hharn
    have hleft : (fence (silenced s p)).harn.joinedM = withoutBit s.harn.joinedM p := congrArg (·.joinedM) hharn
    refine ⟨rfl, rfl, ?_, ?_, wireRest_recs (silenced_rest s p)⟩
    · rw [wmUpdate_harn, hsilent, inMask_withBit]
    · rw [wmUpdate_harn, hleft, inMask_withoutBit]
  · subst hlow
    obtain ⟨hfence, hserved, hserver, hepoch, hstate, hcnt⟩ :=
      silence_takesOver hring hp hother hjoined hlost hin hpos hpf hlen
    exact ⟨_, exec_silenceDeclared p true s ha, hfence, hserved, hserver, hepoch, hstate, hcnt⟩
  · obtain ⟨hbeat, hfence, hrecs⟩ := tc0StageHang_fences hring
    exact ⟨_, exec_tc0StageHang s ha, hbeat, hfence, hrecs⟩
  · obtain ⟨ha, hr, hs, hd⟩ := hruns
    refine ⟨_, exec_opHarnReturn u s ha, ?_⟩
    rw [harnReturn, withDesc_run _ _ _ _ _ hr hs, if_pos (by simp [hout])]
    exact ⟨completed_self s f stOff 0 0 0 hd, by simp [reject]⟩
  · obtain ⟨ha, hr, hs, hd⟩ := hruns
    obtain ⟨huid, hfl⟩ := runnable_uid hr
    refine ⟨_, { f with stage := .wait s.tcxo 2 0, step := 1, units := 0 }, exec_opHarnReturn u s ha, ?_⟩
    rw [harnReturn, withDesc_run _ _ _ _ _ hr hs, if_neg (by simp [hin]), hst]
    dsimp only
    rw [if_neg (by simp [hring, hserver, hv])]
    exact ⟨flightOf_setProgress (g := { f with stage := .wait s.tcxo 2 0 }) huid hfl 1 0, rfl, rfl,
      rest_setProgress s _ 1 0⟩
  · obtain ⟨ha, hr, hs, hd⟩ := hruns
    refine ⟨_, exec_opHarnReturn u s ha, ?_⟩
    rw [harnReturn, withDesc_run _ _ _ _ _ hr hs, if_neg (by simp [hin]), hst]
    dsimp only
    rw [if_pos (by simp [hserver])]
    exact ⟨completed_self s f stBad 0 0 _ hd, by simp [badParam, bad, reject]⟩
  · have hown := returnDone_own s f
    have heq : mirrorSyncComplete s = returnDone s f := by rw [mirrorSyncComplete, hret]
    have howner : (returnDone s f).recs.owner = lset s.recs.owner s.harn.pos (s.harn.pos, true) := congrArg (·.1) hown
    refine ⟨_, exec_mirrorSyncComplete s ha, ?_⟩
    rw [heq]
    refine ⟨formed_wmUpdate (returnDone_formed s hd), serverOf_of ?_, congrArg (·.2) hown⟩
    rw [wmUpdate_recs, howner, lget_lset_same _ _ _ _ (by omega)]
  · obtain ⟨ha, hr, hs, hd⟩ := hruns
    refine ⟨_, exec_opHarnStatusRing u s ha, ?_⟩
    rw [harnStatusRing, withSub_run _ _ _ _ _ _ _ _ hr hs hmode, if_neg (by simp [hmode]), if_neg (by omega)]
    exact ⟨completed_writeBuf hd _ _ _ _ _, wrote_complete hlink f _ _ _ _ _, harn_completed_buf s f _ _ _ _ _⟩
  · obtain ⟨ha, hr, hs, hd⟩ := hruns
    refine ⟨_, exec_opHarnStatusTakenOver u s ha, ?_⟩
    rw [harnStatusTaken, withSub_run _ _ _ _ _ _ _ _ hr hs hmode, if_neg (by simp [hmode]), if_neg (by omega)]
    exact ⟨completed_writeBuf hd _ _ _ _ _, wrote_complete hlink f _ _ _ _ _, harn_completed_buf s f _ _ _ _ _⟩

end

section
/-!
# Metering, the seal loop, inference and balance (09 R285 to R300)

What one second, one check of the loop, the end of an interval or a window, and the evaluation of a balance interval leave.
-/
namespace Sys2Proof.Machine
open Sys2Proof Sys2Proof.Safety

/-! ## The metering second (R285) -/

theorem lget_map_range {α : Type} (d : α) (g : Nat → α) {n i : Nat} (h : i < n) : lget d ((List.range n).map g) i = g i := by
  rw [lget_getD, List.getElem?_map, List.getElem?_range h]
  rfl

theorem faultCause_stops {s : State} {id : Nat} (cause : Nat) (h : fnOn s id = true) :
    (fnGet (faultCause s id cause) id).st = .stopping ∧ (faultCause s id cause).met = s.met ∧
      (faultCause s id cause).recs = s.recs := by
  unfold faultCause
  rw [if_pos h]
  refine ⟨?_, ?_, ?_⟩
  · rw [fnGet, logEvent_funcs]
    exact congrArg Fn.st (fnGet_fnPut s id _)
  · rw [logEvent_met]
    rfl
  · rw [logEvent_recs]
    rfl

/-- The interval in progress closed where the second that ended began another. -/
def secondClosed (s : State) : State :=
  if s.met.ivK < infIdx s (nowSec s - 1) then ivClose s (infIdx s (nowSec s - 1)) else s

/-- The accumulators kept as a balance interval begins. -/
def secondSnapped (s : State) : State :=
  let k := balIdx s (nowSec s - 1)
  if k = s.met.balK then s else metSet s fun m => { m with balK := k, snaps := (readNow m k :: m.snaps).take 512 }

theorem secondClosed_kept (s : State) : (secondClosed s).met.energy = s.met.energy ∧ (secondClosed s).met.q = s.met.q ∧
    (secondClosed s).recs = s.recs ∧ (secondClosed s).funcs = s.funcs ∧ (secondClosed s).time = s.time := by
  unfold secondClosed
  split <;> exact ⟨rfl, rfl, rfl, rfl, rfl⟩

theorem secondSnapped_kept (s : State) : (secondSnapped s).met.energy = s.met.energy ∧ (secondSnapped s).met.q = s.met.q ∧
    (secondSnapped s).recs = s.recs ∧ (secondSnapped s).funcs = s.funcs := by
  unfold secondSnapped
  dsimp only
  split <;> exact ⟨rfl, rfl, rfl, rfl⟩

theorem metrologySecond_eq {s : State} {x : MetSecond} (hon : feOn s = true) (hx : x.bad = none) :
    metrologySecond s x =
      cnt (metSet (secondSnapped (secondClosed s)) fun m => metAdd m (nowSec s - 1) x) 423 := by
  have hnow : nowSec (secondClosed s) = nowSec s := by
    obtain ⟨-, -, -, -, htime⟩ := secondClosed_kept s
    rw [nowSec, dtOf, htime, nowSec, dtOf]
  unfold metrologySecond
  rw [if_neg (by simp [hon]), hx]
  dsimp only
  rw [← hnow]
  unfold secondSnapped
  rw [hnow]
  rfl

theorem metAdd_energy (m : MetSt) (sec : Nat) (x : MetSecond) {i : Nat} (h : i < 12) :
    lget 0 (metAdd m sec x).energy i = lget 0 m.energy i + BitVec.ofInt 64 (lget 0 x.ener i) ∧
      lget 0 (metAdd m sec x).q i = lget 0 m.q i + BitVec.ofNat 64 (lget 0 x.qsum i) :=
  ⟨lget_map_range 0 (fun i => lget 0 m.energy i + BitVec.ofInt 64 (lget 0 x.ener i)) h,
    lget_map_range 0 (fun i => lget 0 m.q i + BitVec.ofNat 64 (lget 0 x.qsum i)) h⟩

theorem metrologySecond_adds {s : State} {x : MetSecond} (hon : feOn s = true) (hx : x.bad = none) :
    let t := metrologySecond s x
    t.met.secStart = nowSec s - 1 ∧ t.met.last = x ∧
      (∀ i, i < 12 → lget 0 t.met.energy i = lget 0 s.met.energy i + BitVec.ofInt 64 (lget 0 x.ener i) ∧
        lget 0 t.met.q i = lget 0 s.met.q i + BitVec.ofNat 64 (lget 0 x.qsum i)) ∧ t.recs = s.recs ∧ t.funcs = s.funcs := by
  intro t
  obtain ⟨e1, q1, r1, f1, -⟩ := secondClosed_kept s
  obtain ⟨e2, q2, r2, f2⟩ := secondSnapped_kept (secondClosed s)
  have heq : t = cnt _ 423 := metrologySecond_eq hon hx
  generalize secondSnapped (secondClosed s) = u at e2 q2 r2 f2 heq
  have hmet : t.met = metAdd u.met (nowSec s - 1) x := by
    rw [heq, cnt_met]
    rfl
  rw [hmet]
  refine ⟨rfl, rfl, fun i hi => ?_, ?_, ?_⟩
  · rw [← e1, ← q1, ← e2, ← q2]
    exact metAdd_energy u.met (nowSec s - 1) x hi
  · rw [heq, cnt_recs]
    exact r2.trans r1
  · rw [heq, cnt_funcs]
    exact f2.trans f1

/-! ## The seal loop (R288, R289) -/

theorem drbgUse_met (s : State) : (drbgUse s).met = s.met ∧ (drbgUse s).tcxo = s.tcxo :=
  ⟨congrArg (·.met) (keyRest_drbgUse s), congrArg (·.tcxo) (keyRest_drbgUse s)⟩

theorem sealLoopCheck_matched {s : State} (hreset : s.pins.resetLow = false) (hdrbg : drbgOpen s = true) :
    (sealLoopCheck s true).met = { s.met with mis := 0, loopSince := some (s.met.loopSince.getD s.tcxo) } := by
  obtain ⟨hmet, hnow⟩ := drbgUse_met s
  rw [sealLoopCheck, if_neg (by simp [hreset, hdrbg])]
  dsimp only
  rw [← hmet, ← hnow]
  rfl

/-- A mismatch counted. -/
def misCounted (s : State) : State :=
  cnt (metSet (drbgUse s) fun m => { m with mis := m.mis + 1, loopSince := none }) 424

theorem misCounted_met (s : State) : (misCounted s).met = { s.met with mis := s.met.mis + 1, loopSince := none } := by
  rw [misCounted, cnt_met, ← (drbgUse_met s).1]
  rfl

theorem sealLoopCheck_mismatch {s : State} (hreset : s.pins.resetLow = false) (hdrbg : drbgOpen s = true) :
    sealLoopCheck s false = if 3 ≤ s.met.mis + 1 then loopLatch (misCounted s) 0 else misCounted s := by
  have hmis : (misCounted s).met.mis = s.met.mis + 1 := by rw [misCounted_met]
  rw [← hmis, sealLoopCheck, if_neg (by simp [hreset, hdrbg])]
  rfl

theorem loopLatch_met (s : State) (k : Nat) :
    (loopLatch s k).met.latched = true ∧ (loopLatch s k).met.loopSince = s.met.loopSince := by
  unfold loopLatch
  split
  · next h => exact ⟨h, rfl⟩
  · rw [loopLog, logEvent_met]
    exact ⟨rfl, rfl⟩

/-! ## Inference windows (R294 to R296) -/

/-- A meter's result, with the location where it is inferred and the host has placed none. -/
theorem inferred_kept (s : State) (eid : Nat) (m : MInf) (r : EpRec) (okF new : Bool) :
    let t := if (okF && !wbit (recGet s eid).gridLoc 4 && new) = true then recChange (mPut s eid m) eid r else mPut s eid m
    t.met.winK = s.met.winK ∧ ∀ e, wbit (recGet s e).gridLoc 4 = true → recGet t e = recGet s e := by
  intro t
  by_cases hnew : (okF && !wbit (recGet s eid).gridLoc 4 && new) = true
  · have ht : t = recChange (mPut s eid m) eid r := if_pos hnew
    rw [ht]
    refine ⟨?_, fun e he => ?_⟩
    · rw [recChange_met]
      rfl
    · have hne : e ≠ eid := fun h => by
        subst h
        simp [he] at hnew
      rw [recGet_recChange_ne _ _ _ hne]
      rfl
  · have ht : t = mPut s eid m := if_neg hnew
    rw [ht]
    exact ⟨rfl, fun _ _ => rfl⟩

/-- A step of the window leaves the records the host placed, and the window's count. -/
theorem inferOne_kept (s : State) (eid : Nat) : (inferOne s eid).met.winK = s.met.winK ∧
    ∀ e, wbit (recGet s e).gridLoc 4 = true → recGet (inferOne s eid) e = recGet s e := by
  unfold inferOne
  dsimp only
  split
  · exact ⟨rfl, fun _ _ => rfl⟩
  · split
    · exact ⟨rfl, fun _ _ => rfl⟩
    · exact inferred_kept s eid _ _ _ _

theorem foldl_inferOne (l : List Nat) (s : State) : (l.foldl inferOne s).met.winK = s.met.winK ∧
    ∀ e, wbit (recGet s e).gridLoc 4 = true → recGet (l.foldl inferOne s) e = recGet s e := by
  induction l generalizing s with
  | nil => exact ⟨rfl, fun _ _ => rfl⟩
  | cons a l ih =>
    obtain ⟨hwin, hrec⟩ := inferOne_kept s a
    obtain ⟨hw, hr⟩ := ih (inferOne s a)
    refine ⟨hw.trans hwin, fun e he => ?_⟩
    exact (hr e (by rw [hrec e he]; exact he)).trans (hrec e he)

theorem inferenceWindowEnd_ends {s : State} (hon : crvOn s = true) (hend : s.met.winK + regFld s 0xB020 0 16 ≤ s.met.ivK) :
    (inferenceWindowEnd s).met.winK = s.met.winK + regFld s 0xB020 0 16 ∧
      ∀ e, wbit (recGet s e).gridLoc 4 = true → recGet (inferenceWindowEnd s) e = recGet s e := by
  obtain ⟨hwin, hrec⟩ := foldl_inferOne (s.met.meters.map (·.1)) s
  have hgo : ¬ (!crvOn s || decide (s.met.ivK < s.met.winK + regFld s 0xB020 0 16)) = true := by
    rw [hon, decide_eq_false (by omega)]
    decide
  unfold inferenceWindowEnd
  dsimp only
  rw [if_neg hgo]
  exact ⟨congrArg (· + regFld s 0xB020 0 16) hwin, hrec⟩

/-! ## A balance interval evaluated (R298 to R300) -/

/-- The state an evaluation starts from. -/
structure BalanceFrom (s u : State) : Prop where
  fdr : ∀ n, fdrGet u n = fdrGet s n
  on : crvOn u = crvOn s
  now : nowSec u = nowSec s
  due : secondDue u = secondDue s
  room : storeRoom u = storeRoom s
  recs : u.met.recs = s.met.recs
  next : u.met.nextBseq = s.met.nextBseq
  tab : u.recs = s.recs
  start : ∀ i, balStart u i = balStart s i
  mapped : ∀ n, mappedOn u n = mappedOn s n
  whole : covers u = covers s
  grace : regFld u 0xB000 8 8 = regFld s 0xB000 8 8

theorem balanceFrom (s : State) : BalanceFrom s (inferenceIntervalEnd s) := by
  unfold inferenceIntervalEnd
  dsimp only
  split <;> exact ⟨fun _ => rfl, rfl, rfl, rfl, rfl, rfl, rfl, rfl, fun _ => rfl, fun _ => rfl, rfl, rfl⟩

theorem balForm_gives (s : State) (n k : Nat) (f : Fdr) (m : FeederMap) :
    (balForm s n k f m).1.feeder = n ∧ (balForm s n k f m).1.start = balStart s k ∧
      (balForm s n k f m).1.d = (balForm s n k f m).1.eIn - (balForm s n k f m).1.eMet - (balForm s n k f m).1.lTech ∧
      (balForm s n k f m).2.next = k + 1 := ⟨rfl, rfl, rfl, rfl⟩

/-- A feeder after a scored interval. -/
def fdrScored (r : BalRec) (f : Fdr) (m : FeederMap) : Fdr :=
  if r.flags % 8 == 0 then { fdrMove f (r.flags / 32 % 2 == 1) m.persist with neg := r.flags / 16 % 2 == 1 } else f

theorem fdrScored_next (r : BalRec) (f : Fdr) (m : FeederMap) : (fdrScored r f m).next = f.next := by
  unfold fdrScored
  split
  · unfold fdrMove
    split
    · split
      · rfl
      · split <;> rfl
    · split <;> rfl
  · rfl

/-- The record an interval leaves, under its number. -/
def balRecord (s : State) (r : BalRec) (g : Fdr) : BalRec := { r with st := g.st, run := g.run, bseq := s.met.nextBseq }

theorem balAppend_met (s : State) (r : BalRec) : (balAppend s r).met =
    { s.met with nextBseq := s.met.nextBseq + 1, recs := ({ r with bseq := s.met.nextBseq } :: s.met.recs).take 16384 } := by
  unfold balAppend storeQueue
  dsimp only
  split <;> rfl

/-- The interval's record appended beside the feeder it moved. -/
def balKept (s : State) (n : Nat) (r : BalRec) (g : Fdr) : State := balAppend (fdrPut s n g) { r with st := g.st, run := g.run }

theorem balScore_eq (s : State) (n : Nat) (r : BalRec) (f : Fdr) (m : FeederMap) :
    balScore s n r f m =
      if ((f.st == 2) == ((fdrScored r f m).st == 2)) = true then balKept s n r (fdrScored r f m)
      else logEvent 0x0602 (n + 256 * b2n ((fdrScored r f m).st != 2) + 2 ^ 32 * signedBits 64 r.d)
        (balKept s n r (fdrScored r f m)) := rfl

theorem balScore_met (s : State) (n : Nat) (r : BalRec) (f : Fdr) (m : FeederMap) :
    (balScore s n r f m).met = (balKept s n r (fdrScored r f m)).met := by
  rw [balScore_eq]
  split
  · rfl
  · rw [logEvent_met]

theorem balScore_ends (s : State) (n : Nat) (r : BalRec) (f : Fdr) (m : FeederMap) :
    let t := balScore s n r f m
    t.met.recs = (balRecord s r (fdrScored r f m) :: s.met.recs).take 16384 ∧ t.met.nextBseq = s.met.nextBseq + 1 ∧
      fdrGet t n = fdrScored r f m ∧ ∀ x, x ≠ n → fdrGet t x = fdrGet s x := by
  intro t
  have hmet : t.met = _ := (balScore_met s n r f m).trans (balAppend_met _ _)
  have hfdr : ∀ x, fdrGet t x = tget Fdr.idle (tset Fdr.idle s.met.feeders n (fdrScored r f m)) x := fun x => by
    rw [fdrGet, hmet]
    rfl
  refine ⟨by rw [hmet]; rfl, by rw [hmet]; rfl, ?_, fun x hx => ?_⟩
  · rw [hfdr, tget_tset_same]
  · rw [hfdr, tget_tset_other _ _ _ _ _ hx, fdrGet]

/-- An interval past its end, its second taken, is evaluated. -/
theorem balanceEvaluation_eq {s : State} {n : Nat} (hn : n < 4) (hon : crvOn s = true) (hmaps : (fdrGet s n).maps ≠ [])
    (hend : balStart s ((fdrGet s n).next + 1) ≤ nowSec s) (hdue : secondDue s = false) :
    let u := inferenceIntervalEnd s
    let f := fdrGet s n
    let m := mapAt f f.next
    balanceEvaluation s n =
      if !m.en then fdrPut u n { f with next := f.next + 1, st := 3, run := 0, clear := 0, neg := false }
      else if !storeRoom s || (!((mappedOn s n).all (covers s f.next)) &&
          decide (nowSec s < balStart s (f.next + 1) + 600 * regFld s 0xB000 8 8)) then u
      else
        let g := if f.st = 3 then { f with st := 0 } else f
        balScore u n (balForm u n f.next g m).1 (balForm u n f.next g m).2 m := by
  intro u f m
  have h := balanceFrom s
  have hsome : f.maps.isEmpty = false := Bool.eq_false_iff.mpr fun e => hmaps (List.isEmpty_iff.mp e)
  have hgo : ¬ (4 ≤ n ∨ (!crvOn u) = true ∨ f.maps.isEmpty = true ∨ nowSec u < balStart u (f.next + 1) ∨
      secondDue u = true) := by
    rw [h.on, h.now, h.start, h.due, hon, hdue, hsome]
    have hlast : balStart s (f.next + 1) ≤ nowSec s := hend
    simp only [Bool.not_true, Bool.false_eq_true, false_or, or_false]
    omega
  unfold balanceEvaluation
  dsimp only
  rw [h.fdr n, if_neg hgo, h.room, h.mapped, h.whole, h.now, h.start, h.grace]

end Sys2Proof.Machine
end

section
/-!
# Feeder maps, reseals and the four reports (09 R288, R298, R301 to R305)

Each report is bytes written to the buffer and a completion; a reseal and a map change the metrology state alone.
-/
namespace Sys2Proof.Machine
open Sys2Proof Sys2Proof.Safety

/-! ## OP_FEEDER_MAP -/

/-- The map joined to its feeder, with the meters of its groups held where the command asks for it. -/
def feederMapped (s : State) (f : Flight) : State :=
  let n := dByte f.raw 24 1
  let m := fmMap f.raw
  let t := appendState s 0 (.feeder n m)
  let u := fdrPut t n (fdrSet (fdrGet t n) m (balIdx t (nowSec t) + 1))
  if dByte f.raw 25 1 / 2 % 2 = 1 then infClear u m.groupMask.toNat else u

theorem feederMap_run {s : State} {u : Nat} {f : Flight} (hr : runnable s u 0x59 = some f) (hs : stateShut s u = false)
    (h : fmBad f.raw = none) : feederMap s u = completeOk (feederMapped s f) f 3 0 := by
  rw [feederMap, withDesc_run s u 0x59 _ f hr hs, h]
  rfl

theorem infClear_kept (s : State) (mask : Nat) : fdrGet (infClear s mask) = fdrGet s ∧
    (infClear s mask).host = s.host ∧ (infClear s mask).hostMem = s.hostMem ∧ (infClear s mask).recs = s.recs :=
  ⟨rfl, rfl, rfl, rfl⟩

theorem fdrPut_kept (s : State) (n : Nat) (g : Fdr) : fdrGet (fdrPut s n g) n = g ∧
    (∀ x, x ≠ n → fdrGet (fdrPut s n g) x = fdrGet s x) ∧ (fdrPut s n g).host = s.host ∧
    (fdrPut s n g).hostMem = s.hostMem ∧ (fdrPut s n g).recs = s.recs ∧ (fdrPut s n g).met.recs = s.met.recs :=
  ⟨tget_tset_same _ _ _ _, fun _ hx => tget_tset_other _ _ _ _ _ hx, rfl, rfl, rfl, rfl⟩

/-- The present interval depends on the metrology state, the calendars and the time. -/
theorem balIdx_congr {s t : State} (hmet : t.met = s.met) (htime : t.time = s.time) (hbill : t.bill = s.bill) :
    balIdx t (nowSec t) = balIdx s (nowSec s) := by
  have hnow : nowSec t = nowSec s := by rw [nowSec, dtOf, htime, nowSec, dtOf]
  have hutc : taiUtc t (nowSec s) = taiUtc s (nowSec s) := by rw [taiUtc, htime, taiUtc]
  have hcal : calGet t = calGet s := by
    funext c
    rw [calGet, hbill, calGet]
  rw [hnow, balIdx, balIdx, alignStd, alignStd, balLen, balLen, calLoaded, calLoaded, stdOf, stdOf, hcal, hmet, hutc]

theorem balIdx_appendState (s : State) (w : Word) (e : JEnt) :
    balIdx (appendState s w e) (nowSec (appendState s w e)) = balIdx s (nowSec s) := by
  have h := rest_appendState s w e
  have hmet : (appendState s w e).met = s.met := congrArg (·.met) h
  have htime : (appendState s w e).time = s.time := congrArg (·.time) h
  have hbill : (appendState s w e).bill = s.bill := congrArg (·.bill) h
  exact balIdx_congr hmet htime hbill

theorem feederMapped_kept (s : State) (f : Flight) :
    let t := feederMapped s f
    let n := dByte f.raw 24 1
    fdrGet t n = fdrSet (fdrGet s n) (fmMap f.raw) (balIdx s (nowSec s) + 1) ∧ (∀ x, x ≠ n → fdrGet t x = fdrGet s x) ∧
      t.host.cq = s.host.cq ∧ t.hostMem = s.hostMem ∧ t.recs.tab = s.recs.tab := by
  intro t n
  have hidx := balIdx_appendState s 0 (.feeder n (fmMap f.raw))
  have hmet := appendState_met s 0 (.feeder n (fmMap f.raw))
  have hcq := appendState_host_cq s 0 (.feeder n (fmMap f.raw))
  have hmem := appendState_hostMem s 0 (.feeder n (fmMap f.raw))
  have htab : (appendState s 0 (.feeder n (fmMap f.raw))).recs.tab = s.recs.tab := appendState_recs_tab s 0 _
  have ht : t = feederMapped s f := rfl
  unfold feederMapped at ht
  dsimp only at ht
  rw [hidx] at ht
  generalize appendState s 0 (.feeder n (fmMap f.raw)) = v at hmet hcq hmem htab ht
  have hfdr : ∀ x, fdrGet v x = fdrGet s x := fun x => by rw [fdrGet, hmet, fdrGet]
  rw [hfdr] at ht
  obtain ⟨hsame, hother, hhost, hpmem, hrecs, -⟩ :=
    fdrPut_kept v n (fdrSet (fdrGet s n) (fmMap f.raw) (balIdx s (nowSec s) + 1))
  generalize fdrPut v n _ = w at hsame hother hhost hpmem hrecs ht
  have hw : fdrGet t = fdrGet w ∧ t.host = w.host ∧ t.hostMem = w.hostMem ∧ t.recs = w.recs := by
    rw [ht]
    split
    · exact infClear_kept w _
    · exact ⟨rfl, rfl, rfl, rfl⟩
  obtain ⟨h1, h2, h3, h4⟩ := hw
  refine ⟨by rw [h1, hsame], fun x hx => by rw [h1, hother x hx, hfdr], by rw [h2, hhost, hcq], by rw [h3, hpmem, hmem], ?_⟩
  rw [h4, hrecs, htab]

/-! ## OP_CAL_RESEAL (R288) -/

/-- A reseal's change of the metrology state. -/
def resealMet (s : State) (b : List Byte) : State :=
  metSet s fun m =>
    let m := if rsFlags b % 2 = 1 then calWrite m ((b.drop 128).take 1024) else m
    { m with resealSeq := BitVec.ofNat 32 (tb4 b 8), sealedDig := s.boot.dLm, latched := false, mis := 0,
             calLock := m.calLock || decide (2 ≤ rsFlags b) }

/-- A reseal done, up to its completion. -/
def resealed (s : State) (f : Flight) (b : List Byte) : State := metNonce (setProgress (resealMet s b) f 3 0)

theorem calReseal_run {s : State} {u : Nat} {f : Flight} {b : List Byte} {a g : Bool} (hr : runnable s u 0x5A = some f)
    (hs : stateShut s u = false) (h : resealBad s f b a g = none) (hd : drbgOpen s = true) :
    calReseal s u b a g =
      completeOk (resealed s f b) { f with step := 3 } 4 (result4 (sealState (resealed s f b)) 0 0 0) := by
  rw [calReseal, withDesc_run s u 0x5A _ f hr hs, h]
  dsimp only
  rw [if_neg (by simp [hd])]
  rfl

/-- A nonce from the DRBG leaves what a reseal set, the rings and the records. -/
theorem metNonce_kept (s : State) : (metNonce s).met = { s.met with nonce := (metNonce s).met.nonce } ∧
    (metNonce s).boot = s.boot ∧ (metNonce s).recs = s.recs ∧ (metNonce s).host.cq = s.host.cq := by
  have h := keyRest_drbgUse s
  have hmet : (drbgUse s).met = s.met := congrArg (·.met) h
  have hboot : (drbgUse s).boot = s.boot := congrArg (·.boot) h
  have hrecs : (drbgUse s).recs = s.recs := congrArg (·.recs) h
  have hcq := keyRest_cq h
  unfold metNonce
  generalize drbgUse s = u at hmet hboot hrecs hcq
  refine ⟨?_, hboot, hrecs, hcq⟩
  rw [← hmet]
  rfl

theorem calWrite_lock (m : MetSt) (l : List Byte) : (calWrite m l).calLock = m.calLock := by
  unfold calWrite
  dsimp only
  split <;> rfl

theorem resealed_kept (s : State) (f : Flight) (b : List Byte) :
    let t := resealed s f b
    t.met.resealSeq = BitVec.ofNat 32 (tb4 b 8) ∧ t.met.sealedDig = s.boot.dLm ∧ t.met.latched = false ∧
      t.met.calLock = (s.met.calLock || decide (2 ≤ rsFlags b)) ∧ t.recs.tab = s.recs.tab ∧ t.host.cq = s.host.cq := by
  intro t
  obtain ⟨hmet, hboot, hrecs, hcq⟩ := metNonce_kept (setProgress (resealMet s b) f 3 0)
  have hprog := rest_setProgress (resealMet s b) f 3 0
  have hpm : (setProgress (resealMet s b) f 3 0).met = (resealMet s b).met := congrArg (·.met) hprog
  have hpr : (setProgress (resealMet s b) f 3 0).recs.tab = s.recs.tab := congrArg (·.recs.tab) hprog
  have hpc : (setProgress (resealMet s b) f 3 0).host.cq = s.host.cq := setProgress_host_cq _ f 3 0
  have ht : t.met = { (resealMet s b).met with nonce := t.met.nonce } := by
    rw [← hpm]
    exact hmet
  have hlock : (resealMet s b).met.calLock = (s.met.calLock || decide (2 ≤ rsFlags b)) := by
    have : (if rsFlags b % 2 = 1 then calWrite s.met ((b.drop 128).take 1024) else s.met).calLock = s.met.calLock := by
      split
      · exact calWrite_lock _ _
      · rfl
    exact congrArg (· || decide (2 ≤ rsFlags b)) this
  refine ⟨by rw [ht]; rfl, by rw [ht]; rfl, by rw [ht]; rfl, ?_, ?_, ?_⟩
  · rw [ht]
    exact hlock
  · exact (congrArg (·.tab) hrecs).trans hpr
  · exact hcq.trans hpc

theorem sealState_wm {s t : State} (hm : t.met = s.met) (hb : t.boot = s.boot) : sealState t = sealState s := by
  rw [sealState, sealState, hm, hb]

/-! ## OP_CREVASSE_REPORT (R301 to R305) -/

/-- What a report of bytes leaves: its completion, the buffer, the metrology state and the records. -/
theorem report_answers {s : State} {f : Flight} (hup : s.host.linkDown = false) (hd : f.discard = false) (bs : List Byte)
    (r : BitVec 128) :
    let t := wmUpdate (completeOk (writeBuf s f bs) f 0 r)
    Completed s t f 0 0 0 r ∧ Wrote s t (dBufAddr f.raw) bs ∧ t.met = s.met ∧ t.recs.tab = s.recs.tab := by
  intro t
  have hmet : (writeBuf s f bs).met = s.met := hostWriteData_met s _ bs
  have hrecs : (writeBuf s f bs).recs = s.recs := hostWriteData_recs s _ bs
  refine ⟨completed_writeBuf hd bs _ _ _ _, wrote_complete hup f bs _ _ _ _, ?_, ?_⟩
  · exact (complete_met (writeBuf s f bs) f stOk 0 0 r).trans hmet
  · exact (congrArg (·.recs.tab) (rest_complete (writeBuf s f bs) f stOk 0 0 r)).trans (congrArg (·.tab) hrecs)

/-- The balance records a type 0 read hands out. -/
def balOut (s : State) (raw : BitVec 512) : List BalRec :=
  (s.met.recs.reverse.filter fun r => decide (dByte raw 28 4 ≤ r.bseq.toNat)).take (dBufLen raw / 64)

/-- The number to ask for next. -/
def balNext (s : State) (raw : BitVec 512) : Nat :=
  match (balOut s raw).getLast? with
  | some r => r.bseq.toNat + 1
  | none => max (dByte raw 28 4) (if dByte raw 28 4 < (balOldest s).toNat then (balOldest s).toNat else 0)

theorem balGetDone_eq (s : State) (f : Flight) :
    balGetDone s f = completeOk (writeBuf s f ((balOut s f.raw).map balBytes).flatten) f 0
      (result4 (balOut s f.raw).length (balNext s f.raw) (balOldest s).toNat
        (b2n (decide (dByte f.raw 28 4 < (balOldest s).toNat)))) := by
  unfold balGetDone balNext
  dsimp only
  simp only [decide_eq_true_eq]
  rfl

theorem balGetDone_answers {s : State} {f : Flight} (hup : s.host.linkDown = false) (hd : f.discard = false) :
    let t := wmUpdate (balGetDone s f)
    Completed s t f 0 0 0 (result4 (balOut s f.raw).length (balNext s f.raw) (balOldest s).toNat
        (b2n (decide (dByte f.raw 28 4 < (balOldest s).toNat)))) ∧
      Wrote s t (dBufAddr f.raw) ((balOut s f.raw).map balBytes).flatten ∧ t.met = s.met := by
  rw [balGetDone_eq]
  obtain ⟨h1, h2, h3, -⟩ := report_answers hup hd ((balOut s f.raw).map balBytes).flatten _
  exact ⟨h1, h2, h3⟩

section
variable {s : State} {u : Nat} {f : Flight} (hr : runnable s u 0x58 = some f) (hs : stateShut s u = false)
include hr hs

theorem crvBalance_run (h0 : dByte f.raw 24 1 = 0) (h25 : spanSet f.raw 25 1 = none) (h34 : spanSet f.raw 34 2 = none)
    (hw : dByte f.raw 32 2 ≤ 10000) :
    crvBalance s u =
      if dByte f.raw 32 2 == 0 || (s.met.recs.any fun r => decide (dByte f.raw 28 4 ≤ r.bseq.toNat)) then balGetDone s f
      else match f.stage with
        | .wait _ _ _ => s
        | _ => flightPut s { f with stage := .wait s.tcxo (dByte f.raw 32 2) 0 } := by
  rw [crvBalance, withSub_run s u 0x58 24 0 _ _ f hr hs h0, if_neg (by simp [h0]),
    ifUnused_all (by simp [h25, h34])]
  exact if_neg (Nat.not_lt.mpr hw)

/-- The inference entries of the records in use at this position, from an index on. -/
def infEntries (s : State) (from_ : Nat) : List (Nat × InfEnt) :=
  s.met.meters.filterMap fun p =>
    if ((recGet s p.1).state == 1 || (recGet s p.1).state == 2) && eidHome p.1 == s.harn.pos &&
      decide (from_ ≤ eidIndex p.1) then p.2.res.map fun e => (p.1, e) else none

theorem crvInference_run (h1 : dByte f.raw 24 1 = 1) (h25 : spanSet f.raw 25 1 = none) (h32 : spanSet f.raw 32 4 = none) :
    let out := (infEntries s (dByte f.raw 28 4)).take (dBufLen f.raw / 16)
    crvInference s u = completeOk (writeBuf s f (out.map fun p => infBytes p.1 p.2).flatten) f 0
      (result4 out.length (match out.getLast? with | some p => eidIndex p.1 + 1 | none => dByte f.raw 28 4) 0 0) := by
  intro out
  rw [crvInference, withSub_run s u 0x58 24 1 _ _ f hr hs h1, if_neg (by simp [h1]), ifUnused_all (by simp [h25, h32])]
  rfl

/-- The scores of a feeder's meters over its last scored intervals, in the order of the report. -/
def feederScores (s : State) (n w : Nat) : List Score :=
  ((mappedOn s n).map (scoreOne s ((s.met.recs.filter fun r => r.feeder == n && r.flags % 8 == 0).take w))).foldr scoreIns []

theorem crvScores_run (h2 : dByte f.raw 24 1 = 2) (h28 : spanSet f.raw 28 6 = none) (hn : dByte f.raw 25 1 < 4)
    (hlo : 16 ≤ dByte f.raw 34 2) (hhi : dByte f.raw 34 2 ≤ 672) :
    let out := (feederScores s (dByte f.raw 25 1) (dByte f.raw 34 2)).take (dBufLen f.raw / 16)
    crvScores s u = storeRun s f (completeOk (writeBuf s f (out.map scoreBytes).flatten) f 0 (result4 out.length 0 0 0)) := by
  intro out
  rw [crvScores, withSub_run s u 0x58 24 2 _ _ f hr hs h2, if_neg (by simp [h2]), ifUnused_all (by simp [h28])]
  dsimp only
  rw [if_neg (by omega), if_neg (by omega)]
  rfl

theorem crvSnapshot_run (h3 : dByte f.raw 24 1 = 3) (h25 : spanSet f.raw 25 1 = none) (h28 : spanSet f.raw 28 8 = none) :
    crvSnapshot s u =
      if !feOn s then reject s f stOff 0
      else if dBufLen f.raw < 128 then badBuf s f 16
      else completeOk (writeBuf s f (snapshotBytes s)) f 0 (result4 1 0 0 0) := by
  rw [crvSnapshot, withSub_run s u 0x58 24 3 _ _ f hr hs h3, if_neg (by simp [h3]), ifUnused_all (by simp [h25, h28])]

end

theorem awake_out {s : State} (h : awake s = true) : s.pins.resetLow = false := by
  rw [awake, Bool.and_eq_true, Bool.not_eq_true'] at h
  exact h.1

/-- A refusal is a completion that changes nothing else. -/
theorem reject_answers {s : State} {f : Flight} (hd : f.discard = false) (st : Nat) (r : BitVec 128) :
    Completed s (wmUpdate (reject s f st r)) f st 0 0 r ∧ rest (wmUpdate (reject s f st r)) = rest s :=
  ⟨completed_self s f st 0 0 r hd, by simp [reject]⟩

end Sys2Proof.Machine
end

section
open Sys2Proof Sys2Proof.Machine Sys2Proof.Safety

/-- Settles O60: a second adds its sums or stops the front end, the seal loop latches at the third mismatch or at a pulse of the
backup domain, intervals and windows end, a feeder's interval is one record, and the six commands change what they say. -/
theorem meteringAndAnalysis : Obligations.MeteringAndAnalysis := by
  refine ⟨fun s x ha hon => ⟨fun i hi => ?secondBad, fun hx => ?second⟩, fun s ha => ⟨fun hd => ⟨?matched, fun hm => ?missed,
    fun hm => ?latched⟩, fun hd b => ?noDraw⟩, fun s hr => ⟨?pulseOk, fun hl => ?pulseLost⟩,
    fun s ha hk hdue => ?interval, fun s ha ht hon hend => ?window,
    fun s n ha hn hon hmaps hend hdue => ⟨fun hen => ?disabled, fun hen hroom hcov => ?evaluated⟩,
    fun s u f hruns => ⟨fun o ho => ?mapBad, fun ho => ?map⟩,
    fun s u f b a g hruns => ⟨fun c hc => ?resealBad, fun hc hd => ?reseal⟩,
    fun s u f hruns hup => ⟨fun out hout n hn => ⟨fun h0 h25 h34 hw hnow => ?balance, fun a ms x hst hms => ?expiry⟩,
      fun h0 h25 h34 hpos hw hnone hst => ?wait, fun out hout h1 h25 h32 => ?inference,
      fun h2 h28 hn hlo hhi => ⟨fun hoff => ?noStore, fun out hout hfn => ?scores⟩,
      fun h3 h25 h28 => ⟨fun hoff => ?frontOff, fun hon hbuf => ?snapshot⟩⟩⟩
  case secondBad =>
    have hrow := exec_metrologySecond x s ha
    have heq : metrologySecond s x = faultCause s 0x0600 i := by
      unfold metrologySecond
      rw [if_neg (by simp [hon]), hi]
    rw [heq] at hrow
    obtain ⟨h1, h2, h3⟩ := faultCause_stops i hon
    exact ⟨_, hrow, h1, h2, h3⟩
  case second => exact ⟨_, exec_metrologySecond x s ha, metrologySecond_adds hon hx⟩
  case matched => exact ⟨_, exec_sealLoopCheck true s ha, sealLoopCheck_matched (awake_out ha) hd⟩
  case missed =>
    refine ⟨_, exec_sealLoopCheck false s ha, ?_⟩
    rw [wmUpdate_met, sealLoopCheck_mismatch (awake_out ha) hd, if_neg (by omega)]
    exact misCounted_met s
  case latched =>
    refine ⟨_, exec_sealLoopCheck false s ha, ?_⟩
    rw [wmUpdate_met, sealLoopCheck_mismatch (awake_out ha) hd, if_pos hm]
    obtain ⟨h1, h2⟩ := loopLatch_met (misCounted s) 0
    exact ⟨h1, h2.trans (congrArg (·.loopSince) (misCounted_met s))⟩
  case noDraw =>
    have heq : sealLoopCheck s b = s := by
      rw [sealLoopCheck, if_pos (by simp [hd])]
    refine ⟨_, exec_sealLoopCheck b s ha, ?_⟩
    rw [wmUpdate_met, heq]
  case pulseOk =>
    refine ⟨_, exec_sealLoopPulse true s, ?_⟩
    rw [wmUpdate_met, sealLoopPulse, if_pos (by simp)]
  case pulseLost =>
    refine ⟨_, exec_sealLoopPulse false s, ?_⟩
    rw [wmUpdate_met, sealLoopPulse, if_neg (by simp [hr, hl])]
    rfl
  case interval =>
    have hrow := exec_inferenceIntervalEnd s ha
    have heq : inferenceIntervalEnd s = ivClose s (infIdx s (nowSec s)) := by
      unfold inferenceIntervalEnd
      exact if_neg (by simp [hdue]; omega)
    rw [heq] at hrow
    exact ⟨_, _, hrow, rfl, rfl, rfl, rfl, rfl, rfl⟩
  case window => exact ⟨_, exec_inferenceWindowEnd s ha ht, inferenceWindowEnd_ends hon hend⟩
  case disabled =>
    have hrow := exec_balanceEvaluation n s ha
    have hfrom := balanceFrom s
    rw [balanceEvaluation_eq hn hon hmaps hend hdue, if_pos (by rw [hen]; rfl)] at hrow
    obtain ⟨hsame, hother, -, -, hrecs, hbal⟩ := fdrPut_kept (inferenceIntervalEnd s) n
      { fdrGet s n with next := (fdrGet s n).next + 1, st := 3, run := 0, clear := 0, neg := false }
    exact ⟨_, hrow, hsame, fun x hx => (hother x hx).trans (hfrom.fdr x), hbal.trans hfrom.recs, hrecs.trans hfrom.tab⟩
  case evaluated =>
    have hrow := exec_balanceEvaluation n s ha
    have hfrom := balanceFrom s
    have hgo : ¬ (!storeRoom s || (!((mappedOn s n).all (covers s (fdrGet s n).next)) &&
        decide (nowSec s < balStart s ((fdrGet s n).next + 1) + 600 * regFld s 0xB000 8 8))) = true := by
      rcases hcov with h | h
      · simp [hroom, h]
      · simp [hroom, Nat.not_lt.mpr h]
    rw [balanceEvaluation_eq hn hon hmaps hend hdue, if_neg (by simp [hen]), if_neg hgo] at hrow
    dsimp only at hrow
    generalize hg : (if (fdrGet s n).st = 3 then { fdrGet s n with st := 0 } else fdrGet s n) = g at hrow
    generalize inferenceIntervalEnd s = v at hrow hfrom
    obtain ⟨hfeeder, hstart, hd, hnext⟩ := balForm_gives v n (fdrGet s n).next g (mapAt (fdrGet s n) (fdrGet s n).next)
    generalize balForm v n (fdrGet s n).next g (mapAt (fdrGet s n) (fdrGet s n).next) = p at hrow hfeeder hstart hd hnext
    obtain ⟨hrecs, hbseq, hfdr, hother⟩ := balScore_ends v n p.1 p.2 (mapAt (fdrGet s n) (fdrGet s n).next)
    have hnum : (balRecord v p.1 (fdrScored p.1 p.2 (mapAt (fdrGet s n) (fdrGet s n).next))).bseq = s.met.nextBseq :=
      hfrom.next
    rw [hfrom.recs] at hrecs
    rw [hfrom.next] at hbseq
    refine ⟨_, _, hrow, hrecs, hnum, hbseq, hfeeder, hstart.trans (hfrom.start _), hd, ?_, ?_, fun x hx => ?_⟩
    · exact congrArg (·.st) hfdr.symm
    · exact (congrArg (·.next) hfdr).trans ((fdrScored_next _ _ _).trans hnext)
    · exact (hother x hx).trans (hfrom.fdr x)
  case mapBad =>
    obtain ⟨ha, hr, hs, hd⟩ := hruns
    have hrow := exec_opFeederMap u s ha
    rw [feederMap, withDesc_run s u 0x59 _ f hr hs, ho] at hrow
    exact ⟨_, hrow, reject_answers hd _ _⟩
  case map =>
    obtain ⟨ha, hr, hs, hd⟩ := hruns
    have hrow := exec_opFeederMap u s ha
    rw [feederMap_run hr hs ho] at hrow
    obtain ⟨hsame, hother, hcq, hmem, htab⟩ := feederMapped_kept s f
    generalize feederMapped s f = v at hrow hsame hother hcq hmem htab
    have hmet : (wmUpdate (completeOk v f 3 0)).met = v.met := complete_met v f stOk 3 0 0
    have hfdr : ∀ x, fdrGet (wmUpdate (completeOk v f 3 0)) x = fdrGet v x := fun x => by rw [fdrGet, hmet, fdrGet]
    refine ⟨_, hrow, completed_of s v f stOk 3 0 0 hd (by rw [cqGet, cqGet, hcq]), (hfdr _).trans hsame,
      fun x hx => (hfdr x).trans (hother x hx), ?_, ?_⟩
    · rw [wmUpdate_hostMem, completeOk, complete_hostMem, hmem]
    · exact (congrArg (·.recs.tab) (rest_complete v f stOk 3 0 0)).trans htab
  case resealBad =>
    obtain ⟨ha, hr, hs, hd⟩ := hruns
    have hrow := exec_opCalReseal u b a g s ha
    rw [calReseal, withDesc_run s u 0x5A _ f hr hs, hc] at hrow
    exact ⟨_, hrow, reject_answers hd _ _⟩
  case reseal =>
    obtain ⟨ha, hr, hs, hdis⟩ := hruns
    have hrow := exec_opCalReseal u b a g s ha
    rw [calReseal_run hr hs hc hd] at hrow
    obtain ⟨hseq, hdig, hlat, hlock, htab, hcq⟩ := resealed_kept s f b
    generalize resealed s f b = v at hrow hseq hdig hlat hlock htab hcq
    generalize hres : result4 (sealState v) 0 0 0 = res at hrow
    have hrest := rest_complete v { f with step := 3 } stOk 4 0 res
    have hmet : (wmUpdate (completeOk v { f with step := 3 } 4 res)).met = v.met := complete_met v _ stOk 4 0 res
    have hboot : (wmUpdate (completeOk v { f with step := 3 } 4 res)).boot = v.boot := congrArg (·.boot) hrest
    refine ⟨_, hrow, ?_, ?_⟩
    · rw [sealState_wm hmet hboot, hres]
      exact completed_of s v { f with step := 3 } stOk 4 0 res hdis (by rw [cqGet, cqGet, hcq])
    · rw [hmet]
      exact ⟨hseq, hdig, hlat, hlock, (congrArg (·.recs.tab) hrest).trans htab⟩
  case balance =>
    obtain ⟨ha, hr, hs, hd⟩ := hruns
    have hrow := exec_opCrevasseReportBalance u s ha
    rw [crvBalance_run hr hs h0 h25 h34 hw, if_pos (by simpa using hnow)] at hrow
    subst hout hn
    exact ⟨_, hrow, balGetDone_answers hup hd⟩
  case expiry =>
    obtain ⟨ha, hr, hs, hd⟩ := hruns
    have hrow := exec_crevasseReportWaitExpiry u s ha
    rw [crvWaitExpiry, withDesc_run s u 0x58 _ f hr hs, hst] at hrow
    simp only [hms, if_true] at hrow
    subst hout hn
    exact ⟨_, hrow, balGetDone_answers hup hd⟩
  case wait =>
    obtain ⟨ha, hr, hs, hd⟩ := hruns
    have hrow := exec_opCrevasseReportBalance u s ha
    rw [crvBalance_run hr hs h0 h25 h34 hw, if_neg (by simpa [hpos] using hnone), hst] at hrow
    exact ⟨_, _, hrow, flightOf_restaged hr _, rfl, rfl⟩
  case inference =>
    obtain ⟨ha, hr, hs, hd⟩ := hruns
    have hrow := exec_opCrevasseReportInference u s ha
    rw [crvInference_run hr hs h1 h25 h32] at hrow
    subst hout
    exact ⟨_, hrow, report_answers hup hd _ _⟩
  case noStore =>
    obtain ⟨ha, hr, hs, hd⟩ := hruns
    have hrow := exec_opCrevasseReportScores u s ha
    rw [crvScores_run hr hs h2 h28 hn hlo hhi, storeRun_gone _ (.inl hoff)] at hrow
    exact ⟨_, hrow, reject_answers hd _ _⟩
  case scores =>
    obtain ⟨ha, hr, hs, hd⟩ := hruns
    have hrow := exec_opCrevasseReportScores u s ha
    rw [crvScores_run hr hs h2 h28 hn hlo hhi, storeRun_on hfn] at hrow
    subst hout
    exact ⟨_, hrow, report_answers hup hd _ _⟩
  case frontOff =>
    obtain ⟨ha, hr, hs, hd⟩ := hruns
    have hrow := exec_opCrevasseReportSnapshot u s ha
    rw [crvSnapshot_run hr hs h3 h25 h28, if_pos (by simp [hoff])] at hrow
    exact ⟨_, hrow, reject_answers hd _ _⟩
  case snapshot =>
    obtain ⟨ha, hr, hs, hd⟩ := hruns
    have hrow := exec_opCrevasseReportSnapshot u s ha
    rw [crvSnapshot_run hr hs h3 h25 h28, if_neg (by simp [hon]), if_neg (by omega)] at hrow
    obtain ⟨h1, h2, h3, -⟩ := report_answers (s := s) (f := f) hup hd (snapshotBytes s) (result4 1 0 0 0)
    exact ⟨_, hrow, h1, h2, h3⟩

end

section
/-!
# What the phases of a start leave of the start's own state (16 R478, R479)

The start's own words (`boot`) and RESET_n are written by the slot phase, by the root phase and at the start's two ends;
every other operation a start passes through leaves them, in the order of the model's definitions.
-/
namespace Sys2Proof.Machine
open Sys2Proof Sys2Proof.Safety

/-- The start's own words and the pin it starts from. -/
def bootView (s : State) : BootSt × Bool := (s.boot, s.pins.resetLow)

@[simp] theorem cnt_bootView (s : State) (i : Nat) : bootView (cnt s i) = bootView s := by
  simp [bootView]
@[simp] theorem msix_bootView (s : State) (v : Nat) : bootView (msix s v) = bootView s := by
  simp [bootView]
@[simp] theorem hostWriteMem_bootView (s : State) (a : Nat) (bs : List Byte) : bootView (hostWriteMem s a bs) = bootView s := by
  simp [bootView]
@[simp] theorem regWrite_bootView (s : State) (off : Nat) (v : Word) : bootView (regWrite s off v) = bootView s := by
  simp [bootView]
@[simp] theorem appendState_bootView (s : State) (w : Word) (e : JEnt) : bootView (appendState s w e) = bootView s := by
  simp [bootView]
@[simp] theorem fnPut_bootView (s : State) (n : Nat) (f : Fn) : bootView (fnPut s n f) = bootView s := by
  simp [bootView]
@[simp] theorem bwPut_bootView (s : State) (n : Nat) (x : BwPort) : bootView (bwPut s n x) = bootView s := by
  simp [bootView]
@[simp] theorem sqPut_bootView (s : State) (n : Nat) (x : Sq) : bootView (sqPut s n x) = bootView s := by
  simp [bootView]
@[simp] theorem cqPut_bootView (s : State) (n : Nat) (x : Cq) : bootView (cqPut s n x) = bootView s := by
  simp [bootView]
@[simp] theorem rrPut_bootView (s : State) (n : Nat) (x : Rr) : bootView (rrPut s n x) = bootView s := by
  simp [bootView]
@[simp] theorem smpPut_bootView (s : State) (n : Nat) (x : Smp) : bootView (smpPut s n x) = bootView s := by
  simp [bootView]
@[simp] theorem recPut_bootView (s : State) (n : Nat) (x : EpRec) : bootView (recPut s n x) = bootView s := by
  simp [bootView]
@[simp] theorem logEvent_bootView (c d : Nat) (s : State) : bootView (logEvent c d s) = bootView s := by
  simp [bootView]

theorem bootView_of_endRest {s t : State} (h : endRest t = endRest s) : bootView t = bootView s := by
  have hboot : t.boot = s.boot := congrArg (·.boot) h
  have hpins : t.pins = s.pins := congrArg (·.pins) h
  rw [bootView, hboot, hpins, bootView]
theorem bootView_of_keyRest {s t : State} (h : keyRest t = keyRest s) : bootView t = bootView s := by
  have hboot : t.boot = s.boot := congrArg (·.boot) h
  have hpins : t.pins = s.pins := congrArg (·.pins) h
  rw [bootView, hboot, hpins, bootView]
theorem bootView_of_wireRest {s t : State} (h : wireRest t = wireRest s) : bootView t = bootView s := by
  have hboot : t.boot = s.boot := congrArg (·.boot) h
  have hpins : t.pins = s.pins := congrArg (·.pins) h
  rw [bootView, hboot, hpins, bootView]

theorem foldl_bootView {α : Type} {g : State → α → State} (h : ∀ u a, bootView (g u a) = bootView u) (l : List α)
    (s : State) : bootView (l.foldl g s) = bootView s := by
  induction l generalizing s with
  | nil => rfl
  | cons a l ih => exact (ih (g s a)).trans (h s a)

/-! ## Rings, and the registers the configuration writes -/

section
variable (s : State)

@[simp] theorem drainCheck_bootView : bootView (drainCheck s) = bootView s := bootView_of_endRest (endRest_drainCheck s)
@[simp] theorem mirrorEval_bootView : bootView (mirrorEval s) = bootView s := bootView_of_wireRest (wireRest_mirrorEval s)

@[simp] theorem unsolicited_bootView (kind eid ring wr spec : Nat) :
    bootView (unsolicited s kind eid ring wr spec) = bootView s := by
  unfold unsolicited unsolicitedTc
  dsimp only
  split <;> rfl

@[simp] theorem ringError_bootView (kind n : Nat) (w : Word) : bootView (ringError s kind n w) = bootView s := by
  simp [ringError, errVector]

theorem ringStart_bootView (kind n : Nat) : bootView (ringStart s kind n) = bootView s := by
  have hsq : bootView (sqStart s n) = bootView s := by
    unfold sqStart
    dsimp only
    split <;> simp
  have hcq : bootView (cqStart s n) = bootView s := by
    unfold cqStart
    dsimp only
    split <;> simp
  have hrr : bootView (rrStart s n) = bootView s := by
    unfold rrStart
    dsimp only
    split <;> simp
  unfold ringStart
  split
  · exact hsq
  · exact hcq
  · exact hrr

theorem ringFnPut_bootView (kind n : Nat) (f : Fn) : bootView (ringFnPut s kind n f) = bootView s := by
  unfold ringFnPut
  split <;> rfl

@[simp] theorem ringEnable_bootView (kind n : Nat) : bootView (ringEnable s kind n) = bootView s := by
  unfold ringEnable
  dsimp only
  split
  · exact ringStart_bootView s kind n
  · exact ringFnPut_bootView s kind n _
  · rfl
  · exact ringFnPut_bootView s kind n _

@[simp] theorem ringDisable_bootView (kind n : Nat) : bootView (ringDisable s kind n) = bootView s := by
  unfold ringDisable
  dsimp only
  split
  · rfl
  · exact ringFnPut_bootView s kind n _
  · exact ringFnPut_bootView s kind n _
  · exact ringFnPut_bootView s kind n _

@[simp] theorem cqEval_bootView (c : Nat) : bootView (cqEval s c) = bootView s := by
  unfold cqEval cqSignal
  split <;> simp

@[simp] theorem batchCover_bootView (ids : List Nat) : bootView (batchCover s ids) = bootView s := rfl

theorem tailWriteBack_bootView (r : Nat) (last : Bool) : bootView (tailWriteBack s r last) = bootView s := by
  unfold tailWriteBack
  dsimp only
  split
  · rfl
  · split <;> simp

@[simp] theorem delivChanged_bootView : bootView (delivChanged s) = bootView s := by
  rw [delivChanged, drainCheck_bootView, tailSweep]
  refine foldl_bootView (fun u r => ?_) _ s
  split
  · rfl
  · exact tailWriteBack_bootView u r true

@[simp] theorem bwAll_bootView (g : BwPort → BwPort) : bootView (bwAll s g) = bootView s := by
  unfold bwAll
  exact foldl_bootView (fun u p => bwPut_bootView u p _) _ s

theorem ringCfg_bootView (kind n off : Nat) (v : Word) : bootView (ringCfg s kind n off v) = bootView s := by
  unfold ringCfg
  dsimp only
  split
  · simp
  · split <;> simp

theorem irqCfg_bootView (c : Nat) (v : Word) : bootView (irqCfg s c v) = bootView s := by
  unfold irqCfg
  dsimp only
  split <;> simp

theorem hostBlockWrite_bootView (off : Nat) (v : Word) : bootView (hostBlockWrite s off v) = bootView s := by
  unfold hostBlockWrite
  repeat' split
  · unfold inflightClr
    split <;> rfl
  · exact ringCfg_bootView s 0 _ off v
  · exact ringCfg_bootView s 1 _ off v
  · exact irqCfg_bootView s _ v
  · exact ringCfg_bootView s 2 _ off v
  · simp [readRoute]
  · exact regWrite_bootView s off v

theorem w1c_bootView (off : Nat) (v : Word) : bootView (w1c s off v) = bootView s := by
  unfold w1c
  repeat' split
  all_goals rfl

theorem vreqCtrl_bootView (v : Word) : bootView (vreqCtrl s v) = bootView s := regWrite_bootView s 0x18 v

theorem bootView_bill (b : BillSt) : bootView { s with bill := b } = bootView s := rfl
theorem bootView_seal (b : SealSt) : bootView { s with sealU := b } = bootView s := rfl
theorem bootView_cnt (c : CntSt) : bootView { s with cnt := c } = bootView s := rfl

theorem bwWindowMs_bootView (v : Word) : bootView (bwWindowMs s v) = bootView s := by
  have hw := regWrite_bootView s 0x900 v
  have h : bootView (bwAll (regWrite s 0x900 v) fun x => { x with rx := 0, tx := 0 }) = bootView s :=
    (bwAll_bootView _ _).trans hw
  unfold bwWindowMs
  dsimp only
  generalize bwAll (regWrite s 0x900 v) _ = u at h
  generalize regWrite s 0x900 v = w at hw
  split
  · rw [bootView_cnt, h]
  · exact hw

theorem bwSel_bootView (v : Word) : bootView (bwSel s v) = bootView s := regWrite_bootView s 0x904 v

theorem samplerCfg_bootView (n : Nat) (v : Word) : bootView (samplerCfg s n v) = bootView s := by
  unfold samplerCfg
  dsimp only
  split <;> simp

theorem harnCfg_bootView (v : Word) : bootView (harnCfg s v) = bootView s := by
  unfold harnCfg
  dsimp only
  split <;> simp

theorem klCtrl_bootView (v : Word) : bootView (klCtrl s v) = bootView s := by
  unfold klCtrl
  split <;> rfl

theorem paceClr_bootView (v : Word) : bootView (paceClr s v) = bootView s := by
  unfold paceClr
  split <;> rfl

theorem holdClr_bootView (v : Word) : bootView (holdClr s v) = bootView s := by
  unfold holdClr
  split <;> rfl

/-- No register write reaches the start's own words. -/
@[simp] theorem barWrite_bootView (off : Nat) (v : Word) : bootView (barWrite s off v) = bootView s := by
  unfold barWrite
  repeat' split
  · exact hostBlockWrite_bootView s off v
  · exact paceClr_bootView s v
  · exact vreqCtrl_bootView s v
  · exact holdClr_bootView s v
  · exact bwWindowMs_bootView s v
  · exact bwSel_bootView s v
  · exact klCtrl_bootView s v
  · exact harnCfg_bootView s v
  · exact w1c_bootView s off v
  · exact regWrite_bootView s _ v
  · rfl
  · exact samplerCfg_bootView s _ v
  · rfl
  · exact regWrite_bootView s off v

/-! ## Batches, boundaries and the clock -/

@[simp] theorem batchClose_bootView (cause : Nat) : bootView (batchClose s cause) = bootView s := by
  unfold batchClose
  split
  · rfl
  · exact cnt_bootView _ _

@[simp] theorem posAdvance_bootView (t step : Nat) : bootView (posAdvance s t step) = bootView s := by
  unfold posAdvance
  dsimp only
  split
  · exact cnt_bootView s 326
  · rw [bootView_bill, cnt_bootView]

theorem boundaryPass_bootView (step : Nat) : bootView (boundaryPass s step) = bootView s := by
  unfold boundaryPass
  split <;> simp

theorem tariffActivate_bootView : bootView (tariffActivate s) = bootView s := by
  unfold tariffActivate
  split
  · rfl
  · refine (foldl_bootView (fun u p => ?_) _ _).trans (posAdvance_bootView s _ 4)
    split
    · split
      · rw [bootView_bill, appendState_bootView]
      · rfl
    · rfl

theorem periodClose_bootView : bootView (periodClose s) = bootView s := by
  unfold periodClose
  split
  · rfl
  · refine (foldl_bootView (fun u p => ?_) _ _).trans (posAdvance_bootView s _ 3)
    split
    · split
      · rw [closeExecute, bootView_bill, appendState_bootView]
      · rfl
    · rfl

theorem friendlyEnd_bootView : bootView (friendlyEnd s) = bootView s := by
  unfold friendlyEnd
  split
  · rfl
  · exact posAdvance_bootView s _ 6

end

theorem boundaryOne_bootView {s t : State} (h : boundaryOne s = some t) : bootView t = bootView s := by
  unfold boundaryOne at h
  split at h
  · cases h
    exact boundaryPass_bootView s 1
  split at h
  · cases h
    exact boundaryPass_bootView s 2
  split at h
  · cases h
    exact periodClose_bootView s
  split at h
  · cases h
    exact tariffActivate_bootView s
  split at h
  · cases h
    exact boundaryPass_bootView s 5
  split at h
  · cases h
    exact friendlyEnd_bootView s
  · cases h

theorem boundaryMany_bootView (n : Nat) (s : State) : bootView (boundaryMany n s) = bootView s := by
  induction n generalizing s with
  | zero => rfl
  | succ n ih =>
    rw [boundaryMany]
    split
    · next t h => exact (ih t).trans (boundaryOne_bootView h)
    · rfl

section
variable (s : State)

theorem boundaryCatchUp_bootView : bootView (boundaryCatchUp s) = bootView s := by
  unfold boundaryCatchUp
  dsimp only
  split
  · exact boundaryMany_bootView _ s
  · exact boundaryMany_bootView _ s

theorem billStart_bootView : bootView (billStart s) = bootView s := by
  have h : ∀ u : State, bootView (boundaryCatchUp { s with bill := u.bill }) = bootView s := fun u => boundaryCatchUp_bootView _
  unfold billStart
  dsimp only
  split
  · exact h { s with bill := _ }
  · exact h { s with bill := _ }

theorem leapChange_bootView : bootView (leapChange s) = bootView s := by
  unfold leapChange
  split
  · rfl
  · exact logEvent_bootView _ _ _

theorem logWhen_bootView (c : Prop) [Decidable c] (code : Nat) (d : Nat) :
    bootView (if c then logEvent code d s else s) = bootView s := by
  split
  · exact logEvent_bootView _ _ _
  · rfl

/-! ## The store mounted -/

theorem gcMount_bootView : bootView (gcMount s) = bootView s := by
  unfold gcMount blockErase
  split
  · split
    · exact cnt_bootView _ _
    · rfl
  · rfl

theorem storeMount_bootView : bootView (storeMount s) = bootView s := by
  have hmount : bootView (gcMount (if s.store.rootOk then s else storeFormat s)) = bootView s := by
    rw [gcMount_bootView]
    split <;> rfl
  exact (logWhen_bootView _ _ _ _).trans hmount

/-! ## The state rebuilt -/

theorem rbRecord_bootView (eid : Nat) : bootView (rbRecord s eid) = bootView s := by
  unfold rbRecord
  dsimp only
  split
  · rfl
  · split <;> simp

theorem sealUse_bootView (se si : Nat) (src : BitVec 16) : bootView (sealUse s se si src) = bootView s := by
  unfold sealUse
  extract_lets pin off t _
  have hpin : ∀ u h, bootView (pin u h) = bootView u := fun _ _ => rfl
  have hoff : ∀ u h, bootView (off u h) = bootView u := fun u h => by
    show bootView (if _ then _ else _) = _
    split <;> rfl
  have ht : bootView t = bootView s := by
    show bootView (pin (pin (off (off s _) _) se) si) = _
    rw [hpin, hpin, hoff, hoff]
  clear_value t
  rw [bootView_seal, ht]

theorem rbOther_bootView (e : JEnt) (off : Nat) : bootView (rbOther s e off) = bootView s := by
  unfold rbOther
  split
  case h_8 => exact sealUse_bootView s _ _ _
  all_goals rfl

theorem rbRetire_bootView (e : JEnt) : bootView (rbRetire s e) = bootView s := by
  unfold rbRetire
  repeat' split
  all_goals rfl

theorem rbErased_bootView : bootView (rbErased s) = bootView s := by
  refine foldl_bootView (fun u p => ?_) _ s
  split <;> rfl

theorem rbSeqs_bootView (j : JTail) : bootView (rbSeqs s j) = bootView s := by
  unfold rbSeqs
  split <;> rfl

theorem rbPin_bootView (eid : Nat) : bootView (rbPin s eid) = bootView s := by
  unfold rbPin
  dsimp only
  split
  · rfl
  · split
    · rfl
    · split
      · next t h =>
        have hkeep := bootView_of_keyRest (keyRest_pinEpAll h)
        exact hkeep
      · rfl

theorem rbPins_bootView : bootView (rbPins s) = bootView s := by
  unfold rbPins
  refine (foldl_bootView (fun u p => ?_) _ _).trans (foldl_bootView (fun u (p : Nat × PinEnt) => rbPin_bootView u p.1) _ s)
  split
  · split
    · next t h => exact bootView_of_keyRest (keyRest_ensureDir h)
    · rfl
  · rfl

theorem rbBatch_bootView : bootView (rbBatch s) = bootView s := by
  unfold rbBatch
  dsimp only
  split
  · rfl
  · rw [cnt_bootView]
    rfl

theorem relayRestart_bootView (eid : Nat) : bootView (relayRestart s eid) = bootView s := by
  unfold relayRestart
  dsimp only
  split <;> rfl

end

end Sys2Proof.Machine
end

section
/-!
# A start, from the release of RESET_n to phase 0x7 (16 R478, R479)

The count of power cycles moves at the start's beginning and READY not at all; the slot phase, the root phase and the two
ends of the start write the other words, and no phase after the slot's ends in recovery.
-/
namespace Sys2Proof.Machine
open Sys2Proof Sys2Proof.Safety

/-! ## The rebuild -/

section
variable (s : State)

theorem rbLogs_bootView : bootView (rbLogs s) = bootView s := rfl
theorem rbJrnlClose_bootView : bootView (rbJrnlClose s) = bootView s := rfl

theorem rebuild_bootView (off : Nat) : bootView (rebuild s off) = bootView s := by
  unfold rebuild
  extract_lets recs ents seqs logs batch _ owed
  have hrecs : bootView recs = bootView s := foldl_bootView (fun v e => rbRecord_bootView v e) _ s
  have hents : bootView ents = bootView recs :=
    foldl_bootView (fun v e => (rbRetire_bootView (rbOther v e off) e).trans (rbOther_bootView v e off)) _ recs
  have hseqs : bootView seqs = bootView ents :=
    (foldl_bootView (fun v j => rbSeqs_bootView v j) _ _).trans (rbErased_bootView ents)
  have hlogs : bootView logs = bootView seqs :=
    ((rbLogs_bootView _).trans (rbJrnlClose_bootView _)).trans (rbPins_bootView seqs)
  have hbatch : bootView batch = bootView logs := rbBatch_bootView logs
  clear_value batch
  have howed : bootView owed = bootView batch := bootView_seal batch _
  rw [foldl_bootView (fun v (p : Nat × EpRec) => relayRestart_bootView v p.1), howed, hbatch, hlogs, hseqs, hents, hrecs]

/-! ## The phases that leave the start's own words -/

theorem engineFails_bootView (t : Nat) (ok : Bool) : bootView (engineFails s t ok) = bootView s := by
  unfold engineFails
  split
  · rfl
  · rw [logEvent_bootView]
    exact bootView_of_keyRest (keyRest_ceFault s 10)

theorem sourceFails_bootView (src : Nat) (ok : Bool) : bootView (sourceFails s src ok) = bootView s := by
  unfold sourceFails
  split
  · rfl
  · rw [logEvent_bootView]
    exact bootView_of_keyRest (keyRest_ceFault s (6 + src))

/-- The self-tests done: the engines and the sources marked, the pipelines that passed ON. -/
def selfTested (s : State) : State :=
  let i := s.boot.inp
  let s := sourceFails (sourceFails (engineFails (engineFails s 0x10 i.shaOk) 0x11 i.ecdsaOk) 0 i.entA) 1 i.entB
  (List.range 6).foldl (fun s p => if i.pipeFail.contains p then s else fnPut s (0x0300 + p) ⟨.on, false, false, []⟩) s

theorem selfTested_bootView : bootView (selfTested s) = bootView s := by
  refine Eq.trans (foldl_bootView (fun v p => ?_) _ _) ?_
  · split <;> rfl
  · rw [sourceFails_bootView, sourceFails_bootView, engineFails_bootView, engineFails_bootView]

theorem testPhase_bootView : bootView (testPhase s) = bootView s := selfTested_bootView s

theorem metNonce_bootView : bootView (metNonce s) = bootView s := by
  have h := bootView_of_keyRest (keyRest_drbgUse s)
  exact h

theorem newNonce_bootView : bootView (newNonce s) = bootView s := by
  have h := bootView_of_keyRest (keyRest_drbgUse s)
  exact h

theorem regPhase_bootView : bootView (regPhase s) = bootView s := by
  refine foldl_bootView (fun u i => ?_) _ s
  split
  · exact foldl_bootView (fun v (p : Nat × Word) => barWrite_bootView v p.1 p.2) _ u
  · rfl

theorem fieldPhase_bootView (begun : Bool) : bootView (fieldPhase s begun) = bootView s := rfl

theorem harnPhase_bootView : bootView (harnPhase s) = bootView s := by
  unfold harnPhase
  dsimp only
  split
  · rfl
  split
  · rfl
  split
  · exact (bootView_of_wireRest (wireRest_ringLog _ 0 3)).trans rfl
  · rfl

theorem loadPhase_bootView (begun : Bool) : bootView (loadPhase s begun) = bootView s := by
  rw [loadPhase, harnPhase_bootView, fieldPhase_bootView, regPhase_bootView, newNonce_bootView, metNonce_bootView,
    testPhase_bootView]
  rfl

theorem lmPhase_bootView : bootView (lmPhase s) = bootView s := by
  unfold lmPhase loopLog
  exact logWhen_bootView s _ _ _

theorem diePhase_bootView : bootView (diePhase s) = bootView s := by
  unfold diePhase
  dsimp only
  refine (foldl_bootView (fun u n => ?_) _ _).trans rfl
  split <;> rfl

theorem mountPhase_bootView : bootView (mountPhase s) = bootView s := by
  unfold mountPhase
  split
  · dsimp only
    refine (fnPut_bootView _ _ _).trans ((storeMount_bootView _).trans ?_)
    split <;> rfl
  · rfl

theorem recPhase_bootView (off : Nat) : bootView (recPhase s off) = bootView s := by
  have h : bootView (if storeOn s then rebuild s off else s) = bootView s := by
    split
    · exact rebuild_bootView s off
    · rfl
  unfold recPhase
  dsimp only
  generalize (if storeOn s then rebuild s off else s) = u at h
  split <;> exact h

theorem billPhase_bootView : bootView (billPhase s) = ({ s.boot with phase := 7 }, s.pins.resetLow) := by
  unfold billPhase
  dsimp only
  split
  · rw [billStart_bootView, leapChange_bootView]
    rfl
  · rfl

end

/-! ## Slots and keys (R479) -/

section
variable (s : State)

/-- READY, the count of power cycles, and RESET_n. -/
def marks (v : BootSt × Bool) : Bool × Nat × Bool := (v.1.ready, v.1.pwrCycles, v.2)

theorem trialFail_kept : bootView (trialFail s) = bootView s ∧ (trialFail s).upd.recovery = s.upd.recovery := by
  rw [trialFail, logEvent_bootView, logEvent_upd]
  exact ⟨rfl, rfl⟩

theorem settleUpd_kept : bootView (settleUpd s) = bootView s ∧ (settleUpd s).upd.recovery = s.upd.recovery := by
  unfold settleUpd
  split
  · exact ⟨rfl, rfl⟩
  · exact ⟨rfl, rfl⟩
  · exact ⟨rfl, rfl⟩
  · dsimp only
    split
    · exact trialFail_kept _
    · exact ⟨rfl, rfl⟩
  · exact ⟨rfl, rfl⟩

theorem slotRefuse_marks (b : Bool) : marks (bootView (slotRefuse s b)) = marks (bootView s) := by
  rw [slotRefuse, logEvent_bootView]
  rfl

theorem slotBoot_marks (b : Bool) : marks (bootView (slotBoot s b)) = marks (bootView s) := rfl

theorem updSet_marks (g : UpdSt → UpdSt) : marks (bootView (updSet s g)) = marks (bootView s) := rfl

/-- Recovery, where neither slot is valid. -/
def recovered (s : State) : State :=
  { s with upd := { s.upd with recovery := true }, boot := { s.boot with phase := 14 } }

theorem recovered_marks : marks (bootView (recovered s)) = marks (bootView s) := rfl

theorem slotPhase_eq : slotPhase s =
    let b := if s.upd.state = 5 then s.upd.trialSlot else s.upd.runSlot
    if (slotFound s b).reason = 0 then slotBoot s b
    else if (slotFound (slotRefuse s b) (!b)).reason = 0 then
      slotBoot (updSet (slotRefuse s b) fun u => { u with runSlot := !b, state := 0 }) (!b)
    else recovered (slotRefuse (slotRefuse s b) (!b)) := rfl

theorem slotPhase_marks : marks (bootView (slotPhase s)) = marks (bootView s) := by
  rw [slotPhase_eq]
  dsimp only
  generalize (if s.upd.state = 5 then s.upd.trialSlot else s.upd.runSlot) = b
  have hrefuse := slotRefuse_marks s b
  generalize slotRefuse s b = v at hrefuse
  split
  · exact slotBoot_marks s b
  · split
    · rw [slotBoot_marks, updSet_marks, hrefuse]
    · rw [recovered_marks, slotRefuse_marks, hrefuse]

/-- With both slots valid the start goes on from one of them. -/
theorem slotPhase_recovery (ha : s.boot.inp.slotA.reason = 0) (hb : s.boot.inp.slotB.reason = 0) :
    (slotPhase s).upd.recovery = s.upd.recovery := by
  have hgood : ∀ b, (slotFound s b).reason = 0 := fun b => by
    rw [slotFound]
    split
    · exact hb
    · exact ha
  unfold slotPhase
  dsimp only
  rw [if_pos (hgood _)]
  rfl

theorem cfgSelect_bootView : bootView (cfgSelect s).1 = bootView s := by
  unfold cfgSelect
  dsimp only
  split <;> rfl

theorem rootPhase_marks (cfg : Bool) : marks (bootView (rootPhase s cfg).1) = marks (bootView s) := by
  unfold rootPhase
  dsimp only
  refine (congrArg marks (foldl_bootView (fun u p => ?_) _ _)).trans rfl
  exact logWhen_bootView u _ _ _

theorem rootMove_bootView : bootView (rootMove s) = bootView s := by
  unfold rootMove cfgKeySection
  dsimp only
  split <;> rfl

theorem keyPhase_marks : marks (bootView (keyPhase s)) = marks (bootView s) := by
  have hroots : marks (bootView (rootPhase (cfgSelect s).1 (cfgSelect s).2).1) = marks (bootView s) :=
    (rootPhase_marks _ _).trans (congrArg marks (cfgSelect_bootView s))
  unfold keyPhase
  dsimp only
  split
  · exact (congrArg marks (rootMove_bootView _)).trans hroots
  · exact hroots

/-! ## The start whole -/

/-- The update settled, and a slot taken. -/
def bootSlot (s : State) : State := slotPhase (settleUpd { s with boot := { s.boot with phase := 2 } })

theorem bootSlot_marks : marks (bootView (bootSlot s)) = marks (bootView s) := by
  rw [bootSlot, slotPhase_marks, (settleUpd_kept _).1]
  rfl

theorem bootSlot_recovery (ha : s.boot.inp.slotA.reason = 0) (hb : s.boot.inp.slotB.reason = 0) :
    (bootSlot s).upd.recovery = s.upd.recovery := by
  obtain ⟨hview, hrec⟩ := settleUpd_kept { s with boot := { s.boot with phase := 2 } }
  have hinp : (settleUpd { s with boot := { s.boot with phase := 2 } }).boot.inp = s.boot.inp :=
    congrArg (fun v => v.1.inp) hview
  exact (slotPhase_recovery _ (by rw [hinp]; exact ha) (by rw [hinp]; exact hb)).trans hrec

/-- The phases after the slot's. -/
def bootRest (s : State) (begun : Bool) (off : Nat) : State :=
  billPhase (recPhase (mountPhase (diePhase (lmPhase (loadPhase (keyPhase s) begun)))) off)

theorem bootRest_marks (begun : Bool) (off : Nat) :
    marks (bootView (bootRest s begun off)) = marks (bootView s) ∧ (bootRest s begun off).boot.phase = 7 := by
  have hkeys := keyPhase_marks s
  have hrest : bootView (recPhase (mountPhase (diePhase (lmPhase (loadPhase (keyPhase s) begun)))) off) =
      bootView (keyPhase s) := by
    rw [recPhase_bootView, mountPhase_bootView, diePhase_bootView, lmPhase_bootView, loadPhase_bootView]
  unfold bootRest
  generalize recPhase (mountPhase (diePhase (lmPhase (loadPhase (keyPhase s) begun)))) off = v at hrest
  have hbill := billPhase_bootView v
  refine ⟨?_, congrArg (fun x => x.1.phase) hbill⟩
  rw [hbill, ← hkeys, ← hrest]
  rfl

/-- The health of a trial that the start began. -/
def bootHealth (s : State) (begun : Bool) : State := if begun then updSet s fun u => { u with health := healthNow s } else s

theorem bootHealth_bootView (begun : Bool) : bootView (bootHealth s begun) = bootView s := by
  unfold bootHealth
  split <;> rfl

theorem bootRun_eq (off : Nat) : bootRun s off =
    if (bootSlot s).upd.recovery then bootSlot s
    else bootHealth (bootRest (bootSlot s) (s.upd.state == 4) off) (s.upd.state == 4) := by
  unfold bootRun bootHealth bootRest bootSlot
  rfl

theorem bootRun_marks (off : Nat) : marks (bootView (bootRun s off)) = marks (bootView s) := by
  have hslot := bootSlot_marks s
  rw [bootRun_eq]
  generalize bootSlot s = v at hslot
  split
  · exact hslot
  · rw [bootHealth_bootView, (bootRest_marks v _ off).1, hslot]

/-- With both slots valid, out of recovery, the start reaches phase 0x7. -/
theorem bootRun_phase (off : Nat) (ha : s.boot.inp.slotA.reason = 0) (hb : s.boot.inp.slotB.reason = 0)
    (hr : s.upd.recovery = false) : (bootRun s off).boot.phase = 7 := by
  rw [bootRun_eq, if_neg (by simp [bootSlot_recovery s ha hb, hr])]
  generalize (s.upd.state == 4) = begun
  obtain ⟨-, hphase⟩ := bootRest_marks (bootSlot s) begun off
  generalize bootRest (bootSlot s) begun off = v at hphase
  have hhealth : (bootHealth v begun).boot.phase = v.boot.phase := congrArg (fun x => x.1.phase) (bootHealth_bootView v begun)
  exact hhealth.trans hphase

/-! ## The start's beginning (R478) -/

/-- What a start keeps besides the update's state: the beginning leaves both once the power cycle is counted. -/
def startView (s : State) : (BootSt × Bool) × UpdSt := (bootView s, s.upd)

theorem start_of_keyRest {t : State} (h : keyRest t = keyRest s) : startView t = startView s := by
  have hview := bootView_of_keyRest h
  have hupd : t.upd = s.upd := congrArg (·.upd) h
  rw [startView, hview, hupd, startView]

theorem logEvent_start (code d : Nat) : startView (logEvent code d s) = startView s :=
  start_of_keyRest s (keyRest_logEvent code d s)

theorem logFirstStart_start : startView (logFirstStart s) = startView s := by
  unfold logFirstStart
  split
  · unfold logCommit
    exact (start_of_keyRest _ (keyRest_cnt _ 425)).trans rfl
  · rfl

theorem foldl_start {α : Type} {g : State → α → State} (h : ∀ u a, startView (g u a) = startView u) (l : List α) :
    startView (l.foldl g s) = startView s := by
  induction l generalizing s with
  | nil => rfl
  | cons a l ih => exact (ih (g s a)).trans (h s a)

theorem bootLatch_start : startView (bootLatch s) = startView s :=
  foldl_start s (fun u k => by rw [loopLog, logEvent_start]) s.met.latchDue

theorem loopLatch_start (k : Nat) : startView (loopLatch s k) = startView s := by
  unfold loopLatch
  split
  · rfl
  · rw [loopLog, logEvent_start]
    rfl

theorem time_start (t : TimeSt) : startView { s with time := t } = startView s := rfl

theorem bootTime_start : startView (bootTime s) = startView s := by
  unfold bootTime
  dsimp only
  split
  · rw [loopLatch_start, logEvent_start, time_start]
  · rw [time_start]

theorem batchClose_start (cause : Nat) : startView (batchClose s cause) = startView s := by
  unfold batchClose
  split
  · rfl
  · exact (start_of_keyRest _ (keyRest_cnt _ _)).trans rfl

theorem dtJump_start (delta : Int) : startView (dtJump s delta) = startView s := by
  unfold dtJump
  extract_lets a old b _ d _ t
  have hclose : startView a = startView s := batchClose_start s 1
  have hb : startView b = startView a := rfl
  clear_value a b
  have hd : startView d = startView b := rfl
  clear_value d
  have ht : startView t = startView d := by
    show startView (if _ then _ else _) = _
    split <;> rfl
  rw [logEvent_start, ht, hd, hb, hclose]

theorem bootRebase_start : startView (bootRebase s) = startView s := by
  unfold bootRebase
  split
  · rfl
  · dsimp only
    split
    · exact dtJump_start _ _
    · rfl

/-- The power cycle counted, in phase 0x1. -/
def cycleCounted (s : State) : State := { s with boot := { s.boot with phase := 1, pwrCycles := s.boot.pwrCycles + 1 } }

theorem bootFirst_start : startView (bootFirst s).1 = startView (cycleCounted s) := by
  have h : (bootFirst s).1 = bootRebase (bootTime (bootLatch (logFirstStart (cycleCounted s)))) := rfl
  rw [h, bootRebase_start, bootTime_start, bootLatch_start, logFirstStart_start]

/-- A start from its beginning. -/
def startRun (s : State) : State := bootRun (bootFirst s).1 (bootFirst s).2

/-- Every start counts one power cycle, and leaves READY and RESET_n as they were. -/
theorem startRun_marks : marks (bootView (startRun s)) = (s.boot.ready, s.boot.pwrCycles + 1, s.pins.resetLow) := by
  have hfirst : bootView (bootFirst s).1 = bootView (cycleCounted s) := congrArg Prod.fst (bootFirst_start s)
  rw [startRun, bootRun_marks, hfirst]
  rfl

/-- With both slots valid, out of recovery, it reaches phase 0x7. -/
theorem startRun_phase (ha : s.boot.inp.slotA.reason = 0) (hb : s.boot.inp.slotB.reason = 0) (hr : s.upd.recovery = false) :
    (startRun s).boot.phase = 7 := by
  have hinp : (bootFirst s).1.boot.inp = s.boot.inp := congrArg (fun v => v.1.1.inp) (bootFirst_start s)
  have hupd : (bootFirst s).1.upd = s.upd := congrArg Prod.snd (bootFirst_start s)
  exact bootRun_phase (bootFirst s).1 _ (by rw [hinp]; exact ha) (by rw [hinp]; exact hb) (by rw [hupd]; exact hr)

/-- RESET_n high with its pins read. -/
def released (i : BootIn) : State :=
  { s with pins := { s.pins with resetLow := false, pfailLow := i.pfailLow, tap := if s.pins.tap ≤ 2 then s.pins.tap else 0 }
           boot := { s.boot with inp := i }
           glob := { s.glob with code := BitVec.ofNat 8 (regFld s 0x18 8 8) }
           chan := { s.chan with banks := (List.range 4).map fun g => bankLevel (lget 0 i.banksMv g) } }

theorem resetRelease_eq (i : BootIn) (h : s.pins.resetLow = true) :
    resetRelease s i = if i.pfailLow then released s i else startRun (released s i) := by
  rw [resetRelease, if_pos h]
  rfl

theorem pfailDeassert_eq :
    pfailDeassert s =
      if (s.pins.pfailLow && !s.pins.resetLow && s.boot.phase == 1 && !s.rp.stopped) = true then
        startRun { s with pins := { s.pins with pfailLow := false } }
      else { s with pins := { s.pins with pfailLow := false } } := rfl

end

end Sys2Proof.Machine
end

section
/-!
# The power-fail path, and READY (16 R445, R478, R559)

The path's own words: the open batch, the begin of the outage and the saved rate. Signing, appending and the flush on hold-up
power leave them.
-/
namespace Sys2Proof.Machine
open Sys2Proof Sys2Proof.Safety

/-! ## What the path leaves -/

/-- The open batch, the billing state and the time. -/
def pfailView (s : State) : Option Batch × BillSt × TimeSt := (s.sealU.batch, s.bill, s.time)

theorem pfail_of_keyRest {s t : State} (h : keyRest t = keyRest s) : pfailView t = pfailView s := by
  have hseal := keyRest_seal h
  have hbill : t.bill = s.bill := congrArg (·.bill) h
  have htime := keyRest_time h
  rw [pfailView, hseal, hbill, htime, pfailView]

theorem foldl_pfail {α : Type} {g : State → α → State} (h : ∀ u a, pfailView (g u a) = pfailView u) (l : List α) (s : State) :
    pfailView (l.foldl g s) = pfailView s := by
  induction l generalizing s with
  | nil => rfl
  | cons a l ih => exact (ih (g s a)).trans (h s a)

section
variable (s : State)

theorem cntAdd_pfail (i k : Nat) (e : Word) : pfailView (cntAdd s i k e) = pfailView s :=
  pfail_of_keyRest (keyRest_cntAdd s i k e)

theorem storeSet_pfail (g : StoreSt → StoreSt) : pfailView (storeSet s g) = pfailView s := rfl

theorem storeQueue_pfail (e : SEnt) : pfailView (storeQueue s e) = pfailView s := by
  unfold storeQueue
  split <;> rfl

theorem mapEntry_pfail (k n : Nat) : pfailView (mapEntry s k n) = pfailView s :=
  (pfail_of_keyRest (keyRest_cnt _ 361)).trans rfl

theorem storeWrap_pfail : pfailView (storeWrap s) = pfailView s := by
  unfold storeWrap dropOldest
  split
  · rfl
  · split
    · rfl
    · rw [pfail_of_keyRest (keyRest_cnt _ 360), pfail_of_keyRest (keyRest_logEvent _ _ _), mapEntry_pfail]
      rfl

theorem dropOldest_pfail : pfailView (dropOldest s) = pfailView s := by
  unfold dropOldest
  split
  · rfl
  · rw [pfail_of_keyRest (keyRest_cnt _ 360), pfail_of_keyRest (keyRest_logEvent _ _ _), mapEntry_pfail]
    rfl

theorem dieFind_pfail (l : List Nat) (num k : Nat) : pfailView (dieFind l num k s).2 = pfailView s := by
  induction k generalizing s with
  | zero => rfl
  | succ k ih =>
    rw [dieFind]
    split
    · rfl
    · exact (ih (dropOldest s)).trans (dropOldest_pfail s)

theorem unitPlace_pfail (die : Nat) (u : SUnit) : pfailView (unitPlace s die u) = pfailView s := by
  unfold unitPlace
  split
  · rfl
  · exact mapEntry_pfail _ 0 _

theorem unitStore_pfail (die : Nat) (u : SUnit) : pfailView (unitStore s die u) = pfailView s := by
  have h := dieFind_pfail s (die :: diesOn s) u.num s.store.units.length
  unfold unitStore
  split
  · next d t ht =>
    rw [ht] at h
    exact (unitPlace_pfail t d u).trans h
  · next t ht =>
    rw [ht] at h
    exact h

theorem unitClose_pfail : pfailView (unitClose s) = pfailView s := by
  have h := storeWrap_pfail s
  unfold unitClose
  dsimp only
  generalize storeWrap s = v at h
  generalize (if parityActive s = true then s.store.unitNext + s.store.unitNext / 7 else s.store.unitNext) = phys
  split
  · rfl
  · split
    · rw [unitStore_pfail, unitStore_pfail, storeSet_pfail, h]
    · rw [unitStore_pfail, storeSet_pfail, h]

theorem storeAppend_pfail : pfailView (storeAppend s) = pfailView s := by
  have h := unitClose_pfail s
  unfold storeAppend
  split
  · rfl
  · dsimp only
    generalize unitClose s = v at h
    split
    · rfl
    split
    · rfl
    · rw [cntAdd_pfail, storeSet_pfail]
      split
      · rfl
      · exact h

theorem tailRefill_pfail (l : List JTail) : pfailView (tailRefill l s) = pfailView s := by
  induction l generalizing s with
  | nil => rfl
  | cons e l ih =>
    rw [tailRefill]
    split
    · exact (ih _).trans rfl
    · rfl

theorem journalProgram_pfail : pfailView (journalProgram s) = pfailView s := by
  unfold journalProgram
  split
  · rfl
  · dsimp only
    split
    · rfl
    · rw [cntAdd_pfail]
      exact (tailRefill_pfail _ _).trans rfl

theorem journalFlush_pfail : pfailView (journalFlush s) = pfailView s := foldl_pfail (fun u _ => journalProgram_pfail u) _ s

/-- The flush on hold-up power leaves the path's words (R445). -/
theorem holdupFlush_pfail : pfailView (holdupFlush s) = pfailView s := by
  unfold holdupFlush
  split
  · rfl
  · dsimp only
    rw [storeSet_pfail, journalFlush_pfail, unitClose_pfail, journalFlush_pfail]

theorem signDraw_pfail {t : State} (h : signDraw s = some t) : pfailView t = pfailView s := by
  unfold signDraw at h
  split at h
  · cases h
  split at h
  · cases h
  · cases h
    exact (pfail_of_keyRest (keyRest_drbgUse _)).trans (pfail_of_keyRest (keyRest_drbgUse s))

theorem ensureDir_pfail (h : Nat) (p : Bool) : pfailView ((ensureDir s h p).getD s) = pfailView s := by
  cases hd : ensureDir s h p with
  | none => rfl
  | some t => exact pfail_of_keyRest (keyRest_ensureDir hd)

theorem batchSign_pfail : pfailView (batchSign s) = pfailView s := by
  unfold batchSign
  split
  · rfl
  · split
    · split
      · exact ensureDir_pfail s _ true
      · rfl
      · next i v hslot hv =>
        have hdraw : pfailView v = pfailView s := by
          split at hv
          · exact signDraw_pfail s hv
          · cases hv
        have hhand := pfail_of_keyRest (keyRest_slotHand v i)
        generalize slotHand v i = x at hhand
        obtain ⟨u, k⟩ := x
        dsimp only
        rw [storeQueue_pfail, pfail_of_keyRest (keyRest_cnt _ 270)]
        exact hhand.trans hdraw
    · rfl

theorem signAll_pfail : pfailView (signAll s) = pfailView s := foldl_pfail (fun u _ => batchSign_pfail u) _ s

/-- The open batch closed as power fails. -/
def batchEnded (s : State) : State := if s.sealU.batch.isSome then batchClose s 3 else s

theorem batchEnded_none : (batchEnded s).sealU.batch = none := by
  unfold batchEnded
  split
  · exact (batchClose_frame s 3).1
  · next h => simpa using h

/-- The path ends the open batch, dates the outage and saves the rate. -/
theorem pfailPath_leaves : (pfailPath s).sealU.batch = none ∧ (pfailPath s).bill.outStart = some (dtOf s) ∧
    (pfailPath s).time.savedRate = (pfailPath s).time.rate := by
  unfold pfailPath
  extract_lets at_ caught signed appended
  have hsigned : signed = signAll (batchEnded caught) := rfl
  have happend : pfailView appended = pfailView signed := foldl_pfail (fun u _ => storeAppend_pfail u) _ signed
  clear_value signed appended
  rw [hsigned, signAll_pfail] at happend
  have hbatch : appended.sealU.batch = (batchEnded caught).sealU.batch := congrArg (·.1) happend
  exact ⟨hbatch.trans (batchEnded_none caught), rfl, rfl⟩

/-- The state as PFAIL_n falls. -/
def powerFalling (s : State) : State :=
  { s with pins := { s.pins with pfailLow := true }, rp := { s.rp with stopped := true } }

theorem pfailAssert_eq {ns : Nat} (hr : s.pins.resetLow = false) (hp : s.pins.pfailLow = false) (hn : 1000 ≤ ns) :
    pfailAssert s ns = holdupFlush (pfailPath (powerFalling s)) := by
  unfold pfailAssert
  rw [if_neg (by simp [hr, hp]; omega)]
  rfl

theorem pfailAssert_leaves {ns : Nat} (hr : s.pins.resetLow = false) (hp : s.pins.pfailLow = false) (hn : 1000 ≤ ns) :
    (pfailAssert s ns).bill.outStart = some (dtOf s) ∧ (pfailAssert s ns).sealU.batch = none ∧
      (pfailAssert s ns).time.savedRate = (pfailAssert s ns).time.rate := by
  obtain ⟨hbatch, hout, hrate⟩ := pfailPath_leaves (powerFalling s)
  rw [pfailAssert_eq s hr hp hn]
  have hflush := holdupFlush_pfail (pfailPath (powerFalling s))
  generalize pfailPath (powerFalling s) = u at hbatch hout hrate hflush
  have h1 : (holdupFlush u).sealU.batch = u.sealU.batch := congrArg (·.1) hflush
  have h2 : (holdupFlush u).bill = u.bill := congrArg (·.2.1) hflush
  have h3 : (holdupFlush u).time = u.time := congrArg (·.2.2) hflush
  rw [h1, h2, h3]
  exact ⟨hout, hbatch, hrate⟩

end

/-! ## READY (R478) -/

/-- The lifecycle word of every completion ring. -/
def CqFns (s t : State) : Prop := ∀ c, (cqGet t c).fn = (cqGet s c).fn

theorem CqFns.trans {s t u : State} (h : CqFns s t) (k : CqFns t u) : CqFns s u := fun c => (k c).trans (h c)

theorem cqFns_of_cq {s t : State} (h : t.host.cq = s.host.cq) : CqFns s t := fun c => by rw [cqGet, h, cqGet]

theorem foldl_cqFns {α : Type} {g : State → α → State} (h : ∀ u a, CqFns u (g u a)) (l : List α) (s : State) :
    CqFns s (l.foldl g s) := by
  induction l generalizing s with
  | nil => exact fun _ => rfl
  | cons a l ih => exact (h s a).trans (ih (g s a))

/-- A ring put back with its lifecycle word. -/
theorem cqFns_put {s : State} {c : Nat} {x : Cq} (h : x.fn = (cqGet s c).fn) : CqFns s (cqPut s c x) := fun d => by
  by_cases hd : d = c
  · subst hd
    rw [cqGet_cqPut, h]
  · rw [cqGet_cqPut_ne _ _ _ _ hd]

end Sys2Proof.Machine
end

section
/-!
# What READY leaves of the completion rings (16 R478; 02 R51)

A completion ring's lifecycle word moves by its own arrival alone: completions, ring errors and the functions that arrive
with READY leave it.
-/
namespace Sys2Proof.Machine
open Sys2Proof Sys2Proof.Safety

section
variable (s : State)

theorem cqFns_refl : CqFns s s := fun _ => rfl

/-! ## Completions and what settles a command -/

theorem cqFns_flightDrop (uid : Nat) : CqFns s (flightDrop s uid) := cqFns_of_cq rfl
theorem cqFns_jrnlMod (u : Nat) (g : JrnlEnt → JrnlEnt) : CqFns s (jrnlMod s u g) := cqFns_of_cq (jrnlMod_host_cq s u g)
theorem cqFns_cnt (n : Nat) : CqFns s (cnt s n) := cqFns_of_cq (cnt_host_cq s n)

theorem cqFns_completeAfter (f : Flight) (st step units : Nat) (res : BitVec 128) (after : Option Nat) :
    CqFns s (completeAfter s f st step units res after) := by
  unfold completeAfter
  extract_lets v c q w x
  have hv : CqFns s v := cqFns_jrnlMod s f.uid _
  clear_value v
  split
  · exact hv.trans (cqFns_flightDrop v f.uid)
  · have hw : CqFns v w := by
      show CqFns v (if _ then _ else _)
      split
      · exact cqFns_refl v
      · exact cqFns_cnt v 299
    clear_value w
    exact (hv.trans hw).trans (cqFns_put (s := w) rfl)

theorem cqFns_complete (f : Flight) (st step units : Nat) (res : BitVec 128) :
    CqFns s (complete s f st step units res) := cqFns_completeAfter s f st step units res none

theorem cqFns_drainCheck : CqFns s (drainCheck s) := by
  refine foldl_cqFns (fun u f => ?_) _ s
  split
  · split
    · exact cqFns_refl u
    · exact cqFns_complete u f _ _ _ _
  · exact cqFns_refl u

theorem cqFns_settle (f : Flight) (st step : Nat) (res : BitVec 128) : CqFns s (settle s f st step res) :=
  (cqFns_of_cq rfl : CqFns s (flightPut s _)).trans (cqFns_drainCheck _)

theorem cqFns_setBitmap (f : Flight) (i : Nat) : CqFns s (setBitmap s f i) := cqFns_of_cq (hostWriteMem_host_cq s _ _)

theorem cqFns_distTgt (f : Flight) (d : Dist) (i : Nat) (g : DTgt → DTgt) : CqFns s (distTgt s f d i g).1 := by
  unfold distTgt
  extract_lets d' v
  have hv : CqFns s v := cqFns_of_cq (hostWriteMem_host_cq (distPut s d') _ _)
  clear_value v
  split
  · exact cqFns_refl s
  · dsimp only
    split
    · exact hv.trans (cqFns_setBitmap v f i)
    · exact hv

theorem cqFns_objScrub (f : Flight) : CqFns s (objScrub s f) := by
  unfold objScrub
  split
  · exact cqFns_refl s
  · dsimp only
    split
    · exact cqFns_of_cq rfl
    · exact (cqFns_of_cq (hostWriteMem_host_cq s _ _)).trans ((cqFns_cnt _ 241).trans (cqFns_of_cq rfl))

theorem cqFns_targetSettle (uid idx : Nat) (ok : Bool) (steps : Nat) : CqFns s (targetSettle s uid idx ok steps) := by
  unfold targetSettle
  split
  · exact cqFns_refl s
  · next f _ =>
    split
    · split
      · exact cqFns_refl s
      · extract_lets left dn nd v g w
        have hv : CqFns s v := by
          show CqFns s (if _ then _ else _)
          split
          · exact cqFns_setBitmap s f idx
          · exact cqFns_refl s
        clear_value v
        have hw : CqFns s w :=
          hv.trans ((cqFns_of_cq rfl : CqFns v (flightPut v _)).trans (cqFns_jrnlMod _ _ _))
        clear_value w
        split
        · exact hw.trans (cqFns_settle w g _ _ _)
        · exact hw
    · exact cqFns_refl s

/-! ## A function that stops or arrives -/

theorem cqFns_txnClose (id : Nat) : CqFns s (txnClose s id) := by
  unfold txnClose txnPromote
  split <;> exact cqFns_of_cq rfl

theorem cqFns_txnLost (t : Txn) (st b20 : Nat) : CqFns s (txnLost s t st b20) := by
  have hclose := cqFns_txnClose s t.id
  unfold txnLost
  dsimp only
  generalize txnClose s t.id = v at hclose
  split
  · exact hclose.trans (cqFns_of_cq rfl)
  · next f _ =>
    split
    · exact hclose
    · split
      · split
        · exact hclose.trans (cqFns_distTgt v f _ _ _)
        · exact hclose
      · split
        · exact hclose.trans (cqFns_distTgt v f _ _ _)
        · exact hclose
      · exact hclose.trans (cqFns_targetSettle v _ _ _ _)
      · exact hclose
      · split
        · exact hclose.trans (cqFns_targetSettle v _ _ _ _)
        · exact hclose.trans ((cqFns_objScrub v f).trans (cqFns_complete _ f _ _ _ _))

theorem cqFns_framesFail (ch st b20 : Nat) (p : TxF → Bool) : CqFns s (framesFail s ch st b20 p) := by
  refine foldl_cqFns (fun u f => ?_) _ s
  dsimp only
  split
  · exact (cqFns_of_cq rfl : CqFns u (txMap u ch _)).trans (cqFns_txnLost _ _ st b20)
  · exact cqFns_of_cq rfl

theorem cqFns_fnArrive (id : Nat) : CqFns s (fnArrive s id) := by
  unfold fnArrive stopBegins
  dsimp only
  split
  · split
    · exact (cqFns_of_cq rfl : CqFns s (fnPut s id _)).trans (cqFns_framesFail _ _ _ _ _)
    · exact cqFns_of_cq rfl
  · exact cqFns_of_cq rfl

theorem cqFns_chanArrive (ch : Nat) : CqFns s (chanArrive s ch) := by
  have harrive : CqFns s (fnArrive (drbgUse s) (0x0100 + ch)) :=
    (cqFns_of_cq (keyRest_cq (keyRest_drbgUse s))).trans (cqFns_fnArrive (drbgUse s) (0x0100 + ch))
  unfold chanArrive
  dsimp only
  generalize fnArrive (drbgUse s) (0x0100 + ch) = v at harrive
  split
  · exact cqFns_refl s
  split
  · exact harrive.trans (cqFns_of_cq rfl)
  split
  · exact harrive.trans (cqFns_of_cq rfl)
  · exact harrive.trans (cqFns_of_cq rfl)

/-! ## Rings -/

theorem cqFns_ringError (kind n : Nat) (w : Word) : CqFns s (ringError s kind n w) := by
  have hlog : CqFns s (logEvent 0x0201 (kind + 256 * n + 2 ^ 32 * w.toNat) s) := cqFns_of_cq (logEvent_host_cq _ _ s)
  unfold ringError
  dsimp only
  generalize logEvent 0x0201 _ s = v at hlog
  have hpost : CqFns v (unsolicited v 0x20 0 0xFFFF 0xFFFFFFFF (kind * 2 ^ 30 + n)) := by
    unfold unsolicited unsolicitedTc
    dsimp only
    split
    · exact cqFns_put rfl
    · exact cqFns_of_cq rfl
  exact hlog.trans (hpost.trans (cqFns_of_cq (msix_host_cq _ _)))

theorem cqFns_sqArrive (q : Nat) : CqFns s (sqArrive s q) := by
  unfold sqArrive
  dsimp only
  split
  · exact cqFns_refl s
  · split
    · exact cqFns_refl s
    · exact (cqFns_of_cq rfl : CqFns s (sqPut s q _)).trans (cqFns_ringError _ 0 q 0)
    · exact cqFns_of_cq rfl

theorem cqFns_sqFollow (c n : Nat) : CqFns s (sqFollow s c n) := by
  induction n with
  | zero => exact cqFns_refl s
  | succ n ih =>
    rw [sqFollow]
    split
    · exact ih.trans (cqFns_sqArrive _ n)
    · exact ih

theorem bootView_sqArrive (q : Nat) : bootView (sqArrive s q) = bootView s := by
  unfold sqArrive
  dsimp only
  split
  · rfl
  · split
    · rfl
    · exact ringError_bootView _ 0 q 0
    · rfl

theorem bootView_sqFollow (c n : Nat) : bootView (sqFollow s c n) = bootView s := by
  induction n with
  | zero => rfl
  | succ n ih =>
    rw [sqFollow]
    split
    · exact (bootView_sqArrive _ n).trans ih
    · exact ih

theorem ringArrive_bootView (kind n : Nat) : bootView (ringArrive s kind n) = bootView s := by
  unfold ringArrive
  split
  · rfl
  · split
    · exact bootView_sqArrive s n
    · exact (bootView_sqFollow _ n 64).trans rfl
    · rfl

/-- Submission and reading rings arrive without a completion ring. -/
theorem cqFns_ringArrive {kind : Nat} (h : kind ≠ 1) (n : Nat) : CqFns s (ringArrive s kind n) := by
  unfold ringArrive
  split
  · exact cqFns_refl s
  · split
    · exact cqFns_sqArrive s n
    · exact absurd rfl h
    · exact cqFns_of_cq rfl

/-- A completion ring put ON, or in STOPPING where a disable is held. -/
def cqReached (s : State) (c : Nat) : State := cqPut s c { cqGet s c with fn := reachOn (cqGet s c).fn, error := false }

theorem ringArrive_cq_eq {n : Nat} (hr : s.boot.ready = true) (h : (cqGet s n).fn.st = .starting) :
    ringArrive s 1 n = sqFollow (cqReached s n) n 64 := by
  rw [ringArrive, if_neg (by simp [hr, ringFn, h])]
  rfl

theorem ringArrive_cq_stands {n : Nat} (h : (cqGet s n).fn.st ≠ .starting) : ringArrive s 1 n = s := by
  rw [ringArrive, if_pos (by simp [ringFn, h])]

/-- A completion ring that waits in STARTING is ON once READY is set. -/
theorem ringArrive_cq_on {n : Nat} (hr : s.boot.ready = true) (h : (cqGet s n).fn.st = .starting)
    (hd : (cqGet s n).fn.disPend = false) : (cqGet (ringArrive s 1 n) n).fn.st = .on := by
  rw [ringArrive_cq_eq s hr h, cqFns_sqFollow, cqReached, cqGet_cqPut, reachOn, hd]
  rfl

/-- Every other one stands. -/
theorem ringArrive_cq_other {n c : Nat} (hr : s.boot.ready = true) (hc : c ≠ n) :
    (cqGet (ringArrive s 1 n) c).fn = (cqGet s c).fn := by
  by_cases h : (cqGet s n).fn.st = .starting
  · rw [ringArrive_cq_eq s hr h, cqFns_sqFollow, cqReached, cqGet_cqPut_ne _ _ _ _ hc]
  · rw [ringArrive_cq_stands s h]

end

theorem ringArrive_ready {s : State} {kind n : Nat} (hr : s.boot.ready = true) : (ringArrive s kind n).boot.ready = true :=
  (congrArg (·.1.ready) (ringArrive_bootView s kind n)).trans hr

/-- A completion ring that is ON stays so while the others arrive. -/
theorem ringsArrive_on_stays (l : List Nat) {s : State} {c : Nat} (hr : s.boot.ready = true)
    (h : (cqGet s c).fn.st = .on) : (cqGet (l.foldl (fun s i => ringArrive s 1 i) s) c).fn.st = .on := by
  induction l generalizing s with
  | nil => exact h
  | cons a l ih =>
    refine ih (ringArrive_ready hr) ?_
    show (cqGet (ringArrive s 1 a) c).fn.st = .on
    by_cases hc : c = a
    · subst hc
      rw [ringArrive_cq_stands s (by rw [h]; decide), h]
    · rw [ringArrive_cq_other s hr hc, h]

/-- One that waits in STARTING is ON once its number has come. -/
theorem ringsArrive_on (l : List Nat) {s : State} {c : Nat} (hr : s.boot.ready = true) (hc : c ∈ l)
    (h : (cqGet s c).fn.st = .starting) (hd : (cqGet s c).fn.disPend = false) :
    (cqGet (l.foldl (fun s i => ringArrive s 1 i) s) c).fn.st = .on := by
  induction l generalizing s with
  | nil => cases hc
  | cons a l ih =>
    rw [List.foldl_cons]
    by_cases ha : c = a
    · subst ha
      exact ringsArrive_on_stays l (ringArrive_ready hr) (ringArrive_cq_on s hr h hd)
    · have hsame := ringArrive_cq_other s hr ha
      exact ih (ringArrive_ready hr) ((List.mem_cons.mp hc).resolve_left ha) (by rw [hsame, h]) (by rw [hsame, hd])

/-! ## BOOT_READY -/

section
variable (s : State)

/-- Phase 0xF, with READY. -/
def readied (s : State) : State := { s with boot := { s.boot with phase := 15, ready := true } }

/-- The rings arrive, completion rings before the others. -/
def ringsReadied (s : State) : State := ringsArrive (ringsArrive (ringsArrive (readied s) 1 64) 0 64) 2 16

/-- A channel, a harness function or a ring's function that arrives with READY. -/
def fnReadied (s : State) (p : Nat × Fn) : State :=
  if p.2.st == .starting && decide (p.1 / 256 ≤ 2) then funcArrive s p.1 true else s

theorem bootReady_eq (h : s.boot.phase = 7) : bootReady s = (ringsReadied s).funcs.foldl fnReadied (ringsReadied s) := by
  rw [bootReady, if_neg (by simp [h])]
  rfl

theorem fnArrive_bootView (id : Nat) : bootView (fnArrive s id) = bootView s := by
  unfold fnArrive
  dsimp only
  split
  · exact (bootView_of_endRest (endRest_stopBegins _ id)).trans rfl
  · rfl

theorem chanArrive_bootView (ch : Nat) : bootView (chanArrive s ch) = bootView s := by
  have harrive : bootView (fnArrive (drbgUse s) (0x0100 + ch)) = bootView s :=
    (fnArrive_bootView _ _).trans (bootView_of_keyRest (keyRest_drbgUse s))
  unfold chanArrive
  dsimp only
  generalize fnArrive (drbgUse s) (0x0100 + ch) = v at harrive
  split
  · rfl
  split
  · exact harrive
  split
  · exact harrive
  · exact harrive

/-- What arrives with READY leaves the completion rings and the start's own words. -/
theorem fnReadied_kept (p : Nat × Fn) : CqFns s (fnReadied s p) ∧ bootView (fnReadied s p) = bootView s := by
  unfold fnReadied
  split
  · next h =>
    have hkind : p.1 / 256 ≤ 2 := by simp at h; exact h.2
    unfold funcArrive
    split
    · exact ⟨cqFns_chanArrive s _, chanArrive_bootView s _⟩
    case h_11 => exact ⟨cqFns_fnArrive s _, fnArrive_bootView s _⟩
    all_goals omega
  · exact ⟨cqFns_refl s, rfl⟩

theorem ringsArrive_kept {kind : Nat} (h : kind ≠ 1) (n : Nat) : CqFns s (ringsArrive s kind n) := by
  unfold ringsArrive
  exact foldl_cqFns (fun u i => cqFns_ringArrive u h i) _ s

theorem ringsArrive_bootView (kind n : Nat) : bootView (ringsArrive s kind n) = bootView s := by
  unfold ringsArrive
  exact foldl_bootView (fun u i => ringArrive_bootView u kind i) _ s

theorem bootReady_bootView (h : s.boot.phase = 7) : bootView (bootReady s) = bootView (readied s) := by
  have hfns := foldl_bootView (fun u p => (fnReadied_kept u p).2) (ringsReadied s).funcs (ringsReadied s)
  rw [bootReady_eq s h, hfns, ringsReadied, ringsArrive_bootView, ringsArrive_bootView, ringsArrive_bootView]

theorem bootReady_cq (h : s.boot.phase = 7) {c : Nat} (hc : c < 64) (hst : (cqGet s c).fn.st = .starting)
    (hd : (cqGet s c).fn.disPend = false) : (cqGet (bootReady s) c).fn.st = .on := by
  have hon : (cqGet (ringsArrive (readied s) 1 64) c).fn.st = .on := by
    unfold ringsArrive
    generalize hl : List.range 64 = l
    exact ringsArrive_on l (s := readied s) rfl (by rw [← hl]; exact List.mem_range.mpr hc) hst hd
  have hrings : CqFns (ringsArrive (readied s) 1 64) (ringsReadied s) :=
    (ringsArrive_kept _ (by decide) 64).trans (ringsArrive_kept _ (by decide) 16)
  rw [bootReady_eq s h, foldl_cqFns (fun u p => (fnReadied_kept u p).1), hrings, hon]

end

end Sys2Proof.Machine
end

section
open Sys2Proof Sys2Proof.Machine Sys2Proof.Safety

/-- Settles O39: a start counts its cycle and ends in phase 0x7 with READY as it was, one held by PFAIL_n goes on at its rise,
BOOT_READY is the arrival of what waits, and a fall of PFAIL_n is the path and the flush. -/
theorem startAndReady : Obligations.StartAndReady := by
  refine ⟨fun s i hr hte hrec => ⟨fun hp ha hb => ?started, fun hp => ?held⟩,
    fun s => ⟨fun h => ?rises, fun hp hr hph hst => ?goesOn⟩, fun s ha hph => ?ready,
    fun s ns ha hp hn => ?falls, fun s ns ha hn => ?short⟩
  case started =>
    have hrow := exec_resetRelease i s (by rw [hr, hte]; rfl)
    rw [resetRelease_eq s i hr, if_neg (by simp [hp])] at hrow
    have hmarks := startRun_marks (released s i)
    have hphase := startRun_phase (released s i) ha hb hrec
    generalize startRun (released s i) = v at hrow hmarks hphase
    have hready : v.boot.ready = s.boot.ready := congrArg (·.1) hmarks
    have hcycles : v.boot.pwrCycles = s.boot.pwrCycles + 1 := congrArg (·.2.1) hmarks
    have hreset : v.pins.resetLow = false := congrArg (·.2.2) hmarks
    exact ⟨_, hrow, hreset, hcycles, hphase, hready⟩
  case held =>
    have hrow := exec_resetRelease i s (by rw [hr, hte]; rfl)
    rw [resetRelease_eq s i hr, if_pos hp] at hrow
    exact ⟨_, hrow, rfl, hp, rfl, rfl, rfl, rfl⟩
  case rises =>
    have hrow := exec_pfailDeassert s
    rw [pfailDeassert_eq, if_neg (by rcases h with h | h | h <;> simp [h])] at hrow
    exact ⟨_, hrow, rfl, rfl, rfl⟩
  case goesOn =>
    have hrow := exec_pfailDeassert s
    rw [pfailDeassert_eq, if_pos (by simp [hp, hr, hph, hst])] at hrow
    have hmarks := startRun_marks { s with pins := { s.pins with pfailLow := false } }
    generalize startRun _ = v at hrow hmarks
    have hcycles : v.boot.pwrCycles = s.boot.pwrCycles + 1 := congrArg (·.2.1) hmarks
    exact ⟨_, hrow, hcycles⟩
  case ready =>
    have hview := bootReady_bootView s hph
    have hcq := fun c => bootReady_cq s hph (c := c)
    have hrow := exec_bootReady s ha
    generalize bootReady s = v at hrow hview hcq
    exact ⟨_, hrow, congrArg (·.1.phase) hview, congrArg (·.1.ready) hview, hcq⟩
  case falls =>
    have hleaves := pfailAssert_leaves s (awake_out ha) hp hn
    have hrow := exec_pfailAssert ns s ha
    generalize pfailAssert s ns = v at hrow hleaves
    exact ⟨_, hrow, hleaves⟩
  case short =>
    have hrow := exec_pfailAssert ns s ha
    have hstay : pfailAssert s ns = s := by rw [pfailAssert, if_pos (by simp [hn])]
    rw [hstay] at hrow
    exact ⟨_, hrow, rfl⟩

end

section
/-!
# Rules of the reading path's queues (04 R128 to R134)

An item leaves the parser for the cipher or for validation, or ends as a copy. `pathRest` is the state without what such a
step can change; `Forwarded` is what it does to the queues.
-/
namespace Sys2Proof.Machine
open Sys2Proof Sys2Proof.Safety

/-! ## What a step of the path leaves -/

/-- A state without the path's queues, the key store, the counters and the ring's ports. -/
def pathRest (s : State) : State :=
  { rest s with rp := State.reset.rp, keys := State.reset.keys, recs := { (rest s).recs with pins := [] }, free := 0 }

theorem pathRest_of_rest {s t : State} (h : rest t = rest s) : pathRest t = pathRest s := by
  simp only [pathRest, h]

theorem pathRest_tab {s t : State} (h : pathRest t = pathRest s) : t.recs.tab = s.recs.tab := congrArg (·.recs.tab) h
theorem pathRest_regs {s t : State} (h : pathRest t = pathRest s) : t.regs = s.regs := congrArg (·.regs) h
theorem pathRest_chan {s t : State} (h : pathRest t = pathRest s) : t.chan = s.chan := congrArg (·.chan) h
theorem pathRest_ce {s t : State} (h : pathRest t = pathRest s) : t.ce = s.ce := congrArg (·.ce) h
theorem pathRest_funcs {s t : State} (h : pathRest t = pathRest s) : t.funcs = s.funcs := congrArg (·.funcs) h

section
variable (s : State) (it : RpItem)

theorem pathRest_slotPut (i : Nat) (x : Slot) : pathRest (slotPut s i x) = pathRest s := rfl
theorem pathRest_cnt (n : Nat) : pathRest (cnt s n) = pathRest s := pathRest_of_rest (rest_cnt s n)

theorem pathRest_releases (l : List Nat) : pathRest (l.foldl slotRelease s) = pathRest s := by
  induction l generalizing s with
  | nil => rfl
  | cons i l ih => exact (ih (slotRelease s i)).trans (pathRest_slotPut s i _)

theorem pathRest_rxSet (e : Nat) (f : Frame) : pathRest (rxSet s e f) = pathRest s := by
  unfold rxSet
  split <;> rfl

theorem pathRest_dupTake (e : Nat) : pathRest (dupTake s it e) = pathRest s := by
  unfold dupTake
  dsimp only
  split <;> rfl

theorem rest_drained : rest (drainCheck (mirrorSend s 0x14 [1, it.id])) = rest s := by
  rw [rest_drainCheck, rest_mirrorSend]

theorem pathRest_itemDiscard : pathRest (itemDiscard s it) = pathRest s := by
  unfold itemDiscard
  dsimp only
  rw [pathRest_of_rest (rest_drained _ it)]
  split <;> rfl

/-! ## The queues -/

/-- The queues a step of the replay stage leaves as they are. -/
def queues (s : State) : List RpItem × List RpItem × List RpItem := (s.rp.parsed, s.rp.cipherQ, s.rp.tc0Q)

/-- The same frame, further on its way. -/
structure SameFrame (x y : RpItem) : Prop where
  id : y.id = x.id
  f : y.f = x.f
  rxDt : y.rxDt = x.rxDt
  cls : y.cls = x.cls
  eid : y.eid = x.eid

theorem SameFrame.refl (x : RpItem) : SameFrame x x := ⟨rfl, rfl, rfl, rfl, rfl⟩

theorem SameFrame.trans {x y z : RpItem} (h : SameFrame x y) (k : SameFrame y z) : SameFrame x z :=
  ⟨k.id.trans h.id, k.f.trans h.f, k.rxDt.trans h.rxDt, k.cls.trans h.cls, k.eid.trans h.eid⟩

/-- An item added to the validation queue. -/
def validated (s : State) (it : RpItem) : State := rpSet s fun r => { r with validQ := r.validQ ++ [it] }

theorem validated_queues : queues (validated s it) = queues s ∧ (validated s it).rp.validQ = s.rp.validQ ++ [it] := ⟨rfl, rfl⟩

theorem rxSet_queues (e : Nat) (f : Frame) : queues (rxSet s e f) = queues s ∧ (rxSet s e f).rp.validQ = s.rp.validQ := by
  unfold rxSet
  split <;> exact ⟨rfl, rfl⟩

theorem dupTake_queues (e : Nat) : queues (dupTake s it e) = queues s ∧ (dupTake s it e).rp.validQ = s.rp.validQ := by
  unfold dupTake
  dsimp only
  split <;> exact ⟨rfl, rfl⟩

theorem cnt_queues (n : Nat) : queues (cnt s n) = queues s ∧ (cnt s n).rp.validQ = s.rp.validQ := by
  rw [queues, cnt_rp]
  exact ⟨rfl, rfl⟩

theorem itemDiscard_queues : queues (itemDiscard s it) = queues s ∧ (itemDiscard s it).rp.validQ = s.rp.validQ := by
  have hrp : ∀ u : State, (drainCheck (mirrorSend u 0x14 [1, it.id])).rp = u.rp := fun u => congrArg (·.rp) (rest_drained u it)
  unfold itemDiscard
  dsimp only
  rw [queues, hrp]
  split <;> exact ⟨rfl, rfl⟩

/-- Whether the replay stage lets an item on without a check. -/
def unchecked (it : RpItem) : Bool := !hasCounter it.f || wbit it.flags 1 || wbit it.flags 2 || wbit it.flags 3

theorem replayStage_unchecked (p : Bool) (h : it.eid = none ∨ unchecked it = true) : replayStage s it p = validated s it := by
  unfold replayStage
  split
  · rfl
  · next e he =>
    rcases h with h | h
    · rw [h] at he
      cases he
    · exact if_pos h

theorem replayStage_passes {e : Nat} (p : Bool) (he : it.eid = some e) (hc : unchecked it = false)
    (h : p = true ∨ replayPasses (seenIc s e) (recGet s e).validCfg it.f = true) :
    replayStage s it p = validated (dupTake (rxSet s e it.f) it e) it := by
  unfold replayStage
  rw [he]
  refine (if_neg ?_).trans (if_pos ?_)
  · rw [unchecked] at hc
    simp [hc]
  · rcases h with h | h <;> simp [h]

theorem replayStage_fails {e : Nat} (he : it.eid = some e) (hc : unchecked it = false)
    (h : replayPasses (seenIc s e) (recGet s e).validCfg it.f = false) :
    replayStage s it false =
      if dupHit s it e then itemDiscard (cnt s 233) it else validated s { it with flags := setFlag it.flags 4 } := by
  unfold replayStage
  rw [he]
  refine (if_neg ?_).trans (if_neg ?_)
  · rw [unchecked] at hc
    simp [hc]
  · simp [h]

/-- The replay stage's outcomes: on to validation, or the end of a copy. -/
inductive Staged (s t : State) (it : RpItem) : Prop where
  | on (rest : pathRest t = pathRest s) (queues : queues t = queues s) (y : RpItem) (same : SameFrame it y)
      (valid : t.rp.validQ = s.rp.validQ ++ [y])
  | copy (rest : pathRest t = pathRest s) (queues : queues t = queues s) (e : Nat) (eid : it.eid = some e)
      (checked : unchecked it = false) (hit : dupHit s it e = true) (valid : t.rp.validQ = s.rp.validQ)

theorem replayStage_staged (p : Bool) : Staged s (replayStage s it p) it := by
  cases he : it.eid with
  | none =>
    rw [replayStage_unchecked s it p (.inl he)]
    exact .on rfl rfl it (.refl it) rfl
  | some e =>
    cases hc : unchecked it with
    | true =>
      rw [replayStage_unchecked s it p (.inr hc)]
      exact .on rfl rfl it (.refl it) rfl
    | false =>
      by_cases h : p = true ∨ replayPasses (seenIc s e) (recGet s e).validCfg it.f = true
      · obtain ⟨hq, hv⟩ := rxSet_queues s e it.f
        obtain ⟨hdq, hdv⟩ := dupTake_queues (rxSet s e it.f) it e
        have hrest := (pathRest_dupTake (rxSet s e it.f) it e).trans (pathRest_rxSet s e it.f)
        rw [replayStage_passes s it p he hc h]
        generalize dupTake (rxSet s e it.f) it e = v at hdq hdv hrest
        exact .on hrest (hdq.trans hq) it (.refl it) (congrArg (· ++ [it]) (hdv.trans hv))
      · obtain ⟨hp, hpass⟩ := not_or.mp h
        rw [Bool.not_eq_true] at hp hpass
        rw [hp, replayStage_fails s it he hc hpass]
        by_cases hhit : dupHit s it e = true
        · obtain ⟨hq, hv⟩ := itemDiscard_queues (cnt s 233) it
          obtain ⟨hcq, hcv⟩ := cnt_queues s 233
          rw [if_pos hhit]
          exact .copy ((pathRest_itemDiscard _ it).trans (pathRest_cnt s 233)) (hq.trans hcq) e he hc hhit (hv.trans hcv)
        · rw [if_neg hhit]
          exact .on rfl rfl { it with flags := setFlag it.flags 4 } ⟨rfl, rfl, rfl, rfl, rfl⟩ rfl

/-! ## Out of the parser -/

/-- The flags a frame without a usable key leaves the parser with. -/
def keylessFlags (it : RpItem) : Word :=
  if it.eid.isSome && !wbit it.flags 3 && it.f.prot != .plain then setFlag it.flags 1 else it.flags

/-- An item with the keys that serve it, and the state with the others' references back. -/
def unkeyed (s : State) (it : RpItem) : State := (it.refs.filter fun i => !keyServes s it.f i).foldl slotRelease s
def served (s : State) (it : RpItem) : RpItem := { it with refs := it.refs.filter (keyServes s it.f) }

theorem itemForward_eq : itemForward s it =
    if (served s it).refs.isEmpty then replayStage (unkeyed s it) { served s it with flags := keylessFlags it } false
    else if it.cls = 0 ∧ (tc0Lane (unkeyed s it)).isSome then
      rpSet (unkeyed s it) fun r => { r with tc0Q := r.tc0Q ++ [served s it] }
    else rpSet (unkeyed s it) fun r => { r with cipherQ := r.cipherQ ++ [served s it] } := rfl

theorem releases_rp (l : List Nat) : (l.foldl slotRelease s).rp = s.rp := by
  induction l generalizing s with
  | nil => rfl
  | cons i l ih => exact (ih (slotRelease s i)).trans rfl

/-- Whether a frame cannot end as a copy at the parser's output: it has no counter there, or the filter is off. -/
def noCopy (s : State) (f : Frame) : Prop := f.proto = 0 ∨ f.prot ≠ .plain ∨ wbit (regGet s 0x200) 1 = false

/-- What a step out of the parser does to the queues. -/
structure Forwarded (s t : State) (it : RpItem) : Prop where
  rest : pathRest t = pathRest s
  parsed : t.rp.parsed = s.rp.parsed
  cipher : ∀ z ∈ t.rp.cipherQ ++ t.rp.tc0Q, z ∈ s.rp.cipherQ ++ s.rp.tc0Q ∨ z.id = it.id
  kept : ∀ z, (z ∈ s.rp.cipherQ → z ∈ t.rp.cipherQ) ∧ (z ∈ s.rp.tc0Q → z ∈ t.rp.tc0Q) ∧ (z ∈ s.rp.validQ → z ∈ t.rp.validQ)
  stays : noCopy s it.f → ∃ y ∈ t.rp.cipherQ ++ t.rp.tc0Q ++ t.rp.validQ, SameFrame it y

theorem wbit_getLsbD (w : Word) (i : Nat) : wbit w i = w.getLsbD i := by
  rw [wbit, fld, BitVec.getLsbD, Nat.testBit_eq_decide_div_mod_eq]
  rfl

/-- A flag set reads as set, and no other flag is lost. -/
theorem wbit_setFlag (w : Word) {i : Nat} (j : Nat) (hi : i < 32) : wbit (setFlag w i) j = (wbit w j || decide (i = j)) := by
  have hbit : (BitVec.ofNat 32 (2 ^ i)).getLsbD j = decide (i = j) := by
    rw [BitVec.getLsbD_ofNat, Nat.testBit_two_pow]
    by_cases h : i = j
    · subst h
      simp [hi]
    · simp [h]
  rw [wbit_getLsbD, setFlag, BitVec.getLsbD_or, hbit, ← wbit_getLsbD]

/-- A protected frame of a record leaves the parser without a key flagged, or with a parse error. -/
theorem keyless_unchecked {r : List Nat} (he : it.eid.isSome = true) (hp : it.f.prot ≠ .plain) :
    unchecked { it with refs := r, flags := keylessFlags it } = true := by
  cases h3 : wbit it.flags 3 with
  | true => simp [unchecked, keylessFlags, h3]
  | false => simp [unchecked, keylessFlags, he, h3, hp, wbit_setFlag]

/-- A frame that cannot end as a copy goes on to validation. -/
theorem noCopy_staged {t u : State} {r : List Nat} (hn : noCopy s it.f) (hregs : u.regs = s.regs)
    (h : Staged u t { it with refs := r, flags := keylessFlags it }) :
    ∃ y, t.rp.validQ = u.rp.validQ ++ [y] ∧ SameFrame it y := by
  cases h with
  | on _ _ y same valid => exact ⟨y, valid, same.id, same.f, same.rxDt, same.cls, same.eid⟩
  | copy _ _ e eid checked hit _ =>
    exfalso
    have hsome : it.eid.isSome = true := by
      rw [show it.eid = some e from eid]
      rfl
    have hfilter : wbit (regGet s 0x200) 1 = true := by
      rw [dupHit, Bool.and_eq_true] at hit
      rw [regGet, ← hregs, ← regGet]
      exact hit.1
    have hprot : it.f.prot = .plain := by
      refine Decidable.byContradiction fun hp => ?_
      rw [keyless_unchecked it hsome hp] at checked
      cases checked
    rcases hn with hproto | hp | hoff
    · have hnone : hasCounter it.f = false := by simp [hasCounter, hproto, hprot]
      simp [unchecked, hnone] at checked
    · exact hp hprot
    · rw [hfilter] at hoff
      cases hoff

theorem itemForward_forwarded : Forwarded s (itemForward s it) it := by
  have hrp : (unkeyed s it).rp = s.rp := releases_rp s _
  have hrest : pathRest (unkeyed s it) = pathRest s := pathRest_releases s _
  rw [itemForward_eq]
  generalize unkeyed s it = v at hrp hrest
  by_cases hkeys : (served s it).refs.isEmpty = true
  · rw [if_pos hkeys]
    have hst := replayStage_staged v { served s it with flags := keylessFlags it } false
    have hstays := fun hn => noCopy_staged s it (r := (served s it).refs) hn (pathRest_regs hrest) hst
    generalize replayStage v _ false = t at hst hstays
    have hq : pathRest t = pathRest v ∧ queues t = queues v ∧ ∀ z ∈ v.rp.validQ, z ∈ t.rp.validQ := by
      cases hst with
      | on hr hq y _ hv => exact ⟨hr, hq, fun z hz => by rw [hv]; exact List.mem_append_left _ hz⟩
      | copy hr hq _ _ _ _ hv => exact ⟨hr, hq, fun z hz => by rw [hv]; exact hz⟩
    obtain ⟨hr, hq, hvalid⟩ := hq
    have hp : t.rp.parsed = v.rp.parsed := congrArg (·.1) hq
    have hc : t.rp.cipherQ = v.rp.cipherQ := congrArg (·.2.1) hq
    have ht : t.rp.tc0Q = v.rp.tc0Q := congrArg (·.2.2) hq
    rw [hrp] at hp hc ht hvalid
    refine ⟨hr.trans hrest, hp, fun z hz => .inl (by rw [← hc, ← ht]; exact hz),
      fun z => ⟨fun h => by rw [hc]; exact h, fun h => by rw [ht]; exact h, hvalid z⟩, fun hn => ?_⟩
    obtain ⟨y, hy, hsame⟩ := hstays hn
    exact ⟨y, List.mem_append_right _ (by rw [hy]; exact List.mem_append_right _ (List.mem_singleton_self y)), hsame⟩
  · have hsame : SameFrame it (served s it) := ⟨rfl, rfl, rfl, rfl, rfl⟩
    rw [if_neg hkeys]
    split
    · refine ⟨hrest, congrArg (·.parsed) hrp, fun z hz => ?_, fun z => ?_, fun _ => ⟨served s it, ?_, hsame⟩⟩
      · rw [← hrp]
        rcases List.mem_append.mp hz with h | h
        · exact .inl (List.mem_append_left _ h)
        · rcases List.mem_append.mp h with h | h
          · exact .inl (List.mem_append_right _ h)
          · exact .inr (by rw [List.mem_singleton.mp h, hsame.id])
      · rw [← hrp]
        exact ⟨id, List.mem_append_left _, id⟩
      · exact List.mem_append_left _ (List.mem_append_right _ (List.mem_append_right _ (List.mem_singleton_self _)))
    · refine ⟨hrest, congrArg (·.parsed) hrp, fun z hz => ?_, fun z => ?_, fun _ => ⟨served s it, ?_, hsame⟩⟩
      · rw [← hrp]
        rcases List.mem_append.mp hz with h | h
        · rcases List.mem_append.mp h with h | h
          · exact .inl (List.mem_append_left _ h)
          · exact .inr (by rw [List.mem_singleton.mp h, hsame.id])
        · exact .inl (List.mem_append_right _ h)
      · rw [← hrp]
        exact ⟨List.mem_append_left _, id, id⟩
      · exact List.mem_append_left _ (List.mem_append_left _ (List.mem_append_right _ (List.mem_singleton_self _)))

end

/-! ## The whole pass -/

/-- An item out of the parser's queue. -/
def unparsed (s : State) (id : Nat) : State := rpSet s fun r => { r with parsed := r.parsed.filter fun x => x.id != id }

/-- Whether a frame stands on the path before its verdict. -/
def OnPath (s : State) (it : RpItem) : Prop :=
  ∃ y ∈ s.rp.parsed ++ s.rp.cipherQ ++ s.rp.tc0Q ++ s.rp.validQ, SameFrame it y

/-- What a pass over the parser's items does. -/
structure Passed (s t : State) (l : List RpItem) : Prop where
  rest : pathRest t = pathRest s
  cipher : ∀ z ∈ t.rp.cipherQ ++ t.rp.tc0Q, z ∈ s.rp.cipherQ ++ s.rp.tc0Q ∨ ∃ a ∈ l, z.id = a.id
  valid : ∀ z ∈ s.rp.validQ, z ∈ t.rp.validQ
  onPath : ∀ it, noCopy s it.f → (∀ a ∈ l, a.id = it.id → SameFrame it a) → OnPath s it → OnPath t it

theorem passed_refl (s : State) (l : List RpItem) : Passed s s l :=
  ⟨rfl, fun _ h => .inl h, fun _ h => h, fun _ _ _ h => h⟩

/-- One item out of the parser. -/
theorem passed_one (s : State) (a : RpItem) : Passed s (itemForward (unparsed s a.id) a) [a] := by
  have hf := itemForward_forwarded (unparsed s a.id) a
  generalize itemForward (unparsed s a.id) a = t at hf
  refine ⟨hf.rest, fun z hz => ?_, fun z hz => (hf.kept z).2.2 hz, fun it hn hl hon => ?_⟩
  · rcases hf.cipher z hz with h | h
    · exact .inl h
    · exact .inr ⟨a, List.mem_singleton_self a, h⟩
  · obtain ⟨y, hy, hsame⟩ := hon
    have honward : ∀ z ∈ t.rp.cipherQ ++ t.rp.tc0Q ++ t.rp.validQ,
        z ∈ t.rp.parsed ++ t.rp.cipherQ ++ t.rp.tc0Q ++ t.rp.validQ := fun z hz => by
      simp only [List.mem_append] at hz ⊢
      grind
    by_cases hid : y.id = a.id
    · have hia : SameFrame it a := hl a (List.mem_singleton_self a) (hid.symm.trans hsame.id)
      have hcopy : noCopy (unparsed s a.id) a.f := by rw [hia.f]; exact hn
      obtain ⟨z, hz, hz'⟩ := hf.stays hcopy
      exact ⟨z, honward z hz, hia.trans hz'⟩
    · refine ⟨y, ?_, hsame⟩
      obtain ⟨h1, h2, h3⟩ := hf.kept y
      have hp : y ∈ s.rp.parsed → y ∈ t.rp.parsed := fun h => by
        rw [hf.parsed]
        exact List.mem_filter.mpr ⟨h, by simpa using hid⟩
      simp only [List.mem_append] at hy ⊢
      rcases hy with ((h | h) | h) | h
      · exact .inl (.inl (.inl (hp h)))
      · exact .inl (.inl (.inr (h1 h)))
      · exact .inl (.inr (h2 h))
      · exact .inr (h3 h)

theorem Passed.trans {s t u : State} {a : RpItem} {l : List RpItem} (h : Passed s t [a]) (k : Passed t u l) :
    Passed s u (a :: l) := by
  refine ⟨k.rest.trans h.rest, fun z hz => ?_, fun z hz => k.valid z (h.valid z hz), fun it hn hl hon => ?_⟩
  · rcases k.cipher z hz with hz | ⟨b, hb, hz⟩
    · rcases h.cipher z hz with hz | ⟨b, hb, hz⟩
      · exact .inl hz
      · exact .inr ⟨b, List.mem_cons.mpr (.inl (List.mem_singleton.mp hb)), hz⟩
    · exact .inr ⟨b, List.mem_cons_of_mem _ hb, hz⟩
  · have hregs : noCopy t it.f := by
      rw [noCopy, regGet, pathRest_regs h.rest]
      exact hn
    exact k.onPath it hregs (fun b hb => hl b (List.mem_cons_of_mem _ hb))
      (h.onPath it hn (fun b hb => hl b (List.mem_cons.mpr (.inl (List.mem_singleton.mp hb)))) hon)

theorem Passed.mono {s t : State} {a : RpItem} {l : List RpItem} (h : Passed s t l) : Passed s t (a :: l) :=
  ⟨h.rest, fun z hz => (h.cipher z hz).imp id fun ⟨b, hb, hz⟩ => ⟨b, List.mem_cons_of_mem _ hb, hz⟩, h.valid,
    fun it hn hl hon => h.onPath it hn (fun b hb => hl b (List.mem_cons_of_mem _ hb)) hon⟩

theorem forwardAll_passed (l : List RpItem) (held : List (Option Nat)) (s : State) : Passed s (forwardAll l held s) l := by
  induction l generalizing held s with
  | nil => exact passed_refl s []
  | cons a l ih =>
    rw [forwardAll]
    split
    · exact (passed_one s a).trans (ih held _)
    · exact (ih (a.eid :: held) s).mono

theorem rpForward_passed (s : State) : Passed s (rpForward s) s.rp.parsed := forwardAll_passed s.rp.parsed [] s

end Sys2Proof.Machine
end

section
/-!
# The parser, the tunnel and the quarantine ring (04 R128 to R130, R141)

A frame at the head of an ingress queue enters the parser with its keys looked up, and the parser passes on what may go.
-/
namespace Sys2Proof.Machine
open Sys2Proof Sys2Proof.Safety

/-! ## Lookups -/

/-- A lookup queued leaves the path and what lies outside the key store. -/
theorem missTake_kept (s : State) (m : Miss) : pathRest (missTake s m) = pathRest s ∧ (missTake s m).rp = s.rp := by
  unfold missTake
  dsimp only
  split
  · next i v _ halloc =>
    unfold slotAlloc at halloc
    dsimp only at halloc
    split at halloc
    · cases halloc
      exact ⟨rfl, rfl⟩
    · obtain ⟨w, -, hw⟩ := Option.map_eq_some_iff.mp halloc
      cases hw
      exact ⟨rfl, rfl⟩
  · exact ⟨rfl, rfl⟩

theorem slotStamped_kept (s : State) (i : Nat) (x : Slot) :
    pathRest (useStamp (slotPut s i x)) = pathRest s ∧ (useStamp (slotPut s i x)).rp = s.rp := ⟨rfl, rfl⟩

theorem kennelLookup_kept (s : State) (item h : Nat) (g : BitVec 8) (tc0 : Bool) :
    pathRest (kennelLookup s item h g tc0).1 = pathRest s ∧ (kennelLookup s item h g tc0).1.rp = s.rp := by
  unfold kennelLookup
  split
  · obtain ⟨hr, hq⟩ := slotStamped_kept (cnt s 236) _ _
    exact ⟨hr.trans (pathRest_cnt s 236), hq.trans (cnt_rp s 236)⟩
  · obtain ⟨hr, hq⟩ := missTake_kept (cnt s 237) ⟨item, h, g, tc0⟩
    exact ⟨hr.trans (pathRest_cnt s 237), hq.trans (cnt_rp s 237)⟩

theorem itemLookup_kept (h : Nat) (gens : List (BitVec 8)) (s : State) (it : RpItem) :
    pathRest (itemLookup s it h gens).1 = pathRest s ∧ (itemLookup s it h gens).1.rp = s.rp ∧
      SameFrame it (itemLookup s it h gens).2 := by
  induction gens generalizing s it with
  | nil => exact ⟨rfl, rfl, .refl it⟩
  | cons g l ih =>
    have hk := kennelLookup_kept s it.id h g it.tc0
    rw [itemLookup]
    generalize kennelLookup s it.id h g it.tc0 = x at hk
    obtain ⟨t, o⟩ := x
    cases o with
    | some i =>
      obtain ⟨h1, h2, h3⟩ := ih t { it with refs := it.refs ++ [i] }
      exact ⟨h1.trans hk.1, h2.trans hk.2, ⟨h3.id, h3.f, h3.rxDt, h3.cls, h3.eid⟩⟩
    | none =>
      obtain ⟨h1, h2, h3⟩ := ih t it
      exact ⟨h1.trans hk.1, h2.trans hk.2, h3⟩

/-! ## Into the parser -/

/-- The item counted, and a TC0 one with a place more. -/
def parseCounted (s : State) (it : RpItem) : State :=
  let s := cnt (cnt s 224) (225 + it.cls)
  if it.tc0 then rpSet s fun r => { r with tc0Frames := r.tc0Frames + 1 } else s

/-- The generations looked up for an item. -/
def parseGens (s : State) (it : RpItem) : List (BitVec 8) :=
  match it.eid with
  | some e => if wbit it.flags 3 || it.f.prot == .plain then [] else usableGens s (recGet s e)
  | none => []

theorem parseTake_eq (s : State) (it : RpItem) : parseTake s it =
    let u := parseCounted s it
    let x := itemLookup u it (epHandle (it.eid.getD 0)) (parseGens u it)
    rpForward (rpSet x.1 fun r => { r with parsed := r.parsed ++ [x.2] }) := rfl

theorem parseCounted_kept (s : State) (it : RpItem) : pathRest (parseCounted s it) = pathRest s ∧
    (parseCounted s it).rp.parsed = s.rp.parsed := by
  have hr : pathRest (cnt (cnt s 224) (225 + it.cls)) = pathRest s := by rw [pathRest_cnt, pathRest_cnt]
  have hp : (cnt (cnt s 224) (225 + it.cls)).rp = s.rp := by rw [cnt_rp, cnt_rp]
  unfold parseCounted
  dsimp only
  split
  · exact ⟨hr, congrArg (·.parsed) hp⟩
  · exact ⟨hr, congrArg (·.parsed) hp⟩

/-- A frame taken into the parser stands on the path afterwards. -/
theorem parseTake_onPath {s : State} {it : RpItem} (hn : noCopy s it.f) (hnew : ∀ y ∈ s.rp.parsed, y.id ≠ it.id) :
    pathRest (parseTake s it) = pathRest s ∧ OnPath (parseTake s it) it := by
  obtain ⟨hcr, hcp⟩ := parseCounted_kept s it
  rw [parseTake_eq]
  dsimp only
  generalize parseCounted s it = u at hcr hcp
  obtain ⟨hlr, hlp, hsame⟩ := itemLookup_kept (epHandle (it.eid.getD 0)) (parseGens u it) u it
  generalize itemLookup u it (epHandle (it.eid.getD 0)) (parseGens u it) = x at hlr hlp hsame
  obtain ⟨v, y⟩ := x
  dsimp only at hlr hlp hsame ⊢
  have hpass := rpForward_passed (rpSet v fun r => { r with parsed := r.parsed ++ [y] })
  have hparsed : (rpSet v fun r => { r with parsed := r.parsed ++ [y] }).rp.parsed = s.rp.parsed ++ [y] := by
    rw [← hcp, ← hlp]
    rfl
  have hrest : pathRest (rpSet v fun r => { r with parsed := r.parsed ++ [y] }) = pathRest s := hlr.trans hcr
  generalize rpSet v _ = w at hpass hparsed hrest
  refine ⟨hpass.rest.trans hrest, hpass.onPath it ?_ (fun a ha hid => ?_) ⟨y, ?_, hsame⟩⟩
  · rw [noCopy, regGet, pathRest_regs hrest]
    exact hn
  · rw [hparsed] at ha
    rcases List.mem_append.mp ha with ha | ha
    · exact absurd hid (hnew a ha)
    · rw [List.mem_singleton.mp ha]
      exact hsame
  · rw [hparsed]
    simp

/-! ## What a takeover's refill leaves -/

/-- The path's queues before the verdict, the channels and the record table. -/
def parseView (s : State) : (List RpItem × List RpItem × List RpItem × List RpItem) × ChSt × Tab EpRec :=
  ((s.rp.parsed, s.rp.cipherQ, s.rp.tc0Q, s.rp.validQ), s.chan, s.recs.tab)

theorem tkoReadings_view (l : List (Nat × ReadRec × Option EpRec)) (s : State) :
    parseView (tkoReadings l s) = parseView s := by
  induction l generalizing s with
  | nil => rfl
  | cons x l ih =>
    rw [tkoReadings]
    split
    · exact ih (tkoReading s x)
    · rfl

theorem tkoRaw_view {s t : State} {x : Nat × Frame} (h : tkoRaw s x = some t) : parseView t = parseView s := by
  unfold tkoRaw at h
  dsimp only at h
  rw [Option.ite_none_left_eq_some] at h
  obtain ⟨-, h⟩ := h
  obtain rfl := Option.some.inj h
  rfl

theorem tkoRaws_view (l : List (Nat × Frame)) (s : State) : parseView (tkoRaws l s) = parseView s := by
  induction l generalizing s with
  | nil => rfl
  | cons x l ih =>
    rw [tkoRaws]
    split
    · next t h => exact (ih t).trans (tkoRaw_view h)
    · rfl

theorem tkoRefill_view (s : State) : parseView (tkoRefill s) = parseView s := by
  unfold tkoRefill
  split
  · rfl
  · exact (tkoRaws_view _ _).trans (tkoReadings_view _ s)

theorem onPath_of_view {s t : State} {it : RpItem} (h : parseView t = parseView s) (hon : OnPath s it) : OnPath t it := by
  have hp : t.rp.parsed = s.rp.parsed := congrArg (·.1.1) h
  have hc : t.rp.cipherQ = s.rp.cipherQ := congrArg (·.1.2.1) h
  have ht : t.rp.tc0Q = s.rp.tc0Q := congrArg (·.1.2.2.1) h
  have hv : t.rp.validQ = s.rp.validQ := congrArg (·.1.2.2.2) h
  rw [OnPath, hp, hc, ht, hv]
  exact hon

/-! ## PARSE_AND_CLASSIFY -/

/-- The item a received frame begins as, classified. -/
def received (s : State) (ch : Nat) (x : RxF) : RpItem :=
  classify s (newItem x.id x.f ch false x.rxDt x.lk.rssi 0 false) x.lk.slotKind

theorem received_is (s : State) (ch : Nat) (x : RxF) : (received s ch x).id = x.id ∧ (received s ch x).f = x.f ∧
    (received s ch x).rxDt = x.rxDt ∧ (received s ch x).cls = frameCls s x.f x.lk.slotKind ∧
    (received s ch x).eid = addrResolve s x.f.addr x.f.proto := ⟨rfl, rfl, rfl, rfl, rfl⟩

/-- The receive queue without its head. -/
def rxTaken (s : State) (ch : Nat) (l : List RxF) : State := bpUpdate (chPut s ch { chGet s ch with rx := l }) ch

theorem parseAndClassify_eq {s : State} {ch : Nat} {x : RxF} {l : List RxF} (hrx : (chGet s ch).rx = x :: l)
    (hroom : parseRoom s false = true) (hcls : frameCls s x.f x.lk.slotKind ≠ 0)
    (harb : arbGrants s 1 (frameCls s x.f x.lk.slotKind) (parseWaiting s) = true)
    (hadm : s.host.admQ.contains (.frame false ch) = false) :
    parseAndClassify s false ch =
      parseTake (arbTake (rxTaken s ch l) 1 (frameCls s x.f x.lk.slotKind)) { received s ch x with tc0 := false } := by
  have hhead : ingressHead s false ch =
      some (newItem x.id x.f ch false x.rxDt x.lk.rssi 0 false, x.lk.slotKind, rxTaken s ch l) := by
    unfold ingressHead
    rw [if_neg (by decide), hrx]
    rfl
  have htc0 : ((received s ch x).cls == 0) = false := by
    rw [(received_is s ch x).2.2.2.1]
    exact beq_eq_false_iff_ne.mpr hcls
  unfold parseAndClassify parseHead
  rw [hhead]
  dsimp only
  rw [← received, htc0, hroom, (received_is s ch x).2.2.2.1, harb, hadm]
  rfl

theorem arbTake_kept (s : State) (a c : Nat) : (arbTake s a c).rp = s.rp ∧ (arbTake s a c).chan = s.chan ∧
    (arbTake s a c).recs = s.recs ∧ (arbTake s a c).regs = s.regs ∧ (arbTake s a c).keys = s.keys ∧
    (arbTake s a c).ce = s.ce ∧ (arbTake s a c).funcs = s.funcs := by
  unfold arbTake
  split <;> exact ⟨rfl, rfl, rfl, rfl, rfl, rfl, rfl⟩

theorem rxTaken_kept (s : State) (ch : Nat) (l : List RxF) : (chGet (rxTaken s ch l) ch).rx = l ∧
    (rxTaken s ch l).rp.parsed = s.rp.parsed ∧ (rxTaken s ch l).regs = s.regs ∧ (rxTaken s ch l).recs = s.recs := by
  refine ⟨?_, rfl, rfl, rfl⟩
  have h : chGet (rxTaken s ch l) ch = chGet (chPut s ch { chGet s ch with rx := l }) ch := rfl
  rw [h, chGet_chPut]

/-- A frame that finds room enters the path, and leaves its channel's queue and the records. -/
theorem parseAndClassify_enters {s : State} {ch : Nat} {x : RxF} {l : List RxF} (hrx : (chGet s ch).rx = x :: l)
    (hroom : parseRoom s false = true) (hcls : frameCls s x.f x.lk.slotKind ≠ 0)
    (harb : arbGrants s 1 (frameCls s x.f x.lk.slotKind) (parseWaiting s) = true)
    (hadm : s.host.admQ.contains (.frame false ch) = false) (hnew : ∀ y ∈ s.rp.parsed, y.id ≠ x.id)
    (hn : noCopy s x.f) :
    let t := tkoRefill (parseAndClassify s false ch)
    (chGet t ch).rx = l ∧ t.recs.tab = s.recs.tab ∧ OnPath t (received s ch x) := by
  intro t
  have hview := tkoRefill_view (parseAndClassify s false ch)
  have ht : parseView t = parseView (parseAndClassify s false ch) := hview
  clear_value t
  rw [parseAndClassify_eq hrx hroom hcls harb hadm] at ht
  obtain ⟨hchrx, hparsed, hregs, hrecs⟩ := rxTaken_kept s ch l
  obtain ⟨hap, hac, har, hareg, -⟩ := arbTake_kept (rxTaken s ch l) 1 (frameCls s x.f x.lk.slotKind)
  have hchan : chGet (arbTake (rxTaken s ch l) 1 (frameCls s x.f x.lk.slotKind)) ch = chGet (rxTaken s ch l) ch := by
    rw [chGet, hac, chGet]
  generalize rxTaken s ch l = u at hchrx hparsed hregs hrecs hap hac har hareg hchan ht
  generalize arbTake u 1 (frameCls s x.f x.lk.slotKind) = v at hap hac har hareg hchan ht
  obtain ⟨hrest, hon⟩ := parseTake_onPath (s := v) (it := { received s ch x with tc0 := false })
    (by rw [noCopy, regGet, hareg, hregs]; exact hn) (by rw [hap, hparsed]; exact hnew)
  generalize parseTake v _ = w at hrest hon ht
  obtain ⟨y, hy, hsame⟩ := onPath_of_view ht hon
  have hwchan : t.chan = v.chan := (congrArg (·.2.1) ht).trans (pathRest_chan hrest)
  have hwtab : t.recs.tab = v.recs.tab := (congrArg (·.2.2) ht).trans (pathRest_tab hrest)
  refine ⟨?_, ?_, y, hy, hsame.id, hsame.f, hsame.rxDt, hsame.cls, hsame.eid⟩
  · rw [chGet, hwchan, ← chGet, hchan, hchrx]
  · rw [hwtab, har, hrecs]

/-! ## OP_TUNNEL_RX -/

/-- The item a tunnelled frame begins as. -/
def tunnelled (s : State) (g : Nat) (e : TunnelEntry) : RpItem :=
  newItem s.rp.idNext e.frame (16 * g) true (if e.flags.toNat % 2 = 1 then e.rdt else dtOf s)
    (if e.flags.toNat / 2 % 2 = 1 then e.rssi else 0x80) e.src (e.flags.toNat % 2 == 1)

/-- A frame admitted to its group's queue. -/
def tunnelTaken (s : State) (g uid : Nat) (e : TunnelEntry) : State :=
  rpSet (cnt (mirrorGated s 0x10 [(tunnelled s g e).id, e.len] 3 uid) 235) fun r =>
    { r with tunnel := lset r.tunnel g (lget [] s.rp.tunnel g ++ [tunnelled s g e]), idNext := r.idNext + 1 }

theorem tunnelAdmit_one {s : State} {g uid : Nat} {e : TunnelEntry}
    (hroom : tunnelUnits (lget [] s.rp.tunnel g) + units e.len ≤ 960) (hdeliv : s.host.deliv.length < 16320) :
    tunnelAdmit g uid [e] s 0 = (tunnelTaken s g uid e, 1) := by
  have hlim : 960 ≤ if (frameCls s e.frame 0 == 0) = true then 1024 else 960 := by
    split <;> omega
  unfold tunnelAdmit
  dsimp only
  rw [if_neg]
  · rfl
  · rw [Bool.or_eq_true, decide_eq_true_eq, Bool.and_eq_true, decide_eq_true_eq]
    omega

theorem tunnelTaken_kept {s : State} {g uid : Nat} {e : TunnelEntry} (hout : s.harn.outState ≠ 2)
    (hlen : s.rp.tunnel.length = 4) (hg : g < 4) (hgate : gateShut s 3 uid = false) :
    lget [] (tunnelTaken s g uid e).rp.tunnel g = lget [] s.rp.tunnel g ++ [tunnelled s g e] ∧
      gateShut (tunnelTaken s g uid e) 3 uid = false ∧ (tunnelTaken s g uid e).recs.tab = s.recs.tab ∧
      (tunnelTaken s g uid e).host.cq = s.host.cq := by
  have hmirror : mirrorGated s 0x10 [(tunnelled s g e).id, e.len] 3 uid = mirrorSend s 0x10 [(tunnelled s g e).id, e.len] := by
    rw [mirrorGated, if_neg (by simpa using hout)]
  have hrest : rest (cnt (mirrorSend s 0x10 [(tunnelled s g e).id, e.len]) 235) = rest s := by
    rw [rest_cnt, rest_mirrorSend]
  have hcq : (cnt (mirrorSend s 0x10 [(tunnelled s g e).id, e.len]) 235).host.cq = s.host.cq := by
    rw [cnt_host_cq, mirrorSend_host_cq]
  unfold tunnelTaken
  rw [hmirror]
  generalize cnt (mirrorSend s 0x10 [(tunnelled s g e).id, e.len]) 235 = v at hrest hcq
  have hrp : v.rp = s.rp := congrArg (·.rp) hrest
  have hgates : v.harn.gates = s.harn.gates := congrArg (·.harn.gates) hrest
  have htab : v.recs.tab = s.recs.tab := congrArg (·.recs.tab) hrest
  refine ⟨?_, ?_, htab, hcq⟩
  · exact lget_lset_same [] _ g _ (by rw [hrp, hlen]; exact hg)
  · exact (congrArg (fun l => l.any fun x => x.kind == 3 && x.id == uid) hgates).trans hgate

/-- A tunnelled frame alone in its command. -/
theorem tunnelRx_one {s : State} {u : Nat} {f : Flight} {e : TunnelEntry} (hr : runnable s u 0x30 = some f)
    (hs : stateShut s u = false) (hn : dByte f.raw 24 4 = 1) (hbad : tunnelBad f.raw [e] = none)
    (hhead : groupHead s (dAux f.raw % 4) = true) (hfn : (fnGet s (0x0200 + dAux f.raw % 4)).st = .on)
    (hunits : f.units = 0) (hstop : s.rp.stopped = false)
    (hroom : tunnelUnits (lget [] s.rp.tunnel (dAux f.raw % 4)) + units e.len ≤ 960) (hdeliv : s.host.deliv.length < 16320)
    (hgate : gateShut (tunnelTaken (bwRx s 66 (dBufLen f.raw)) (dAux f.raw % 4) u e) 3 u = false) :
    tunnelRx s u [e] = completeOk (tunnelTaken (bwRx s 66 (dBufLen f.raw)) (dAux f.raw % 4) u e) f 2 (result4 1 0 0 0) := by
  have hadmit := tunnelAdmit_one (s := bwRx s 66 (dBufLen f.raw)) (g := dAux f.raw % 4) (uid := u) (e := e) hroom hdeliv
  rw [tunnelRx, withDesc_run s u 0x30 _ f hr hs]
  dsimp only
  rw [hn, hbad, hhead, hfn, hstop, hunits, List.drop_zero, hadmit]
  dsimp only
  simp [hgate]

end Sys2Proof.Machine
end

section
/-!
# A pipeline's pass over an item (04 R131 to R134; 05 R154, R177 to R179)

Mask sets are taken and the keys handed on; what verifies goes to the replay stage, what does not is checked on a second
pipeline, and a faulty pipeline is taken out of service. `Handed` is what stands while the pipeline is made ready.
-/
namespace Sys2Proof.Machine
open Sys2Proof Sys2Proof.Safety

/-! ## The pipeline made ready -/

/-- What stands while a pipeline takes its mask sets and its keys. -/
structure Handed (s w : State) (p : Nat) : Prop where
  rp : w.rp = s.rp
  recs : w.recs = s.recs
  funcs : w.funcs = s.funcs
  regs : w.regs = s.regs
  fault : w.ce.fault = s.ce.fault ∧ w.ce.faultCnt = s.ce.faultCnt ∧ w.ce.stage = s.ce.stage
  pools : ∀ q, q ≠ p → pool w q = pool s q ∧ lget 0 w.ce.sets q = lget 0 s.ce.sets q
  slots : ∀ i, (slotGet w i).gen = (slotGet s i).gen ∧ (slotGet w i).key = (slotGet s i).key ∧
    (slotGet w i).usage = (slotGet s i).usage

theorem Handed.refl (s : State) (p : Nat) : Handed s s p :=
  ⟨rfl, rfl, rfl, rfl, ⟨rfl, rfl, rfl⟩, fun _ _ => ⟨rfl, rfl⟩, fun _ => ⟨rfl, rfl, rfl⟩⟩

theorem Handed.trans {s v w : State} {p : Nat} (h : Handed s v p) (k : Handed v w p) : Handed s w p := by
  obtain ⟨a1, a2, a3⟩ := h.fault
  obtain ⟨b1, b2, b3⟩ := k.fault
  exact ⟨k.rp.trans h.rp, k.recs.trans h.recs, k.funcs.trans h.funcs, k.regs.trans h.regs,
    ⟨b1.trans a1, b2.trans a2, b3.trans a3⟩,
    fun q hq => ⟨(k.pools q hq).1.trans (h.pools q hq).1, (k.pools q hq).2.trans (h.pools q hq).2⟩,
    fun i => ⟨(k.slots i).1.trans (h.slots i).1, (k.slots i).2.1.trans (h.slots i).2.1, (k.slots i).2.2.trans (h.slots i).2.2⟩⟩

section
variable (s : State) (p : Nat)

theorem handed_arbTake (a c : Nat) : Handed s (arbTake s a c) p := by
  obtain ⟨h1, -, h3, h4, h5, h6, h7⟩ := arbTake_kept s a c
  exact ⟨h1, h3, h7, h4, ⟨by rw [h6], by rw [h6], by rw [h6]⟩, fun q _ => ⟨by rw [pool, h6, pool], by rw [h6]⟩,
    fun i => ⟨by rw [slotGet, h5, slotGet], by rw [slotGet, h5, slotGet], by rw [slotGet, h5, slotGet]⟩⟩

theorem handed_cntAdd (i k : Nat) (e : Word) : Handed s (cntAdd s i k e) p := by
  have hkeep := keyRest_cntAdd s i k e
  have hce : (cntAdd s i k e).ce = s.ce := cntAdd_ce s i k e
  have hkeys : (cntAdd s i k e).keys = s.keys := cntAdd_keys s i k e
  exact ⟨congrArg (·.rp) hkeep, congrArg (·.recs) hkeep, cntAdd_funcs s i k e, congrArg (·.regs) hkeep,
    ⟨by rw [hce], by rw [hce], by rw [hce]⟩, fun q _ => ⟨by rw [pool, hce, pool], by rw [hce]⟩,
    fun i => ⟨by rw [slotGet, hkeys, slotGet], by rw [slotGet, hkeys, slotGet], by rw [slotGet, hkeys, slotGet]⟩⟩

theorem handed_drbgUse : Handed s (drbgUse s) p := by
  have hc := handed_cntAdd { s with ce := { s.ce with reqs := s.ce.reqs + 1 } } p 272 1 0xFFFFFFFF
  unfold drbgUse drbgJudge cnt
  generalize cntAdd { s with ce := { s.ce with reqs := s.ce.reqs + 1 } } 272 1 0xFFFFFFFF = v at hc
  have hv : Handed s v p := ⟨hc.rp, hc.recs, hc.funcs, hc.regs, hc.fault, hc.pools, hc.slots⟩
  split
  · exact ⟨hv.rp, hv.recs, hv.funcs, hv.regs, hv.fault, hv.pools, hv.slots⟩
  · exact hv

theorem handed_setPool (n : Nat) : Handed s (setPool s p n) p :=
  ⟨rfl, rfl, rfl, rfl, ⟨rfl, rfl, rfl⟩, fun q hq => ⟨lget_lset_other 0 _ p q n hq, rfl⟩, fun _ => ⟨rfl, rfl, rfl⟩⟩

theorem handed_setSets (n : Nat) : Handed s (setSets s p n) p :=
  ⟨rfl, rfl, rfl, rfl, ⟨rfl, rfl, rfl⟩, fun q hq => ⟨rfl, lget_lset_other 0 _ p q n hq⟩, fun _ => ⟨rfl, rfl, rfl⟩⟩

end

theorem handed_blocksPass {s v : State} {p b : Nat} (h : blocksPass s p b = some v) : Handed s v p := by
  unfold blocksPass at h
  split at h
  · cases h
  · obtain ⟨w, hw, rfl⟩ := Option.map_eq_some_iff.mp h
    have hdraw : Handed s w p := by
      unfold maskDraw at hw
      dsimp only at hw
      split at hw
      · cases hw
        exact handed_setSets s p _
      · split at hw
        · cases hw
          exact (handed_drbgUse s p).trans (handed_setSets _ p _)
        · cases hw
    exact hdraw.trans ((handed_setPool w p _).trans (handed_cntAdd _ p _ _ _))

theorem slotHand_slots (s : State) (i j : Nat) : (slotGet (slotHand s i).1 j).gen = (slotGet s j).gen ∧
    (slotGet (slotHand s i).1 j).key = (slotGet s j).key ∧ (slotGet (slotHand s i).1 j).usage = (slotGet s j).usage := by
  have hval := slotHand_val s i
  unfold slotHand at hval ⊢
  dsimp only at hval ⊢
  generalize shareAgain s.free (slotGet s i).sh = k at hval
  have hget : slotGet (useStamp (slotPut { s with free := s.free + 2 } i
      { slotGet s i with sh := k, lru := s.keys.useNext })) j =
      if j = i then { slotGet s i with sh := k, lru := s.keys.useNext } else slotGet s j := by
    by_cases h : j = i
    · subst h
      rw [if_pos rfl]
      exact slotGet_slotPut { s with free := s.free + 2 } j _
    · rw [if_neg h]
      exact slotGet_slotPut_ne { s with free := s.free + 2 } i _ j h
  rw [hget]
  by_cases h : j = i
  · subst h
    rw [if_pos rfl]
    exact ⟨rfl, hval, rfl⟩
  · rw [if_neg h]
    exact ⟨rfl, rfl, rfl⟩

theorem handed_keysHand (l : List Nat) (s : State) (p : Nat) : Handed s (keysHand s p l) p := by
  induction l generalizing s with
  | nil => exact .refl s p
  | cons i l ih =>
    have hone : Handed s (pipeLoad (slotHand s i).1 p (slotHand s i).2) p :=
      ⟨rfl, rfl, rfl, rfl, ⟨rfl, rfl, rfl⟩, fun _ _ => ⟨rfl, rfl⟩, fun j => slotHand_slots s i j⟩
    exact hone.trans (ih _)

/-! ## DECRYPT_AND_VERIFY, up to its pass -/

theorem blocksPass_isSome (s : State) (p b : Nat) : (blocksPass s p b).isSome =
    (poolReady s p b && (decide (lget 0 s.ce.sets p + (b - pool s p) ≤ 65536) || drbgOpen s)) := by
  unfold blocksPass maskDraw
  dsimp only
  cases poolReady s p b with
  | false => rfl
  | true =>
    by_cases hm : lget 0 s.ce.sets p + (b - pool s p) ≤ 65536
    · simp [hm]
    · cases hd : drbgOpen s <;> simp [hm]

theorem blocksPass_isSome_congr {s v : State} (hce : v.ce = s.ce) (hregs : v.regs = s.regs) (p b : Nat) :
    (blocksPass v p b).isSome = (blocksPass s p b).isSome := by
  have hopen : drbgOpen v = drbgOpen s := by
    rw [drbgOpen, drbgOpen, drbgLimit, drbgLimit, regFld, regFld, regGet, regGet, hce, hregs]
  rw [blocksPass_isSome, blocksPass_isSome, poolReady, poolReady, pool, pool, hopen, hce]

/-- The state with the item taken from before its pipeline. -/
def pipeTaken (s : State) (it : RpItem) : State := if inPipe s it then s else arbTake s 2 it.cls

theorem pipeTaken_kept (s : State) (it : RpItem) (p : Nat) : Handed s (pipeTaken s it) p ∧
    (pipeTaken s it).ce = s.ce ∧ (pipeTaken s it).regs = s.regs := by
  obtain ⟨-, -, -, hregs, -, hce, -⟩ := arbTake_kept s 2 it.cls
  unfold pipeTaken
  split
  · exact ⟨.refl s p, rfl, rfl⟩
  · exact ⟨handed_arbTake s p 2 it.cls, hce, hregs⟩

/-- An item its pipeline cannot finish stays before it. -/
def setAside (s : State) (it : RpItem) (p : Nat) : State := cipherMod s it.id fun x => some { x with pipe := some p }

/-- A faulty pipeline's item tries another, the pipeline out of service. -/
def pipeFailed (w : State) (it : RpItem) (p : Nat) : State :=
  pipeFault (cipherMod (stageSet w p false) it.id fun x => some { x with tried := x.tried ||| 2 ^ p, pipe := none }) p

/-- An item whose pipeline is ready passes, or finds the pipeline faulty. -/
theorem decryptVerify_ready {s : State} {p : Nat} {it : RpItem} (hfront : cipherFront s p = some it)
    (hin : inPipe s it = true ∨ itemPipe s it = some p) (hpass : (blocksPass s p (itemBlocks it)).isSome = true)
    (hstage : stageFlag s p = false) (hroom : qRoom s.rp.validQ.length 512 it.tc0 = true) :
    ∃ w, Handed s w p ∧ decryptVerify s p true false = pipeFailed w it p ∧
      ∀ ok, decryptVerify s p false ok = (cipherPass w it p ok).getD (setAside (pipeTaken s it) it p) := by
  obtain ⟨htaken, hce, hregs⟩ := pipeTaken_kept s it p
  have hsome : (blocksPass (pipeTaken s it) p (itemBlocks it)).isSome = true := by
    rw [blocksPass_isSome_congr hce hregs, hpass]
  obtain ⟨v, hv⟩ := Option.isSome_iff_exists.mp hsome
  have hhanded : Handed s (keysHand v p (keyOrder v it)) p :=
    htaken.trans ((handed_blocksPass hv).trans (handed_keysHand _ v p))
  have hflag : stageFlag (keysHand v p (keyOrder v it)) p = false := by
    rw [stageFlag, hhanded.fault.2.2, ← stageFlag, hstage]
  have hgo : ¬ (((!inPipe s it && itemPipe s it != some p) || !qRoom s.rp.validQ.length 512 it.tc0) = true) := by
    rcases hin with h | h <;> simp [h, hroom]
  refine ⟨keysHand v p (keyOrder v it), hhanded, ?_, fun ok => ?_⟩
  · unfold decryptVerify
    rw [hfront]
    dsimp only
    rw [if_neg hgo, ← pipeTaken, hv]
    rfl
  · unfold decryptVerify
    rw [hfront]
    dsimp only
    rw [if_neg hgo, ← pipeTaken, hv]
    dsimp only
    rw [hflag]
    rfl

end Sys2Proof.Machine
end

section
/-!
# The outcomes of a pipeline's pass (04 R131 to R134; 05 R173, R179)

An item out of its pipeline stands in no cipher queue; under a key it goes to the replay stage, without one to a second
pipeline, whose pass convicts the first.
-/
namespace Sys2Proof.Machine
open Sys2Proof Sys2Proof.Safety

/-! ## Keys -/

theorem keyOrder_congr {s u : State} (hrecs : u.recs = s.recs) (hgen : ∀ i, (slotGet u i).gen = (slotGet s i).gen)
    (it : RpItem) (p : Option Nat) : keyOrder u { it with pipe := p } = keyOrder s it := by
  unfold keyOrder
  dsimp only
  simp only [recGet, hrecs, hgen]

theorem verifyKey_congr {s u : State} (hrecs : u.recs = s.recs)
    (hslots : ∀ i, (slotGet u i).gen = (slotGet s i).gen ∧ (slotGet u i).key = (slotGet s i).key ∧
      (slotGet u i).usage = (slotGet s i).usage) (it : RpItem) (p : Option Nat) :
    verifyKey u { it with pipe := p } = verifyKey s it := by
  have hserves : ∀ i, keyServes u it.f i = keyServes s it.f i := fun i => by
    rw [keyServes, (hslots i).2.2, keyServes]
  unfold verifyKey
  rw [keyOrder_congr hrecs (fun i => (hslots i).1)]
  simp only [hserves, fun i => (hslots i).2.1]

/-! ## The item out of its pipeline -/

/-- The item out of the cipher's queues, its units noted. -/
def pipeLeft (w : State) (it : RpItem) : State := cipherMod (holdNote w it) it.id fun _ => none

/-- No item of a number stands in the cipher's queues or in the parser's. -/
def Gone (s : State) (id : Nat) : Prop :=
  (∀ z ∈ s.rp.cipherQ ++ s.rp.tc0Q, z.id ≠ id) ∧ ∀ y ∈ s.rp.parsed, y.id ≠ id

theorem gone_of_queues {s t : State} {id : Nat} (h : queues t = queues s) (hg : Gone s id) : Gone t id := by
  have hp : t.rp.parsed = s.rp.parsed := congrArg (·.1) h
  have hc : t.rp.cipherQ = s.rp.cipherQ := congrArg (·.2.1) h
  have ht : t.rp.tc0Q = s.rp.tc0Q := congrArg (·.2.2) h
  rw [Gone, hp, hc, ht]
  exact hg

theorem pipeLeft_gone {w : State} {it : RpItem} (hp : ∀ y ∈ w.rp.parsed, y.id ≠ it.id) : Gone (pipeLeft w it) it.id := by
  have hdrop : ∀ (l : List RpItem) (z : RpItem), z ∈ l.filterMap (fun x => if x.id = it.id then none else some x) →
      z.id ≠ it.id := fun l z hz => by
    obtain ⟨x, -, hx⟩ := List.mem_filterMap.mp hz
    split at hx
    · cases hx
    · next h =>
      cases hx
      exact h
  refine ⟨fun z hz => ?_, hp⟩
  rcases List.mem_append.mp hz with h | h
  · exact hdrop _ z h
  · exact hdrop _ z h

/-- The parser's pass that follows leaves it so, and takes nothing from validation. -/
theorem rpForward_gone {s : State} {id : Nat} (h : Gone s id) :
    (∀ z ∈ (rpForward s).rp.cipherQ ++ (rpForward s).rp.tc0Q, z.id ≠ id) ∧
      (∀ z ∈ s.rp.validQ, z ∈ (rpForward s).rp.validQ) ∧ pathRest (rpForward s) = pathRest s := by
  have hpass := rpForward_passed s
  refine ⟨fun z hz => ?_, hpass.valid, hpass.rest⟩
  rcases hpass.cipher z hz with h1 | ⟨a, ha, hz'⟩
  · exact h.1 z h1
  · rw [hz']
    exact h.2 a ha

/-! ## Under a key -/

/-- References given back. -/
def keysBack (u : State) (refs : List Nat) : State := refs.foldl slotRelease u

theorem keysBack_kept (refs : List Nat) (u : State) : (keysBack u refs).recs = u.recs ∧ (keysBack u refs).rp = u.rp ∧
    (keysBack u refs).regs = u.regs ∧ pathRest (keysBack u refs) = pathRest u := by
  induction refs generalizing u with
  | nil => exact ⟨rfl, rfl, rfl, rfl⟩
  | cons j l ih =>
    obtain ⟨h1, h2, h3, h4⟩ := ih (slotRelease u j)
    exact ⟨h1.trans rfl, h2.trans rfl, h3.trans rfl, h4.trans rfl⟩

/-- An item with the generation it verified under, its references gone. -/
def underKey (it : RpItem) (g : BitVec 8) : RpItem := { it with gen := g, refs := [] }

theorem itemVerified_eq {u : State} {it : RpItem} {i e : Nat} (he : it.eid = some e)
    (hpend : kcPendValid (recGet u e) = false) :
    itemVerified u it i = replayStage (keysBack u it.refs) (underKey it (slotGet u i).gen) false := by
  have hpend' : kcPendValid (recGet (keysBack u it.refs) e) = false := by
    rw [recGet, (keysBack_kept it.refs u).1, ← recGet, hpend]
  unfold itemVerified
  dsimp only
  split
  · rfl
  · next e' h =>
    obtain rfl := Option.some.inj (he.symm.trans h)
    exact if_neg (by rw [itemRelease, ← keysBack, hpend']; simp)

/-! ## What the replay check reads -/

theorem seenIc_congr {s u : State} (hrecs : u.recs = s.recs) (hrp : u.rp.ics = s.rp.ics) (e : Nat) :
    seenIc u e = seenIc s e := by
  rw [seenIc, seenIc, pinGet, pinGet, recGet, recGet, hrecs, hrp]

theorem dupHit_congr {s u : State} (hregs : u.regs = s.regs) (hfilter : u.rp.filter = s.rp.filter) {x y : RpItem}
    (hf : y.f = x.f) (hg : y.gen = x.gen) (e : Nat) : dupHit u y e = dupHit s x e := by
  rw [dupHit, dupHit, regGet, regGet, hregs, hfilter, hf, hg]

theorem seenIc_rxSet (s : State) (e : Nat) (f : Frame) : seenIc (rxSet s e f) e = frameIc f := by
  unfold rxSet
  split
  · next h =>
    rw [seenIc, pinGet_pinPut, if_pos h]
  · next h =>
    have hpin : (pinGet (rpSet s fun r => { r with ics := tset none r.ics e (some (frameIc f)) }) e).on = false := by
      rw [Bool.not_eq_true] at h
      exact h
    have hic : tget none (tset none s.rp.ics e (some (frameIc f))) e = some (frameIc f) := tget_tset_same none s.rp.ics e _
    rw [seenIc, if_neg (by rw [hpin]; decide)]
    show (tget none (tset none s.rp.ics e (some (frameIc f))) e).getD _ = _
    rw [hic]
    rfl

theorem seenIc_dupTake (s : State) (it : RpItem) (d e : Nat) : seenIc (dupTake s it d) e = seenIc s e := by
  unfold dupTake
  dsimp only
  split <;> rfl

theorem rpForward_empty {s : State} (h : s.rp.parsed = []) : rpForward s = s := by
  rw [rpForward, h]
  rfl

end Sys2Proof.Machine
end

section
/-!
# What DECRYPT_AND_VERIFY ends in (04 R131 to R134; 05 R173, R179)

The three ends of a pass: the item on to validation under its key, flagged after the replay check or after a second
pipeline, or held for another pipeline while a faulty one goes out of service.
-/
namespace Sys2Proof.Machine
open Sys2Proof Sys2Proof.Safety

/-! ## The item before its verdict -/

/-- The item in the hands of its pipeline. -/
def inHand (it : RpItem) (p : Nat) : RpItem := { it with pipe := some p }

theorem cipherPass_key {w : State} {it : RpItem} {p i : Nat} (ok : Bool)
    (h : verifyKey (pipeLeft w it) (inHand it p) = some i) :
    cipherPass w it p ok = some (rpForward (itemVerified (pipeLeft w it) (inHand it p) i)) := by
  unfold cipherPass
  dsimp only
  rw [← pipeLeft, ← inHand, h]

theorem cipherPass_keyless {w : State} {it : RpItem} {p : Nat} (ok : Bool)
    (h : verifyKey (pipeLeft w it) (inHand it p) = none) :
    cipherPass w it p ok = (secondCheck (pipeLeft w it) (inHand it p) p ok).map rpForward := by
  unfold cipherPass
  dsimp only
  rw [← pipeLeft, ← inHand, h]

/-- What an item leaves with, whatever its verdict: no trace of it before validation, and the records as they were. -/
structure Leaves (s v : State) (id : Nat) : Prop where
  gone : Gone v id
  parsed : v.rp.parsed = s.rp.parsed
  tab : v.recs.tab = s.recs.tab

/-- The state an item ends in once validation has it. -/
theorem Leaves.forward {s v : State} {id : Nat} (h : Leaves s v id) (y : RpItem) :
    let t := rpForward (validated v y)
    y ∈ t.rp.validQ ∧ (∀ z ∈ t.rp.cipherQ ++ t.rp.tc0Q, z.id ≠ id) ∧ t.recs.tab = s.recs.tab ∧ pathRest t = pathRest v := by
  obtain ⟨h1, h2, h3⟩ := rpForward_gone (gone_of_queues (validated_queues v y).1 h.gone)
  exact ⟨h2 y (List.mem_append_right _ (List.mem_singleton_self y)), h1, (pathRest_tab h3).trans h.tab, h3⟩

section
variable {s w : State} {p : Nat} {it : RpItem} (hw : Handed s w p) (hnew : ∀ y ∈ s.rp.parsed, y.id ≠ it.id)
include hw

theorem pipeLeft_key : verifyKey (pipeLeft w it) (inHand it p) = verifyKey s it :=
  verifyKey_congr (s := s) (u := pipeLeft w it) hw.recs hw.slots it (some p)

include hnew

theorem pipeLeft_leaves : Leaves s (pipeLeft w it) it.id :=
  ⟨pipeLeft_gone (by rw [hw.rp]; exact hnew), congrArg (·.parsed) hw.rp, congrArg (·.tab) hw.recs⟩

theorem keysBack_leaves (refs : List Nat) : Leaves s (keysBack (pipeLeft w it) refs) it.id := by
  obtain ⟨hrecs, hrp, -, -⟩ := keysBack_kept refs (pipeLeft w it)
  have h := pipeLeft_leaves hw hnew
  generalize pipeLeft w it = u at h hrecs hrp
  exact ⟨by rw [Gone, hrp]; exact h.gone, by rw [hrp, h.parsed], by rw [hrecs, h.tab]⟩

end

theorem underKey_is (it : RpItem) (p : Nat) (g : BitVec 8) : let y := underKey (inHand it p) g
    y.id = it.id ∧ y.f = it.f ∧ y.flags = it.flags ∧ y.eid = it.eid ∧ y.gen = g := ⟨rfl, rfl, rfl, rfl, rfl⟩

/-! ## The replay check -/

section
variable {s w : State} {p e i : Nat} {it : RpItem} (hw : Handed s w p) (hnew : ∀ y ∈ s.rp.parsed, y.id ≠ it.id)
  (he : it.eid = some e) (hkey : verifyKey s it = some i) (hpend : kcPendValid (recGet s e) = false)
include hw he hkey hpend

/-- An item under a key goes to the replay stage with the generation that verified it. -/
theorem cipherPass_verified (ok : Bool) : cipherPass w it p ok =
    some (rpForward (replayStage (keysBack (pipeLeft w it) it.refs) (underKey (inHand it p) (slotGet s i).gen) false)) := by
  have hgen : (slotGet (pipeLeft w it) i).gen = (slotGet s i).gen := (hw.slots i).1
  have hpend' : kcPendValid (recGet (pipeLeft w it) e) = false := by
    rw [recGet, show (pipeLeft w it).recs = s.recs from hw.recs, ← recGet, hpend]
  rw [cipherPass_key ok ((pipeLeft_key hw).trans hkey), itemVerified_eq (it := inHand it p) he hpend', hgen]
  rfl

omit he hkey hpend in
theorem keysBack_reads (refs : List Nat) (e : Nat) :
    let u := keysBack (pipeLeft w it) refs
    seenIc u e = seenIc s e ∧ recGet u e = recGet s e ∧ u.regs = s.regs ∧ u.rp.filter = s.rp.filter := by
  intro u
  obtain ⟨hrecs, hrp, hregs, -⟩ := keysBack_kept refs (pipeLeft w it)
  have hr : u.recs = s.recs := hrecs.trans hw.recs
  refine ⟨seenIc_congr hr ((congrArg (·.ics) hrp).trans (congrArg (·.ics) hw.rp)) e, by rw [recGet, hr, recGet],
    hregs.trans hw.regs, (congrArg (·.filter) hrp).trans (congrArg (·.filter) hw.rp)⟩

include hnew

/-- An item that passes is on to validation unflagged, its counter the one seen. -/
theorem verified_passes (h1 : wbit it.flags 1 = false) (h2 : wbit it.flags 2 = false) (h3 : wbit it.flags 3 = false)
    (hpass : hasCounter it.f = true → replayPasses (seenIc s e) (recGet s e).validCfg it.f = true) (ok : Bool) :
    ∃ v, cipherPass w it p ok = some (rpForward (validated v (underKey (inHand it p) (slotGet s i).gen))) ∧
      Leaves s v it.id ∧ (hasCounter it.f = true → seenIc v e = frameIc it.f) := by
  have hleft := keysBack_leaves hw hnew it.refs
  obtain ⟨hic, hrec, -, -⟩ := keysBack_reads (it := it) hw it.refs e
  rw [cipherPass_verified hw he hkey hpend ok]
  generalize keysBack (pipeLeft w it) it.refs = u at hleft hic hrec
  obtain ⟨-, hf, hflags, heid, -⟩ := underKey_is it p (slotGet s i).gen
  rw [he] at heid
  generalize underKey (inHand it p) (slotGet s i).gen = y at hf hflags heid
  cases hcnt : hasCounter it.f with
  | false =>
    have hun : unchecked y = true := by
      rw [unchecked, hf, hcnt]
      rfl
    rw [replayStage_unchecked u y false (.inr hun)]
    exact ⟨u, rfl, hleft, fun h => by cases h⟩
  | true =>
    have hun : unchecked y = false := by
      rw [unchecked, hf, hflags, hcnt, h1, h2, h3]
      rfl
    have hok : replayPasses (seenIc u e) (recGet u e).validCfg y.f = true := by
      rw [hic, hrec, hf]
      exact hpass hcnt
    rw [replayStage_passes u y false (e := e) heid hun (.inr hok)]
    have hq := (dupTake_queues (rxSet u e y.f) y e).1.trans (rxSet_queues u e y.f).1
    have hrest := (pathRest_dupTake (rxSet u e y.f) y e).trans (pathRest_rxSet u e y.f)
    exact ⟨_, rfl, ⟨gone_of_queues hq hleft.gone, (congrArg (·.1) hq).trans hleft.parsed,
      (pathRest_tab hrest).trans hleft.tab⟩, fun _ => by rw [seenIc_dupTake, seenIc_rxSet, hf]⟩

/-- A replayed one is on to validation flagged. -/
theorem verified_replayed (h1 : wbit it.flags 1 = false) (h2 : wbit it.flags 2 = false) (h3 : wbit it.flags 3 = false)
    (hcnt : hasCounter it.f = true) (hfail : replayPasses (seenIc s e) (recGet s e).validCfg it.f = false)
    (hdup : dupHit s { it with gen := (slotGet s i).gen } e = false) (ok : Bool) :
    ∃ v y, cipherPass w it p ok = some (rpForward (validated v y)) ∧ Leaves s v it.id ∧ y.id = it.id ∧
      wbit y.flags 4 = true := by
  have hleft := keysBack_leaves hw hnew it.refs
  obtain ⟨hic, hrec, hregs, hfilter⟩ := keysBack_reads (it := it) hw it.refs e
  rw [cipherPass_verified hw he hkey hpend ok]
  generalize keysBack (pipeLeft w it) it.refs = u at hleft hic hrec hregs hfilter
  obtain ⟨hid, hf, hflags, heid, hgen⟩ := underKey_is it p (slotGet s i).gen
  rw [he] at heid
  generalize underKey (inHand it p) (slotGet s i).gen = y at hid hf hflags heid hgen
  have hun : unchecked y = false := by
    rw [unchecked, hf, hflags, hcnt, h1, h2, h3]
    rfl
  have hno : dupHit u y e = false := 
    (dupHit_congr hregs hfilter (x := { it with gen := (slotGet s i).gen }) hf hgen e).trans hdup
  rw [replayStage_fails u y (e := e) heid hun (by rw [hic, hrec, hf]; exact hfail), hno, if_neg (by decide)]
  exact ⟨u, _, rfl, hleft, hid, by rw [wbit_setFlag _ _ (by decide)]; simp⟩

end

end Sys2Proof.Machine
end

section
/-!
# The second pipeline's verdict (04 R131; 05 R173, R179)

A tag that fails is checked on another pipeline: there it fails again and the item is flagged, or it passes and the first
pipeline is at fault.
-/
namespace Sys2Proof.Machine
open Sys2Proof Sys2Proof.Safety

/-! ## The pipeline chosen -/

theorem fullest_mem {s : State} {l : List Nat} {q : Nat} (h : fullest s l = some q) : q ∈ l := by
  induction l generalizing q with
  | nil => cases h
  | cons a l ih =>
    rw [fullest] at h
    cases hf : fullest s l with
    | none =>
      rw [hf] at h
      cases h
      exact List.mem_cons_self
    | some r =>
      rw [hf] at h
      dsimp only at h
      split at h
      · cases h
        exact List.mem_cons_self
      · cases h
        exact List.mem_cons_of_mem a (ih hf)

theorem fullest_congr {s u : State} (l : List Nat) (h : ∀ q ∈ l, pool u q = pool s q) : fullest u l = fullest s l := by
  induction l with
  | nil => rfl
  | cons a l ih =>
    have hl := ih fun q hq => h q (List.mem_cons_of_mem a hq)
    rw [fullest, fullest, hl]
    cases hf : fullest s l with
    | none => rfl
    | some q => simp only [h a List.mem_cons_self, h q (List.mem_cons_of_mem a (fullest_mem hf))]

theorem generalPipes_congr {s u : State} (hfuncs : u.funcs = s.funcs) (hregs : u.regs = s.regs) :
    generalPipes u = generalPipes s := by
  have hon : pipeOn u = pipeOn s := funext fun p => by
    rw [pipeOn, fnOn, fnGet, hfuncs, pipeOn, fnOn, fnGet]
  have hlane : tc0Lane u = tc0Lane s := by
    rw [tc0Lane, tc0Lane, highestOn, highestOn, regGet, regGet, hregs, hon]
  simp only [generalPipes, hon, hlane, regGet, hregs]

theorem secondPipe_congr {s w : State} {p : Nat} (hw : Handed s w p) (it : RpItem) :
    secondPipe (pipeLeft w it) p = secondPipe s p := by
  have hg : generalPipes (pipeLeft w it) = generalPipes s := generalPipes_congr hw.funcs hw.regs
  rw [secondPipe, secondPipe, hg]
  refine fullest_congr _ fun q hq => ?_
  have hne : q ≠ p := by simpa using (List.mem_filter.mp hq).2
  exact (hw.pools q hne).1

theorem secondPipe_other {s : State} {p q : Nat} (h : secondPipe s p = some q) : q ≠ p := by
  rw [secondPipe] at h
  simpa using (List.mem_filter.mp (fullest_mem h)).2

/-! ## Its pass -/

/-- A second pipeline's pass, counted. -/
def secondRun (s : State) (q b : Nat) : State :=
  cnt (cntAdd (setPool (setSets s q (lget 0 s.ce.sets q + (b - pool s q))) q (pool s q - b)) (256 + q) b 0xFFFFFFFF) 239

theorem blocksPass_run {s : State} {q b : Nat} (hb : b ≤ pool s q) (hs : lget 0 s.ce.sets q ≤ 65536) :
    (blocksPass s q b).map (fun t => cnt t 239) = some (secondRun s q b) := by
  have hready : poolReady s q b = true := decide_eq_true (Nat.le_trans (Nat.min_le_left _ _) hb)
  have hdraw : maskDraw s q (b - pool s q) = some (setSets s q (lget 0 s.ce.sets q + (b - pool s q))) := if_pos (by omega)
  rw [blocksPass, hready, hdraw]
  rfl

theorem pool_setPool (s : State) {q n : Nat} (h : n ≤ pool s q) : pool (setPool s q n) q = n := by
  by_cases hq : q < s.ce.pools.length
  · exact lget_lset_same 0 _ q n hq
  · have hlen : ∀ l : List Nat, l.length ≤ q → lget 0 l q = 0 := fun l hl => by
      rw [lget_getD, List.getElem?_eq_none hl]
      rfl
    have hzero : pool s q = 0 := hlen _ (by omega)
    have hset : pool (setPool s q n) q = 0 := hlen _ (by
      show (lset s.ce.pools q n).length ≤ q
      rw [lset_length]
      omega)
    omega

theorem secondRun_kept (s : State) (q b : Nat) : (secondRun s q b).rp = s.rp ∧ (secondRun s q b).recs = s.recs ∧
    (secondRun s q b).funcs = s.funcs ∧ (secondRun s q b).keys = s.keys ∧
    pool (secondRun s q b) q = pool s q - b := by
  unfold secondRun
  refine ⟨?_, ?_, ?_, ?_, ?_⟩
  · rw [cnt_rp, cntAdd_rp]; rfl
  · rw [cnt_recs, cntAdd_recs]; rfl
  · rw [cnt_funcs, cntAdd_funcs]; rfl
  · rw [cnt_keys, cntAdd_keys]; rfl
  · rw [pool, cnt_ce, cntAdd_ce, ← pool]
    exact pool_setPool _ (Nat.sub_le _ _)

/-- An item whose tag failed on both: it goes on flagged, its references back. -/
def tagFailed (it : RpItem) : RpItem := { it with flags := setFlag it.flags 2, refs := [] }

section
variable {s : State} {it : RpItem} {p q : Nat} (hq : secondPipe s p = some q) (hb : itemBlocks it ≤ pool s q)
  (hs : lget 0 s.ce.sets q ≤ 65536)
include hq hb hs

theorem secondCheck_fails :
    secondCheck s it p false = some (validated (keysBack (secondRun s q (itemBlocks it)) it.refs) (tagFailed it)) := by
  obtain ⟨v, hv, hv'⟩ := Option.map_eq_some_iff.mp (blocksPass_run hb hs)
  have hun : unchecked (tagFailed it) = true := by simp [unchecked, tagFailed, wbit_setFlag]
  unfold secondCheck
  rw [hq]
  dsimp only
  rw [hv, ← hv', ← replayStage_unchecked _ (tagFailed it) false (.inr hun)]
  rfl

theorem secondCheck_convicts {i : Nat} {l : List Nat} (hkeys : keyOrder (secondRun s q (itemBlocks it)) it = i :: l) :
    secondCheck s it p true =
      some (itemVerified (pipeFault (ceFault (secondRun s q (itemBlocks it)) 8) p) it i) := by
  obtain ⟨v, hv, hv'⟩ := Option.map_eq_some_iff.mp (blocksPass_run hb hs)
  unfold secondCheck
  rw [hq]
  dsimp only
  rw [hv, ← hv']
  rw [← hv'] at hkeys
  rw [Option.map_some, hkeys]

end

end Sys2Proof.Machine
end

section
/-!
# A pipeline at fault (05 R173; 04 R131)

The faulty pipeline is marked, counted and taken out of service, and the item leaves it whatever its verdict.
-/
namespace Sys2Proof.Machine
open Sys2Proof Sys2Proof.Safety

/-! ## The mark -/

theorem pipeFault_marks (s : State) (p : Nat) : (pipeFault s p).ce.fault = setFlag s.ce.fault p ∧
    (pipeFault s p).ce.faultCnt = satInc s.ce.faultCnt ∧ (fnGet (pipeFault s p) (0x0300 + p)).st ≠ .on ∧
    (pipeFault s p).rp = s.rp ∧ (pipeFault s p).recs = s.recs := by
  unfold pipeFault faultDisable
  dsimp only
  generalize hv : cnt { ceFault s p with ce := { (ceFault s p).ce with faultCnt := satInc (ceFault s p).ce.faultCnt } } 268 = v
  have hce : v.ce = { (ceFault s p).ce with faultCnt := satInc (ceFault s p).ce.faultCnt } := by rw [← hv, cnt_ce]
  have hrp : v.rp = s.rp := by rw [← hv, cnt_rp]; rfl
  have hrecs : v.recs = s.recs := by rw [← hv, cnt_recs]; rfl
  rw [logEvent_ce, logEvent_rp, logEvent_recs, logEvent_fnGet]
  split
  · refine ⟨(congrArg CeSt.fault hce).trans rfl, (congrArg CeSt.faultCnt hce).trans rfl, ?_, hrp, hrecs⟩
    rw [fnGet_fnPut]
    exact fun h => FnSt.noConfusion h
  · next h =>
    exact ⟨(congrArg CeSt.fault hce).trans rfl, (congrArg CeSt.faultCnt hce).trans rfl,
      fun hon => h (by rw [hon]; rfl), hrp, hrecs⟩

theorem wbit_setFlag_self (w : Word) {i : Nat} (h : i < 32) : wbit (setFlag w i) i = true := by
  rw [wbit_setFlag w i h]
  simp

/-- A pipeline at fault before its pass: marked and counted, the records as they were. -/
theorem pipeFailed_marks {s w : State} {p : Nat} (hw : Handed s w p) (it : RpItem) (hp : p < 6) :
    wbit (pipeFailed w it p).ce.fault p = true ∧ (pipeFailed w it p).ce.faultCnt = satInc s.ce.faultCnt ∧
      (fnGet (pipeFailed w it p) (0x0300 + p)).st ≠ .on ∧ (pipeFailed w it p).recs.tab = s.recs.tab := by
  obtain ⟨hfault, hcnt, hfn, -, hrecs⟩ := pipeFault_marks
    (cipherMod (stageSet w p false) it.id fun x => some { x with tried := x.tried ||| 2 ^ p, pipe := none }) p
  refine ⟨?_, hcnt.trans (congrArg satInc hw.fault.2.1), hfn, ?_⟩
  · rw [pipeFailed, hfault, wbit_setFlag_self _ (by omega)]
  · exact (congrArg (·.tab) hrecs).trans (congrArg (·.tab) hw.recs)

/-! ## An item that takes its key on the way -/

/-- The crypto engine, the functions and the path's queues before validation. -/
def pipeView (s : State) : CeSt × Tab Fn × List RpItem × List RpItem × List RpItem := (s.ce, s.funcs, queues s)

theorem pipeView_of_pathRest {s t : State} (h : pathRest t = pathRest s) (hq : queues t = queues s) :
    pipeView t = pipeView s := by
  rw [pipeView, pathRest_ce h, pathRest_funcs h, hq, pipeView]

theorem replayStage_view (s : State) (it : RpItem) (p : Bool) : pipeView (replayStage s it p) = pipeView s := by
  cases replayStage_staged s it p with
  | on rest queues => exact pipeView_of_pathRest rest queues
  | copy rest queues => exact pipeView_of_pathRest rest queues

theorem itemPromote_view (s : State) (e : Nat) : pipeView (itemPromote s e) = pipeView s := by
  have hpin : ∀ r, pipeView (pinSync s e r) = pipeView s := fun r => by
    unfold pinSync
    split <;> rfl
  have hcmd : ∀ r, pipeView (cmdChange s e r) = pipeView s := fun r => by
    rw [← hpin r, cmdChange, pipeView, queues, recChange_ce, recChange_funcs, recChange_rp]
    rfl
  exact hcmd (promoted (recView s e))

theorem itemRelease_view (s : State) (it : RpItem) : pipeView (itemRelease s it) = pipeView s := by
  obtain ⟨-, hrp, -, hrest⟩ := keysBack_kept it.refs s
  rw [itemRelease, ← keysBack]
  exact pipeView_of_pathRest hrest (by rw [queues, hrp, queues])

theorem itemVerified_view (s : State) (it : RpItem) (i : Nat) : pipeView (itemVerified s it i) = pipeView s := by
  have hback := itemRelease_view s it
  unfold itemVerified
  dsimp only
  generalize itemRelease s it = v at hback
  cases it.eid with
  | none => exact (replayStage_view v _ false).trans hback
  | some e =>
    dsimp only
    split
    · exact (replayStage_view _ _ true).trans ((itemPromote_view v e).trans hback)
    · exact (replayStage_view v _ false).trans hback

/-! ## The first pipeline convicted -/

section
variable {s w : State} {p q : Nat} {it : RpItem} (hw : Handed s w p) (hnew : ∀ y ∈ s.rp.parsed, y.id ≠ it.id)
  (hkey : verifyKey s it = none) (hq : secondPipe s p = some q) (hb : itemBlocks it ≤ pool s q)
  (hs : lget 0 s.ce.sets q ≤ 65536)
include hw hq hb hs

theorem pipeLeft_second : secondPipe (pipeLeft w it) p = some q ∧ itemBlocks (inHand it p) ≤ pool (pipeLeft w it) q ∧
    lget 0 (pipeLeft w it).ce.sets q ≤ 65536 ∧ pool (pipeLeft w it) q = pool s q := by
  obtain ⟨hpool, hsets⟩ := hw.pools q (secondPipe_other hq)
  have hpool' : pool (pipeLeft w it) q = pool s q := hpool
  exact ⟨(secondPipe_congr hw it).trans hq, by rw [hpool']; exact hb, by rw [← hsets] at hs; exact hs, hpool'⟩

include hnew hkey

/-- A tag that fails on the second pipeline too: the item is on to validation flagged, that pipeline's sets spent. -/
theorem tagFails_twice : ∃ v, cipherPass w it p false = some (rpForward (validated v (tagFailed (inHand it p)))) ∧
    Leaves s v it.id ∧ pool v q = pool s q - itemBlocks it := by
  obtain ⟨hq', hb', hs', hpool⟩ := pipeLeft_second hw hq hb hs
  have hleft := pipeLeft_leaves hw hnew
  rw [cipherPass_keyless false ((pipeLeft_key hw).trans hkey), secondCheck_fails hq' hb' hs']
  obtain ⟨hrp, hrecs, -, -, hspent⟩ := secondRun_kept (pipeLeft w it) q (itemBlocks (inHand it p))
  rw [hpool] at hspent
  generalize pipeLeft w it = u at hleft hrp hrecs hspent
  generalize secondRun u q (itemBlocks (inHand it p)) = x at hrp hrecs hspent
  obtain ⟨hbrecs, hbrp, -, hbrest⟩ := keysBack_kept (inHand it p).refs x
  generalize keysBack x (inHand it p).refs = v at hbrecs hbrp hbrest
  refine ⟨v, rfl, ⟨?_, ?_, ?_⟩, ?_⟩
  · rw [Gone, hbrp, hrp]
    exact hleft.gone
  · rw [hbrp, hrp, hleft.parsed]
  · rw [hbrecs, hrecs, hleft.tab]
  · rw [pool, pathRest_ce hbrest, ← pool, hspent]
    rfl

/-- A tag the second pipeline passes: the first is at fault and out of service, and the item has left it. -/
theorem tag_convicts (hp : p < 6) (hkeys : keyOrder s it ≠ []) : ∃ v, cipherPass w it p true = some (rpForward v) ∧
    wbit v.ce.fault 8 = true ∧ wbit v.ce.fault p = true ∧ (fnGet v (0x0300 + p)).st ≠ .on ∧ Gone v it.id := by
  obtain ⟨hq', hb', hs', -⟩ := pipeLeft_second hw hq hb hs
  have hleft := pipeLeft_leaves hw hnew
  obtain ⟨hrp, hrecs, -, hkeep, -⟩ := secondRun_kept (pipeLeft w it) q (itemBlocks (inHand it p))
  have horder : keyOrder (secondRun (pipeLeft w it) q (itemBlocks (inHand it p))) (inHand it p) = keyOrder s it :=
    keyOrder_congr (hrecs.trans hw.recs) (fun i => by
      rw [slotGet, hkeep]
      exact (hw.slots i).1) it (some p)
  obtain ⟨i, l, hil⟩ := List.exists_cons_of_ne_nil hkeys
  rw [cipherPass_keyless true ((pipeLeft_key hw).trans hkey), secondCheck_convicts hq' hb' hs' (horder.trans hil)]
  generalize pipeLeft w it = u at hleft hrp
  generalize secondRun u q (itemBlocks (inHand it p)) = x at hrp
  obtain ⟨hfault, -, hfn, hfrp, -⟩ := pipeFault_marks (ceFault x 8) p
  have hview := itemVerified_view (pipeFault (ceFault x 8) p) (inHand it p) i
  generalize pipeFault (ceFault x 8) p = y at hfault hfn hfrp hview
  generalize itemVerified y (inHand it p) i = v at hview
  have hce : v.ce.fault = setFlag (setFlag x.ce.fault 8) p := (congrArg (·.1.fault) hview).trans hfault
  have hfuncs : v.funcs = y.funcs := congrArg (·.2.1) hview
  have hyrp : y.rp = u.rp := hfrp.trans hrp
  have hqueues : queues v = queues u := (congrArg (·.2.2) hview).trans (congrArg (fun r => (r.parsed, r.cipherQ, r.tc0Q)) hyrp)
  refine ⟨v, rfl, ?_, ?_, ?_, gone_of_queues hqueues hleft.gone⟩
  · rw [hce, wbit_setFlag _ _ (by omega), wbit_setFlag_self _ (by decide)]
    rfl
  · rw [hce, wbit_setFlag_self _ (by omega)]
  · rw [fnGet, hfuncs, ← fnGet]
    exact hfn

end

end Sys2Proof.Machine
end

section
/-!
# The end of an item (04 R135 to R139; 08 R256)

Validation and posting write at most the item's record, leave the queues behind them, and form its reading record, which
goes to the seal stage. `Ends` is that frame.
-/
namespace Sys2Proof.Machine
open Sys2Proof Sys2Proof.Safety

/-! ## What the end of an item leaves -/

/-- The queues from validation on. -/
def endQueues (s : State) : List RpItem × List RpItem := (s.rp.validQ, s.rp.postQ)

/-- A change that leaves those queues, and every record but one. -/
structure Ends (s t : State) (o : Option Nat) : Prop where
  queues : endQueues t = endQueues s
  others : ∀ y, o ≠ some y → recGet t y = recGet s y

theorem Ends.trans {s t u : State} {o : Option Nat} (h : Ends s t o) (k : Ends t u o) : Ends s u o :=
  ⟨k.queues.trans h.queues, fun y hy => (k.others y hy).trans (h.others y hy)⟩

theorem ends_of_eq {s t : State} (o : Option Nat) (hrp : t.rp = s.rp) (htab : t.recs.tab = s.recs.tab) : Ends s t o :=
  ⟨by rw [endQueues, hrp, endQueues], fun y _ => by rw [recGet, recGet, htab]⟩

theorem Ends.refl (s : State) (o : Option Nat) : Ends s s o := ends_of_eq o rfl rfl

theorem ends_of_rest {s t : State} (o : Option Nat) (h : rest t = rest s) : Ends s t o :=
  ends_of_eq o (congrArg (·.rp) h) (congrArg (·.recs.tab) h)

section
variable (s : State) (e : Nat) (r : EpRec)

theorem pinSync_rp : (pinSync s e r).rp = s.rp := by
  unfold pinSync
  split <;> rfl

theorem ends_pinSync (o : Option Nat) : Ends s (pinSync s e r) o :=
  ⟨by rw [endQueues, pinSync_rp, endQueues], fun y _ => recGet_pinSync s e y r⟩

theorem ends_recPut : Ends s (recPut s e r) (some e) :=
  ⟨rfl, fun y hy => recGet_recPut_ne s e r y fun h => hy (by rw [h])⟩

theorem ends_recPost : Ends s (recPost s e r) (some e) := ends_recPut s e _

theorem ends_recChange : Ends s (recChange s e r) (some e) :=
  ⟨by rw [endQueues, recChange_rp, endQueues], fun y hy => recGet_recChange_ne s e r fun h => hy (by rw [h])⟩

theorem ends_cmdChange : Ends s (cmdChange s e r) (some e) :=
  (ends_pinSync s e r (some e)).trans (ends_recChange (pinSync s e r) e r)

theorem ends_unsolicitedTc (o : Option Nat) (kind eid ring wr spec : Nat) (tc0 : Bool) :
    Ends s (unsolicitedTc s kind eid ring wr spec tc0) o := by
  obtain ⟨cq, n, h⟩ := unsolicitedTc_eq s kind eid ring wr spec tc0
  rw [h]
  exact ends_of_eq o rfl rfl

theorem ends_icWritten (it : RpItem) (o : Option Nat) : Ends s (icWritten s it e) o := by
  unfold icWritten
  split
  · exact ⟨rfl, fun _ _ => rfl⟩
  · exact .refl s o

theorem ends_itemTouched (it : RpItem) (stored : Bool) (g : EpRec → EpRec) : Ends s (itemTouched s it stored g) it.eid := by
  unfold itemTouched
  split
  · exact .refl s _
  · next e he =>
    dsimp only
    rw [he]
    split
    · refine Ends.trans ?_ (ends_icWritten _ e it (some e))
      split
      · exact (ends_pinSync s e _ _).trans (ends_recPost _ e _)
      · exact (ends_pinSync s e _ _).trans (ends_recChange _ e _)
    · exact .refl s _

theorem ends_ledgerRun : Ends s (ledgerRun s e) (some e) :=
  ledgerRun_keeps (P := fun u => Ends s u (some e)) (fun u r _ _ hu => hu.trans (ends_cmdChange u e r))
    (fun h hu => hu.trans (ends_of_eq _ (congrArg (·.rp) h) (congrArg (·.recs.tab) h))) (.refl s _)

/-! ## The record formed -/

theorem storeQueue_rp (x : SEnt) : (storeQueue s x).rp = s.rp := by
  unfold storeQueue
  split <;> rfl

theorem ends_storeReading (o : Option Nat) (rd : ReadRec) (quar : Bool) (post : Option EpRec) (pw : Word) :
    Ends s (storeReading s rd quar post pw).2 o := by
  refine ⟨?_, fun y _ => ?_⟩
  · rw [endQueues, storeReading, storeQueue_rp]
    rfl
  · rw [recGet, storeReading, storeQueue_recs]
    rfl

theorem ends_recordOut (o : Option Nat) (rd : ReadRec) (g c : Nat) (tc0 : Bool) (n : Nat) (u : Option Nat) :
    Ends s (recordOut s rd g c tc0 n u) o := ends_of_eq o rfl rfl

/-- A reading formed from an item waits for its seal. -/
def ReadingFormed (t : State) (it : RpItem) : Prop :=
  ∃ x ∈ t.sealU.queue, x.rd.verdict = it.verdict ∧ x.rd.tc = it.cls ∧ x.rd.kind = itemKind it ∧ x.rd.rxDt = it.rxDt ∧
    x.rd.eid = BitVec.ofNat 32 (it.eid.getD 0xFFFFFFFF)

theorem ReadingFormed.of_item {t : State} {x y : RpItem} (h : ReadingFormed t x) (hv : y.verdict = x.verdict) (hc : y.cls = x.cls)
    (hk : itemKind y = itemKind x) (hd : y.rxDt = x.rxDt) (he : y.eid = x.eid) : ReadingFormed t y := by
  rw [ReadingFormed, hv, hc, hk, hd, he]
  exact h

/-- A record of an item, out to the seal stage. -/
theorem recordOut_formed (it : RpItem) (p : Option Posted) (v : State) (g c : Nat) (tc0 : Bool) (n : Nat) (u : Option Nat) :
    ReadingFormed (drainCheck (recordOut v (itemRecord s it p) g c tc0 n u)) it := by
  have hseal : (drainCheck (recordOut v (itemRecord s it p) g c tc0 n u)).sealU =
      (recordOut v (itemRecord s it p) g c tc0 n u).sealU := congrArg (·.sealU) (rest_drainCheck _)
  rw [ReadingFormed, hseal]
  exact ⟨_, List.mem_append_right _ (List.mem_singleton_self _), rfl, rfl, rfl, rfl, rfl⟩

theorem ends_recordFormed (o : Option Nat) (it : RpItem) (p : Option Posted) (tc0 : Bool) (rd : ReadRec) (quar : Bool)
    (post : Option EpRec) (pw : Word) :
    Ends s (drainCheck (recordOut (storeReading s rd quar post pw).2 (itemRecord s it p) (itemGroup it) it.cls tc0
      (storeReading s rd quar post pw).1 it.uid)) o :=
  (ends_storeReading s o rd quar post pw).trans
    ((ends_recordOut _ o _ _ _ _ _ _).trans (ends_of_rest o (rest_drainCheck _)))

theorem ends_quarPut (o : Option Nat) (it : RpItem) : Ends s (quarPut s it).1 o := by
  unfold quarPut
  exact Ends.trans (t := rpSet s _) ⟨rfl, fun _ _ => rfl⟩ (ends_of_rest o (rest_cnt _ 243))

theorem itemForm_formed {it : RpItem} (hv : it.verdict ≤ 2) (p : Option Posted) (tc0 : Bool) (o : Option Nat) :
    Ends s (itemForm s it p tc0) o ∧ ReadingFormed (itemForm s it p tc0) it := by
  unfold itemForm
  by_cases h2 : 2 ≤ it.verdict
  · have hput : (quarPut s it).2 = { it with qseq := s.rp.qNext } := rfl
    have hends := ends_quarPut s o it
    rw [if_pos h2]
    generalize quarPut s it = x at hput hends
    obtain ⟨v, y⟩ := x
    dsimp only at hput hends ⊢
    subst hput
    have h3 : it.verdict ≠ 3 := by omega
    rw [if_pos hv, if_neg fun h => h3 h.1]
    exact ⟨hends.trans (ends_recordFormed v o _ p tc0 _ _ _ _),
      (recordOut_formed v { it with qseq := s.rp.qNext } p _ _ _ _ _ _).of_item rfl rfl rfl rfl rfl⟩
  · rw [if_neg h2]
    dsimp only
    rw [if_pos hv, if_neg fun ⟨h, _⟩ => by omega]
    exact ⟨ends_recordFormed s o it p tc0 _ _ _ _, recordOut_formed s it p _ _ _ _ _ _⟩

end

end Sys2Proof.Machine
end

section
/-!
# VALIDATION and POSTING (04 R135 to R138; 08 R256; 12 R381, R382)

Validation judges the item at its front: it goes on to posting, or, a TC0 alarm, its record forms at once. Posting writes the
registers and the counter into the record and forms the record of the rest.
-/
namespace Sys2Proof.Machine
open Sys2Proof Sys2Proof.Safety

/-! ## VALIDATION's item -/

/-- The state with the item taken from validation. -/
def validTaken (s : State) (it : RpItem) : State :=
  rpSet (arbTake s 3 it.cls) fun r => { r with validQ := r.validQ.filter fun x => x.id != it.id }

theorem arbTake_is (s : State) (a c : Nat) : ∃ g, arbTake s a c = { s with glob := g } := by
  unfold arbTake
  split
  · exact ⟨s.glob, rfl⟩
  · exact ⟨_, rfl⟩

theorem validTaken_is (s : State) (it : RpItem) : ∃ g, validTaken s it =
    { s with glob := g, rp := { s.rp with validQ := s.rp.validQ.filter fun x => x.id != it.id } } := by
  obtain ⟨g, h⟩ := arbTake_is s 3 it.cls
  exact ⟨g, by rw [validTaken, h]; rfl⟩

theorem boundary_queues (s : State) (g : Glob) (r : RpSt) (c : CalEnt) (n : Nat) :
    boundary { s with glob := g, rp := r } c n = boundary s c n := by
  have hafter : ∀ cal sec k, closeAfter { s with glob := g, rp := r } cal sec k = closeAfter s cal sec k := fun cal sec k => by
    have hnext : ∀ t, nextClose { s with glob := g, rp := r } cal t = nextClose s cal t := fun _ => rfl
    induction k with
    | zero => exact hnext sec
    | succ k ih => simp only [closeAfter, ih, hnext]
  have hback : ∀ cal sec k, closeBack { s with glob := g, rp := r } cal sec k = closeBack s cal sec k := fun cal sec k => by
    have hprev : ∀ t, prevClose { s with glob := g, rp := r } cal t = prevClose s cal t := fun _ => rfl
    induction k with
    | zero => rfl
    | succ k ih => simp only [closeBack, ih, hprev]
  simp only [boundary, hafter, hback]

theorem plainFlags_queues (s : State) (r' : EpRec) (it : RpItem) (g : Glob) (r : RpSt) :
    plainFlags { s with glob := g, rp := r } r' it = plainFlags s r' it := by
  have htime : itemTime { s with glob := g, rp := r } r' it = itemTime s r' it := rfl
  have hclosed : ∀ mt, inClosed { s with glob := g, rp := r } r' mt = inClosed s r' mt := fun mt => by
    have hstart : ∀ c n, periodStart { s with glob := g, rp := r } c n = periodStart s c n := fun c n => by
      simp only [periodStart, boundary_queues]
    rw [inClosed, inClosed, hstart]
    rfl
  have hprof : profA { s with glob := g, rp := r } r' = profA s r' ∧ profB { s with glob := g, rp := r } r' = profB s r' :=
    ⟨rfl, rfl⟩
  have hdup : contentDup { s with glob := g, rp := r } r' it = contentDup s r' it := rfl
  unfold plainFlags
  simp only [htime, hclosed, hprof, hdup]

theorem judged_queues (s : State) (it : RpItem) (g : Glob) (r : RpSt) :
    judged { s with glob := g, rp := r } it = judged s it := by
  have hview : ∀ e, recView { s with glob := g, rp := r } e = recView s e := fun _ => rfl
  unfold judged
  simp only [hview, plainFlags_queues]

theorem contentDup_queues (s : State) (it : RpItem) (g : Glob) (r : RpSt) (e : Nat) :
    contentDup { s with glob := g, rp := r } (recView { s with glob := g, rp := r } e) it = contentDup s (recView s e) it := rfl

theorem judged_is (s : State) (it : RpItem) : ∃ fl v, judged s it = { it with flags := fl, verdict := v } := by
  unfold judged
  split <;> exact ⟨_, _, rfl⟩

/-! ## To posting, or to its record -/

theorem ends_relayFeedback (s : State) (e : Nat) (rep : Option Nat) : Ends s (relayFeedback s e rep) (some e) := by
  have hput : ∀ r, Ends s (relayPut (cmdChange s e r) e RelayT.none) (some e) := fun r =>
    (ends_cmdChange s e r).trans (ends_of_eq _ rfl rfl)
  unfold relayFeedback
  dsimp only
  split
  · exact .refl s _
  · refine Ends.trans ?_ (ends_ledgerRun _ e)
    refine Ends.trans ?_ (ends_recordOut _ _ _ _ _ _ _ _)
    refine Ends.trans ?_ (ends_storeReading _ _ _ _ _ _)
    split
    · exact (hput _).trans ((ends_of_rest _ (rest_cnt _ 331)).trans (ends_unsolicitedTc _ _ _ _ _ _ _ _))
    · exact hput _

/-- What a frame that answers no request tells changes at most its record's relay, and ends no item. -/
theorem itemTells_alone {s : State} {it : RpItem} (h : it.txn = none) :
    (itemTells s it).2 = false ∧ Ends s (itemTells s it).1 it.eid := by
  unfold itemTells
  rw [h]
  cases he : it.eid with
  | none => exact ⟨rfl, .refl s _⟩
  | some e =>
    dsimp only [Option.bind_none]
    split
    · exact ⟨rfl, .refl s _⟩
    · refine ⟨rfl, ?_⟩
      cases reported s e it.f with
      | none => exact .refl s _
      | some r => exact ends_relayFeedback s e (some r)

/-- An item added to the posting queue. -/
def posted (s : State) (it : RpItem) : State := rpSet s fun r => { r with postQ := r.postQ ++ [it] }

/-- VALIDATION of an item that answers no request and is no copy. -/
theorem validationRow_judges {s : State} {it : RpItem} (hfront : validFront s = some it) (hroom : validRoom s it = true)
    (htxn : it.txn = none) (hdup : ∀ e, it.eid = some e → contentDup s (recView s e) it = false) :
    validationRow s =
      let v := cnt (validTaken s it) (229 + (judged s it).verdict)
      if it.alarm && it.cls == 0 then alarmPath v (judged s it)
      else drainCheck (itemTells (posted v (judged s it)) (judged s it)).1 := by
  obtain ⟨g, htaken⟩ := validTaken_is s it
  obtain ⟨fl, vd, hj⟩ := judged_is s it
  have hjudged : judged (validTaken s it) it = judged s it := by rw [htaken, judged_queues]
  have hno : ∀ e, it.eid = some e → contentDup (validTaken s it) (recView (validTaken s it) e) it = false := fun e he => by
    rw [htaken, contentDup_queues, hdup e he]
  have htells : ∀ u, (itemTells u (judged s it)).2 = false := fun u => (itemTells_alone (by rw [hj]; exact htxn)).1
  unfold validationRow
  rw [hfront]
  dsimp only
  rw [if_neg (by rw [hroom]; decide), ← validTaken, hjudged]
  refine (if_neg ?_).trans ?_
  · split
    · next e he =>
      rw [hno e he]
      exact Bool.false_ne_true
    · decide
  have htxn' : (judged s it).txn = none := by rw [hj]; exact htxn
  have hal : (judged s it).alarm = it.alarm ∧ (judged s it).cls = it.cls := by rw [hj]; exact ⟨rfl, rfl⟩
  rw [htxn', hal.1, hal.2]
  dsimp only [Option.bind_none]
  generalize cnt (validTaken s it) (229 + (judged s it).verdict) = v
  split
  · rfl
  · have := htells (posted v (judged s it))
    rw [← posted]
    generalize itemTells (posted v (judged s it)) (judged s it) = x at this ⊢
    obtain ⟨w, b⟩ := x
    dsimp only at this ⊢
    rw [this]

theorem ends_taken (s : State) (it : RpItem) (n : Nat) : endQueues (cnt (validTaken s it) n) =
    (s.rp.validQ.filter fun x => x.id != it.id, s.rp.postQ) := by
  obtain ⟨g, h⟩ := validTaken_is s it
  rw [endQueues, cnt_rp, h]

/-- A judged item stands in the posting queue alone. -/
theorem validation_posts {s : State} {it : RpItem} (hfront : validFront s = some it) (hroom : validRoom s it = true)
    (htxn : it.txn = none) (hdup : ∀ e, it.eid = some e → contentDup s (recView s e) it = false)
    (hkind : it.alarm = false ∨ it.cls ≠ 0) :
    (∀ y ∈ (validationRow s).rp.validQ, y.id ≠ it.id) ∧ judged s it ∈ (validationRow s).rp.postQ := by
  obtain ⟨fl, vd, hj⟩ := judged_is s it
  have hends := (itemTells_alone (s := posted (cnt (validTaken s it) (229 + (judged s it).verdict)) (judged s it))
    (it := judged s it) (by rw [hj]; exact htxn)).2
  have hqueues := ends_taken s it (229 + (judged s it).verdict)
  rw [validationRow_judges hfront hroom htxn hdup]
  dsimp only
  rw [if_neg (by rcases hkind with h | h <;> simp [h])]
  generalize cnt (validTaken s it) (229 + (judged s it).verdict) = v at hends hqueues
  have hrp : (drainCheck (itemTells (posted v (judged s it)) (judged s it)).1).rp =
      (itemTells (posted v (judged s it)) (judged s it)).1.rp := congrArg (·.rp) (rest_drainCheck _)
  rw [hrp]
  have hq := hends.queues
  generalize (itemTells (posted v (judged s it)) (judged s it)).1 = w at hq
  have hvalid : w.rp.validQ = s.rp.validQ.filter fun x => x.id != it.id := (congrArg (·.1) hq).trans (congrArg (·.1) hqueues)
  have hpost : w.rp.postQ = v.rp.postQ ++ [judged s it] := congrArg (·.2) hq
  refine ⟨fun y hy => ?_, by rw [hpost]; exact List.mem_append_right _ (List.mem_singleton_self _)⟩
  rw [hvalid] at hy
  simpa using (List.mem_filter.mp hy).2

theorem alarmPath_formed (s : State) {it : RpItem} (hv : it.verdict ≤ 2) :
    Ends s (alarmPath s it) it.eid ∧ ReadingFormed (alarmPath s it) it := by
  unfold alarmPath
  dsimp only
  have hform := fun u b => itemForm_formed u hv none b it.eid
  have htouch := ends_itemTouched s it true (lastSeen s it)
  refine ⟨Ends.trans ?_ (hform _ _).1, (hform _ _).2⟩
  generalize itemTouched s it true (lastSeen s it) = v at htouch
  by_cases h : it.verdict ≤ 1
  · rw [if_pos h, if_pos h]
    exact htouch.trans ((ends_of_rest _ (rest_appendState _ _ _)).trans (ends_unsolicitedTc _ _ _ _ _ _ _ _))
  · rw [if_neg h, if_neg h]
    exact htouch

/-- A TC0 alarm judged: it stands in no queue, and its record waits for its seal. -/
theorem validation_alarms {s : State} {it : RpItem} (hfront : validFront s = some it) (hroom : validRoom s it = true)
    (htxn : it.txn = none) (hdup : ∀ e, it.eid = some e → contentDup s (recView s e) it = false)
    (halarm : it.alarm = true) (hcls : it.cls = 0) (hv : (judged s it).verdict ≤ 2) :
    (∀ y ∈ (validationRow s).rp.validQ, y.id ≠ it.id) ∧ (validationRow s).rp.postQ = s.rp.postQ ∧
      ReadingFormed (validationRow s) (judged s it) := by
  have hqueues := ends_taken s it (229 + (judged s it).verdict)
  rw [validationRow_judges hfront hroom htxn hdup]
  dsimp only
  rw [if_pos (by simp [halarm, hcls])]
  generalize cnt (validTaken s it) (229 + (judged s it).verdict) = v at hqueues
  obtain ⟨hends, hform⟩ := alarmPath_formed v hv
  generalize alarmPath v (judged s it) = w at hends hform
  have hq := hends.queues.trans hqueues
  have hvalid : w.rp.validQ = s.rp.validQ.filter fun x => x.id != it.id := congrArg (·.1) hq
  refine ⟨fun y hy => ?_, congrArg (·.2) hq, hform⟩
  rw [hvalid] at hy
  simpa using (List.mem_filter.mp hy).2

end Sys2Proof.Machine
end

section
/-!
# POSTING (04 R138, R139; 08 R256)

A posting carries the frame's counter and its registers into the record. `Metered` says what the record's meter fields are,
and the ledger's evaluation that follows keeps them.
-/
namespace Sys2Proof.Machine
open Sys2Proof Sys2Proof.Safety

/-! ## The meter fields of a record -/

/-- A record's registers and counter, the counter as its readers see it. -/
structure Metered (s : State) (e : Nat) (regs : Tab (BitVec 64)) (ic : Word) : Prop where
  energy : (recGet s e).energy = regs
  rxIc : (recGet s e).rxIc = ic
  view : (recView s e).rxIc = ic

theorem recView_energy (s : State) (e : Nat) : (recView s e).energy = (recGet s e).energy := by
  unfold recView
  dsimp only
  split <;> rfl

theorem Metered.of_recs {s t : State} {e : Nat} {regs : Tab (BitVec 64)} {ic : Word} (h : Metered s e regs ic)
    (htab : t.recs.tab = s.recs.tab) (hpins : t.recs.pins = s.recs.pins) : Metered t e regs ic := by
  have hrec : recGet t e = recGet s e := by rw [recGet, recGet, htab]
  have hpin : pinGet t e = pinGet s e := by rw [pinGet, pinGet, hpins]
  have hview : recView t e = recView s e := by rw [recView, recView, hrec, hpin]
  exact ⟨by rw [hrec, h.energy], by rw [hrec, h.rxIc], by rw [hview, h.view]⟩

/-- A record written with its pin in step has the fields written. -/
theorem metered_written {s t : State} {e : Nat} {r r' : EpRec} (hrec : recGet t e = r') (hregs : r'.energy = r.energy)
    (hic : r'.rxIc = r.rxIc) (hpins : t.recs.pins = (pinSync s e r).recs.pins) : Metered t e r.energy r.rxIc := by
  refine ⟨by rw [hrec, hregs], by rw [hrec, hic], ?_⟩
  have hpin : pinGet t e = if (pinGet s e).on then pinOf r else pinGet s e := by
    rw [pinGet, hpins, ← pinGet, pinSync]
    split
    · exact pinGet_pinPut s e _
    · rfl
  rw [recView, hpin, hrec]
  by_cases hon : (pinGet s e).on = true
  · rw [if_pos hon]
    exact (congrArg EpRec.rxIc (if_pos rfl)).trans rfl
  · rw [if_neg hon]
    exact (congrArg EpRec.rxIc (if_neg hon)).trans hic

theorem metered_recPost (s : State) (e : Nat) (r : EpRec) : Metered (recPost (pinSync s e r) e r) e r.energy r.rxIc :=
  metered_written (recGet_recPut _ e _) rfl rfl rfl

theorem metered_cmdChange (s : State) (e : Nat) (r : EpRec) : Metered (cmdChange s e r) e r.energy r.rxIc :=
  metered_written (recGet_recChange _ e r) rfl rfl (by rw [cmdChange, recChange]; exact appendState_recs_pins _ _ _)

theorem metered_ledgerRun {s : State} {e : Nat} {regs : Tab (BitVec 64)} {ic : Word} (h : Metered s e regs ic) :
    Metered (ledgerRun s e) e regs ic := by
  refine ledgerRun_keeps (P := fun u => Metered u e regs ic) (fun u r hr hi hu => ?_) (fun ho hu => ?_) h
  · have hm := metered_cmdChange u e r
    rw [hr, hi, recView_energy, hu.energy, hu.view] at hm
    exact hm
  · exact hu.of_recs (congrArg (·.recs.tab) ho) (congrArg (·.recs.pins) ho)

/-! ## What an allocation leaves -/

/-- A posting under way: nothing but the record has moved, and its counter stands. -/
structure PostKept (e : Nat) (p q : Post) : Prop where
  ends : Ends p.s q.s (some e)
  rxIc : q.r.rxIc = p.r.rxIc

theorem PostKept.trans {e : Nat} {p q r : Post} (h : PostKept e p q) (k : PostKept e q r) : PostKept e p r :=
  ⟨h.ends.trans k.ends, k.rxIc.trans h.rxIc⟩

theorem closePeriod_kept (s : State) (e : Nat) (r : EpRec) (final : Bool) (sec : Nat) :
    Ends s (closePeriod s e r final sec).1 (some e) ∧ (closePeriod s e r final sec).2.rxIc = r.rxIc := by
  refine ⟨⟨?_, fun y hy => (closePeriod_visited s e r final sec).2 y fun h => hy (by rw [h])⟩, rfl⟩
  have hput : ∀ (u : State) (x : EpRec), (recPut u e x).rp = u.rp := fun _ _ => rfl
  have hout : ∀ (u : State) rd g c b n uid, (recordOut u rd g c b n uid).rp = u.rp := fun _ _ _ _ _ _ _ => rfl
  unfold closePeriod
  dsimp only
  rw [endQueues, hput, appendState_rp, cnt_rp, hout, storeQueue_rp, endQueues]

theorem closeDue_kept (e sec n : Nat) (s : State) (r : EpRec) : Ends s (closeDue e sec n (s, r)).1 (some e) ∧
    (closeDue e sec n (s, r)).2.rxIc = r.rxIc := by
  induction n generalizing s r with
  | zero => exact ⟨.refl s _, rfl⟩
  | succ n ih =>
    rw [closeDue]
    split
    · next b _ =>
      split
      · obtain ⟨h1, h2⟩ := closePeriod_kept s e r false b
        obtain ⟨h3, h4⟩ := ih (closePeriod s e r false b).1 (closePeriod s e r false b).2
        exact ⟨h1.trans h3, h4.trans h2⟩
      · exact ⟨.refl s _, rfl⟩
    · exact ⟨.refl s _, rfl⟩

/-- The record once the sub-interval that ends at an instant has closed. -/
def subEnded (p : Post) (t : List Byte) (sec : Nat) : EpRec × Bool :=
  let std := stdOf p.s (calGet p.s (epCal p.r)).bytes sec
  if subLen t ≠ 0 ∧ std % subLen t = 0 ∧ p.r.demand.curNum.toNat < std / subLen t then
    subClose p.s p.r t sec (std / subLen t)
  else (p.r, false)

theorem subEnded_rxIc (p : Post) (t : List Byte) (sec : Nat) : (subEnded p t sec).1.rxIc = p.r.rxIc := by
  unfold subEnded
  dsimp only
  split <;> rfl

theorem applyAt_kept (e sec : Nat) (p : Post) : PostKept e p (applyAt e sec p) := by
  unfold applyAt
  dsimp only
  split
  · next t t' _ _ =>
    obtain ⟨h1, h2⟩ := closeDue_kept e sec 64 p.s (subEnded p t sec).1
    rw [← subEnded]
    generalize closeDue e sec 64 (p.s, (subEnded p t sec).1) = y at h1 h2 ⊢
    refine ⟨h1, ?_⟩
    dsimp only
    split <;> exact h2.trans (subEnded_rxIc p t sec)
  · exact ⟨.refl _ _, rfl⟩

theorem ledgerDebit_rxIc (r : EpRec) (n price : Nat) : (ledgerDebit r n price).rxIc = r.rxIc := by
  unfold ledgerDebit
  split <;> rfl

theorem postSeg_kept (e lo hi n : Nat) (p : Post) : PostKept e p (postSeg lo hi n p) := by
  unfold postSeg
  dsimp only
  split
  · exact ⟨.refl _ _, rfl⟩
  · refine ⟨?_, ?_⟩
    · dsimp only
      split
      · exact ends_of_rest _ (rest_cnt _ 328)
      · exact .refl _ _
    · dsimp only
      split <;> (try split) <;> simp [ledgerDebit_rxIc, lateAdd]

theorem postSegs_kept (e : Nat) (l : List ((Nat × Nat) × Nat)) (p : Post) : PostKept e p (postSegs e l p) := by
  induction l generalizing p with
  | nil => exact ⟨.refl _ _, rfl⟩
  | cons x l ih =>
    obtain ⟨⟨lo, hi⟩, n⟩ := x
    exact ((applyAt_kept e lo p).trans (postSeg_kept e lo hi n _)).trans (ih _)

theorem allocate_kept (e : Nat) (mt : BitVec 64) (de : Nat) (p : Post) : PostKept e p (allocate e mt de p).1 := by
  have hdone : ∀ q : Post, PostKept e p q →
      PostKept e p { q with r := { q.r with demand := { q.r.demand with allocDt := mt } } } := fun _ h => ⟨h.ends, h.rxIc⟩
  unfold allocate
  dsimp only
  split
  · exact hdone _ (postSeg_kept e _ _ _ _)
  · exact hdone _ ((postSegs_kept e _ _).trans (applyAt_kept e _ _))

/-! ## A reading posted -/

theorem warnMissing_kept (s : State) (key kind id : Nat) (b : Bool) (r : EpRec) :
    (warnMissing s key kind id b).rp = s.rp ∧ (warnMissing s key kind id b).recs = s.recs ∧
      bound (warnMissing s key kind id b) r = bound s r := by
  have hbound : ∀ u : State, u.bill.tariffs = s.bill.tariffs → u.bill.cals = s.bill.cals → bound u r = bound s r :=
    fun u h1 h2 => by rw [bound, bound, tarGet, tarGet, calLoaded, calLoaded, calGet, calGet, h1, h2]
  unfold warnMissing
  split
  · exact ⟨rfl, rfl, rfl⟩
  · exact ⟨logEvent_rp .., logEvent_recs .., hbound _ (by rw [logEvent_bill]) (by rw [logEvent_bill])⟩

/-- A record written back with its pin, and its ledger evaluated. -/
theorem finish_kept (s : State) (e : Nat) (r : EpRec) :
    Ends s (ledgerRun (recPost (pinSync s e r) e r) e) (some e) ∧
      Metered (ledgerRun (recPost (pinSync s e r) e r) e) e r.energy r.rxIc :=
  ⟨(ends_pinSync s e r _).trans ((ends_recPost _ e r).trans (ends_ledgerRun _ e)),
    metered_ledgerRun (metered_recPost s e r)⟩

/-- The registers a posting leaves. -/
def postedRegs (r : EpRec) (regs : List (Nat × BitVec 64)) : Tab (BitVec 64) :=
  (carried r regs).foldl (fun t p => tset 0 t p.1 p.2) r.energy

/-- A posting leaves the record's counter, and its registers where no tariff applies. -/
theorem postReading_kept (s : State) (e : Nat) (mt : BitVec 64) (regs : List (Nat × BitVec 64)) (g : EpRec → EpRec) :
    Ends s (postReading s e mt regs g).s (some e) ∧
      ∃ en, Metered (postReading s e mt regs g).s e en (g (recView s e)).rxIc ∧
        (bound s (g (recView s e)) = false → en = postedRegs (g (recView s e)) regs) := by
  unfold postReading
  dsimp only
  generalize g (recView s e) = r
  generalize hu : warnMissing (warnMissing s _ _ _ _) _ _ _ _ = u
  obtain ⟨hends, hbound⟩ : Ends s u (some e) ∧ bound u r = bound s r := by
    obtain ⟨a1, a2, a3⟩ := warnMissing_kept s (epTariff r) 0 (epTariff r) (tarGet s (epTariff r)).cur.isSome r
    obtain ⟨b1, b2, b3⟩ := warnMissing_kept (warnMissing s (epTariff r) 0 (epTariff r) (tarGet s (epTariff r)).cur.isSome)
      (256 + epCal r) 1 (epCal r) (calLoaded (warnMissing s (epTariff r) 0 (epTariff r) (tarGet s (epTariff r)).cur.isSome)
        (epCal r)) r
    rw [← hu]
    exact ⟨ends_of_eq _ (b1.trans a1) (congrArg (·.tab) (b2.trans a2)), b3.trans a3⟩
  obtain ⟨r', hr'⟩ : ∃ r' : EpRec, r' = { r with energy := postedRegs r regs } := ⟨_, rfl⟩
  have hic : r'.rxIc = r.rxIc := by rw [hr']
  have hen : r'.energy = postedRegs r regs := by rw [hr']
  have hfold : ({ r with energy := (carried r regs).foldl (fun t p => tset 0 t p.1 p.2) r.energy } : EpRec) = r' := hr'.symm
  rw [hfold]
  have hfinish : ∀ (v : State) (x : EpRec), Ends u v (some e) → x.rxIc = r.rxIc →
      (bound s r = false → x.energy = postedRegs r regs) →
      Ends s (ledgerRun (recPost (pinSync v e x) e x) e) (some e) ∧
        ∃ en, Metered (ledgerRun (recPost (pinSync v e x) e x) e) e en r.rxIc ∧
          (bound s r = false → en = postedRegs r regs) := fun v x hv hi hx => by
    obtain ⟨h1, h2⟩ := finish_kept v e x
    rw [hi] at h2
    exact ⟨hends.trans (hv.trans h1), x.energy, h2, hx⟩
  split
  · exact hfinish u r' (.refl u _) hic fun _ => hen
  · next t ht =>
    have hb : bound s r ≠ false := fun h => by
      rw [hbound, h] at ht
      cases ht
    split
    · exact hfinish u r' (.refl u _) hic fun _ => hen
    · next c _ =>
      split
      · exact hfinish u (baseline u r' mt t) (.refl u _) hic fun h => absurd h hb
      · have hk := allocate_kept e mt (c.2.toNat - (tget 0 r.energy c.1).toNat) ⟨u, r', false, false, false⟩
        generalize allocate e mt (c.2.toNat - (tget 0 r.energy c.1).toNat) ⟨u, r', false, false, false⟩ = y at hk
        exact hfinish y.1.s y.1.r hk.ends (hk.rxIc.trans hic) fun h => absurd h hb

end Sys2Proof.Machine
end

section
/-!
# An item posted (04 R138, R139; 08 R256)

The item leaves the posting queue, its record takes its registers, times and counter, and its reading record waits for its
seal.
-/
namespace Sys2Proof.Machine
open Sys2Proof Sys2Proof.Safety

/-! ## The record an item posts -/

/-- The record as an item's posting begins with it. -/
def postedRec (s : State) (it : RpItem) (e : Nat) : EpRec := lastSeen s it (withIc s it e (recView s e))

section
variable (s : State) (it : RpItem) (e : Nat)


/-- The counter's place in the record does not bear on its registers or its tariff. -/
theorem postedRec_fields : bound s (postedRec s it e) = bound s (lastSeen s it (recView s e)) ∧
    postedRegs (postedRec s it e) it.f.regs =
      (carried (lastSeen s it (recView s e)) it.f.regs).foldl (fun a p => tset 0 a p.1 p.2) (recView s e).energy := by
  unfold postedRec lastSeen withIc
  constructor
  · split <;> split <;> rfl
  · split <;> split <;> rfl

theorem postedRec_rxIc (hm : icMoved it = true) :
    (postedRec s it e).rxIc = if (pinGet s e).on then (pinGet s e).rxIc else frameIc it.f := by
  have hseen : (postedRec s it e).rxIc = (withIc s it e (recView s e)).rxIc := by
    unfold postedRec lastSeen
    split <;> rfl
  rw [hseen, withIc, hm]
  cases hon : (pinGet s e).on with
  | false => rfl
  | true =>
    rw [if_neg (by decide), if_pos rfl, recView]
    exact congrArg EpRec.rxIc (if_pos hon)

/-! ## The posting -/

/-- The completion an oversize alarm has. -/
def alarmTold (s : State) (it : RpItem) (e : Nat) : State :=
  if it.alarm && decide (it.verdict ≤ 1) then
    unsolicited s (alarmType s (it.f.alarm.getD 0)) e (routeGC s (itemGroup it) it.cls)
      (willWrite s (itemGroup it) it.cls) (it.f.alarm.getD 0).toNat
  else s

theorem ends_alarmTold (o : Option Nat) : Ends s (alarmTold s it e) o := by
  unfold alarmTold
  split
  · exact ends_unsolicitedTc s o _ _ _ _ _ false
  · exact .refl s o

/-- An item with its posting's mark. -/
def marked (it : RpItem) (p : Posted) : RpItem := if p.out then { it with flags := setFlag it.flags 21 } else it

/-- The posting of an item's registers. -/
def itemPosting (s : State) (it : RpItem) (e : Nat) : Posted :=
  postReading s e (itemTime s (recView s e) it) it.f.regs fun r => lastSeen s it (withIc s it e r)

variable {it} in
theorem itemPost_posts {e : Nat} (he : it.eid = some e) (h : it.verdict ≤ 1 ∧ wbit it.flags 22 = false) :
    itemPost s it = itemForm (alarmTold (icWritten (itemPosting s it e).s it e) (marked it (itemPosting s it e)) e)
      (marked it (itemPosting s it e)) (some (itemPosting s it e)) (marked it (itemPosting s it e)).tc0 := by
  cases it
  cases he
  unfold itemPost
  dsimp only
  rw [if_pos h]
  rfl

variable {it} in
theorem itemPost_touches {e : Nat} (he : it.eid = some e) (h : ¬ (it.verdict ≤ 1 ∧ wbit it.flags 22 = false)) :
    itemPost s it = itemForm (alarmTold (itemTouched s it true (lastSeen s it)) it e) it none it.tc0 := by
  unfold itemPost
  rw [he]
  dsimp only
  rw [if_neg h]
  rfl

/-- What the record of a posted item holds. -/
def PostedAt (s t : State) (it : RpItem) (e : Nat) : Prop :=
  (recGet t e).rxIc = (postedRec s it e).rxIc ∧
    (bound s (postedRec s it e) = false → (recGet t e).energy = postedRegs (postedRec s it e) it.f.regs)

variable {it} in
theorem itemPost_kept (hv : it.verdict ≤ 2) : Ends s (itemPost s it) it.eid ∧ ReadingFormed (itemPost s it) it ∧
    ∀ e, it.eid = some e → it.verdict ≤ 1 → wbit it.flags 22 = false → PostedAt s (itemPost s it) it e := by
  cases he : it.eid with
  | none =>
    have hform : itemPost s it = itemForm s it none it.tc0 := by
      unfold itemPost
      rw [he]
    rw [hform]
    obtain ⟨h1, h2⟩ := itemForm_formed s hv none it.tc0 none
    exact ⟨h1, h2, fun e h => by cases h⟩
  | some e =>
    by_cases h : it.verdict ≤ 1 ∧ wbit it.flags 22 = false
    · have hmark : (marked it (itemPosting s it e)).verdict = it.verdict ∧ (marked it (itemPosting s it e)).cls = it.cls ∧
          itemKind (marked it (itemPosting s it e)) = itemKind it ∧ (marked it (itemPosting s it e)).rxDt = it.rxDt ∧
          (marked it (itemPosting s it e)).eid = it.eid := by
        unfold marked
        split <;> exact ⟨rfl, rfl, rfl, rfl, rfl⟩
      obtain ⟨m1, m2, m3, m4, m5⟩ := hmark
      obtain ⟨hends, en, hmet, hregs⟩ := postReading_kept s e (itemTime s (recView s e) it) it.f.regs
        fun r => lastSeen s it (withIc s it e r)
      rw [← itemPosting] at hends hmet
      rw [itemPost_posts s he h]
      generalize itemPosting s it e = p at hends hmet m1 m2 m3 m4 m5
      have hwritten := fun o => ends_icWritten p.s e it o
      have htold := fun o => ends_alarmTold (icWritten p.s it e) (marked it p) e o
      obtain ⟨hform, hformed⟩ := itemForm_formed (alarmTold (icWritten p.s it e) (marked it p) e) (it := marked it p)
        (by omega) (some p) (marked it p).tc0 (some e)
      have hform' := (itemForm_formed (alarmTold (icWritten p.s it e) (marked it p) e) (it := marked it p)
        (by omega) (some p) (marked it p).tc0 none).1
      have hrec : ∀ y, recGet (itemForm (alarmTold (icWritten p.s it e) (marked it p) e) (marked it p) (some p)
          (marked it p).tc0) y = recGet p.s y := fun y =>
        ((hwritten none).trans ((htold none).trans hform')).others y (by simp)
      refine ⟨hends.trans ((hwritten _).trans ((htold _).trans hform)),
        hformed.of_item m1.symm m2.symm m3.symm m4.symm m5.symm, fun e' he' _ _ => ?_⟩
      obtain rfl := Option.some.inj he'
      rw [PostedAt, hrec, hmet.rxIc, hmet.energy]
      exact ⟨rfl, hregs⟩
    · rw [itemPost_touches s he h]
      have htouch := ends_itemTouched s it true (lastSeen s it)
      rw [he] at htouch
      obtain ⟨h1, h2⟩ := itemForm_formed (alarmTold (itemTouched s it true (lastSeen s it)) it e) hv none it.tc0 (some e)
      exact ⟨htouch.trans ((ends_alarmTold _ it e _).trans h1), h2, fun e' _ h3 h4 => absurd ⟨h3, h4⟩ h⟩

end

end Sys2Proof.Machine
end

section
/-!
# POSTING's and VALIDATION's rows, the filter and the quarantine ring (04 R134 to R141)

The rows are the parts before put at their fronts; what a row reads lies outside the queues it takes its item from.
-/
namespace Sys2Proof.Machine
open Sys2Proof Sys2Proof.Safety

/-! ## POSTING -/

/-- The state with the item taken from posting. -/
def postTaken (s : State) (it : RpItem) : State :=
  rpSet (arbTake s 4 it.cls) fun r => { r with postQ := r.postQ.filter fun x => x.id != it.id }

theorem postingRow_posts {s : State} {it : RpItem} (hfront : postFront s = some it) (hroom : postRoom s it = true) :
    postingRow s = itemPost (postTaken s it) it := by
  unfold postingRow
  rw [hfront]
  dsimp only
  rw [if_neg (by rw [hroom]; decide)]
  rfl

/-- What a posting reads of the state is outside the path's queues. -/
theorem postTaken_reads (s : State) (it : RpItem) (e : Nat) :
    (postTaken s it).rp.postQ = (s.rp.postQ.filter fun x => x.id != it.id) ∧ (postTaken s it).recs = s.recs ∧
      postedRec (postTaken s it) it e = postedRec s it e ∧ ∀ r, bound (postTaken s it) r = bound s r := by
  have hqueues : ∀ (g : Glob) (r : RpSt), postedRec { s with glob := g, rp := r } it e = postedRec s it e := fun _ _ => rfl
  obtain ⟨g, hg⟩ := arbTake_is s 4 it.cls
  rw [postTaken, hg]
  exact ⟨rfl, rfl, hqueues g _, fun _ => rfl⟩

theorem postingRow_kept {s : State} {it : RpItem} (hfront : postFront s = some it) (hroom : postRoom s it = true)
    (hv : it.verdict ≤ 2) :
    (postingRow s).rp.postQ = (s.rp.postQ.filter fun x => x.id != it.id) ∧ ReadingFormed (postingRow s) it ∧
      (∀ y, it.eid ≠ some y → recGet (postingRow s) y = recGet s y) ∧
      ∀ e, it.eid = some e → it.verdict ≤ 1 → wbit it.flags 22 = false → PostedAt s (postingRow s) it e := by
  obtain ⟨hends, hform, hposted⟩ := itemPost_kept (postTaken s it) hv
  rw [postingRow_posts hfront hroom]
  obtain ⟨hq, hrecs, -, hbound⟩ := postTaken_reads s it 0
  have hread := fun e => (postTaken_reads s it e).2.2.1
  generalize postTaken s it = v at hends hform hposted hq hrecs hbound hread
  refine ⟨(congrArg (·.2) hends.queues).trans hq, hform, fun y hy => ?_, fun e he h1 h22 => ?_⟩
  · rw [hends.others y hy, recGet, recGet, hrecs]
  · have h := hposted e he h1 h22
    rw [PostedAt, hread e, hbound] at h
    exact h

/-! ## The filter and the quarantine ring -/

theorem quarantineRead_reads {s : State} {u : Nat} {f : Flight} (hr : runnable s u 0x31 = some f)
    (hs : stateShut s u = false) :
    let old := decide (dByte f.raw 24 4 < (quarOldest s).toNat)
    let start := max (dByte f.raw 24 4) (quarOldest s).toNat
    let out := quarFit (s.rp.quar.filter fun q => decide (start ≤ q.qseq.toNat)) (dByte f.raw 28 4) (dBufLen f.raw)
    quarantineRead s u = complete (writeBuf s f (out.map quarBytes).flatten) f stOk 0 0
      (result4 out.length (match out.getLast? with | some q => q.qseq.toNat + 1 | none => start) (quarOldest s).toNat
        (b2n old)) := by
  intro old start out
  have hstart : (if old then (quarOldest s).toNat else dByte f.raw 24 4) = start := by
    simp only [old, start, decide_eq_true_eq]
    split <;> omega
  rw [quarantineRead, withDesc_run s u 0x31 _ f hr hs]
  dsimp only
  rw [hstart]
  rfl

end Sys2Proof.Machine
end

section
open Sys2Proof Sys2Proof.Machine Sys2Proof.Safety

/-- Settles O52: a frame enters the path, passes it stage by stage, and its record waits for its seal. -/
theorem framesBecomeRecords : Obligations.FramesBecomeRecords := by
  refine ⟨?tunnel, ?parse, ?cipher, ?valid, ?post, ?filter, ?quarantine⟩
  case tunnel =>
    rintro s u f e ⟨ha, hr, hs, hd⟩ hn hbad hhead hfn - hunits hstop hout hgate hlen hroom hdeliv
    have hrow := exec_opTunnelRx u [e] s ha
    obtain ⟨hq, hshut, htab, hcq⟩ := tunnelTaken_kept (s := bwRx s 66 (dBufLen f.raw)) (g := dAux f.raw % 4) (uid := u) (e := e)
      hout hlen (Nat.mod_lt _ (by decide)) hgate
    rw [tunnelRx_one hr hs hn hbad hhead hfn hunits hstop hroom hdeliv hshut] at hrow
    generalize tunnelTaken (bwRx s 66 (dBufLen f.raw)) (dAux f.raw % 4) u e = v at hq htab hcq hrow
    refine ⟨_, tunnelled (bwRx s 66 (dBufLen f.raw)) (dAux f.raw % 4) e, hrow, ?_, rfl, rfl, ?_, ?_⟩
    · exact completed_of s v f stOk 2 0 _ hd (by rw [cqGet, hcq]; rfl)
    · rw [wmUpdate_rp, completeOk, complete_rp, hq]
      rfl
    · rw [wmUpdate_recs, completeOk, complete_recs_tab, htab]
      rfl
  case parse =>
    intro s ch x l ha hrx hroom hcls harb hadm hnew hn
    obtain ⟨h1, h2, y, hy, hsame⟩ := parseAndClassify_enters hrx hroom hcls harb hadm hnew hn
    obtain ⟨-, -, -, hc, he⟩ := received_is s ch x
    exact ⟨_, y, exec_parseAndClassify false ch s ha, h1, hy, hsame.id, hsame.f, hsame.rxDt, hsame.cls.trans hc,
      hsame.eid.trans he, h2⟩
  case cipher =>
    intro s p e it ha hfront hin hpass hstage hroom hnew he
    obtain ⟨w, hw, hfail, hok⟩ := decryptVerify_ready hfront hin hpass hstage hroom
    have hrow : ∀ ok v, cipherPass w it p ok = some v →
        exec (.decryptAndVerify p false ok) s = .next (wmUpdate v) := fun ok v h => by
      rw [exec_decryptAndVerify p false ok s ha, hok ok, h]
      rfl
    refine ⟨fun i hi h1 h2 h3 hpend hrep => ?passes, fun i hi h1 h2 h3 hpend hcnt hrep hdup => ?replayed,
      fun hi q hq hb hsets => ⟨?twice, fun hp hkeys => ?convicted⟩, fun hp => ?faulty⟩
    case passes =>
      obtain ⟨v, hv, hleft, hseen⟩ := verified_passes hw hnew he hi hpend h1 h2 h3 hrep false
      obtain ⟨hin', hgone, htab, -⟩ := hleft.forward (underKey (inHand it p) (slotGet s i).gen)
      refine ⟨_, _, hrow false _ hv, hin', rfl, rfl, fun hc hempty => ?_, hgone, htab⟩
      rw [rpForward_empty (show (validated v _).rp.parsed = [] from hleft.parsed.trans hempty)]
      exact hseen hc
    case replayed =>
      obtain ⟨v, y, hv, hleft, hid, hflag⟩ := verified_replayed hw hnew he hi hpend h1 h2 h3 hcnt hrep hdup false
      obtain ⟨hin', -, htab, -⟩ := hleft.forward y
      exact ⟨_, y, hrow false _ hv, hin', hid, hflag, htab⟩
    case twice =>
      obtain ⟨v, hv, hleft, hpool⟩ := tagFails_twice hw hnew hi hq hb hsets
      obtain ⟨hin', hgone, htab, hrest⟩ := hleft.forward (tagFailed (inHand it p))
      refine ⟨_, _, hrow false _ hv, hin', rfl, wbit_setFlag_self _ (by decide), ?_, hgone, htab⟩
      rw [pool, wmUpdate_ce, pathRest_ce hrest, ← pool, hpool]
    case convicted =>
      obtain ⟨v, hv, h8, hpf, hfn, hgone⟩ := tag_convicts hw hnew hi hq hb hsets hp hkeys
      obtain ⟨hgone', -, hrest⟩ := rpForward_gone hgone
      refine ⟨_, hrow true _ hv, ?_, ?_, ?_, hgone'⟩
      · rw [wmUpdate_ce, pathRest_ce hrest, h8]
      · rw [wmUpdate_ce, pathRest_ce hrest, hpf]
      · rw [fnGet, wmUpdate_funcs, pathRest_funcs hrest]
        exact hfn
    case faulty =>
      have hrow' := exec_decryptAndVerify p true false s ha
      obtain ⟨h1, h2, h3, h4⟩ := pipeFailed_marks hw it hp
      rw [hfail] at hrow'
      generalize pipeFailed w it p = v at hrow' h1 h2 h3 h4
      exact ⟨_, hrow', h1, h2, h3, h4⟩
  case valid =>
    intro s it ha hfront hroom htxn hdup
    have hrow := exec_validation s ha
    refine ⟨fun hkind => ⟨_, hrow, validation_posts hfront hroom htxn hdup hkind⟩, fun halarm hcls hv => ?_⟩
    obtain ⟨h1, h2, x, hx, hxv, hxc, hxk, hxd, -⟩ := validation_alarms hfront hroom htxn hdup halarm hcls hv
    obtain ⟨fl, vd, hj⟩ := judged_is s it
    have hk : itemKind (judged s it) = 1 ∧ (judged s it).cls = it.cls ∧ (judged s it).rxDt = it.rxDt := by
      rw [hj]
      exact ⟨if_pos halarm, rfl, rfl⟩
    exact ⟨_, x, hrow, h1, h2, hx, hxk.trans hk.1, hxc.trans (hk.2.1.trans hcls), hxv, hxd.trans hk.2.2⟩
  case post =>
    intro s it ha hfront hopen hv hroom
    have hrow := exec_posting s ha (by rw [hfront]; exact hopen)
    obtain ⟨hq, ⟨x, hx, hxv, hxc, hxk, hxd, hxe⟩, hothers, hposted⟩ := postingRow_kept hfront hroom hv
    refine ⟨_, x, hrow, hq, hx, hxv, hxc, hxd, hxk, fun e he => by rw [hxe, he]; rfl, fun e he h1 h22 hbound => ?_,
      fun e he h1 h22 hm => ?_, hothers⟩
    · obtain ⟨hb, hregs⟩ := postedRec_fields s it e
      exact ((hposted e he h1 h22).2 (hb.trans hbound)).trans hregs
    · exact (hposted e he h1 h22).1.trans (postedRec_rxIc s it e hm)
  case filter =>
    intro s ha
    exact ⟨_, exec_filterEntryEviction s ha, rfl, rfl⟩
  case quarantine =>
    rintro s u f ⟨ha, hr, hs, hd⟩ hup
    have hrow := exec_opQuarantineRead u s ha
    rw [quarantineRead_reads hr hs] at hrow
    have hrp : ∀ bs, (writeBuf s f bs).rp = s.rp := fun bs => by
      obtain ⟨c, w, h⟩ := writeBuf_up hup f bs
      rw [h]
    exact ⟨_, _, _, _, hrow, rfl, rfl, rfl, wrote_complete hup f _ _ _ _ _, completed_writeBuf hd _ _ _ _ _,
      by rw [wmUpdate_rp, complete_rp, hrp]⟩

end
